-- ==== Sys2Proof/Word.lean ====
section
/-! DEFINITION. The word types of the XM-480 and nothing else (R8, R43, R73): bytes, encoding words, general registers,
vector registers, and the one test of a bit by number. -/

namespace Sys2Proof

/-- One byte of memory. -/
abbrev Byte := BitVec 8

/-- A 32-bit word: a bundle header, a slot word, a literal (R43), a vector lane (R189). -/
abbrev W32 := BitVec 32

/-- A 64-bit word: a general register, an address, a system register (R73, R77). -/
abbrev W64 := BitVec 64

/-- A 4 KiB vector register, byte 0 in bits 7 to 0 (R73, R102). -/
abbrev VReg := BitVec 32768

end Sys2Proof
end

