-- ==== Sys2Proof/Names.lean ====
section
/-! DEFINITION. The named alternatives and the packets that instructions and events carry (R45, R258, R288). -/

namespace Sys2Proof

/-- The three spaces of the memory slots (R145). -/
inductive Space where
  | ll | lk | lg
  deriving DecidableEq, Repr

/-- The opcode maps (R84 to R96); S0 and S1 share one (R85), LL, LK and LG share one (R87). -/
inductive SlotMap where
  | c | s | v | m | qm | qc | sc | mem (sp : Space) | x
  deriving DecidableEq, Repr

/-- Element-wise combining of a reduction at memory or of a collective (R178, R280). -/
inductive RedOp where
  | addF32 | maxF32 | minF32 | addBf16 | addS32 | maxS32 | minS32
  deriving DecidableEq, Repr

/-- The eight atomics (R176). -/
inductive AmoOp where
  | add | min | max | and | or | xor | swp | cas
  deriving DecidableEq, Repr

/-- A coordinate packet on its way to a Tailrace: a data packet or an end marker (R258), with what the carrying
network adds. `tail` numbers the Tailrace as R365 does. -/
structure LandPkt where
  src     : BitVec 12
  core    : BitVec 8
  tenant  : BitVec 4
  tail    : Nat
  hdr     : BitVec 128
  payload : List Byte
  deriving DecidableEq, Repr

/-- A contribution of a collective reduction (R280, R301). -/
structure XredPkt where
  pkt  : LandPkt
  op   : RedOp
  nc   : BitVec 6
  rank : BitVec 6
  gen  : BitVec 4
  deriving DecidableEq, Repr

/-- A causal-token store in flight (R179, R180, R251). `seq` is the token of a `st.lg.c`, `carries` the tokens a
`st.lg.k` carries; `ctx` is the issuing context's number on package `src`. `tag` and `gen` match the request at its issuer (R297);
inside one package `tag` is the operation's number. -/
structure CausalPkt where
  src      : BitVec 12
  ctx      : Nat
  tag      : Nat
  gen      : BitVec 4
  seq      : Option (BitVec 16)
  carries  : List (BitVec 16)
  deadline : Nat
  va       : W64
  pa       : Nat
  bytes    : List Byte
  deriving DecidableEq, Repr

/-- One 64-byte line of a memory reduction travelling to its home router (R299): the words present, by word number. `core`, `tag`
and `gen` match the request at its issuer (R297); inside one package `tag` is the operation's number. -/
structure RedPkt where
  src    : BitVec 12
  core   : BitVec 8
  tag    : Nat
  gen    : BitVec 4
  tenant : BitVec 4
  op     : RedOp
  line   : Nat
  words  : List (Nat × W32)
  deriving DecidableEq, Repr

/-- What a remote access asks of its home (R297). -/
inductive RemKind where
  | load (len : Nat)
  | store (bytes : List Byte)
  | amo (op : AmoOp) (b c : W64)
  deriving DecidableEq, Repr

/-- A remote request (R297): tag and generation are the issuing core's. -/
structure RemReq where
  src  : BitVec 12
  core : BitVec 8
  tag  : Nat
  gen  : BitVec 4
  pa   : Nat
  kind : RemKind
  deriving DecidableEq, Repr

/-- A word of a link pair bound in MODE 0 (R293). -/
structure LinkWord where
  src     : BitVec 12
  srcCore : BitVec 8
  core    : BitVec 8
  link    : BitVec 3
  word    : W64
  deriving DecidableEq, Repr

/-- A request of a link pair bound in MODE 1 (R294). -/
structure LinkReq where
  src  : BitVec 12
  core : BitVec 8
  link : BitVec 3
  op   : BitVec 4
  tag  : BitVec 12
  gen  : BitVec 4
  pa   : Nat
  opnd : W64
  cmp  : W64
  deriving DecidableEq, Repr

/-- A flit (R288): 8 bytes of header, 256 of payload, 8 of integrity tag. On a link the payload is encrypted (R289); inside a router
it is in clear and the tag is zero. -/
structure Flit where
  hdr     : W64
  payload : BitVec 2048
  tag     : BitVec 64
  deriving DecidableEq, Repr

/-- What an undeliverable notice names (R298): a transfer by its TID, a tagged access (a causal store among them), a link request, or
units of power that could not be delivered; of a packet that names none of these, its class (R290). -/
inductive Notice where
  | transfer (core : BitVec 8) (tid : BitVec 12)
  | access (core : BitVec 8) (tag : Nat) (gen : BitVec 4)
  | link (core : BitVec 8) (link : BitVec 3) (tag : BitVec 12) (gen : BitVec 4)
  | units (n : Nat)
  | packet (cls : BitVec 3)
  deriving DecidableEq, Repr

/-- A package's life-cycle states (R367). -/
inductive LifeCycle where
  | blank | provisioned | deployed | returned
  deriving DecidableEq, Repr

/-- The two signatures over one message (R7, R367, R368): Ed25519 and ML-DSA-65. -/
structure Signatures where
  ed : BitVec 512
  ml : List Byte
  deriving DecidableEq, Repr

/-- A firmware image with its signatures, as the package flash holds it (R367). -/
structure Firmware where
  image : List Byte
  sigs  : Signatures
  deriving DecidableEq, Repr

/-- An attestation report (R368): the chip id, the life-cycle state and the firmware digest that it covers, the signatures, and the
sender's shares of the two key agreements (R7). -/
structure AttReport where
  chip   : BitVec 12
  life   : LifeCycle
  digest : List Byte
  sigs   : Signatures
  x25519 : BitVec 256
  mlKem  : List Byte
  deriving DecidableEq, Repr

/-- A resource that an error can strike (R320, R369). `unit` is its core, cluster, slice, port or package part. -/
inductive Resource where
  | scratchCore | scratchCluster | hbmRow | cxl | registers | tile | stone | curve | fetch | lane
  deriving DecidableEq, Repr

/-- What reads the data that an uncorrectable error strikes (R320): the next issue of context `x`, by the word of `slot` (15 for a
register file or a fetch); an operation in flight; a request that this package serves (R295, R297); a reduction slot, at its line (R297, R299). -/
inductive Reader where
  | issue (x slot : Nat)
  | op (id : Nat)
  | remote (r : RemReq)
  | link (r : LinkReq)
  | red (n : Nat)
  deriving DecidableEq, Repr

/-- What the device sends (R1, R364): messages to a package (`chip`), what passes between link partners (`port`), flits in transit that
wait for their port, and the report of a reset that failed. -/
inductive Sent where
  | land (chip : BitVec 12) (p : LandPkt)
  | xred (chip : BitVec 12) (p : XredPkt)
  | causal (chip : BitVec 12) (p : CausalPkt)
  | red (chip : BitVec 12) (p : RedPkt)
  | remote (chip : BitVec 12) (r : RemReq)
  | reply (chip : BitVec 12) (core : BitVec 8) (tag : Nat) (gen : BitVec 4) (status : BitVec 4) (data : List Byte)
  | linkWord (chip : BitVec 12) (w : LinkWord)
  | linkReq (chip : BitVec 12) (r : LinkReq)
  | linkReply (chip : BitVec 12) (core : BitVec 8) (link : BitVec 3) (status data : W64)
  | ack (chip : BitVec 12) (core : BitVec 8) (tid : BitVec 12) (strays : Nat)
  | notice (chip : BitVec 12) (seq : BitVec 16)
  | query (chip : BitVec 12) (seq : BitVec 16)
  | answer (chip : BitVec 12) (seq : BitVec 16) (landed : Bool)
  | expiry (chip : BitVec 12) (ctx : Nat) (va : W64) (tag : Nat) (gen : BitVec 4)
  | undeliverable (chip : BitVec 12) (n : Notice)
  | transit (from_ : BitVec 3) (port : BitVec 3) (f : Flit)
  | replayRequest (port : BitVec 3) (ctr : Nat)
  | give (chip : BitVec 12) (units : Nat)
  | ask (chip : BitVec 12) (units : Nat)
  | limit (chip : BitVec 12) (group : BitVec 16) (quarter : Nat) (steps : Nat)
  | groupClock (chip : BitVec 12) (group : BitVec 16) (quarter : Nat) (steps : Nat) (at_ : Nat)
  | attest (port : BitVec 3) (r : AttReport)
  | report (lifeCycle : LifeCycle)
  deriving DecidableEq, Repr

end Sys2Proof
end

