-- ==== Sys2Proof/Config.lean ====
section
/-! DEFINITION. What an implementation fixes, and the FREE VALUES: opaque constants without a body, so that nothing in Lean
can evaluate them and a statement that mentions one holds for every value of it. -/

namespace Sys2Proof.Config

/-- Nanoseconds of fabric time that pass at tick `n` (R358; a value of time, which R6 leaves open; log 6). -/
opaque timeStep : Nat → Nat

/-- nJ charged at tick `n` to consumer `k` (R363; a measured value, which R6 leaves open; log 6). -/
opaque energyStep : Nat → Nat → Nat

/-- The thermal limit of quarter `q`, in 25 MHz steps, at tick `n` (R359: the Governor's own sensors set it; log 6). -/
opaque thermalLimit : Nat → Nat → Nat

/-- A quarter's average draw in units of 0.5 W at tick `n` (R362, a measured value; log 6). -/
opaque draw : Nat → Nat → Nat

/-- The average draw of quarter `q`, in units of 0.5 W, over the 50 µs after tick `n` at a clock of so many 25 MHz steps (R362, a
measured value; log 6). -/
opaque drawAt : Nat → Nat → Nat → Nat

/-- The lowest chip id among the packages other than this one that have a member quarter in step group `g` at tick `n` (R360: the
spec gives a package no way to know it; log 6). -/
opaque otherMember : BitVec 16 → Nat → BitVec 12

/-- Whether the self-test made at tick `n` finds a lasting fault (R334, R369; log 7). -/
opaque lastingFault : Nat → Bool

/-! ### Keys, seeds and messages (R7, R289, R367, R368; log 8) -/

/-- The two public keys fused at manufacture (R367). -/
opaque fusedEd25519 : BitVec 256
opaque fusedMlDsa65 : List Byte

/-- The public identity keys of the package `chip` (R368). -/
opaque identityEd25519 : BitVec 12 → BitVec 256
opaque identityMlDsa65 : BitVec 12 → List Byte

/-- The private seeds of the identity key pairs that this package created at tick `n` (R368). -/
opaque edSeed : Nat → BitVec 256
opaque dsaSeed : Nat → BitVec 256

/-- The random bytes of an ML-DSA-65 signature made at tick `n` (FIPS 204). -/
opaque dsaRandom : Nat → BitVec 256

/-- The random bytes of the agreement made at tick `n`: the X25519 scalar, the two seeds of an ML-KEM-768 key, the message of an
encapsulation (R7). -/
opaque x25519Scalar : Nat → BitVec 256
opaque kemSeedD : Nat → BitVec 256
opaque kemSeedZ : Nat → BitVec 256
opaque kemMessage : Nat → BitVec 256

/-- The salt of HKDF, and its info for a link direction: one that runs from the package of the lower chip id, or to it (R7). -/
opaque hkdfSalt : List Byte
opaque hkdfInfo : Bool → List Byte

/-- The digest of a firmware image (R368). -/
opaque digest : List Byte → List Byte

/-- The message that an attestation report's signatures cover (R368), and that of a life-cycle command (R367). -/
opaque reportMessage : BitVec 12 → LifeCycle → List Byte → List Byte
opaque commandMessage : LifeCycle → List Byte

/-! ### Links and landings (logs 103 and 104) -/

/-- How many of the last flits sent by port `k` are still in flight when it is cleared at tick `n` (R290, R298). -/
opaque inFlight : Nat → Nat → Nat

/-- Whether the router at the far side of port `k` is in reset at tick `n` (R298, R306). -/
opaque farReset : Nat → Nat → Bool

/-- Which of the elements of a packet that have not landed lands next, at tick `n` (R257, R270). -/
opaque landNext : Nat → Nat

/-! ### What the spec gives no layout (log 49) -/

/-- The bytes of a packet, and what the first payload of a packet in transit names of it for a notice (R298). -/
opaque packetBytes : Sent → List Byte
opaque packetNotice : BitVec 3 → BitVec 2048 → Option Notice

/-- The elements of a merged run whose contributions combine by different forms under one key (R301 gives it none; log 45). -/
opaque mixedRun : List XredPkt → List Nat

/-- Credits returned in the header of the flit that port `k` sends as number `n` (R288, R291). -/
opaque credits : Nat → Nat → BitVec 11

/-- Bytes of one core scratchpad: 1.5 MiB (R4, R145). -/
abbrev llBytes : Nat := 0x180000

/-- Bytes of one cluster scratchpad: 8 MiB (R4, R145). -/
abbrev lkBytes : Nat := 0x800000

/-- Populated bytes of one L2 slice's HBM (R148). -/
abbrev sliceBytes : Nat := 8000000000

/-- Bytes attached to each CXL port (R148: up to 4 TiB; the capacity attached is the site's; log 4). -/
abbrev cxlBytes : Nat := 0x40000000000

/-- Bytes of a team's store buffer: 256 KiB (R37). -/
abbrev storeBufferBytes : Nat := 0x40000

/-- Bytes of a core's undo log: 64 KiB (R38). -/
abbrev undoLogBytes : Nat := 0x10000

/-- Places of the causal token table (R252). -/
abbrev tokenPlaces : Nat := 8192

/-- Places of the Sluice (R233). -/
abbrev sluicePlaces : Nat := 4096

/-- Reduction slots of a router (R302). -/
abbrev reductionSlots : Nat := 512

/-- Entries of a stray buffer (R269). -/
abbrev strayPlaces : Nat := 64

/-- Transfers a Headrace holds (R271). -/
abbrev headracePlaces : Nat := 256

/-- Words a link FIFO holds in one direction (R75). -/
abbrev linkWords : Nat := 16

end Sys2Proof.Config
end

