-- ==== Sys2Proof/Syntax.lean ====
section
/-! DEFINITION. The instructions: one constructor for each row of spec/opcode_table.json. A row with an encoding is a SLOT
WORD (R44): its constructor holds the operand fields under the letters of the table (R83 to R96), a memory form that is
allowed in more than one slot holds its space first (R88). PT, FI and LI belong to every slot word alike and stand in
`Slot` (Decode.lean). A row without an encoding is an EVENT, a step that a bundle does not name (spec/95): its
constructor holds what the event carries. -/

namespace Sys2Proof

/-- One row of the opcode table each. The words of the sticky slots come first, so that compiled code can build them. -/
inductive Instr where
  -- the S0 and S1 slots (R86)
  | addS64 (d : BitVec 6) (a : BitVec 6) (b : BitVec 6)
  | subS64 (d : BitVec 6) (a : BitVec 6) (b : BitVec 6)
  | mulS64 (d : BitVec 6) (a : BitVec 6) (b : BitVec 6)
  | mulhS64 (d : BitVec 6) (a : BitVec 6) (b : BitVec 6)
  | mulhZ64 (d : BitVec 6) (a : BitVec 6) (b : BitVec 6)
  | andZ64 (d : BitVec 6) (a : BitVec 6) (b : BitVec 6)
  | orZ64 (d : BitVec 6) (a : BitVec 6) (b : BitVec 6)
  | addS64Imm (d : BitVec 6) (a : BitVec 6) (i : BitVec 8)
  | andZ64Imm (d : BitVec 6) (a : BitVec 6) (i : BitVec 8)
  | orZ64Imm (d : BitVec 6) (a : BitVec 6) (i : BitVec 8)
  | xorZ64Imm (d : BitVec 6) (a : BitVec 6) (i : BitVec 8)
  | liS64 (d : BitVec 6) (k : BitVec 5)
  | li64 (d : BitVec 6) (k : BitVec 5)
  | xorZ64 (d : BitVec 6) (a : BitVec 6) (b : BitVec 6)
  | shlZ64Imm (d : BitVec 6) (a : BitVec 6) (n : BitVec 6)
  | shrZ64Imm (d : BitVec 6) (a : BitVec 6) (n : BitVec 6)
  | asrS64Imm (d : BitVec 6) (a : BitVec 6) (n : BitVec 6)
  | shlZ64 (d : BitVec 6) (a : BitVec 6) (b : BitVec 6)
  | shrZ64 (d : BitVec 6) (a : BitVec 6) (b : BitVec 6)
  | asrS64 (d : BitVec 6) (a : BitVec 6) (b : BitVec 6)
  | minS64 (d : BitVec 6) (a : BitVec 6) (b : BitVec 6)
  | maxS64 (d : BitVec 6) (a : BitVec 6) (b : BitVec 6)
  | minZ64 (d : BitVec 6) (a : BitVec 6) (b : BitVec 6)
  | maxZ64 (d : BitVec 6) (a : BitVec 6) (b : BitVec 6)
  | divS64 (d : BitVec 6) (a : BitVec 6) (b : BitVec 6)
  | divZ64 (d : BitVec 6) (a : BitVec 6) (b : BitVec 6)
  | remS64 (d : BitVec 6) (a : BitVec 6) (b : BitVec 6)
  | remZ64 (d : BitVec 6) (a : BitVec 6) (b : BitVec 6)
  | bfxZ64 (d : BitVec 6) (a : BitVec 6) (k : BitVec 5)
  | bfxS64 (d : BitVec 6) (a : BitVec 6) (k : BitVec 5)
  | cmpLtS64 (c : BitVec 4) (a : BitVec 6) (b : BitVec 6)
  | cmpEqS64 (c : BitVec 4) (a : BitVec 6) (b : BitVec 6)
  | cmpLeS64 (c : BitVec 4) (a : BitVec 6) (b : BitVec 6)
  | cmpNeS64 (c : BitVec 4) (a : BitVec 6) (b : BitVec 6)
  | cmpLtZ64 (c : BitVec 4) (a : BitVec 6) (b : BitVec 6)
  | cmpLeZ64 (c : BitVec 4) (a : BitVec 6) (b : BitVec 6)
  | bfiZ64 (d : BitVec 6) (a : BitVec 6) (k : BitVec 5)
  | cmpLtS64Imm (c : BitVec 4) (a : BitVec 6) (i : BitVec 10)
  | cmpEqS64Imm (c : BitVec 4) (a : BitVec 6) (i : BitVec 10)
  | cmpLeS64Imm (c : BitVec 4) (a : BitVec 6) (i : BitVec 10)
  | cmpNeS64Imm (c : BitVec 4) (a : BitVec 6) (i : BitVec 10)
  | cmpLtZ64Imm (c : BitVec 4) (a : BitVec 6) (i : BitVec 10)
  | cmpLeZ64Imm (c : BitVec 4) (a : BitVec 6) (i : BitVec 10)
  | fand (c : BitVec 4) (a : BitVec 4) (b : BitVec 4)
  | fior (c : BitVec 4) (a : BitVec 4) (b : BitVec 4)
  | fxor (c : BitVec 4) (a : BitVec 4) (b : BitVec 4)
  | fandn (c : BitVec 4) (a : BitVec 4) (b : BitVec 4)
  | fset (c : BitVec 4)
  | fclr (c : BitVec 4)
  | movS64Pop (g : BitVec 6) (k : BitVec 3)
  | movS64Push (g : BitVec 6) (k : BitVec 3)
  | popcZ64 (d : BitVec 6) (a : BitVec 6)
  | clzZ64 (d : BitVec 6) (a : BitVec 6)
  | ctzZ64 (d : BitVec 6) (a : BitVec 6)
  | cvtF32S64 (d : BitVec 6) (a : BitVec 6) (r : BitVec 3)
  | cvtS64F32 (d : BitVec 6) (a : BitVec 6) (r : BitVec 3)
  | cvtF32Z64 (d : BitVec 6) (a : BitVec 6) (r : BitVec 3)
  | cvtZ64F32 (d : BitVec 6) (a : BitVec 6) (r : BitVec 3)
  -- the LL, LK and LG slots (R88)
  | ld (sp : Space) (v : BitVec 5) (a : BitVec 6) (o : BitVec 9)
  | st (sp : Space) (v : BitVec 5) (a : BitVec 6) (o : BitVec 9)
  | ldm (sp : Space) (m : BitVec 3) (a : BitVec 6) (o : BitVec 9)
  | stm (sp : Space) (m : BitVec 3) (a : BitVec 6) (o : BitVec 9)
  | pfLg (a : BitVec 6) (o : BitVec 9)
  | ldt (sp : Space) (v : BitVec 5) (a : BitVec 6) (b : BitVec 6)
  | stt (sp : Space) (v : BitVec 5) (a : BitVec 6) (b : BitVec 6)
  | ldsS8 (sp : Space) (g : BitVec 6) (a : BitVec 6) (o : BitVec 8)
  | ldsZ8 (sp : Space) (g : BitVec 6) (a : BitVec 6) (o : BitVec 8)
  | ldsS16 (sp : Space) (g : BitVec 6) (a : BitVec 6) (o : BitVec 8)
  | ldsZ16 (sp : Space) (g : BitVec 6) (a : BitVec 6) (o : BitVec 8)
  | ldsS32 (sp : Space) (g : BitVec 6) (a : BitVec 6) (o : BitVec 8)
  | ldsZ32 (sp : Space) (g : BitVec 6) (a : BitVec 6) (o : BitVec 8)
  | ldsS64 (sp : Space) (g : BitVec 6) (a : BitVec 6) (o : BitVec 8)
  | stsZ8 (sp : Space) (g : BitVec 6) (a : BitVec 6) (o : BitVec 8)
  | stsZ16 (sp : Space) (g : BitVec 6) (a : BitVec 6) (o : BitVec 8)
  | stsZ32 (sp : Space) (g : BitVec 6) (a : BitVec 6) (o : BitVec 8)
  | stsZ64 (sp : Space) (g : BitVec 6) (a : BitVec 6) (o : BitVec 8)
  | aaddS64 (sp : Space) (d : BitVec 6) (a : BitVec 6) (b : BitVec 6)
  | aminS64 (sp : Space) (d : BitVec 6) (a : BitVec 6) (b : BitVec 6)
  | amaxS64 (sp : Space) (d : BitVec 6) (a : BitVec 6) (b : BitVec 6)
  | aandZ64 (sp : Space) (d : BitVec 6) (a : BitVec 6) (b : BitVec 6)
  | aorZ64 (sp : Space) (d : BitVec 6) (a : BitVec 6) (b : BitVec 6)
  | axorZ64 (sp : Space) (d : BitVec 6) (a : BitVec 6) (b : BitVec 6)
  | aswpZ64 (sp : Space) (d : BitVec 6) (a : BitVec 6) (b : BitVec 6)
  | acasZ64 (sp : Space) (d : BitVec 6) (a : BitVec 6) (b : BitVec 6)
  | redAddF32 (v : BitVec 5) (a : BitVec 6) (o : BitVec 9)
  | redMaxF32 (v : BitVec 5) (a : BitVec 6) (o : BitVec 9)
  | redMinF32 (v : BitVec 5) (a : BitVec 6) (o : BitVec 9)
  | redAddS32 (v : BitVec 5) (a : BitVec 6) (o : BitVec 9)
  | redMaxS32 (v : BitVec 5) (a : BitVec 6) (o : BitVec 9)
  | redMinS32 (v : BitVec 5) (a : BitVec 6) (o : BitVec 9)
  | stLgC (v : BitVec 5) (a : BitVec 6) (c : BitVec 3)
  | stLgK (v : BitVec 5) (a : BitVec 6) (c : BitVec 3) (k : BitVec 3)
  | barWait (sp : Space) (a : BitVec 6) (o : BitVec 9) (h : BitVec 4)
  | barArrive (sp : Space) (a : BitVec 6) (o : BitVec 9)
  | barInit (sp : Space) (a : BitVec 6) (o : BitVec 9) (k : BitVec 5)
  | barExp (sp : Space) (a : BitVec 6) (o : BitVec 9) (k : BitVec 5)
  | waitany (sp : Space) (a : BitVec 6) (d : BitVec 6) (m : BitVec 8)
  | waita (sp : Space) (b : BitVec 6) (a : BitVec 6) (o : BitVec 8)
  | drain
  -- the V slot (R90)
  | vaddF32 (d : BitVec 5) (a : BitVec 5) (b : BitVec 5) (m : BitVec 3) (e : BitVec 1)
  | vsubF32 (d : BitVec 5) (a : BitVec 5) (b : BitVec 5) (m : BitVec 3) (e : BitVec 1)
  | vmulF32 (d : BitVec 5) (a : BitVec 5) (b : BitVec 5) (m : BitVec 3) (e : BitVec 1)
  | vfmaF32 (d : BitVec 5) (a : BitVec 5) (b : BitVec 5) (m : BitVec 3) (e : BitVec 1)
  | vminF32 (d : BitVec 5) (a : BitVec 5) (b : BitVec 5) (m : BitVec 3) (e : BitVec 1)
  | vmaxF32 (d : BitVec 5) (a : BitVec 5) (b : BitVec 5) (m : BitVec 3) (e : BitVec 1)
  | vaddBf16 (d : BitVec 5) (a : BitVec 5) (b : BitVec 5) (m : BitVec 3) (e : BitVec 1)
  | vsubBf16 (d : BitVec 5) (a : BitVec 5) (b : BitVec 5) (m : BitVec 3) (e : BitVec 1)
  | vmulBf16 (d : BitVec 5) (a : BitVec 5) (b : BitVec 5) (m : BitVec 3) (e : BitVec 1)
  | vfmaBf16 (d : BitVec 5) (a : BitVec 5) (b : BitVec 5) (m : BitVec 3) (e : BitVec 1)
  | vminBf16 (d : BitVec 5) (a : BitVec 5) (b : BitVec 5) (m : BitVec 3) (e : BitVec 1)
  | vmaxBf16 (d : BitVec 5) (a : BitVec 5) (b : BitVec 5) (m : BitVec 3) (e : BitVec 1)
  | vaddF16 (d : BitVec 5) (a : BitVec 5) (b : BitVec 5) (m : BitVec 3) (e : BitVec 1)
  | vsubF16 (d : BitVec 5) (a : BitVec 5) (b : BitVec 5) (m : BitVec 3) (e : BitVec 1)
  | vmulF16 (d : BitVec 5) (a : BitVec 5) (b : BitVec 5) (m : BitVec 3) (e : BitVec 1)
  | vfmaF16 (d : BitVec 5) (a : BitVec 5) (b : BitVec 5) (m : BitVec 3) (e : BitVec 1)
  | vminF16 (d : BitVec 5) (a : BitVec 5) (b : BitVec 5) (m : BitVec 3) (e : BitVec 1)
  | vmaxF16 (d : BitVec 5) (a : BitVec 5) (b : BitVec 5) (m : BitVec 3) (e : BitVec 1)
  | vdivF32 (d : BitVec 5) (a : BitVec 5) (b : BitVec 5) (m : BitVec 3) (e : BitVec 1)
  | vsqrtF32 (d : BitVec 5) (a : BitVec 5) (m : BitVec 3) (e : BitVec 1)
  | vabsF32 (d : BitVec 5) (a : BitVec 5) (m : BitVec 3) (e : BitVec 1)
  | vnegF32 (d : BitVec 5) (a : BitVec 5) (m : BitVec 3) (e : BitVec 1)
  | vaddS32 (d : BitVec 5) (a : BitVec 5) (b : BitVec 5) (m : BitVec 3) (e : BitVec 1)
  | vsubS32 (d : BitVec 5) (a : BitVec 5) (b : BitVec 5) (m : BitVec 3) (e : BitVec 1)
  | vmulS32 (d : BitVec 5) (a : BitVec 5) (b : BitVec 5) (m : BitVec 3) (e : BitVec 1)
  | vmulhS32 (d : BitVec 5) (a : BitVec 5) (b : BitVec 5) (m : BitVec 3) (e : BitVec 1)
  | vminS32 (d : BitVec 5) (a : BitVec 5) (b : BitVec 5) (m : BitVec 3) (e : BitVec 1)
  | vmaxS32 (d : BitVec 5) (a : BitVec 5) (b : BitVec 5) (m : BitVec 3) (e : BitVec 1)
  | vminZ32 (d : BitVec 5) (a : BitVec 5) (b : BitVec 5) (m : BitVec 3) (e : BitVec 1)
  | vmaxZ32 (d : BitVec 5) (a : BitVec 5) (b : BitVec 5) (m : BitVec 3) (e : BitVec 1)
  | vandZ32 (d : BitVec 5) (a : BitVec 5) (b : BitVec 5) (m : BitVec 3) (e : BitVec 1)
  | vorZ32 (d : BitVec 5) (a : BitVec 5) (b : BitVec 5) (m : BitVec 3) (e : BitVec 1)
  | vxorZ32 (d : BitVec 5) (a : BitVec 5) (b : BitVec 5) (m : BitVec 3) (e : BitVec 1)
  | vshlZ32 (d : BitVec 5) (a : BitVec 5) (b : BitVec 5) (m : BitVec 3) (e : BitVec 1)
  | vshrZ32 (d : BitVec 5) (a : BitVec 5) (b : BitVec 5) (m : BitVec 3) (e : BitVec 1)
  | vasrS32 (d : BitVec 5) (a : BitVec 5) (b : BitVec 5) (m : BitVec 3) (e : BitVec 1)
  | vnotZ32 (d : BitVec 5) (a : BitVec 5) (m : BitVec 3) (e : BitVec 1)
  | vcmpLtF32 (c : BitVec 3) (a : BitVec 5) (b : BitVec 5) (m : BitVec 3) (e : BitVec 1)
  | vcmpLeF32 (c : BitVec 3) (a : BitVec 5) (b : BitVec 5) (m : BitVec 3) (e : BitVec 1)
  | vcmpEqF32 (c : BitVec 3) (a : BitVec 5) (b : BitVec 5) (m : BitVec 3) (e : BitVec 1)
  | vcmpLtS32 (c : BitVec 3) (a : BitVec 5) (b : BitVec 5) (m : BitVec 3) (e : BitVec 1)
  | vcmpEqS32 (c : BitVec 3) (a : BitVec 5) (b : BitVec 5) (m : BitVec 3) (e : BitVec 1)
  | vcmpLtZ32 (c : BitVec 3) (a : BitVec 5) (b : BitVec 5) (m : BitVec 3) (e : BitVec 1)
  | vmand (c : BitVec 3) (a : BitVec 3) (b : BitVec 3)
  | vmor (c : BitVec 3) (a : BitVec 3) (b : BitVec 3)
  | vmxor (c : BitVec 3) (a : BitVec 3) (b : BitVec 3)
  | vmnot (c : BitVec 3) (a : BitVec 3)
  | vsel (d : BitVec 5) (a : BitVec 5) (b : BitVec 5) (m : BitVec 3)
  | vperm (d : BitVec 5) (a : BitVec 5) (b : BitVec 5) (m : BitVec 3) (e : BitVec 1)
  | vbcast (d : BitVec 5) (a : BitVec 6)
  | vext (g : BitVec 6) (a : BitVec 5) (b : BitVec 6)
  | vins (d : BitVec 5) (a : BitVec 6) (b : BitVec 6)
  | vtr32 (d : BitVec 5) (a : BitVec 5)
  | vzord (d : BitVec 5) (a : BitVec 5)
  | vrowm (d : BitVec 5) (a : BitVec 5)
  | vrsumF32 (d : BitVec 5) (a : BitVec 5) (m : BitVec 3) (e : BitVec 1)
  | vrmaxF32 (d : BitVec 5) (a : BitVec 5) (m : BitVec 3) (e : BitVec 1)
  | vrminF32 (d : BitVec 5) (a : BitVec 5) (m : BitVec 3) (e : BitVec 1)
  | vrsumS32 (d : BitVec 5) (a : BitVec 5) (m : BitVec 3) (e : BitVec 1)
  | vrandZ32 (d : BitVec 5) (n : BitVec 2)
  | vsetvl (a : BitVec 6)
  | vmov (d : BitVec 5) (a : BitVec 5) (m : BitVec 3) (e : BitVec 1)
  | vaccF32 (d : BitVec 5) (t : BitVec 3) (r : BitVec 5)
  -- the QM slot (R92)
  | qmaxF32 (s : BitVec 5) (c : BitVec 4)
  | qmaxBf16 (s : BitVec 5) (c : BitVec 4)
  | qmaxF16 (s : BitVec 5) (c : BitVec 4)
  | qmvsc (c : BitVec 4) (h : BitVec 1)
  -- the QC slot (R92)
  | qcvtE4m3 (q : BitVec 3) (v : BitVec 5) (r : BitVec 3) (n : BitVec 2) (s : BitVec 1) (c : BitVec 4) (h : BitVec 1)
  | qcvtE5m2 (q : BitVec 3) (v : BitVec 5) (r : BitVec 3) (n : BitVec 2) (s : BitVec 1) (c : BitVec 4) (h : BitVec 1)
  | qcvtE2m1 (q : BitVec 3) (v : BitVec 5) (r : BitVec 3) (n : BitVec 2) (s : BitVec 1) (c : BitVec 4) (h : BitVec 1)
  | qcvtS8 (q : BitVec 3) (v : BitVec 5) (r : BitVec 3) (n : BitVec 2) (s : BitVec 1) (c : BitVec 4) (h : BitVec 1)
  | qcvtBp8 (q : BitVec 3) (v : BitVec 5) (r : BitVec 3) (n : BitVec 2) (s : BitVec 1) (c : BitVec 4) (h : BitVec 1)
  | qdqE4m3 (q : BitVec 3) (v : BitVec 5) (r : BitVec 3) (n : BitVec 2) (s : BitVec 1) (c : BitVec 4) (h : BitVec 1)
  | qdqE5m2 (q : BitVec 3) (v : BitVec 5) (r : BitVec 3) (n : BitVec 2) (s : BitVec 1) (c : BitVec 4) (h : BitVec 1)
  | qdqE2m1 (q : BitVec 3) (v : BitVec 5) (r : BitVec 3) (n : BitVec 2) (s : BitVec 1) (c : BitVec 4) (h : BitVec 1)
  | qdqS8 (q : BitVec 3) (v : BitVec 5) (r : BitVec 3) (n : BitVec 2) (s : BitVec 1) (c : BitVec 4) (h : BitVec 1)
  | qdqBp8 (q : BitVec 3) (v : BitVec 5) (r : BitVec 3) (n : BitVec 2) (s : BitVec 1) (c : BitVec 4) (h : BitVec 1)
  | qrot
  | qin (q : BitVec 3) (v : BitVec 5)
  | qout (q : BitVec 3) (v : BitVec 5)
  | cvtBf16F32 (d : BitVec 5) (s : BitVec 5) (r : BitVec 3) (n : BitVec 2)
  | cvtF16F32 (d : BitVec 5) (s : BitVec 5) (r : BitVec 3) (n : BitVec 2)
  | cvtF32Bf16 (d : BitVec 5) (s : BitVec 5)
  | cvtF32F16 (d : BitVec 5) (s : BitVec 5)
  | cvtF32S32 (d : BitVec 5) (s : BitVec 5) (r : BitVec 3) (n : BitVec 2)
  | cvtS32F32 (d : BitVec 5) (s : BitVec 5) (r : BitVec 3) (n : BitVec 2)
  -- the SC slot (R92)
  | ldsc (c : BitVec 4) (a : BitVec 6) (o : BitVec 10)
  | ldscB (c : BitVec 4) (a : BitVec 6) (o : BitVec 10)
  | stsc (c : BitVec 4) (a : BitVec 6) (o : BitVec 10)
  -- the M slot (R94)
  | ldbS8 (s : BitVec 2) (o : BitVec 3)
  | ldbBf16 (s : BitVec 2) (o : BitVec 3)
  | ldbE4m3 (s : BitVec 2) (o : BitVec 3)
  | ldbE5m2 (s : BitVec 2) (o : BitVec 3)
  | ldbE2m1 (s : BitVec 2) (o : BitVec 3)
  | mmBp2 (t : BitVec 3) (s : BitVec 4) (o : BitVec 3) (m : BitVec 6) (c : BitVec 1)
  | mmBp3 (t : BitVec 3) (s : BitVec 4) (o : BitVec 3) (m : BitVec 6) (c : BitVec 1)
  | mmBp4 (t : BitVec 3) (s : BitVec 4) (o : BitVec 3) (m : BitVec 6) (c : BitVec 1)
  | mmBp5 (t : BitVec 3) (s : BitVec 4) (o : BitVec 3) (m : BitVec 6) (c : BitVec 1)
  | mmBp6 (t : BitVec 3) (s : BitVec 4) (o : BitVec 3) (m : BitVec 6) (c : BitVec 1)
  | mmBp7 (t : BitVec 3) (s : BitVec 4) (o : BitVec 3) (m : BitVec 6) (c : BitVec 1)
  | mmBp8 (t : BitVec 3) (s : BitVec 4) (o : BitVec 3) (m : BitVec 6) (c : BitVec 1)
  | mmBf16 (t : BitVec 3) (s : BitVec 4) (o : BitVec 3) (m : BitVec 6) (c : BitVec 1)
  | mmx (t : BitVec 3) (s : BitVec 4) (o : BitVec 3) (k : BitVec 5) (c : BitVec 1)
  | dmm (t : BitVec 3) (s : BitVec 4) (o : BitVec 3) (b : BitVec 2) (k : BitVec 5) (a : BitVec 1) (c : BitVec 1)
  | dmmr (t : BitVec 3) (s : BitVec 4) (o : BitVec 3) (b : BitVec 2) (k : BitVec 5) (a : BitVec 1) (c : BitVec 1)
  | dtap (v : BitVec 5) (t : BitVec 3) (r : BitVec 5)
  | ardF32 (v : BitVec 5) (t : BitVec 3) (r : BitVec 5)
  | ardS32 (v : BitVec 5) (t : BitVec 3) (r : BitVec 5)
  | awrF32 (v : BitVec 5) (t : BitVec 3) (r : BitVec 5)
  | awrS32 (v : BitVec 5) (t : BitVec 3) (r : BitVec 5)
  | aclr (t : BitVec 3)
  | aexp (v : BitVec 5) (t : BitVec 3) (r : BitVec 5)
  | ldcv (k : BitVec 2) (o : BitVec 3)
  | ldbm (k : BitVec 2) (o : BitVec 3)
  | mvfo (o : BitVec 3) (a : BitVec 6)
  | addfo (o : BitVec 3) (a : BitVec 6)
  -- the X slot (R96)
  | mvsh (s : BitVec 4) (a : BitVec 6)
  | shadd (s : BitVec 4) (a : BitVec 6)
  | lish (s : BitVec 4) (k : BitVec 5)
  | xsend (s : BitVec 4) (t : BitVec 5) (d : BitVec 6)
  | xsendLk (s : BitVec 4) (t : BitVec 5) (d : BitVec 6)
  | xmcast (s : BitVec 4) (t : BitVec 5) (d : BitVec 6)
  | xmcastLk (s : BitVec 4) (t : BitVec 5) (d : BitVec 6)
  | xredAddF32 (s : BitVec 4) (t : BitVec 5) (d : BitVec 6)
  | xredMaxF32 (s : BitVec 4) (t : BitVec 5) (d : BitVec 6)
  | xredMinF32 (s : BitVec 4) (t : BitVec 5) (d : BitVec 6)
  | xredAddBf16 (s : BitVec 4) (t : BitVec 5) (d : BitVec 6)
  | xredAddS32 (s : BitVec 4) (t : BitVec 5) (d : BitVec 6)
  | xredMaxS32 (s : BitVec 4) (t : BitVec 5) (d : BitVec 6)
  | ldmap (s : BitVec 4) (a : BitVec 6) (t : BitVec 1)
  | swapmap (n : BitVec 4) (o : BitVec 4) (t : BitVec 1)
  | retiremap (s : BitVec 4) (t : BitVec 1)
  | strays (a : BitVec 6) (t : BitVec 1)
  | lnbind (k : BitVec 3) (a : BitVec 6)
  | lnfree (k : BitVec 3)
  | lnmsg (k : BitVec 3) (a : BitVec 6)
  | ctset (c : BitVec 3) (a : BitVec 6)
  | ctclr (c : BitVec 3)
  -- the word that every slot shares (R44)
  | nop
  -- the C slot (R84)
  | jmp (j : BitVec 20)
  | call (j : BitVec 20)
  | jmpr (a : BitVec 6)
  | br (n : BitVec 2) (k : BitVec 5)
  | callr (a : BitVec 6)
  | ret
  | loop (v : BitVec 3) (g : BitVec 6) (b : BitVec 8)
  | loopi (v : BitVec 3) (c : BitVec 9) (b : BitVec 8)
  | step (s : BitVec 4) (v : BitVec 3) (t : BitVec 13)
  | stepr (s : BitVec 4) (v : BitVec 3) (a : BitVec 6)
  | ord (s : BitVec 4) (k : BitVec 5)
  | waitF (m : BitVec 16)
  | tbar
  | tail (a : BitVec 6) (b : BitVec 6)
  | endCtx
  | mfs (g : BitVec 6) (n : BitVec 10)
  | mts (g : BitVec 6) (n : BitVec 10)
  | trap (c : BitVec 8)
  | tret
  | csave (a : BitVec 6)
  | crest (a : BitVec 6)
  | ckptg (a : BitVec 6)
  | replayg (a : BitVec 6)
  | tlbinv (a : BitVec 6)
  | tlbinva
  | enrd (d : BitVec 6) (c : BitVec 2)
  | clkreq (a : BitVec 6)
  | sgjoin (a : BitVec 6)
  | sgleave
  | selftest (a : BitVec 6)
  | irq (c : BitVec 8)
  | brk
  | pwrgive (a : BitVec 6)
  | pwrask (a : BitVec 6)
  -- commands (R15)
  | launch (k : BitVec 5)
  | waitrun (s : BitVec 4) (k : BitVec 5)
  | signal (v : BitVec 8) (e : BitVec 1) (k : BitVec 5)
  | fence
  -- events (spec/95)
  | append (s : BitVec 4) (e : W64)
  | windowLoad (off : W64) (len : Nat)
  | windowStore (off : W64) (bytes : List Byte)
  | registerWrite (off : W64) (w : W64)
  | sstatWrite (s : BitVec 4) (w : W64)
  | sheadWrite (s : BitVec 4) (w : W64)
  | sseqWrite (s : BitVec 4) (w : W64)
  | sendWrite (s : BitVec 4) (w : W64)
  | partitionWrite (slice : BitVec 6) (w : Byte)
  | configurationWrite (off : BitVec 6) (w : W64)
  | counterClear (off : BitVec 16) (w : W64)
  | grantWrite (off : BitVec 6) (w : W64)
  | endRun (off : BitVec 4) (w : W64)
  | shareWindowWrite (x : BitVec 10) (w : Byte)
  | scratchpadClaim (w : W64)
  | interruptVectorWrite (w : W64)
  | strayFree (t : Nat)
  | runPlacement (r : Nat)
  | runStart (r : Nat)
  | waitrunDone (s : BitVec 4)
  | fenceDone (s : BitVec 4)
  | signalStorePerformed (s : BitVec 4)
  | runRetire (r : Nat)
  | deferredStreamFault (s : BitVec 4)
  | retiredMapsEmpty (t : Nat)
  | preempt (x : Nat)
  | contextResume (x : Nat)
  | spinWake (x : Nat)
  | barWaitWake (x : Nat)
  | waitanyWake (x : Nat)
  | waitaWake (x : Nat)
  | waitWake (x : Nat)
  | tbarRelease (r cl : Nat)
  | bufferFullCheckpoint (r cl : Nat)
  | generatorBarrierRelease (r cl : Nat)
  | faultDelivery (r cl : Nat)
  | loadDataReturn (id : Nat)
  | engineBegin (id : Nat)
  | vOpComplete (x : Nat)
  | qcOpComplete (x : Nat)
  | mOpComplete (core : Nat)
  | localPerform (id : Nat)
  | homePerform (id : Nat)
  | lgReadPerform (id : Nat)
  | lgAtomicPerform (id : Nat)
  | drainComplete (x : Nat)
  | pageWalkComplete (core : Nat) (root : W64) (va : W64)
  | bolterBlockVerify (core : Nat)
  | dataPacketArrive (p : LandPkt)
  | endMarkerArrive (p : LandPkt)
  | endMarkerApply (t : Nat)
  | transferAck (core : Nat) (tid : BitVec 12) (strays : Nat)
  | mapInstall (t : Nat)
  | mapSwap (t : Nat)
  | mapRetire (t : Nat)
  | undeliverableNotice (n : Notice)
  | flitReceive (port : BitVec 3) (f : Flit)
  | linkReplayRequest (port : BitVec 3) (ctr : Nat)
  | packetForward (port : BitVec 3 × Bool)
  | remoteRequestArrive (r : RemReq)
  | remoteReplyArrive (core : BitVec 8) (tag : Nat) (gen : BitVec 4) (status : BitVec 4) (data : List Byte)
  | remoteRequestTimeout (core : BitVec 8) (tag : Nat)
  | linkPushDepart (core : Nat) (k : BitVec 3)
  | linkWordArrive (w : LinkWord)
  | linkRequestServe (r : LinkReq)
  | linkReplyArrive (core : Nat) (k : BitVec 3) (status data : W64)
  | linkRequestTimeout (core : Nat) (k : BitVec 3) (tag : BitVec 12)
  | causalStorePerform (p : CausalPkt)
  | landingNotice (seq : BitVec 16)
  | carrierArrive (p : CausalPkt)
  | carrierEnterSluice
  | causalQuery (chip : BitVec 12) (seq : BitVec 16)
  | answerLanded (chip : BitVec 12) (seq : BitVec 16)
  | answerLost (chip : BitVec 12) (seq : BitVec 16)
  | carrierDeadline (n : Nat)
  | ownEntryDeadline (seq : BitVec 16)
  | expiryNotice (store : Nat × W64) (tag : Nat × BitVec 4)
  | landedRecordExpiry (chip : BitVec 12) (seq : BitVec 16)
  | reductionContributionArrive (p : RedPkt)
  | reductionSlotApply (n : Nat)
  | xredContributionArrive (p : XredPkt)
  | xredSlotDeadline (n : Nat)
  | reductionSlotAdmit
  | ftimeAdjust (master : W64)
  | clockLimitChange (q : Nat)
  | groupLimitReport (group : BitVec 16) (chip : BitVec 12) (q : Nat) (steps : Nat)
  | groupClockAnnounce (member : BitVec 16 × Nat) (steps : Nat) (at_ : Nat)
  | groupClockSwitch (q : Nat)
  | grantUnitsArrive (chip : BitVec 12) (units : Nat)
  | powerAskArrive (chip : BitVec 12) (units : Nat)
  | grantUnitsReturned (units : Nat)
  | powerPeriod
  | energyPeriod
  | deviceReset (fw : Firmware)
  | lifeCycleChange (st : LifeCycle) (sigs : Signatures)
  | linkAttestation (port : BitVec 3) (r : AttReport)
  | memoryError (r : Resource) (unit : Nat) (corrected : Bool) (reader : Option Reader) (addr : W64)
  | targetedSelfTest (r : Resource) (unit : Nat)
  | wipeFinish
  | linkRetrainDone (port : BitVec 3)
  deriving DecidableEq, Repr

end Sys2Proof
end

