-- ==== Sys2Proof/WellFormed.lean ====
section
/-! DEFINITION. What a slot word must satisfy besides its fixed bits: the legal ranges of the operand fields (R79 to R81,
R83 to R95) and the slots a memory form may stand in (R88). These are the conditions of check 2 of R99; what depends on a
literal (check 3) or on the context (check 4) is with the machine. Any event is well-formed. -/

namespace Sys2Proof

/-- A loop level, 0 to 5 (R79). -/
def levelOk (v : BitVec 3) : Bool := v.toNat ≤ 5

/-- A slot index, 0 to 11 (R79). -/
def slotIndexOk (s : BitVec 4) : Bool := s.toNat ≤ 11

/-- The slots `ord` may name: V, M, QC, LG and X (R83). -/
def ordSlotOk (s : BitVec 4) : Bool := s.toNat == 3 || s.toNat == 4 || s.toNat == 6 || s.toNat == 10 || s.toNat == 11

/-- The assigned system register numbers (R77, R78). -/
def sysRegOk (n : BitVec 10) : Bool :=
  n.toNat ≤ 2 || (0x10 ≤ n.toNat && n.toNat ≤ 0x13) || (0x20 ≤ n.toNat && n.toNat ≤ 0x24) || n.toNat == 0x30 ||
    n.toNat == 0x31 || (0x40 ≤ n.toNat && n.toNat ≤ 0x43)

/-- A flag destination, `f0` to `f7` (R79, R55). -/
def flagDestOk (c : BitVec 4) : Bool := c.toNat < 8

/-- A link, 0 to 5 (R79). -/
def linkOk (k : BitVec 3) : Bool := k.toNat ≤ 5

/-- An RM, 0 to 4 (R81). -/
def roundingOk (r : BitVec 3) : Bool := r.toNat ≤ 4

/-- An RM and a GEN: a generator is named only under RM 4 (R81). -/
def roundGenOk (r : BitVec 3) (n : BitVec 2) : Bool := r.toNat ≤ 4 && (r.toNat == 4 || n == 0)

/-- An unmasked form names no mask register (R89). -/
def maskingOk (m : BitVec 3) (e : BitVec 1) : Bool := e == 1 || m == 0

/-- A first row is a multiple of 4 (R89, R93). -/
def firstRowOk (r : BitVec 5) : Bool := r.toNat % 4 == 0

/-- The target formats of `qmax` (R91). -/
def qmaxTargetOk (c : BitVec 4) : Bool := c.toNat == 4 || c.toNat == 6 || c.toNat == 7 || c.toNat == 8

/-- Scales from the bypass name no scale register (R91). -/
def scaleSourceOk (s : BitVec 1) (c : BitVec 4) (h : BitVec 1) : Bool := s == 1 || (c == 0 && h == 0)

/-- The field conditions of check 2 of R99. -/
def Instr.wf : Instr → Bool
  | .loop v _ _ | .loopi v _ _ => levelOk v
  | .step s v _ | .stepr s v _ => slotIndexOk s && levelOk v
  | .ord s _ => ordSlotOk s
  | .mfs _ n | .mts _ n => sysRegOk n
  | .cmpLtS64 c _ _ | .cmpEqS64 c _ _ | .cmpLeS64 c _ _ | .cmpNeS64 c _ _ | .cmpLtZ64 c _ _ | .cmpLeZ64 c _ _
  | .cmpLtS64Imm c _ _ | .cmpEqS64Imm c _ _ | .cmpLeS64Imm c _ _ | .cmpNeS64Imm c _ _ | .cmpLtZ64Imm c _ _
  | .cmpLeZ64Imm c _ _ | .fand c _ _ | .fior c _ _ | .fxor c _ _ | .fandn c _ _ | .fset c | .fclr c => flagDestOk c
  | .movS64Pop _ k | .movS64Push _ k | .lnbind k _ | .lnfree k | .lnmsg k _ => linkOk k
  | .cvtF32S64 _ _ r | .cvtS64F32 _ _ r | .cvtF32Z64 _ _ r | .cvtZ64F32 _ _ r => roundingOk r
  | .ldt sp _ _ _ | .stt sp _ _ _ => sp != .ll
  | .barWait sp _ _ _ | .barArrive sp _ _ | .barInit sp _ _ _ | .barExp sp _ _ _ => sp != .lg
  | .waitany sp _ _ m => sp != .lg && m != 0
  | .vaddF32 _ _ _ m e | .vsubF32 _ _ _ m e | .vmulF32 _ _ _ m e | .vfmaF32 _ _ _ m e | .vminF32 _ _ _ m e
  | .vmaxF32 _ _ _ m e | .vaddBf16 _ _ _ m e | .vsubBf16 _ _ _ m e | .vmulBf16 _ _ _ m e | .vfmaBf16 _ _ _ m e
  | .vminBf16 _ _ _ m e | .vmaxBf16 _ _ _ m e | .vaddF16 _ _ _ m e | .vsubF16 _ _ _ m e | .vmulF16 _ _ _ m e
  | .vfmaF16 _ _ _ m e | .vminF16 _ _ _ m e | .vmaxF16 _ _ _ m e | .vdivF32 _ _ _ m e | .vsqrtF32 _ _ m e
  | .vabsF32 _ _ m e | .vnegF32 _ _ m e | .vaddS32 _ _ _ m e | .vsubS32 _ _ _ m e | .vmulS32 _ _ _ m e
  | .vmulhS32 _ _ _ m e | .vminS32 _ _ _ m e | .vmaxS32 _ _ _ m e | .vminZ32 _ _ _ m e | .vmaxZ32 _ _ _ m e
  | .vandZ32 _ _ _ m e | .vorZ32 _ _ _ m e | .vxorZ32 _ _ _ m e | .vshlZ32 _ _ _ m e | .vshrZ32 _ _ _ m e
  | .vasrS32 _ _ _ m e | .vnotZ32 _ _ m e | .vcmpLtF32 _ _ _ m e | .vcmpLeF32 _ _ _ m e | .vcmpEqF32 _ _ _ m e
  | .vcmpLtS32 _ _ _ m e | .vcmpEqS32 _ _ _ m e | .vcmpLtZ32 _ _ _ m e | .vperm _ _ _ m e | .vrsumF32 _ _ m e
  | .vrmaxF32 _ _ m e | .vrminF32 _ _ m e | .vrsumS32 _ _ m e | .vmov _ _ m e => maskingOk m e
  | .vaccF32 _ _ r | .dtap _ _ r | .ardF32 _ _ r | .ardS32 _ _ r | .awrF32 _ _ r | .awrS32 _ _ r | .aexp _ _ r => firstRowOk r
  | .qmaxF32 _ c | .qmaxBf16 _ c | .qmaxF16 _ c => qmaxTargetOk c
  | .qcvtE4m3 _ _ r n s c h | .qcvtE5m2 _ _ r n s c h | .qcvtE2m1 _ _ r n s c h | .qcvtS8 _ _ r n s c h
  | .qcvtBp8 _ _ r n s c h | .qdqE4m3 _ _ r n s c h | .qdqE5m2 _ _ r n s c h | .qdqE2m1 _ _ r n s c h
  | .qdqS8 _ _ r n s c h | .qdqBp8 _ _ r n s c h => roundGenOk r n && scaleSourceOk s c h
  | .cvtBf16F32 _ _ r n | .cvtF16F32 _ _ r n | .cvtF32S32 _ _ r n | .cvtS32F32 _ _ r n => roundGenOk r n
  | .mmBp2 _ s _ m _ | .mmBp3 _ s _ m _ | .mmBp4 _ s _ m _ | .mmBp5 _ s _ m _ | .mmBp6 _ s _ m _ | .mmBp7 _ s _ m _
  | .mmBp8 _ s _ m _ | .mmBf16 _ s _ m _ => s != 0 && m.toNat ≤ 32
  | .mmx _ s _ _ _ | .dmm _ s _ _ _ _ _ => s != 0
  | .dmmr _ s _ _ _ a _ => s != 0 && a == 0
  | .xsend s _ _ | .xsendLk s _ _ | .xmcast s _ _ | .xmcastLk s _ _ | .xredAddF32 s _ _ | .xredMaxF32 s _ _
  | .xredMinF32 s _ _ | .xredAddBf16 s _ _ | .xredAddS32 s _ _ | .xredMaxS32 s _ _ => s.toNat ≤ 14
  | .swapmap n o _ => n != o
  | .nop | .jmp _ | .call _ | .jmpr _ | .br _ _ | .callr _ | .ret | .waitF _ | .tbar | .tail _ _ | .endCtx | .trap _
  | .tret | .csave _ | .crest _ | .ckptg _ | .replayg _ | .tlbinv _ | .tlbinva | .enrd _ _ | .clkreq _ | .sgjoin _
  | .sgleave | .selftest _ | .irq _ | .brk | .pwrgive _ | .pwrask _ | .launch _ | .waitrun _ _ | .signal _ _ _
  | .fence | .addS64 _ _ _ | .subS64 _ _ _ | .mulS64 _ _ _ | .mulhS64 _ _ _ | .mulhZ64 _ _ _ | .andZ64 _ _ _
  | .orZ64 _ _ _ | .addS64Imm _ _ _ | .andZ64Imm _ _ _ | .orZ64Imm _ _ _ | .xorZ64Imm _ _ _ | .liS64 _ _ | .li64 _ _
  | .xorZ64 _ _ _ | .shlZ64Imm _ _ _ | .shrZ64Imm _ _ _ | .asrS64Imm _ _ _ | .shlZ64 _ _ _ | .shrZ64 _ _ _
  | .asrS64 _ _ _ | .minS64 _ _ _ | .maxS64 _ _ _ | .minZ64 _ _ _ | .maxZ64 _ _ _ | .divS64 _ _ _ | .divZ64 _ _ _
  | .remS64 _ _ _ | .remZ64 _ _ _ | .bfxZ64 _ _ _ | .bfxS64 _ _ _ | .bfiZ64 _ _ _ | .popcZ64 _ _ | .clzZ64 _ _
  | .ctzZ64 _ _ | .ld _ _ _ _ | .st _ _ _ _ | .ldm _ _ _ _ | .stm _ _ _ _ | .pfLg _ _ | .ldsS8 _ _ _ _
  | .ldsZ8 _ _ _ _ | .ldsS16 _ _ _ _ | .ldsZ16 _ _ _ _ | .ldsS32 _ _ _ _ | .ldsZ32 _ _ _ _ | .ldsS64 _ _ _ _
  | .stsZ8 _ _ _ _ | .stsZ16 _ _ _ _ | .stsZ32 _ _ _ _ | .stsZ64 _ _ _ _ | .aaddS64 _ _ _ _ | .aminS64 _ _ _ _
  | .amaxS64 _ _ _ _ | .aandZ64 _ _ _ _ | .aorZ64 _ _ _ _ | .axorZ64 _ _ _ _ | .aswpZ64 _ _ _ _ | .acasZ64 _ _ _ _
  | .redAddF32 _ _ _ | .redMaxF32 _ _ _ | .redMinF32 _ _ _ | .redAddS32 _ _ _ | .redMaxS32 _ _ _ | .redMinS32 _ _ _
  | .stLgC _ _ _ | .stLgK _ _ _ _ | .waita _ _ _ _ | .drain | .vmand _ _ _ | .vmor _ _ _ | .vmxor _ _ _ | .vmnot _ _
  | .vsel _ _ _ _ | .vbcast _ _ | .vext _ _ _ | .vins _ _ _ | .vtr32 _ _ | .vzord _ _ | .vrowm _ _ | .vrandZ32 _ _
  | .vsetvl _ | .qmvsc _ _ | .qrot | .qin _ _ | .qout _ _ | .cvtF32Bf16 _ _ | .cvtF32F16 _ _ | .ldsc _ _ _
  | .ldscB _ _ _ | .stsc _ _ _ | .ldbS8 _ _ | .ldbBf16 _ _ | .ldbE4m3 _ _ | .ldbE5m2 _ _ | .ldbE2m1 _ _ | .aclr _
  | .ldcv _ _ | .ldbm _ _ | .mvfo _ _ | .addfo _ _ | .mvsh _ _ | .shadd _ _ | .lish _ _ | .ldmap _ _ _
  | .retiremap _ _ | .strays _ _ | .ctset _ _ | .ctclr _ | .append _ _ | .windowLoad _ _ | .windowStore _ _
  | .registerWrite _ _ | .sstatWrite _ _ | .sheadWrite _ _ | .sseqWrite _ _ | .sendWrite _ _ | .partitionWrite _ _
  | .configurationWrite _ _ | .counterClear _ _ | .grantWrite _ _ | .endRun _ _ | .shareWindowWrite _ _
  | .scratchpadClaim _ | .interruptVectorWrite _ | .strayFree _ | .runPlacement _ | .runStart _ | .waitrunDone _
  | .fenceDone _ | .signalStorePerformed _ | .runRetire _ | .deferredStreamFault _ | .retiredMapsEmpty _ | .preempt _
  | .contextResume _ | .spinWake _ | .barWaitWake _ | .waitanyWake _ | .waitaWake _ | .waitWake _ | .tbarRelease _ _
  | .bufferFullCheckpoint _ _ | .generatorBarrierRelease _ _ | .faultDelivery _ _ | .loadDataReturn _
  | .engineBegin _ | .vOpComplete _ | .qcOpComplete _ | .mOpComplete _ | .localPerform _ | .homePerform _
  | .lgReadPerform _ | .lgAtomicPerform _ | .drainComplete _ | .pageWalkComplete _ _ _ | .bolterBlockVerify _
  | .dataPacketArrive _ | .endMarkerArrive _ | .endMarkerApply _ | .transferAck _ _ _ | .mapInstall _ | .mapSwap _
  | .mapRetire _ | .undeliverableNotice _ | .flitReceive _ _ | .linkReplayRequest _ _ | .packetForward _
  | .remoteRequestArrive _ | .remoteReplyArrive _ _ _ _ _ | .remoteRequestTimeout _ _ | .linkPushDepart _ _
  | .linkWordArrive _ | .linkRequestServe _ | .linkReplyArrive _ _ _ _ | .linkRequestTimeout _ _ _
  | .causalStorePerform _ | .landingNotice _ | .carrierArrive _ | .carrierEnterSluice | .causalQuery _ _
  | .answerLanded _ _ | .answerLost _ _ | .carrierDeadline _ | .ownEntryDeadline _ | .expiryNotice _ _
  | .landedRecordExpiry _ _ | .reductionContributionArrive _ | .reductionSlotApply _ | .xredContributionArrive _
  | .xredSlotDeadline _ | .reductionSlotAdmit | .ftimeAdjust _ | .clockLimitChange _ | .groupLimitReport _ _ _ _
  | .groupClockAnnounce _ _ _ | .groupClockSwitch _ | .grantUnitsArrive _ _ | .powerAskArrive _ _
  | .grantUnitsReturned _ | .powerPeriod | .energyPeriod | .deviceReset _ | .lifeCycleChange _ _
  | .linkAttestation _ _ | .memoryError _ _ _ _ _ | .targetedSelfTest _ _ | .wipeFinish | .linkRetrainDone _ => true

end Sys2Proof
end

