-- ==== Sys2Proof/Decode.lean ====
section
/-! DEFINITION. From memory to instructions and back: the bundle (R43, R46), the slot word (R44), the opcode maps (R84 to
R96), and the encoder written from the same formats (R83 to R95). Decoding is total; what it does not accept it rejects by
name. The definitions that build C words are marked noncomputable: Lean's compiled code can build only the first 244
constructors of a type and the table needs more. The kernel evaluates them like any other. -/

namespace Sys2Proof

/-- Why a word or a bundle is no instruction: each is the illegal-encoding trap of the rule named. -/
inductive Reject where
  /-- OP 0 with another bit set (R44). -/
  | nopBits
  /-- PT 6 or 7, or a C word with PT ≠ 0 (R44). -/
  | pathTag
  /-- an OP that the slot's map does not assign (R98). -/
  | unassigned
  /-- a nonzero field that the format marks zero (R98). -/
  | reservedField
  /-- a memory form in a slot that R88 does not allow it, or a field outside its range (R79 to R81, R88). -/
  | illFormed
  /-- the header's reserved bits (R43). -/
  | header
  /-- fewer bytes than the bundle has (the fetch of R47 never gives fewer). -/
  | short
  deriving DecidableEq, Repr

/-- A slot word (R44): path tag, first- and last-iteration bits, and the operation. -/
structure Slot where
  pt  : BitVec 3
  fi  : Bool
  li  : Bool
  ins : Instr
  deriving DecidableEq, Repr

/-- A bundle header (R43). -/
structure Header where
  p    : BitVec 12
  rep  : BitVec 6
  stop : Bool
  lits : BitVec 5
  deriving DecidableEq, Repr

/-- A bundle as fetched (R43): the words it presents with their slot indices (R45), and its literal pool (R46). -/
structure Bundle where
  hdr   : Header
  words : List (Nat × W32)
  pool  : List W32
  deriving DecidableEq, Repr

/-- Accept `i` if the bits of `w` under the mask `z` have the value `v` that the format fixes (R98). -/
def zeros (w z v : BitVec 20) (i : Instr) : Except Reject Instr :=
  if w &&& z = v then .ok i else .error .reservedField

/-- A form that stands in the LG slot only (R88). -/
def onlyLg (sp : Space) (r : Except Reject Instr) : Except Reject Instr :=
  if sp = .lg then r else .error .illFormed

/-- The C map of R84 with the command class of R15: the word the operand field `w` makes under the opcode. -/
noncomputable def decodeC (op : BitVec 7) (w : BitVec 20) : Except Reject Instr :=
  match op.toNat with
  | 0x01 => .ok (.jmp (w.extractLsb' 0 20))
  | 0x02 => .ok (.call (w.extractLsb' 0 20))
  | 0x03 => zeros w 0x3FFF 0x0 (.jmpr (w.extractLsb' 14 6))
  | 0x04 => zeros w 0x1FFF 0x0 (.br (w.extractLsb' 18 2) (w.extractLsb' 13 5))
  | 0x05 => zeros w 0x3FFF 0x0 (.callr (w.extractLsb' 14 6))
  | 0x06 => zeros w 0xFFFFF 0x0 (.ret)
  | 0x10 => zeros w 0x700 0x0 (.loop (w.extractLsb' 17 3) (w.extractLsb' 11 6) (w.extractLsb' 0 8))
  | 0x11 => .ok (.loopi (w.extractLsb' 17 3) (w.extractLsb' 8 9) (w.extractLsb' 0 8))
  | 0x12 => .ok (.step (w.extractLsb' 16 4) (w.extractLsb' 13 3) (w.extractLsb' 0 13))
  | 0x13 => zeros w 0x7F 0x0 (.stepr (w.extractLsb' 16 4) (w.extractLsb' 13 3) (w.extractLsb' 7 6))
  | 0x14 => zeros w 0xFFE0 0x0 (.ord (w.extractLsb' 16 4) (w.extractLsb' 0 5))
  | 0x15 => zeros w 0xF 0x0 (.waitF (w.extractLsb' 4 16))
  | 0x1A => zeros w 0xFFFFF 0x0 (.tbar)
  | 0x1C => zeros w 0xFF 0x0 (.tail (w.extractLsb' 14 6) (w.extractLsb' 8 6))
  | 0x1E => zeros w 0xFFFFF 0x0 (.endCtx)
  | 0x40 => zeros w 0xF 0x0 (.mfs (w.extractLsb' 14 6) (w.extractLsb' 4 10))
  | 0x41 => zeros w 0xF 0x0 (.mts (w.extractLsb' 14 6) (w.extractLsb' 4 10))
  | 0x42 => zeros w 0xFFF 0x0 (.trap (w.extractLsb' 12 8))
  | 0x43 => zeros w 0xFFFFF 0x0 (.tret)
  | 0x44 => zeros w 0x3FFF 0x0 (.csave (w.extractLsb' 14 6))
  | 0x45 => zeros w 0x3FFF 0x0 (.crest (w.extractLsb' 14 6))
  | 0x46 => zeros w 0x3FFF 0x0 (.ckptg (w.extractLsb' 14 6))
  | 0x47 => zeros w 0x3FFF 0x0 (.replayg (w.extractLsb' 14 6))
  | 0x48 => zeros w 0x3FFF 0x0 (.tlbinv (w.extractLsb' 14 6))
  | 0x49 => zeros w 0xFFFFF 0x0 (.tlbinva)
  | 0x4A => zeros w 0xFFF 0x0 (.enrd (w.extractLsb' 14 6) (w.extractLsb' 12 2))
  | 0x4B => zeros w 0x3FFF 0x0 (.clkreq (w.extractLsb' 14 6))
  | 0x4C => zeros w 0x3FFF 0x0 (.sgjoin (w.extractLsb' 14 6))
  | 0x4D => zeros w 0xFFFFF 0x0 (.sgleave)
  | 0x4E => zeros w 0x3FFF 0x0 (.selftest (w.extractLsb' 14 6))
  | 0x4F => zeros w 0xFFF 0x0 (.irq (w.extractLsb' 12 8))
  | 0x50 => zeros w 0xFFFFF 0x0 (.brk)
  | 0x51 => zeros w 0x3FFF 0x0 (.pwrgive (w.extractLsb' 14 6))
  | 0x52 => zeros w 0x3FFF 0x0 (.pwrask (w.extractLsb' 14 6))
  | 0x60 => zeros w 0xFFFE0 0x0 (.launch (w.extractLsb' 0 5))
  | 0x61 => zeros w 0xFFE0 0x0 (.waitrun (w.extractLsb' 16 4) (w.extractLsb' 0 5))
  | 0x62 => zeros w 0xF00C0 0x0 (.signal (w.extractLsb' 8 8) (w.extractLsb' 5 1) (w.extractLsb' 0 5))
  | 0x63 => zeros w 0xFFFFF 0x0 (.fence)
  | _ => .error .unassigned

/-- The S map of R86: the word the operand field `w` makes under the opcode. -/
def decodeS (op : BitVec 7) (w : BitVec 20) : Except Reject Instr :=
  match op.toNat with
  | 0x01 => zeros w 0x3 0x0 (.addS64 (w.extractLsb' 14 6) (w.extractLsb' 8 6) (w.extractLsb' 2 6))
  | 0x02 => zeros w 0x3 0x0 (.subS64 (w.extractLsb' 14 6) (w.extractLsb' 8 6) (w.extractLsb' 2 6))
  | 0x03 => zeros w 0x3 0x0 (.mulS64 (w.extractLsb' 14 6) (w.extractLsb' 8 6) (w.extractLsb' 2 6))
  | 0x04 => zeros w 0x3 0x0 (.mulhS64 (w.extractLsb' 14 6) (w.extractLsb' 8 6) (w.extractLsb' 2 6))
  | 0x05 => zeros w 0x3 0x0 (.mulhZ64 (w.extractLsb' 14 6) (w.extractLsb' 8 6) (w.extractLsb' 2 6))
  | 0x06 => zeros w 0x3 0x0 (.andZ64 (w.extractLsb' 14 6) (w.extractLsb' 8 6) (w.extractLsb' 2 6))
  | 0x07 => zeros w 0x3 0x0 (.orZ64 (w.extractLsb' 14 6) (w.extractLsb' 8 6) (w.extractLsb' 2 6))
  | 0x08 => .ok (.addS64Imm (w.extractLsb' 14 6) (w.extractLsb' 8 6) (w.extractLsb' 0 8))
  | 0x09 => .ok (.andZ64Imm (w.extractLsb' 14 6) (w.extractLsb' 8 6) (w.extractLsb' 0 8))
  | 0x0A => .ok (.orZ64Imm (w.extractLsb' 14 6) (w.extractLsb' 8 6) (w.extractLsb' 0 8))
  | 0x0B => .ok (.xorZ64Imm (w.extractLsb' 14 6) (w.extractLsb' 8 6) (w.extractLsb' 0 8))
  | 0x0C => zeros w 0x3FE0 0x0 (.liS64 (w.extractLsb' 14 6) (w.extractLsb' 0 5))
  | 0x0D => zeros w 0x3FE0 0x0 (.li64 (w.extractLsb' 14 6) (w.extractLsb' 0 5))
  | 0x0E => zeros w 0x3 0x0 (.xorZ64 (w.extractLsb' 14 6) (w.extractLsb' 8 6) (w.extractLsb' 2 6))
  | 0x10 => zeros w 0xC0 0x0 (.shlZ64Imm (w.extractLsb' 14 6) (w.extractLsb' 8 6) (w.extractLsb' 0 6))
  | 0x11 => zeros w 0xC0 0x0 (.shrZ64Imm (w.extractLsb' 14 6) (w.extractLsb' 8 6) (w.extractLsb' 0 6))
  | 0x12 => zeros w 0xC0 0x0 (.asrS64Imm (w.extractLsb' 14 6) (w.extractLsb' 8 6) (w.extractLsb' 0 6))
  | 0x13 => zeros w 0x3 0x0 (.shlZ64 (w.extractLsb' 14 6) (w.extractLsb' 8 6) (w.extractLsb' 2 6))
  | 0x14 => zeros w 0x3 0x0 (.shrZ64 (w.extractLsb' 14 6) (w.extractLsb' 8 6) (w.extractLsb' 2 6))
  | 0x15 => zeros w 0x3 0x0 (.asrS64 (w.extractLsb' 14 6) (w.extractLsb' 8 6) (w.extractLsb' 2 6))
  | 0x16 => zeros w 0x3 0x0 (.minS64 (w.extractLsb' 14 6) (w.extractLsb' 8 6) (w.extractLsb' 2 6))
  | 0x17 => zeros w 0x3 0x0 (.maxS64 (w.extractLsb' 14 6) (w.extractLsb' 8 6) (w.extractLsb' 2 6))
  | 0x18 => zeros w 0x3 0x0 (.minZ64 (w.extractLsb' 14 6) (w.extractLsb' 8 6) (w.extractLsb' 2 6))
  | 0x19 => zeros w 0x3 0x0 (.maxZ64 (w.extractLsb' 14 6) (w.extractLsb' 8 6) (w.extractLsb' 2 6))
  | 0x1A => zeros w 0x3 0x0 (.divS64 (w.extractLsb' 14 6) (w.extractLsb' 8 6) (w.extractLsb' 2 6))
  | 0x1B => zeros w 0x3 0x0 (.divZ64 (w.extractLsb' 14 6) (w.extractLsb' 8 6) (w.extractLsb' 2 6))
  | 0x1C => zeros w 0x3 0x0 (.remS64 (w.extractLsb' 14 6) (w.extractLsb' 8 6) (w.extractLsb' 2 6))
  | 0x1D => zeros w 0x3 0x0 (.remZ64 (w.extractLsb' 14 6) (w.extractLsb' 8 6) (w.extractLsb' 2 6))
  | 0x1E => zeros w 0xE0 0x0 (.bfxZ64 (w.extractLsb' 14 6) (w.extractLsb' 8 6) (w.extractLsb' 0 5))
  | 0x1F => zeros w 0xE0 0x0 (.bfxS64 (w.extractLsb' 14 6) (w.extractLsb' 8 6) (w.extractLsb' 0 5))
  | 0x20 => zeros w 0xF 0x0 (.cmpLtS64 (w.extractLsb' 16 4) (w.extractLsb' 10 6) (w.extractLsb' 4 6))
  | 0x21 => zeros w 0xF 0x0 (.cmpEqS64 (w.extractLsb' 16 4) (w.extractLsb' 10 6) (w.extractLsb' 4 6))
  | 0x22 => zeros w 0xF 0x0 (.cmpLeS64 (w.extractLsb' 16 4) (w.extractLsb' 10 6) (w.extractLsb' 4 6))
  | 0x23 => zeros w 0xF 0x0 (.cmpNeS64 (w.extractLsb' 16 4) (w.extractLsb' 10 6) (w.extractLsb' 4 6))
  | 0x24 => zeros w 0xF 0x0 (.cmpLtZ64 (w.extractLsb' 16 4) (w.extractLsb' 10 6) (w.extractLsb' 4 6))
  | 0x25 => zeros w 0xF 0x0 (.cmpLeZ64 (w.extractLsb' 16 4) (w.extractLsb' 10 6) (w.extractLsb' 4 6))
  | 0x26 => zeros w 0xE0 0x0 (.bfiZ64 (w.extractLsb' 14 6) (w.extractLsb' 8 6) (w.extractLsb' 0 5))
  | 0x28 => .ok (.cmpLtS64Imm (w.extractLsb' 16 4) (w.extractLsb' 10 6) (w.extractLsb' 0 10))
  | 0x29 => .ok (.cmpEqS64Imm (w.extractLsb' 16 4) (w.extractLsb' 10 6) (w.extractLsb' 0 10))
  | 0x2A => .ok (.cmpLeS64Imm (w.extractLsb' 16 4) (w.extractLsb' 10 6) (w.extractLsb' 0 10))
  | 0x2B => .ok (.cmpNeS64Imm (w.extractLsb' 16 4) (w.extractLsb' 10 6) (w.extractLsb' 0 10))
  | 0x2C => .ok (.cmpLtZ64Imm (w.extractLsb' 16 4) (w.extractLsb' 10 6) (w.extractLsb' 0 10))
  | 0x2D => .ok (.cmpLeZ64Imm (w.extractLsb' 16 4) (w.extractLsb' 10 6) (w.extractLsb' 0 10))
  | 0x30 => zeros w 0xFF 0x0 (.fand (w.extractLsb' 16 4) (w.extractLsb' 12 4) (w.extractLsb' 8 4))
  | 0x31 => zeros w 0xFF 0x0 (.fior (w.extractLsb' 16 4) (w.extractLsb' 12 4) (w.extractLsb' 8 4))
  | 0x32 => zeros w 0xFF 0x0 (.fxor (w.extractLsb' 16 4) (w.extractLsb' 12 4) (w.extractLsb' 8 4))
  | 0x33 => zeros w 0xFF 0x0 (.fandn (w.extractLsb' 16 4) (w.extractLsb' 12 4) (w.extractLsb' 8 4))
  | 0x34 => zeros w 0xFFFF 0x0 (.fset (w.extractLsb' 16 4))
  | 0x35 => zeros w 0xFFFF 0x0 (.fclr (w.extractLsb' 16 4))
  | 0x38 => zeros w 0x3FF8 0x0 (.movS64Pop (w.extractLsb' 14 6) (w.extractLsb' 0 3))
  | 0x39 => zeros w 0x3FF8 0x0 (.movS64Push (w.extractLsb' 14 6) (w.extractLsb' 0 3))
  | 0x3A => zeros w 0xFF 0x0 (.popcZ64 (w.extractLsb' 14 6) (w.extractLsb' 8 6))
  | 0x3B => zeros w 0xFF 0x0 (.clzZ64 (w.extractLsb' 14 6) (w.extractLsb' 8 6))
  | 0x3C => zeros w 0xFF 0x0 (.ctzZ64 (w.extractLsb' 14 6) (w.extractLsb' 8 6))
  | 0x40 => zeros w 0x1F 0x0 (.cvtF32S64 (w.extractLsb' 14 6) (w.extractLsb' 8 6) (w.extractLsb' 5 3))
  | 0x41 => zeros w 0x1F 0x0 (.cvtS64F32 (w.extractLsb' 14 6) (w.extractLsb' 8 6) (w.extractLsb' 5 3))
  | 0x42 => zeros w 0x1F 0x0 (.cvtF32Z64 (w.extractLsb' 14 6) (w.extractLsb' 8 6) (w.extractLsb' 5 3))
  | 0x43 => zeros w 0x1F 0x0 (.cvtZ64F32 (w.extractLsb' 14 6) (w.extractLsb' 8 6) (w.extractLsb' 5 3))
  | _ => .error .unassigned

/-- The LL, LK and LG map of R88: the word the operand field `w` makes under the opcode. -/
def decodeMem (op : BitVec 7) (sp : Space) (w : BitVec 20) : Except Reject Instr :=
  match op.toNat with
  | 0x01 => .ok (.ld sp (w.extractLsb' 15 5) (w.extractLsb' 9 6) (w.extractLsb' 0 9))
  | 0x02 => .ok (.st sp (w.extractLsb' 15 5) (w.extractLsb' 9 6) (w.extractLsb' 0 9))
  | 0x03 => zeros w 0xC0000 0x0 (.ldm sp (w.extractLsb' 15 3) (w.extractLsb' 9 6) (w.extractLsb' 0 9))
  | 0x04 => zeros w 0xC0000 0x0 (.stm sp (w.extractLsb' 15 3) (w.extractLsb' 9 6) (w.extractLsb' 0 9))
  | 0x05 => onlyLg sp (zeros w 0xF8000 0x0 (.pfLg (w.extractLsb' 9 6) (w.extractLsb' 0 9)))
  | 0x06 => zeros w 0x7 0x0 (.ldt sp (w.extractLsb' 15 5) (w.extractLsb' 9 6) (w.extractLsb' 3 6))
  | 0x07 => zeros w 0x7 0x0 (.stt sp (w.extractLsb' 15 5) (w.extractLsb' 9 6) (w.extractLsb' 3 6))
  | 0x08 => .ok (.ldsS8 sp (w.extractLsb' 14 6) (w.extractLsb' 8 6) (w.extractLsb' 0 8))
  | 0x09 => .ok (.ldsZ8 sp (w.extractLsb' 14 6) (w.extractLsb' 8 6) (w.extractLsb' 0 8))
  | 0x0A => .ok (.ldsS16 sp (w.extractLsb' 14 6) (w.extractLsb' 8 6) (w.extractLsb' 0 8))
  | 0x0B => .ok (.ldsZ16 sp (w.extractLsb' 14 6) (w.extractLsb' 8 6) (w.extractLsb' 0 8))
  | 0x0C => .ok (.ldsS32 sp (w.extractLsb' 14 6) (w.extractLsb' 8 6) (w.extractLsb' 0 8))
  | 0x0D => .ok (.ldsZ32 sp (w.extractLsb' 14 6) (w.extractLsb' 8 6) (w.extractLsb' 0 8))
  | 0x0E => .ok (.ldsS64 sp (w.extractLsb' 14 6) (w.extractLsb' 8 6) (w.extractLsb' 0 8))
  | 0x10 => .ok (.stsZ8 sp (w.extractLsb' 14 6) (w.extractLsb' 8 6) (w.extractLsb' 0 8))
  | 0x11 => .ok (.stsZ16 sp (w.extractLsb' 14 6) (w.extractLsb' 8 6) (w.extractLsb' 0 8))
  | 0x12 => .ok (.stsZ32 sp (w.extractLsb' 14 6) (w.extractLsb' 8 6) (w.extractLsb' 0 8))
  | 0x13 => .ok (.stsZ64 sp (w.extractLsb' 14 6) (w.extractLsb' 8 6) (w.extractLsb' 0 8))
  | 0x18 => zeros w 0x3 0x0 (.aaddS64 sp (w.extractLsb' 14 6) (w.extractLsb' 8 6) (w.extractLsb' 2 6))
  | 0x19 => zeros w 0x3 0x0 (.aminS64 sp (w.extractLsb' 14 6) (w.extractLsb' 8 6) (w.extractLsb' 2 6))
  | 0x1A => zeros w 0x3 0x0 (.amaxS64 sp (w.extractLsb' 14 6) (w.extractLsb' 8 6) (w.extractLsb' 2 6))
  | 0x1B => zeros w 0x3 0x0 (.aandZ64 sp (w.extractLsb' 14 6) (w.extractLsb' 8 6) (w.extractLsb' 2 6))
  | 0x1C => zeros w 0x3 0x0 (.aorZ64 sp (w.extractLsb' 14 6) (w.extractLsb' 8 6) (w.extractLsb' 2 6))
  | 0x1D => zeros w 0x3 0x0 (.axorZ64 sp (w.extractLsb' 14 6) (w.extractLsb' 8 6) (w.extractLsb' 2 6))
  | 0x1E => zeros w 0x3 0x0 (.aswpZ64 sp (w.extractLsb' 14 6) (w.extractLsb' 8 6) (w.extractLsb' 2 6))
  | 0x1F => zeros w 0x3 0x0 (.acasZ64 sp (w.extractLsb' 14 6) (w.extractLsb' 8 6) (w.extractLsb' 2 6))
  | 0x20 => onlyLg sp (.ok (.redAddF32 (w.extractLsb' 15 5) (w.extractLsb' 9 6) (w.extractLsb' 0 9)))
  | 0x21 => onlyLg sp (.ok (.redMaxF32 (w.extractLsb' 15 5) (w.extractLsb' 9 6) (w.extractLsb' 0 9)))
  | 0x22 => onlyLg sp (.ok (.redMinF32 (w.extractLsb' 15 5) (w.extractLsb' 9 6) (w.extractLsb' 0 9)))
  | 0x23 => onlyLg sp (.ok (.redAddS32 (w.extractLsb' 15 5) (w.extractLsb' 9 6) (w.extractLsb' 0 9)))
  | 0x24 => onlyLg sp (.ok (.redMaxS32 (w.extractLsb' 15 5) (w.extractLsb' 9 6) (w.extractLsb' 0 9)))
  | 0x25 => onlyLg sp (.ok (.redMinS32 (w.extractLsb' 15 5) (w.extractLsb' 9 6) (w.extractLsb' 0 9)))
  | 0x28 => onlyLg sp (zeros w 0x3F 0x0 (.stLgC (w.extractLsb' 15 5) (w.extractLsb' 9 6) (w.extractLsb' 6 3)))
  | 0x29 => onlyLg sp (zeros w 0x7 0x0 (.stLgK (w.extractLsb' 15 5) (w.extractLsb' 9 6) (w.extractLsb' 6 3) (w.extractLsb' 3 3)))
  | 0x30 => zeros w 0x1 0x0 (.barWait sp (w.extractLsb' 14 6) (w.extractLsb' 5 9) (w.extractLsb' 1 4))
  | 0x31 => zeros w 0x1F 0x0 (.barArrive sp (w.extractLsb' 14 6) (w.extractLsb' 5 9))
  | 0x32 => .ok (.barInit sp (w.extractLsb' 14 6) (w.extractLsb' 5 9) (w.extractLsb' 0 5))
  | 0x33 => .ok (.barExp sp (w.extractLsb' 14 6) (w.extractLsb' 5 9) (w.extractLsb' 0 5))
  | 0x34 => .ok (.waitany sp (w.extractLsb' 14 6) (w.extractLsb' 8 6) (w.extractLsb' 0 8))
  | 0x35 => .ok (.waita sp (w.extractLsb' 14 6) (w.extractLsb' 8 6) (w.extractLsb' 0 8))
  | 0x36 => onlyLg sp (zeros w 0xFFFFF 0x0 (.drain))
  | _ => .error .unassigned

/-- The V map of R90: the word the operand field `w` makes under the opcode. -/
def decodeV (op : BitVec 7) (w : BitVec 20) : Except Reject Instr :=
  match op.toNat with
  | 0x01 => zeros w 0x1 0x0 (.vaddF32 (w.extractLsb' 15 5) (w.extractLsb' 10 5) (w.extractLsb' 5 5) (w.extractLsb' 2 3) (w.extractLsb' 1 1))
  | 0x02 => zeros w 0x1 0x0 (.vsubF32 (w.extractLsb' 15 5) (w.extractLsb' 10 5) (w.extractLsb' 5 5) (w.extractLsb' 2 3) (w.extractLsb' 1 1))
  | 0x03 => zeros w 0x1 0x0 (.vmulF32 (w.extractLsb' 15 5) (w.extractLsb' 10 5) (w.extractLsb' 5 5) (w.extractLsb' 2 3) (w.extractLsb' 1 1))
  | 0x04 => zeros w 0x1 0x0 (.vfmaF32 (w.extractLsb' 15 5) (w.extractLsb' 10 5) (w.extractLsb' 5 5) (w.extractLsb' 2 3) (w.extractLsb' 1 1))
  | 0x05 => zeros w 0x1 0x0 (.vminF32 (w.extractLsb' 15 5) (w.extractLsb' 10 5) (w.extractLsb' 5 5) (w.extractLsb' 2 3) (w.extractLsb' 1 1))
  | 0x06 => zeros w 0x1 0x0 (.vmaxF32 (w.extractLsb' 15 5) (w.extractLsb' 10 5) (w.extractLsb' 5 5) (w.extractLsb' 2 3) (w.extractLsb' 1 1))
  | 0x07 => zeros w 0x1 0x0 (.vaddBf16 (w.extractLsb' 15 5) (w.extractLsb' 10 5) (w.extractLsb' 5 5) (w.extractLsb' 2 3) (w.extractLsb' 1 1))
  | 0x08 => zeros w 0x1 0x0 (.vsubBf16 (w.extractLsb' 15 5) (w.extractLsb' 10 5) (w.extractLsb' 5 5) (w.extractLsb' 2 3) (w.extractLsb' 1 1))
  | 0x09 => zeros w 0x1 0x0 (.vmulBf16 (w.extractLsb' 15 5) (w.extractLsb' 10 5) (w.extractLsb' 5 5) (w.extractLsb' 2 3) (w.extractLsb' 1 1))
  | 0x0A => zeros w 0x1 0x0 (.vfmaBf16 (w.extractLsb' 15 5) (w.extractLsb' 10 5) (w.extractLsb' 5 5) (w.extractLsb' 2 3) (w.extractLsb' 1 1))
  | 0x0B => zeros w 0x1 0x0 (.vminBf16 (w.extractLsb' 15 5) (w.extractLsb' 10 5) (w.extractLsb' 5 5) (w.extractLsb' 2 3) (w.extractLsb' 1 1))
  | 0x0C => zeros w 0x1 0x0 (.vmaxBf16 (w.extractLsb' 15 5) (w.extractLsb' 10 5) (w.extractLsb' 5 5) (w.extractLsb' 2 3) (w.extractLsb' 1 1))
  | 0x0D => zeros w 0x1 0x0 (.vaddF16 (w.extractLsb' 15 5) (w.extractLsb' 10 5) (w.extractLsb' 5 5) (w.extractLsb' 2 3) (w.extractLsb' 1 1))
  | 0x0E => zeros w 0x1 0x0 (.vsubF16 (w.extractLsb' 15 5) (w.extractLsb' 10 5) (w.extractLsb' 5 5) (w.extractLsb' 2 3) (w.extractLsb' 1 1))
  | 0x0F => zeros w 0x1 0x0 (.vmulF16 (w.extractLsb' 15 5) (w.extractLsb' 10 5) (w.extractLsb' 5 5) (w.extractLsb' 2 3) (w.extractLsb' 1 1))
  | 0x10 => zeros w 0x1 0x0 (.vfmaF16 (w.extractLsb' 15 5) (w.extractLsb' 10 5) (w.extractLsb' 5 5) (w.extractLsb' 2 3) (w.extractLsb' 1 1))
  | 0x11 => zeros w 0x1 0x0 (.vminF16 (w.extractLsb' 15 5) (w.extractLsb' 10 5) (w.extractLsb' 5 5) (w.extractLsb' 2 3) (w.extractLsb' 1 1))
  | 0x12 => zeros w 0x1 0x0 (.vmaxF16 (w.extractLsb' 15 5) (w.extractLsb' 10 5) (w.extractLsb' 5 5) (w.extractLsb' 2 3) (w.extractLsb' 1 1))
  | 0x13 => zeros w 0x1 0x0 (.vdivF32 (w.extractLsb' 15 5) (w.extractLsb' 10 5) (w.extractLsb' 5 5) (w.extractLsb' 2 3) (w.extractLsb' 1 1))
  | 0x14 => zeros w 0x3E1 0x0 (.vsqrtF32 (w.extractLsb' 15 5) (w.extractLsb' 10 5) (w.extractLsb' 2 3) (w.extractLsb' 1 1))
  | 0x15 => zeros w 0x3E1 0x0 (.vabsF32 (w.extractLsb' 15 5) (w.extractLsb' 10 5) (w.extractLsb' 2 3) (w.extractLsb' 1 1))
  | 0x16 => zeros w 0x3E1 0x0 (.vnegF32 (w.extractLsb' 15 5) (w.extractLsb' 10 5) (w.extractLsb' 2 3) (w.extractLsb' 1 1))
  | 0x18 => zeros w 0x1 0x0 (.vaddS32 (w.extractLsb' 15 5) (w.extractLsb' 10 5) (w.extractLsb' 5 5) (w.extractLsb' 2 3) (w.extractLsb' 1 1))
  | 0x19 => zeros w 0x1 0x0 (.vsubS32 (w.extractLsb' 15 5) (w.extractLsb' 10 5) (w.extractLsb' 5 5) (w.extractLsb' 2 3) (w.extractLsb' 1 1))
  | 0x1A => zeros w 0x1 0x0 (.vmulS32 (w.extractLsb' 15 5) (w.extractLsb' 10 5) (w.extractLsb' 5 5) (w.extractLsb' 2 3) (w.extractLsb' 1 1))
  | 0x1B => zeros w 0x1 0x0 (.vmulhS32 (w.extractLsb' 15 5) (w.extractLsb' 10 5) (w.extractLsb' 5 5) (w.extractLsb' 2 3) (w.extractLsb' 1 1))
  | 0x1C => zeros w 0x1 0x0 (.vminS32 (w.extractLsb' 15 5) (w.extractLsb' 10 5) (w.extractLsb' 5 5) (w.extractLsb' 2 3) (w.extractLsb' 1 1))
  | 0x1D => zeros w 0x1 0x0 (.vmaxS32 (w.extractLsb' 15 5) (w.extractLsb' 10 5) (w.extractLsb' 5 5) (w.extractLsb' 2 3) (w.extractLsb' 1 1))
  | 0x1E => zeros w 0x1 0x0 (.vminZ32 (w.extractLsb' 15 5) (w.extractLsb' 10 5) (w.extractLsb' 5 5) (w.extractLsb' 2 3) (w.extractLsb' 1 1))
  | 0x1F => zeros w 0x1 0x0 (.vmaxZ32 (w.extractLsb' 15 5) (w.extractLsb' 10 5) (w.extractLsb' 5 5) (w.extractLsb' 2 3) (w.extractLsb' 1 1))
  | 0x20 => zeros w 0x1 0x0 (.vandZ32 (w.extractLsb' 15 5) (w.extractLsb' 10 5) (w.extractLsb' 5 5) (w.extractLsb' 2 3) (w.extractLsb' 1 1))
  | 0x21 => zeros w 0x1 0x0 (.vorZ32 (w.extractLsb' 15 5) (w.extractLsb' 10 5) (w.extractLsb' 5 5) (w.extractLsb' 2 3) (w.extractLsb' 1 1))
  | 0x22 => zeros w 0x1 0x0 (.vxorZ32 (w.extractLsb' 15 5) (w.extractLsb' 10 5) (w.extractLsb' 5 5) (w.extractLsb' 2 3) (w.extractLsb' 1 1))
  | 0x23 => zeros w 0x1 0x0 (.vshlZ32 (w.extractLsb' 15 5) (w.extractLsb' 10 5) (w.extractLsb' 5 5) (w.extractLsb' 2 3) (w.extractLsb' 1 1))
  | 0x24 => zeros w 0x1 0x0 (.vshrZ32 (w.extractLsb' 15 5) (w.extractLsb' 10 5) (w.extractLsb' 5 5) (w.extractLsb' 2 3) (w.extractLsb' 1 1))
  | 0x25 => zeros w 0x1 0x0 (.vasrS32 (w.extractLsb' 15 5) (w.extractLsb' 10 5) (w.extractLsb' 5 5) (w.extractLsb' 2 3) (w.extractLsb' 1 1))
  | 0x26 => zeros w 0x3E1 0x0 (.vnotZ32 (w.extractLsb' 15 5) (w.extractLsb' 10 5) (w.extractLsb' 2 3) (w.extractLsb' 1 1))
  | 0x28 => zeros w 0x7 0x0 (.vcmpLtF32 (w.extractLsb' 17 3) (w.extractLsb' 12 5) (w.extractLsb' 7 5) (w.extractLsb' 4 3) (w.extractLsb' 3 1))
  | 0x29 => zeros w 0x7 0x0 (.vcmpLeF32 (w.extractLsb' 17 3) (w.extractLsb' 12 5) (w.extractLsb' 7 5) (w.extractLsb' 4 3) (w.extractLsb' 3 1))
  | 0x2A => zeros w 0x7 0x0 (.vcmpEqF32 (w.extractLsb' 17 3) (w.extractLsb' 12 5) (w.extractLsb' 7 5) (w.extractLsb' 4 3) (w.extractLsb' 3 1))
  | 0x2B => zeros w 0x7 0x0 (.vcmpLtS32 (w.extractLsb' 17 3) (w.extractLsb' 12 5) (w.extractLsb' 7 5) (w.extractLsb' 4 3) (w.extractLsb' 3 1))
  | 0x2C => zeros w 0x7 0x0 (.vcmpEqS32 (w.extractLsb' 17 3) (w.extractLsb' 12 5) (w.extractLsb' 7 5) (w.extractLsb' 4 3) (w.extractLsb' 3 1))
  | 0x2D => zeros w 0x7 0x0 (.vcmpLtZ32 (w.extractLsb' 17 3) (w.extractLsb' 12 5) (w.extractLsb' 7 5) (w.extractLsb' 4 3) (w.extractLsb' 3 1))
  | 0x2E => zeros w 0x7FF 0x0 (.vmand (w.extractLsb' 17 3) (w.extractLsb' 14 3) (w.extractLsb' 11 3))
  | 0x2F => zeros w 0x7FF 0x0 (.vmor (w.extractLsb' 17 3) (w.extractLsb' 14 3) (w.extractLsb' 11 3))
  | 0x30 => zeros w 0x7FF 0x0 (.vmxor (w.extractLsb' 17 3) (w.extractLsb' 14 3) (w.extractLsb' 11 3))
  | 0x31 => zeros w 0x3FFF 0x0 (.vmnot (w.extractLsb' 17 3) (w.extractLsb' 14 3))
  | 0x32 => zeros w 0x3 0x2 (.vsel (w.extractLsb' 15 5) (w.extractLsb' 10 5) (w.extractLsb' 5 5) (w.extractLsb' 2 3))
  | 0x33 => zeros w 0x1 0x0 (.vperm (w.extractLsb' 15 5) (w.extractLsb' 10 5) (w.extractLsb' 5 5) (w.extractLsb' 2 3) (w.extractLsb' 1 1))
  | 0x34 => zeros w 0x1FF 0x0 (.vbcast (w.extractLsb' 15 5) (w.extractLsb' 9 6))
  | 0x35 => zeros w 0x7 0x0 (.vext (w.extractLsb' 14 6) (w.extractLsb' 9 5) (w.extractLsb' 3 6))
  | 0x36 => zeros w 0x7 0x0 (.vins (w.extractLsb' 15 5) (w.extractLsb' 9 6) (w.extractLsb' 3 6))
  | 0x38 => zeros w 0x3FF 0x0 (.vtr32 (w.extractLsb' 15 5) (w.extractLsb' 10 5))
  | 0x39 => zeros w 0x3FF 0x0 (.vzord (w.extractLsb' 15 5) (w.extractLsb' 10 5))
  | 0x3A => zeros w 0x3FF 0x0 (.vrowm (w.extractLsb' 15 5) (w.extractLsb' 10 5))
  | 0x3C => zeros w 0x3E1 0x0 (.vrsumF32 (w.extractLsb' 15 5) (w.extractLsb' 10 5) (w.extractLsb' 2 3) (w.extractLsb' 1 1))
  | 0x3D => zeros w 0x3E1 0x0 (.vrmaxF32 (w.extractLsb' 15 5) (w.extractLsb' 10 5) (w.extractLsb' 2 3) (w.extractLsb' 1 1))
  | 0x3E => zeros w 0x3E1 0x0 (.vrminF32 (w.extractLsb' 15 5) (w.extractLsb' 10 5) (w.extractLsb' 2 3) (w.extractLsb' 1 1))
  | 0x3F => zeros w 0x3E1 0x0 (.vrsumS32 (w.extractLsb' 15 5) (w.extractLsb' 10 5) (w.extractLsb' 2 3) (w.extractLsb' 1 1))
  | 0x40 => zeros w 0x1FFF 0x0 (.vrandZ32 (w.extractLsb' 15 5) (w.extractLsb' 13 2))
  | 0x42 => zeros w 0x3FFF 0x0 (.vsetvl (w.extractLsb' 14 6))
  | 0x43 => zeros w 0x3E1 0x0 (.vmov (w.extractLsb' 15 5) (w.extractLsb' 10 5) (w.extractLsb' 2 3) (w.extractLsb' 1 1))
  | 0x44 => zeros w 0x7F 0x0 (.vaccF32 (w.extractLsb' 15 5) (w.extractLsb' 12 3) (w.extractLsb' 7 5))
  | _ => .error .unassigned

/-- The QM map of R92: the word the operand field `w` makes under the opcode. -/
def decodeQm (op : BitVec 7) (w : BitVec 20) : Except Reject Instr :=
  match op.toNat with
  | 0x01 => zeros w 0x7FF 0x0 (.qmaxF32 (w.extractLsb' 15 5) (w.extractLsb' 11 4))
  | 0x02 => zeros w 0x7FF 0x0 (.qmaxBf16 (w.extractLsb' 15 5) (w.extractLsb' 11 4))
  | 0x03 => zeros w 0x7FF 0x0 (.qmaxF16 (w.extractLsb' 15 5) (w.extractLsb' 11 4))
  | 0x08 => zeros w 0x7FFF 0x0 (.qmvsc (w.extractLsb' 16 4) (w.extractLsb' 15 1))
  | _ => .error .unassigned

/-- The QC map of R92: the word the operand field `w` makes under the opcode. -/
def decodeQc (op : BitVec 7) (w : BitVec 20) : Except Reject Instr :=
  match op.toNat with
  | 0x01 => zeros w 0x1 0x0 (.qcvtE4m3 (w.extractLsb' 17 3) (w.extractLsb' 12 5) (w.extractLsb' 9 3) (w.extractLsb' 7 2) (w.extractLsb' 6 1) (w.extractLsb' 2 4) (w.extractLsb' 1 1))
  | 0x02 => zeros w 0x1 0x0 (.qcvtE5m2 (w.extractLsb' 17 3) (w.extractLsb' 12 5) (w.extractLsb' 9 3) (w.extractLsb' 7 2) (w.extractLsb' 6 1) (w.extractLsb' 2 4) (w.extractLsb' 1 1))
  | 0x03 => zeros w 0x1 0x0 (.qcvtE2m1 (w.extractLsb' 17 3) (w.extractLsb' 12 5) (w.extractLsb' 9 3) (w.extractLsb' 7 2) (w.extractLsb' 6 1) (w.extractLsb' 2 4) (w.extractLsb' 1 1))
  | 0x04 => zeros w 0x1 0x0 (.qcvtS8 (w.extractLsb' 17 3) (w.extractLsb' 12 5) (w.extractLsb' 9 3) (w.extractLsb' 7 2) (w.extractLsb' 6 1) (w.extractLsb' 2 4) (w.extractLsb' 1 1))
  | 0x05 => zeros w 0x1 0x0 (.qcvtBp8 (w.extractLsb' 17 3) (w.extractLsb' 12 5) (w.extractLsb' 9 3) (w.extractLsb' 7 2) (w.extractLsb' 6 1) (w.extractLsb' 2 4) (w.extractLsb' 1 1))
  | 0x08 => zeros w 0x1 0x0 (.qdqE4m3 (w.extractLsb' 17 3) (w.extractLsb' 12 5) (w.extractLsb' 9 3) (w.extractLsb' 7 2) (w.extractLsb' 6 1) (w.extractLsb' 2 4) (w.extractLsb' 1 1))
  | 0x09 => zeros w 0x1 0x0 (.qdqE5m2 (w.extractLsb' 17 3) (w.extractLsb' 12 5) (w.extractLsb' 9 3) (w.extractLsb' 7 2) (w.extractLsb' 6 1) (w.extractLsb' 2 4) (w.extractLsb' 1 1))
  | 0x0A => zeros w 0x1 0x0 (.qdqE2m1 (w.extractLsb' 17 3) (w.extractLsb' 12 5) (w.extractLsb' 9 3) (w.extractLsb' 7 2) (w.extractLsb' 6 1) (w.extractLsb' 2 4) (w.extractLsb' 1 1))
  | 0x0B => zeros w 0x1 0x0 (.qdqS8 (w.extractLsb' 17 3) (w.extractLsb' 12 5) (w.extractLsb' 9 3) (w.extractLsb' 7 2) (w.extractLsb' 6 1) (w.extractLsb' 2 4) (w.extractLsb' 1 1))
  | 0x0C => zeros w 0x1 0x0 (.qdqBp8 (w.extractLsb' 17 3) (w.extractLsb' 12 5) (w.extractLsb' 9 3) (w.extractLsb' 7 2) (w.extractLsb' 6 1) (w.extractLsb' 2 4) (w.extractLsb' 1 1))
  | 0x10 => zeros w 0xFFFFF 0x0 (.qrot)
  | 0x11 => zeros w 0xFFF 0x0 (.qin (w.extractLsb' 17 3) (w.extractLsb' 12 5))
  | 0x12 => zeros w 0xFFF 0x0 (.qout (w.extractLsb' 17 3) (w.extractLsb' 12 5))
  | 0x18 => zeros w 0x1F 0x0 (.cvtBf16F32 (w.extractLsb' 15 5) (w.extractLsb' 10 5) (w.extractLsb' 7 3) (w.extractLsb' 5 2))
  | 0x19 => zeros w 0x1F 0x0 (.cvtF16F32 (w.extractLsb' 15 5) (w.extractLsb' 10 5) (w.extractLsb' 7 3) (w.extractLsb' 5 2))
  | 0x1A => zeros w 0x3FF 0x0 (.cvtF32Bf16 (w.extractLsb' 15 5) (w.extractLsb' 10 5))
  | 0x1B => zeros w 0x3FF 0x0 (.cvtF32F16 (w.extractLsb' 15 5) (w.extractLsb' 10 5))
  | 0x1C => zeros w 0x1F 0x0 (.cvtF32S32 (w.extractLsb' 15 5) (w.extractLsb' 10 5) (w.extractLsb' 7 3) (w.extractLsb' 5 2))
  | 0x1D => zeros w 0x1F 0x0 (.cvtS32F32 (w.extractLsb' 15 5) (w.extractLsb' 10 5) (w.extractLsb' 7 3) (w.extractLsb' 5 2))
  | _ => .error .unassigned

/-- The SC map of R92: the word the operand field `w` makes under the opcode. -/
def decodeSc (op : BitVec 7) (w : BitVec 20) : Except Reject Instr :=
  match op.toNat with
  | 0x01 => .ok (.ldsc (w.extractLsb' 16 4) (w.extractLsb' 10 6) (w.extractLsb' 0 10))
  | 0x02 => .ok (.ldscB (w.extractLsb' 16 4) (w.extractLsb' 10 6) (w.extractLsb' 0 10))
  | 0x03 => .ok (.stsc (w.extractLsb' 16 4) (w.extractLsb' 10 6) (w.extractLsb' 0 10))
  | _ => .error .unassigned

/-- The M map of R94: the word the operand field `w` makes under the opcode. -/
def decodeM (op : BitVec 7) (w : BitVec 20) : Except Reject Instr :=
  match op.toNat with
  | 0x01 => zeros w 0x7FFF 0x0 (.ldbS8 (w.extractLsb' 18 2) (w.extractLsb' 15 3))
  | 0x02 => zeros w 0x7FFF 0x0 (.ldbBf16 (w.extractLsb' 18 2) (w.extractLsb' 15 3))
  | 0x03 => zeros w 0x7FFF 0x0 (.ldbE4m3 (w.extractLsb' 18 2) (w.extractLsb' 15 3))
  | 0x04 => zeros w 0x7FFF 0x0 (.ldbE5m2 (w.extractLsb' 18 2) (w.extractLsb' 15 3))
  | 0x05 => zeros w 0x7FFF 0x0 (.ldbE2m1 (w.extractLsb' 18 2) (w.extractLsb' 15 3))
  | 0x12 => zeros w 0x7 0x0 (.mmBp2 (w.extractLsb' 17 3) (w.extractLsb' 13 4) (w.extractLsb' 10 3) (w.extractLsb' 4 6) (w.extractLsb' 3 1))
  | 0x13 => zeros w 0x7 0x0 (.mmBp3 (w.extractLsb' 17 3) (w.extractLsb' 13 4) (w.extractLsb' 10 3) (w.extractLsb' 4 6) (w.extractLsb' 3 1))
  | 0x14 => zeros w 0x7 0x0 (.mmBp4 (w.extractLsb' 17 3) (w.extractLsb' 13 4) (w.extractLsb' 10 3) (w.extractLsb' 4 6) (w.extractLsb' 3 1))
  | 0x15 => zeros w 0x7 0x0 (.mmBp5 (w.extractLsb' 17 3) (w.extractLsb' 13 4) (w.extractLsb' 10 3) (w.extractLsb' 4 6) (w.extractLsb' 3 1))
  | 0x16 => zeros w 0x7 0x0 (.mmBp6 (w.extractLsb' 17 3) (w.extractLsb' 13 4) (w.extractLsb' 10 3) (w.extractLsb' 4 6) (w.extractLsb' 3 1))
  | 0x17 => zeros w 0x7 0x0 (.mmBp7 (w.extractLsb' 17 3) (w.extractLsb' 13 4) (w.extractLsb' 10 3) (w.extractLsb' 4 6) (w.extractLsb' 3 1))
  | 0x18 => zeros w 0x7 0x0 (.mmBp8 (w.extractLsb' 17 3) (w.extractLsb' 13 4) (w.extractLsb' 10 3) (w.extractLsb' 4 6) (w.extractLsb' 3 1))
  | 0x19 => zeros w 0x7 0x0 (.mmBf16 (w.extractLsb' 17 3) (w.extractLsb' 13 4) (w.extractLsb' 10 3) (w.extractLsb' 4 6) (w.extractLsb' 3 1))
  | 0x1A => zeros w 0xF 0x0 (.mmx (w.extractLsb' 17 3) (w.extractLsb' 13 4) (w.extractLsb' 10 3) (w.extractLsb' 5 5) (w.extractLsb' 4 1))
  | 0x1B => zeros w 0x1 0x0 (.dmm (w.extractLsb' 17 3) (w.extractLsb' 13 4) (w.extractLsb' 10 3) (w.extractLsb' 8 2) (w.extractLsb' 3 5) (w.extractLsb' 2 1) (w.extractLsb' 1 1))
  | 0x1C => zeros w 0x1 0x0 (.dmmr (w.extractLsb' 17 3) (w.extractLsb' 13 4) (w.extractLsb' 10 3) (w.extractLsb' 8 2) (w.extractLsb' 3 5) (w.extractLsb' 2 1) (w.extractLsb' 1 1))
  | 0x1D => zeros w 0x7F 0x0 (.dtap (w.extractLsb' 15 5) (w.extractLsb' 12 3) (w.extractLsb' 7 5))
  | 0x20 => zeros w 0x7F 0x0 (.ardF32 (w.extractLsb' 15 5) (w.extractLsb' 12 3) (w.extractLsb' 7 5))
  | 0x21 => zeros w 0x7F 0x0 (.ardS32 (w.extractLsb' 15 5) (w.extractLsb' 12 3) (w.extractLsb' 7 5))
  | 0x22 => zeros w 0x7F 0x0 (.awrF32 (w.extractLsb' 15 5) (w.extractLsb' 12 3) (w.extractLsb' 7 5))
  | 0x23 => zeros w 0x7F 0x0 (.awrS32 (w.extractLsb' 15 5) (w.extractLsb' 12 3) (w.extractLsb' 7 5))
  | 0x24 => zeros w 0x1FFFF 0x0 (.aclr (w.extractLsb' 17 3))
  | 0x25 => zeros w 0x7F 0x0 (.aexp (w.extractLsb' 15 5) (w.extractLsb' 12 3) (w.extractLsb' 7 5))
  | 0x28 => zeros w 0x7FFF 0x0 (.ldcv (w.extractLsb' 18 2) (w.extractLsb' 15 3))
  | 0x29 => zeros w 0x7FFF 0x0 (.ldbm (w.extractLsb' 18 2) (w.extractLsb' 15 3))
  | 0x30 => zeros w 0x7FF 0x0 (.mvfo (w.extractLsb' 17 3) (w.extractLsb' 11 6))
  | 0x31 => zeros w 0x7FF 0x0 (.addfo (w.extractLsb' 17 3) (w.extractLsb' 11 6))
  | _ => .error .unassigned

/-- The X map of R96: the word the operand field `w` makes under the opcode. -/
def decodeX (op : BitVec 7) (w : BitVec 20) : Except Reject Instr :=
  match op.toNat with
  | 0x01 => zeros w 0x3FF 0x0 (.mvsh (w.extractLsb' 16 4) (w.extractLsb' 10 6))
  | 0x02 => zeros w 0x3FF 0x0 (.shadd (w.extractLsb' 16 4) (w.extractLsb' 10 6))
  | 0x03 => zeros w 0xFFE0 0x0 (.lish (w.extractLsb' 16 4) (w.extractLsb' 0 5))
  | 0x10 => zeros w 0x1F 0x0 (.xsend (w.extractLsb' 16 4) (w.extractLsb' 11 5) (w.extractLsb' 5 6))
  | 0x11 => zeros w 0x1F 0x0 (.xsendLk (w.extractLsb' 16 4) (w.extractLsb' 11 5) (w.extractLsb' 5 6))
  | 0x12 => zeros w 0x1F 0x0 (.xmcast (w.extractLsb' 16 4) (w.extractLsb' 11 5) (w.extractLsb' 5 6))
  | 0x13 => zeros w 0x1F 0x0 (.xmcastLk (w.extractLsb' 16 4) (w.extractLsb' 11 5) (w.extractLsb' 5 6))
  | 0x14 => zeros w 0x1F 0x0 (.xredAddF32 (w.extractLsb' 16 4) (w.extractLsb' 11 5) (w.extractLsb' 5 6))
  | 0x15 => zeros w 0x1F 0x0 (.xredMaxF32 (w.extractLsb' 16 4) (w.extractLsb' 11 5) (w.extractLsb' 5 6))
  | 0x16 => zeros w 0x1F 0x0 (.xredMinF32 (w.extractLsb' 16 4) (w.extractLsb' 11 5) (w.extractLsb' 5 6))
  | 0x17 => zeros w 0x1F 0x0 (.xredAddBf16 (w.extractLsb' 16 4) (w.extractLsb' 11 5) (w.extractLsb' 5 6))
  | 0x18 => zeros w 0x1F 0x0 (.xredAddS32 (w.extractLsb' 16 4) (w.extractLsb' 11 5) (w.extractLsb' 5 6))
  | 0x19 => zeros w 0x1F 0x0 (.xredMaxS32 (w.extractLsb' 16 4) (w.extractLsb' 11 5) (w.extractLsb' 5 6))
  | 0x20 => zeros w 0x1FF 0x0 (.ldmap (w.extractLsb' 16 4) (w.extractLsb' 10 6) (w.extractLsb' 9 1))
  | 0x21 => zeros w 0xDFF 0x0 (.swapmap (w.extractLsb' 16 4) (w.extractLsb' 12 4) (w.extractLsb' 9 1))
  | 0x22 => zeros w 0xFDFF 0x0 (.retiremap (w.extractLsb' 16 4) (w.extractLsb' 9 1))
  | 0x23 => zeros w 0xF01FF 0x0 (.strays (w.extractLsb' 10 6) (w.extractLsb' 9 1))
  | 0x28 => zeros w 0x7FF 0x0 (.lnbind (w.extractLsb' 17 3) (w.extractLsb' 11 6))
  | 0x29 => zeros w 0x1FFFF 0x0 (.lnfree (w.extractLsb' 17 3))
  | 0x2A => zeros w 0x7FF 0x0 (.lnmsg (w.extractLsb' 17 3) (w.extractLsb' 11 6))
  | 0x30 => zeros w 0x7FF 0x0 (.ctset (w.extractLsb' 17 3) (w.extractLsb' 11 6))
  | 0x31 => zeros w 0x1FFFF 0x0 (.ctclr (w.extractLsb' 17 3))
  | _ => .error .unassigned

/-- The word of the sticky slot map `sm` with opcode `op` and operand field `w`. -/
def decodeSticky (sm : SlotMap) (op : BitVec 7) (w : BitVec 20) : Except Reject Instr :=
  match sm with
  | .c => .error .unassigned
  | .s => decodeS op w
  | .v => decodeV op w
  | .m => decodeM op w
  | .qm => decodeQm op w
  | .qc => decodeQc op w
  | .sc => decodeSc op w
  | .mem sp => decodeMem op sp w
  | .x => decodeX op w

/-- The word of slot map `sm` with opcode `op` and operand field `w`. -/
noncomputable def decodeOp (sm : SlotMap) (op : BitVec 7) (w : BitVec 20) : Except Reject Instr :=
  if sm = .c then decodeC op w else decodeSticky sm op w

/-- One slot word under a decoder of its operation; `isC` says that it stands in the C slot. The all-zero word is the NOP,
then the path tag, the OP and the fields are checked (R44, R99 check 2). -/
def decodeWith (dec : BitVec 7 → BitVec 20 → Except Reject Instr) (isC : Bool) (w : W32) : Except Reject Slot :=
  if w = 0 then .ok { pt := 0, fi := false, li := false, ins := .nop }
  else if w.extractLsb' 20 7 = 0 then .error .nopBits
  else if 6 ≤ (w.extractLsb' 29 3).toNat ∨ (isC = true ∧ w.extractLsb' 29 3 ≠ 0) then .error .pathTag
  else
    match dec (w.extractLsb' 20 7) (w.extractLsb' 0 20) with
    | .error e => .error e
    | .ok i =>
      if i.wf then .ok { pt := w.extractLsb' 29 3, fi := w.getLsbD 28, li := w.getLsbD 27, ins := i }
      else .error .illFormed

/-- One slot word of the map `sm`. -/
noncomputable def decodeSlot (sm : SlotMap) (w : W32) : Except Reject Slot := decodeWith (decodeOp sm) (sm == .c) w

/-- Whether a word may be a sticky word of the map `sm` (R51, R322). -/
def stickyWordOk (sm : SlotMap) (w : W32) : Bool :=
  match decodeWith (decodeSticky sm) false w with
  | .ok _ => true
  | .error _ => false

/-- The map of a slot index (R45). -/
def slotMap (k : Nat) : SlotMap :=
  match k with
  | 0 => .c | 1 => .s | 2 => .s | 3 => .v | 4 => .m | 5 => .qm | 6 => .qc | 7 => .sc
  | 8 => .mem .ll | 9 => .mem .lk | 10 => .mem .lg | _ => .x

/-- The header word (R43). -/
def decodeHeader (w : W32) : Except Reject Header :=
  if w.extractLsb' 0 8 = 0 then
    .ok { p := w.extractLsb' 20 12, rep := w.extractLsb' 14 6, stop := w.getLsbD 13, lits := w.extractLsb' 8 5 }
  else .error .header

/-- Whether the bundle presents slot `k`: P bit 31 - `k` of the header (R45). -/
def Header.presents (h : Header) (k : Nat) : Bool := h.p.getLsbD (11 - k)

/-- The slots a bundle presents, in slot order (R43). -/
def Header.slots (h : Header) : List Nat := (List.range 12).filter h.presents

/-- Words of the bundle after its header (R43). -/
def Header.tailWords (h : Header) : Nat := h.slots.length + h.lits.toNat

/-- A bundle's length in bytes (R43). -/
def Header.bytes (h : Header) : Nat := 4 * (1 + h.tailWords)

/-- Little-endian words of a byte list (R43); a rest of fewer than four bytes is dropped. -/
def wordsLE : List Byte → List W32
  | a :: b :: c :: d :: rest => (d ++ c ++ b ++ a) :: wordsLE rest
  | _ => []

/-- The bytes of a word, least significant first (R43). -/
def bytesLE (w : W32) : List Byte :=
  [w.extractLsb' 0 8, w.extractLsb' 8 8, w.extractLsb' 16 8, w.extractLsb' 24 8]

/-- A bundle from the words at its address (R43, R46). -/
def decodeBundle (ws : List W32) : Except Reject Bundle :=
  match ws with
  | [] => .error .short
  | w :: rest =>
    match decodeHeader w with
    | .error e => .error e
    | .ok h =>
      if rest.length < h.tailWords then .error .short
      else .ok { hdr := h, words := h.slots.zip rest, pool := (rest.drop h.slots.length).take h.lits.toNat }

/-- The opcode of a word (R84 to R96); an event has none. -/
def Instr.op : Instr → BitVec 7
  | .nop | .append _ _ | .windowLoad _ _ | .windowStore _ _ | .registerWrite _ _ | .sstatWrite _ _
  | .sheadWrite _ _ | .sseqWrite _ _ | .sendWrite _ _ | .partitionWrite _ _ | .configurationWrite _ _
  | .counterClear _ _ | .grantWrite _ _ | .endRun _ _ | .shareWindowWrite _ _ | .scratchpadClaim _
  | .interruptVectorWrite _ | .strayFree _ | .runPlacement _ | .runStart _ | .waitrunDone _ | .fenceDone _
  | .signalStorePerformed _ | .runRetire _ | .deferredStreamFault _ | .retiredMapsEmpty _ | .preempt _
  | .contextResume _ | .spinWake _ | .barWaitWake _ | .waitanyWake _ | .waitaWake _ | .waitWake _
  | .tbarRelease _ _ | .bufferFullCheckpoint _ _ | .generatorBarrierRelease _ _ | .faultDelivery _ _
  | .loadDataReturn _ | .engineBegin _ | .vOpComplete _ | .qcOpComplete _ | .mOpComplete _ | .localPerform _
  | .homePerform _ | .lgReadPerform _ | .lgAtomicPerform _ | .drainComplete _ | .pageWalkComplete _ _ _
  | .bolterBlockVerify _ | .dataPacketArrive _ | .endMarkerArrive _ | .endMarkerApply _ | .transferAck _ _ _
  | .mapInstall _ | .mapSwap _ | .mapRetire _ | .undeliverableNotice _ | .flitReceive _ _
  | .linkReplayRequest _ _ | .packetForward _ | .remoteRequestArrive _ | .remoteReplyArrive _ _ _ _ _
  | .remoteRequestTimeout _ _ | .linkPushDepart _ _ | .linkWordArrive _ | .linkRequestServe _
  | .linkReplyArrive _ _ _ _ | .linkRequestTimeout _ _ _ | .causalStorePerform _ | .landingNotice _
  | .carrierArrive _ | .carrierEnterSluice | .causalQuery _ _ | .answerLanded _ _ | .answerLost _ _
  | .carrierDeadline _ | .ownEntryDeadline _ | .expiryNotice _ _ | .landedRecordExpiry _ _
  | .reductionContributionArrive _ | .reductionSlotApply _ | .xredContributionArrive _ | .xredSlotDeadline _
  | .reductionSlotAdmit | .ftimeAdjust _ | .clockLimitChange _ | .groupLimitReport _ _ _ _
  | .groupClockAnnounce _ _ _ | .groupClockSwitch _ | .grantUnitsArrive _ _ | .powerAskArrive _ _
  | .grantUnitsReturned _ | .powerPeriod | .energyPeriod | .deviceReset _ | .lifeCycleChange _ _
  | .linkAttestation _ _ | .memoryError _ _ _ _ _ | .targetedSelfTest _ _ | .wipeFinish | .linkRetrainDone _ => 0x00
  | .jmp _ | .addS64 _ _ _ | .ld _ _ _ _ | .vaddF32 _ _ _ _ _ | .qmaxF32 _ _ | .qcvtE4m3 _ _ _ _ _ _ _
  | .ldsc _ _ _ | .ldbS8 _ _ | .mvsh _ _ => 0x01
  | .call _ | .subS64 _ _ _ | .st _ _ _ _ | .vsubF32 _ _ _ _ _ | .qmaxBf16 _ _ | .qcvtE5m2 _ _ _ _ _ _ _
  | .ldscB _ _ _ | .ldbBf16 _ _ | .shadd _ _ => 0x02
  | .jmpr _ | .mulS64 _ _ _ | .ldm _ _ _ _ | .vmulF32 _ _ _ _ _ | .qmaxF16 _ _ | .qcvtE2m1 _ _ _ _ _ _ _
  | .stsc _ _ _ | .ldbE4m3 _ _ | .lish _ _ => 0x03
  | .br _ _ | .mulhS64 _ _ _ | .stm _ _ _ _ | .vfmaF32 _ _ _ _ _ | .qcvtS8 _ _ _ _ _ _ _ | .ldbE5m2 _ _ => 0x04
  | .callr _ | .mulhZ64 _ _ _ | .pfLg _ _ | .vminF32 _ _ _ _ _ | .qcvtBp8 _ _ _ _ _ _ _ | .ldbE2m1 _ _ => 0x05
  | .ret | .andZ64 _ _ _ | .ldt _ _ _ _ | .vmaxF32 _ _ _ _ _ => 0x06
  | .orZ64 _ _ _ | .stt _ _ _ _ | .vaddBf16 _ _ _ _ _ => 0x07
  | .addS64Imm _ _ _ | .ldsS8 _ _ _ _ | .vsubBf16 _ _ _ _ _ | .qmvsc _ _ | .qdqE4m3 _ _ _ _ _ _ _ => 0x08
  | .andZ64Imm _ _ _ | .ldsZ8 _ _ _ _ | .vmulBf16 _ _ _ _ _ | .qdqE5m2 _ _ _ _ _ _ _ => 0x09
  | .orZ64Imm _ _ _ | .ldsS16 _ _ _ _ | .vfmaBf16 _ _ _ _ _ | .qdqE2m1 _ _ _ _ _ _ _ => 0x0A
  | .xorZ64Imm _ _ _ | .ldsZ16 _ _ _ _ | .vminBf16 _ _ _ _ _ | .qdqS8 _ _ _ _ _ _ _ => 0x0B
  | .liS64 _ _ | .ldsS32 _ _ _ _ | .vmaxBf16 _ _ _ _ _ | .qdqBp8 _ _ _ _ _ _ _ => 0x0C
  | .li64 _ _ | .ldsZ32 _ _ _ _ | .vaddF16 _ _ _ _ _ => 0x0D
  | .xorZ64 _ _ _ | .ldsS64 _ _ _ _ | .vsubF16 _ _ _ _ _ => 0x0E
  | .vmulF16 _ _ _ _ _ => 0x0F
  | .loop _ _ _ | .shlZ64Imm _ _ _ | .stsZ8 _ _ _ _ | .vfmaF16 _ _ _ _ _ | .qrot | .xsend _ _ _ => 0x10
  | .loopi _ _ _ | .shrZ64Imm _ _ _ | .stsZ16 _ _ _ _ | .vminF16 _ _ _ _ _ | .qin _ _ | .xsendLk _ _ _ => 0x11
  | .step _ _ _ | .asrS64Imm _ _ _ | .stsZ32 _ _ _ _ | .vmaxF16 _ _ _ _ _ | .qout _ _ | .mmBp2 _ _ _ _ _
  | .xmcast _ _ _ => 0x12
  | .stepr _ _ _ | .shlZ64 _ _ _ | .stsZ64 _ _ _ _ | .vdivF32 _ _ _ _ _ | .mmBp3 _ _ _ _ _ | .xmcastLk _ _ _ => 0x13
  | .ord _ _ | .shrZ64 _ _ _ | .vsqrtF32 _ _ _ _ | .mmBp4 _ _ _ _ _ | .xredAddF32 _ _ _ => 0x14
  | .waitF _ | .asrS64 _ _ _ | .vabsF32 _ _ _ _ | .mmBp5 _ _ _ _ _ | .xredMaxF32 _ _ _ => 0x15
  | .minS64 _ _ _ | .vnegF32 _ _ _ _ | .mmBp6 _ _ _ _ _ | .xredMinF32 _ _ _ => 0x16
  | .maxS64 _ _ _ | .mmBp7 _ _ _ _ _ | .xredAddBf16 _ _ _ => 0x17
  | .minZ64 _ _ _ | .aaddS64 _ _ _ _ | .vaddS32 _ _ _ _ _ | .cvtBf16F32 _ _ _ _ | .mmBp8 _ _ _ _ _
  | .xredAddS32 _ _ _ => 0x18
  | .maxZ64 _ _ _ | .aminS64 _ _ _ _ | .vsubS32 _ _ _ _ _ | .cvtF16F32 _ _ _ _ | .mmBf16 _ _ _ _ _
  | .xredMaxS32 _ _ _ => 0x19
  | .tbar | .divS64 _ _ _ | .amaxS64 _ _ _ _ | .vmulS32 _ _ _ _ _ | .cvtF32Bf16 _ _ | .mmx _ _ _ _ _ => 0x1A
  | .divZ64 _ _ _ | .aandZ64 _ _ _ _ | .vmulhS32 _ _ _ _ _ | .cvtF32F16 _ _ | .dmm _ _ _ _ _ _ _ => 0x1B
  | .tail _ _ | .remS64 _ _ _ | .aorZ64 _ _ _ _ | .vminS32 _ _ _ _ _ | .cvtF32S32 _ _ _ _ | .dmmr _ _ _ _ _ _ _ => 0x1C
  | .remZ64 _ _ _ | .axorZ64 _ _ _ _ | .vmaxS32 _ _ _ _ _ | .cvtS32F32 _ _ _ _ | .dtap _ _ _ => 0x1D
  | .endCtx | .bfxZ64 _ _ _ | .aswpZ64 _ _ _ _ | .vminZ32 _ _ _ _ _ => 0x1E
  | .bfxS64 _ _ _ | .acasZ64 _ _ _ _ | .vmaxZ32 _ _ _ _ _ => 0x1F
  | .cmpLtS64 _ _ _ | .redAddF32 _ _ _ | .vandZ32 _ _ _ _ _ | .ardF32 _ _ _ | .ldmap _ _ _ => 0x20
  | .cmpEqS64 _ _ _ | .redMaxF32 _ _ _ | .vorZ32 _ _ _ _ _ | .ardS32 _ _ _ | .swapmap _ _ _ => 0x21
  | .cmpLeS64 _ _ _ | .redMinF32 _ _ _ | .vxorZ32 _ _ _ _ _ | .awrF32 _ _ _ | .retiremap _ _ => 0x22
  | .cmpNeS64 _ _ _ | .redAddS32 _ _ _ | .vshlZ32 _ _ _ _ _ | .awrS32 _ _ _ | .strays _ _ => 0x23
  | .cmpLtZ64 _ _ _ | .redMaxS32 _ _ _ | .vshrZ32 _ _ _ _ _ | .aclr _ => 0x24
  | .cmpLeZ64 _ _ _ | .redMinS32 _ _ _ | .vasrS32 _ _ _ _ _ | .aexp _ _ _ => 0x25
  | .bfiZ64 _ _ _ | .vnotZ32 _ _ _ _ => 0x26
  | .cmpLtS64Imm _ _ _ | .stLgC _ _ _ | .vcmpLtF32 _ _ _ _ _ | .ldcv _ _ | .lnbind _ _ => 0x28
  | .cmpEqS64Imm _ _ _ | .stLgK _ _ _ _ | .vcmpLeF32 _ _ _ _ _ | .ldbm _ _ | .lnfree _ => 0x29
  | .cmpLeS64Imm _ _ _ | .vcmpEqF32 _ _ _ _ _ | .lnmsg _ _ => 0x2A
  | .cmpNeS64Imm _ _ _ | .vcmpLtS32 _ _ _ _ _ => 0x2B
  | .cmpLtZ64Imm _ _ _ | .vcmpEqS32 _ _ _ _ _ => 0x2C
  | .cmpLeZ64Imm _ _ _ | .vcmpLtZ32 _ _ _ _ _ => 0x2D
  | .vmand _ _ _ => 0x2E
  | .vmor _ _ _ => 0x2F
  | .fand _ _ _ | .barWait _ _ _ _ | .vmxor _ _ _ | .mvfo _ _ | .ctset _ _ => 0x30
  | .fior _ _ _ | .barArrive _ _ _ | .vmnot _ _ | .addfo _ _ | .ctclr _ => 0x31
  | .fxor _ _ _ | .barInit _ _ _ _ | .vsel _ _ _ _ => 0x32
  | .fandn _ _ _ | .barExp _ _ _ _ | .vperm _ _ _ _ _ => 0x33
  | .fset _ | .waitany _ _ _ _ | .vbcast _ _ => 0x34
  | .fclr _ | .waita _ _ _ _ | .vext _ _ _ => 0x35
  | .drain | .vins _ _ _ => 0x36
  | .movS64Pop _ _ | .vtr32 _ _ => 0x38
  | .movS64Push _ _ | .vzord _ _ => 0x39
  | .popcZ64 _ _ | .vrowm _ _ => 0x3A
  | .clzZ64 _ _ => 0x3B
  | .ctzZ64 _ _ | .vrsumF32 _ _ _ _ => 0x3C
  | .vrmaxF32 _ _ _ _ => 0x3D
  | .vrminF32 _ _ _ _ => 0x3E
  | .vrsumS32 _ _ _ _ => 0x3F
  | .mfs _ _ | .cvtF32S64 _ _ _ | .vrandZ32 _ _ => 0x40
  | .mts _ _ | .cvtS64F32 _ _ _ => 0x41
  | .trap _ | .cvtF32Z64 _ _ _ | .vsetvl _ => 0x42
  | .tret | .cvtZ64F32 _ _ _ | .vmov _ _ _ _ => 0x43
  | .csave _ | .vaccF32 _ _ _ => 0x44
  | .crest _ => 0x45
  | .ckptg _ => 0x46
  | .replayg _ => 0x47
  | .tlbinv _ => 0x48
  | .tlbinva => 0x49
  | .enrd _ _ => 0x4A
  | .clkreq _ => 0x4B
  | .sgjoin _ => 0x4C
  | .sgleave => 0x4D
  | .selftest _ => 0x4E
  | .irq _ => 0x4F
  | .brk => 0x50
  | .pwrgive _ => 0x51
  | .pwrask _ => 0x52
  | .launch _ => 0x60
  | .waitrun _ _ => 0x61
  | .signal _ _ _ => 0x62
  | .fence => 0x63

/-- The operand field of a word in its format (R83 to R95); an event has none. -/
def Instr.operand : Instr → BitVec 20
  | .jmp j | .call j => j
  | .jmpr a | .callr a | .csave a | .crest a | .ckptg a | .replayg a | .tlbinv a | .clkreq a | .sgjoin a
  | .selftest a | .pwrgive a | .pwrask a | .vsetvl a => a ++ 0#14
  | .br n k => n ++ k ++ 0#13
  | .ret | .tbar | .endCtx | .tret | .tlbinva | .sgleave | .brk | .fence | .drain | .qrot => 0#20
  | .loop v g b => v ++ g ++ 0#3 ++ b
  | .loopi v c b => v ++ c ++ b
  | .step s v t => s ++ v ++ t
  | .stepr s v a => s ++ v ++ a ++ 0#7
  | .ord s k | .waitrun s k | .lish s k => s ++ 0#11 ++ k
  | .waitF m => m ++ 0#4
  | .tail a b => a ++ b ++ 0#8
  | .mfs g n | .mts g n => g ++ n ++ 0#4
  | .trap c | .irq c => c ++ 0#12
  | .enrd d c => d ++ c ++ 0#12
  | .launch k => 0#15 ++ k
  | .signal v e k => 0#4 ++ v ++ 0#2 ++ e ++ k
  | .addS64 d a b | .subS64 d a b | .mulS64 d a b | .mulhS64 d a b | .mulhZ64 d a b | .andZ64 d a b
  | .orZ64 d a b | .xorZ64 d a b | .shlZ64 d a b | .shrZ64 d a b | .asrS64 d a b | .minS64 d a b
  | .maxS64 d a b | .minZ64 d a b | .maxZ64 d a b | .divS64 d a b | .divZ64 d a b | .remS64 d a b
  | .remZ64 d a b | .aaddS64 _ d a b | .aminS64 _ d a b | .amaxS64 _ d a b | .aandZ64 _ d a b | .aorZ64 _ d a b
  | .axorZ64 _ d a b | .aswpZ64 _ d a b | .acasZ64 _ d a b => d ++ a ++ b ++ 0#2
  | .addS64Imm d a i | .andZ64Imm d a i | .orZ64Imm d a i | .xorZ64Imm d a i => d ++ a ++ i
  | .liS64 d k | .li64 d k => d ++ 0#9 ++ k
  | .shlZ64Imm d a n | .shrZ64Imm d a n | .asrS64Imm d a n => d ++ a ++ 0#2 ++ n
  | .bfxZ64 d a k | .bfxS64 d a k | .bfiZ64 d a k => d ++ a ++ 0#3 ++ k
  | .cmpLtS64 c a b | .cmpEqS64 c a b | .cmpLeS64 c a b | .cmpNeS64 c a b | .cmpLtZ64 c a b | .cmpLeZ64 c a b => c ++ a ++ b ++ 0#4
  | .cmpLtS64Imm c a i | .cmpEqS64Imm c a i | .cmpLeS64Imm c a i | .cmpNeS64Imm c a i | .cmpLtZ64Imm c a i
  | .cmpLeZ64Imm c a i => c ++ a ++ i
  | .fand c a b | .fior c a b | .fxor c a b | .fandn c a b => c ++ a ++ b ++ 0#8
  | .fset c | .fclr c => c ++ 0#16
  | .movS64Pop g k | .movS64Push g k => g ++ 0#11 ++ k
  | .popcZ64 d a | .clzZ64 d a | .ctzZ64 d a => d ++ a ++ 0#8
  | .cvtF32S64 d a r | .cvtS64F32 d a r | .cvtF32Z64 d a r | .cvtZ64F32 d a r => d ++ a ++ r ++ 0#5
  | .ld _ v a o | .st _ v a o | .redAddF32 v a o | .redMaxF32 v a o | .redMinF32 v a o | .redAddS32 v a o
  | .redMaxS32 v a o | .redMinS32 v a o => v ++ a ++ o
  | .ldm _ m a o | .stm _ m a o => 0#2 ++ m ++ a ++ o
  | .pfLg a o => 0#5 ++ a ++ o
  | .ldt _ v a b | .stt _ v a b => v ++ a ++ b ++ 0#3
  | .ldsS8 _ g a o | .ldsZ8 _ g a o | .ldsS16 _ g a o | .ldsZ16 _ g a o | .ldsS32 _ g a o | .ldsZ32 _ g a o
  | .ldsS64 _ g a o | .stsZ8 _ g a o | .stsZ16 _ g a o | .stsZ32 _ g a o | .stsZ64 _ g a o => g ++ a ++ o
  | .stLgC v a c => v ++ a ++ c ++ 0#6
  | .stLgK v a c k => v ++ a ++ c ++ k ++ 0#3
  | .barWait _ a o h => a ++ o ++ h ++ 0#1
  | .barArrive _ a o => a ++ o ++ 0#5
  | .barInit _ a o k | .barExp _ a o k => a ++ o ++ k
  | .waitany _ a d m => a ++ d ++ m
  | .waita _ b a o => b ++ a ++ o
  | .vaddF32 d a b m e | .vsubF32 d a b m e | .vmulF32 d a b m e | .vfmaF32 d a b m e | .vminF32 d a b m e
  | .vmaxF32 d a b m e | .vaddBf16 d a b m e | .vsubBf16 d a b m e | .vmulBf16 d a b m e | .vfmaBf16 d a b m e
  | .vminBf16 d a b m e | .vmaxBf16 d a b m e | .vaddF16 d a b m e | .vsubF16 d a b m e | .vmulF16 d a b m e
  | .vfmaF16 d a b m e | .vminF16 d a b m e | .vmaxF16 d a b m e | .vdivF32 d a b m e | .vaddS32 d a b m e
  | .vsubS32 d a b m e | .vmulS32 d a b m e | .vmulhS32 d a b m e | .vminS32 d a b m e | .vmaxS32 d a b m e
  | .vminZ32 d a b m e | .vmaxZ32 d a b m e | .vandZ32 d a b m e | .vorZ32 d a b m e | .vxorZ32 d a b m e
  | .vshlZ32 d a b m e | .vshrZ32 d a b m e | .vasrS32 d a b m e | .vperm d a b m e => d ++ a ++ b ++ m ++ e ++ 0#1
  | .vsqrtF32 d a m e | .vabsF32 d a m e | .vnegF32 d a m e | .vnotZ32 d a m e | .vrsumF32 d a m e
  | .vrmaxF32 d a m e | .vrminF32 d a m e | .vrsumS32 d a m e | .vmov d a m e => d ++ a ++ 0#5 ++ m ++ e ++ 0#1
  | .vcmpLtF32 c a b m e | .vcmpLeF32 c a b m e | .vcmpEqF32 c a b m e | .vcmpLtS32 c a b m e
  | .vcmpEqS32 c a b m e | .vcmpLtZ32 c a b m e => c ++ a ++ b ++ m ++ e ++ 0#3
  | .vmand c a b | .vmor c a b | .vmxor c a b => c ++ a ++ b ++ 0#11
  | .vmnot c a => c ++ a ++ 0#14
  | .vsel d a b m => d ++ a ++ b ++ m ++ 2#2
  | .vbcast d a => d ++ a ++ 0#9
  | .vext g a b => g ++ a ++ b ++ 0#3
  | .vins d a b => d ++ a ++ b ++ 0#3
  | .vtr32 d a | .vzord d a | .vrowm d a => d ++ a ++ 0#10
  | .vrandZ32 d n => d ++ n ++ 0#13
  | .vaccF32 d t r => d ++ t ++ r ++ 0#7
  | .qmaxF32 s c | .qmaxBf16 s c | .qmaxF16 s c => s ++ c ++ 0#11
  | .qmvsc c h => c ++ h ++ 0#15
  | .qcvtE4m3 q v r n s c h | .qcvtE5m2 q v r n s c h | .qcvtE2m1 q v r n s c h | .qcvtS8 q v r n s c h
  | .qcvtBp8 q v r n s c h | .qdqE4m3 q v r n s c h | .qdqE5m2 q v r n s c h | .qdqE2m1 q v r n s c h
  | .qdqS8 q v r n s c h | .qdqBp8 q v r n s c h => q ++ v ++ r ++ n ++ s ++ c ++ h ++ 0#1
  | .qin q v | .qout q v => q ++ v ++ 0#12
  | .cvtBf16F32 d s r n | .cvtF16F32 d s r n | .cvtF32S32 d s r n | .cvtS32F32 d s r n => d ++ s ++ r ++ n ++ 0#5
  | .cvtF32Bf16 d s | .cvtF32F16 d s => d ++ s ++ 0#10
  | .ldsc c a o | .ldscB c a o | .stsc c a o => c ++ a ++ o
  | .ldbS8 s o | .ldbBf16 s o | .ldbE4m3 s o | .ldbE5m2 s o | .ldbE2m1 s o => s ++ o ++ 0#15
  | .mmBp2 t s o m c | .mmBp3 t s o m c | .mmBp4 t s o m c | .mmBp5 t s o m c | .mmBp6 t s o m c
  | .mmBp7 t s o m c | .mmBp8 t s o m c | .mmBf16 t s o m c => t ++ s ++ o ++ m ++ c ++ 0#3
  | .mmx t s o k c => t ++ s ++ o ++ k ++ c ++ 0#4
  | .dmm t s o b k a c | .dmmr t s o b k a c => t ++ s ++ o ++ b ++ k ++ a ++ c ++ 0#1
  | .dtap v t r | .ardF32 v t r | .ardS32 v t r | .awrF32 v t r | .awrS32 v t r | .aexp v t r => v ++ t ++ r ++ 0#7
  | .aclr t => t ++ 0#17
  | .ldcv k o | .ldbm k o => k ++ o ++ 0#15
  | .mvfo o a | .addfo o a => o ++ a ++ 0#11
  | .mvsh s a | .shadd s a => s ++ a ++ 0#10
  | .xsend s t d | .xsendLk s t d | .xmcast s t d | .xmcastLk s t d | .xredAddF32 s t d | .xredMaxF32 s t d
  | .xredMinF32 s t d | .xredAddBf16 s t d | .xredAddS32 s t d | .xredMaxS32 s t d => s ++ t ++ d ++ 0#5
  | .ldmap s a t => s ++ a ++ t ++ 0#9
  | .swapmap n o t => n ++ o ++ 0#2 ++ t ++ 0#9
  | .retiremap s t => s ++ 0#6 ++ t ++ 0#9
  | .strays a t => 0#4 ++ a ++ t ++ 0#9
  | .lnbind k a | .lnmsg k a => k ++ a ++ 0#11
  | .lnfree k => k ++ 0#17
  | .ctset c a => c ++ a ++ 0#11
  | .ctclr c => c ++ 0#17
  | .nop | .append _ _ | .windowLoad _ _ | .windowStore _ _ | .registerWrite _ _ | .sstatWrite _ _
  | .sheadWrite _ _ | .sseqWrite _ _ | .sendWrite _ _ | .partitionWrite _ _ | .configurationWrite _ _
  | .counterClear _ _ | .grantWrite _ _ | .endRun _ _ | .shareWindowWrite _ _ | .scratchpadClaim _
  | .interruptVectorWrite _ | .strayFree _ | .runPlacement _ | .runStart _ | .waitrunDone _ | .fenceDone _
  | .signalStorePerformed _ | .runRetire _ | .deferredStreamFault _ | .retiredMapsEmpty _ | .preempt _
  | .contextResume _ | .spinWake _ | .barWaitWake _ | .waitanyWake _ | .waitaWake _ | .waitWake _
  | .tbarRelease _ _ | .bufferFullCheckpoint _ _ | .generatorBarrierRelease _ _ | .faultDelivery _ _
  | .loadDataReturn _ | .engineBegin _ | .vOpComplete _ | .qcOpComplete _ | .mOpComplete _ | .localPerform _
  | .homePerform _ | .lgReadPerform _ | .lgAtomicPerform _ | .drainComplete _ | .pageWalkComplete _ _ _
  | .bolterBlockVerify _ | .dataPacketArrive _ | .endMarkerArrive _ | .endMarkerApply _ | .transferAck _ _ _
  | .mapInstall _ | .mapSwap _ | .mapRetire _ | .undeliverableNotice _ | .flitReceive _ _
  | .linkReplayRequest _ _ | .packetForward _ | .remoteRequestArrive _ | .remoteReplyArrive _ _ _ _ _
  | .remoteRequestTimeout _ _ | .linkPushDepart _ _ | .linkWordArrive _ | .linkRequestServe _
  | .linkReplyArrive _ _ _ _ | .linkRequestTimeout _ _ _ | .causalStorePerform _ | .landingNotice _
  | .carrierArrive _ | .carrierEnterSluice | .causalQuery _ _ | .answerLanded _ _ | .answerLost _ _
  | .carrierDeadline _ | .ownEntryDeadline _ | .expiryNotice _ _ | .landedRecordExpiry _ _
  | .reductionContributionArrive _ | .reductionSlotApply _ | .xredContributionArrive _ | .xredSlotDeadline _
  | .reductionSlotAdmit | .ftimeAdjust _ | .clockLimitChange _ | .groupLimitReport _ _ _ _
  | .groupClockAnnounce _ _ _ | .groupClockSwitch _ | .grantUnitsArrive _ _ | .powerAskArrive _ _
  | .grantUnitsReturned _ | .powerPeriod | .energyPeriod | .deviceReset _ | .lifeCycleChange _ _
  | .linkAttestation _ _ | .memoryError _ _ _ _ _ | .targetedSelfTest _ _ | .wipeFinish | .linkRetrainDone _ => 0

/-- The maps a word belongs to (R84 to R96); the NOP belongs to all of them, an event to none. -/
def Instr.inMap (sm : SlotMap) : Instr → Bool
  | .nop => true
  | .jmp _ | .call _ | .jmpr _ | .br _ _ | .callr _ | .ret | .loop _ _ _ | .loopi _ _ _ | .step _ _ _
  | .stepr _ _ _ | .ord _ _ | .waitF _ | .tbar | .tail _ _ | .endCtx | .mfs _ _ | .mts _ _ | .trap _ | .tret
  | .csave _ | .crest _ | .ckptg _ | .replayg _ | .tlbinv _ | .tlbinva | .enrd _ _ | .clkreq _ | .sgjoin _
  | .sgleave | .selftest _ | .irq _ | .brk | .pwrgive _ | .pwrask _ | .launch _ | .waitrun _ _ | .signal _ _ _
  | .fence => sm == .c
  | .addS64 _ _ _ | .subS64 _ _ _ | .mulS64 _ _ _ | .mulhS64 _ _ _ | .mulhZ64 _ _ _ | .andZ64 _ _ _
  | .orZ64 _ _ _ | .addS64Imm _ _ _ | .andZ64Imm _ _ _ | .orZ64Imm _ _ _ | .xorZ64Imm _ _ _ | .liS64 _ _
  | .li64 _ _ | .xorZ64 _ _ _ | .shlZ64Imm _ _ _ | .shrZ64Imm _ _ _ | .asrS64Imm _ _ _ | .shlZ64 _ _ _
  | .shrZ64 _ _ _ | .asrS64 _ _ _ | .minS64 _ _ _ | .maxS64 _ _ _ | .minZ64 _ _ _ | .maxZ64 _ _ _
  | .divS64 _ _ _ | .divZ64 _ _ _ | .remS64 _ _ _ | .remZ64 _ _ _ | .bfxZ64 _ _ _ | .bfxS64 _ _ _
  | .cmpLtS64 _ _ _ | .cmpEqS64 _ _ _ | .cmpLeS64 _ _ _ | .cmpNeS64 _ _ _ | .cmpLtZ64 _ _ _ | .cmpLeZ64 _ _ _
  | .bfiZ64 _ _ _ | .cmpLtS64Imm _ _ _ | .cmpEqS64Imm _ _ _ | .cmpLeS64Imm _ _ _ | .cmpNeS64Imm _ _ _
  | .cmpLtZ64Imm _ _ _ | .cmpLeZ64Imm _ _ _ | .fand _ _ _ | .fior _ _ _ | .fxor _ _ _ | .fandn _ _ _ | .fset _
  | .fclr _ | .movS64Pop _ _ | .movS64Push _ _ | .popcZ64 _ _ | .clzZ64 _ _ | .ctzZ64 _ _ | .cvtF32S64 _ _ _
  | .cvtS64F32 _ _ _ | .cvtF32Z64 _ _ _ | .cvtZ64F32 _ _ _ => sm == .s
  | .pfLg _ _ | .redAddF32 _ _ _ | .redMaxF32 _ _ _ | .redMinF32 _ _ _ | .redAddS32 _ _ _ | .redMaxS32 _ _ _
  | .redMinS32 _ _ _ | .stLgC _ _ _ | .stLgK _ _ _ _ | .drain => sm == .mem .lg
  | .ld sp _ _ _ | .st sp _ _ _ | .ldm sp _ _ _ | .stm sp _ _ _ | .ldt sp _ _ _ | .stt sp _ _ _
  | .ldsS8 sp _ _ _ | .ldsZ8 sp _ _ _ | .ldsS16 sp _ _ _ | .ldsZ16 sp _ _ _ | .ldsS32 sp _ _ _
  | .ldsZ32 sp _ _ _ | .ldsS64 sp _ _ _ | .stsZ8 sp _ _ _ | .stsZ16 sp _ _ _ | .stsZ32 sp _ _ _
  | .stsZ64 sp _ _ _ | .aaddS64 sp _ _ _ | .aminS64 sp _ _ _ | .amaxS64 sp _ _ _ | .aandZ64 sp _ _ _
  | .aorZ64 sp _ _ _ | .axorZ64 sp _ _ _ | .aswpZ64 sp _ _ _ | .acasZ64 sp _ _ _ | .barWait sp _ _ _
  | .barArrive sp _ _ | .barInit sp _ _ _ | .barExp sp _ _ _ | .waitany sp _ _ _ | .waita sp _ _ _ => sm == .mem sp
  | .vaddF32 _ _ _ _ _ | .vsubF32 _ _ _ _ _ | .vmulF32 _ _ _ _ _ | .vfmaF32 _ _ _ _ _ | .vminF32 _ _ _ _ _
  | .vmaxF32 _ _ _ _ _ | .vaddBf16 _ _ _ _ _ | .vsubBf16 _ _ _ _ _ | .vmulBf16 _ _ _ _ _ | .vfmaBf16 _ _ _ _ _
  | .vminBf16 _ _ _ _ _ | .vmaxBf16 _ _ _ _ _ | .vaddF16 _ _ _ _ _ | .vsubF16 _ _ _ _ _ | .vmulF16 _ _ _ _ _
  | .vfmaF16 _ _ _ _ _ | .vminF16 _ _ _ _ _ | .vmaxF16 _ _ _ _ _ | .vdivF32 _ _ _ _ _ | .vsqrtF32 _ _ _ _
  | .vabsF32 _ _ _ _ | .vnegF32 _ _ _ _ | .vaddS32 _ _ _ _ _ | .vsubS32 _ _ _ _ _ | .vmulS32 _ _ _ _ _
  | .vmulhS32 _ _ _ _ _ | .vminS32 _ _ _ _ _ | .vmaxS32 _ _ _ _ _ | .vminZ32 _ _ _ _ _ | .vmaxZ32 _ _ _ _ _
  | .vandZ32 _ _ _ _ _ | .vorZ32 _ _ _ _ _ | .vxorZ32 _ _ _ _ _ | .vshlZ32 _ _ _ _ _ | .vshrZ32 _ _ _ _ _
  | .vasrS32 _ _ _ _ _ | .vnotZ32 _ _ _ _ | .vcmpLtF32 _ _ _ _ _ | .vcmpLeF32 _ _ _ _ _ | .vcmpEqF32 _ _ _ _ _
  | .vcmpLtS32 _ _ _ _ _ | .vcmpEqS32 _ _ _ _ _ | .vcmpLtZ32 _ _ _ _ _ | .vmand _ _ _ | .vmor _ _ _
  | .vmxor _ _ _ | .vmnot _ _ | .vsel _ _ _ _ | .vperm _ _ _ _ _ | .vbcast _ _ | .vext _ _ _ | .vins _ _ _
  | .vtr32 _ _ | .vzord _ _ | .vrowm _ _ | .vrsumF32 _ _ _ _ | .vrmaxF32 _ _ _ _ | .vrminF32 _ _ _ _
  | .vrsumS32 _ _ _ _ | .vrandZ32 _ _ | .vsetvl _ | .vmov _ _ _ _ | .vaccF32 _ _ _ => sm == .v
  | .qmaxF32 _ _ | .qmaxBf16 _ _ | .qmaxF16 _ _ | .qmvsc _ _ => sm == .qm
  | .qcvtE4m3 _ _ _ _ _ _ _ | .qcvtE5m2 _ _ _ _ _ _ _ | .qcvtE2m1 _ _ _ _ _ _ _ | .qcvtS8 _ _ _ _ _ _ _
  | .qcvtBp8 _ _ _ _ _ _ _ | .qdqE4m3 _ _ _ _ _ _ _ | .qdqE5m2 _ _ _ _ _ _ _ | .qdqE2m1 _ _ _ _ _ _ _
  | .qdqS8 _ _ _ _ _ _ _ | .qdqBp8 _ _ _ _ _ _ _ | .qrot | .qin _ _ | .qout _ _ | .cvtBf16F32 _ _ _ _
  | .cvtF16F32 _ _ _ _ | .cvtF32Bf16 _ _ | .cvtF32F16 _ _ | .cvtF32S32 _ _ _ _ | .cvtS32F32 _ _ _ _ => sm == .qc
  | .ldsc _ _ _ | .ldscB _ _ _ | .stsc _ _ _ => sm == .sc
  | .ldbS8 _ _ | .ldbBf16 _ _ | .ldbE4m3 _ _ | .ldbE5m2 _ _ | .ldbE2m1 _ _ | .mmBp2 _ _ _ _ _
  | .mmBp3 _ _ _ _ _ | .mmBp4 _ _ _ _ _ | .mmBp5 _ _ _ _ _ | .mmBp6 _ _ _ _ _ | .mmBp7 _ _ _ _ _
  | .mmBp8 _ _ _ _ _ | .mmBf16 _ _ _ _ _ | .mmx _ _ _ _ _ | .dmm _ _ _ _ _ _ _ | .dmmr _ _ _ _ _ _ _
  | .dtap _ _ _ | .ardF32 _ _ _ | .ardS32 _ _ _ | .awrF32 _ _ _ | .awrS32 _ _ _ | .aclr _ | .aexp _ _ _
  | .ldcv _ _ | .ldbm _ _ | .mvfo _ _ | .addfo _ _ => sm == .m
  | .mvsh _ _ | .shadd _ _ | .lish _ _ | .xsend _ _ _ | .xsendLk _ _ _ | .xmcast _ _ _ | .xmcastLk _ _ _
  | .xredAddF32 _ _ _ | .xredMaxF32 _ _ _ | .xredMinF32 _ _ _ | .xredAddBf16 _ _ _ | .xredAddS32 _ _ _
  | .xredMaxS32 _ _ _ | .ldmap _ _ _ | .swapmap _ _ _ | .retiremap _ _ | .strays _ _ | .lnbind _ _ | .lnfree _
  | .lnmsg _ _ | .ctset _ _ | .ctclr _ => sm == .x
  | .append _ _ | .windowLoad _ _ | .windowStore _ _ | .registerWrite _ _ | .sstatWrite _ _ | .sheadWrite _ _
  | .sseqWrite _ _ | .sendWrite _ _ | .partitionWrite _ _ | .configurationWrite _ _ | .counterClear _ _
  | .grantWrite _ _ | .endRun _ _ | .shareWindowWrite _ _ | .scratchpadClaim _ | .interruptVectorWrite _
  | .strayFree _ | .runPlacement _ | .runStart _ | .waitrunDone _ | .fenceDone _ | .signalStorePerformed _
  | .runRetire _ | .deferredStreamFault _ | .retiredMapsEmpty _ | .preempt _ | .contextResume _ | .spinWake _
  | .barWaitWake _ | .waitanyWake _ | .waitaWake _ | .waitWake _ | .tbarRelease _ _ | .bufferFullCheckpoint _ _
  | .generatorBarrierRelease _ _ | .faultDelivery _ _ | .loadDataReturn _ | .engineBegin _ | .vOpComplete _
  | .qcOpComplete _ | .mOpComplete _ | .localPerform _ | .homePerform _ | .lgReadPerform _ | .lgAtomicPerform _
  | .drainComplete _ | .pageWalkComplete _ _ _ | .bolterBlockVerify _ | .dataPacketArrive _
  | .endMarkerArrive _ | .endMarkerApply _ | .transferAck _ _ _ | .mapInstall _ | .mapSwap _ | .mapRetire _
  | .undeliverableNotice _ | .flitReceive _ _ | .linkReplayRequest _ _ | .packetForward _
  | .remoteRequestArrive _ | .remoteReplyArrive _ _ _ _ _ | .remoteRequestTimeout _ _ | .linkPushDepart _ _
  | .linkWordArrive _ | .linkRequestServe _ | .linkReplyArrive _ _ _ _ | .linkRequestTimeout _ _ _
  | .causalStorePerform _ | .landingNotice _ | .carrierArrive _ | .carrierEnterSluice | .causalQuery _ _
  | .answerLanded _ _ | .answerLost _ _ | .carrierDeadline _ | .ownEntryDeadline _ | .expiryNotice _ _
  | .landedRecordExpiry _ _ | .reductionContributionArrive _ | .reductionSlotApply _
  | .xredContributionArrive _ | .xredSlotDeadline _ | .reductionSlotAdmit | .ftimeAdjust _
  | .clockLimitChange _ | .groupLimitReport _ _ _ _ | .groupClockAnnounce _ _ _ | .groupClockSwitch _
  | .grantUnitsArrive _ _ | .powerAskArrive _ _ | .grantUnitsReturned _ | .powerPeriod | .energyPeriod
  | .deviceReset _ | .lifeCycleChange _ _ | .linkAttestation _ _ | .memoryError _ _ _ _ _
  | .targetedSelfTest _ _ | .wipeFinish | .linkRetrainDone _ => false

/-- The word of a slot (R44); the NOP is the all-zero word. -/
def encodeSlot (s : Slot) : W32 :=
  if s.ins = .nop then 0
  else s.pt ++ BitVec.ofBool s.fi ++ BitVec.ofBool s.li ++ s.ins.op ++ s.ins.operand

/-- The words of a well-formed instruction under PT 0, FI 0 and LI 0; an event has no word. -/
def encode (i : Instr) : W32 := encodeSlot { pt := 0, fi := false, li := false, ins := i }

/-- A header word (R43). -/
def encodeHeader (h : Header) : W32 := h.p ++ h.rep ++ BitVec.ofBool h.stop ++ h.lits ++ 0#8

/-- The maps in the order `decodeTableWord` tries them: a word of the opcode table does not say its slot (R84 to R96; log 2). -/
def tableMaps : List SlotMap := [.c, .s, .mem .ll, .mem .lk, .mem .lg, .v, .m, .qm, .qc, .sc, .x]

/-- The first map that accepts the word. -/
noncomputable def firstAccepting (w : W32) : List SlotMap → Option Instr
  | [] => none
  | sm :: rest =>
    match decodeSlot sm w with
    | .ok s => some s.ins
    | .error _ => firstAccepting w rest

/-- The instruction that a slot word of `nbits` bits (bit 0 the least significant bit of the first byte) stands for: the
word is laid out as the hardware stores it (R43) and read back. -/
noncomputable def decodeTableWord (nbits w : Nat) : Option Instr :=
  if nbits ≤ 32 then
    match wordsLE (bytesLE (BitVec.ofNat 32 w)) with
    | [x] => firstAccepting x tableMaps
    | _ => none
  else none

end Sys2Proof
end

