-- ==== Sys2Proof/Machine/CtxState.lean ====
section
/-! DEFINITION. The state of one context and the operations it has in flight (R73, R77, R233, R322). Maps are lists of key
and value in rising key order; a map of bit vectors lists no zero, so that equal contents are equal lists. -/

namespace Sys2Proof.Machine

/-- A sparse file of `w`-bit registers: an unlisted key reads zero. -/
abbrev RMap (w : Nat) := List (Nat × BitVec w)

/-- Records by number: an unlisted key is not there, or stands as its type's reset value where a reader says so. -/
abbrev KMap (α : Type) := List (Nat × α)

/-- Memory by location: the one canonical form of a list of cells. An unlisted location reads zero (R167). -/
abbrev Memory := List Host.Cell

/-- A register that the group rule or the scoreboard counts (R54, R67). -/
inductive RegId where
  | g (n : Nat) | v (n : Nat) | vl | m (n : Nat) | f (n : Nat) | stride (n : Nat) | ct (n : Nat) | fo (n : Nat)
  | sys (n : Nat)
  deriving DecidableEq, Repr

/-- The registers of a context (R73, R77, R203, R184). `stride` is keyed 6 × slot + level. `ot` lists, for each token
that may be incomplete, the operation it records (R74): a token reads complete when it is not listed or its operation is
no longer in flight. `fs` holds the settled flags `f8` to `f15` (R56). -/
structure Regs where
  g      : RMap 64
  v      : RMap 32768
  vl     : BitVec 11
  m      : RMap 1024
  f      : BitVec 8
  fs     : BitVec 8
  stride : RMap 32
  ot     : KMap Nat
  ct     : RMap 16
  sc     : RMap 1024
  q      : RMap 8704
  rb     : BitVec 3
  rs     : BitVec 3
  byp    : BitVec 512
  sh     : RMap 64
  fo     : RMap 32
  genC   : RMap 128
  genK   : RMap 64
  vrm    : BitVec 5
  xf     : BitVec 5
  deriving DecidableEq, Repr

/-- Where a context stands in its program (R57 to R65, R322). `remain` is REMAIN of R322, `link` the pending call link,
`nlev` the active loop levels; `lastB` caches each level's last bundle, unlisted until its headers are read. -/
structure Ctl where
  pc     : W64
  tgt    : W64
  dly    : BitVec 2
  link   : Bool
  remain : BitVec 7
  nlev   : Nat
  first  : BitVec 6
  lc     : RMap 32
  body   : RMap 64
  blen   : RMap 9
  lastB  : RMap 64
  sticky : RMap 32
  raddr  : RMap 64
  deriving DecidableEq, Repr

/-- Pending expiry (R255) and pending transfer fault (R278); `lost` lists the own entries that delivery frees. -/
structure Pend where
  pex  : Bool
  pexN : BitVec 16
  pexA : W64
  lost : List (BitVec 16)
  ptf  : Bool
  ptfC : BitVec 8
  ptfV : W64
  deriving DecidableEq, Repr


/-- A replay entry: 16 bytes of an exposed result, `k` of the context's own issues before it shows (R34, R66, R323).
`kind` is KIND of R323. `src` names the local access whose data the entry still waits for. -/
structure Replay where
  kind : BitVec 8
  reg  : BitVec 8
  byte : BitVec 16
  k    : BitVec 8
  data : BitVec 128
  src  : Option Nat
  deriving DecidableEq, Repr

/-- Why a context is parked (R30, R31, R36, R330). A wait names its flags or the barrier, line and phase it watches: `loc`
is a memory location. `gen` keeps where the context stood in its program as it issued the barrier's bundle; `regen` is that wait as a
rollback has restored it, its barrier abandoned and not yet issued again (R330). `ret` is a `tret` that waits for what the handler
issued (R328), `read` a `waita` whose remote read has not performed yet (R185). -/
inductive Park where
  | tbar
  | gen (restore : Bool) (off : W64) (at_ : Ctl)
  | regen (restore : Bool) (off : W64) (at_ : Ctl)
  | flags (mask : BitVec 16)
  | bar (loc : Nat)
  | any (loc : Nat) (mask : BitVec 8)
  | line (loc : Nat)
  | spin (lines : List Nat)
  | ret
  | read (id : Nat)
  deriving DecidableEq, Repr

/-- The handler's registers and the mode (R77, R313). `from_` is the number of the first operation that could have been
issued in handler mode (R328). `ot` are the order tokens of the trapped program, which the handler's own leave alone (R314, R322), and
`held` the barrier wait that a rollback restored to the context before it entered its handler (R316, R330). -/
structure Trp where
  handler : Bool
  from_   : Nat
  tcause  : W64
  taddr   : W64
  tvec    : W64
  trec    : W64
  ot      : KMap Nat
  held    : Option Park
  deriving DecidableEq, Repr

/-- Whether a context is resident and what it does (R26, R23, R315): `halted` and `runStopped` follow a double fault. That
a team waits for a fault to be served stands with the team (R316). -/
inductive Status where
  | absent | run | parked (why : Park) | ended | halted | runStopped
  deriving DecidableEq, Repr

/-- One branch that the spin monitor watches (R31): the branch and its target, whether anything but unchanging loads has
happened since it was last taken, the loads of this and of the last iteration (lines and bytes; the flag says that the
monitor may park on the lines), and the unchanged iterations in a row. `nowHit` and `lastHit` say that a line of the last load of `now`
and of `last` has been stored to since that load performed (R32). -/
structure Spin where
  branch : W64
  target : W64
  dirty  : Bool
  now    : List (List Nat × Bool × List Byte)
  last   : Option (List (List Nat × Bool × List Byte))
  count  : Nat
  nowHit  : Bool
  lastHit : Bool
  deriving DecidableEq, Repr

/-- Where loaded bytes go (R172 to R174, R212): the first `n` elements of a vector, a mask, a general register, a tile in
format `fmt`, the entries of a scale register, the feed of an M operation (R221), or nowhere (the operation is a prefetch). -/
inductive Dest where
  | none
  | vec (r n : Nat)
  | mask (r : Nat)
  | scal (r : Nat) (signed : Bool)
  | tile (r : Nat) (fmt : Nat) (t : Bool)
  | scale
  | feed (id : Nat)
  deriving DecidableEq, Repr

/-- What a local access does to its scratchpad (R172 to R185, R212); `loc` is a memory location. -/
inductive LocalAct where
  | load (segs : List (Nat × Nat))
  | store (segs : List (Nat × List Byte))
  | amo (op : AmoOp) (loc : Nat) (b c : W64)
  | bar (loc : Nat) (darr dsect : BitVec 32)
  deriving DecidableEq, Repr

/-- An LL, LK or SC access issued and not yet performed (R233). `no` numbers the issue it belongs to. -/
structure LocalOp where
  id   : Nat
  ctx  : Nat
  pc   : W64
  slot : Nat
  no   : Nat
  act  : LocalAct
  dest : Dest
  deriving DecidableEq, Repr

/-- Loaded bytes on their way to their destination (R67, LOAD_DATA_RETURN). -/
structure Ret where
  id    : Nat
  ctx   : Nat
  slot  : Nat
  dest  : Dest
  bytes : List Byte
  deriving DecidableEq, Repr

/-- A V or QC operation of issue `no` at `pc`, its results computed from the operands its issue read (R128, R190): the writes it makes
when it completes, and the flags it raises. `tile` is the accumulator tile that it reads (R201), `srcs` the registers: both are read as it
begins (R190, R236). -/
structure VOp where
  id    : Nat
  no    : Nat
  pc    : W64
  tile  : Option Nat
  srcs  : List RegId
  needs : List Nat
  begun : Bool
  vW    : List (Nat × VReg)
  mW    : List (Nat × BitVec 1024)
  gW    : List (Nat × W64)
  flags : BitVec 5
  deriving DecidableEq, Repr

/-- An operation of the M or X queue with what its issue captured (R216, R271): general words, a vector or the scales it
applies, and the scratchpad bytes it still has to read (location and count, R218, R246). An LG feed has `feed`, the pieces it
reads (address and count), the bytes that have come for them, and the compressed blocks not yet verified (R164). -/
structure EngOp where
  id     : Nat
  ctx    : Nat
  pc     : W64
  rid    : Nat
  no     : Nat
  ins    : Instr
  needs  : List Nat
  begun  : Bool
  words  : List W64
  vec    : VReg
  reads  : List (Nat × Nat)
  feed   : List (W64 × Nat)
  came   : List (W64 × List Byte)
  blocks : List W64
  deriving DecidableEq, Repr

/-- One context. `rid` names its run, `team` its cluster's number in the run (`g4`), `rank` and `size` what R22 gave `g2`
and `g3`. `share` is its slot-table entries. `groupW` are the registers written in the current group (R54), `busy` those
pending on the scoreboard (R67), `xfM`, `xfV`, `xfQ` the flags its engines have raised since they last entered XFLAGS
(R110), keyed 0, 1, 2 as M, V, Q in `late`: those of operations issued before the handler, which the trapped program still
owes to XFLAGS at trap return (R314). `hit` says that a watched line has been stored to (R32, R185). `drains` lists the operations that a `drain` still
waits for, each with whether it must be complete (R245) or only begun or performed; `readAt` is the bundle whose `waita` has performed its
remote read and issues again (R185); `issues` counts its issues. -/
structure Ctx where
  regs    : Regs
  ctl     : Ctl
  pend    : Pend
  trp     : Trp
  replay  : List Replay
  status  : Status
  preempt : Bool
  rid     : Nat
  team    : Nat
  rank    : Nat
  size    : Nat
  share   : Nat
  groupW  : List RegId
  busy    : List RegId
  ibuf    : KMap (List W32)
  spin    : List Spin
  vq      : List VOp
  qq      : List VOp
  xq      : List EngOp
  xfM     : BitVec 5
  xfV     : BitVec 5
  xfQ     : BitVec 5
  late    : RMap 5
  hit     : Bool
  drains  : List (Nat × Bool)
  readAt  : Option W64
  issues  : Nat
  deriving DecidableEq, Repr

end Sys2Proof.Machine
end

