-- ==== Sys2Proof/Machine/UnitState.lean ====
section
/-! DEFINITION. The state outside the contexts that a run uses: cores, Tailraces, streams, runs, teams and the global
operations in flight (R13, R18, R75, R233, R258 to R269, R375). -/

namespace Sys2Proof.Machine

/-- An accumulator tile: 32 rows of 256 mantissas of 32 bits and 16 exponent bytes (R75, R117). -/
structure Tile where
  mant : RMap 8192
  exps : RMap 128
  deriving DecidableEq, Repr

/-- A stone (R75, R114, R220): cells of 12 bits keyed by column, 256 K-rows a column; the exponents and the NaN marks of its
K blocks, keyed 16 × column + block. -/
structure Stone where
  cells : RMap 3072
  exps  : KMap Int
  nan   : List Nat
  deriving DecidableEq, Repr

/-- A link FIFO pair (R284, R293 to R296): the run that holds it, its binding word, the words queued each way, per tag the
generation and the deadline of an outstanding request (0 until it leaves), and the words of a request that is not yet
complete. A queued outbound word has a mark that says what its departure waits for (R244), 4 × issue number + context, and the
binding it was pushed under. In MODE 1 a header carries its generation and an address word is the physical address. -/
structure Link where
  holder : Option Nat
  bind   : W64
  inb    : List W64
  outb   : List (W64 × Nat × W64)
  gen    : RMap 4
  out_   : KMap Nat
  asm    : List W64
  deriving DecidableEq, Repr

/-- A transfer begun and not completed (R258, R271): its number, the X operation and the member of a multicast it belongs
to, the destination word, and whether it has ended well (`some strays`). -/
structure Xfer where
  tid    : BitVec 12
  op     : Nat
  ctx    : Nat
  rid    : Nat
  member : Nat
  dest   : W64
  done   : Bool
  ok     : Bool
  deriving DecidableEq, Repr

/-- A translation that a cluster's TLB or a core's micro-TLB holds, tagged with its root (R158). -/
structure TlbEnt where
  cluster : Nat
  root    : W64
  va      : W64
  size    : Nat
  leaf    : W64
  deriving DecidableEq, Repr

/-- One core (R75, R27, R258, R216). `utlb` is its micro-TLB (R158), oldest entry first. `table` is the slot table in use, `next` the one that takes effect at entry 0.
`tagGen` holds the generations of the
request tags (R297). `last` records, by resource, the tenant that held it last (R22). `dead` marks a retired core (R369). -/
structure Core where
  tiles  : KMap Tile
  stones : KMap Stone
  cv     : RMap 6144
  bm     : RMap 256
  mq     : List EngOp
  links  : KMap Link
  tid    : BitVec 12
  tagGen : RMap 4
  utlb   : List TlbEnt
  xfers  : List Xfer
  table  : List Nat
  next   : Option (List Nat)
  last   : KMap Nat
  dead   : Bool
  deriving DecidableEq, Repr

/-- The state of a landing map slot that is not EMPTY (R260). -/
inductive MapState where
  | staged | live | retiring | closing
  deriving DecidableEq, Repr

/-- A transfer's identity (R258): source chip, source core, TID. -/
abbrev XferId := BitVec 12 × BitVec 8 × BitVec 12

/-- A landing map slot that is not EMPTY (R260, R261): the image, the run that installed it with its tenant and window
(first location and bytes), the transfers open at it, whose number is the pending count, and the `retiremap` that waits for it
to empty. -/
structure MapSlot where
  state  : MapState
  image  : List Byte
  rid    : Nat
  tenant : BitVec 4
  base   : Nat
  bytes  : Nat
  open_  : List XferId
  waiter : Option Nat
  deriving DecidableEq, Repr

/-- What a Tailrace knows of a transfer (R266): data packets accounted for, strays among them, the slot that took the last
landed packet. -/
structure Acct where
  xfer   : XferId
  count  : Nat
  strays : Nat
  slot   : Option Nat
  deriving DecidableEq, Repr

/-- A stray buffer entry of 288 bytes with its tenant (R269). -/
structure Stray where
  tenant : BitVec 4
  bytes  : List Byte
  deriving DecidableEq, Repr

/-- A map operation that has reached its Tailrace (R267). -/
structure MapOp where
  ins : Instr
  ctx : Nat
  rid : Nat
  id  : Nat
  loc : Nat
  deriving DecidableEq, Repr

/-- A packet, or a collective's merged run, that a map has taken and whose elements land one at a time (R234, R265): its map's slot, the
elements that have not landed, whether one was a landing fault. `merged` lists the contributions of a merged run, with the reduction record that
follows it, if any (R301, R303). -/
structure Landing where
  pkt    : LandPkt
  slot   : Nat
  left   : List Nat
  bad    : Bool
  merged : Option (List LandPkt × Option (List Byte))
  deriving DecidableEq, Repr

/-- One Tailrace (R260 to R269). `landing` is the packet whose elements are landing. `ends` are end markers that wait, `ops` the map operations in the order they reached it, `stop`
says that an event waits for room in the stray buffer. -/
structure Tail where
  slots  : KMap MapSlot
  landing : Option Landing
  strays : List Stray
  ends   : List LandPkt
  acct   : List Acct
  ops    : List MapOp
  stop   : Bool
  deriving DecidableEq, Repr

/-- What a stream's command waits for (R15): the run of a `launch`, a stream's position, every position so far, or the
store of a `signal` at a location, with the vector to raise. -/
inductive Await where
  | placement (r : Nat)
  | position (s : Nat) (n : W64)
  | all
  | store (loc : Nat) (val : W64) (irq : Option (BitVec 8))
  deriving DecidableEq, Repr

/-- A command stream (R13). `open_` lists launched positions that have not RETIRED, `ret` those that have, `late` the faults of
tail children that wait for the next command boundary (R16), oldest first: the code and the parent's sequence number. `len` is the byte
length of the command in execution, `since` the cycle at which HEAD came to stand at the command that it names (R21). -/
structure Stream where
  base  : W64
  size  : W64
  head  : W64
  end_  : W64
  seq   : W64
  cfg   : W64
  root  : W64
  stat  : W64
  await : Option Await
  len   : Nat
  open_ : List W64
  ret   : List W64
  late  : List (BitVec 8 × BitVec 32)
  since : Option Nat
  deriving DecidableEq, Repr

/-- A placement entry (R18). -/
structure Entry where
  cluster : Nat
  core    : Nat
  ctxMask : BitVec 4
  tiles   : BitVec 8
  stones  : BitVec 4
  curves  : BitVec 4
  maps    : BitVec 4
  share   : Nat
  llBase  : Nat
  llCnt   : Nat
  lkBase  : Nat
  lkCnt   : Nat
  deriving DecidableEq, Repr

/-- A run: waiting for placement, or placed (R18 to R25, R42). `time` and `stream` order waiting launches (R21), `pos` is
the stream position whose chain it belongs to. `served` counts, by L2 slice, its requests served in the present period, `flits` the
flits it has originated in it (R363). `cnt` holds the five counters of R42, `child` the binary and the arguments
of a queued tail run. -/
structure Run where
  id     : Nat
  stream : Nat
  pos    : W64
  time   : Nat
  tenant : Nat
  root   : W64
  part   : Nat
  bin    : W64
  args   : W64
  pc     : W64
  recs   : List Entry
  placed : Bool
  begun  : Bool
  stopped : Bool
  cnt    : RMap 64
  served : KMap Nat
  flits  : Nat
  energy : Nat
  child  : Option (W64 × W64)
  deriving DecidableEq, Repr

/-- What a checkpoint keeps of a context (R38); `raised` are the flags that its engines have raised and XFLAGS does not hold yet
(R110), keyed as `late`; `drains` is the stall of a `drain` that it is in (R187). -/
structure Snap where
  regs   : Regs
  ctl    : Ctl
  replay : List Replay
  raised : RMap 5
  status : Status
  drains : List (Nat × Bool)
  deriving DecidableEq, Repr

/-- What a rollback puts back, newest first: the old contents that an undo log holds (R38), a 64-byte line of a scratchpad by its
first location or a row of a tile with its exponents, `core` being the core whose log holds it; and what the last issue did that its
second checkpoint does not hold yet (R37): a child queued for a run, a word popped from a link FIFO pair, a word pushed to one with the
incomplete request before it and, of a request's header, the tag with its generation and outstanding bit as they were. -/
inductive Undo where
  | line (core : Nat) (loc : Nat) (old : List Byte)
  | row (core tile row : Nat) (mant : BitVec 8192) (exps : BitVec 128)
  | child (rid : Nat)
  | popped (core link : Nat) (w : W64)
  | pushed (core link : Nat) (asm : List W64) (tag : Option (Nat × BitVec 4 × Option Nat))
  deriving DecidableEq, Repr

/-- A fault reported against a context (R317): the issue it belongs to orders the reports. -/
structure Report where
  ctx   : Nat
  no    : Nat
  pc    : W64
  cause : W64
  addr  : W64
  deriving DecidableEq, Repr

/-- A team: a run's contexts in one cluster, in rank order (R375). `ckpt` holds the last checkpoint by context, `cut` the number that
the next issue could have had as it was taken, `undo` the logs since then, newest first. `full` asks for a forced checkpoint (R37). `reports` are the faults not yet delivered (R317), `serving`
is the context whose handler serves one (R316). `gate` lists what a `tbar` release still waits for (R242). -/
structure Team where
  rid     : Nat
  cluster : Nat
  ctxs    : List Nat
  ckpt    : KMap Snap
  cut     : Nat
  undo    : List Undo
  full    : Bool
  reports : List Report
  serving : Option Nat
  gate    : Option (List Nat)
  deriving DecidableEq, Repr

/-- A piece of a global access that lies on one page (R155, R169): `off` counts from the access's first byte, `va` and `pa`
are where it begins, `chip` is the home of a REM page, `leaf` the page's entry (R151). -/
structure Seg where
  off  : Nat
  len  : Nat
  va   : W64
  pa   : Nat
  chip : Option (BitVec 12)
  leaf : W64
  deriving DecidableEq, Repr

/-- What a global operation does at its home (R234). -/
inductive GAct where
  | read (dest : Dest)
  | store (bytes : List Byte)
  | red (op : RedOp) (words : List W32)
  | amo (op : AmoOp) (b c : W64) (rd : Nat)
  | causal (seq : Option (BitVec 16)) (carries : List (BitVec 16)) (deadline : Nat) (bytes : List Byte)
  deriving DecidableEq, Repr

/-- An outstanding request of a remote access (R297): the piece it serves, tag, generation, and deadline. -/
structure Req where
  off : Nat
  tag : Nat
  gen : BitVec 4
  due : Nat
  deriving DecidableEq, Repr

/-- A global operation issued and not yet finished, in team issue order: the team store buffer holds the stores and
reductions not yet `committed`, the home channels those committed (R233, R239). `own` are the bytes a read took from its
team's stores by their place in the access, `got` what its homes have answered by piece (R240). `sent` is true once the operation has left for another package
or its reduction slot, `reqs` are its outstanding requests. `seen` are the contexts whose reads took bytes of a store (R240). `passed` lists the bytes of memory, by
location and number, that a later read of its context has read before it: it performs before the next write to them (R240). `prior` lists
what the context's earlier reads have got for bytes of another package that it reads too, by their place in its access (R240). `needs` is empty once the operation has begun (R245). `batch` numbers the commit that moved an entry, `direct` marks a store sent in handler
mode (R313). -/
structure GOp where
  id        : Nat
  ctx       : Nat
  pc        : W64
  rid       : Nat
  cluster   : Nat
  no        : Nat
  needs     : List Nat
  act       : GAct
  segs      : List Seg
  committed : Bool
  batch     : Nat
  direct    : Bool
  sent      : Bool
  reqs      : List Req
  own       : KMap Byte
  got       : KMap (List Byte)
  seen      : List Nat
  passed    : List (Nat × Nat)
  prior     : List (Nat × Byte)
  deriving DecidableEq, Repr

end Sys2Proof.Machine
end

