-- ==== Sys2Proof/Machine/PkgState.lean ====
section
/-! DEFINITION. The state of the package as a whole: causal tokens, reduction slots, link ports, Governors, grants, energy,
fabric time, the blocks of the host window, life cycle and repair (R149, R251 to R256, R286 to R304, R358 to R373). -/

namespace Sys2Proof.Machine

/-- The state of an own entry of the token table (R252). -/
inductive TokState where
  | pending | landed | lost
  deriving DecidableEq, Repr

/-- An own entry (R252, R255): its state, deadline, the context and address of its store, the packages that wait. -/
structure OwnTok where
  state    : TokState
  deadline : Nat
  ctx      : Nat
  va       : W64
  waiting  : List (BitVec 12)
  deriving DecidableEq, Repr

/-- A landed record (R252). -/
structure Landed where
  chip     : BitVec 12
  seq      : BitVec 16
  deadline : Nat
  deriving DecidableEq, Repr

/-- A carrier held in the Sluice with the tokens that are not yet satisfied (R254). -/
structure Held where
  pkt   : CausalPkt
  unsat : List (BitVec 16)
  deriving DecidableEq, Repr

/-- A memory reduction's slot (R299): its key, the merged words by word number, the NaN-seen bit, and the requests that the slot
serves (package, core, tag, generation). -/
structure RedSlot where
  tenant : BitVec 4
  op     : RedOp
  line   : Nat
  words  : KMap W32
  nan    : Bool
  from_  : List (BitVec 12 × BitVec 8 × Nat × BitVec 4)
  deriving DecidableEq, Repr

/-- The key of a collective (R280, R301): destination Tailrace, STREAM, origin, CNT, NC, GEN and tenant. -/
structure XredKey where
  tail   : Nat
  stream : BitVec 16
  origin : List Nat
  cnt    : Nat
  nc     : BitVec 6
  gen    : BitVec 4
  tenant : BitVec 4
  deriving DecidableEq, Repr

/-- A collective's slot (R301): the contributions by rank and the deadline. -/
structure XredSlot where
  key      : XredKey
  got      : KMap XredPkt
  deadline : Nat
  deriving DecidableEq, Repr

/-- A flit that a port has sent and keeps for replay (R290), in clear, with its counter. `own` is, for a flit of this package's own packets,
what an undeliverable notice says of the packet, if its sender waits for one (R298). -/
structure KeptFlit where
  ctr  : Nat
  flit : Flit
  own  : Option (Option Notice)
  deriving DecidableEq, Repr

/-- One link port (R289, R290, R368): locked and attested, the epoch, the keys of the two directions, the counter the receiver expects
and the one it has asked to be replayed, the counter that the far side last asked for, the next counter to send, the flits kept for
replay with their counters (the last 512). By class: `partial_` is the first flit of a packet for this package that has not come whole,
`crossing` that of a packet in transit that has not come whole, `sending` that of one that this port has begun to send, with the port it
came in by. `spareTx` and `spareRx` count the spare lanes used of each direction (R369); `training` says that the link retrains, `away`
that the router at the far side is in reset (R298). -/
structure Port where
  locked   : Bool
  attested : Bool
  epoch    : BitVec 32
  keyTx    : BitVec 256
  keyRx    : BitVec 256
  rx       : Nat
  retry    : Option Nat
  asked    : Option Nat
  tx       : Nat
  kept     : List KeptFlit
  partial_ : KMap Flit
  crossing : KMap Flit
  sending  : KMap (BitVec 3 × Flit)
  spareTx  : Nat
  spareRx  : Nat
  training : Bool
  away     : Bool
  deriving DecidableEq, Repr

/-- A clock that a step group has switched to: the group, the steps of 25 MHz and the time of the switch (R360). -/
structure GroupClock where
  group : BitVec 16
  steps : Nat
  at_   : Nat
  deriving DecidableEq, Repr

/-- A quarter's Governor (R359 to R362), clocks in steps of 25 MHz: the request (0: none), the power and thermal limits,
the step group, the own limit last reported with the leader it was reported to, the clock of its group or of one that it has left, changes
announced and not yet made, the clock in effect and the share of P in quarters of a unit. -/
structure Gov where
  req     : Nat
  power   : Nat
  thermal : Nat
  group   : Option (BitVec 16)
  told    : Option (BitVec 12 × Nat)
  gclock  : Option GroupClock
  changes : List (Nat × Nat)
  clock   : Nat
  share   : Nat
  deriving DecidableEq, Repr

/-- A completion of a window access (R364): whether it succeeded, and the bytes of a load. -/
structure Completion where
  ok    : Bool
  bytes : List Byte
  deriving DecidableEq, Repr

/-- The package. `part` holds the partition of each L2 slice that is in one, `lastPart` the last one it served (R149);
`granT` the tenants that granules record (R366), keyed by the granule's first location / 65,536; `ttab` the trap table by
word; `cnts` the counter block by offset / 8 (R373); `counting` says that fabric time runs. `reuse` gives, for each sequence
number assigned before, the fabric time of that and the largest EXPIRY since (R251). `jam` are carriers that wait for the Sluice (R254), `redJam`
and `xredJam` contributions that wait for a slot (R302), `kept` the last closed GEN of keys (R304, newest first).
`errs` counts errors by resource and unit, `tests` self-tests due when a resource is free, `spareRows` and `spareCores` the
spares used (R369). `wiping` is true while a wipe has not finished, `owed` the completions it holds back (R167), `stuck` when the boot image did not verify (R367).
`groups` lists, for each step group that a quarter of this package leads, the limits that its members have reported (R360), `flash` is
the firmware that the last reset loaded (R367), `identity` numbers the identity key pair that provisioning created (R368). `repairs` lists
the cores whose substitution by a spare waits until no run holds them (R369). `flits` counts the flits sent in the present energy period (R363). `endSeq` is the sequence number last written to the end-run block. -/
structure Pkg where
  part       : KMap Nat
  lastPart   : KMap Nat
  granT      : KMap Nat
  tlb        : List TlbEnt
  ttab       : RMap 64
  chip       : BitVec 12
  nx         : Nat
  ny         : Nat
  nz         : Nat
  expiry     : BitVec 32
  vectors    : BitVec 64
  cnts       : RMap 64
  p          : Nat
  f          : Nat
  energyQ    : RMap 64
  energyP    : BitVec 64
  energyT    : RMap 64
  flits      : Nat
  ftime      : Nat
  counting   : Bool
  own        : KMap OwnTok
  landed     : List Landed
  nextTok    : BitVec 16
  reuse      : KMap (Nat × Nat)
  sluice     : List Held
  jam        : List CausalPkt
  redSlots   : List RedSlot
  xredSlots  : List XredSlot
  redJam     : List RedPkt
  xredJam    : List XredPkt
  kept       : List XredKey
  ports      : KMap Port
  govs       : KMap Gov
  groups     : KMap (List (BitVec 12 × Nat × Nat))
  life       : LifeCycle
  flash      : Firmware
  identity   : Option Nat
  repairs    : List Nat
  errs       : KMap Nat
  tests      : List (Resource × Nat)
  spareRows  : KMap Nat
  spareCores : KMap Nat
  wiping     : Bool
  owed       : List Completion
  stuck      : Bool
  endSeq     : W64
  deriving DecidableEq, Repr

end Sys2Proof.Machine
end

