-- ==== Sys2Proof/Machine/State.lean ====
section
/-! DEFINITION. The whole state of the machine, the ways a step can stop, and the state right after device reset. -/

namespace Sys2Proof.Machine

/-- A step never stops with a fault: every trap and fault of the spec (R307) is taken by the machine and gives a next
state, and an access to what the spec says does not exist is one of those (R145, R155) or an error completion (R364). -/
inductive Fault where
  deriving DecidableEq, Repr

/-- Refusals of the model. -/
inductive Refusal where
  /-- Raised by `exec` for an instruction that has no meaning yet; safe: the run stops. No arm raises it now. -/
  | notModelled (mnemonic : String)
  deriving DecidableEq, Repr

/-- The machine: contexts by number 4 × (8 × cluster + core) + context, cores by 8 × cluster + core, Tailraces as R365
numbers them, memory by location (see Units.lean), streams, runs and teams, the queues of the order machine (R233), and the
package. `ops` lists the operations in flight by number, `net` the messages under way inside the package, `out` the messages to other
packages that have not entered a link, `wire` the flits sent, with their port, `irqs` the interrupts raised and `comps` the completions returned, oldest first. `cyc` counts the
cycles, `turn` is the core whose issue comes next in the cycle and `first` the context it has issued with its occupied
set (R28). `nextId` numbers operations, runs and issues; `tick` numbers the free values drawn. -/
structure Mach where
  ctxs    : KMap Ctx
  cores   : KMap Core
  tails   : KMap Tail
  mem     : Memory
  streams : KMap Stream
  runs    : List Run
  teams   : List Team
  pkg     : Pkg
  locq    : List LocalOp
  rets    : List Ret
  gops    : List GOp
  ops     : List Nat
  net     : List Sent
  out     : List Sent
  wire    : List (BitVec 3 × Flit)
  irqs    : List (BitVec 8)
  comps   : List Completion
  cyc     : Nat
  turn    : Nat
  first   : Option (Nat × BitVec 12)
  nextId  : Nat
  tick    : Nat
  deriving DecidableEq, Repr

/-- Who issues the words that `exec` runs: a context, or the sequencer of a stream (R15). -/
inductive Agent where
  | ctx (x : Nat)
  | seq (s : Nat)
  deriving DecidableEq, Repr

/-- The issue in progress: its agent, the slot of the word at hand, the bundle's address, header and literal pool, the
address after it, whether the word is presented and this is the bundle's first issue (R49), the leaf a tree selected
(R60), the registers that the word reads (R190), the `ord` that issues with it by the slot it names (R133), whether the C word has taken a transfer (R57), the last bundle of a
body that a `loop` of count 0 skips with the address after it (R62), and whether a word of the issue has trapped or parked
the context, so that the issue commits nothing (R71, R183). -/
structure Issue where
  agent   : Agent
  slot    : Nat
  addr    : W64
  next    : W64
  hdr     : Header
  pool    : List W32
  fresh   : Bool
  leaf    : Option Nat
  srcs    : List RegId
  ords    : List (Nat × W32)
  taken   : Bool
  skip    : Option (W64 × W64)
  trapped : Bool
  deriving DecidableEq, Repr

/-- The state: `m` is the machine, `old` the machine as it stood when the issue in progress began (every register and byte
that a word reads, R54), `iss` that issue, and `agenda` the choices of steps still to be made: an event, or `none` for an
issue. When the agenda is empty the machine chooses for itself (Step.lean). -/
structure State where
  m      : Mach
  old    : Mach
  iss    : Issue
  agenda : List (Option Instr)
  deriving DecidableEq, Repr

/-- A context's registers after reset (R167): zero, every token complete, the settled flags 1 (R55). -/
def Regs.zero : Regs :=
  { g := [], v := [], vl := 0, m := [], f := 0, fs := 0xFF, stride := [], ot := [], ct := [], sc := [], q := [], rb := 0,
    rs := 0, byp := 0, sh := [], fo := [], genC := [], genK := [], vrm := 0, xf := 0 }

/-- No loop level, no delay issue, every sticky word NOP (R22). -/
def Ctl.zero : Ctl :=
  { pc := 0, tgt := 0, dly := 0, link := false, remain := 0, nlev := 0, first := 0, lc := [], body := [], blen := [],
    lastB := [], sticky := [], raddr := [] }

/-- Nothing pending (R255, R278). -/
def Pend.zero : Pend := { pex := false, pexN := 0, pexA := 0, lost := [], ptf := false, ptfC := 0, ptfV := 0 }

/-- A context after reset: no run is placed (R26). -/
def Ctx.zero : Ctx :=
  { regs := Regs.zero, ctl := Ctl.zero, pend := Pend.zero,
    trp := { handler := false, from_ := 0, tcause := 0, taddr := 0, tvec := 0, trec := 0, ot := [], held := none }, replay := [], status := .absent,
    preempt := false, rid := 0, team := 0, rank := 0, size := 0, share := 0, groupW := [], busy := [], ibuf := [],
    spin := [], vq := [], qq := [], xq := [], xfM := 0, xfV := 0, xfQ := 0, late := [], hit := false, drains := [], readAt := none, issues := 0 }

/-- A link pair that no run holds, its FIFOs wiped (R167). -/
def Link.zero : Link :=
  { holder := none, bind := 0, inb := [], outb := [], gen := [], out_ := [], asm := [] }

/-- A core after reset (R167); entry 4 of the slot table is the idle pseudo-context (R27). -/
def Core.zero : Core :=
  { tiles := [], stones := [], cv := [], bm := [], mq := [], links := [], tid := 0, tagGen := [], utlb := [], xfers := [],
    table := List.replicate 64 4, next := none, last := [], dead := false }

/-- A tile after reset (R167). -/
def Tile.zero : Tile := { mant := [], exps := [] }

/-- A stone after reset (R167). -/
def Stone.zero : Stone := { cells := [], exps := [], nan := [] }

/-- A Tailrace after reset (R167). -/
def Tail.zero : Tail := { slots := [], landing := none, strays := [], ends := [], acct := [], ops := [], stop := false }

/-- A stream after reset (R13). -/
def Stream.zero : Stream :=
  { base := 0, size := 12, head := 0, end_ := 0, seq := 1, cfg := 0, root := 0, stat := 0, await := none, len := 0,
    open_ := [], ret := [], late := [], since := none }

/-- A port after reset: no link carries more than control before attestation (R368). -/
def Port.zero : Port :=
  { locked := false, attested := false, epoch := 0, keyTx := 0, keyRx := 0, rx := 0, retry := none, asked := none, tx := 0, kept := [],
    partial_ := [], crossing := [], sending := [], spareTx := 0, spareRx := 0, training := false, away := false }

/-- A Governor after reset: no request and no group (R359); its limits allow the highest clock until they are measured, and its share is
a quarter of P (DESIGN CHOICE, log 5: the spec gives no share before the first POWER_PERIOD). -/
def Gov.zero : Gov :=
  { req := 0, power := 76, thermal := 76, group := none, told := none, gclock := none, changes := [], clock := 76, share := 4800 }

/-- The package after reset (R149, R358, R361, R367, R370, R372). P, the trap table and the counters have no reset value in
the spec (log 5). -/
def Pkg.reset : Pkg :=
  { part := [], lastPart := [], granT := [], tlb := [], ttab := [], chip := 0, nx := 1, ny := 1, nz := 1, expiry := 200,
    vectors := 0x00000000F3F2F1F0, cnts := [], p := 4800, f := 1200, energyQ := [], energyP := 0, energyT := [], flits := 0, ftime := 0,
    counting := false, own := [], landed := [], nextTok := 1, reuse := [], sluice := [], jam := [],
    redSlots := [], xredSlots := [], redJam := [], xredJam := [], kept := [], ports := [], govs := [], groups := [], life := .blank,
    flash := { image := [], sigs := { ed := 0, ml := [] } }, identity := none, repairs := [],
    errs := [], tests := [], spareRows := [], spareCores := [], wiping := false, owed := [], stuck := false, endSeq := 0 }

/-- The machine right after device reset (R167, R13): nothing placed, every memory zero. -/
def Mach.reset : Mach :=
  { ctxs := [], cores := [], tails := [], mem := [], streams := [], runs := [], teams := [], pkg := Pkg.reset, locq := [],
    rets := [], gops := [], ops := [], net := [], out := [], wire := [], irqs := [], comps := [], cyc := 0, turn := 0, first := none,
    nextId := 1, tick := 0 }

/-- No issue in progress. -/
def Issue.none : Issue :=
  { agent := .ctx 0, slot := 0, addr := 0, next := 0, hdr := { p := 0, rep := 0, stop := false, lits := 0 }, pool := [],
    fresh := false, leaf := .none, srcs := [], ords := [], taken := false, skip := .none, trapped := false }

/-- The state right after device reset. -/
def State.reset : State := { m := Mach.reset, old := Mach.reset, iss := Issue.none, agenda := [] }

end Sys2Proof.Machine
end

