-- ==== Sys2Proof/Machine/Maps.lean ====
section
/-! DEFINITION. Reading and writing maps, memory and bit fields: every access to a sparse file, to memory or to a packed
word goes through these. -/

namespace Sys2Proof.Machine

/-- The record under key `k`. -/
def kget {α : Type} (k : Nat) : KMap α → Option α
  | [] => none
  | (j, a) :: r => if j = k then some a else kget k r

/-- The map without key `k`. -/
def kdel {α : Type} (k : Nat) (m : KMap α) : KMap α := m.filter (fun p => p.1 != k)

/-- The pair put before the first larger key. -/
def kins {α : Type} (k : Nat) (a : α) : KMap α → KMap α
  | [] => [(k, a)]
  | (j, b) :: r => if k < j then (k, a) :: (j, b) :: r else (j, b) :: kins k a r

/-- The map with `a` under key `k`. -/
def kput {α : Type} (k : Nat) (a : α) (m : KMap α) : KMap α := kins k a (kdel k m)

/-- The record under key `k`, or the record `d` that stands for an unlisted one. -/
def kgetD {α : Type} (d : α) (k : Nat) (m : KMap α) : α := (kget k m).getD d

/-- The map with `f` applied under key `k` (to `d` where the key is not listed). -/
def kmod {α : Type} (d : α) (k : Nat) (f : α → α) (m : KMap α) : KMap α := kput k (f (kgetD d k m)) m

/-- A register of a sparse file: unlisted reads zero. -/
def rget {w : Nat} (k : Nat) (m : RMap w) : BitVec w := kgetD 0 k m

/-- A register written: a zero is not listed. -/
def rput {w : Nat} (k : Nat) (v : BitVec w) (m : RMap w) : RMap w := if v = 0 then kdel k m else kput k v m

/-- The canonical form of a sparse file: keys strictly rising, no zero listed. -/
def rwf {w : Nat} (m : RMap w) : Bool := decide (List.Pairwise (fun p q => p.1 < q.1) m) && m.all (fun p => p.2 != 0)

/-- Memory is in its canonical form: locations strictly rising, no cell equal to what an unlisted location reads as. -/
def Memory.wf (m : Memory) : Bool := rwf (w := 8) m

/-- One byte of memory; an unlisted location reads zero (R167). -/
def readByte (m : Memory) (a : Nat) : Byte := rget (w := 8) a m

/-- `n` bytes of memory from location `a`. -/
def readBytes (m : Memory) (a n : Nat) : List Byte :=
  let near := m.filter (fun c => decide (a ≤ c.1) && decide (c.1 < a + n))
  (List.range n).map (fun i => readByte near (a + i))

/-- The cells that `bs` makes from location `a`, zeros left out. -/
def cellsFrom : Nat → List Byte → Memory
  | _, [] => []
  | a, b :: bs => if b = 0 then cellsFrom (a + 1) bs else (a, b) :: cellsFrom (a + 1) bs

/-- Memory with the bytes `bs` from location `a`. -/
def writeBytes (m : Memory) (a : Nat) (bs : List Byte) : Memory :=
  m.filter (fun c => decide (c.1 < a)) ++ cellsFrom a bs ++ m.filter (fun c => decide (a + bs.length ≤ c.1))

/-- The value of little-endian bytes. -/
def leNat : List Byte → Nat
  | [] => 0
  | b :: bs => b.toNat + 256 * leNat bs

/-- The `n` low bytes of a number, least significant first. -/
def natLE : Nat → Nat → List Byte
  | 0, _ => []
  | n + 1, v => BitVec.ofNat 8 v :: natLE n (v / 256)

/-- `n` little-endian bytes of memory as a number. -/
def readLE (m : Memory) (a n : Nat) : Nat := leNat (readBytes m a n)

/-- The bit field [hi:lo] of a number. -/
def bits (v hi lo : Nat) : Nat := v / 2 ^ lo % 2 ^ (hi - lo + 1)

/-- One bit of a number. -/
def bit (v k : Nat) : Bool := v.testBit k

/-- A `w`-bit number read as signed. -/
def signed (w v : Nat) : Int := if v % 2 ^ w < 2 ^ (w - 1) then (v % 2 ^ w : Nat) else (v % 2 ^ w : Nat) - (2 ^ w : Nat)

/-- An integer wrapped to `w` bits. -/
def wrap (w : Nat) (i : Int) : BitVec w := BitVec.ofInt w i

/-- The bits [lo + n - 1 : lo] of `v` replaced by `x`. -/
def setField {w : Nat} (v : BitVec w) (lo n : Nat) (x : BitVec n) : BitVec w :=
  let mask : BitVec w := (BitVec.allOnes n).zeroExtend w <<< lo
  (v &&& ~~~mask) ||| ((x.zeroExtend w) <<< lo)

/-- Entry `k` of `n` bits of a packed word. -/
def lane {w : Nat} (n : Nat) (v : BitVec w) (k : Nat) : BitVec n := v.extractLsb' (n * k) n

/-- The entries of `n` bits of a packed word, entry 0 first. -/
def lanes {w : Nat} (n count : Nat) (v : BitVec w) : List (BitVec n) := (List.range count).map (fun k => lane n v k)

/-- A packed word from its entries, entry 0 lowest. -/
def packLanes (w : Nat) {n : Nat} : List (BitVec n) → BitVec w
  | [] => 0
  | x :: xs => (packLanes w xs <<< n) ||| x.zeroExtend w

/-- The bytes of a packed word, byte 0 first. -/
def bytesOf {w : Nat} (count : Nat) (v : BitVec w) : List Byte := lanes 8 count v

/-- A packed word from its bytes. -/
def ofBytes (w : Nat) (bs : List Byte) : BitVec w := packLanes w bs

/-- The first `n` pieces of `w` elements of a list. -/
def chunks {α : Type} (w : Nat) : Nat → List α → List (List α)
  | 0, _ => []
  | n + 1, l => l.take w :: chunks w n (l.drop w)

/-- The first list element that satisfies `f`, with the rest of the list. -/
def takeFirst {α : Type} (f : α → Bool) : List α → Option (α × List α)
  | [] => none
  | a :: r =>
    if f a then some (a, r)
    else match takeFirst f r with
      | none => none
      | some (b, r') => some (b, a :: r')

/-- The list with `g` applied to the elements that satisfy `f`. -/
def modWhere {α : Type} (f : α → Bool) (g : α → α) (l : List α) : List α := l.map (fun a => if f a then g a else a)

end Sys2Proof.Machine
end

