-- ==== Sys2Proof/Machine/Hash.lean ====
section
/-! DEFINITION. The hash functions that R7 takes from their standards: SHA-384 and SHA-512 (FIPS 180-4), HMAC and HKDF (RFC 5869), and the
SHA-3 family (FIPS 202) that ML-DSA and ML-KEM are built on. Byte strings are lists of bytes. -/

namespace Sys2Proof.Machine

/-- The number that bytes spell, most significant byte first. -/
def numBE (bs : List Byte) : Nat := bs.foldl (fun acc b => 256 * acc + b.toNat) 0

/-- The number that bytes spell, least significant byte first. -/
def numLE (bs : List Byte) : Nat := numBE bs.reverse

/-- The `n` low bytes of a number, least significant first. -/
def leBytes : Nat → Nat → List Byte
  | 0, _ => []
  | n + 1, v => BitVec.ofNat 8 v :: leBytes n (v / 256)

/-- The `n` low bytes of a number, most significant first. -/
def beBytes (n v : Nat) : List Byte := (leBytes n v).reverse

/-! ### SHA-512 and SHA-384 (FIPS 180-4) -/

/-- The round constants (FIPS 180-4, 4.2.3), 20 to a list. -/
def shaK0 : List W64 := [
  0x428a2f98d728ae22, 0x7137449123ef65cd, 0xb5c0fbcfec4d3b2f, 0xe9b5dba58189dbbc,
  0x3956c25bf348b538, 0x59f111f1b605d019, 0x923f82a4af194f9b, 0xab1c5ed5da6d8118,
  0xd807aa98a3030242, 0x12835b0145706fbe, 0x243185be4ee4b28c, 0x550c7dc3d5ffb4e2,
  0x72be5d74f27b896f, 0x80deb1fe3b1696b1, 0x9bdc06a725c71235, 0xc19bf174cf692694,
  0xe49b69c19ef14ad2, 0xefbe4786384f25e3, 0x0fc19dc68b8cd5b5, 0x240ca1cc77ac9c65]

def shaK1 : List W64 := [
  0x2de92c6f592b0275, 0x4a7484aa6ea6e483, 0x5cb0a9dcbd41fbd4, 0x76f988da831153b5,
  0x983e5152ee66dfab, 0xa831c66d2db43210, 0xb00327c898fb213f, 0xbf597fc7beef0ee4,
  0xc6e00bf33da88fc2, 0xd5a79147930aa725, 0x06ca6351e003826f, 0x142929670a0e6e70,
  0x27b70a8546d22ffc, 0x2e1b21385c26c926, 0x4d2c6dfc5ac42aed, 0x53380d139d95b3df,
  0x650a73548baf63de, 0x766a0abb3c77b2a8, 0x81c2c92e47edaee6, 0x92722c851482353b]

def shaK2 : List W64 := [
  0xa2bfe8a14cf10364, 0xa81a664bbc423001, 0xc24b8b70d0f89791, 0xc76c51a30654be30,
  0xd192e819d6ef5218, 0xd69906245565a910, 0xf40e35855771202a, 0x106aa07032bbd1b8,
  0x19a4c116b8d2d0c8, 0x1e376c085141ab53, 0x2748774cdf8eeb99, 0x34b0bcb5e19b48a8,
  0x391c0cb3c5c95a63, 0x4ed8aa4ae3418acb, 0x5b9cca4f7763e373, 0x682e6ff3d6b2b8a3,
  0x748f82ee5defb2fc, 0x78a5636f43172f60, 0x84c87814a1f0ab72, 0x8cc702081a6439ec]

def shaK3 : List W64 := [
  0x90befffa23631e28, 0xa4506cebde82bde9, 0xbef9a3f7b2c67915, 0xc67178f2e372532b,
  0xca273eceea26619c, 0xd186b8c721c0c207, 0xeada7dd6cde0eb1e, 0xf57d4f7fee6ed178,
  0x06f067aa72176fba, 0x0a637dc5a2c898a6, 0x113f9804bef90dae, 0x1b710b35131c471b,
  0x28db77f523047d84, 0x32caab7b40c72493, 0x3c9ebe0a15c9bebc, 0x431d67c49c100d4c,
  0x4cc5d4becb3e42b6, 0x597f299cfc657e2a, 0x5fcb6fab3ad6faec, 0x6c44198c4a475817]
def shaK : List W64 := shaK0 ++ shaK1 ++ shaK2 ++ shaK3

/-- The initial hash values of SHA-384 and of SHA-512 (FIPS 180-4, 5.3.4 and 5.3.5). -/
def sha384Init : List W64 := [
  0xcbbb9d5dc1059ed8, 0x629a292a367cd507, 0x9159015a3070dd17, 0x152fecd8f70e5939,
  0x67332667ffc00b31, 0x8eb44a8768581511, 0xdb0c2e0d64f98fa7, 0x47b5481dbefa4fa4]
def sha512Init : List W64 := [
  0x6a09e667f3bcc908, 0xbb67ae8584caa73b, 0x3c6ef372fe94f82b, 0xa54ff53a5f1d36f1,
  0x510e527fade682d1, 0x9b05688c2b3e6c1f, 0x1f83d9abfb41bd6b, 0x5be0cd19137e2179]

/-- The message schedule after `n` more words, the latest word first (FIPS 180-4, 6.4.2). -/
def shaSchedule : Nat → List W64 → List W64
  | 0, w => w
  | n + 1, w =>
    let at_ := fun i => w.getD i 0
    let s1 := (at_ 1).rotateRight 19 ^^^ (at_ 1).rotateRight 61 ^^^ (at_ 1 >>> 6)
    let s0 := (at_ 14).rotateRight 1 ^^^ (at_ 14).rotateRight 8 ^^^ (at_ 14 >>> 7)
    shaSchedule n ((s1 + at_ 6 + s0 + at_ 15) :: w)

/-- One round on the working variables a to h, with the round's constant and word (FIPS 180-4, 6.4.2). -/
def shaRound (v : List W64) (kw : W64 × W64) : List W64 :=
  match v with
  | [a, b, c, d, e, f, g, h] =>
    let t1 := h + (e.rotateRight 14 ^^^ e.rotateRight 18 ^^^ e.rotateRight 41) + ((e &&& f) ^^^ (~~~e &&& g)) + kw.1 + kw.2
    let t2 := (a.rotateRight 28 ^^^ a.rotateRight 34 ^^^ a.rotateRight 39) + ((a &&& b) ^^^ (a &&& c) ^^^ (b &&& c))
    [t1 + t2, a, b, c, d + t1, e, f, g]
  | _ => v

/-- The hash value after one block of 128 bytes. -/
def shaBlock (h : List W64) (block : List Byte) : List W64 :=
  let w := (chunks 8 16 block).map (fun b => BitVec.ofNat 64 (numBE b))
  let v := (shaK.zip (shaSchedule 64 w.reverse).reverse).foldl shaRound h
  List.zipWith (fun x y => x + y) h v

/-- A message padded to whole blocks (FIPS 180-4, 5.1.2). -/
def shaPad (msg : List Byte) : List Byte :=
  msg ++ [0x80] ++ List.replicate ((239 - msg.length % 128) % 128) 0 ++ beBytes 16 (8 * msg.length)

/-- The 64 bytes of the hash with an initial value. -/
def shaWith (init : List W64) (msg : List Byte) : List Byte :=
  let p := shaPad msg
  ((chunks 128 (p.length / 128) p).foldl shaBlock init).flatMap (fun w => beBytes 8 w.toNat)

def sha512 (msg : List Byte) : List Byte := shaWith sha512Init msg
def sha384 (msg : List Byte) : List Byte := (shaWith sha384Init msg).take 48

/-! ### HMAC and HKDF with SHA-384 (RFC 2104, RFC 5869) -/

def hmacSha384 (key msg : List Byte) : List Byte :=
  let k := if 128 < key.length then sha384 key else key
  let k := k ++ List.replicate (128 - k.length) 0
  sha384 (k.map (· ^^^ 0x5C) ++ sha384 (k.map (· ^^^ 0x36) ++ msg))

/-- HKDF with an output of `n` bytes, `n` at most 48: extract, then the first step of expand (RFC 5869). -/
def hkdfSha384 (salt ikm info : List Byte) (n : Nat) : List Byte :=
  (hmacSha384 (hmacSha384 (if salt.isEmpty then List.replicate 48 0 else salt) ikm) (info ++ [1])).take n

/-! ### Keccak, SHA-3 and SHAKE (FIPS 202) -/

/-- The round constants (FIPS 202, 3.2.5). -/
def keccakRC : List W64 := [
  0x0000000000000001, 0x0000000000008082, 0x800000000000808a, 0x8000000080008000,
  0x000000000000808b, 0x0000000080000001, 0x8000000080008081, 0x8000000000008009,
  0x000000000000008a, 0x0000000000000088, 0x0000000080008009, 0x000000008000000a,
  0x000000008000808b, 0x800000000000008b, 0x8000000000008089, 0x8000000000008003,
  0x8000000000008002, 0x8000000000000080, 0x000000000000800a, 0x800000008000000a,
  0x8000000080008081, 0x8000000000008080, 0x0000000080000001, 0x8000000080008008]

/-- The rotation of each lane, lane x + 5y (FIPS 202, 3.2.2). -/
def keccakRot : List Nat := [0, 1, 62, 28, 27, 36, 44, 6, 55, 20, 3, 10, 43, 25, 39, 41, 45, 15, 21, 8, 18, 2, 61, 56, 14]

/-- One round on the 25 lanes: theta, rho and pi, chi, iota (FIPS 202, 3.2). -/
def keccakRound (a : List W64) (rc : W64) : List W64 :=
  let at_ := fun (l : List W64) i => l.getD i 0
  let c := (List.range 5).map (fun x => at_ a x ^^^ at_ a (x + 5) ^^^ at_ a (x + 10) ^^^ at_ a (x + 15) ^^^ at_ a (x + 20))
  let r := (List.range 25).map (fun i =>
    (at_ a i ^^^ at_ c ((i + 4) % 5) ^^^ (at_ c ((i + 1) % 5)).rotateLeft 1).rotateLeft (keccakRot.getD i 0))
  let b := (List.range 25).map (fun i => let x := i % 5; let y := i / 5; at_ r ((x + 3 * y) % 5 + 5 * x))
  (List.range 25).map (fun i =>
    let x := i % 5; let y := i / 5
    at_ b i ^^^ (~~~(at_ b ((x + 1) % 5 + 5 * y)) &&& at_ b ((x + 2) % 5 + 5 * y)) ^^^ (if i = 0 then rc else 0))

def keccakF (a : List W64) : List W64 := keccakRC.foldl keccakRound a

/-- The state after one block is absorbed. -/
def keccakAbsorb (a : List W64) (block : List Byte) : List W64 :=
  keccakF (List.zipWith (fun x y => x ^^^ y) a ((chunks 8 25 block).map (fun b => BitVec.ofNat 64 (numLE b))))

/-- The first `n` blocks of `rate` bytes squeezed. -/
def keccakSqueeze (rate : Nat) : Nat → List W64 → List Byte
  | 0, _ => []
  | n + 1, a => (a.flatMap (fun w => leBytes 8 w.toNat)).take rate ++ keccakSqueeze rate n (keccakF a)

/-- The sponge (FIPS 202, 4): `n` output bytes at a rate of `rate` bytes, with the suffix bits and the first padding bit in `suffix`. -/
def sponge (rate : Nat) (suffix : Byte) (msg : List Byte) (n : Nat) : List Byte :=
  let z := rate - 1 - msg.length % rate
  let p := msg ++ (if z = 0 then [suffix ||| 0x80] else suffix :: List.replicate (z - 1) 0 ++ [0x80])
  let a := (chunks rate (p.length / rate) p).foldl keccakAbsorb (List.replicate 25 0)
  (keccakSqueeze rate ((n + rate - 1) / rate) a).take n

def shake128 (msg : List Byte) (n : Nat) : List Byte := sponge 168 0x1F msg n
def shake256 (msg : List Byte) (n : Nat) : List Byte := sponge 136 0x1F msg n
def sha3x256 (msg : List Byte) : List Byte := sponge 136 0x06 msg 32
def sha3x512 (msg : List Byte) : List Byte := sponge 72 0x06 msg 64

end Sys2Proof.Machine
end

