-- ==== Sys2Proof/Machine/Cipher.lean ====
section
/-! DEFINITION. AES-256-GCM (FIPS 197, SP 800-38D), which encrypts and authenticates the flits of a link (R7, R289). -/

namespace Sys2Proof.Machine

/-! ### AES-256 (FIPS 197) -/

/-- Multiplication by x in the field of AES. -/
def aesTimesX (b : Byte) : Byte := (b <<< 1) ^^^ (if b.msb then 0x1B else 0)

/-- The product in the field of AES, over the `n` low bits of the first factor. -/
def aesMul : Nat → Byte → Byte → Byte
  | 0, _, _ => 0
  | n + 1, a, b => (if a.getLsbD 0 then b else 0) ^^^ aesMul n (a >>> 1) (aesTimesX b)

/-- The inverse in the field, 0 for 0: the power 254, from the squares 2, 4, … 128. -/
def aesInv (b : Byte) : Byte :=
  ((List.range 7).foldl (fun (acc : Byte × Byte) _ => let s := aesMul 8 acc.2 acc.2; (aesMul 8 acc.1 s, s)) (1, b)).1

/-- The substitution of a byte (FIPS 197, 5.1.1). -/
def aesSub (b : Byte) : Byte :=
  let v := aesInv b
  v ^^^ v.rotateLeft 1 ^^^ v.rotateLeft 2 ^^^ v.rotateLeft 3 ^^^ v.rotateLeft 4 ^^^ 0x63

def xorBytes (a b : List Byte) : List Byte := List.zipWith (fun x y => x ^^^ y) a b

/-- The key schedule (FIPS 197, 5.2): `n` more words after word `i`, the latest word first. -/
def aesSchedule : Nat → Nat → Byte → List (List Byte) → List (List Byte)
  | 0, _, _, w => w
  | n + 1, i, rcon, w =>
    let last := w.getD 0 []
    let t := if i % 8 = 0 then xorBytes ((last.drop 1 ++ last.take 1).map aesSub) [rcon, 0, 0, 0] else if i % 8 = 4 then last.map aesSub else last
    aesSchedule n (i + 1) (if i % 8 = 0 then aesTimesX rcon else rcon) (xorBytes t (w.getD 7 []) :: w)

/-- The 15 round keys of 16 bytes. -/
def aesKeys (key : List Byte) : List (List Byte) :=
  chunks 16 15 ((aesSchedule 52 8 1 (chunks 4 8 key).reverse).reverse.flatMap id)

/-- SubBytes, then ShiftRows: byte r + 4c of the state is row r of column c. -/
def aesSubShift (s : List Byte) : List Byte := (List.range 16).map (fun i => aesSub (s.getD ((i + 4 * (i % 4)) % 16) 0))

/-- MixColumns (FIPS 197, 5.1.3). -/
def aesMix (s : List Byte) : List Byte :=
  (List.range 16).map (fun i =>
    let at_ := fun k => s.getD (4 * (i / 4) + (i + k) % 4) 0
    aesTimesX (at_ 0) ^^^ (aesTimesX (at_ 1) ^^^ at_ 1) ^^^ at_ 2 ^^^ at_ 3)

/-- The cipher of one block under its round keys (FIPS 197, 5.1). -/
def aesBlock (keys : List (List Byte)) (block : List Byte) : List Byte :=
  let s := (keys.drop 1).take 13 |>.foldl (fun s k => xorBytes (aesMix (aesSubShift s)) k) (xorBytes block (keys.getD 0 []))
  xorBytes (aesSubShift s) (keys.getD 14 [])

/-! ### GCM (SP 800-38D) -/

/-- The product of two blocks, over the `n` leading bits of the first factor; a block is a number whose leading bit is its first bit. -/
def gcmMul : Nat → BitVec 128 → BitVec 128 → BitVec 128
  | 0, _, _ => 0
  | n + 1, x, v =>
    (if x.msb then v else 0) ^^^ gcmMul n (x <<< 1) ((v >>> 1) ^^^ (if v.getLsbD 0 then (0xE1 : BitVec 128) <<< 120 else 0))

/-- Bytes filled with zeros to whole blocks. -/
def gcmPad (bs : List Byte) : List Byte := bs ++ List.replicate ((16 - bs.length % 16) % 16) 0

/-- GHASH of whole blocks under the hash key. -/
def ghash (h : BitVec 128) (bs : List Byte) : BitVec 128 :=
  (chunks 16 (bs.length / 16) bs).foldl (fun y b => gcmMul 128 (y ^^^ BitVec.ofNat 128 (numBE b)) h) 0

/-- The cipher of the block that a 12-byte nonce and a counter make. -/
def gcmBlock (keys : List (List Byte)) (nonce : List Byte) (ctr : Nat) : List Byte := aesBlock keys (nonce ++ beBytes 4 ctr)

/-- The key stream for `n` bytes of text: the counter begins at 2. -/
@[irreducible] def aesGcmStream (key nonce : List Byte) (n : Nat) : List Byte :=
  let keys := aesKeys key
  ((List.range ((n + 15) / 16)).flatMap (fun i => gcmBlock keys nonce (i + 2))).take n

/-- The 16-byte tag over authenticated data and encrypted text. -/
@[irreducible] def aesGcmTag (key nonce aad text : List Byte) : List Byte :=
  let keys := aesKeys key
  let h := BitVec.ofNat 128 (numBE (aesBlock keys (List.replicate 16 0)))
  let s := ghash h (gcmPad aad ++ gcmPad text ++ beBytes 8 (8 * aad.length) ++ beBytes 8 (8 * text.length))
  xorBytes (beBytes 16 s.toNat) (gcmBlock keys nonce 1)

end Sys2Proof.Machine
end

