-- ==== Sys2Proof/Machine/Curve25519.lean ====
section
/-! DEFINITION. X25519 (RFC 7748) and Ed25519 (RFC 8032), which R7 names for the agreement of link keys and for signatures. Field elements are
numbers below the prime, scalars plain numbers. -/

namespace Sys2Proof.Machine

/-- The prime 2^255 − 19 of the field, and the order of the group's base point. -/
def cP : Nat := 2 ^ 255 - 19
def cL : Nat := 2 ^ 252 + 27742317777372353535851937790883648493

def cAdd (a b : Nat) : Nat := (a + b) % cP
def cSub (a b : Nat) : Nat := (a + cP - b) % cP
def cMul (a b : Nat) : Nat := a * b % cP

/-- `b` to the power of the `n` low bits of `e`, modulo `m`. -/
def powMod (m : Nat) : Nat → Nat → Nat → Nat
  | 0, _, _ => 1 % m
  | n + 1, e, b => if e.testBit 0 then b * powMod m n (e / 2) (b * b % m) % m else powMod m n (e / 2) (b * b % m)

def cPow (e b : Nat) : Nat := powMod cP 256 e b
def cInv (a : Nat) : Nat := cPow (cP - 2) a

/-! ### X25519 (RFC 7748, 5) -/

/-- One step of the ladder for the scalar's bit `k`. -/
def ladderStep (u s : Nat) (v : (Nat × Nat) × Nat × Nat) (k : Nat) : (Nat × Nat) × Nat × Nat :=
  let swap := fun (w : (Nat × Nat) × Nat × Nat) => if s.testBit k then (w.2, w.1) else w
  let ((x2, z2), (x3, z3)) := swap v
  let a := cAdd x2 z2
  let b := cSub x2 z2
  let aa := cMul a a
  let bb := cMul b b
  let e := cSub aa bb
  let da := cMul (cSub x3 z3) a
  let cb := cMul (cAdd x3 z3) b
  let sum := cAdd da cb
  let dif := cSub da cb
  swap ((cMul aa bb, cMul e (cAdd aa (cMul 121665 e))), (cMul sum sum, cMul u (cMul dif dif)))

/-- The function X25519: a scalar and a u-coordinate, each as 32 bytes. -/
@[irreducible] def x25519 (k u : List Byte) : List Byte :=
  let n := numLE k
  let s := n % 2 ^ 254 / 8 * 8 + 2 ^ 254
  let x := numLE u % 2 ^ 255 % cP
  let r := ((List.range 255).reverse.foldl (ladderStep x s) ((1, 0), (x, 1))).1
  leBytes 32 (cMul r.1 (cInv r.2))

/-- The u-coordinate of the base point. -/
def x25519Base : List Byte := leBytes 32 9

/-! ### Ed25519 (RFC 8032, 5.1) -/

/-- A point in extended coordinates (RFC 8032, 5.1.4): x = X/Z, y = Y/Z, xy = T/Z. -/
structure EdPoint where
  x : Nat
  y : Nat
  z : Nat
  t : Nat
  deriving DecidableEq, Repr

/-- The constant d of the curve, −121665 / 121666. -/
def edD : Nat := cMul (cP - 121665) (cInv 121666)

def EdPoint.zero : EdPoint := { x := 0, y := 1, z := 1, t := 0 }

def EdPoint.add (p q : EdPoint) : EdPoint :=
  let a := cMul (cSub p.y p.x) (cSub q.y q.x)
  let b := cMul (cAdd p.y p.x) (cAdd q.y q.x)
  let c := cMul (cMul (cMul 2 p.t) q.t) edD
  let d := cMul (cMul 2 p.z) q.z
  let e := cSub b a
  let f := cSub d c
  let g := cAdd d c
  let h := cAdd b a
  { x := cMul e f, y := cMul g h, z := cMul f g, t := cMul e h }

/-- The multiple of a point by the `n` low bits of a scalar. -/
def EdPoint.mul : Nat → Nat → EdPoint → EdPoint
  | 0, _, _ => EdPoint.zero
  | n + 1, s, p => let r := EdPoint.mul n (s / 2) (p.add p); if s.testBit 0 then p.add r else r

def EdPoint.same (p q : EdPoint) : Bool := cMul p.x q.z == cMul q.x p.z && cMul p.y q.z == cMul q.y p.z

/-- The point that 32 bytes encode, if they encode one (RFC 8032, 5.1.3). -/
def edDecode (bs : List Byte) : Option EdPoint :=
  let n := numLE bs
  let y := n % 2 ^ 255
  let odd := n.testBit 255
  let u := cSub (cMul y y) 1
  let v := cAdd (cMul edD (cMul y y)) 1
  let v3 := cMul v (cMul v v)
  let r := cMul (cMul u v3) (cPow ((cP - 5) / 8) (cMul (cMul u v) (cMul v3 v3)))
  let vrr := cMul v (cMul r r)
  let root := if vrr = u then some r else if vrr = cSub 0 u then some (cMul r (cPow ((cP - 1) / 4) 2)) else none
  match root with
  | none => none
  | some x =>
    if cP ≤ y ∨ (x = 0 ∧ odd) then none
    else
      let x := if x.testBit 0 = odd then x else cSub 0 x
      some { x := x, y := y, z := 1, t := cMul x y }

/-- The 32 bytes of a point (RFC 8032, 5.1.2). -/
def edEncode (p : EdPoint) : List Byte :=
  let z := cInv p.z
  leBytes 32 (cMul p.y z + (if (cMul p.x z).testBit 0 then 2 ^ 255 else 0))

/-- The base point, whose y is 4/5. -/
def edBase : EdPoint := (edDecode (leBytes 32 (cMul 4 (cInv 5)))).getD EdPoint.zero

/-- Whether a 64-byte signature verifies (RFC 8032, 5.1.7), by the group equation with the cofactor. -/
@[irreducible] def ed25519Verify (key msg sig : List Byte) : Bool :=
  match edDecode key, edDecode (sig.take 32) with
  | some a, some r =>
    let s := numLE (sig.drop 32)
    let k := numLE (sha512 (sig.take 32 ++ key ++ msg)) % cL
    sig.length == 64 && decide (s < cL) &&
      (EdPoint.mul 4 8 (EdPoint.mul 256 s edBase)).same (EdPoint.mul 4 8 (r.add (EdPoint.mul 256 k a)))
  | _, _ => false

/-- The secret scalar and the prefix of a 32-byte private key (RFC 8032, 5.1.5). -/
def edSecret (seed : List Byte) : Nat × List Byte :=
  let h := sha512 seed
  (numLE (h.take 32) % 2 ^ 254 / 8 * 8 + 2 ^ 254, h.drop 32)

/-- The public key of a private key. -/
@[irreducible] def ed25519Public (seed : List Byte) : List Byte := edEncode (EdPoint.mul 256 (edSecret seed).1 edBase)

/-- The signature of a message by a private key (RFC 8032, 5.1.6). -/
@[irreducible] def ed25519Sign (seed msg : List Byte) : List Byte :=
  let (s, prefix_) := edSecret seed
  let a := edEncode (EdPoint.mul 256 s edBase)
  let r := numLE (sha512 (prefix_ ++ msg)) % cL
  let rr := edEncode (EdPoint.mul 256 r edBase)
  let k := numLE (sha512 (rr ++ a ++ msg)) % cL
  rr ++ leBytes 32 ((r + k * s) % cL)

end Sys2Proof.Machine
end

