-- ==== Sys2Proof/Machine/Lattice.lean ====
section
/-! DEFINITION. ML-DSA-65 (FIPS 204) and ML-KEM-768 (FIPS 203), which R7 names beside Ed25519 and X25519. A polynomial is the list of its 256
coefficients, each a number below the modulus. -/

namespace Sys2Proof.Machine

/-! ### Polynomials and their transform (FIPS 203, 4.3; FIPS 204, 7.5) -/

/-- The `n` low bits of a number in reverse order. -/
def bitRev : Nat → Nat → Nat
  | 0, _ => 0
  | n + 1, v => (v % 2) * 2 ^ n + bitRev n (v / 2)

def polyAdd (q : Nat) (a b : List Nat) : List Nat := List.zipWith (fun x y => (x + y) % q) a b
def polySub (q : Nat) (a b : List Nat) : List Nat := List.zipWith (fun x y => (x + q - y) % q) a b
def polyZero : List Nat := List.replicate 256 0

/-- The transform of a piece over `d` more levels: node `k` of the tree of pieces multiplies its upper half by `z k`. -/
def ntt (q : Nat) (z : Nat → Nat) : Nat → Nat → List Nat → List Nat
  | 0, _, l => l
  | d + 1, k, l =>
    let lo := l.take (l.length / 2)
    let t := (l.drop (l.length / 2)).map (fun x => z k * x % q)
    ntt q z d (2 * k) (polyAdd q lo t) ++ ntt q z d (2 * k + 1) (polySub q lo t)

/-- The transform undone, but for the final scale. -/
def nttInv (q : Nat) (z : Nat → Nat) : Nat → Nat → List Nat → List Nat
  | 0, _, l => l
  | d + 1, k, l =>
    let lo := nttInv q z d (2 * k) (l.take (l.length / 2))
    let hi := nttInv q z d (2 * k + 1) (l.drop (l.length / 2))
    polyAdd q lo hi ++ (polySub q lo hi).map (fun x => z k * x % q)

/-- The bits of bytes, least significant first, and numbers of `w` bits from them. -/
def bitsOf (bs : List Byte) : List Bool := bs.flatMap (fun b => (List.range 8).map (fun i => b.getLsbD i))
def numOfBits (l : List Bool) : Nat := l.foldr (fun b acc => b.toNat + 2 * acc) 0
def unpackBits (w n : Nat) (bs : List Byte) : List Nat := (chunks w n (bitsOf bs)).map numOfBits

/-- Numbers of `w` bits as bytes. -/
def packBits (w : Nat) (l : List Nat) : List Byte :=
  let bits := l.flatMap (fun v => (List.range w).map (fun i => v.testBit i))
  (chunks 8 (bits.length / 8) bits).map (fun b => BitVec.ofNat 8 (numOfBits b))

/-! ### ML-DSA-65 (FIPS 204) -/

def dsaQ : Nat := 8380417
def dsaGamma1 : Nat := 2 ^ 19
def dsaGamma2 : Nat := 261888
def dsaBeta : Nat := 196

def dsaZeta (k : Nat) : Nat := powMod dsaQ 9 (bitRev 8 k) 1753
def dsaZetaInv (k : Nat) : Nat := powMod dsaQ 10 (512 - bitRev 8 k) 1753
def dsaNtt (a : List Nat) : List Nat := ntt dsaQ dsaZeta 8 1 a
def dsaNttInv (a : List Nat) : List Nat := (nttInv dsaQ dsaZetaInv 8 1 a).map (fun x => 8347681 * x % dsaQ)
def dsaMul (a b : List Nat) : List Nat := List.zipWith (fun x y => x * y % dsaQ) a b

/-- The product of a row of polynomials with a column, in the transform. -/
def dsaDot (row col : List (List Nat)) : List Nat := (List.zipWith dsaMul row col).foldl (polyAdd dsaQ) polyZero

/-- A number as its remainder of least size modulo `m`, and the least size of a coefficient. -/
def centred (m r : Nat) : Int := let x := r % m; if 2 * x ≤ m then (x : Int) else (x : Int) - m
def sizeOf_ (x : Nat) : Nat := (centred dsaQ x).natAbs
def ofInt (x : Int) : Nat := (x % (dsaQ : Int)).toNat
def largest (v : List (List Nat)) : Nat := (v.map (fun p => p.foldl (fun a x => max a (sizeOf_ x)) 0)).foldl max 0

/-- Power2Round and Decompose (FIPS 204, 7.4): the high part and the low part. -/
def power2Round (r : Nat) : Nat × Int := let lo := centred (2 ^ 13) r; ((((r : Int) - lo) / 2 ^ 13).toNat, lo)
def decompose (r : Nat) : Nat × Int :=
  let lo := centred (2 * dsaGamma2) r
  if (r : Int) - lo = dsaQ - 1 then (0, lo - 1) else ((((r : Int) - lo) / (2 * dsaGamma2)).toNat, lo)

/-- UseHint: the high part of a number, corrected where the hint is set. -/
def useHint (h : Bool) (r : Nat) : Nat :=
  let (hi, lo) := decompose r
  if !h then hi else if 0 < lo then (hi + 1) % 16 else (hi + 15) % 16

/-- RejNTTPoly: a polynomial of the matrix, from a seed (FIPS 204, 7.3). -/
def dsaUniform (seed : List Byte) : List Nat :=
  ((chunks 3 336 (shake128 seed 1008)).filterMap (fun b => let v := numLE b % 2 ^ 23; if v < dsaQ then some v else none)).take 256

/-- RejBoundedPoly: a secret polynomial with coefficients from −4 to 4. -/
def dsaBounded (seed : List Byte) : List Nat :=
  ((shake256 seed 544).flatMap (fun (b : Byte) => [b.toNat % 16, b.toNat / 16])).filterMap (fun v => if v < 9 then some (ofInt (4 - v)) else none) |>.take 256

/-- The matrix of a seed, by rows (ExpandA). -/
def dsaMatrix (rho : List Byte) : List (List (List Nat)) :=
  (List.range 6).map (fun r => (List.range 5).map (fun s => dsaUniform (rho ++ [BitVec.ofNat 8 s, BitVec.ofNat 8 r])))

/-- One swap of SampleInBall: place `i`, its sign, the bytes not yet taken, and the polynomial. -/
def ballStep (st : List Byte × List Nat) (i : Nat) (neg : Bool) : List Byte × List Nat :=
  let rest := st.1.dropWhile (fun b => decide (i < b.toNat))
  let j := (rest.headD 0).toNat
  (rest.drop 1, (st.2.set i (st.2.getD j 0)).set j (if neg then dsaQ - 1 else 1))

/-- SampleInBall: the challenge with 49 coefficients 1 or −1 (FIPS 204, 7.3). -/
def sampleInBall (seed : List Byte) : List Nat :=
  let s := shake256 seed 272
  let signs := bitsOf (s.take 8)
  ((List.range 49).foldl (fun st i => ballStep st (207 + i) (signs.getD i false)) (s.drop 8, polyZero)).2

/-- The bytes of w1, and the fields of a public key. -/
def w1Encode (w : List (List Nat)) : List Byte := w.flatMap (packBits 4)

/-- HintBitUnpack (FIPS 204, 7.1): the hints by polynomial, if the encoding is the one of its hints. -/
def hintPolys (y : List Nat) : Nat → Nat → Nat → Option (List (List Bool))
  | 0, _, index => if (y.take 55).drop index |>.all (· == 0) then some [] else none
  | n + 1, i, index =>
    let end_ := y.getD (55 + i) 0
    let places := (y.take end_).drop index
    if end_ < index ∨ 55 < end_ ∨ !(List.zipWith (fun a b => decide (a < b)) places (places.drop 1)).all id then none
    else match hintPolys y n (i + 1) end_ with
      | none => none
      | some r => some ((List.range 256).map (fun j => places.contains j) :: r)

/-- HintBitPack. -/
def hintBytes (h : List (List Bool)) : List Byte :=
  let places := h.map (fun p => (List.range 256).filter (fun j => p.getD j false))
  let all := places.flatten
  let ends := (List.range 6).map (fun i => (places.take (i + 1)).flatten.length)
  (all ++ List.replicate (55 - all.length) 0 ++ ends).map (BitVec.ofNat 8)

/-- The message representative μ, with the empty context string (FIPS 204, 5.2). -/
def dsaMu (tr msg : List Byte) : List Byte := shake256 (tr ++ [0, 0] ++ msg) 64

/-- Whether an ML-DSA-65 signature verifies (FIPS 204, 5.3 and 6.3): a key of 1,952 bytes and a signature of 3,309. -/
@[irreducible] def mlDsa65Verify (key msg sig : List Byte) : Bool :=
  if sig.length ≠ 3309 ∨ key.length ≠ 1952 then false
  else match hintPolys ((sig.drop 3248).map BitVec.toNat) 6 0 0 with
    | none => false
    | some hints =>
      let t1 := (chunks 320 6 (key.drop 32)).map (unpackBits 10 256)
      let z := (chunks 640 5 (sig.drop 48)).map (fun b => (unpackBits 20 256 b).map (fun v => ofInt ((dsaGamma1 : Int) - v)))
      let mu := dsaMu (shake256 key 64) msg
      let c := dsaNtt (sampleInBall (sig.take 48))
      let zt := z.map dsaNtt
      let w := List.zipWith (fun row t => dsaNttInv (polySub dsaQ (dsaDot row zt) (dsaMul c (dsaNtt (t.map (fun x => x * 2 ^ 13 % dsaQ)))))) (dsaMatrix (key.take 32)) t1
      let w1 := List.zipWith (List.zipWith useHint) hints w
      decide (largest z < dsaGamma1 - dsaBeta) && sig.take 48 == shake256 (mu ++ w1Encode w1) 48

/-- The private key of a 32-byte seed (ML-DSA.KeyGen_internal, FIPS 204, 6.1), as what signing takes from it. -/
structure DsaKey where
  rho : List Byte
  seed : List Byte
  pub : List Byte
  s1 : List (List Nat)
  s2 : List (List Nat)
  t0 : List (List Nat)
  deriving DecidableEq, Repr

def dsaKey (xi : List Byte) : DsaKey :=
  let h := shake256 (xi ++ [6, 5]) 128
  let rho := h.take 32
  let secret := fun r => dsaBounded ((h.drop 32).take 64 ++ leBytes 2 r)
  let s1 := (List.range 5).map secret
  let s2 := (List.range 6).map (fun r => secret (r + 5))
  let s1t := s1.map dsaNtt
  let t := List.zipWith (fun row e => polyAdd dsaQ (dsaNttInv (dsaDot row s1t)) e) (dsaMatrix rho) s2
  { rho := rho, seed := h.drop 96, s1 := s1, s2 := s2
    pub := rho ++ (t.flatMap (fun p => packBits 10 (p.map (fun r => (power2Round r).1))))
    t0 := t.map (fun p => p.map (fun r => ofInt (power2Round r).2)) }

/-- The public key of a seed. -/
@[irreducible] def mlDsa65Public (xi : List Byte) : List Byte := (dsaKey xi).pub

/-- The attempts of signing from counter `kappa` on, at most `n` (FIPS 204, 6.2). -/
def dsaAttempt (k : DsaKey) (matrix : List (List (List Nat))) (mu rho : List Byte) : Nat → Nat → List Byte
  | 0, _ => []
  | n + 1, kappa =>
    let y := (List.range 5).map (fun r =>
      (unpackBits 20 256 (shake256 (rho ++ leBytes 2 (kappa + r)) 640)).map (fun v => ofInt ((dsaGamma1 : Int) - v)))
    let yt := y.map dsaNtt
    let w := matrix.map (fun row => dsaNttInv (dsaDot row yt))
    let cs := shake256 (mu ++ w1Encode (w.map (fun p => p.map (fun r => (decompose r).1)))) 48
    let c := dsaNtt (sampleInBall cs)
    let times := fun (p : List Nat) => dsaNttInv (dsaMul c (dsaNtt p))
    let z := List.zipWith (fun a s => polyAdd dsaQ a (times s)) y k.s1
    let r := List.zipWith (fun a s => polySub dsaQ a (times s)) w k.s2
    let ct0 := k.t0.map times
    let hints := List.zipWith (List.zipWith (fun a b => (decompose ((a + b) % dsaQ)).1 != (decompose a).1)) r ct0
    let low := (r.map (fun p => p.foldl (fun a x => max a (decompose x).2.natAbs) 0)).foldl max 0
    let small := decide (largest z < dsaGamma1 - dsaBeta) && decide (low < dsaGamma2 - dsaBeta) && decide (largest ct0 < dsaGamma2) &&
      decide ((hints.map (fun p => p.countP id)).sum ≤ 55)
    if small then cs ++ z.flatMap (fun p => packBits 20 (p.map (fun x => ((dsaGamma1 : Int) - centred dsaQ x).toNat))) ++ hintBytes hints
    else dsaAttempt k matrix mu rho n (kappa + 5)

/-- The signature of a message by the key of a seed, with 32 random bytes (FIPS 204, 5.2); 814 attempts are what the standard asks for. -/
@[irreducible] def mlDsa65Sign (xi msg rnd : List Byte) : List Byte :=
  let k := dsaKey xi
  let mu := dsaMu (shake256 k.pub 64) msg
  dsaAttempt k (dsaMatrix k.rho) mu (shake256 (k.seed ++ rnd ++ mu) 64) 814 0

/-! ### ML-KEM-768 (FIPS 203) -/

def kemQ : Nat := 3329

def kemZeta (k : Nat) : Nat := powMod kemQ 8 (bitRev 7 k) 17
def kemZetaInv (k : Nat) : Nat := powMod kemQ 9 (256 - bitRev 7 k) 17
def kemNtt (a : List Nat) : List Nat := ntt kemQ kemZeta 7 1 a
def kemNttInv (a : List Nat) : List Nat := (nttInv kemQ kemZetaInv 7 1 a).map (fun x => 3303 * x % kemQ)

/-- MultiplyNTTs (FIPS 203, 4.3.1): pair `i` is a product modulo X² − ζ^(2·BitRev7(i) + 1). -/
def kemMul (a b : List Nat) : List Nat :=
  (List.range 128).flatMap (fun i =>
    let (a0, a1, b0, b1) := (a.getD (2 * i) 0, a.getD (2 * i + 1) 0, b.getD (2 * i) 0, b.getD (2 * i + 1) 0)
    let g := powMod kemQ 8 (2 * bitRev 7 i + 1) 17
    [(a0 * b0 + a1 * b1 % kemQ * g) % kemQ, (a0 * b1 + a1 * b0) % kemQ])

def kemDot (row col : List (List Nat)) : List Nat := (List.zipWith kemMul row col).foldl (polyAdd kemQ) polyZero

/-- SampleNTT (FIPS 203, 4.2.2). -/
def kemUniform (seed : List Byte) : List Nat :=
  ((unpackBits 12 672 (shake128 seed 1008)).filter (· < kemQ)).take 256

/-- SamplePolyCBD with η = 2, from the output of the PRF (FIPS 203, 4.2.2). -/
def kemNoise (seed : List Byte) (n : Nat) : List Nat :=
  (unpackBits 4 256 (shake256 (seed ++ [BitVec.ofNat 8 n]) 128)).map (fun v => (v % 2 + v / 2 % 2 + kemQ - v / 4 % 2 - v / 8) % kemQ)

/-- Compress and Decompress to `d` bits (FIPS 203, 4.2.1). -/
def kemCompress (d x : Nat) : Nat := (2 ^ (d + 1) * x + kemQ) / (2 * kemQ) % 2 ^ d
def kemDecompress (d y : Nat) : Nat := (2 * kemQ * y + 2 ^ d) / 2 ^ (d + 1)

/-- The entry of the matrix in row `i` and column `j`. -/
def kemEntry (rho : List Byte) (i j : Nat) : List Nat := kemUniform (rho ++ [BitVec.ofNat 8 j, BitVec.ofNat 8 i])

/-- The keys of a 32-byte seed (K-PKE.KeyGen, FIPS 203, 5.1): the encryption key and the secret in the transform. -/
def kemKeys (d : List Byte) : List Byte × List (List Nat) :=
  let g := sha3x512 (d ++ [3])
  let rho := g.take 32
  let s := (List.range 3).map (fun i => kemNtt (kemNoise (g.drop 32) i))
  let t := (List.range 3).map (fun i =>
    polyAdd kemQ (kemDot ((List.range 3).map (kemEntry rho i)) s) (kemNtt (kemNoise (g.drop 32) (i + 3))))
  (t.flatMap (packBits 12) ++ rho, s)

/-- K-PKE.Encrypt (FIPS 203, 5.2). -/
def kemEncrypt (ek msg r : List Byte) : List Byte :=
  let t := (chunks 384 3 ek).map (unpackBits 12 256)
  let rho := ek.drop 1152
  let y := (List.range 3).map (fun i => kemNtt (kemNoise r i))
  let u := (List.range 3).map (fun i =>
    polyAdd kemQ (kemNttInv (kemDot ((List.range 3).map (fun j => kemEntry rho j i)) y)) (kemNoise r (i + 3)))
  let mu := (unpackBits 1 256 msg).map (kemDecompress 1)
  let v := polyAdd kemQ (polyAdd kemQ (kemNttInv (kemDot t y)) (kemNoise r 6)) mu
  u.flatMap (fun p => packBits 10 (p.map (kemCompress 10))) ++ packBits 4 (v.map (kemCompress 4))

/-- K-PKE.Decrypt (FIPS 203, 5.3). -/
def kemDecrypt (s : List (List Nat)) (ct : List Byte) : List Byte :=
  let u := (chunks 320 3 ct).map (fun b => (unpackBits 10 256 b).map (kemDecompress 10))
  let v := (unpackBits 4 256 (ct.drop 960)).map (kemDecompress 4)
  packBits 1 ((polySub kemQ v (kemNttInv (kemDot s (u.map kemNtt)))).map (kemCompress 1))

/-- Whether bytes are an encapsulation key: their length, and the modulus check (FIPS 203, 7.2). -/
@[irreducible] def mlKem768KeyOk (ek : List Byte) : Bool :=
  ek.length == 1184 && (unpackBits 12 768 ek).all (· < kemQ)

/-- The encapsulation key of the 32-byte seed `d`. -/
@[irreducible] def mlKem768Public (d : List Byte) : List Byte := (kemKeys d).1

/-- ML-KEM.Encaps_internal (FIPS 203, 6.2): the shared secret and the ciphertext, for a key and 32 random bytes. -/
@[irreducible] def mlKem768Encaps (ek msg : List Byte) : List Byte × List Byte :=
  let g := sha3x512 (msg ++ sha3x256 ek)
  (g.take 32, kemEncrypt ek msg (g.drop 32))

/-- ML-KEM.Decaps_internal (FIPS 203, 6.3): the shared secret of a ciphertext, by the key of the seeds `d` and `z`. -/
@[irreducible] def mlKem768Decaps (d z ct : List Byte) : List Byte :=
  let (ek, s) := kemKeys d
  let m := kemDecrypt s ct
  let g := sha3x512 (m ++ sha3x256 ek)
  if ct = kemEncrypt ek m (g.drop 32) then g.take 32 else shake256 (z ++ ct) 32

end Sys2Proof.Machine
end

