-- ==== Sys2Proof/Machine/Flags.lean ====
section
/-! DEFINITION. Numbers and flags: the floating-point formats (R100 to R103), rounding (R106), the flags (R108 to R110),
conversions (R111), vector arithmetic on one element (R124), block quantisation (R112, R113) and the generators (R107). -/

namespace Sys2Proof.Machine

/-! ### The exception flags of XFLAGS (R77) -/

abbrev XF := BitVec 5
def xfInvalid : XF := 0b10000
def xfDivZero : XF := 0b01000
def xfOverflow : XF := 0b00100
def xfUnderflow : XF := 0b00010
def xfInexact : XF := 0b00001

/-- A flag that is raised when `b` holds. -/
def flagIf (b : Bool) (f : XF) : XF := if b then f else 0

/-! ### Formats -/

/-- A floating-point format (R100): widths of exponent and mantissa, bias, exponent and significand of the largest finite
magnitude (an integer of `mant` + 1 bits), whether it has infinities, and its canonical NaN (R101). -/
structure Fmt where
  expo : Nat
  mant : Nat
  bias : Nat
  emax : Int
  top  : Nat
  inf  : Bool
  nan  : Nat
  deriving DecidableEq, Repr

def fmtF32 : Fmt := { expo := 8, mant := 23, bias := 127, emax := 127, top := 0xFFFFFF, inf := true, nan := 0x7FC00000 }
def fmtBf16 : Fmt := { expo := 8, mant := 7, bias := 127, emax := 127, top := 0xFF, inf := true, nan := 0x7FC0 }
def fmtF16 : Fmt := { expo := 5, mant := 10, bias := 15, emax := 15, top := 0x7FF, inf := true, nan := 0x7E00 }
def fmtE4m3 : Fmt := { expo := 4, mant := 3, bias := 7, emax := 8, top := 14, inf := false, nan := 0x7F }
def fmtE5m2 : Fmt := { expo := 5, mant := 2, bias := 15, emax := 15, top := 7, inf := true, nan := 0x7E }
def fmtE2m1 : Fmt := { expo := 2, mant := 1, bias := 1, emax := 2, top := 3, inf := false, nan := 0 }

/-- Bits of a format. -/
def Fmt.width (f : Fmt) : Nat := 1 + f.expo + f.mant

/-- The exponent of the format's smallest quantum. -/
def Fmt.qmin (f : Fmt) : Int := 1 - f.bias - f.mant

/-- A number as its encoding gives it: NaN, an infinity, or ± `m` × 2^`e`; `neg` is the sign. -/
inductive Num where
  | nan
  | inf (neg : Bool)
  | fin (neg : Bool) (m : Nat) (e : Int)
  deriving DecidableEq, Repr

/-- What an encoding means (R100). -/
def Fmt.decode (f : Fmt) (v : Nat) : Num :=
  let neg := v.testBit (f.expo + f.mant)
  let e := v / 2 ^ f.mant % 2 ^ f.expo
  let m := v % 2 ^ f.mant
  if f.inf && e == 2 ^ f.expo - 1 then (if m = 0 then .inf neg else .nan)
  else if !f.inf && f.nan != 0 && v % 2 ^ (f.expo + f.mant) == f.nan then .nan
  else if e = 0 then .fin neg m f.qmin
  else .fin neg (m + 2 ^ f.mant) (e - f.bias - f.mant)

/-- The sign bit of an encoding in place. -/
def Fmt.signBit (f : Fmt) (neg : Bool) : Nat := if neg then 2 ^ (f.expo + f.mant) else 0

/-- The encoding of an infinity (R100). -/
def Fmt.infBits (f : Fmt) (neg : Bool) : Nat := f.signBit neg + (2 ^ f.expo - 1) * 2 ^ f.mant

/-- The encoding of ± the largest finite magnitude (R100). -/
def Fmt.maxBits (f : Fmt) (neg : Bool) : Nat :=
  f.signBit neg + ((f.emax + f.bias).toNat * 2 ^ f.mant + (f.top - 2 ^ f.mant))

/-- The encoding of ± `r` × 2^`q` for a significand of at most `mant` + 2 bits and a quantum the format has. -/
def Fmt.encode (f : Fmt) (neg : Bool) (r : Nat) (q : Int) : Nat :=
  let (r1, q1) := if 2 ^ (f.mant + 1) ≤ r then (r / 2, q + 1) else (r, q)
  if r1 < 2 ^ f.mant then f.signBit neg + r1
  else f.signBit neg + (q1 + f.mant + f.bias).toNat * 2 ^ f.mant + (r1 - 2 ^ f.mant)

/-! ### Rounding -/

/-- The rounding modes of R81; stochastic rounding carries its draw (R107). -/
inductive Round where
  | rne | rz | rd | ru
  | sr (w : W32)
  deriving DecidableEq, Repr

/-- The mode of an RM field under a draw (R81). -/
def roundOf (rm : Nat) (draw : W32) : Round :=
  match rm with
  | 0 => .rne | 1 => .rz | 2 => .rd | 3 => .ru | _ => .sr draw

/-- Whether the magnitude `n` + `rem` / 2^`s` (`s` > 0) is rounded away from zero (R106). -/
def roundsUp (r : Round) (neg : Bool) (n rem s : Nat) : Bool :=
  if rem = 0 then false
  else
    match r with
    | .rne => 2 ^ (s - 1) < rem || (rem == 2 ^ (s - 1) && n % 2 == 1)
    | .rz => false
    | .rd => neg
    | .ru => !neg
    | .sr w =>
      if neg then !(w.toNat < (2 ^ s - rem) * 2 ^ 32 / 2 ^ s) else w.toNat < rem * 2 ^ 32 / 2 ^ s

/-- ± `m` × 2^`e` rounded to a multiple of 2^`q`: the multiple, and whether that changed the value (R106). -/
def roundAt (r : Round) (neg : Bool) (m : Nat) (e q : Int) : Nat × Bool :=
  if q ≤ e then (m * 2 ^ (e - q).toNat, false)
  else
    let s := (q - e).toNat
    let n := m / 2 ^ s
    let rem := m % 2 ^ s
    (if roundsUp r neg n rem s then n + 1 else n, rem != 0)

/-- ⌊log2⌋ of `m` × 2^`e`, `m` not zero. -/
def floorLog2 (m : Nat) (e : Int) : Int := (Nat.log2 m : Int) + e

/-- The quantum that a format rounds `m` × 2^`e` at: that of its binade, not below the subnormal one and not above that of
the largest finite magnitude (R106). -/
def Fmt.quantum (f : Fmt) (m : Nat) (e : Int) : Int :=
  min (max (floorLog2 m e - f.mant) f.qmin) (f.emax - f.mant)

/-- Whether a nonzero value is tiny after rounding as though the exponent were unbounded (R109). -/
def Fmt.tiny (f : Fmt) (r : Round) (neg : Bool) (m : Nat) (e : Int) : Bool :=
  let q := floorLog2 m e - f.mant
  let n := (roundAt r neg m e q).1
  decide (floorLog2 n q < 1 - f.bias)

/-- What an overflowing result becomes (R108): IEEE 754 with infinities under stochastic rounding, or saturation. -/
def Fmt.overflowed (f : Fmt) (sat : Bool) (r : Round) (neg : Bool) : Nat :=
  if sat then f.maxBits neg
  else
    match r with
    | .rz => f.maxBits neg
    | .rd => if neg then f.infBits neg else f.maxBits neg
    | .ru => if neg then f.maxBits neg else f.infBits neg
    | _ => f.infBits neg

/-- The exact value ± `m` × 2^`e` rounded to the format (R106, R108, R109): the encoding and the flags. A zero keeps the
sign it is given. `sat` is the quantising path of R108. -/
def Fmt.round (f : Fmt) (sat : Bool) (r : Round) (neg : Bool) (m : Nat) (e : Int) : Nat × XF :=
  if m = 0 then (f.signBit neg, 0)
  else
    let q := f.quantum m e
    let (n, inexact) := roundAt r neg m e q
    if q = f.emax - f.mant ∧ f.top < n then (f.overflowed sat r neg, xfOverflow ||| xfInexact)
    else (f.encode neg n q, flagIf inexact xfInexact ||| flagIf (inexact && f.tiny r neg m e) xfUnderflow)

/-- Rounded to an integer (R106). -/
def roundInt (r : Round) (neg : Bool) (m : Nat) (e : Int) : Int × Bool :=
  let (n, inexact) := roundAt r neg m e 0
  (if neg then -(n : Int) else n, inexact)

/-- A float converted to an integer in [lo, hi] (R108): NaN gives 0, what lies outside saturates and raises invalid alone. -/
def numToInt (r : Round) (lo hi : Int) : Num → Int × XF
  | .nan => (0, xfInvalid)
  | .inf neg => (if neg then lo else hi, xfInvalid)
  | .fin neg m e =>
    let (i, inexact) := roundInt r neg m e
    if i < lo then (lo, xfInvalid) else if hi < i then (hi, xfInvalid) else (i, flagIf inexact xfInexact)

/-- An integer converted to a float (R111). -/
def intToFmt (f : Fmt) (r : Round) (i : Int) : Nat × XF := f.round false r (decide (i < 0)) i.natAbs 0

/-- A number converted to a floating-point format (R108, R111). -/
def Fmt.ofNum (f : Fmt) (r : Round) : Num → Nat × XF
  | .nan => (f.nan, 0)
  | .inf neg => (f.infBits neg, 0)
  | .fin neg m e => f.round false r neg m e

/-! ### Arithmetic on one element (R124) -/

/-- ± `m` × 2^`e` as an integer at the common exponent `q` ≤ `e`. -/
def scaled (neg : Bool) (m : Nat) (e q : Int) : Int :=
  let v : Int := m * 2 ^ (e - q).toNat
  if neg then -v else v

/-- The exact sum of two numbers rounded once; an exact zero takes the sign of R109. -/
def addNum (f : Fmt) (r : Round) (a b : Num) : Nat × XF :=
  match a, b with
  | .nan, _ => (f.nan, 0)
  | _, .nan => (f.nan, 0)
  | .inf s, .inf t => if s == t then (f.infBits s, 0) else (f.nan, xfInvalid)
  | .inf s, _ => (f.infBits s, 0)
  | _, .inf t => (f.infBits t, 0)
  | .fin s m e, .fin t n d =>
    let q := min e d
    let x := scaled s m e q + scaled t n d q
    if x = 0 then
      (f.signBit (if m = 0 ∧ n = 0 ∧ s = t then s else r == .rd), 0)
    else f.round false r (decide (x < 0)) x.natAbs q

/-- The exact product of two numbers, NaN for 0 × ∞ (told apart by the flag). -/
def mulNum (a b : Num) : Num × XF :=
  match a, b with
  | .nan, _ => (.nan, 0)
  | _, .nan => (.nan, 0)
  | .inf s, .inf t => (.inf (s != t), 0)
  | .inf s, .fin t n _ => if n = 0 then (.nan, xfInvalid) else (.inf (s != t), 0)
  | .fin s m _, .inf t => if m = 0 then (.nan, xfInvalid) else (.inf (s != t), 0)
  | .fin s m e, .fin t n d => (.fin (s != t) (m * n) (e + d), 0)

/-- A number with its sign changed. -/
def negNum : Num → Num
  | .nan => .nan
  | .inf s => .inf (!s)
  | .fin s m e => .fin (!s) m e

/-- The integer square root, bit by bit from `k` (R193). -/
def isqrtFrom (x : Nat) : Nat → Nat → Nat
  | 0, acc => acc
  | k + 1, acc =>
    let t := acc + 2 ^ k
    isqrtFrom x k (if t * t ≤ x then t else acc)

/-- The integer square root of a number. -/
def isqrt (x : Nat) : Nat := isqrtFrom x (Nat.log2 x / 2 + 1) 0

/-- A quotient or root that is not exact gets one more bit, far below any quantum that rounding looks at, so that its
rounding is that of the exact value (R106). -/
def sticky (m : Nat) (e : Int) (exact_ : Bool) : Nat × Int := if exact_ then (m, e) else (2 * m + 1, e - 1)

/-- The quotient rounded once (R110, R124). -/
def divNum (f : Fmt) (r : Round) (a b : Num) : Nat × XF :=
  match a, b with
  | .nan, _ => (f.nan, 0)
  | _, .nan => (f.nan, 0)
  | .inf _, .inf _ => (f.nan, xfInvalid)
  | .inf s, .fin t _ _ => (f.infBits (s != t), 0)
  | .fin s _ _, .inf t => (f.signBit (s != t), 0)
  | .fin s m e, .fin t n d =>
    if m = 0 ∧ n = 0 then (f.nan, xfInvalid)
    else if n = 0 then (f.infBits (s != t), xfDivZero)
    else if m = 0 then (f.signBit (s != t), 0)
    else
      let k := Nat.log2 n + f.mant + 48
      let x := m * 2 ^ k
      let (y, g) := sticky (x / n) (e - d - k) (x % n == 0)
      f.round false r (s != t) y g

/-- The square root rounded once (R110, R124); the root of −0 is −0. -/
def sqrtNum (f : Fmt) (r : Round) (a : Num) : Nat × XF :=
  match a with
  | .nan => (f.nan, 0)
  | .inf s => if s then (f.nan, xfInvalid) else (f.infBits false, 0)
  | .fin s m e =>
    if m = 0 then (f.signBit s, 0)
    else if s then (f.nan, xfInvalid)
    else
      let (m1, e1) := if e % 2 = 0 then (m, e) else (2 * m, e - 1)
      let k := f.mant + 48
      let x := m1 * 2 ^ (2 * k)
      let y := isqrt x
      let (z, g) := sticky y ((e1 - 2 * k) / 2) (y * y == x)
      f.round false r false z g

/-- Whether `a` < `b`, and whether `a` = `b`, as real values; both false for a NaN (R124). -/
def ltNum (a b : Num) : Bool :=
  match a, b with
  | .nan, _ => false
  | _, .nan => false
  | .inf s, .inf t => s && !t
  | .inf s, _ => s
  | _, .inf t => !t
  | .fin s m e, .fin t n d => decide (scaled s m e (min e d) < scaled t n d (min e d))

def eqNum (a b : Num) : Bool :=
  match a, b with
  | .nan, _ => false
  | _, .nan => false
  | .inf s, .inf t => s == t
  | .inf _, _ => false
  | _, .inf _ => false
  | .fin s m e, .fin t n d => decide (scaled s m e (min e d) = scaled t n d (min e d))

/-- The sign of a number. -/
def Num.neg : Num → Bool
  | .nan => false
  | .inf s => s
  | .fin s _ _ => s

/-- Minimum and maximum of IEEE 754-2019 on encodings: a NaN gives NaN, −0 lies below +0 (R124). -/
def minMax (f : Fmt) (max_ : Bool) (x y : Nat) : Nat × XF :=
  let a := f.decode x
  let b := f.decode y
  if a == .nan || b == .nan then (f.nan, 0)
  else
    let less := ltNum a b || (eqNum a b && a.neg && !b.neg)
    (if less == max_ then y else x, 0)

/-- The floating-point operations of the V slot (R193); `c` is the addend of `vfma`. -/
inductive FOp where
  | add | sub | mul | fma | min | max | div | sqrt | abs | neg
  deriving DecidableEq, Repr

/-- One operation on encodings (R124): the result and its flags. -/
def fop (f : Fmt) (op : FOp) (r : Round) (x y z : Nat) : Nat × XF :=
  let a := f.decode x
  let b := f.decode y
  match op with
  | .add => addNum f r a b
  | .sub => addNum f r a (negNum b)
  | .mul =>
    match mulNum a b with
    | (.fin s m e, _) => f.round false r s m e
    | (.inf s, _) => (f.infBits s, 0)
    | (.nan, g) => (f.nan, g)
  | .fma =>
    match mulNum a b with
    | (.nan, g) => (f.nan, g)
    | (p, _) => addNum f r p (f.decode z)
  | .min => minMax f false x y
  | .max => minMax f true x y
  | .div => divNum f r a b
  | .sqrt => sqrtNum f r a
  | .abs => (if a == .nan then f.nan else x % 2 ^ (f.expo + f.mant), 0)
  | .neg => (if a == .nan then f.nan else x ^^^ 2 ^ (f.expo + f.mant), 0)

/-! ### Block scales (R103, R112, R113) -/

/-- Block targets of quantisation: EMAX of R112; `none` is `.s8`. -/
def blockEmax : Option Fmt → Int
  | none => 6
  | some f => f.emax

/-- One scaled value converted to the target (R106, R108): `.s8` is rounded and saturated. -/
def quantElem (t : Option Fmt) (r : Round) (neg : Bool) (m : Nat) (e : Int) : Nat × XF :=
  match t with
  | some f => f.round true r neg m e
  | none =>
    let (i, inexact) := roundInt r neg m e
    if i < -128 then (0x80, xfOverflow ||| xfInexact)
    else if 127 < i then (0x7F, xfOverflow ||| xfInexact)
    else ((wrap 8 i).toNat, flagIf inexact xfInexact)

/-- The largest magnitude of finite numbers, as the ⌊log2⌋ of it; `none` when all are zero (R112). -/
def maxLog2 (l : List Num) : Option Int :=
  l.foldl (fun acc x =>
    match x with
    | .fin _ m e =>
      if m = 0 then acc
      else match acc with
        | none => some (floorLog2 m e)
        | some k => some (max k (floorLog2 m e))
    | _ => acc) none

/-- Whether a number is finite. -/
def Num.isFin : Num → Bool
  | .fin _ _ _ => true
  | _ => false

/-- The scale of a block of numbers for a target (R112). -/
def blockScale (t : Option Fmt) (l : List Num) : BitVec 8 :=
  if l.any (fun x => !x.isFin) then 0xFF
  else
    match maxLog2 l with
    | none => 0x00
    | some k => BitVec.ofNat 8 (min (max (k - blockEmax t + 127) 0) 254).toNat

/-- An element of a block whose scale is `sc`, converted to the target (R112): zero in a NaN block and in an all-zero one. -/
def quantOne (t : Option Fmt) (zeroBlock : Bool) (sc : BitVec 8) (r : Round) : Num → Nat × XF
  | .fin neg m e => if sc = 0xFF ∨ zeroBlock then (0, 0) else quantElem t r neg m (e + 127 - sc.toNat)
  | _ => (0, 0)

/-- The value of an element under its scale (R113): NaN in a NaN block. -/
def dequant (sc : BitVec 8) (x : Num) : Num :=
  if sc = 0xFF then .nan
  else
    match x with
    | .fin neg m e => .fin neg m (e + sc.toNat - 127)
    | y => y

/-- An 8-bit integer as a number (R113). -/
def numOfS8 (v : Nat) : Num :=
  let i := signed 8 v
  .fin (decide (i < 0)) i.natAbs 0

/-! ### Generators (R107) -/

/-- One round of Philox4x32. -/
def philoxRound (c0 c1 c2 c3 k0 k1 : Nat) : Nat × Nat × Nat × Nat :=
  let p0 := 0xD2511F53 * c0
  let p1 := 0xCD9E8D57 * c2
  ((p1 / 2 ^ 32) ^^^ c1 ^^^ k0, p1 % 2 ^ 32, (p0 / 2 ^ 32) ^^^ c3 ^^^ k1, p0 % 2 ^ 32)

/-- The rounds that are left, the key bumped between them. -/
def philoxFrom : Nat → Nat × Nat × Nat × Nat → Nat → Nat → Nat × Nat × Nat × Nat
  | 0, c, _, _ => c
  | n + 1, (c0, c1, c2, c3), k0, k1 =>
    philoxFrom n (philoxRound c0 c1 c2 c3 k0 k1) ((k0 + 0x9E3779B9) % 2 ^ 32) ((k1 + 0xBB67AE85) % 2 ^ 32)

/-- Philox4x32-10 of a counter and a key (R107): the four words of the block. -/
def philox (c : BitVec 128) (k : BitVec 64) : List W32 :=
  let n := c.toNat
  let (a, b, d, e) := philoxFrom 10 (bits n 31 0, bits n 63 32, bits n 95 64, bits n 127 96) (bits k.toNat 31 0) (bits k.toNat 63 32)
  [BitVec.ofNat 32 a, BitVec.ofNat 32 b, BitVec.ofNat 32 d, BitVec.ofNat 32 e]

/-- The first `n` draws from a generator's state (R107). -/
def drawsOf (c : BitVec 128) (k : BitVec 64) (n : Nat) : List W32 :=
  ((List.range ((n + 3) / 4)).flatMap (fun i => philox (c + BitVec.ofNat 128 i) k)).take n

/-- CRC-32C, reflected, of one byte into the register (R162). -/
def crcByte (crc : Nat) (b : Byte) : Nat :=
  (List.range 8).foldl (fun c _ => if c % 2 = 1 then (c / 2) ^^^ 0x82F63B78 else c / 2) (crc ^^^ b.toNat)

/-- CRC-32C of bytes: initial value and final XOR all ones (R162). -/
def crc32c (bs : List Byte) : Nat := (bs.foldl crcByte 0xFFFFFFFF) ^^^ 0xFFFFFFFF

end Sys2Proof.Machine
end

