-- ==== Sys2Proof/Machine/Units.lean ====
section
/-! DEFINITION. The named operations on the machine's units: contexts, cores, runs and teams by number, memory locations and
stores to them, operations in flight, and the underlying engine flags (R55). -/

namespace Sys2Proof.Machine

/-- Context `x` of the package (R26); one that nothing has touched stands as after reset. -/
def Mach.ctx (m : Mach) (x : Nat) : Ctx := kgetD Ctx.zero x m.ctxs

/-- The machine with context `x` replaced. -/
def Mach.setCtx (m : Mach) (x : Nat) (c : Ctx) : Mach := { m with ctxs := kput x c m.ctxs }

/-- The machine with `f` applied to context `x`. -/
def Mach.modCtx (m : Mach) (x : Nat) (f : Ctx → Ctx) : Mach := m.setCtx x (f (m.ctx x))

/-- The core of a context, 8 × cluster + core (R77). -/
def coreOf (x : Nat) : Nat := x / 4

/-- The cluster of a context, 8 × quarter + cluster (R77). -/
def clusterOf (x : Nat) : Nat := x / 32

/-- The quarter of a context (R77). -/
def quarterOf (x : Nat) : Nat := x / 256

/-- Core `k` (R75). -/
def Mach.core (m : Mach) (k : Nat) : Core := kgetD Core.zero k m.cores

/-- The machine with `f` applied to core `k`. -/
def Mach.modCore (m : Mach) (k : Nat) (f : Core → Core) : Mach := { m with cores := kput k (f (m.core k)) m.cores }

/-- Link pair `k` of a core (R75). -/
def Core.link (c : Core) (k : Nat) : Link := kgetD Link.zero k c.links

/-- The core with `f` applied to link pair `k`. -/
def Core.modLink (c : Core) (k : Nat) (f : Link → Link) : Core := { c with links := kmod Link.zero k f c.links }

/-- Tile `t` of a core (R75). -/
def Core.tile (c : Core) (t : Nat) : Tile := kgetD Tile.zero t c.tiles

/-- Stone `t` of a core (R75). -/
def Core.stone (c : Core) (t : Nat) : Stone := kgetD Stone.zero t c.stones

/-- Tailrace `t`, numbered as R365 numbers it. -/
def Mach.tail (m : Mach) (t : Nat) : Tail := kgetD Tail.zero t m.tails

/-- The machine with `f` applied to Tailrace `t`. -/
def Mach.modTail (m : Mach) (t : Nat) (f : Tail → Tail) : Mach := { m with tails := kput t (f (m.tail t)) m.tails }

/-- Stream `s` (R13). -/
def Mach.stream (m : Mach) (s : Nat) : Stream := kgetD Stream.zero s m.streams

/-- The machine with `f` applied to stream `s`. -/
def Mach.modStream (m : Mach) (s : Nat) (f : Stream → Stream) : Mach :=
  { m with streams := kput s (f (m.stream s)) m.streams }

/-- The run numbered `r`. -/
def Mach.run? (m : Mach) (r : Nat) : Option Run := m.runs.find? (fun q => q.id == r)

/-- The machine with `f` applied to run `r`. -/
def Mach.modRun (m : Mach) (r : Nat) (f : Run → Run) : Mach := { m with runs := modWhere (fun q => q.id == r) f m.runs }

/-- The team of run `r` in cluster `cl` (R375). -/
def Mach.team? (m : Mach) (r cl : Nat) : Option Team := m.teams.find? (fun t => t.rid == r && t.cluster == cl)

/-- The machine with `f` applied to that team. -/
def Mach.modTeam (m : Mach) (r cl : Nat) (f : Team → Team) : Mach :=
  { m with teams := modWhere (fun t => t.rid == r && t.cluster == cl) f m.teams }

/-- The machine with `f` applied to the package. -/
def Mach.modPkg (m : Mach) (f : Pkg → Pkg) : Mach := { m with pkg := f m.pkg }

/-- Add `n` to a run counter of R42: 0 SPINPARK, 1 PFDROP, 2 STALEREP, 3 FCKPT, 4 ROLLBK. -/
def Mach.count (m : Mach) (r k n : Nat) : Mach :=
  m.modRun r (fun q => { q with cnt := rput k (rget k q.cnt + BitVec.ofNat 64 n) q.cnt })

/-- Add one to a counter of the window's counter block, by its offset / 8 (R373). -/
def Pkg.bump (p : Pkg) (k : Nat) : Pkg := { p with cnts := rput k (rget k p.cnts + 1) p.cnts }

/-- Raise a host interrupt (R364). -/
def Mach.raiseIrq (m : Mach) (v : BitVec 8) : Mach := { m with irqs := m.irqs ++ [v] }

/-! ### Routes and messages (R286, R287, R298) -/

/-- Coordinates of a chip id (R286). -/
def chipX (c : BitVec 12) : Nat := (c.extractLsb' 8 4).toNat
def chipY (c : BitVec 12) : Nat := (c.extractLsb' 4 4).toNat
def chipZ (c : BitVec 12) : Nat := (c.extractLsb' 0 4).toNat

/-- Whether a chip id names a package (R286). -/
def Pkg.names (p : Pkg) (c : BitVec 12) : Bool := chipX c < p.nx && chipY c < p.ny && chipZ c < p.nz

/-- The port that a packet takes in one dimension of extent `n`: the shorter way, + on a tie (R287); `k` is its + port. -/
def ringPort (n s d k : Nat) : Option Nat :=
  if s = d then none else if (d + n - s) % n ≤ n - (d + n - s) % n then some k else some (k + 1)

/-- The port by which a packet for `c` leaves this package: x first, then y, then z (R287); none when it ends here. -/
def Pkg.route (p : Pkg) (c : BitVec 12) : Option Nat :=
  match ringPort p.nx (chipX p.chip) (chipX c) 0 with
  | some k => some k
  | none =>
    match ringPort p.ny (chipY p.chip) (chipY c) 2 with
    | some k => some k
    | none => ringPort p.nz (chipZ p.chip) (chipZ c) 4

/-- Port `k` (R286). -/
def Pkg.port (p : Pkg) (k : Nat) : Port := kgetD Port.zero k p.ports

/-- The package with `f` applied to port `k`. -/
def Pkg.modPort (p : Pkg) (k : Nat) (f : Port → Port) : Pkg := { p with ports := kmod Port.zero k f p.ports }

/-- The class in which a message travels (R288): a memory or link request, a reply, a transfer, a causal store, a reduction, or the
control class. DESIGN CHOICE (log 92): the spec names the class of transfers, carriers, reductions, notices and power units only. -/
def classOf : Sent → Nat
  | .remote _ _ | .linkReq _ _ | .linkWord _ _ => 0
  | .reply _ _ _ _ _ _ | .linkReply _ _ _ _ _ | .ack _ _ _ _ => 1
  | .land _ _ => 2
  | .causal _ _ => 3
  | .red _ _ | .xred _ _ => 4
  | _ => 5

/-- Whether a message of class `cls` for `c` can leave this package (R298): `c` names a package, and the port of its route is open to a
router that is not in reset. Before its far side has been attested a link carries only the control class (R368). -/
def Pkg.reaches (p : Pkg) (cls : Nat) (c : BitVec 12) : Bool :=
  p.names c && (match p.route c with
    | none => true
    | some k => !(p.port k).locked && !(p.port k).away && ((p.port k).attested || cls == 5))

/-- Whether the package has attested to a link partner (R298, R368). -/
def Pkg.attested (p : Pkg) : Bool := p.ports.any (fun q => q.2.attested)

/-- What an undeliverable notice says of a message (R298), if its sender waits for one. -/
def noticeOf : Sent → Option Notice
  | .land _ p => some (.transfer p.core (p.hdr.extractLsb' 4 12))
  | .xred _ p => some (.transfer p.pkt.core (p.pkt.hdr.extractLsb' 4 12))
  | .causal _ p => some (.access (BitVec.ofNat 8 (coreOf p.ctx)) p.tag p.gen)
  | .red _ p => some (.access p.core p.tag p.gen)
  | .remote _ r => some (.access r.core r.tag r.gen)
  | .linkReq _ r => some (.link r.core r.link r.tag r.gen)
  | .give _ n => some (.units n)
  | _ => none

/-- A message sent to a package: inside this package when it is the destination, out of it when the route is open, and reported
undeliverable otherwise (R287, R298). -/
def Mach.post (m : Mach) (chip : BitVec 12) (x : Sent) : Mach :=
  if chip = m.pkg.chip then { m with net := m.net ++ [x] }
  else if m.pkg.reaches (classOf x) chip then { m with out := m.out ++ [x] }
  else match noticeOf x with
    | some n => { m with net := m.net ++ [.undeliverable m.pkg.chip n] }
    | none => m

/-- A message under way inside the package taken up, if it is there. -/
def Mach.takeNet (m : Mach) (x : Sent) : Option Mach :=
  (takeFirst (fun y => y == x) m.net).map (fun p => { m with net := p.2 })

/-- A message that has come for this package does `k`: one under way inside it, or any from another package `src`. A package that has not
attested takes no packet of another, whatever its class, and answers it as undeliverable (R298, R368). -/
def Mach.arrive (m : Mach) (src : BitVec 12) (x : Sent) (k : Mach → Option Mach) : Option Mach :=
  match m.takeNet x with
  | some q => k q
  | none =>
    if src = m.pkg.chip then none
    else if m.pkg.attested then k m
    else match noticeOf x with
      | some n => some (m.post src (.undeliverable src n))
      | none => some m

/-- A reply, a notice or an announcement to this package, which owes no notice itself, does `k`: one under way inside it, or any from another
package, which none reaches that has not attested (R298, R368). -/
def Mach.replied (m : Mach) (x : Sent) (k : Mach → Option Mach) : Option Mach :=
  match m.takeNet x with
  | some q => k q
  | none => if m.pkg.attested then k m else some m

/-- The vector of a device event of R370: 0 stream fault, 1 double fault, 2 late fault, 3 cluster retired. -/
def Pkg.vector (p : Pkg) (k : Nat) : BitVec 8 := lane 8 p.vectors k

/-- A fresh number for an operation, a run or an issue. -/
def Mach.fresh (m : Mach) : Nat × Mach := (m.nextId, { m with nextId := m.nextId + 1 })

/-- A fresh operation, in flight until it finishes. -/
def Mach.begin_ (m : Mach) : Nat × Mach := (m.nextId, { m with nextId := m.nextId + 1, ops := m.ops ++ [m.nextId] })

/-- Operation `id` has completed or faulted (R74). -/
def Mach.finish (m : Mach) (id : Nat) : Mach := { m with ops := m.ops.filter (fun k => k != id) }

/-- Whether an operation is in flight. -/
def Mach.inFlight (m : Mach) (id : Nat) : Bool := m.ops.contains id

/-- Whether order token `k` reads complete (R74). -/
def Mach.tokenDone (m : Mach) (r : Regs) (k : Nat) : Bool :=
  match kget k r.ot with
  | none => true
  | some id => !m.inFlight id

/-! ### Locations -/

/-- First location of the core scratchpads: core `k`, physical offset `o` (R145). -/
def llLoc (k o : Nat) : Nat := 2 ^ 60 + k * 2 ^ 24 + o

/-- First location of the cluster scratchpads: cluster `c`, physical offset `o` (R145). A location below 2^48 is a local
physical address (R148). -/
def lkLoc (c o : Nat) : Nat := 2 ^ 61 + c * 2 ^ 24 + o

/-- The 64-byte line of a location (R30). -/
def lineOf (loc : Nat) : Nat := loc / 64

/-- The lines that `n` bytes from `loc` touch. -/
def linesOf (loc n : Nat) : List Nat :=
  if n = 0 then [] else (List.range ((loc + n - 1) / 64 - loc / 64 + 1)).map (fun i => loc / 64 + i)

/-- The lines that a park watches (R30, R184, R185). -/
def Park.lines : Park → List Nat
  | .bar loc => [lineOf loc]
  | .any loc mask => ((List.range 8).filter (fun i => mask.getLsbD i)).map (fun i => lineOf (loc + 16 * i))
  | .line loc => [lineOf loc]
  | .spin ls => ls
  | _ => []

/-- The lines that a parked context watches (R30, R184, R185). -/
def Ctx.watched (c : Ctx) : List Nat :=
  match c.status with
  | .parked w => w.lines
  | _ => []

/-- The lines of the last load of an iteration (R31). -/
def lastLines (l : List (List Nat × Bool × List Byte)) : List Nat := (l.getLast?.map (fun q => q.1)).getD []

/-- The spin monitor of context `x` sees a load of the bytes `bs` from the lines `ls` (R31): later stores to those lines are the
ones it must learn of (R32). `ok` says that it may park on them. -/
def Mach.spinLoad (m : Mach) (x : Nat) (ls : List Nat) (ok : Bool) (bs : List Byte) : Mach :=
  if (m.ctx x).spin.isEmpty then m
  else m.modCtx x (fun c => { c with spin := c.spin.map (fun w => { w with now := w.now ++ [(ls, ok, bs)], nowHit := false }) })

/-- A watched branch after a store to the lines `ls` (R32). -/
def Spin.notice (w : Spin) (ls : List Nat) : Spin :=
  { w with nowHit := w.nowHit || (lastLines w.now).any ls.contains, lastHit := w.lastHit || (lastLines (w.last.getD [])).any ls.contains }

/-- The registers whose changes the spin monitor counts (R31): order tokens and the settled engine flags report engines. -/
def Regs.plain (r : Regs) : Regs := { r with ot := [], fs := 0 }

/-- Whether a change of the context from `c` to `d` changes a register that the spin monitor counts (R31). -/
def Ctx.differs (c d : Ctx) : Bool := c.regs.plain != d.regs.plain || c.ctl.lc != d.ctl.lc

/-- The iterations that the monitor watches are no longer unchanged (R31). -/
def Ctx.spinChanged (c : Ctx) : Ctx := { c with spin := c.spin.map (fun w => { w with dirty := true }) }

/-- The context as `f` leaves it, as its spin monitor sees that (R31). -/
def Ctx.seenBySpin (c : Ctx) (f : Ctx → Ctx) : Ctx := if !c.spin.isEmpty && c.differs (f c) then (f c).spinChanged else f c

/-- The context after a store to `ls`: a watched line is remembered (R32, R185). -/
def Ctx.notice (c : Ctx) (ls : List Nat) : Ctx :=
  { c with hit := c.hit || c.watched.any ls.contains, spin := c.spin.map (fun w => w.notice ls) }

/-- Every context after a store to `ls`. -/
def Mach.notify (m : Mach) (ls : List Nat) : Mach := { m with ctxs := m.ctxs.map (fun p => (p.1, p.2.notice ls)) }

/-- A read that a later read of its context has passed performs before any of the `n` bytes at `loc` are written, if the two share one of
them (R240): it takes its pieces of local memory as they stand. -/
def GOp.overtaken (g : GOp) (mem : Memory) (loc n : Nat) : GOp :=
  if g.passed.any (fun q => decide (q.1 < loc + n) && decide (loc < q.1 + q.2)) then
    { g with got := (g.segs.filter (fun q => q.chip.isNone && (kget q.off g.got).isNone)).foldl (fun acc q =>
        kput q.off (readBytes mem q.pa q.len) acc) g.got }
  else g

/-- Every write of memory: the bytes are written and the contexts that watch their lines are told (R32, R185). -/
def Mach.store (m : Mach) (loc : Nat) (bs : List Byte) : Mach :=
  ({ m with
    mem := writeBytes m.mem loc bs
    gops := m.gops.map (fun (g : GOp) => g.overtaken m.mem loc bs.length) }).notify (linesOf loc bs.length)

/-- A little-endian number of `n` bytes at a location. -/
def Mach.load (m : Mach) (loc n : Nat) : Nat := readLE m.mem loc n

/-! ### Engine flags -/

/-- X operations of the context that have neither completed nor faulted (R55). -/
def Mach.xBusy (m : Mach) (x : Nat) : Bool := !(m.ctx x).xq.isEmpty

/-- The read of an M operation's feed, which belongs to the M engine (R216). -/
def GOp.isFeed (g : GOp) : Bool :=
  match g.act with
  | .read (.feed _) => true
  | _ => false

/-- LG operations of the context that the LG engine still holds: reads, atomics, causal stores, a drain that waits (R55,
R187); a store or a reduction has completed once it is in the team store buffer (R245). -/
def GOp.open_ (g : GOp) : Bool :=
  match g.act with
  | .store _ | .red _ _ => !g.needs.isEmpty
  | .read (.feed _) => false
  | _ => true

/-- Local accesses of the context in slot `k`, or their data under way (R55). -/
def Mach.localBusy (m : Mach) (x k : Nat) : Bool :=
  m.locq.any (fun o => o.ctx == x && o.slot == k) || m.rets.any (fun o => o.ctx == x && o.slot == k)

/-- The underlying state of `f8` to `f15` (R55), bit 0 for `f8`. -/
def Mach.engineFlags (m : Mach) (x : Nat) : BitVec 8 :=
  let c := m.ctx x
  let lg := m.gops.any (fun g => g.ctx == x && g.open_) || m.rets.any (fun o => o.ctx == x && o.slot == 10) || !c.drains.isEmpty
  BitVec.ofBoolListLE [!(m.core (coreOf x)).mq.any (fun o => o.ctx == x), c.vq.isEmpty, c.qq.isEmpty, !m.xBusy x, !lg,
    !m.localBusy x 8, !m.localBusy x 9, !m.localBusy x 7]

/-- A group boundary of the context (R53, R56, R110): the engine flags settle, the flags raised by an engine whose flag
reads 1 enter XFLAGS, and the group's writes are forgotten. -/
def Mach.boundary (m : Mach) (x : Nat) : Mach :=
  let fs := m.engineFlags x
  m.modCtx x (fun c =>
    let xm := if fs.getLsbD 0 then c.xfM else 0
    let xv := if fs.getLsbD 1 then c.xfV else 0
    let xq := if fs.getLsbD 2 then c.xfQ else 0
    { c with
      regs := { c.regs with fs := fs, xf := c.regs.xf ||| xm ||| xv ||| xq }
      xfM := c.xfM &&& ~~~xm
      xfV := c.xfV &&& ~~~xv
      xfQ := c.xfQ &&& ~~~xq
      groupW := [] })

/-! ### Placement -/

/-- One entry of the slot table (R27): the credits of contexts 0 to 3 and of the idle pseudo-context grow by their shares, and
the largest takes the entry; ties go to the lowest. -/
def slotEntry (shares credit : List Int) : Nat × List Int :=
  let c := List.zipWith (fun x y => x + y) credit shares
  let w := (List.range 5).foldl (fun b i => if c.getD b 0 < c.getD i 0 then i else b) 0
  (w, (List.zip (List.range 5) c).map (fun p => if p.1 = w then p.2 - 64 else p.2))

/-- `n` entries of the slot table. -/
def slotEntries (shares : List Int) : Nat → List Int → List Nat
  | 0, _ => []
  | n + 1, credit => (slotEntry shares credit).1 :: slotEntries shares n (slotEntry shares credit).2

/-- The slot table of a core from the shares of its contexts (R27); the idle pseudo-context is 4. -/
def slotTable (sh : List Nat) : List Nat :=
  slotEntries (sh.map Int.ofNat ++ [64 - Int.ofNat (sh.foldl (fun x y => x + y) 0)]) 64 [0, 0, 0, 0, 0]

/-- The slot table of core `k` rebuilt; it takes effect at the next cycle that uses entry 0 (R27). -/
def Mach.rebuild (m : Mach) (k : Nat) : Mach :=
  m.modCore k (fun c => { c with next := some (slotTable ((List.range 4).map (fun i => (m.ctx (4 * k + i)).share))) })

/-- Slot-table entries that placed runs hold on core `k` by entries that name no context there (R19). -/
def Mach.emptyShares (m : Mach) (k : Nat) : Nat :=
  ((m.runs.filter (fun r => r.placed)).map (fun r =>
    ((r.recs.filter (fun e => 8 * e.cluster + e.core == k && e.ctxMask == 0)).map (fun e => e.share)).foldl (fun x y => x + y) 0)).foldl
    (fun x y => x + y) 0

/-- Slot-table entries held on core `k` (R19). -/
def Mach.heldShares (m : Mach) (k : Nat) : Nat :=
  ((List.range 4).map (fun i => (m.ctx (4 * k + i)).share)).foldl (fun x y => x + y) 0 + m.emptyShares k

/-- The placement entry that a context runs under (R18). -/
def Mach.entryOf (m : Mach) (x : Nat) : Option Entry :=
  match m.run? (m.ctx x).rid with
  | none => none
  | some r => r.recs.find? (fun e => 8 * e.cluster + e.core == coreOf x)

/-- The window of a context in a scratchpad: its first location and its bytes (R146). A context that no entry places has an
empty window. -/
def Mach.window (m : Mach) (x : Nat) (sp : Space) : Nat × Nat :=
  match m.entryOf x, sp with
  | some e, .ll => (llLoc (coreOf x) (e.llBase * 65536), e.llCnt * 65536)
  | some e, .lk => (lkLoc (clusterOf x) (e.lkBase * 65536), e.lkCnt * 65536)
  | _, _ => (0, 0)

/-- Whether `n` bytes from window offset `o` lie inside the window (R146). -/
def inWindow (w : Nat × Nat) (o n : Nat) : Bool := o + n ≤ w.2

end Sys2Proof.Machine
end

