-- ==== Sys2Proof/Machine/Translate.lean ====
section
/-! DEFINITION. Virtual addresses: page-table entries, the walk, the cached translations, and the checks of an access against
its pages (R148 to R159). -/

namespace Sys2Proof.Machine

/-- Slices of local HBM (R148). -/
def sliceOf (pa : Nat) : Nat := pa / 2 ^ 33

/-- Populated local HBM (R148). -/
def hbmPopulated (pa : Nat) : Bool := sliceOf pa < 64 && pa % 2 ^ 33 < Config.sliceBytes

/-- The CXL ranges of the address map (R148). -/
def cxlRange (pa : Nat) : Bool := 0x100000000000 ≤ pa && pa < 0x180000000000

/-- CXL addresses that an attached expander holds (R148; log 4). -/
def cxlPopulated (pa : Nat) : Bool := cxlRange pa && pa % 0x40000000000 < Config.cxlBytes

/-- A local physical address that exists (R148). -/
def populated (pa : Nat) : Bool := hbmPopulated pa || cxlPopulated pa

/-- Leaf entry fields (R151). -/
def leafRD (e : W64) : Bool := e.getLsbD 15
def leafWR (e : W64) : Bool := e.getLsbD 14
def leafFE (e : W64) : Bool := e.getLsbD 13
def leafREM (e : W64) : Bool := e.getLsbD 12
def leafCXL (e : W64) : Bool := e.getLsbD 11
def leafTSO (e : W64) : Bool := e.getLsbD 10
def leafCMP (e : W64) : Bool := e.getLsbD 9
def leafRDW (e : W64) : Bool := e.getLsbD 8
def leafCAU (e : W64) : Bool := e.getLsbD 7
def leafCHIP (e : W64) : BitVec 12 := e.extractLsb' 48 12
def leafPA (e : W64) : Nat := (e.extractLsb' 16 32).toNat * 65536

/-- The attribute combinations that no leaf may have (R152), for a page whose address range is that of `leafPA`. -/
def malformed (e : W64) : Bool :=
  (leafREM e && leafCXL e) || (leafTSO e && (leafREM e || leafCXL e || leafCMP e || leafRDW e)) ||
  (leafCMP e && leafWR e) || (leafCMP e && leafREM e) || (leafCAU e && !leafREM e) ||
  (leafCXL e && !cxlRange (leafPA e)) || (!leafREM e && !leafCXL e && cxlRange (leafPA e))

/-- Where a level's index lies in the address: lowest bit and width (R150). -/
def levelIndex (lvl : Nat) : Nat × Nat :=
  match lvl with
  | 1 => (44, 13) | 2 => (30, 14) | 3 => (21, 9) | _ => (16, 5)

/-- The bytes that a leaf of a level maps (R150). -/
def pageSize (lvl : Nat) : Nat := 2 ^ (levelIndex lvl).1

/-- The bytes of a table of a level (R150). -/
def tableSize (lvl : Nat) : Nat := 8 * 2 ^ (levelIndex lvl).2

/-- A table lies in populated local HBM and is aligned to its size (R150). -/
def tableOk (t lvl : Nat) : Bool :=
  t % tableSize lvl == 0 && hbmPopulated t && hbmPopulated (t + tableSize lvl - 1) && sliceOf t == sliceOf (t + tableSize lvl - 1)

/-- The walk from level `lvl` at table `t` (R153), `fuel` levels at most: the leaf and its page size, or the level at which
the translation fault arises. -/
def walkFrom (m : Mach) (va : Nat) : Nat → Nat → Nat → Except Nat (W64 × Nat)
  | 0, lvl, _ => .error lvl
  | fuel + 1, lvl, t =>
    let e : W64 := BitVec.ofNat 64 (m.load (t + 8 * (va / pageSize lvl % 2 ^ (levelIndex lvl).2)) 8)
    if !e.getLsbD 63 then .error lvl
    else if !e.getLsbD 62 then
      let next := (e.extractLsb' 8 40).toNat * 256
      if lvl == 4 || e.extractLsb' 48 14 != 0 || e.extractLsb' 0 8 != 0 || !tableOk next (lvl + 1) then .error lvl
      else walkFrom m va fuel (lvl + 1) next
    else if lvl == 1 || e.extractLsb' 60 2 != 0 || e.extractLsb' 0 7 != 0 || leafPA e % pageSize lvl != 0 ||
        (!leafREM e && leafCHIP e != 0) || malformed e then .error lvl
    else .ok (e, pageSize lvl)

/-- A walk of the tables (R153). A root that is not the address of a level-1 table in populated local HBM (R150) faults at level 1, for
which no rule names a fault (DESIGN CHOICE, log 93). -/
def Mach.walk (m : Mach) (root : W64) (va : Nat) : Except Nat (W64 × Nat) :=
  if tableOk root.toNat 1 then walkFrom m va 4 1 root.toNat else .error 1

/-- Whether a cached translation serves an address under a root (R158). -/
def TlbEnt.covers (t : TlbEnt) (root : W64) (va : Nat) : Bool := t.root == root && va / t.size == t.va.toNat / t.size

/-- The cluster's cached translation of an address (R158). -/
def Mach.clusterEntry (m : Mach) (cl : Nat) (root : W64) (va : Nat) : Option TlbEnt :=
  m.pkg.tlb.find? (fun t => t.cluster == cl && t.covers root va)

/-- The machine without the cached translations that satisfy `f`, in every cluster TLB and micro-TLB (R158). -/
def Mach.dropTlb (m : Mach) (f : TlbEnt → Bool) : Mach :=
  { m with
    cores := m.cores.map (fun p => (p.1, { p.2 with utlb := p.2.utlb.filter (fun t => !f t) }))
    pkg := { m.pkg with tlb := m.pkg.tlb.filter (fun t => !f t) } }

/-- The translation of a canonical address for core `k`: one of its micro-TLB, else of its cluster's TLB (R158), else a walk. Entries are
cached only when PAGE_WALK_COMPLETE caches them, so an access may use the old or the new entry (R159; log 13). -/
def Mach.translate (m : Mach) (k : Nat) (root : W64) (va : Nat) : Except Nat (W64 × Nat) :=
  match ((m.core k).utlb.find? (fun t => t.covers root va)).or (m.clusterEntry (k / 8) root va) with
  | some t => .ok (t.leaf, t.size)
  | none => m.walk root va

/-- The kinds of access that R155 tells apart. -/
inductive AccKind where
  | load | store | atomic | red | causal | fetch
  deriving DecidableEq, Repr

/-- A trap or a fault found at an issue: cause and SUB of R307, and what `TADDR` holds. -/
structure Cause where
  code : Nat
  sub  : Nat
  addr : W64
  deriving DecidableEq, Repr

/-- The permission that an access needs of its page (R155). -/
def permitted (k : AccKind) (e : W64) : Bool :=
  match k with
  | .load => leafRD e
  | .store => leafWR e
  | .atomic => leafWR e && leafRD e
  | .red => leafWR e
  | .causal => leafWR e
  | .fetch => leafFE e

/-- The first check of R155 that a page fails, as the SUB of its access fault. `part` is the run's partition, `chip` this
package: the page span check concerns the access as a whole and stands in `resolve`. -/
def pageCheck (m : Mach) (k : AccKind) (part : Nat) (e : W64) (pa len : Nat) : Option Nat :=
  let here := !leafREM e || leafCHIP e == m.pkg.chip
  let cau := k == .causal
  if !permitted k e then some 2
  else if here && !(populated pa && populated (pa + len - 1)) then some 3
  else if here && hbmPopulated pa && kget (sliceOf pa) m.pkg.part != some part then some 4
  else if k == .fetch && (leafREM e || leafCMP e) then some 5
  else if (k == .store || k == .atomic || k == .red) && leafCAU e then some 6
  else if cau && !leafREM e then some 8
  else if k == .red && !leafRDW e then some 7
  else none

/-- The pieces of `n` bytes from `va`, one for each page they touch, at most `fuel` pages (R169): translations are all made
first (R145), and a fault names the first byte of the piece at fault. -/
def pieces (m : Mach) (k : Nat) (root : W64) : Nat → Nat → Nat → Nat → Except Cause (List Seg)
  | 0, _, _, _ => .ok []
  | fuel + 1, off, va, n =>
    if n = 0 then .ok []
    else if 2 ^ 57 ≤ va then .error { code := 0x10, sub := 0, addr := BitVec.ofNat 64 va }
    else
      match m.translate k root va with
      | .error lvl => .error { code := 0x10, sub := lvl, addr := BitVec.ofNat 64 va }
      | .ok (e, sz) =>
        let len := min n (sz - va % sz)
        match pieces m k root fuel (off + len) (va + len) (n - len) with
        | .error c => .error c
        | .ok rest =>
          .ok ({ off := off, len := len, va := BitVec.ofNat 64 va, pa := leafPA e + va % sz,
                 chip := if leafREM e && leafCHIP e != m.pkg.chip then some (leafCHIP e) else none, leaf := e } :: rest)

/-- The pieces checked in ascending order (R155). DESIGN CHOICE (log 106): every check of a lower page comes before the checks of the next,
where R155 and R169 do not order the checks of two pages; the address reported is where the access enters the page that fails. -/
def checkPieces (m : Mach) (k : AccKind) (part : Nat) : List Seg → Except Cause Unit
  | [] => .ok ()
  | g :: rest =>
    match pageCheck m k part g.leaf g.pa g.len with
    | some sub => .error { code := 0x11, sub := sub, addr := g.va }
    | none => checkPieces m k part rest

/-- Bytes of an access that lie together: the address of the first, how many there are, what the address must be a multiple of. -/
abbrev Range := W64 × Nat × Nat

/-- The pieces of the bytes of an access, `off` counting from its first (R169). -/
def rangePieces (m : Mach) (core : Nat) (root : W64) : Nat → List Range → Except Cause (List Seg)
  | _, [] => .ok []
  | off, (va, n, _) :: rest =>
    match pieces m core root 5 off va.toNat n with
    | .error c => .error c
    | .ok segs =>
      match rangePieces m core root (off + n) rest with
      | .error c => .error c
      | .ok more => .ok (segs ++ more)

/-- A global access checked in the order of R145 and R155: canonical form of all its bytes, alignment, translation, access. A range has at
most 256 KiB, so five pages of 64 KiB hold it. -/
def Mach.resolveAll (m : Mach) (k : AccKind) (core : Nat) (root : W64) (part : Nat) (rs : List Range) : Except Cause (List Seg) :=
  match rs.find? (fun r => decide (2 ^ 57 < r.1.toNat + r.2.1) || decide (2 ^ 57 ≤ r.1.toNat)) with
  | some r => .error { code := 0x10, sub := 0, addr := BitVec.ofNat 64 (max r.1.toNat (2 ^ 57)) }
  | none =>
    match rs.find? (fun r => r.1.toNat % r.2.2 != 0) with
    | some r => .error { code := 0x03, sub := 0, addr := r.1 }
    | none =>
      match rangePieces m core root 0 rs with
      | .error c => .error c
      | .ok segs =>
        if k == .causal && segs.length > 1 then .error { code := 0x11, sub := 9, addr := (segs.head?.map (fun g => g.va)).getD 0 }
        else
          match checkPieces m k part segs with
          | .error c => .error c
          | .ok _ => .ok segs

/-- A global access of `n` bytes at `va`, aligned to `align` (R145, R155, R169). -/
def Mach.resolve (m : Mach) (k : AccKind) (core : Nat) (root : W64) (part : Nat) (va : W64) (n align : Nat) :
    Except Cause (List Seg) := m.resolveAll k core root part [(va, n, align)]

/-- An access of some ranges by context `x` under its run's root and partition (R154, R155). -/
def Mach.accessAll (m : Mach) (x : Nat) (k : AccKind) (rs : List Range) : Except Cause (List Seg) :=
  match m.run? (m.ctx x).rid with
  | none => .error { code := 0x10, sub := 1, addr := (rs.head?.map (fun r => r.1)).getD 0 }
  | some r => m.resolveAll k (coreOf x) r.root r.part rs

/-- The same for `n` bytes at `va`. -/
def Mach.access (m : Mach) (x : Nat) (k : AccKind) (va : W64) (n align : Nat) : Except Cause (List Seg) :=
  m.accessAll x k [(va, n, align)]

/-- Requests of run `rid` served by the L2 slices of some pieces of local memory counted (R363). -/
def Mach.serve (m : Mach) (rid : Nat) (pas : List Nat) : Mach :=
  m.modRun rid (fun r => { r with served := (pas.filter hbmPopulated).foldl (fun acc pa => kmod 0 (sliceOf pa) (fun n => n + 1) acc) r.served })

/-- Where the pages of `n` bytes of code at `va` hold them: the requests of a fetch (R145, R363). -/
def Mach.fetchPas (m : Mach) (x : Nat) (va : W64) (n : Nat) : List Nat :=
  match m.access x .fetch va n 4 with
  | .ok segs => (segs.filter (fun g => g.chip.isNone)).map (fun g => g.pa)
  | .error _ => []

/-- The bytes of local pieces, in order. -/
def Mach.segBytes (m : Mach) (segs : List Seg) : List Byte := segs.flatMap (fun g => readBytes m.mem g.pa g.len)

/-- Ranges of a window of context `x` (R145): the window of all their bytes, then the alignment; their first locations. -/
def Mach.localAll (m : Mach) (x : Nat) (sp : Space) (rs : List Range) : Except Cause (List Nat) :=
  let w := m.window x sp
  match rs.find? (fun r => !inWindow w r.1.toNat r.2.1) with
  | some r => .error { code := 0x11, sub := 1, addr := r.1 }
  | none =>
    match rs.find? (fun r => r.1.toNat % r.2.2 != 0) with
    | some r => .error { code := 0x03, sub := 0, addr := r.1 }
    | none => .ok (rs.map (fun r => w.1 + r.1.toNat))

/-- An access of `n` bytes at window offset `o` (R145): the window, then the alignment; its first location. -/
def Mach.local_ (m : Mach) (x : Nat) (sp : Space) (o : W64) (n align : Nat) : Except Cause Nat :=
  let w := m.window x sp
  if !inWindow w o.toNat n then .error { code := 0x11, sub := 1, addr := o }
  else if o.toNat % align != 0 then .error { code := 0x03, sub := 0, addr := o }
  else .ok (w.1 + o.toNat)

end Sys2Proof.Machine
end

