-- ==== Sys2Proof/Machine/Ops.lean ====
section
/-! DEFINITION. Taking an exception and returning from one: the control block and the trap record (R312, R322, R323), trap
entry (R311), double faults (R315), checkpoints and rollback (R38, R39, R316, R317), trap return (R314). -/

namespace Sys2Proof.Machine

/-- `n` zero bytes. -/
def zeroBytes (n : Nat) : List Byte := List.replicate n 0

/-- The little-endian bytes of a bit vector, `n` of them. -/
def vecLE {w : Nat} (n : Nat) (v : BitVec w) : List Byte := natLE n v.toNat

/-- A bit as a number. -/
def b2n (b : Bool) : Nat := if b then 1 else 0

/-- OTM of R322: bit k is 1 when token k is complete. -/
def Mach.otm (m : Mach) (r : Regs) : BitVec 32 := BitVec.ofBoolListLE ((List.range 32).map (m.tokenDone r))

/-- PEX, PEXA, PTF and PTFV (R322). -/
def pendBytes (p : Pend) : List Byte :=
  natLE 8 (b2n p.pex + p.pexN.toNat * 65536) ++ vecLE 8 p.pexA ++ natLE 8 (b2n p.ptf + p.ptfC.toNat * 256) ++ vecLE 8 p.ptfV

/-- The control block of 512 bytes (R322), with the pending faults `p` and the tokens `otm`. -/
def ctlBytes (r : Regs) (c : Ctl) (otm : BitVec 32) (p : Pend) : List Byte :=
  let lv := fun (f : Nat → List Byte) (n : Nat) =>
    (List.range 6).flatMap (fun k => if k < c.nlev then f k else zeroBytes n)
  vecLE 8 c.pc ++ (if c.dly = 0 then zeroBytes 8 else vecLE 8 c.tgt) ++
    natLE 1 (c.dly.toNat + 4 * b2n c.link) ++ natLE 1 c.remain.toNat ++ vecLE 2 r.vl ++ vecLE 1 r.f ++ natLE 1 c.nlev ++
    vecLE 1 (c.first &&& BitVec.ofNat 6 (2 ^ c.nlev - 1)) ++ natLE 1 (r.rb.toNat + 16 * r.rs.toNat) ++
    lv (fun k => vecLE 4 (rget k c.lc)) 4 ++ lv (fun k => vecLE 8 (rget k c.body)) 8 ++
    lv (fun k => vecLE 2 (rget k c.blen)) 2 ++ zeroBytes 4 ++
    (List.range 11).flatMap (fun k => vecLE 4 (rget (k + 1) c.sticky)) ++ zeroBytes 4 ++
    [7, 8, 9, 10].flatMap (fun k => vecLE 8 (rget k c.raddr)) ++ (List.range 8).flatMap (fun k => vecLE 2 (rget k r.ct)) ++
    vecLE 4 otm ++ vecLE 1 r.vrm ++ vecLE 1 r.xf ++ zeroBytes 2 ++ pendBytes p ++ zeroBytes 264

/-- A replay entry of 32 bytes (R323). -/
def replayBytes (e : Replay) : List Byte :=
  vecLE 16 e.data ++ vecLE 1 e.kind ++ vecLE 1 e.reg ++ vecLE 2 e.byte ++ vecLE 1 e.k ++ zeroBytes 11

/-- 48 replay entries, the unused ones zero (R312). -/
def replayArea (l : List Replay) : List Byte :=
  let b := (l.take 48).flatMap replayBytes
  b ++ zeroBytes (1536 - b.length)

/-- `g0` to `g63`, `g0` as zero (R312). -/
def gregBytes (r : Regs) : List Byte :=
  (List.range 64).flatMap (fun k => if k = 0 then zeroBytes 8 else vecLE 8 (rget k r.g))

/-- The trap record of 4,096 bytes (R312). -/
def Mach.recordBytes (m : Mach) (c : Ctx) (fpc tcause taddr : W64) : List Byte :=
  ctlBytes c.regs c.ctl (m.otm c.regs) c.pend ++ gregBytes c.regs ++ replayArea c.replay ++ vecLE 8 fpc ++ vecLE 8 tcause ++
    vecLE 8 taddr ++ zeroBytes 1512

/-- Fields of a byte list. -/
def byteAt (b : List Byte) (k : Nat) : Nat := (b.getD k 0).toNat
def fieldAt (b : List Byte) (k n : Nat) : Nat := leNat ((b.drop k).take n)
def zeroAt (b : List Byte) (k n : Nat) : Bool := ((b.drop k).take n).all (fun x => x == 0)

/-- Whether a sticky word of slot `k` passes check 2 of R99. -/
def stickyOk (k : Nat) (w : W32) : Bool :=
  stickyWordOk (slotMap k) w

/-- The checks of R322 on a control block. -/
def ctlValid (b : List Byte) : Bool :=
  let nlev := byteAt b 21
  nlev ≤ 6 && byteAt b 16 < 8 && byteAt b 16 % 4 != 3 && byteAt b 17 ≤ 64 &&
    (byteAt b 16 % 4 != 0 || fieldAt b 8 8 == 0) && byteAt b 22 < 64 && byteAt b 23 % 16 < 8 && byteAt b 23 < 128 &&
    zeroAt b 108 4 && zeroAt b 156 4 && byteAt b 212 < 32 && byteAt b 213 < 32 && zeroAt b 214 2 &&
    (fieldAt b 216 8 % 65536 ≤ 1 && fieldAt b 216 8 < 2 ^ 32) && (fieldAt b 232 8 < 65536 && byteAt b 232 ≤ 1) && zeroAt b 248 264 &&
    (List.range 6).all (fun k =>
      if k < nlev then 1 ≤ fieldAt b (96 + 2 * k) 2 && fieldAt b (96 + 2 * k) 2 ≤ 256
      else zeroAt b (24 + 4 * k) 4 && zeroAt b (48 + 8 * k) 8 && zeroAt b (96 + 2 * k) 2) &&
    (List.range 11).all (fun k => stickyOk (k + 1) (BitVec.ofNat 32 (fieldAt b (112 + 4 * k) 4)))

/-- A sparse file of `n` registers of `sz` bytes read from a byte list at `k`. -/
def fileAt (w : Nat) (b : List Byte) (k n sz : Nat) (base : Nat) : RMap w :=
  (List.range n).foldl (fun (acc : RMap w) i => rput (base + i) (BitVec.ofNat w (fieldAt b (k + sz * i) sz)) acc) []

/-- The control state that a control block holds (R322). The loop bodies are fetched again (R65). -/
def ctlOf (b : List Byte) : Ctl :=
  { pc := BitVec.ofNat 64 (fieldAt b 0 8), tgt := BitVec.ofNat 64 (fieldAt b 8 8), dly := BitVec.ofNat 2 (byteAt b 16),
    link := (byteAt b 16).testBit 2, remain := BitVec.ofNat 7 (byteAt b 17), nlev := byteAt b 21,
    first := BitVec.ofNat 6 (byteAt b 22), lc := fileAt 32 b 24 6 4 0, body := fileAt 64 b 48 6 8 0,
    blen := fileAt 9 b 96 6 2 0, lastB := [], sticky := fileAt 32 b 112 11 4 1, raddr := fileAt 64 b 160 4 8 7 }

/-- The registers with those that a control block holds (R322): a token that it shows complete is complete, another completes as the
operation does that `ot` of `r` records. DESIGN CHOICE (log 111): a VL above 1,024 passes, and `vl` takes its low 11 bits. -/
def regsOf (b : List Byte) (r : Regs) : Regs :=
  { r with
    vl := BitVec.ofNat 11 (fieldAt b 18 2)
    f := BitVec.ofNat 8 (byteAt b 20)
    rb := BitVec.ofNat 3 (byteAt b 23)
    rs := BitVec.ofNat 3 (byteAt b 23 / 16)
    ct := fileAt 16 b 192 8 2 0
    ot := r.ot.filter (fun p => !(fieldAt b 208 4).testBit p.1)
    vrm := BitVec.ofNat 5 (byteAt b 212)
    xf := BitVec.ofNat 5 (byteAt b 213) }

/-- The pending faults that a control block holds (R322). -/
def pendOf (b : List Byte) : Pend :=
  { pex := (byteAt b 216).testBit 0, pexN := BitVec.ofNat 16 (fieldAt b 218 2), pexA := BitVec.ofNat 64 (fieldAt b 224 8),
    lost := [], ptf := (byteAt b 232).testBit 0, ptfC := BitVec.ofNat 8 (byteAt b 233),
    ptfV := BitVec.ofNat 64 (fieldAt b 240 8) }

/-- The replay entries of a 1,536-byte area (R323); KIND 0 is empty. DESIGN CHOICE (log 112): R323 names no entry that is refused, so one
with K 0 or above 3, KIND above 3 or REG out of range is taken as it stands (`Regs.apply`). -/
def replaysOf (b : List Byte) : List Replay :=
  (List.range 48).filterMap (fun i =>
    let e := b.drop (32 * i)
    if byteAt e 16 = 0 then none
    else some { kind := BitVec.ofNat 8 (byteAt e 16), reg := BitVec.ofNat 8 (byteAt e 17), byte := BitVec.ofNat 16 (fieldAt e 18 2),
                k := BitVec.ofNat 8 (byteAt e 20), data := BitVec.ofNat 128 (fieldAt e 0 16), src := none })

/-- `g1` to `g63` from a 512-byte area (R314). -/
def gregOf (b : List Byte) : RMap 64 := rput 0 0 (fileAt 64 b 0 64 8 0)

/-- The merge of R314: `r` is the record's, `l` the live state. -/
def mergePend (r l : Pend) : Pend :=
  { pex := r.pex || l.pex
    pexN := if r.pex && l.pex then BitVec.ofNat 16 (min 65535 (r.pexN.toNat + l.pexN.toNat)) else if r.pex then r.pexN else l.pexN
    pexA := if r.pex then r.pexA else l.pexA
    lost := l.lost
    ptf := r.ptf || l.ptf
    ptfC := if r.ptf then r.ptfC else l.ptfC
    ptfV := if r.ptf then r.ptfV else l.ptfV }

/-- Where a trap record or a save area of `n` bytes at `va` lies, if its pages are those R312 demands: local HBM, RD and
WR, none of REM, CXL, TSO, CMP, RDW and CAU. -/
def Mach.plainArea (m : Mach) (x : Nat) (va : W64) (n : Nat) : Option (List Seg) :=
  if va.toNat % 4096 != 0 then none
  else
    match m.access x .load va n 4096 with
    | .error _ => none
    | .ok segs =>
      if segs.all (fun g => leafWR g.leaf && !leafREM g.leaf && !leafCXL g.leaf && !leafTSO g.leaf && !leafCMP g.leaf &&
          !leafRDW g.leaf && !leafCAU g.leaf) then some segs
      else none

/-- Bytes written straight to the homes of local pieces (R312). -/
def Mach.storeSegs (m : Mach) : List Seg → List Byte → Mach
  | [], _ => m
  | g :: rest, bs => (m.store g.pa (bs.take g.len)).storeSegs rest (bs.drop g.len)

/-- TCAUSE (R309). -/
def tcause (code check slot sub count : Nat) (rb : Bool) : W64 :=
  BitVec.ofNat 64 (code + 256 * check + 32768 * b2n rb + 65536 * slot + 2 ^ 32 * sub + 2 ^ 48 * count)

/-- Whether a double fault has stopped run `r` (R315). -/
def Mach.runStopped (m : Mach) (r : Nat) : Bool := (m.run? r).any (fun q => q.stopped)

/-- Run `r` stops (R315, R369): of its contexts the one struck, if any, halts and the others stop, and the host is interrupted. A run that
has stopped keeps its state. -/
def Mach.stopRun (m : Mach) (r : Nat) (struck : Option Nat) : Mach :=
  if m.runStopped r then m
  else
  let m1 := { m with ctxs := m.ctxs.map (fun (p : Nat × Ctx) =>
    if struck == some p.1 then (p.1, { p.2 with status := .halted })
    else if p.2.rid == r && p.2.status != Status.absent && p.2.status != Status.ended && p.2.status != Status.halted then
      (p.1, { p.2 with status := .runStopped })
    else p) }
  (m1.modRun r (fun q => { q with stopped := true })).raiseIrq (m1.pkg.vector 1)

/-- A double fault of context `x` (R315). -/
def Mach.doubleFault (m : Mach) (x : Nat) : Mach := m.stopRun (m.ctx x).rid (some x)

/-- The flags that a context's engines have raised and XFLAGS does not hold yet (R110): of M, V and QC operations by 0, 1, 2. -/
def Ctx.raised (c : Ctx) : RMap 5 := rput 0 c.xfM (rput 1 c.xfV (rput 2 c.xfQ []))

/-- The barrier that a context waits at, as a rollback restores it (R36, R330). -/
def Status.barrierWait : Status → Option Park
  | .parked .tbar => some .tbar
  | .parked (.regen r o c) => some (.regen r o c)
  | _ => none

/-- The status of a context that goes on from its handler: it waits again at the barrier that it waited at (R36, R316, R330). -/
def Trp.resumed (t : Trp) : Status :=
  match t.held with
  | some w => .parked w
  | none => .run

/-- The context as its handler begins (R311 steps 3 to 5, R313). -/
def Ctx.inHandler (c : Ctx) (from_ : Nat) (tc ta : W64) : Ctx :=
  { c with
    trp := { c.trp with handler := true, from_ := from_, tcause := tc, taddr := ta, ot := c.regs.ot, held := c.status.barrierWait }
    readAt := none
    pend := { Pend.zero with lost := c.pend.lost }
    replay := []
    late := c.raised
    ctl := { Ctl.zero with pc := c.trp.tvec }
    status := .run
    ibuf := []
    spin := [] }

/-- TAKING AN EXCEPTION (R311): the record is written at TREC, TCAUSE and TADDR are set, the context enters handler mode
and its next issue is fetched from TVEC. `fpc` is the bundle that trapped or faulted. In handler mode, and where the record
cannot be written, it is a double fault (R315). -/
def Mach.enter (m : Mach) (x : Nat) (fpc tc ta : W64) : Mach :=
  let c := m.ctx x
  if c.trp.handler then m.doubleFault x
  else
    match m.plainArea x c.trp.trec 4096 with
    | none => m.doubleFault x
    | some segs =>
      ((m.storeSegs segs (m.recordBytes c fpc tc ta)).modCtx x (fun d => d.inHandler m.nextId tc ta)).boundary x

/-! ### Checkpoints and rollback -/

/-- What a checkpoint holds of a context (R38): in handler mode the program as trap return would resume it. -/
def Mach.snap (m : Mach) (x : Nat) : Snap :=
  let c := m.ctx x
  let plain : Snap :=
    { regs := c.regs, ctl := c.ctl, replay := c.replay, raised := c.raised, status := c.status, drains := c.drains }
  if !c.trp.handler then plain
  else
    match m.plainArea x c.trp.trec 4096 with
    | none => plain
    | some segs =>
      let b := m.segBytes segs
      { regs := { regsOf b { c.regs with ot := c.trp.ot } with g := gregOf (b.drop 512) }, ctl := ctlOf b,
        replay := replaysOf (b.drop 1024), raised := c.late, status := c.trp.resumed, drains := [] }

/-- A store to a scratchpad by issue `no`. -/
def LocalOp.storeOf (o : LocalOp) (no : Nat) : Bool :=
  o.no == no && (match o.act with
    | .store _ => true
    | _ => false)

/-- Nothing that the team issued is still to deliver its data (R319), but the global operation `id` of issue `no` and the scratchpad stores of
that issue, which wait for it (R237). -/
def Mach.quietBut (m : Mach) (t : Team) (id no : Nat) : Bool :=
  t.ctxs.all (fun x =>
    let c := m.ctx x
    !m.locq.any (fun o => o.ctx == x && !o.storeOf no) && !m.rets.any (fun o => o.ctx == x) && c.vq.isEmpty && c.qq.isEmpty &&
      !(m.core (coreOf x)).mq.any (fun o => o.ctx == x) &&
      !m.gops.any (fun g => g.ctx == x && g.id != id && (match g.act with
        | .read .none => false
        | .read _ => true
        | .amo .. => true
        | _ => !g.needs.isEmpty)))

/-- Nothing that the team issued is still to deliver its data (R319), so a checkpoint can be complete: no local access, load, V, QC or M
operation, LG read or atomic of its contexts is in flight. -/
def Mach.quiet (m : Mach) (t : Team) : Bool := m.quietBut t 0 0

/-- A team's store buffer moves, in order, into the home channels (R36, R239). A store that still waits for a token has not entered it
(R245). -/
def Mach.commit (m : Mach) (rid cl : Nat) : Mach :=
  { m with gops := m.gops.map (fun g =>
      if g.rid == rid && g.cluster == cl && !g.committed && g.needs.isEmpty then { g with committed := true, batch := m.nextId } else g) }

/-- The team's checkpoint is taken and its undo logs are cut (R38). -/
def Mach.checkpoint (m : Mach) (t : Team) : Mach :=
  m.modTeam t.rid t.cluster (fun u => { u with ckpt := t.ctxs.map (fun x => (x, m.snap x)), cut := m.nextId, undo := [], full := false })

/-- A forced checkpoint (R37): checkpoint, commit, cut, counted in FCKPT. -/
def Mach.forced (m : Mach) (t : Team) : Mach := ((m.checkpoint t).commit t.rid t.cluster).count t.rid 3 1

/-- The tile row put back. -/
def Core.setRow (c : Core) (t r : Nat) (mant : BitVec 8192) (exps : BitVec 128) : Core :=
  { c with tiles := kmod Tile.zero t (fun q => { mant := rput r mant q.mant, exps := rput r exps q.exps }) c.tiles }

/-- The last word pushed to a link FIFO pair taken back (R37): `asm` and `tag` are what the push changed besides. -/
def Link.takeBack (l : Link) (asm : List W64) (tag : Option (Nat × BitVec 4 × Option Nat)) : Link :=
  { l with
    outb := l.outb.dropLast
    asm := asm
    gen := match tag with
      | some (t, g, _) => rput t g l.gen
      | none => l.gen
    out_ := match tag with
      | some (t, _, some due) => kput t due l.out_
      | some (t, _, none) => kdel t l.out_
      | none => l.out_ }

/-- One undo entry applied (R37, R39). -/
def Mach.undo (m : Mach) : Undo → Mach
  | .line _ loc old => m.store loc old
  | .row k t r mant exps => m.modCore k (fun c => c.setRow t r mant exps)
  | .child r => m.modRun r (fun q => { q with child := none })
  | .popped k n w => m.modCore k (fun c => c.modLink n (fun l => { l with inb := w :: l.inb }))
  | .pushed k n asm tag => m.modCore k (fun c => c.modLink n (fun l => l.takeBack asm tag))

/-- A record of the team of context `x` for its next rollback. A handler's acts are not undone (R313). -/
def Mach.undoable (m : Mach) (x : Nat) (u : Undo) : Mach :=
  let c := m.ctx x
  if c.trp.handler then m else m.modTeam c.rid (clusterOf x) (fun t => { t with undo := u :: t.undo })

/-- What a rollback puts back of a line of which other bytes, from `loc` on, survive it (R38, R313). -/
def Undo.patch (loc : Nat) (bs : List Byte) : Undo → Undo
  | .line k l old => .line k l ((List.range old.length).map (fun i =>
      if loc ≤ l + i ∧ l + i < loc + bs.length then bs.getD (l + i - loc) 0 else old.getD i 0))
  | u => u

/-- A write to a scratchpad that is not logged and that no rollback undoes: a handler's (R313), or a landing of another team's transfer
(R38). -/
def Mach.keptStore (m : Mach) (loc : Nat) (bs : List Byte) : Mach :=
  let m1 : Mach := { m with teams := m.teams.map (fun t => { t with undo := t.undo.map (Undo.patch loc bs) }) }
  m1.store loc bs

/-- A wait that a rollback has restored is made again (R30, R32, R53): its word has not issued. An open generator barrier is abandoned, and
its wait arrives at it again (R330). -/
def Status.again (q : Status) : Status :=
  match q with
  | .parked (.flags _) | .parked (.bar _) | .parked (.any _ _) | .parked (.spin _) | .parked (.read _) => .run
  | .parked (.gen r o c) => .parked (.regen r o c)
  | q => q

/-- Whether an operation of issue `no` was issued by the context's handler (R313, R328). -/
def Ctx.byHandler (c : Ctx) (no : Nat) : Bool := c.trp.handler && c.trp.from_ ≤ no

/-- Whether a rollback to the checkpoint `cut` keeps an X operation: one that has begun, one issued before that checkpoint, and a handler's
(R39, R277, R281, R313). -/
def Ctx.keepsX (c : Ctx) (cut : Nat) (o : EngOp) : Bool := o.begun || decide (o.no < cut) || c.byHandler o.no

/-- A context restored from its checkpoint, which stands at `cut`, in run mode (R38, R39, R316). A pending fault is not restored: `p` are
those that stand (R255, R278). Pre-emption stands (R321). -/
def Ctx.restore (c : Ctx) (s : Snap) (cut : Nat) (p : Pend) : Ctx :=
  { c with
    pend := p
    regs := { s.regs with fs := c.regs.fs }
    ctl := { s.ctl with lastB := [] }
    replay := s.replay
    status := s.status.again
    trp := { c.trp with handler := false, ot := [], held := none }
    readAt := none
    busy := []
    groupW := []
    ibuf := []
    spin := []
    vq := []
    qq := []
    xfM := rget 0 s.raised
    xfV := rget 1 s.raised
    xfQ := rget 2 s.raised
    late := []
    xq := c.xq.filter (c.keepsX cut)
    drains := s.drains
    hit := true }

/-- The operations of a team that a rollback withdraws: those not committed, reads but those that feed a handler's M operation (R313), and
atomics and causal-token stores that the second checkpoint does not hold and that have not left (R39, R71, R177). -/
def withdrawn (t : Team) (g : GOp) : Bool :=
  g.rid == t.rid && g.cluster == t.cluster && (match g.act with
    | .store _ => !g.committed
    | .red _ _ => !g.committed
    | .read .none => decide (t.cut ≤ g.no)
    | .read (.feed _) => !g.direct
    | .read _ => true
    | .amo .. => !g.direct && !g.sent
    | .causal .. => !g.direct && !g.sent && decide (t.cut ≤ g.no))

/-- A handler's atomic that a rollback finds in flight acts, and writes no register of the program restored (R313, R316). -/
def GOp.orphan (t : Team) (g : GOp) : GOp :=
  if g.rid == t.rid && g.cluster == t.cluster then
    (match g.act with
    | .amo op b c _ => { g with act := .amo op b c 0 }
    | _ => g)
  else g

/-- What a rollback leaves of an M operation: a handler's acts on tiles, stones and tables, and writes no register (R313). -/
def Mach.keptM (m : Mach) (t : Team) (o : EngOp) : Option EngOp :=
  if !t.ctxs.contains o.ctx then some o
  else if !(m.ctx o.ctx).byHandler o.no then none
  else match o.ins with
    | .ardF32 _ _ _ | .ardS32 _ _ _ | .aexp _ _ _ | .dtap _ _ _ => none
    | .nop => some { o with words := [o.words.headD 0, 0] }
    | _ => some o

/-- The pending faults of context `x` that a rollback leaves: those that its handler's trap record holds are pending again (R316, R317). -/
def Mach.pendingStill (m : Mach) (x : Nat) : Pend :=
  let c := m.ctx x
  if !c.trp.handler then c.pend
  else match m.plainArea x c.trp.trec 4096 with
    | none => c.pend
    | some segs => mergePend (pendOf (m.segBytes segs)) c.pend

/-- What a rollback leaves of a local access: a handler's write still acts (R313). -/
def Mach.keptLocal (m : Mach) (t : Team) (o : LocalOp) : Option LocalOp :=
  if !t.ctxs.contains o.ctx then some o
  else if !(m.ctx o.ctx).byHandler o.no then none
  else match o.act with
    | .load _ => none
    | _ => some { o with dest := .none }

/-- Whether a rollback keeps data on its way to its destination: only what feeds an M operation that it keeps (R313). -/
def Mach.keptRet (m : Mach) (t : Team) (o : Ret) : Bool :=
  !t.ctxs.contains o.ctx || (match o.dest with
    | .feed id => (m.core (coreOf o.ctx)).mq.any (fun q => q.id == id && (m.keptM t q).isSome)
    | _ => false)

/-- TEAM ROLLBACK (R39): the store buffer is discarded, the undo logs are applied newest first, every context is restored
from the last checkpoint. Counted in ROLLBK. -/
def Mach.rollback (m : Mach) (t : Team) : Mach :=
  let dead := (m.gops.filter (withdrawn t)).map (fun g => g.id) ++ (m.locq.filter (fun o => (m.keptLocal t o).isNone)).map (fun o => o.id) ++
    (m.rets.filter (fun o => !m.keptRet t o)).map (fun o => o.id) ++
    t.ctxs.flatMap (fun x => ((m.ctx x).vq ++ (m.ctx x).qq).map (fun o => o.id) ++
      ((m.ctx x).xq.filter (fun o => !(m.ctx x).keepsX t.cut o)).map (fun o => o.id) ++
      ((m.core (coreOf x)).mq.filter (fun o => o.ctx == x && (m.keptM t o).isNone)).map (fun o => o.id) ++
      (((m.ctx x).drains.take 1).filter (fun k => !(kget x t.ckpt).any (fun q => q.drains.contains k))).map (fun k => k.1))
  let lost := (m.gops.filter (withdrawn t)).filterMap (fun g => match g.act with
    | .causal (some n) _ _ _ => some n.toNat
    | _ => none)
  let m1 : Mach := { m with
    gops := (m.gops.filter (fun g => !withdrawn t g)).map (fun g => g.orphan t)
    locq := m.locq.filterMap (m.keptLocal t)
    rets := m.rets.filter (m.keptRet t)
    cores := m.cores.map (fun p => (p.1, { p.2 with mq := p.2.mq.filterMap (m.keptM t) }))
    ops := m.ops.filter (fun k => !dead.contains k)
    pkg := { m.pkg with own := m.pkg.own.filter (fun e => !lost.contains e.1) } }
  let m2 := t.undo.foldl Mach.undo m1
  let m3 := t.ckpt.foldl (fun (acc : Mach) p => acc.modCtx p.1 (fun c => c.restore p.2 t.cut (m.pendingStill p.1))) m2
  (m3.modTeam t.rid t.cluster (fun u => { u with undo := [], full := false, reports := [] })).count t.rid 4 1

/-- FAULT DELIVERY (R316, R317): of the faults reported against the team, the one of the earliest issue is delivered and
the others are discarded; the team rolls back, and the context struck enters its handler with RB = 1. -/
def Mach.deliver (m : Mach) (t : Team) : Mach :=
  match t.reports with
  | [] => m
  | r :: rest =>
    let best := rest.foldl (fun (a b : Report) => if b.no < a.no then b else a) r
    let m1 := (m.rollback t).modTeam t.rid t.cluster (fun u => { u with serving := some best.ctx })
    m1.enter best.ctx best.pc (best.cause ||| 0x8000) best.addr

/-- A fault of the context `x` at issue `no` of the bundle `pc`, found at an issue or after it: reported to its team
(R317). A fault of what its handler has issued is a double fault, and a run that one has stopped keeps its state (R315). -/
def Mach.report (m : Mach) (x no : Nat) (pc cause addr : W64) : Mach :=
  let c := m.ctx x
  if m.runStopped c.rid then m
  else if c.byHandler no then m.doubleFault x
  else m.modTeam c.rid (clusterOf x) (fun t =>
    if t.serving.isSome then t else { t with reports := t.reports ++ [{ ctx := x, no := no, pc := pc, cause := cause, addr := addr }] })

/-- A fault that is precise at its issue: reported and delivered in one step (R39, R154). -/
def Mach.faultAt (m : Mach) (x no : Nat) (pc cause addr : W64) : Mach :=
  let c := m.ctx x
  if c.trp.handler then m.doubleFault x
  else
    match (m.report x no pc cause addr).team? c.rid (clusterOf x) with
    | none => m
    | some t => (m.report x no pc cause addr).deliver t

/-! ### Trap return -/

/-- The context after trap return from the record `b` (R314). -/
def Ctx.return_ (c : Ctx) (b : List Byte) : Ctx :=
  { c with
    regs := { regsOf b { c.regs with ot := c.trp.ot } with g := gregOf (b.drop 512) }
    ctl := ctlOf b
    pend := mergePend (pendOf b) c.pend
    replay := replaysOf (b.drop 1024)
    status := c.trp.resumed
    trp := { c.trp with handler := false, ot := [], held := none }
    readAt := none
    xfM := rget 0 c.late
    xfV := rget 1 c.late
    xfQ := rget 2 c.late
    late := []
    ibuf := []
    spin := [] }

/-- A group boundary of every context of a team (R53): it resumes from the state that a rollback restored (R316). -/
def Mach.boundaries (m : Mach) (t : Team) : Mach := t.ctxs.foldl (fun (acc : Mach) x => acc.boundary x) m

/-- TRAP RETURN (R314, R328): the record at TREC is read as it stands; a team that waited for this handler resumes (R316).
A record that cannot be read, or a control block that R322 refuses, is a double fault (R315). -/
def Mach.trapReturn (m : Mach) (x : Nat) : Mach :=
  let c := m.ctx x
  match m.plainArea x c.trp.trec 4096 with
  | none => m.doubleFault x
  | some segs =>
    let b := m.segBytes segs
    if ctlValid b then
      let m1 := m.modCtx x (fun d => d.return_ b)
      match m.team? c.rid (clusterOf x) with
      | some t =>
        if t.serving == some x then ((m1.boundary x).boundaries t).modTeam c.rid (clusterOf x) (fun u =>
          if u.serving == some x then { u with serving := none } else u)
        else m1.boundary x
      | none => m1.boundary x
    else m.doubleFault x

end Sys2Proof.Machine
end

