-- ==== Sys2Proof/Machine/Operands.lean ====
section
/-! DEFINITION. The operands of the words of an issue: reading the machine as it stood before the issue (R128, R54), writing
the machine as it will stand, literals (R46), running addresses (R49), traps and faults at the issue (R71, R310), order
tokens (R133), and the registers that the group rule and the scoreboard count for each word (R54, R67). -/

namespace Sys2Proof.Machine

/-- What `exec` answers. -/
abbrev Res := Host.Outcome State Fault Refusal

/-- The context that issues (R26); a sequencer's words name none. -/
def State.cx (s : State) : Nat :=
  match s.iss.agent with
  | .ctx x => x
  | .seq _ => 0

/-- The issuing context as it stood before the issue. -/
def State.oc (s : State) : Ctx := s.old.ctx s.cx

/-- The issuing context as the words before this one in the issue have left it. -/
def State.nc (s : State) : Ctx := s.m.ctx s.cx

/-- The number of the issue in progress (R239). -/
def State.no (s : State) : Nat := s.old.nextId

/-- The state with `f` applied to the machine. -/
def State.mapM (s : State) (f : Mach → Mach) : State := { s with m := f s.m }

/-- The state with `f` applied to the issuing context. -/
def State.modC (s : State) (f : Ctx → Ctx) : State := s.mapM (fun m => m.modCtx s.cx f)

/-- The state with `f` applied to the issuing context's registers. -/
def State.modR (s : State) (f : Regs → Regs) : State := s.modC (fun c => { c with regs := f c.regs })

/-- The state with `f` applied to the issuing context's control state. -/
def State.modCtl (s : State) (f : Ctl → Ctl) : State := s.modC (fun c => { c with ctl := f c.ctl })

/-- A general register; `g0` reads zero (R74). -/
def Regs.rg (r : Regs) (n : BitVec 6) : W64 := if n = 0 then 0 else rget n.toNat r.g

/-- A general register written; a write to `g0` is discarded (R74). -/
def Regs.wg (r : Regs) (n : BitVec 6) (v : W64) : Regs := if n = 0 then r else { r with g := rput n.toNat v r.g }

/-- A flag, `f8` to `f15` as they settled (R56). -/
def Regs.flag (r : Regs) (k : Nat) : Bool := (r.fs ++ r.f).getLsbD k

/-- One replay entry written to its destination (R35, R323). DESIGN CHOICE (log 112): R323 lists KIND 1 to 3; another KIND that a record brings
acts as 3, and a REG or BYTE out of range writes what lies in the register. -/
def Regs.apply (r : Regs) (e : Replay) : Regs :=
  match e.kind.toNat with
  | 1 => { r with sc := rput e.reg.toNat (setField (rget e.reg.toNat r.sc) (8 * e.byte.toNat) 128 e.data) r.sc }
  | 2 => { r with sh := rput e.reg.toNat (e.data.extractLsb' 0 64) r.sh }
  | _ => { r with byp := setField r.byp (8 * e.byte.toNat) 128 e.data }

/-- The registers as the context's next issue sees them: exposed results due now have taken effect (R35, R66). -/
def Ctx.seen (c : Ctx) : Regs := (c.replay.filter (fun e => e.k == 1)).foldl Regs.apply c.regs

/-- The registers as this issue reads them. -/
def State.regs (s : State) : Regs := s.oc.seen

/-- A general register as this issue reads it. -/
def State.rg (s : State) (n : BitVec 6) : W64 := s.regs.rg n

/-- A vector register as this issue reads it. -/
def State.rv (s : State) (n : BitVec 5) : VReg := rget n.toNat s.regs.v

/-- A mask register as this issue reads it. -/
def State.rm (s : State) (n : BitVec 3) : BitVec 1024 := rget n.toNat s.regs.m

/-- `vl` as this issue reads it. -/
def State.vl (s : State) : Nat := s.regs.vl.toNat

/-- A general register written at the commit of the issue (R128). -/
def State.wg (s : State) (n : BitVec 6) (v : W64) : State := s.modR (fun r => r.wg n v)

/-- A flag `f0` to `f7` written (R139). -/
def State.wf (s : State) (n : BitVec 4) (b : Bool) : State :=
  s.modR (fun r => { r with f := setField r.f n.toNat 1 (BitVec.ofBool b) })

/-- A literal word of the issuing bundle (R46). -/
def State.lit (s : State) (k : Nat) : W32 := s.iss.pool.getD k 0

/-- Two literals, low first (R97). -/
def State.lit2 (s : State) (k : Nat) : W64 := s.lit (k + 1) ++ s.lit k

/-- The answer of a word that has done its work. -/
def done (s : State) : Res := .next s

/-- The state after a trap or a fault at this issue: the issue commits nothing (R71); a trap enters the handler (R311), a
fault rolls the team back first (R39, R316). `slot` is SLOT and `check` is CHECK of R309. -/
def State.fail (s : State) (c : Cause) (slot check : Nat) : State :=
  let tc := tcause c.code check slot c.sub 0 false
  { s with
    m := if c.code < 0x10 then s.old.enter s.cx s.iss.addr tc c.addr
         else s.old.faultAt s.cx s.no s.iss.addr tc c.addr
    iss := { s.iss with trapped := true } }

/-- A trap or a fault that the word of this slot finds at its issue (R310). -/
def State.raise (s : State) (c : Cause) : Res := .next (s.fail c s.iss.slot 0)

/-- A trap of R307 whose `TADDR` is the bundle address. -/
def State.trapHere (s : State) (code sub : Nat) : Res :=
  s.raise { code := code, sub := sub, addr := s.iss.addr }

/-- The illegal-encoding trap found at check `k` of R99 by the word of this slot. -/
def State.illegal (s : State) (k : Nat) : Res :=
  .next (s.fail { code := 0x01, sub := 0, addr := s.iss.addr } s.iss.slot k)

/-- The privileged-instruction trap (R78, R84). -/
def State.privileged (s : State) : Res := s.trapHere 0x02 0

/-- Whether run code issues (R313). -/
def State.inRun (s : State) : Bool := !s.oc.trp.handler

/-- The issuing context's run (R13). -/
def State.run? (s : State) : Option Run := s.old.run? s.oc.rid

/-- The issuing context's team (R375). -/
def State.team? (s : State) : Option Team := s.old.team? s.oc.rid (clusterOf s.cx)

/-- The running address of the word (R49): formed from `base` when the word is fresh, else stepped by its slot's stride at
the innermost active level. -/
def State.runAddr (s : State) (base : W64) : W64 :=
  if s.iss.fresh then base
  else
    let c := s.oc.ctl
    rget s.iss.slot c.raddr + (rget (6 * s.iss.slot + (c.nlev - 1)) s.oc.regs.stride).signExtend 64

/-- The running address recorded for the next issue (R49). -/
def State.setAddr (s : State) (a : W64) : State := s.modCtl (fun c => { c with raddr := rput s.iss.slot a c.raddr })

/-! ### Draws (R107) -/

/-- `n` draws from generator `k`, in slot order within the issue; the counter moves past them. -/
def State.draws (s : State) (k n : Nat) : List W32 × State :=
  let r := s.nc.regs
  (drawsOf (rget k r.genC) (rget k r.genK) n,
   s.modR (fun r => { r with genC := rput k (rget k r.genC + BitVec.ofNat 128 ((n + 3) / 4)) r.genC }))

/-- The draws a rounding form takes: `n` from generator `k` under RM 4, none otherwise (R106). -/
def State.roundDraws (s : State) (rm k n : Nat) : List W32 × State := if rm = 4 then s.draws k n else ([], s)

/-! ### Order tokens (R133) -/

/-- The `ord` literal's fields (R83): the token produced and the tokens consumed. -/
def ordOut (w : W32) : Nat := (w.extractLsb' 20 5).toNat
def ordIn (w : W32) : List Nat := [(w.extractLsb' 15 5).toNat, (w.extractLsb' 10 5).toNat, (w.extractLsb' 5 5).toNat]

/-- The operations that tokens of the context record and that are still in flight (R74). -/
def Mach.tokenOps (m : Mach) (r : Regs) (ks : List Nat) : List Nat :=
  ks.filterMap (fun k =>
    if k = 0 then none
    else match kget k r.ot with
      | some id => if m.inFlight id then some id else none
      | none => none)

/-- The bundle's `ord` if it names this slot: the literal (R133). A suppressed `ord` is not there (R128). -/
def State.ordLit (s : State) : Option W32 := s.iss.ords.find? (fun p => p.1 == s.iss.slot) |>.map (fun p => p.2)

/-- The operations this word's operation waits for (R133). -/
def State.needs (s : State) : List Nat :=
  match s.ordLit with
  | some w => s.old.tokenOps s.oc.regs (ordIn w)
  | none => []

/-- Token `k` records operation `id` (R74); `ot0` records nothing. -/
def Regs.record (r : Regs) (k id : Nat) : Regs := if k = 0 then r else { r with ot := kput k id r.ot }

/-- The token that the `ord` of this slot produces records operation `id` (R133). -/
def State.produce (s : State) (id : Nat) : State :=
  match s.ordLit with
  | some w => s.modR (fun r => r.record (ordOut w) id)
  | none => s

/-- A fresh operation, in flight, with the token of this slot's `ord`. -/
def State.operation (s : State) : Nat × State :=
  let (id, m) := s.m.begin_
  (id, ({ s with m := m }).produce id)

/-- A register pending on the scoreboard (R67). -/
def State.pending (s : State) (r : RegId) : State := s.modC (fun c => { c with busy := c.busy ++ [r] })

/-- Several registers pending (R67). -/
def State.pendAll (s : State) (rs : List RegId) : State := s.modC (fun c => { c with busy := c.busy ++ rs })

/-- Pending general register; `g0` is never pending (R74). -/
def State.pendG (s : State) (n : BitVec 6) : State := if n = 0 then s else s.pending (.g n.toNat)

/-- The register is no longer pending. -/
def Ctx.settle (c : Ctx) (r : RegId) : Ctx := { c with busy := c.busy.filter (fun q => q != r) }

/-- An exposed result of `k` issues (R66): its replay entries follow those in flight. -/
def State.expose (s : State) (es : List Replay) : State := s.modC (fun c => { c with replay := c.replay ++ es })

/-! ### Registers read and written (R54, R67) -/

def gR (n : BitVec 6) : List RegId := if n = 0 then [] else [.g n.toNat]
def vR (n : BitVec 5) : List RegId := [.v n.toNat]
def mR (n : BitVec 3) : List RegId := [.m n.toNat]
def foR (n : BitVec 3) : List RegId := [.fo n.toNat]

/-- `f8` to `f15` lie outside the rule (R54). -/
def fR (n : BitVec 4) : List RegId := if n.toNat < 8 then [.f n.toNat] else []

/-- A mask register, where the form applies it (R89). -/
def maskR (m : BitVec 3) (e : BitVec 1) : List RegId := if e = 1 then [.m m.toNat] else []

/-- A system register; FL stands for `f0` to `f7` too (R326). -/
def sysR (n : BitVec 10) : List RegId :=
  if n = 0 then .sys 0 :: (List.range 8).map RegId.f else [.sys n.toNat]

/-- The flags of a mask that the rule counts (R186). -/
def flagsIn (m : BitVec 16) : List RegId := ((List.range 8).filter (fun k => m.getLsbD k)).map RegId.f

/-- The flags that a tree of `n` + 1 tests reads (R60). -/
def treeFlags (w : W32) (n : Nat) : List RegId :=
  (List.range (n + 1)).flatMap (fun i => fR (w.extractLsb' (8 * i) 4))

/-- The base register of an LG feed, whose number the literal holds at bit `lo` (R222, R226). -/
def feedR (w : W32) (lo : Nat) : List RegId := gR (w.extractLsb' lo 6)

/-- VRM, an operand of every V operation (R190); TREC (R328, R329); EXPIRY (R251). -/
abbrev vrmR : RegId := .sys 0x001
abbrev trecR : RegId := .sys 0x043
abbrev expiryR : RegId := .sys 0x013

/-- The vector and mask registers, and what else `csave` copies of the registers that the rule counts (R329). -/
def vmAll : List RegId := (List.range 32).map RegId.v ++ (List.range 8).map RegId.m
def savedAll : List RegId := vmAll ++ (List.range 72).map RegId.stride ++ (List.range 8).map RegId.fo

/-- The registers a word reads at every issue, as R54 counts them; `lit` is the literal pool of the issue. -/
def readsOf (lit : Nat → W32) : Instr → List RegId
  | .csave a => gR a ++ savedAll ++ [trecR]
  | .crest a => gR a ++ [trecR]
  | .tret => [trecR]
  | .jmpr a | .callr a | .stepr _ _ a | .ckptg a | .replayg a | .tlbinv a | .clkreq a
  | .sgjoin a | .selftest a | .pwrgive a | .pwrask a | .addS64Imm _ a _ | .andZ64Imm _ a _ | .orZ64Imm _ a _
  | .xorZ64Imm _ a _ | .shlZ64Imm _ a _ | .shrZ64Imm _ a _ | .asrS64Imm _ a _ | .bfxZ64 _ a _ | .bfxS64 _ a _
  | .cmpLtS64Imm _ a _ | .cmpEqS64Imm _ a _ | .cmpLeS64Imm _ a _ | .cmpNeS64Imm _ a _ | .cmpLtZ64Imm _ a _
  | .cmpLeZ64Imm _ a _ | .popcZ64 _ a | .clzZ64 _ a | .ctzZ64 _ a | .cvtF32S64 _ a _ | .cvtS64F32 _ a _
  | .cvtF32Z64 _ a _ | .cvtZ64F32 _ a _ | .vsetvl a | .mvfo _ a | .mvsh _ a | .shadd _ a | .ldmap _ a _ | .strays a _
  | .lnbind _ a | .lnmsg _ a | .ctset _ a => gR a
  | .br n k => treeFlags (lit k.toNat) n.toNat
  | .ret => gR 62#6
  | .loop _ g _ | .mts g _ | .movS64Push g _ | .stsZ8 _ g _ _ | .stsZ16 _ g _ _ | .stsZ32 _ g _ _ | .stsZ64 _ g _ _ => gR g
  | .waitF m => flagsIn m
  | .tail a b | .addS64 _ a b | .subS64 _ a b | .mulS64 _ a b | .mulhS64 _ a b | .mulhZ64 _ a b | .andZ64 _ a b
  | .orZ64 _ a b | .xorZ64 _ a b | .shlZ64 _ a b | .shrZ64 _ a b | .asrS64 _ a b | .minS64 _ a b | .maxS64 _ a b
  | .minZ64 _ a b | .maxZ64 _ a b | .divS64 _ a b | .divZ64 _ a b | .remS64 _ a b | .remZ64 _ a b | .cmpLtS64 _ a b
  | .cmpEqS64 _ a b | .cmpLeS64 _ a b | .cmpNeS64 _ a b | .cmpLtZ64 _ a b | .cmpLeZ64 _ a b => gR a ++ gR b
  | .mfs _ n => sysR n
  | .bfiZ64 d a _ => gR a ++ gR d
  | .fand _ a b | .fior _ a b | .fxor _ a b | .fandn _ a b => fR a ++ fR b
  | .ld _ _ _ _ => [.vl]
  | .vrandZ32 _ _ => [.vl, vrmR]
  | .st _ v _ _ | .redAddF32 v _ _ | .redMaxF32 v _ _ | .redMinF32 v _ _ | .redAddS32 v _ _ | .redMaxS32 v _ _
  | .redMinS32 v _ _ => vR v ++ [.vl]
  | .stLgC v _ _ => vR v ++ [.vl, expiryR]
  | .stm _ m _ _ => mR m
  | .ldt _ _ _ b | .aaddS64 _ _ _ b | .aminS64 _ _ _ b | .amaxS64 _ _ _ b | .aandZ64 _ _ _ b | .aorZ64 _ _ _ b
  | .axorZ64 _ _ _ b | .aswpZ64 _ _ _ b | .waita _ b _ _ => gR b
  | .stt _ v _ b => gR b ++ vR v
  | .acasZ64 _ d _ b => gR b ++ gR d
  | .stLgK v _ c k => vR v ++ [.vl, expiryR] ++ [.ct c.toNat] ++ [.ct k.toNat]
  | .waitany _ _ d _ | .xsend _ _ d | .xsendLk _ _ d | .xmcast _ _ d | .xmcastLk _ _ d | .xredAddF32 _ _ d
  | .xredMaxF32 _ _ d | .xredMinF32 _ _ d | .xredAddBf16 _ _ d | .xredAddS32 _ _ d | .xredMaxS32 _ _ d => gR d
  | .vaddF32 _ a b m e | .vsubF32 _ a b m e | .vmulF32 _ a b m e | .vminF32 _ a b m e | .vmaxF32 _ a b m e
  | .vaddBf16 _ a b m e | .vsubBf16 _ a b m e | .vmulBf16 _ a b m e | .vminBf16 _ a b m e | .vmaxBf16 _ a b m e
  | .vaddF16 _ a b m e | .vsubF16 _ a b m e | .vmulF16 _ a b m e | .vminF16 _ a b m e | .vmaxF16 _ a b m e
  | .vdivF32 _ a b m e => vR a ++ vR b ++ [.vl] ++ maskR m e ++ [vrmR]
  | .vfmaF32 d a b m e | .vfmaBf16 d a b m e | .vfmaF16 d a b m e => vR a ++ vR b ++ vR d ++ [.vl] ++ maskR m e ++ [vrmR]
  | .vsqrtF32 _ a m e | .vrsumF32 _ a m e | .vrmaxF32 _ a m e | .vrminF32 _ a m e | .vrsumS32 _ a m e => vR a ++ [.vl] ++ maskR m e ++ [vrmR]
  | .vabsF32 _ a m e | .vnegF32 _ a m e | .vnotZ32 _ a m e | .vmov _ a m e => vR a ++ [.vl, vrmR] ++ maskR m e
  | .vaddS32 _ a b m e | .vsubS32 _ a b m e | .vmulS32 _ a b m e | .vmulhS32 _ a b m e | .vminS32 _ a b m e
  | .vmaxS32 _ a b m e | .vminZ32 _ a b m e | .vmaxZ32 _ a b m e | .vandZ32 _ a b m e | .vorZ32 _ a b m e
  | .vxorZ32 _ a b m e | .vshlZ32 _ a b m e | .vshrZ32 _ a b m e | .vasrS32 _ a b m e | .vcmpLtF32 _ a b m e
  | .vcmpLeF32 _ a b m e | .vcmpEqF32 _ a b m e | .vcmpLtS32 _ a b m e | .vcmpEqS32 _ a b m e | .vcmpLtZ32 _ a b m e
  | .vperm _ a b m e => vR a ++ vR b ++ [.vl, vrmR] ++ maskR m e
  | .vmand _ a b | .vmor _ a b | .vmxor _ a b => mR a ++ mR b ++ [vrmR]
  | .vmnot _ a => mR a ++ [vrmR]
  | .vsel _ a b m => vR a ++ vR b ++ mR m ++ [.vl, vrmR]
  | .vbcast _ a => gR a ++ [.vl, vrmR]
  | .vext _ a b => vR a ++ gR b ++ [vrmR]
  | .vins d a b => gR a ++ gR b ++ vR d ++ [vrmR]
  | .vtr32 _ a | .vzord _ a | .vrowm _ a => vR a ++ [vrmR]
  | .vaccF32 d _ _ => vR d ++ [.vl] ++ [vrmR]
  | .qmaxF32 s _ | .qmaxBf16 s _ | .qmaxF16 s _ => vR s
  | .qcvtE4m3 _ v _ _ _ _ _ | .qcvtE5m2 _ v _ _ _ _ _ | .qcvtE2m1 _ v _ _ _ _ _ | .qcvtS8 _ v _ _ _ _ _
  | .qcvtBp8 _ v _ _ _ _ _ | .qin _ v | .awrF32 v _ _ | .awrS32 v _ _ => vR v
  | .cvtBf16F32 _ s _ _ | .cvtF16F32 _ s _ _ | .cvtF32Bf16 _ s | .cvtF32F16 _ s | .cvtF32S32 _ s _ _
  | .cvtS32F32 _ s _ _ => vR s ++ [.vl]
  | .ldbS8 _ o | .ldbBf16 _ o | .ldbE4m3 _ o | .ldbE5m2 _ o | .ldbE2m1 _ o | .mmBp2 _ _ o _ _ | .mmBp3 _ _ o _ _
  | .mmBp4 _ _ o _ _ | .mmBp5 _ _ o _ _ | .mmBp6 _ _ o _ _ | .mmBp7 _ _ o _ _ | .mmBp8 _ _ o _ _ | .mmBf16 _ _ o _ _
  | .ldcv _ o | .ldbm _ o => foR o
  | .mmx _ _ o k _ => foR o ++ feedR (lit k.toNat) 26
  | .dmm _ _ o _ k _ _ | .dmmr _ _ o _ k _ _ => foR o ++ feedR (lit k.toNat) 2
  | .addfo o a => gR a ++ foR o
  | .nop | .jmp _ | .call _ | .loopi _ _ _ | .step _ _ _ | .ord _ _ | .tbar | .endCtx | .trap _ | .tlbinva
  | .enrd _ _ | .sgleave | .irq _ | .brk | .launch _ | .waitrun _ _ | .signal _ _ _ | .fence | .liS64 _ _ | .li64 _ _
  | .fset _ | .fclr _ | .movS64Pop _ _ | .ldm _ _ _ _ | .pfLg _ _ | .ldsS8 _ _ _ _ | .ldsZ8 _ _ _ _ | .ldsS16 _ _ _ _
  | .ldsZ16 _ _ _ _ | .ldsS32 _ _ _ _ | .ldsZ32 _ _ _ _ | .ldsS64 _ _ _ _ | .barWait _ _ _ _ | .barArrive _ _ _
  | .barInit _ _ _ _ | .barExp _ _ _ _ | .drain | .qmvsc _ _ | .qdqE4m3 _ _ _ _ _ _ _ | .qdqE5m2 _ _ _ _ _ _ _
  | .qdqE2m1 _ _ _ _ _ _ _ | .qdqS8 _ _ _ _ _ _ _ | .qdqBp8 _ _ _ _ _ _ _ | .qrot | .qout _ _ | .ldsc _ _ _
  | .ldscB _ _ _ | .stsc _ _ _ | .dtap _ _ _ | .ardF32 _ _ _ | .ardS32 _ _ _ | .aclr _ | .aexp _ _ _ | .lish _ _
  | .swapmap _ _ _ | .retiremap _ _ | .lnfree _ | .ctclr _ | .append _ _ | .windowLoad _ _ | .windowStore _ _
  | .registerWrite _ _ | .sstatWrite _ _ | .sheadWrite _ _ | .sseqWrite _ _ | .sendWrite _ _ | .partitionWrite _ _
  | .configurationWrite _ _ | .counterClear _ _ | .grantWrite _ _ | .endRun _ _ | .shareWindowWrite _ _
  | .scratchpadClaim _ | .interruptVectorWrite _ | .strayFree _ | .runPlacement _ | .runStart _ | .waitrunDone _
  | .fenceDone _ | .signalStorePerformed _ | .runRetire _ | .deferredStreamFault _ | .retiredMapsEmpty _ | .preempt _
  | .contextResume _ | .spinWake _ | .barWaitWake _ | .waitanyWake _ | .waitaWake _ | .waitWake _ | .tbarRelease _ _
  | .bufferFullCheckpoint _ _ | .generatorBarrierRelease _ _ | .faultDelivery _ _ | .loadDataReturn _
  | .engineBegin _ | .vOpComplete _ | .qcOpComplete _ | .mOpComplete _ | .localPerform _ | .homePerform _
  | .lgReadPerform _ | .lgAtomicPerform _ | .drainComplete _ | .pageWalkComplete _ _ _ | .bolterBlockVerify _
  | .dataPacketArrive _ | .endMarkerArrive _ | .endMarkerApply _ | .transferAck _ _ _ | .mapInstall _ | .mapSwap _
  | .mapRetire _ | .undeliverableNotice _ | .flitReceive _ _ | .linkReplayRequest _ _ | .packetForward _
  | .remoteRequestArrive _ | .remoteReplyArrive _ _ _ _ _ | .remoteRequestTimeout _ _ | .linkPushDepart _ _
  | .linkWordArrive _ | .linkRequestServe _ | .linkReplyArrive _ _ _ _ | .linkRequestTimeout _ _ _
  | .causalStorePerform _ | .landingNotice _ | .carrierArrive _ | .carrierEnterSluice | .causalQuery _ _
  | .answerLanded _ _ | .answerLost _ _ | .carrierDeadline _ | .ownEntryDeadline _ | .expiryNotice _ _
  | .landedRecordExpiry _ _ | .reductionContributionArrive _ | .reductionSlotApply _ | .xredContributionArrive _
  | .xredSlotDeadline _ | .reductionSlotAdmit | .ftimeAdjust _ | .clockLimitChange _ | .groupLimitReport _ _ _ _
  | .groupClockAnnounce _ _ _ | .groupClockSwitch _ | .grantUnitsArrive _ _ | .powerAskArrive _ _
  | .grantUnitsReturned _ | .powerPeriod | .energyPeriod | .deviceReset _ | .lifeCycleChange _ _
  | .linkAttestation _ _ | .memoryError _ _ _ _ _ | .targetedSelfTest _ _ | .wipeFinish | .linkRetrainDone _ => []

/-- The registers that form a word's running address, read only where the address is formed afresh (R49). -/
def addrReadsOf : Instr → List RegId
  | .ld _ _ a _ | .st _ _ a _ | .ldm _ _ a _ | .stm _ _ a _ | .pfLg a _ | .ldt _ _ a _ | .stt _ _ a _
  | .ldsS8 _ _ a _ | .ldsZ8 _ _ a _ | .ldsS16 _ _ a _ | .ldsZ16 _ _ a _ | .ldsS32 _ _ a _ | .ldsZ32 _ _ a _
  | .ldsS64 _ _ a _ | .stsZ8 _ _ a _ | .stsZ16 _ _ a _ | .stsZ32 _ _ a _ | .stsZ64 _ _ a _ | .aaddS64 _ _ a _
  | .aminS64 _ _ a _ | .amaxS64 _ _ a _ | .aandZ64 _ _ a _ | .aorZ64 _ _ a _ | .axorZ64 _ _ a _ | .aswpZ64 _ _ a _
  | .acasZ64 _ _ a _ | .redAddF32 _ a _ | .redMaxF32 _ a _ | .redMinF32 _ a _ | .redAddS32 _ a _ | .redMaxS32 _ a _
  | .redMinS32 _ a _ | .stLgC _ a _ | .stLgK _ a _ _ | .barWait _ a _ _ | .barArrive _ a _ | .barInit _ a _ _
  | .barExp _ a _ _ | .waitany _ a _ _ | .waita _ _ a _ | .ldsc _ a _ | .ldscB _ a _ | .stsc _ a _ => gR a
  | .nop | .jmp _ | .call _ | .jmpr _ | .br _ _ | .callr _ | .ret | .loop _ _ _ | .loopi _ _ _ | .step _ _ _
  | .stepr _ _ _ | .ord _ _ | .waitF _ | .tbar | .tail _ _ | .endCtx | .mfs _ _ | .mts _ _ | .trap _ | .tret
  | .csave _ | .crest _ | .ckptg _ | .replayg _ | .tlbinv _ | .tlbinva | .enrd _ _ | .clkreq _ | .sgjoin _ | .sgleave
  | .selftest _ | .irq _ | .brk | .pwrgive _ | .pwrask _ | .launch _ | .waitrun _ _ | .signal _ _ _ | .fence
  | .addS64 _ _ _ | .subS64 _ _ _ | .mulS64 _ _ _ | .mulhS64 _ _ _ | .mulhZ64 _ _ _ | .andZ64 _ _ _ | .orZ64 _ _ _
  | .addS64Imm _ _ _ | .andZ64Imm _ _ _ | .orZ64Imm _ _ _ | .xorZ64Imm _ _ _ | .liS64 _ _ | .li64 _ _ | .xorZ64 _ _ _
  | .shlZ64Imm _ _ _ | .shrZ64Imm _ _ _ | .asrS64Imm _ _ _ | .shlZ64 _ _ _ | .shrZ64 _ _ _ | .asrS64 _ _ _
  | .minS64 _ _ _ | .maxS64 _ _ _ | .minZ64 _ _ _ | .maxZ64 _ _ _ | .divS64 _ _ _ | .divZ64 _ _ _ | .remS64 _ _ _
  | .remZ64 _ _ _ | .bfxZ64 _ _ _ | .bfxS64 _ _ _ | .cmpLtS64 _ _ _ | .cmpEqS64 _ _ _ | .cmpLeS64 _ _ _
  | .cmpNeS64 _ _ _ | .cmpLtZ64 _ _ _ | .cmpLeZ64 _ _ _ | .bfiZ64 _ _ _ | .cmpLtS64Imm _ _ _ | .cmpEqS64Imm _ _ _
  | .cmpLeS64Imm _ _ _ | .cmpNeS64Imm _ _ _ | .cmpLtZ64Imm _ _ _ | .cmpLeZ64Imm _ _ _ | .fand _ _ _ | .fior _ _ _
  | .fxor _ _ _ | .fandn _ _ _ | .fset _ | .fclr _ | .movS64Pop _ _ | .movS64Push _ _ | .popcZ64 _ _ | .clzZ64 _ _
  | .ctzZ64 _ _ | .cvtF32S64 _ _ _ | .cvtS64F32 _ _ _ | .cvtF32Z64 _ _ _ | .cvtZ64F32 _ _ _ | .drain
  | .vaddF32 _ _ _ _ _ | .vsubF32 _ _ _ _ _ | .vmulF32 _ _ _ _ _ | .vfmaF32 _ _ _ _ _ | .vminF32 _ _ _ _ _
  | .vmaxF32 _ _ _ _ _ | .vaddBf16 _ _ _ _ _ | .vsubBf16 _ _ _ _ _ | .vmulBf16 _ _ _ _ _ | .vfmaBf16 _ _ _ _ _
  | .vminBf16 _ _ _ _ _ | .vmaxBf16 _ _ _ _ _ | .vaddF16 _ _ _ _ _ | .vsubF16 _ _ _ _ _ | .vmulF16 _ _ _ _ _
  | .vfmaF16 _ _ _ _ _ | .vminF16 _ _ _ _ _ | .vmaxF16 _ _ _ _ _ | .vdivF32 _ _ _ _ _ | .vsqrtF32 _ _ _ _
  | .vabsF32 _ _ _ _ | .vnegF32 _ _ _ _ | .vaddS32 _ _ _ _ _ | .vsubS32 _ _ _ _ _ | .vmulS32 _ _ _ _ _
  | .vmulhS32 _ _ _ _ _ | .vminS32 _ _ _ _ _ | .vmaxS32 _ _ _ _ _ | .vminZ32 _ _ _ _ _ | .vmaxZ32 _ _ _ _ _
  | .vandZ32 _ _ _ _ _ | .vorZ32 _ _ _ _ _ | .vxorZ32 _ _ _ _ _ | .vshlZ32 _ _ _ _ _ | .vshrZ32 _ _ _ _ _
  | .vasrS32 _ _ _ _ _ | .vnotZ32 _ _ _ _ | .vcmpLtF32 _ _ _ _ _ | .vcmpLeF32 _ _ _ _ _ | .vcmpEqF32 _ _ _ _ _
  | .vcmpLtS32 _ _ _ _ _ | .vcmpEqS32 _ _ _ _ _ | .vcmpLtZ32 _ _ _ _ _ | .vmand _ _ _ | .vmor _ _ _ | .vmxor _ _ _
  | .vmnot _ _ | .vsel _ _ _ _ | .vperm _ _ _ _ _ | .vbcast _ _ | .vext _ _ _ | .vins _ _ _ | .vtr32 _ _ | .vzord _ _
  | .vrowm _ _ | .vrsumF32 _ _ _ _ | .vrmaxF32 _ _ _ _ | .vrminF32 _ _ _ _ | .vrsumS32 _ _ _ _ | .vrandZ32 _ _
  | .vsetvl _ | .vmov _ _ _ _ | .vaccF32 _ _ _ | .qmaxF32 _ _ | .qmaxBf16 _ _ | .qmaxF16 _ _ | .qmvsc _ _
  | .qcvtE4m3 _ _ _ _ _ _ _ | .qcvtE5m2 _ _ _ _ _ _ _ | .qcvtE2m1 _ _ _ _ _ _ _ | .qcvtS8 _ _ _ _ _ _ _
  | .qcvtBp8 _ _ _ _ _ _ _ | .qdqE4m3 _ _ _ _ _ _ _ | .qdqE5m2 _ _ _ _ _ _ _ | .qdqE2m1 _ _ _ _ _ _ _
  | .qdqS8 _ _ _ _ _ _ _ | .qdqBp8 _ _ _ _ _ _ _ | .qrot | .qin _ _ | .qout _ _ | .cvtBf16F32 _ _ _ _
  | .cvtF16F32 _ _ _ _ | .cvtF32Bf16 _ _ | .cvtF32F16 _ _ | .cvtF32S32 _ _ _ _ | .cvtS32F32 _ _ _ _ | .ldbS8 _ _
  | .ldbBf16 _ _ | .ldbE4m3 _ _ | .ldbE5m2 _ _ | .ldbE2m1 _ _ | .mmBp2 _ _ _ _ _ | .mmBp3 _ _ _ _ _
  | .mmBp4 _ _ _ _ _ | .mmBp5 _ _ _ _ _ | .mmBp6 _ _ _ _ _ | .mmBp7 _ _ _ _ _ | .mmBp8 _ _ _ _ _ | .mmBf16 _ _ _ _ _
  | .mmx _ _ _ _ _ | .dmm _ _ _ _ _ _ _ | .dmmr _ _ _ _ _ _ _ | .dtap _ _ _ | .ardF32 _ _ _ | .ardS32 _ _ _
  | .awrF32 _ _ _ | .awrS32 _ _ _ | .aclr _ | .aexp _ _ _ | .ldcv _ _ | .ldbm _ _ | .mvfo _ _ | .addfo _ _
  | .mvsh _ _ | .shadd _ _ | .lish _ _ | .xsend _ _ _ | .xsendLk _ _ _ | .xmcast _ _ _ | .xmcastLk _ _ _
  | .xredAddF32 _ _ _ | .xredMaxF32 _ _ _ | .xredMinF32 _ _ _ | .xredAddBf16 _ _ _ | .xredAddS32 _ _ _
  | .xredMaxS32 _ _ _ | .ldmap _ _ _ | .swapmap _ _ _ | .retiremap _ _ | .strays _ _ | .lnbind _ _ | .lnfree _
  | .lnmsg _ _ | .ctset _ _ | .ctclr _ | .append _ _ | .windowLoad _ _ | .windowStore _ _ | .registerWrite _ _
  | .sstatWrite _ _ | .sheadWrite _ _ | .sseqWrite _ _ | .sendWrite _ _ | .partitionWrite _ _
  | .configurationWrite _ _ | .counterClear _ _ | .grantWrite _ _ | .endRun _ _ | .shareWindowWrite _ _
  | .scratchpadClaim _ | .interruptVectorWrite _ | .strayFree _ | .runPlacement _ | .runStart _ | .waitrunDone _
  | .fenceDone _ | .signalStorePerformed _ | .runRetire _ | .deferredStreamFault _ | .retiredMapsEmpty _ | .preempt _
  | .contextResume _ | .spinWake _ | .barWaitWake _ | .waitanyWake _ | .waitaWake _ | .waitWake _ | .tbarRelease _ _
  | .bufferFullCheckpoint _ _ | .generatorBarrierRelease _ _ | .faultDelivery _ _ | .loadDataReturn _
  | .engineBegin _ | .vOpComplete _ | .qcOpComplete _ | .mOpComplete _ | .localPerform _ | .homePerform _
  | .lgReadPerform _ | .lgAtomicPerform _ | .drainComplete _ | .pageWalkComplete _ _ _ | .bolterBlockVerify _
  | .dataPacketArrive _ | .endMarkerArrive _ | .endMarkerApply _ | .transferAck _ _ _ | .mapInstall _ | .mapSwap _
  | .mapRetire _ | .undeliverableNotice _ | .flitReceive _ _ | .linkReplayRequest _ _ | .packetForward _
  | .remoteRequestArrive _ | .remoteReplyArrive _ _ _ _ _ | .remoteRequestTimeout _ _ | .linkPushDepart _ _
  | .linkWordArrive _ | .linkRequestServe _ | .linkReplyArrive _ _ _ _ | .linkRequestTimeout _ _ _
  | .causalStorePerform _ | .landingNotice _ | .carrierArrive _ | .carrierEnterSluice | .causalQuery _ _
  | .answerLanded _ _ | .answerLost _ _ | .carrierDeadline _ | .ownEntryDeadline _ | .expiryNotice _ _
  | .landedRecordExpiry _ _ | .reductionContributionArrive _ | .reductionSlotApply _ | .xredContributionArrive _
  | .xredSlotDeadline _ | .reductionSlotAdmit | .ftimeAdjust _ | .clockLimitChange _ | .groupLimitReport _ _ _ _
  | .groupClockAnnounce _ _ _ | .groupClockSwitch _ | .grantUnitsArrive _ _ | .powerAskArrive _ _
  | .grantUnitsReturned _ | .powerPeriod | .energyPeriod | .deviceReset _ | .lifeCycleChange _ _
  | .linkAttestation _ _ | .memoryError _ _ _ _ _ | .targetedSelfTest _ _ | .wipeFinish | .linkRetrainDone _ => []

/-- The registers a word writes, as R54 counts them. -/
def writesOf : Instr → List RegId
  | .step s v _ | .stepr s v _ => [.stride (6 * s.toNat + v.toNat)]
  | .mfs g _ | .movS64Pop g _ | .ldsS8 _ g _ _ | .ldsZ8 _ g _ _ | .ldsS16 _ g _ _ | .ldsZ16 _ g _ _ | .ldsS32 _ g _ _
  | .ldsZ32 _ g _ _ | .ldsS64 _ g _ _ | .vext g _ _ => gR g
  | .mts _ n => sysR n
  | .enrd d _ | .addS64 d _ _ | .subS64 d _ _ | .mulS64 d _ _ | .mulhS64 d _ _ | .mulhZ64 d _ _ | .andZ64 d _ _
  | .orZ64 d _ _ | .addS64Imm d _ _ | .andZ64Imm d _ _ | .orZ64Imm d _ _ | .xorZ64Imm d _ _ | .liS64 d _ | .li64 d _
  | .xorZ64 d _ _ | .shlZ64Imm d _ _ | .shrZ64Imm d _ _ | .asrS64Imm d _ _ | .shlZ64 d _ _ | .shrZ64 d _ _
  | .asrS64 d _ _ | .minS64 d _ _ | .maxS64 d _ _ | .minZ64 d _ _ | .maxZ64 d _ _ | .divS64 d _ _ | .divZ64 d _ _
  | .remS64 d _ _ | .remZ64 d _ _ | .bfxZ64 d _ _ | .bfxS64 d _ _ | .bfiZ64 d _ _ | .popcZ64 d _ | .clzZ64 d _
  | .ctzZ64 d _ | .cvtF32S64 d _ _ | .cvtS64F32 d _ _ | .cvtF32Z64 d _ _ | .cvtZ64F32 d _ _ | .aaddS64 _ d _ _
  | .aminS64 _ d _ _ | .amaxS64 _ d _ _ | .aandZ64 _ d _ _ | .aorZ64 _ d _ _ | .axorZ64 _ d _ _ | .aswpZ64 _ d _ _
  | .acasZ64 _ d _ _ | .waitany _ _ d _ => gR d
  | .selftest a => gR a
  | .cmpLtS64 c _ _ | .cmpEqS64 c _ _ | .cmpLeS64 c _ _ | .cmpNeS64 c _ _ | .cmpLtZ64 c _ _ | .cmpLeZ64 c _ _
  | .cmpLtS64Imm c _ _ | .cmpEqS64Imm c _ _ | .cmpLeS64Imm c _ _ | .cmpNeS64Imm c _ _ | .cmpLtZ64Imm c _ _
  | .cmpLeZ64Imm c _ _ | .fand c _ _ | .fior c _ _ | .fxor c _ _ | .fandn c _ _ | .fset c | .fclr c => fR c
  | .ld _ v _ _ | .ldt _ v _ _ | .qdqE4m3 _ v _ _ _ _ _ | .qdqE5m2 _ v _ _ _ _ _ | .qdqE2m1 _ v _ _ _ _ _
  | .qdqS8 _ v _ _ _ _ _ | .qdqBp8 _ v _ _ _ _ _ | .qout _ v | .dtap v _ _ | .ardF32 v _ _ | .ardS32 v _ _
  | .aexp v _ _ => vR v
  | .ldm _ m _ _ => mR m
  | .crest _ => vmAll
  | .stLgC _ _ c => [.ct c.toNat]
  | .vaddF32 d _ _ _ _ | .vsubF32 d _ _ _ _ | .vmulF32 d _ _ _ _ | .vfmaF32 d _ _ _ _ | .vminF32 d _ _ _ _
  | .vmaxF32 d _ _ _ _ | .vaddBf16 d _ _ _ _ | .vsubBf16 d _ _ _ _ | .vmulBf16 d _ _ _ _ | .vfmaBf16 d _ _ _ _
  | .vminBf16 d _ _ _ _ | .vmaxBf16 d _ _ _ _ | .vaddF16 d _ _ _ _ | .vsubF16 d _ _ _ _ | .vmulF16 d _ _ _ _
  | .vfmaF16 d _ _ _ _ | .vminF16 d _ _ _ _ | .vmaxF16 d _ _ _ _ | .vdivF32 d _ _ _ _ | .vsqrtF32 d _ _ _
  | .vabsF32 d _ _ _ | .vnegF32 d _ _ _ | .vaddS32 d _ _ _ _ | .vsubS32 d _ _ _ _ | .vmulS32 d _ _ _ _
  | .vmulhS32 d _ _ _ _ | .vminS32 d _ _ _ _ | .vmaxS32 d _ _ _ _ | .vminZ32 d _ _ _ _ | .vmaxZ32 d _ _ _ _
  | .vandZ32 d _ _ _ _ | .vorZ32 d _ _ _ _ | .vxorZ32 d _ _ _ _ | .vshlZ32 d _ _ _ _ | .vshrZ32 d _ _ _ _
  | .vasrS32 d _ _ _ _ | .vnotZ32 d _ _ _ | .vsel d _ _ _ | .vperm d _ _ _ _ | .vbcast d _ | .vins d _ _ | .vtr32 d _
  | .vzord d _ | .vrowm d _ | .vrsumF32 d _ _ _ | .vrmaxF32 d _ _ _ | .vrminF32 d _ _ _ | .vrsumS32 d _ _ _
  | .vrandZ32 d _ | .vmov d _ _ _ | .vaccF32 d _ _ | .cvtBf16F32 d _ _ _ | .cvtF16F32 d _ _ _ | .cvtF32Bf16 d _
  | .cvtF32F16 d _ | .cvtF32S32 d _ _ _ | .cvtS32F32 d _ _ _ => vR d
  | .vcmpLtF32 c _ _ _ _ | .vcmpLeF32 c _ _ _ _ | .vcmpEqF32 c _ _ _ _ | .vcmpLtS32 c _ _ _ _ | .vcmpEqS32 c _ _ _ _
  | .vcmpLtZ32 c _ _ _ _ | .vmand c _ _ | .vmor c _ _ | .vmxor c _ _ | .vmnot c _ => mR c
  | .vsetvl _ => [.vl]
  | .mvfo o _ | .addfo o _ => foR o
  | .nop | .jmp _ | .call _ | .jmpr _ | .br _ _ | .callr _ | .ret | .loop _ _ _ | .loopi _ _ _ | .ord _ _ | .waitF _
  | .tbar | .tail _ _ | .endCtx | .trap _ | .tret | .csave _ | .ckptg _ | .replayg _ | .tlbinv _
  | .tlbinva | .clkreq _ | .sgjoin _ | .sgleave | .irq _ | .brk | .pwrgive _ | .pwrask _ | .launch _ | .waitrun _ _
  | .signal _ _ _ | .fence | .movS64Push _ _ | .st _ _ _ _ | .stm _ _ _ _ | .pfLg _ _ | .stt _ _ _ _ | .stsZ8 _ _ _ _
  | .stsZ16 _ _ _ _ | .stsZ32 _ _ _ _ | .stsZ64 _ _ _ _ | .redAddF32 _ _ _ | .redMaxF32 _ _ _ | .redMinF32 _ _ _
  | .redAddS32 _ _ _ | .redMaxS32 _ _ _ | .redMinS32 _ _ _ | .stLgK _ _ _ _ | .barWait _ _ _ _ | .barArrive _ _ _
  | .barInit _ _ _ _ | .barExp _ _ _ _ | .waita _ _ _ _ | .drain | .qmaxF32 _ _ | .qmaxBf16 _ _ | .qmaxF16 _ _
  | .qmvsc _ _ | .qcvtE4m3 _ _ _ _ _ _ _ | .qcvtE5m2 _ _ _ _ _ _ _ | .qcvtE2m1 _ _ _ _ _ _ _ | .qcvtS8 _ _ _ _ _ _ _
  | .qcvtBp8 _ _ _ _ _ _ _ | .qrot | .qin _ _ | .ldsc _ _ _ | .ldscB _ _ _ | .stsc _ _ _ | .ldbS8 _ _ | .ldbBf16 _ _
  | .ldbE4m3 _ _ | .ldbE5m2 _ _ | .ldbE2m1 _ _ | .mmBp2 _ _ _ _ _ | .mmBp3 _ _ _ _ _ | .mmBp4 _ _ _ _ _
  | .mmBp5 _ _ _ _ _ | .mmBp6 _ _ _ _ _ | .mmBp7 _ _ _ _ _ | .mmBp8 _ _ _ _ _ | .mmBf16 _ _ _ _ _ | .mmx _ _ _ _ _
  | .dmm _ _ _ _ _ _ _ | .dmmr _ _ _ _ _ _ _ | .awrF32 _ _ _ | .awrS32 _ _ _ | .aclr _ | .ldcv _ _ | .ldbm _ _
  | .mvsh _ _ | .shadd _ _ | .lish _ _ | .xsend _ _ _ | .xsendLk _ _ _ | .xmcast _ _ _ | .xmcastLk _ _ _
  | .xredAddF32 _ _ _ | .xredMaxF32 _ _ _ | .xredMinF32 _ _ _ | .xredAddBf16 _ _ _ | .xredAddS32 _ _ _
  | .xredMaxS32 _ _ _ | .ldmap _ _ _ | .swapmap _ _ _ | .retiremap _ _ | .strays _ _ | .lnbind _ _ | .lnfree _
  | .lnmsg _ _ | .ctset _ _ | .ctclr _ | .append _ _ | .windowLoad _ _ | .windowStore _ _ | .registerWrite _ _
  | .sstatWrite _ _ | .sheadWrite _ _ | .sseqWrite _ _ | .sendWrite _ _ | .partitionWrite _ _
  | .configurationWrite _ _ | .counterClear _ _ | .grantWrite _ _ | .endRun _ _ | .shareWindowWrite _ _
  | .scratchpadClaim _ | .interruptVectorWrite _ | .strayFree _ | .runPlacement _ | .runStart _ | .waitrunDone _
  | .fenceDone _ | .signalStorePerformed _ | .runRetire _ | .deferredStreamFault _ | .retiredMapsEmpty _ | .preempt _
  | .contextResume _ | .spinWake _ | .barWaitWake _ | .waitanyWake _ | .waitaWake _ | .waitWake _ | .tbarRelease _ _
  | .bufferFullCheckpoint _ _ | .generatorBarrierRelease _ _ | .faultDelivery _ _ | .loadDataReturn _
  | .engineBegin _ | .vOpComplete _ | .qcOpComplete _ | .mOpComplete _ | .localPerform _ | .homePerform _
  | .lgReadPerform _ | .lgAtomicPerform _ | .drainComplete _ | .pageWalkComplete _ _ _ | .bolterBlockVerify _
  | .dataPacketArrive _ | .endMarkerArrive _ | .endMarkerApply _ | .transferAck _ _ _ | .mapInstall _ | .mapSwap _
  | .mapRetire _ | .undeliverableNotice _ | .flitReceive _ _ | .linkReplayRequest _ _ | .packetForward _
  | .remoteRequestArrive _ | .remoteReplyArrive _ _ _ _ _ | .remoteRequestTimeout _ _ | .linkPushDepart _ _
  | .linkWordArrive _ | .linkRequestServe _ | .linkReplyArrive _ _ _ _ | .linkRequestTimeout _ _ _
  | .causalStorePerform _ | .landingNotice _ | .carrierArrive _ | .carrierEnterSluice | .causalQuery _ _
  | .answerLanded _ _ | .answerLost _ _ | .carrierDeadline _ | .ownEntryDeadline _ | .expiryNotice _ _
  | .landedRecordExpiry _ _ | .reductionContributionArrive _ | .reductionSlotApply _ | .xredContributionArrive _
  | .xredSlotDeadline _ | .reductionSlotAdmit | .ftimeAdjust _ | .clockLimitChange _ | .groupLimitReport _ _ _ _
  | .groupClockAnnounce _ _ _ | .groupClockSwitch _ | .grantUnitsArrive _ _ | .powerAskArrive _ _
  | .grantUnitsReturned _ | .powerPeriod | .energyPeriod | .deviceReset _ | .lifeCycleChange _ _
  | .linkAttestation _ _ | .memoryError _ _ _ _ _ | .targetedSelfTest _ _ | .wipeFinish | .linkRetrainDone _ => []

end Sys2Proof.Machine
end

