-- ==== Sys2Proof/Machine/Checks.lean ====
section
/-! DEFINITION. The checks of R99 that come after a word is decoded: literal contents (check 3) and what depends on the
context (check 4): restrictions of repeats and delay issues, resource names, privilege, and operand values. Every meaning
begins with `State.guard`, and the step makes the same checks over all slots before any word acts (R310). -/

namespace Sys2Proof.Machine

/-- A check that failed: the cause and the check of R99 to report (R309). -/
abbrev Fail := Cause × Nat

/-- The illegal-encoding trap of check `k`. -/
def State.ill (s : State) (k : Nat) : Fail := ({ code := 0x01, sub := 0, addr := s.iss.addr }, k)

/-- The privileged-instruction trap (R78, R84). -/
def State.priv (s : State) : Fail := ({ code := 0x02, sub := 0, addr := s.iss.addr }, 0)

/-! ### Check 3 -/

/-- Stones selected by a mask (R221). -/
def stonesIn (m : BitVec 4) : List Nat := (List.range 4).filter (fun k => m.getLsbD k)

/-- The tree of R60 over the literals at `k`: unused test bytes and reserved bits zero, leaf modes 0 or 1. -/
def treeOk (lit : Nat → W32) (k n : Nat) : Bool :=
  (List.range 4).all (fun i => if i ≤ n then (lit k).extractLsb' (8 * i + 4) 3 == 0 else (lit k).extractLsb' (8 * i) 8 == 0) &&
    (List.range (n + 2)).all (fun j =>
      let w := lit (k + 1 + j)
      w.extractLsb' 0 2 == 1 || w == 0)

/-- The bit-field literal of R85. -/
def fieldOk (w : W32) : Bool := w.extractLsb' 12 20 == 0 && (w.extractLsb' 0 6).toNat + (w.extractLsb' 6 6).toNat + 1 ≤ 64

/-- The CO literal of R83; a word of slot X takes no token from it. -/
def ordOk (s : BitVec 4) (w : W32) : Bool := w.extractLsb' 25 7 == 0 && w.extractLsb' 0 5 == 0 && (s != 11 || w.extractLsb' 20 5 == 0)

/-- A feed's plane count and stored planes (R105, R222, R224): `bf` says that nine planes stand for `.bf16`. -/
def planesOk (pl ps : Nat) : Bool := if pl == 9 then ps == 0 else 2 ≤ pl && pl ≤ 8 && 1 ≤ ps && pl ≤ ps + 1

/-- The `mmx` literal of R222 for the stone mask `m` (R224). -/
def mmxOk (m : BitVec 4) (w : W32) : Bool :=
  let mr := (w.extractLsb' 20 6).toNat
  let pl := (w.extractLsb' 6 4).toNat
  mr ≤ 32 && (w.extractLsb' 15 5).toNat ≤ 16 && (w.extractLsb' 10 5).toNat ≤ 16 && planesOk pl (w.extractLsb' 3 3).toNat &&
    (!w.getLsbD 2 || (pl != 9 && 16 * mr * (stonesIn m).length ≤ 128 * (16 - 4 * (w.extractLsb' 0 2).toNat)))

/-- The `dmm` literal of R226 for tile `t`. -/
def dmmOk (t : BitVec 3) (tap : BitVec 1) (w : W32) : Bool :=
  let pl := (w.extractLsb' 11 4).toNat
  (w.extractLsb' 26 6).toNat ≤ 32 && w.extractLsb' 0 2 == 0 && pl != 9 && planesOk pl (w.extractLsb' 8 3).toNat &&
    (if tap = 1 then w.extractLsb' 23 3 != t else w.extractLsb' 23 3 == 0)

/-- The `dmmr` literal of R226 and R228 for tile `t` and the stone mask `m`. -/
def dmmrOk (t : BitVec 3) (m : BitVec 4) (w : W32) : Bool :=
  let mr := (w.extractLsb' 26 6).toNat
  mr ≤ 32 && mr * (stonesIn m).length ≤ 32 && w.extractLsb' 0 2 == 0 && w.extractLsb' 11 4 == 9 && w.extractLsb' 8 3 == 0 &&
    w.extractLsb' 15 8 == 0 && w.extractLsb' 23 3 != t

/-- Check 3 for a word under a pool of `n` literals (R46, R97). -/
def litsOk (lit : Nat → W32) (n : Nat) : Instr → Bool
  | .br t k => k.toNat + t.toNat + 3 ≤ n && treeOk lit k.toNat t.toNat
  | .ord s k => k.toNat + 1 ≤ n && ordOk s (lit k.toNat)
  | .liS64 _ k | .barInit _ _ _ k | .barExp _ _ _ k => k.toNat + 1 ≤ n
  | .bfxZ64 _ _ k | .bfxS64 _ _ k | .bfiZ64 _ _ k => k.toNat + 1 ≤ n && fieldOk (lit k.toNat)
  | .li64 _ k | .lish _ k | .waitrun _ k => k.toNat + 2 ≤ n
  | .launch k | .signal _ _ k => k.toNat + 4 ≤ n
  | .mmx _ m _ k _ => k.toNat + 1 ≤ n && mmxOk m (lit k.toNat)
  | .dmm t _ _ _ k a _ => k.toNat + 1 ≤ n && dmmOk t a (lit k.toNat)
  | .dmmr t m _ _ k _ _ => k.toNat + 1 ≤ n && dmmrOk t m (lit k.toNat)
  | _ => true

/-! ### Resource names (R82) -/

/-- The placement entry under which the issue runs. -/
def State.place (s : State) : Entry :=
  (s.old.entryOf s.cx).getD
    { cluster := 0, core := 0, ctxMask := 0, tiles := 0, stones := 0, curves := 0, maps := 0, share := 0, llBase := 0, llCnt := 0,
      lkBase := 0, lkCnt := 0 }

/-- The tap tile of a `dmm` literal (R226). -/
def tapOf (w : W32) : BitVec 3 := w.extractLsb' 23 3

/-- The curve tables of a `dmm` literal (R226). -/
def curvesOf (w : W32) : List (BitVec 2) := (List.range 4).map (fun j => w.extractLsb' (15 + 2 * j) 2)

/-- Whether the entry gives the resources that a word names (R82). -/
def heldBy (e : Entry) (lit : Nat → W32) : Instr → Bool
  | .vaccF32 _ t _ | .dtap _ t _ | .ardF32 _ t _ | .ardS32 _ t _ | .awrF32 _ t _ | .awrS32 _ t _ | .aclr t | .aexp _ t _ =>
    e.tiles.getLsbD t.toNat
  | .ldbS8 k _ | .ldbBf16 k _ | .ldbE4m3 k _ | .ldbE5m2 k _ | .ldbE2m1 k _ => e.stones.getLsbD k.toNat
  | .mmBp2 t m _ _ _ | .mmBp3 t m _ _ _ | .mmBp4 t m _ _ _ | .mmBp5 t m _ _ _ | .mmBp6 t m _ _ _ | .mmBp7 t m _ _ _
  | .mmBp8 t m _ _ _ | .mmBf16 t m _ _ _ | .mmx t m _ _ _ => e.tiles.getLsbD t.toNat && m &&& ~~~e.stones == 0
  | .dmm t m _ b k a _ =>
    e.tiles.getLsbD t.toNat && m &&& ~~~e.stones == 0 && e.maps.getLsbD b.toNat &&
      (a == 0 || e.tiles.getLsbD (tapOf (lit k.toNat)).toNat) && (curvesOf (lit k.toNat)).all (fun c => e.curves.getLsbD c.toNat)
  | .dmmr t m _ b k _ _ =>
    e.tiles.getLsbD t.toNat && m &&& ~~~e.stones == 0 && e.maps.getLsbD b.toNat && e.tiles.getLsbD (tapOf (lit k.toNat)).toNat
  | .ldcv k _ => e.curves.getLsbD k.toNat
  | .ldbm k _ => e.maps.getLsbD k.toNat
  | _ => true

/-! ### Modes, repeats and delay issues

C words by their OP (R84). `n` is the register number of `mfs` and `mts` and the counter of `enrd`. -/

/-- Control transfers, trees and loops: OP 0x01 to 0x06, 0x10, 0x11 (R58). -/
def steers (op : Nat) : Bool := (1 ≤ op && op ≤ 6) || op == 0x10 || op == 0x11

/-- C words that a repeated bundle may not hold (R52, R325): those, `tbar`, `tail`, `end`, `tret`, `csave`, `crest`, `ckptg`,
`replayg` and `selftest`. -/
def noRepeat (op : Nat) : Bool := steers op || [0x1A, 0x1C, 0x1E, 0x43, 0x44, 0x45, 0x46, 0x47, 0x4E].contains op

/-- C words that a delay issue may not hold (R58, R325). -/
def noDelay (op : Nat) : Bool := steers op || op == 0x43

/-- C words that only a handler may issue (R84, R332, R77). -/
def handlerOnly (op n : Nat) : Bool :=
  [0x43, 0x44, 0x45, 0x48, 0x49, 0x4B, 0x4C, 0x4D, 0x4E, 0x4F, 0x51, 0x52].contains op || (op == 0x4A && n != 0) ||
    ((op == 0x40 || op == 0x41) && (n == 0x12 || 0x40 ≤ n))

/-- C words that a handler may not issue: `tbar`, `tail`, `end` (R313). -/
def neverIn (handler : Bool) (op : Nat) : Bool := handler && (op == 0x1A || op == 0x1C || op == 0x1E)

/-- The command class, which no context may issue (R17). -/
def commandOp (op : Nat) : Bool := 0x60 ≤ op && op ≤ 0x63

/-- An `mts` to a register that the issuing mode can only read (R78). -/
def readOnly (handler : Bool) (op n : Nat) : Bool :=
  op == 0x41 && (n == 0x10 || n == 0x11 || (n == 0x13 && !handler) || (0x20 ≤ n && n ≤ 0x31))

/-- The register or counter number of a system word. -/
def sysField : Instr → Nat
  | .mfs _ n | .mts _ n => n.toNat
  | .enrd _ c => c.toNat
  | _ => 0

/-! ### Operand values -/

/-- A layout word (R174): element format, transposition, scale offset. -/
def layoutFmt (w : W64) : Nat := (w.extractLsb' 0 4).toNat
def layoutT (w : W64) : Bool := w.getLsbD 4
def layoutOff (w : W64) : W64 := (w.extractLsb' 8 56).signExtend 64

/-- The layout words that `ldt` and `stt` accept (R174). -/
def layoutOk (load : Bool) (w : W64) : Bool :=
  w.extractLsb' 5 3 == 0 &&
    (if load then [0, 1, 2, 4, 6, 7, 8].contains (layoutFmt w) else layoutFmt w == 0)

/-- A box as a shape group describes it (R273): lists by dimension, 0 first. -/
structure Box where
  stream : BitVec 16
  fmt    : Nat
  dim    : Nat
  ext    : Bool
  rsv    : Bool
  org    : List Nat
  size   : List Nat
  strd   : List Int
  src    : Nat
  deriving DecidableEq, Repr

/-- A signed field of a shape word. -/
def sfield (w : W64) (lo n : Nat) : Int := (w.extractLsb' lo n).toInt

/-- A field of a shape word. -/
def ufield (w : W64) (lo n : Nat) : Nat := (w.extractLsb' lo n).toNat

/-- A shape group from its words (R273). -/
def boxFrom (w : Nat → W64) : Box :=
  let ext := (w 0).getLsbD 41
  let far := fun (n : Nat) => if ext then n else 0
  { stream := (w 0).extractLsb' 48 16
    fmt := ufield (w 0) 44 4
    dim := ufield (w 0) 42 2 + 1
    ext := ext
    rsv := (w 0).getLsbD 40 || (ext && (w 3).getLsbD 63)
    org := [ufield (w 0) 0 20, ufield (w 0) 20 20, far (ufield (w 2) 0 20), far (ufield (w 2) 20 20)]
    size := [ufield (w 1) 32 16, ufield (w 1) 48 16, if ext then ufield (w 2) 40 12 else 1, if ext then ufield (w 2) 52 12 else 1]
    strd := [1, if ext then sfield (w 3) 0 21 else (ufield (w 1) 32 16 : Nat), if ext then sfield (w 3) 21 21 else 0,
             if ext then sfield (w 3) 42 21 else 0]
    src := ufield (w 1) 0 32 }

/-- The shape group from shape register `k`. -/
def boxOf (r : Regs) (k : Nat) : Box := boxFrom (fun i => rget (k + i) r.sh)

/-- The checks of R274 on a shape group that begins at register `k`. -/
def Box.ok (b : Box) (k : Nat) : Bool :=
  k < 15 && !(b.ext && 12 < k) && b.fmt < 13 && !b.rsv && (b.ext || b.dim ≤ 2) &&
    (List.range 4).all (fun d =>
      if b.dim ≤ d then b.org.getD d 0 == 0 && b.size.getD d 1 == 1 && (!b.ext || b.strd.getD d 0 == 0)
      else b.size.getD d 0 == 0 || b.org.getD d 0 + b.size.getD d 0 ≤ 2 ^ 20)

/-- The checks of R275 on bits [27:0] of a destination word. -/
def destOk (w : W64) : Bool :=
  w.extractLsb' 10 6 == 0 && (w.extractLsb' 8 2).toNat ≤ 1 && (w.extractLsb' 8 2 == 0 || w.extractLsb' 0 3 == 0)

/-- A destination word of `xsend` or a multicast member (R275). -/
def sendDestOk (w : W64) : Bool := w.extractLsb' 28 36 == 0 && destOk w

/-- The operand word of a collective (R280). -/
def xredDestOk (w : W64) : Bool :=
  w.extractLsb' 62 2 == 0 && w.extractLsb' 28 18 == 0 && (w.extractLsb' 50 6).toNat ≤ (w.extractLsb' 56 6).toNat && destOk w

/-- A binding word (R284). -/
def bindOk (w : W64) : Bool :=
  w.extractLsb' 28 36 == 0 && w.extractLsb' 10 6 == 0 && (w.extractLsb' 8 2).toNat ≤ 1 &&
    (w.extractLsb' 8 2 == 0 || w.extractLsb' 0 8 == 0)

/-- Slot-table entries held on core `k` by contexts other than `x` (R19). -/
def Mach.otherShares (m : Mach) (k x : Nat) : Nat :=
  ((List.range 4).map (fun i => if 4 * k + i = x then 0 else (m.ctx (4 * k + i)).share)).foldl (· + ·) 0 + m.emptyShares k

/-- Whether `mts` may write value `v` to register `n` (R78, R326). -/
def State.mtsOk (s : State) (n : Nat) (v : W64) : Bool :=
  let rd := s.oc.trp.handler
  match n with
  | 0x000 => true
  | 0x001 => v.extractLsb' 5 59 == 0 && roundGenOk (v.extractLsb' 0 3) (v.extractLsb' 3 2)
  | 0x002 => v.extractLsb' 5 59 == 0
  | 0x012 => rd && v.toNat ≤ 64 && s.old.otherShares (coreOf s.cx) s.cx + v.toNat ≤ 64
  | 0x013 => rd && v.extractLsb' 32 32 == 0
  | 0x040 => rd && v.extractLsb' 40 8 == 0 && v.extractLsb' 20 12 == 0 && v.extractLsb' 11 4 == 0
  | 0x041 => rd
  | 0x042 => rd && v.extractLsb' 0 2 == 0
  | 0x043 => rd && v.extractLsb' 0 12 == 0
  | _ => false

/-- Conditions on values read from registers that make a word an illegal encoding (R99): layout words, shape groups,
destination, list and binding words. -/
def State.valuesOk (s : State) : Instr → Bool
  | .ldt _ _ _ b => layoutOk true (s.rg b)
  | .stt _ _ _ b => layoutOk false (s.rg b)
  | .xsend k _ d | .xsendLk k _ d => (boxOf s.regs k.toNat).ok k.toNat && sendDestOk (s.rg d)
  | .xmcast k _ d | .xmcastLk k _ d => (boxOf s.regs k.toNat).ok k.toNat && (s.rg d).extractLsb' 37 27 == 0
  | .xredAddF32 k _ d | .xredMaxF32 k _ d | .xredMinF32 k _ d =>
    (boxOf s.regs k.toNat).ok k.toNat && (boxOf s.regs k.toNat).fmt == 0 && xredDestOk (s.rg d)
  | .xredAddBf16 k _ d => (boxOf s.regs k.toNat).ok k.toNat && (boxOf s.regs k.toNat).fmt == 1 && xredDestOk (s.rg d)
  | .xredAddS32 k _ d | .xredMaxS32 k _ d =>
    (boxOf s.regs k.toNat).ok k.toNat && (boxOf s.regs k.toNat).fmt == 3 && xredDestOk (s.rg d)
  | .lnbind _ a => bindOk (s.rg a)
  | _ => true

/-! ### Loops (R62) -/

/-- The header at an address, fetched as R47 fetches a bundle. DESIGN CHOICE (log 95): where the header of a loop's body has a reserved bit
set, the loop takes the illegal-encoding trap at check 4 of R99; R62 names the translation and access faults of that read only. -/
def State.fetchHeader (s : State) (a : W64) : Except Cause Header :=
  match s.old.access s.cx .fetch a 4 4 with
  | .error c => .error c
  | .ok segs =>
    match decodeHeader (BitVec.ofNat 32 (leNat (s.old.segBytes segs))) with
    | .ok h => .ok h
    | .error _ => .error { code := 0x01, sub := 0, addr := s.iss.addr }

/-- The last of `n` + 1 bundles from `a`, and the address after it; each header is read (R62). -/
def State.walkBody (s : State) : Nat → W64 → Except Cause (W64 × W64)
  | 0, a =>
    match s.fetchHeader a with
    | .error c => .error c
    | .ok h => .ok (a, a + BitVec.ofNat 64 h.bytes)
  | n + 1, a =>
    match s.fetchHeader a with
    | .error c => .error c
    | .ok h => s.walkBody n (a + BitVec.ofNat 64 h.bytes)

/-- The addresses of `n` + 1 bundles from `a`. -/
def State.bodyList (s : State) : Nat → W64 → Except Cause (List W64)
  | 0, a => .ok [a]
  | n + 1, a =>
    match s.fetchHeader a with
    | .error c => .error c
    | .ok h =>
      match s.bodyList n (a + BitVec.ofNat 64 h.bytes) with
      | .error c => .error c
      | .ok l => .ok (a :: l)

/-- Whether the bundles of the outermost active body, with `b` + 1 from the next bundle on, exceed 256 (R62). -/
def State.tooLong (s : State) (c : Ctl) (b : BitVec 8) : Except Cause Bool :=
  if 256 < (rget 0 c.blen).toNat then .ok true
  else if c.nlev ≤ 1 then .ok false
  else
    match s.bodyList ((rget 0 c.blen).toNat - 1) (rget 0 c.body), s.bodyList b.toNat s.iss.next with
    | .ok outer, .ok inner => .ok (decide (256 < (outer ++ inner.filter (fun a => !outer.contains a)).length))
    | .error e, _ => .error e
    | _, .error e => .error e

/-- The last bundle of the innermost active body, walked again from its headers. -/
def State.bodyEnd (s : State) (c : Ctl) : Except Cause (W64 × W64) :=
  s.walkBody ((rget (c.nlev - 1) c.blen).toNat - 1) (rget (c.nlev - 1) c.body)

/-- The nesting conditions of R62 for a loop at level `v` over `b` + 1 bundles, with the read of its body: the failure, or
the last bundle of the body and the address after it. -/
def State.openLoop (s : State) (v : BitVec 3) (b : BitVec 8) : Except Fail (W64 × W64) :=
  let c := s.oc.ctl
  if v.toNat ≠ c.nlev then .error (s.ill 4)
  else
    match s.walkBody b.toNat s.iss.next with
    | .error e => .error (e, if e.code = 1 then 4 else 0)
    | .ok (last, after) =>
      if c.nlev = 0 then .ok (last, after)
      else
        match s.bodyEnd c with
        | .error e => .error (e, if e.code = 1 then 4 else 0)
        | .ok (_, outer) =>
          if after.toNat ≤ outer.toNat ∧ (rget (c.nlev - 1) c.body).toNat ≤ s.iss.next.toNat then
            match s.tooLong c b with
            | .error e => .error (e, if e.code = 1 then 4 else 0)
            | .ok true => .error (s.ill 4)
            | .ok false => .ok (last, after)
          else .error (s.ill 4)

/-- The conditions of check 4 on what a C word reads: `mts` values (R78), and loop nesting with the read of the body. -/
def State.cFail (s : State) : Instr → Option Fail
  | .mts g n => if s.mtsOk n.toNat (s.rg g) then none else some (s.ill 4)
  | .loop v _ b | .loopi v _ b =>
    match s.openLoop v b with
    | .ok _ => none
    | .error e => some e
  | _ => none

/-! ### The checks together -/

/-- Check 4 for a C word by its OP: repeats, delay issues, privilege, mode. -/
def State.checkC (s : State) (op n : Nat) : Option Fail :=
  let h := s.oc.trp.handler
  if s.iss.hdr.rep ≠ 0 ∧ noRepeat op = true then some (s.ill 4)
  else if s.oc.ctl.dly ≠ 0 ∧ noDelay op = true then some (s.ill 4)
  else if h = false ∧ handlerOnly op n = true then some s.priv
  else if neverIn h op = true ∨ readOnly h op n = true then some (s.ill 4)
  else none

/-- Check 4 for the word `i` of slot `k`, but for its path tag (R99): `on` says that the word issues (R50, R128). -/
def State.check4 (s : State) (k : Nat) (i : Instr) (on : Bool) : Option Fail :=
  if k = 0 then
    match s.checkC i.op.toNat (sysField i) with
    | some f => some f
    | none => if on then s.cFail i else none
  else if heldBy s.place s.lit i = false then some (s.ill 4)
  else if on = true ∧ s.valuesOk i = false then some (s.ill 4)
  else none

/-- Check 3 for a word. -/
def State.check3 (s : State) (i : Instr) : Option Fail :=
  if litsOk s.lit s.iss.hdr.lits.toNat i then none else some (s.ill 3)

/-- The answer of a word that fails a check: that trap and nothing else (R71). -/
def State.failed (s : State) (f : Fail) : Res := .next (s.fail f.1 s.iss.slot f.2)

/-- The meaning `k` of a sticky slot's word under its checks 3 and 4. -/
def State.guard (s : State) (i : Instr) (k : Res) : Res :=
  if litsOk s.lit s.iss.hdr.lits.toNat i = false then s.failed (s.ill 3)
  else if heldBy s.place s.lit i = false ∨ s.valuesOk i = false then s.failed (s.ill 4)
  else k

/-- The meaning `k` of a C word under its checks 3 (`lits`) and 4. -/
def State.guardC (s : State) (op n : Nat) (lits : Bool) (k : Res) : Res :=
  if lits = false then s.failed (s.ill 3)
  else
    match s.checkC op n with
    | some f => s.failed f
    | none => k

end Sys2Proof.Machine
end

