-- ==== Sys2Proof/Machine/Scalar.lean ====
section
/-! DEFINITION. The S0 and S1 slots: integer arithmetic (R134, R135), constants (R136), bit fields and counts (R137, R138),
compares and flags (R139, R140), link FIFO moves (R141, R294, R296), conversions (R142). -/

namespace Sys2Proof.Machine

/-- A scalar result (R128). -/
def State.put (s : State) (d : BitVec 6) (v : W64) : Res := done (s.wg d v)

/-- A flag result (R139, R140). -/
def State.putF (s : State) (c : BitVec 4) (b : Bool) : Res := done (s.wf c b)

/-- The high half of a signed product (R134). -/
def mulHiS (a b : W64) : W64 := ((a.signExtend 128) * (b.signExtend 128)).extractLsb' 64 64

/-- The high half of an unsigned product (R134). -/
def mulHiZ (a b : W64) : W64 := ((a.zeroExtend 128) * (b.zeroExtend 128)).extractLsb' 64 64

/-- Signed division of R135, toward zero. -/
def divS (a b : W64) : W64 := if b = 0 then BitVec.allOnes 64 else BitVec.ofInt 64 (Int.tdiv a.toInt b.toInt)

/-- Signed remainder of R135, with the sign of the dividend. -/
def remS (a b : W64) : W64 := if b = 0 then a else BitVec.ofInt 64 (Int.tmod a.toInt b.toInt)

/-- Unsigned division of R135. -/
def divZ (a b : W64) : W64 := if b = 0 then BitVec.allOnes 64 else BitVec.ofNat 64 (a.toNat / b.toNat)

/-- Unsigned remainder of R135. -/
def remZ (a b : W64) : W64 := if b = 0 then a else BitVec.ofNat 64 (a.toNat % b.toNat)

/-- Position and length of a bit-field literal (R137). -/
def fieldPos (w : W32) : Nat := (w.extractLsb' 0 6).toNat
def fieldLen (w : W32) : Nat := (w.extractLsb' 6 6).toNat + 1

/-- The low `n` bits of `a` from bit `p` on. -/
def bitField (a : W64) (p n : Nat) : W64 := (a.extractLsb' p n).zeroExtend 64

/-- The same, extended by its highest bit. -/
def bitFieldS (a : W64) (p n : Nat) : W64 := (a.extractLsb' p n).signExtend 64

/-- Bits [p + n - 1 : p] of `d` replaced by the low bits of `a`. -/
def insertField (d a : W64) (p n : Nat) : W64 := setField d p n (a.extractLsb' 0 n)

/-- Number of 1 bits (R138). -/
def popCount (a : W64) : Nat := ((List.range 64).filter (fun k => a.getLsbD k)).length

/-- 0 bits above the highest 1 bit (R138). -/
def leadingZeros (a : W64) : Nat := ((List.range 64).takeWhile (fun k => !a.getLsbD (63 - k))).length

/-- 0 bits below the lowest 1 bit (R138). -/
def trailingZeros (a : W64) : Nat := ((List.range 64).takeWhile (fun k => !a.getLsbD k)).length

/-- Six compares (R139). -/
def ltS (a b : W64) : Bool := a.slt b
def leS (a b : W64) : Bool := a.sle b
def ltZ (a b : W64) : Bool := a.ult b
def leZ (a b : W64) : Bool := a.ule b

/-- The draw of one scalar conversion (R142): generator 0 under RM 4. -/
def State.oneDraw (s : State) (r : BitVec 3) : Round × State :=
  let (ds, s1) := s.roundDraws r.toNat 0 1
  (roundOf r.toNat (ds.headD 0), s1)

/-- Flags of an S word enter `XFLAGS` at the issue (R110). DESIGN CHOICE (log 94): an `mts` to it in the same issue acts first, since the
words act in slot order. -/
def State.raiseXf (s : State) (x : XF) : State := s.modR (fun r => { r with xf := r.xf ||| x })

/-- A conversion of an integer to `.f32` (R142). -/
def State.fromInt (s : State) (d : BitVec 6) (i : Int) (r : BitVec 3) : Res :=
  let (rnd, s1) := s.oneDraw r
  let (v, x) := intToFmt fmtF32 rnd i
  ((s1.raiseXf x).put d (BitVec.ofNat 64 v))

/-- A conversion of an `.f32` to an integer in [lo, hi] (R142, R108). -/
def State.toInt (s : State) (d : BitVec 6) (a : W64) (r : BitVec 3) (lo hi : Int) : Res :=
  let (rnd, s1) := s.oneDraw r
  let (v, x) := numToInt rnd lo hi (fmtF32.decode (a.extractLsb' 0 32).toNat)
  ((s1.raiseXf x).put d (BitVec.ofInt 64 v))

/-! ### Link FIFOs (R72, R141, R284, R294, R296) -/

/-- MODE of a binding word (R284). -/
def linkMode (b : W64) : Nat := (b.extractLsb' 8 2).toNat

/-- The binding's partner package (R284). -/
def linkChip (b : W64) : BitVec 12 := b.extractLsb' 16 12

/-- Words of a request with operation `op` (R294). -/
def requestWords (op : Nat) : Nat := if op = 1 then 2 else if op = 10 then 4 else 3

/-- The permission a link request needs (R294, R176). -/
def linkKind (op : Nat) : AccKind := if op = 1 then .load else if op = 2 then .store else .atomic

/-- The access trap of a link (R307). -/
def linkTrap (k : Nat) (a : W64) : Cause := { code := 0x04, sub := k, addr := a }

/-- A word pushed by context `x`, whose issue has the number `no`, onto link `k` of its core, with the checks of R294; `here`
is the bundle's address. A request's header takes its generation, its address word is translated. -/
def Mach.pushLink (m : Mach) (x no : Nat) (here : W64) (k : Nat) (w : W64) : Except Cause Mach :=
  let c := coreOf x
  let l := (m.core c).link k
  let add := fun (v : W64) (f : Link → Link) =>
    m.modCore c (fun q => q.modLink k (fun l => f { l with outb := l.outb ++ [(v, 4 * no + x % 4, l.bind)] }))
  if linkMode l.bind = 0 then .ok (add w id)
  else
    match l.asm with
    | [] =>
      let op := (w.extractLsb' 60 4).toNat
      let tag := (w.extractLsb' 48 12).toNat
      if op = 0 ∨ 10 < op ∨ w.extractLsb' 0 48 ≠ 0 then .error (linkTrap k here)
      else
        let g := rget tag l.gen + 1
        .ok (add (setField w 44 4 g) (fun l => { l with asm := [w], gen := rput tag g l.gen, out_ := kput tag 0 l.out_ }))
    | h :: rest =>
      let op := (h.extractLsb' 60 4).toNat
      let more := fun (l : Link) => { l with asm := if rest.length + 2 = requestWords op then [] else h :: rest ++ [w] }
      if rest.length = 0 then
        match m.access x (linkKind op) w 8 8 with
        | .ok [g] =>
          if leafREM g.leaf && leafCHIP g.leaf == linkChip l.bind then .ok (add (BitVec.ofNat 64 g.pa) more)
          else .error (linkTrap k w)
        | _ => .error (linkTrap k w)
      else .ok (add w more)

/-- What takes a word that context `x` pushes to link `k` back: the incomplete request and, of a header, its tag as they stand (R37). -/
def Mach.pushUndo (m : Mach) (x k : Nat) (w : W64) : Undo :=
  let l := (m.core (coreOf x)).link k
  let tag := (w.extractLsb' 48 12).toNat
  .pushed (coreOf x) k l.asm (if linkMode l.bind = 1 ∧ l.asm = [] then some (tag, rget tag l.gen, kget tag l.out_) else none)

/-- Whether the issuing run holds link `k` of its core (R284). -/
def State.holdsLink (s : State) (k : BitVec 3) : Bool :=
  ((s.old.core (coreOf s.cx)).link k.toNat).holder == some s.oc.rid

/-- The word at the head of inbound FIFO `k`, as the slots before this one have left it (R72). -/
def State.popLink (s : State) (k : BitVec 3) : Option (W64 × State) :=
  match ((s.m.core (coreOf s.cx)).link k.toNat).inb with
  | [] => none
  | w :: rest => some (w, s.mapM (fun m => m.modCore (coreOf s.cx) (fun q => q.modLink k.toNat (fun l => { l with inb := rest }))))

/-! ### Meanings -/

def execAddS64 (d a b : BitVec 6) (s : State) : Res := s.put d (s.rg a + s.rg b)
def execSubS64 (d a b : BitVec 6) (s : State) : Res := s.put d (s.rg a - s.rg b)
def execMulS64 (d a b : BitVec 6) (s : State) : Res := s.put d (s.rg a * s.rg b)
def execMulhS64 (d a b : BitVec 6) (s : State) : Res := s.put d (mulHiS (s.rg a) (s.rg b))
def execMulhZ64 (d a b : BitVec 6) (s : State) : Res := s.put d (mulHiZ (s.rg a) (s.rg b))
def execAndZ64 (d a b : BitVec 6) (s : State) : Res := s.put d (s.rg a &&& s.rg b)
def execOrZ64 (d a b : BitVec 6) (s : State) : Res := s.put d (s.rg a ||| s.rg b)
def execAddS64Imm (d a : BitVec 6) (i : BitVec 8) (s : State) : Res := s.put d (s.rg a + i.signExtend 64)
def execAndZ64Imm (d a : BitVec 6) (i : BitVec 8) (s : State) : Res := s.put d (s.rg a &&& i.signExtend 64)
def execOrZ64Imm (d a : BitVec 6) (i : BitVec 8) (s : State) : Res := s.put d (s.rg a ||| i.signExtend 64)
def execXorZ64Imm (d a : BitVec 6) (i : BitVec 8) (s : State) : Res := s.put d (s.rg a ^^^ i.signExtend 64)
/-- `li.s64` (R136). -/
def execLiS64 (d : BitVec 6) (k : BitVec 5) (s : State) : Res :=
  s.guard (.liS64 d k) (s.put d ((s.lit k.toNat).signExtend 64))
/-- `li64` (R136). -/
def execLi64 (d : BitVec 6) (k : BitVec 5) (s : State) : Res := s.guard (.li64 d k) (s.put d (s.lit2 k.toNat))
def execXorZ64 (d a b : BitVec 6) (s : State) : Res := s.put d (s.rg a ^^^ s.rg b)
def execShlZ64Imm (d a n : BitVec 6) (s : State) : Res := s.put d (s.rg a <<< n.toNat)
def execShrZ64Imm (d a n : BitVec 6) (s : State) : Res := s.put d (s.rg a >>> n.toNat)
def execAsrS64Imm (d a n : BitVec 6) (s : State) : Res := s.put d ((s.rg a).sshiftRight n.toNat)
/-- The register shifts use g[gb][5:0] (R134). -/
def execShlZ64 (d a b : BitVec 6) (s : State) : Res := s.put d (s.rg a <<< ((s.rg b).extractLsb' 0 6).toNat)
def execShrZ64 (d a b : BitVec 6) (s : State) : Res := s.put d (s.rg a >>> ((s.rg b).extractLsb' 0 6).toNat)
def execAsrS64 (d a b : BitVec 6) (s : State) : Res := s.put d ((s.rg a).sshiftRight ((s.rg b).extractLsb' 0 6).toNat)
def execMinS64 (d a b : BitVec 6) (s : State) : Res := s.put d (if ltS (s.rg a) (s.rg b) then s.rg a else s.rg b)
def execMaxS64 (d a b : BitVec 6) (s : State) : Res := s.put d (if ltS (s.rg a) (s.rg b) then s.rg b else s.rg a)
def execMinZ64 (d a b : BitVec 6) (s : State) : Res := s.put d (if ltZ (s.rg a) (s.rg b) then s.rg a else s.rg b)
def execMaxZ64 (d a b : BitVec 6) (s : State) : Res := s.put d (if ltZ (s.rg a) (s.rg b) then s.rg b else s.rg a)
def execDivS64 (d a b : BitVec 6) (s : State) : Res := s.put d (divS (s.rg a) (s.rg b))
def execDivZ64 (d a b : BitVec 6) (s : State) : Res := s.put d (divZ (s.rg a) (s.rg b))
def execRemS64 (d a b : BitVec 6) (s : State) : Res := s.put d (remS (s.rg a) (s.rg b))
def execRemZ64 (d a b : BitVec 6) (s : State) : Res := s.put d (remZ (s.rg a) (s.rg b))
/-- `bfx.z64` (R137). -/
def execBfxZ64 (d a : BitVec 6) (k : BitVec 5) (s : State) : Res :=
  s.guard (.bfxZ64 d a k) (s.put d (bitField (s.rg a) (fieldPos (s.lit k.toNat)) (fieldLen (s.lit k.toNat))))
/-- `bfx.s64` (R137). -/
def execBfxS64 (d a : BitVec 6) (k : BitVec 5) (s : State) : Res :=
  s.guard (.bfxS64 d a k) (s.put d (bitFieldS (s.rg a) (fieldPos (s.lit k.toNat)) (fieldLen (s.lit k.toNat))))
def execCmpLtS64 (c : BitVec 4) (a b : BitVec 6) (s : State) : Res := s.putF c (ltS (s.rg a) (s.rg b))
def execCmpEqS64 (c : BitVec 4) (a b : BitVec 6) (s : State) : Res := s.putF c (s.rg a == s.rg b)
def execCmpLeS64 (c : BitVec 4) (a b : BitVec 6) (s : State) : Res := s.putF c (leS (s.rg a) (s.rg b))
def execCmpNeS64 (c : BitVec 4) (a b : BitVec 6) (s : State) : Res := s.putF c (s.rg a != s.rg b)
def execCmpLtZ64 (c : BitVec 4) (a b : BitVec 6) (s : State) : Res := s.putF c (ltZ (s.rg a) (s.rg b))
def execCmpLeZ64 (c : BitVec 4) (a b : BitVec 6) (s : State) : Res := s.putF c (leZ (s.rg a) (s.rg b))
/-- `bfi.z64` (R137): g[gd] is read too. -/
def execBfiZ64 (d a : BitVec 6) (k : BitVec 5) (s : State) : Res :=
  s.guard (.bfiZ64 d a k) (s.put d (insertField (s.rg d) (s.rg a) (fieldPos (s.lit k.toNat)) (fieldLen (s.lit k.toNat))))
def execCmpLtS64Imm (c : BitVec 4) (a : BitVec 6) (i : BitVec 10) (s : State) : Res := s.putF c (ltS (s.rg a) (i.signExtend 64))
def execCmpEqS64Imm (c : BitVec 4) (a : BitVec 6) (i : BitVec 10) (s : State) : Res := s.putF c (s.rg a == i.signExtend 64)
def execCmpLeS64Imm (c : BitVec 4) (a : BitVec 6) (i : BitVec 10) (s : State) : Res := s.putF c (leS (s.rg a) (i.signExtend 64))
def execCmpNeS64Imm (c : BitVec 4) (a : BitVec 6) (i : BitVec 10) (s : State) : Res := s.putF c (s.rg a != i.signExtend 64)
def execCmpLtZ64Imm (c : BitVec 4) (a : BitVec 6) (i : BitVec 10) (s : State) : Res := s.putF c (ltZ (s.rg a) (i.signExtend 64))
def execCmpLeZ64Imm (c : BitVec 4) (a : BitVec 6) (i : BitVec 10) (s : State) : Res := s.putF c (leZ (s.rg a) (i.signExtend 64))
def execFand (c a b : BitVec 4) (s : State) : Res := s.putF c (s.regs.flag a.toNat && s.regs.flag b.toNat)
def execFior (c a b : BitVec 4) (s : State) : Res := s.putF c (s.regs.flag a.toNat || s.regs.flag b.toNat)
def execFxor (c a b : BitVec 4) (s : State) : Res := s.putF c (s.regs.flag a.toNat ^^ s.regs.flag b.toNat)
def execFandn (c a b : BitVec 4) (s : State) : Res := s.putF c (s.regs.flag a.toNat && !s.regs.flag b.toNat)
def execFset (c : BitVec 4) (s : State) : Res := s.putF c true
def execFclr (c : BitVec 4) (s : State) : Res := s.putF c false

/-- `mov.s64 gd, lnK` (R141). The step makes no issue whose pops a FIFO cannot serve (R72). A rollback before the second checkpoint gives
the word back (R37). -/
def execMovS64Pop (g : BitVec 6) (k : BitVec 3) (s : State) : Res :=
  if s.holdsLink k then
    match s.popLink k with
    | none => done s
    | some (w, s1) => (s1.mapM (fun m => m.undoable s.cx (.popped (coreOf s.cx) k.toNat w))).put g w
  else s.raise (linkTrap k.toNat s.iss.addr)

/-- `mov.s64 lnK, ga` (R141, R294). A rollback before the second checkpoint takes the word back (R37). -/
def execMovS64Push (g : BitVec 6) (k : BitVec 3) (s : State) : Res :=
  if s.holdsLink k then
    match s.m.pushLink s.cx s.no s.iss.addr k.toNat (s.rg g) with
    | .error c => s.raise c
    | .ok m => done { s with m := m.undoable s.cx (s.m.pushUndo s.cx k.toNat (s.rg g)) }
  else s.raise (linkTrap k.toNat s.iss.addr)

def execPopcZ64 (d a : BitVec 6) (s : State) : Res := s.put d (BitVec.ofNat 64 (popCount (s.rg a)))
def execClzZ64 (d a : BitVec 6) (s : State) : Res := s.put d (BitVec.ofNat 64 (leadingZeros (s.rg a)))
def execCtzZ64 (d a : BitVec 6) (s : State) : Res := s.put d (BitVec.ofNat 64 (trailingZeros (s.rg a)))
def execCvtF32S64 (d a : BitVec 6) (r : BitVec 3) (s : State) : Res := s.fromInt d (s.rg a).toInt r
def execCvtS64F32 (d a : BitVec 6) (r : BitVec 3) (s : State) : Res := s.toInt d (s.rg a) r (-(2 ^ 63)) (2 ^ 63 - 1)
def execCvtF32Z64 (d a : BitVec 6) (r : BitVec 3) (s : State) : Res := s.fromInt d (s.rg a).toNat r
def execCvtZ64F32 (d a : BitVec 6) (r : BitVec 3) (s : State) : Res := s.toInt d (s.rg a) r 0 (2 ^ 64 - 1)

end Sys2Proof.Machine
end

