-- ==== Sys2Proof/Machine/Control.lean ====
section
/-! DEFINITION. The words of the C slot that steer a context: transfers (R129, R130), the condition tree (R60), loops (R62,
R131), strides (R132), order tokens (R133), and the words that end or hold it (R23, R24, R36, R186). -/

namespace Sys2Proof.Machine

/-- A taken transfer to `t` (R57, R59): two delay issues are due, every loop level closes, the counters stay. -/
def State.take (s : State) (t : W64) : State :=
  let s1 := s.modC (fun c => { c with ibuf := [], ctl := { c.ctl with tgt := t, dly := 2, nlev := 0, lastB := [] } })
  { s1 with iss := { s1.iss with taken := true } }

/-- The target of an offset in 4-byte units from the bundle (R129). -/
def State.target (s : State) {w : Nat} (off : BitVec w) : W64 := s.iss.addr + (off.signExtend 64 <<< 2)

/-- A call's link becomes due (R130). -/
def State.callDue (s : State) : State := s.modCtl (fun c => { c with link := true })

/-- A transfer to the address in a register, which must be a multiple of 4 (R129). -/
def State.jumpTo (s : State) (t : W64) (k : State → State) : Res :=
  if t.extractLsb' 0 2 ≠ 0 then s.raise { code := 0x03, sub := 0, addr := t } else done (k (s.take t))

/-- The leaf that a tree of `n` + 1 tests selects, from 1 (R60). -/
def State.treeLeaf (s : State) (n k : Nat) : Nat :=
  match (List.range (n + 1)).find? (fun i =>
    let b := (s.lit k).extractLsb' (8 * i) 8
    s.regs.flag (b.extractLsb' 0 4).toNat != b.getLsbD 7) with
  | some i => i + 1
  | none => n + 2

/-- The context parks and the issue commits nothing: it is made when the context wakes (R30, R183, R186). -/
def State.park (s : State) (w : Park) : Res :=
  .next { s with m := s.old.modCtx s.cx (fun c => { c with status := .parked w }), iss := { s.iss with trapped := true } }

/-- The context arrives at a barrier and parks; it goes on at the bundle after it (R36, R330). -/
def State.arrive (s : State) (w : Park) : Res := done (s.modC (fun c => { c with status := .parked w }))

/-- The requests of the reads of the headers of a loop's body (R62, R363). -/
def State.headerPas (s : State) (b : BitVec 8) : List Nat :=
  match s.bodyList b.toNat s.iss.next with
  | .ok l => l.flatMap (fun a => s.old.fetchPas s.cx a 4)
  | .error _ => []

/-- A loop level opened, or its body skipped when the count is 0 (R62). The headers read count among the run's requests (R363). -/
def State.enterLoop (s : State) (v : BitVec 3) (cnt : W32) (b : BitVec 8) : Res :=
  match s.openLoop v b with
  | .error f => s.failed f
  | .ok (last, after) =>
    let t := s.mapM (fun m => m.serve s.oc.rid (s.headerPas b))
    if cnt = 0 then done { t with iss := { s.iss with skip := some (last, after) } }
    else done (t.modCtl (fun c => { c with
      nlev := v.toNat + 1
      first := c.first ||| (1 <<< v.toNat)
      lc := rput v.toNat cnt c.lc
      body := rput v.toNat s.iss.next c.body
      blen := rput v.toNat (b.zeroExtend 9 + 1) c.blen
      lastB := rput v.toNat last c.lastB }))

/-- A stride table entry written (R132). -/
def State.setStride (s : State) (k : BitVec 4) (v : BitVec 3) (x : W32) : State :=
  s.modR (fun r => { r with stride := rput (6 * k.toNat + v.toNat) x r.stride })

/-! ### Pending faults (R255, R278, R318) -/

/-- The machine after a pending expiry of context `x` is delivered: it is no longer pending, and the own entries whose loss
it reports are freed (R255). -/
def Mach.clearExpiry (m : Mach) (x : Nat) : Mach :=
  let lost := (m.ctx x).pend.lost
  (m.modCtx x (fun c => { c with pend := { c.pend with pex := false, pexN := 0, pexA := 0, lost := [] } })).modPkg
    (fun p => { p with own := p.own.filter (fun e => !lost.contains (BitVec.ofNat 16 e.1)) })

/-- The machine after a pending transfer fault of context `x` is delivered (R278). -/
def Mach.clearTransfer (m : Mach) (x : Nat) : Mach :=
  m.modCtx x (fun c => { c with pend := { c.pend with ptf := false, ptfC := 0, ptfV := 0 } })

/-- A pending fault delivered at a `drain`, `tbar` or `end` of run code, the expiry first; otherwise the word acts. DEDUCED (log 14): no
slot word raised it, so SLOT is 15 (R309). -/
def State.deliverFirst (s : State) (k : Res) : Res :=
  let p := s.oc.pend
  let out := fun (m : Mach) (tc a : W64) =>
    Host.Outcome.next { s with m := m.faultAt s.cx s.no s.iss.addr tc a, iss := { s.iss with trapped := true } }
  if s.oc.trp.handler then k
  else if p.pex then out (s.old.clearExpiry s.cx) (tcause 0x15 0 15 0 p.pexN.toNat false) p.pexA
  else if p.ptf then out (s.old.clearTransfer s.cx) (tcause 0x16 0 15 p.ptfC.toNat 0 false) p.ptfV
  else k

/-- The kind of team barrier a context waits at: 0 none, 1 `tbar`, 2 `ckptg`, 3 `replayg`. -/
def Status.barrier : Status → Nat
  | .parked .tbar => 1
  | .parked (.gen false _ _) => 2
  | .parked (.gen true _ _) => 3
  | _ => 0

/-- Whether a barrier of a kind other than `k` is open in the context's team (R330). -/
def State.otherBarrier (s : State) (k : Nat) : Bool :=
  match s.team? with
  | none => false
  | some t => t.ctxs.any (fun x => (s.old.ctx x).status.barrier != 0 && (s.old.ctx x).status.barrier != k)

/-- A team whose contexts have all ended commits its store buffer (R23). -/
def Mach.commitEnded (m : Mach) (rid cl : Nat) : Mach :=
  match m.team? rid cl with
  | none => m
  | some t => if t.ctxs.all (fun x => (m.ctx x).status == .ended) then m.commit rid cl else m

/-! ### Meanings -/

/-- `nop` (R44): nothing. -/
def execNop (s : State) : Res := done s

/-- `jmp` (R129). -/
def execJmp (j : BitVec 20) (s : State) : Res := s.guardC 0x01 0 true (done (s.take (s.target j)))

/-- `call` (R129, R130). -/
def execCall (j : BitVec 20) (s : State) : Res := s.guardC 0x02 0 true (done (s.take (s.target j)).callDue)

/-- `jmpr` (R129). -/
def execJmpr (a : BitVec 6) (s : State) : Res := s.guardC 0x03 0 true (s.jumpTo (s.rg a) id)

/-- `br` (R60, R61): the leaf selected also governs the path-tagged words of the issue. -/
def execBr (n : BitVec 2) (k : BitVec 5) (s : State) : Res :=
  s.guardC 0x04 0 (k.toNat + n.toNat + 3 ≤ s.iss.hdr.lits.toNat && treeOk s.lit k.toNat n.toNat) (
    let leaf := s.treeLeaf n.toNat k.toNat
    let w := s.lit (k.toNat + leaf)
    let s1 := { s with iss := { s.iss with leaf := some leaf } }
    if w.extractLsb' 0 2 = 1 then done (s1.take (s.target (w.extractLsb' 2 30))) else done s1)

/-- `callr` (R129, R130): the old `g62` is read. -/
def execCallr (a : BitVec 6) (s : State) : Res := s.guardC 0x05 0 true (s.jumpTo (s.rg a) State.callDue)

/-- `ret` (R129). -/
def execRet (s : State) : Res := s.guardC 0x06 0 true (s.jumpTo (s.rg 62) id)

/-- `loop` (R62, R131). -/
def execLoop (v : BitVec 3) (g : BitVec 6) (b : BitVec 8) (s : State) : Res :=
  s.guardC 0x10 0 true (s.enterLoop v ((s.rg g).extractLsb' 0 32) b)

/-- `loopi` (R62, R131): the count is the field plus 1. -/
def execLoopi (v : BitVec 3) (c : BitVec 9) (b : BitVec 8) (s : State) : Res :=
  s.guardC 0x11 0 true (s.enterLoop v (c.zeroExtend 32 + 1) b)

/-- `step` (R132). -/
def execStep (k : BitVec 4) (v : BitVec 3) (t : BitVec 13) (s : State) : Res :=
  s.guardC 0x12 0 true (done (s.setStride k v (t.signExtend 32 <<< 2)))

/-- `stepr` (R132). -/
def execStepr (k : BitVec 4) (v : BitVec 3) (a : BitVec 6) (s : State) : Res :=
  s.guardC 0x13 0 true (done (s.setStride k v ((s.rg a).extractLsb' 0 32)))

/-- `ord` (R133): the word of slot `k` in this issue takes the tokens of the literal. -/
def execOrd (k : BitVec 4) (l : BitVec 5) (s : State) : Res :=
  s.guardC 0x14 0 (l.toNat + 1 ≤ s.iss.hdr.lits.toNat && ordOk k (s.lit l.toNat)) (done { s with iss := { s.iss with ords := [(k.toNat, s.lit l.toNat)] } })

/-- `wait` (R186). -/
def execWaitF (m : BitVec 16) (s : State) : Res :=
  s.guardC 0x15 0 true (if (List.range 16).all (fun k => !m.getLsbD k || s.regs.flag k) then done s else s.park (.flags m))

/-- `tbar` (R36): a pending fault is delivered first (R39). -/
def execTbar (s : State) : Res :=
  s.guardC 0x1A 0 true (s.deliverFirst (if s.otherBarrier 1 then s.trapHere 0x05 0 else s.arrive .tbar))

/-- `tail` (R24). A rollback before the second checkpoint takes the child back (R37). -/
def execTail (a b : BitVec 6) (s : State) : Res :=
  s.guardC 0x1C 0 true (
    match s.run? with
    | none => done s
    | some r =>
      if r.child.isSome then s.trapHere 0x05 0
      else done (s.mapM (fun m => (m.modRun r.id (fun q => { q with child := some (s.rg a, s.rg b) })).undoable s.cx (.child r.id))))

/-- `end` (R23, R318): a pending fault is delivered instead. The team's last one commits the store buffer as its issue commits
(Issue.lean). -/
def execEndCtx (s : State) : Res :=
  s.guardC 0x1E 0 true (s.deliverFirst (done (s.modC (fun c => { c with status := .ended }))))

end Sys2Proof.Machine
end

