-- ==== Sys2Proof/Machine/Tiles.lean ====
section
/-! DEFINITION. The accumulator tiles: what a column holds (R117), the single adder of a block (R118), reads and writes of
columns (R120). -/

namespace Sys2Proof.Machine

/-- The position of element (r, c) of a tile (R160). -/
def tilePos (r c : Nat) : Nat :=
  let b := fun (v k : Nat) => v / 2 ^ k % 2
  512 * b r 4 + 256 * b c 4 + 128 * b r 3 + 64 * b c 3 + 32 * b r 2 + 16 * b c 2 + 8 * b r 1 + 4 * b r 0 + 2 * b c 1 + b c 0

/-- Row and column of a position (R160). -/
def tileRC (p : Nat) : Nat × Nat :=
  let b := fun (k : Nat) => p / 2 ^ k % 2
  (16 * b 9 + 8 * b 7 + 4 * b 5 + 2 * b 3 + b 2, 16 * b 8 + 8 * b 6 + 4 * b 4 + 2 * b 1 + b 0)

/-- A column block: its exponent, absent when it is non-finite, and 16 mantissas (R117). -/
structure Blk where
  x : Option Int
  m : List Int
  deriving DecidableEq, Repr

/-- A cleared block (R117). -/
def Blk.clear : Blk := { x := some 0, m := List.replicate 16 0 }

/-- A non-finite block (R117). -/
def Blk.bad : Blk := { x := none, m := List.replicate 16 0 }

/-- The exponent of column block `b` of row `r`. -/
def Tile.exp (t : Tile) (r b : Nat) : Option Int :=
  let e : BitVec 8 := lane 8 (rget r t.exps) b
  if e = 0x80 then none else some e.toInt

/-- Mantissa `c` of row `r`. -/
def Tile.mantissa (t : Tile) (r c : Nat) : Int := (lane 32 (rget r t.mant) c : W32).toInt

/-- The value of column `c` of row `r` (R117). -/
def Tile.col (t : Tile) (r c : Nat) : Num :=
  match t.exp r (c / 16) with
  | none => .nan
  | some e => .fin (decide (t.mantissa r c < 0)) (t.mantissa r c).natAbs e

/-- Column block `b` of row `r`. -/
def Tile.blk (t : Tile) (r b : Nat) : Blk :=
  { x := t.exp r b, m := (List.range 16).map (fun j => t.mantissa r (16 * b + j)) }

/-- The tile with column block `b` of row `r` replaced. -/
def Tile.setBlk (t : Tile) (r b : Nat) (k : Blk) : Tile :=
  let e : BitVec 8 := match k.x with
    | none => 0x80
    | some i => BitVec.ofInt 8 i
  { mant := rput r (setField (rget r t.mant) (512 * b) 512 (packLanes 512 (k.m.map (BitVec.ofInt 32)))) t.mant
    exps := rput r (setField (rget r t.exps) (8 * b) 8 e) t.exps }

/-- ROUND_NE of an integer × 2^`e` (R118). -/
def roundNE (i e : Int) : Int := (roundInt .rne (decide (i < 0)) i.natAbs e).1

/-- The search of R118 for the exponent that holds every sum, from `y` up, at most `fuel` exponents. -/
def accFrom (k : Blk) (x : Int) (s : List (Int × Int)) : Nat → Int → Option Blk
  | 0, _ => none
  | fuel + 1, y =>
    let t := List.zipWith (fun m (p : Int × Int) => roundNE m (x - y) + roundNE p.1 (p.2 - y)) k.m s
    if t.all (fun v => decide (-(2 ^ 31) ≤ v) && decide (v ≤ 2 ^ 31 - 1)) then some { x := some y, m := t }
    else accFrom k x s fuel (y + 1)

/-- The least exponent of the nonzero sums of an arrival. -/
def leastExp (s : List (Int × Int)) : Int :=
  (s.foldl (fun (acc : Option Int) (p : Int × Int) => if p.1 = 0 then acc else match acc with
    | none => some p.2
    | some e => some (min e p.2)) none).getD 0

/-- ACC_ADD of R118: an arrival of 16 sums `S` × 2^`e`, or a NaN; the flags it raises. -/
def accAdd (k : Blk) (s : List (Int × Int)) (nan : Bool) : Blk × XF :=
  match k.x with
  | none => (Blk.bad, 0)
  | some x =>
    if nan then (Blk.bad, 0)
    else
      let empty_ := k.m.all (fun v => v == 0)
      if empty_ && s.all (fun p => p.1 == 0) then (k, 0)
      else
        let x0 := if empty_ then max (-127) (leastExp s) else x
        match accFrom k x s (128 - x0).toNat x0 with
        | some b => (b, 0)
        | none => (Blk.bad, xfOverflow)

/-- A finite number as an integer and an exponent; a NaN or an infinity has none (R120). -/
def Num.exact : Num → Option (Int × Int)
  | .fin neg m e => some (if neg then -(m : Int) else m, e)
  | _ => none

/-- Sixteen values written into a block (R120): it is cleared and takes them as one arrival. -/
def blkOf (l : List Num) : Blk × XF :=
  accAdd Blk.clear (l.map (fun v => v.exact.getD (0, 0))) (l.any (fun v => v.exact.isNone))

/-- The FP32 read of a column (R120). -/
def Tile.readF32 (t : Tile) (r c : Nat) : W32 :=
  match t.col r c with
  | .fin neg m e => BitVec.ofNat 32 (fmtF32.round false .rne neg m e).1
  | _ => BitVec.ofNat 32 fmtF32.nan

/-- The S32 read of a column (R120); its rounding raises nothing. -/
def Tile.readS32 (t : Tile) (r c : Nat) : W32 × XF :=
  let (i, x) := numToInt .rne (-(2 ^ 31)) (2 ^ 31 - 1) (t.col r c)
  (BitVec.ofInt 32 i, x &&& xfInvalid)

/-- Row and column of lane `i` of a four-row access from row `r` (R201). -/
def laneRow (r i : Nat) : Nat := r + i / 256
def laneCol (i : Nat) : Nat := i % 256

end Sys2Proof.Machine
end

