-- ==== Sys2Proof/Machine/Mem.lean ====
section
/-! DEFINITION. The LL, LK and LG slots: loads, stores, prefetches, atomics, reductions at memory, causal-token stores,
transaction barriers, waits and `drain` (R168 to R188), with what an issue hands to the local queue, the team store buffer
and the homes (R233, R236, R239, R240). -/

namespace Sys2Proof.Machine

/-- ADDRESS_FROM_OPERANDS of R49 for the words of stepped slots (R168, R212): `rg` reads the general registers. -/
def baseOf (rg : BitVec 6 → W64) : Instr → W64
  | .ld _ _ a o | .st _ _ a o | .ldm _ _ a o | .stm _ _ a o | .pfLg a o | .redAddF32 _ a o | .redMaxF32 _ a o | .redMinF32 _ a o
  | .redAddS32 _ a o | .redMaxS32 _ a o | .redMinS32 _ a o => rg a + (o.signExtend 64 <<< 6)
  | .ldsS8 _ _ a o | .ldsZ8 _ _ a o | .stsZ8 _ _ a o => rg a + o.signExtend 64
  | .ldsS16 _ _ a o | .ldsZ16 _ _ a o | .stsZ16 _ _ a o => rg a + (o.signExtend 64 <<< 1)
  | .ldsS32 _ _ a o | .ldsZ32 _ _ a o | .stsZ32 _ _ a o => rg a + (o.signExtend 64 <<< 2)
  | .ldsS64 _ _ a o | .stsZ64 _ _ a o | .waita _ _ a o => rg a + (o.signExtend 64 <<< 3)
  | .ldt _ _ a _ | .stt _ _ a _ | .aaddS64 _ _ a _ | .aminS64 _ _ a _ | .amaxS64 _ _ a _ | .aandZ64 _ _ a _ | .aorZ64 _ _ a _
  | .axorZ64 _ _ a _ | .aswpZ64 _ _ a _ | .acasZ64 _ _ a _ | .stLgC _ a _ | .stLgK _ a _ _ | .waitany _ a _ _ => rg a
  | .barWait _ a o _ | .barArrive _ a o | .barInit _ a o _ | .barExp _ a o _ => rg a + (o.signExtend 64 <<< 4)
  | .ldsc _ a o | .stsc _ a o => rg a + (o.signExtend 64 <<< 7)
  | .ldscB _ a o => rg a + o.signExtend 64
  | _ => 0

/-- The running address of the word `i` at this issue (R49). -/
def State.wordAddr (s : State) (i : Instr) : W64 := s.runAddr (baseOf s.rg i)

/-! ### Local accesses (R233, R237, R238) -/

/-- A local access queued: within one issue reads stand before stores (R170, R237). -/
def enqueue (o : LocalOp) (q : List LocalOp) : List LocalOp :=
  match o.act with
  | .store _ => q ++ [o]
  | _ =>
    let later := fun (p : LocalOp) => p.ctx == o.ctx && p.no == o.no && (match p.act with
      | .store _ => true
      | _ => false)
    q.filter (fun p => !later p) ++ [o] ++ q.filter later

/-- An LL, LK or SC access issued (R233). -/
def State.localOp (s : State) (act : LocalAct) (dest : Dest) : State :=
  let (id, s1) := s.operation
  s1.mapM (fun m => { m with locq := enqueue { id := id, ctx := s.cx, pc := s.iss.addr, slot := s.iss.slot, no := s.no, act := act,
                                               dest := dest } m.locq })

/-! ### Global accesses (R236, R239, R240) -/

/-- A store's seg covers the byte at `pa` of the home `chip`. -/
def Seg.covers (g : Seg) (chip : Option (BitVec 12)) (pa : Nat) : Bool := g.chip == chip && g.pa ≤ pa && pa < g.pa + g.len

/-- The bytes of a piece that the team's stores hold, the newest first (R240), by their place in the access. A store that still waits for
a token holds none (R245). -/
def Mach.ownBytes (m : Mach) (rid cl : Nat) (g : Seg) : KMap Byte :=
  let near := (m.gops.filter (fun o => o.rid == rid && o.cluster == cl && (match o.act, o.segs with
    | .store _, [q] => o.needs.isEmpty && q.chip == g.chip && q.pa < g.pa + g.len && g.pa < q.pa + q.len
    | _, _ => false))).reverse
  if near.isEmpty then []
  else (List.range g.len).filterMap (fun i =>
    match near.find? (fun o => o.segs.any (fun q => q.covers g.chip (g.pa + i))) with
    | some o =>
      match o.act, o.segs with
      | .store bs, [q] => some (g.off + i, bs.getD (g.pa + i - q.pa) 0)
      | _, _ => none
    | none => none)

/-- Whether the read of the piece `g` takes bytes from the store `o`. -/
def GOp.feeds (o : GOp) (g : Seg) : Bool :=
  match o.act with
  | .store _ => o.needs.isEmpty && o.segs.any (fun q => q.chip == g.chip && q.pa < g.pa + g.len && g.pa < q.pa + q.len)
  | _ => false

/-- The global operations after a read of context `x` has taken its team's bytes: the stores that hold them remember it, so that no
read which the context issued before them performs after them (R240). -/
def Mach.takenBy (m : Mach) (x rid cl : Nat) (segs : List Seg) : List GOp :=
  m.gops.map (fun o => if o.rid == rid && o.cluster == cl && segs.any o.feeds then { o with seen := x :: o.seen } else o)

/-- Whether an LG operation of the issue may go at once: its tokens are complete and no earlier LG operation of the context
waits (R245). -/
def State.lgNeeds (s : State) : List Nat :=
  if !s.needs.isEmpty then s.needs
  else if s.m.gops.any (fun g => g.ctx == s.cx && !g.needs.isEmpty && !g.isFeed) then [0]
  else []

/-- A global operation as this issue makes it. -/
def State.gop (s : State) (id : Nat) (act : GAct) (segs : List Seg) (own : KMap Byte) : GOp :=
  { id := id, ctx := s.cx, pc := s.iss.addr, rid := s.oc.rid, cluster := clusterOf s.cx, no := s.no, needs := s.lgNeeds, act := act,
    segs := segs, committed := s.oc.trp.handler, batch := 0, direct := s.oc.trp.handler, sent := false, reqs := [], own := own,
    got := [], seen := [], passed := [], prior := [] }

/-- The operation joins those in flight. -/
def State.addGop (s : State) (g : GOp) : State := s.mapM (fun m => { m with gops := m.gops ++ [g] })

/-- An LG operation that makes no access: its token reads complete once its own tokens do and no LG operation of its context waits (R74,
R245). In another slot no token names such an operation. -/
def State.nullOp (s : State) : State :=
  match s.ordLit with
  | none => s
  | some w =>
    if s.lgNeeds.isEmpty then s.modR (fun r => { r with ot := kdel (ordOut w) r.ot })
    else
      let (id, s1) := s.operation
      s1.addGop (s.gop id (.read .none) [] [])

/-- A read joins those in flight with the bytes that its team's stores hold (R240). -/
def State.addRead (s : State) (g : GOp) : State :=
  s.mapM (fun m => { m with gops := m.takenBy s.cx s.oc.rid (clusterOf s.cx) g.segs ++ [g] })

/-- An LG read issued (R240): the bytes that the team's stores hold are taken now. -/
def State.lgRead (s : State) (segs : List Seg) (dest : Dest) : State :=
  let (id, s1) := s.operation
  s1.addRead (s.gop id (.read dest) segs (segs.flatMap (s.m.ownBytes s.oc.rid (clusterOf s.cx))))

/-- A read that waited for a token begins (R245): it takes the bytes of those of its team's stores that were issued before it and hold
some now. -/
def Mach.retake (m : Mach) (g : GOp) : Mach :=
  match g.act with
  | .read _ =>
    let m0 := { m with gops := m.gops.takeWhile (fun h => h.id != g.id) }
    let now := g.segs.flatMap (m0.ownBytes g.rid g.cluster)
    { m with gops := m0.takenBy g.ctx g.rid g.cluster g.segs ++ (m.gops.dropWhile (fun h => h.id != g.id)).map (fun h =>
        if h.id == g.id then { h with own := now.foldl (fun acc p => kput p.1 p.2 acc) h.own } else h) }
  | _ => m

/-- A store or a reduction, which the team store buffer takes (R37, R239). -/
def GOp.isStored (g : GOp) : Bool :=
  match g.act with
  | .store _ | .red _ _ => true
  | _ => false

/-- Bytes in a team's store buffer, or on their way into it (R37). -/
def Mach.buffered (m : Mach) (rid cl : Nat) : Nat :=
  ((m.gops.filter (fun g => g.rid == rid && g.cluster == cl && !g.committed && g.isStored)).map (fun g =>
    (g.segs.map (fun q => q.len)).foldl (· + ·) 0)).foldl (· + ·) 0

/-- A full store buffer asks for a forced checkpoint (R37). Stores for which too little is left make one before their issue
(Issue.lean; DESIGN CHOICE, log 96). -/
def Mach.checkFull (m : Mach) (rid cl : Nat) : Mach :=
  if Config.storeBufferBytes ≤ m.buffered rid cl then m.modTeam rid cl (fun t => { t with full := true }) else m

/-- The contexts of the team learn of stores to `ls` that have entered their buffer (R185). -/
def Mach.noticeTeam (m : Mach) (rid cl : Nat) (ls : List Nat) : Mach :=
  { m with ctxs := m.ctxs.map (fun p => (p.1, if p.2.rid == rid && clusterOf p.1 == cl then p.2.notice ls else p.2)) }

/-- The entries that pieces and their payloads make: the first takes the number `id` of the word's operation, the others fresh ones. -/
def State.entries (s : State) (id : Option Nat) : List (GAct × Seg) → Mach → Mach
  | [], m => m
  | (a, g) :: rest, m =>
    let (k, m1) := match id with
      | some n => (n, m)
      | none => m.fresh
    s.entries none rest { m1 with gops := m1.gops ++ [s.gop k a [g] []] }

/-- The lines of this package's memory that pieces touch. -/
def homeLines (segs : List Seg) : List Nat := segs.flatMap (fun g => if g.chip.isNone then linesOf g.pa g.len else [])

/-- LG stores and reductions issued (R239): they enter the team store buffer, or go to their homes in handler mode (R313).
Their token completes once they have entered (R245). -/
def State.lgStore (s : State) (es : List (GAct × Seg)) : State :=
  let (id, s1) := s.operation
  let s2 := s1.mapM (s.entries (some id) es)
  let s3 := if s.lgNeeds.isEmpty then s2.mapM (fun m => m.finish id) else s2
  s3.mapM (fun m =>
    let m1 := if s.lgNeeds.isEmpty then m.noticeTeam s.oc.rid (clusterOf s.cx) (homeLines (es.map (fun e => e.2))) else m
    if s.oc.trp.handler then m1 else m1.checkFull s.oc.rid (clusterOf s.cx))

/-- The bytes of a plain store by piece. -/
def storeParts (bs : List Byte) (segs : List Seg) : List (GAct × Seg) :=
  segs.map (fun g => (.store ((bs.drop g.off).take g.len), g))

/-- The lines of a piece of a reduction (R299). -/
def redParts (op : RedOp) (ws : List W32) (segs : List Seg) : List (GAct × Seg) :=
  segs.flatMap (fun g => (List.range ((g.len + 63) / 64)).map (fun i =>
    let n := min 64 (g.len - 64 * i)
    (.red op ((ws.drop ((g.off + 64 * i) / 4)).take (n / 4)),
     { g with off := g.off + 64 * i, len := n, va := g.va + BitVec.ofNat 64 (64 * i), pa := g.pa + 64 * i })))

/-! ### Loads and stores by space -/

/-- A load of `n` bytes by the word `i` (R168, R169, R172, R173): `busy` are pending until the bytes are written. -/
def State.loadWord (s : State) (sp : Space) (i : Instr) (n align : Nat) (dest : Dest) (busy : List RegId) : Res :=
  if n = 0 then done s.nullOp
  else if sp = .lg then
    match s.old.access s.cx .load (s.wordAddr i) n align with
    | .error c => s.raise c
    | .ok segs => done ((s.lgRead segs dest).pendAll busy)
  else
    match s.old.local_ s.cx sp (s.wordAddr i) n align with
    | .error c => s.raise c
    | .ok loc => done ((s.localOp (.load [(loc, n)]) dest).pendAll busy)

/-- A store of bytes by the word `i` (R168, R169, R172, R173). -/
def State.storeWord (s : State) (sp : Space) (i : Instr) (bs : List Byte) (align : Nat) : Res :=
  if bs.isEmpty then done s.nullOp
  else if sp = .lg then
    match s.old.access s.cx .store (s.wordAddr i) bs.length align with
    | .error c => s.raise c
    | .ok segs => done (s.lgStore (storeParts bs segs))
  else
    match s.old.local_ s.cx sp (s.wordAddr i) bs.length align with
    | .error c => s.raise c
    | .ok loc => done (s.localOp (.store [(loc, bs)]) .none)

/-- A scalar load (R173): `n` bytes, aligned to their number. -/
def State.loadScalar (s : State) (sp : Space) (i : Instr) (g : BitVec 6) (n : Nat) (sign : Bool) : Res :=
  s.loadWord sp i n n (.scal g.toNat sign) (gR g)

/-- A scalar store (R173). -/
def State.storeScalar (s : State) (sp : Space) (i : Instr) (g : BitVec 6) (n : Nat) : Res :=
  s.storeWord sp i (vecLE n (s.rg g)) n

/-! ### Tiles (R160, R161, R174) -/

/-- The stored position of the element whose logical position is `p`, under the layout bit T (R161). -/
def tileStored (t : Bool) (p : Nat) : Nat := if t then tilePos (tileRC p).2 (tileRC p).1 else p

/-- Bytes of a tile in a format, and whether it takes scales (R174). -/
def tileBytes (f : Nat) : Nat :=
  match f with
  | 0 => 4096 | 1 => 2048 | 2 => 2048 | 8 => 512 | _ => 1024
def tileScaled (f : Nat) : Bool := f == 4 || f == 6 || f == 7 || f == 8

/-- `ldt` (R174): one access to the tile and, where the format takes them, its scale bytes (R169). -/
def State.loadTile (s : State) (sp : Space) (i : Instr) (v : BitVec 5) (w : W64) : Res :=
  let a := s.wordAddr i
  let n := tileBytes (layoutFmt w)
  let dest := Dest.tile v.toNat (layoutFmt w) (layoutT w)
  let rs : List Range := (a, n, n) :: (if tileScaled (layoutFmt w) then [(a + layoutOff w, 64, 64)] else [])
  if sp = .lg then
    match s.old.accessAll s.cx .load rs with
    | .error c => s.raise c
    | .ok segs => done ((s.lgRead segs dest).pendAll (vR v))
  else
    match s.old.localAll s.cx sp rs with
    | .error c => s.raise c
    | .ok locs => done ((s.localOp (.load (List.zip locs (rs.map (fun r => r.2.1)))) dest).pendAll (vR v))

/-- The bytes `stt` stores (R174): `.f32` elements in stored order. -/
def tileOut (v : VReg) (t : Bool) : List Byte :=
  (List.range 1024).flatMap (fun p => vecLE 4 (lane 32 v (tileStored t p)))

/-! ### Atomics (R176) -/

/-- The value an atomic writes, if it writes: `o` the old value, `b` the operand, `c` the compare value. -/
def amoNew (op : AmoOp) (o b c : W64) : Option W64 :=
  match op with
  | .add => some (o + b)
  | .min => some (if b.slt o then b else o)
  | .max => some (if o.slt b then b else o)
  | .and => some (o &&& b)
  | .or => some (o ||| b)
  | .xor => some (o ^^^ b)
  | .swp => some b
  | .cas => if o = c then some b else none

/-- An atomic by the word `i` (R176): g[gd] is pending until the reply. -/
def State.atomic (s : State) (sp : Space) (i : Instr) (op : AmoOp) (d b : BitVec 6) : Res :=
  if sp = .lg then
    match s.old.access s.cx .atomic (s.wordAddr i) 8 8 with
    | .error c => s.raise c
    | .ok segs =>
      let (id, s1) := s.operation
      done ((s1.addGop (s.gop id (.amo op (s.rg b) (s.rg d) d.toNat) segs [])).pendAll (gR d))
  else
    match s.old.local_ s.cx sp (s.wordAddr i) 8 8 with
    | .error c => s.raise c
    | .ok loc => done ((s.localOp (.amo op loc (s.rg b) (s.rg d)) (.scal d.toNat false)).pendAll (gR d))

/-! ### Reductions and causal stores (R178 to R180, R251, R253) -/

/-- A reduction at memory by the word `i` (R178). -/
def State.reduce (s : State) (i : Instr) (op : RedOp) (v : BitVec 5) : Res :=
  if s.vl = 0 then done s.nullOp
  else
    match s.old.access s.cx .red (s.wordAddr i) (4 * s.vl) 64 with
    | .error c => s.raise c
    | .ok segs => done (s.lgStore (redParts op (lanes 32 s.vl (s.rv v)) segs))

/-- The sequence number after `n` (R179). -/
def nextSeq (n : BitVec 16) : BitVec 16 := if n = 0xFFFF then 1 else n + 1

/-- The deadline of a token or request made now (R251, R296). -/
def Pkg.deadline (p : Pkg) : Nat := p.ftime + 1000 * p.expiry.toNat

/-- Whether the next sequence number can be assigned (R179, R251). -/
def Pkg.tokenFree (p : Pkg) : Bool :=
  p.own.length < Config.tokenPlaces && (kget p.nextTok.toNat p.own).isNone && (kget p.nextTok.toNat p.reuse).all (fun u => decide (u.1 + 2000 * u.2 ≤ p.ftime))

/-- A sequence number assigned to a `st.lg.c` of context `x` at `va` (R179, R252): its own entry is PENDING, or LANDED and so
freed at once when the store is empty. The oldest landed record makes room. -/
def Pkg.assign (p : Pkg) (x : Nat) (va : W64) (empty_ : Bool) : BitVec 16 × Pkg :=
  let n := p.nextTok
  let p1 := { p with nextTok := nextSeq n, reuse := kput n.toNat (p.ftime, p.expiry.toNat) p.reuse }
  if empty_ then (n, p1)
  else
    (n, { p1 with
      own := kput n.toNat { state := .pending, deadline := p.deadline, ctx := x, va := va, waiting := [] } p1.own
      landed := if Config.tokenPlaces ≤ p1.own.length + p1.landed.length then p1.landed.drop 1 else p1.landed })

/-- A lost or dropped causal store reported to context `x` (R255). -/
def Ctx.expire (c : Ctx) (va : W64) (lost : List (BitVec 16)) : Ctx :=
  { c with pend := { c.pend with
      pex := true
      pexN := if c.pend.pexN = 0xFFFF then c.pend.pexN else c.pend.pexN + 1
      pexA := if c.pend.pex then c.pend.pexA else va
      lost := c.pend.lost ++ lost } }

/-- A causal-token store issued (R179, R180): it leaves as soon as its tokens allow. -/
def State.causal (s : State) (v : BitVec 5) (seq : Option (BitVec 16)) (carries : List (BitVec 16)) (segs : List Seg) :
    State :=
  let (id, s1) := s.operation
  s1.addGop { s.gop id (.causal seq carries s.m.pkg.deadline (bytesOf (4 * s.vl) (s.rv v))) segs [] with committed := true }

/-- `st.lg.c` (R179). -/
def State.storeToken (s : State) (i : Instr) (v : BitVec 5) (c : BitVec 3) : Res :=
  let put := fun (t : State) (n : BitVec 16) => t.modR (fun r => { r with ct := rput c.toNat n r.ct })
  let a := s.wordAddr i
  if s.vl = 0 then
    let (n, p) := s.m.pkg.assign s.cx a true
    done (put (s.mapM (fun m => { m with pkg := p })).nullOp n)
  else
    match s.old.access s.cx .causal a (4 * s.vl) 64 with
    | .error e => s.raise e
    | .ok segs =>
      let (n, p) := s.m.pkg.assign s.cx a false
      done (put ((s.mapM (fun m => { m with pkg := p })).causal v (some n) [] segs) n)

/-- `st.lg.k` (R180, R253): PENDING tokens are carried; a LOST one drops the store. With `vl` = 0 it makes no access (R168), and a LOST
token that it names sets nothing (DESIGN CHOICE, log 97). -/
def State.storeCarrier (s : State) (i : Instr) (v : BitVec 5) (c k : BitVec 3) : Res :=
  let a := s.wordAddr i
  if s.vl = 0 then done s.nullOp
  else
    match s.old.access s.cx .causal a (4 * s.vl) 64 with
    | .error e => s.raise e
    | .ok segs =>
      let toks := ([rget c.toNat s.regs.ct, rget k.toNat s.regs.ct].filter (fun n => n != 0)).eraseDups
      let st := fun (n : BitVec 16) => (kget n.toNat s.m.pkg.own).map (fun e => e.state)
      if toks.any (fun n => st n == some .lost) then done (s.nullOp.modC (fun d => d.expire a []))
      else done (s.causal v none (toks.filter (fun n => st n == some .pending)) segs)

/-! ### Barriers (R181 to R184) -/

/-- BAR_UPDATE of R182 on the 16 bytes of a barrier. -/
def barUpdate (b : BitVec 128) (darr dsect : BitVec 32) : BitVec 128 :=
  let arr := b.extractLsb' 32 32 + darr
  let sect := b.extractLsb' 64 32 + dsect
  if arr = 0 ∧ sect = 0 then
    setField (setField (setField b 0 4 (b.extractLsb' 0 4 + 1)) 32 32 ((b.extractLsb' 96 16).zeroExtend 32)) 64 32
      ((b.extractLsb' 112 16).zeroExtend 32)
  else setField (setField b 32 32 arr) 64 32 sect

/-- A barrier that reports a transfer fault (R182). -/
def barFault (b : BitVec 128) (code : BitVec 8) : BitVec 128 :=
  if b.getLsbD 4 then b else setField (setField b 4 1 1) 16 8 code

/-- The barrier at a location. -/
def Mach.barrier (m : Mach) (loc : Nat) : BitVec 128 := BitVec.ofNat 128 (m.load loc 16)

/-- A barrier as `bar.init` leaves it (R183). -/
def barInitial (w : W32) : BitVec 128 :=
  let a := w.extractLsb' 0 16
  let k := w.extractLsb' 16 16
  k ++ a ++ k.zeroExtend 32 ++ a.zeroExtend 32 ++ (0 : BitVec 32)

/-- The transfer-fault trap of a barrier at window offset `a` (R183, R184). -/
def barTrap (b : BitVec 128) (a : W64) : Cause := { code := 0x08, sub := (b.extractLsb' 16 8).toNat, addr := a }

/-- A barrier word's location: 16 bytes, aligned to 16 (R168). -/
def State.barLoc (s : State) (sp : Space) (i : Instr) (n : Nat) (k : W64 → Nat → Res) : Res :=
  match s.old.local_ s.cx sp (s.wordAddr i) n 16 with
  | .error c => s.raise c
  | .ok loc => k (s.wordAddr i) loc

/-- The masked barriers of a `waitany` in the order of its rotating start (R184). -/
def anyOrder (rs : Nat) (m : BitVec 8) : List Nat := ((List.range 8).map (fun j => (rs + j) % 8)).filter (fun i => m.getLsbD i)

/-- `waitany` (R184). -/
def State.waitAny (s : State) (a : W64) (loc : Nat) (d : BitVec 6) (m : BitVec 8) : Res :=
  let order := anyOrder s.regs.rs.toNat m
  let w := s.rg d
  match order.find? (fun i => (s.old.barrier (loc + 16 * i)).getLsbD 4) with
  | some i => s.raise (barTrap (s.old.barrier (loc + 16 * i)) (a + BitVec.ofNat 64 (16 * i)))
  | none =>
    match order.find? (fun i => (s.old.barrier (loc + 16 * i)).extractLsb' 0 4 != w.extractLsb' (4 * i) 4) with
    | some i =>
      let low := setField (w.extractLsb' 0 32) (4 * i) 4 ((s.old.barrier (loc + 16 * i)).extractLsb' 0 4)
      done ((s.wg d ((BitVec.ofNat 32 i) ++ low)).modR (fun r => { r with rs := BitVec.ofNat 3 (i + 1) }))
    | none => s.park (.any loc m)

/-- `waita` completes, or parks on the line it read unless it has just been woken (R185). -/
def State.waitLine (s : State) (loc : Nat) (old b : W64) : Res :=
  if old ≠ b ∨ s.oc.hit = true then done (s.nullOp.modC (fun c => { c with hit := false })) else s.park (.line loc)

/-- The 8 bytes that an LG `waita` reads: its team's buffered bytes stand before memory's (R185, R171). -/
def Mach.peek (m : Mach) (rid cl : Nat) (g : Seg) : W64 :=
  let own := m.ownBytes rid cl g
  ofBytes 64 ((List.range 8).map (fun i => (kget (g.off + i) own).getD (readByte m.mem (g.pa + i))))

/-- `waita` on a remote, CXL or TSO page (R185): its read goes, and the bundle issues once it has performed. -/
def State.waitRead (s : State) (segs : List Seg) : Res :=
  let (id, m) := s.old.begin_
  let t : State := { s with
    m := m.modCtx s.cx (fun c => { c with status := .parked (.read id) })
    iss := { s.iss with trapped := true } }
  .next (t.addRead (s.gop id (.read (.scal 0 false)) segs (segs.flatMap (s.old.ownBytes s.oc.rid (clusterOf s.cx)))))

/-- What a `drain` waits for (R187): the context's own stores, atomics, reductions and causal stores, and every store
committed at its checkpoint. -/
def State.drainSet (s : State) : List Nat :=
  (s.m.gops.filter (fun g =>
    (match g.act with
     | .read _ => false
     | _ => true) &&
    (g.ctx == s.cx || (g.rid == s.oc.rid && g.cluster == clusterOf s.cx && g.batch == s.no)))).map (fun g => g.id)

/-! ### Meanings -/

/-- `ld` (R172): the first `vl` elements. -/
def execLd (sp : Space) (v : BitVec 5) (a : BitVec 6) (o : BitVec 9) (s : State) : Res :=
  s.loadWord sp (.ld sp v a o) (4 * s.vl) 64 (.vec v.toNat s.vl) (vR v)

/-- `st` (R172). -/
def execSt (sp : Space) (v : BitVec 5) (a : BitVec 6) (o : BitVec 9) (s : State) : Res :=
  s.storeWord sp (.st sp v a o) (bytesOf (4 * s.vl) (s.rv v)) 64

/-- `ldm` (R172): all 1,024 bits. -/
def execLdm (sp : Space) (m : BitVec 3) (a : BitVec 6) (o : BitVec 9) (s : State) : Res :=
  s.loadWord sp (.ldm sp m a o) 128 64 (.mask m.toNat) (mR m)

/-- `stm` (R172). -/
def execStm (sp : Space) (m : BitVec 3) (a : BitVec 6) (o : BitVec 9) (s : State) : Res :=
  s.storeWord sp (.stm sp m a o) (bytesOf 128 (s.rm m)) 64

/-- `pf.lg` (R166, R175): a prefetch that would fault is dropped and counted. -/
def execPfLg (a : BitVec 6) (o : BitVec 9) (s : State) : Res :=
  match s.old.access s.cx .load (s.wordAddr (.pfLg a o)) 4096 64 with
  | .error _ => done (s.nullOp.mapM (fun m => m.count s.oc.rid 1 1))
  | .ok segs => done (s.lgRead segs .none)

/-- `ldt` (R174). -/
def execLdt (sp : Space) (v : BitVec 5) (a b : BitVec 6) (s : State) : Res :=
  s.guard (.ldt sp v a b) (s.loadTile sp (.ldt sp v a b) v (s.rg b))

/-- `stt` (R174). -/
def execStt (sp : Space) (v : BitVec 5) (a b : BitVec 6) (s : State) : Res :=
  s.guard (.stt sp v a b) (s.storeWord sp (.stt sp v a b) (tileOut (s.rv v) (layoutT (s.rg b))) 4096)

def execLdsS8 (sp : Space) (g a : BitVec 6) (o : BitVec 8) (s : State) : Res := s.loadScalar sp (.ldsS8 sp g a o) g 1 true
def execLdsZ8 (sp : Space) (g a : BitVec 6) (o : BitVec 8) (s : State) : Res := s.loadScalar sp (.ldsZ8 sp g a o) g 1 false
def execLdsS16 (sp : Space) (g a : BitVec 6) (o : BitVec 8) (s : State) : Res := s.loadScalar sp (.ldsS16 sp g a o) g 2 true
def execLdsZ16 (sp : Space) (g a : BitVec 6) (o : BitVec 8) (s : State) : Res := s.loadScalar sp (.ldsZ16 sp g a o) g 2 false
def execLdsS32 (sp : Space) (g a : BitVec 6) (o : BitVec 8) (s : State) : Res := s.loadScalar sp (.ldsS32 sp g a o) g 4 true
def execLdsZ32 (sp : Space) (g a : BitVec 6) (o : BitVec 8) (s : State) : Res := s.loadScalar sp (.ldsZ32 sp g a o) g 4 false
def execLdsS64 (sp : Space) (g a : BitVec 6) (o : BitVec 8) (s : State) : Res := s.loadScalar sp (.ldsS64 sp g a o) g 8 true
def execStsZ8 (sp : Space) (g a : BitVec 6) (o : BitVec 8) (s : State) : Res := s.storeScalar sp (.stsZ8 sp g a o) g 1
def execStsZ16 (sp : Space) (g a : BitVec 6) (o : BitVec 8) (s : State) : Res := s.storeScalar sp (.stsZ16 sp g a o) g 2
def execStsZ32 (sp : Space) (g a : BitVec 6) (o : BitVec 8) (s : State) : Res := s.storeScalar sp (.stsZ32 sp g a o) g 4
def execStsZ64 (sp : Space) (g a : BitVec 6) (o : BitVec 8) (s : State) : Res := s.storeScalar sp (.stsZ64 sp g a o) g 8

def execAaddS64 (sp : Space) (d a b : BitVec 6) (s : State) : Res := s.atomic sp (.aaddS64 sp d a b) .add d b
def execAminS64 (sp : Space) (d a b : BitVec 6) (s : State) : Res := s.atomic sp (.aminS64 sp d a b) .min d b
def execAmaxS64 (sp : Space) (d a b : BitVec 6) (s : State) : Res := s.atomic sp (.amaxS64 sp d a b) .max d b
def execAandZ64 (sp : Space) (d a b : BitVec 6) (s : State) : Res := s.atomic sp (.aandZ64 sp d a b) .and d b
def execAorZ64 (sp : Space) (d a b : BitVec 6) (s : State) : Res := s.atomic sp (.aorZ64 sp d a b) .or d b
def execAxorZ64 (sp : Space) (d a b : BitVec 6) (s : State) : Res := s.atomic sp (.axorZ64 sp d a b) .xor d b
def execAswpZ64 (sp : Space) (d a b : BitVec 6) (s : State) : Res := s.atomic sp (.aswpZ64 sp d a b) .swp d b
/-- `acas.z64` (R176): g[gd] is the compare value. -/
def execAcasZ64 (sp : Space) (d a b : BitVec 6) (s : State) : Res := s.atomic sp (.acasZ64 sp d a b) .cas d b

def execRedAddF32 (v : BitVec 5) (a : BitVec 6) (o : BitVec 9) (s : State) : Res := s.reduce (.redAddF32 v a o) .addF32 v
def execRedMaxF32 (v : BitVec 5) (a : BitVec 6) (o : BitVec 9) (s : State) : Res := s.reduce (.redMaxF32 v a o) .maxF32 v
def execRedMinF32 (v : BitVec 5) (a : BitVec 6) (o : BitVec 9) (s : State) : Res := s.reduce (.redMinF32 v a o) .minF32 v
def execRedAddS32 (v : BitVec 5) (a : BitVec 6) (o : BitVec 9) (s : State) : Res := s.reduce (.redAddS32 v a o) .addS32 v
def execRedMaxS32 (v : BitVec 5) (a : BitVec 6) (o : BitVec 9) (s : State) : Res := s.reduce (.redMaxS32 v a o) .maxS32 v
def execRedMinS32 (v : BitVec 5) (a : BitVec 6) (o : BitVec 9) (s : State) : Res := s.reduce (.redMinS32 v a o) .minS32 v

/-- `st.lg.c` (R179). -/
def execStLgC (v : BitVec 5) (a : BitVec 6) (c : BitVec 3) (s : State) : Res := s.storeToken (.stLgC v a c) v c

/-- `st.lg.k` (R180). -/
def execStLgK (v : BitVec 5) (a : BitVec 6) (c k : BitVec 3) (s : State) : Res := s.storeCarrier (.stLgK v a c k) v c k

/-- `bar.wait` (R183). -/
def execBarWait (sp : Space) (a : BitVec 6) (o : BitVec 9) (h : BitVec 4) (s : State) : Res :=
  s.barLoc sp (.barWait sp a o h) 16 (fun off loc =>
    let b := s.old.barrier loc
    if b.getLsbD 4 then s.raise (barTrap b off)
    else if b.extractLsb' 0 4 ≠ h then done s
    else s.park (.bar loc))

/-- `bar.arrive` (R183). -/
def execBarArrive (sp : Space) (a : BitVec 6) (o : BitVec 9) (s : State) : Res :=
  s.barLoc sp (.barArrive sp a o) 16 (fun _ loc => done (s.localOp (.bar loc (BitVec.allOnes 32) 0) .none))

/-- `bar.init` (R183). -/
def execBarInit (sp : Space) (a : BitVec 6) (o : BitVec 9) (k : BitVec 5) (s : State) : Res :=
  s.guard (.barInit sp a o k) (s.barLoc sp (.barInit sp a o k) 16 (fun _ loc =>
    done (s.localOp (.store [(loc, vecLE 16 (barInitial (s.lit k.toNat)))]) .none)))

/-- `bar.exp` (R183). -/
def execBarExp (sp : Space) (a : BitVec 6) (o : BitVec 9) (k : BitVec 5) (s : State) : Res :=
  s.guard (.barExp sp a o k) (s.barLoc sp (.barExp sp a o k) 16 (fun _ loc =>
    done (s.localOp (.bar loc 0 (s.lit k.toNat)) .none)))

/-- `waitany` (R184): all 128 bytes are checked; a mask of 0 is refused at check 2 of R99. -/
def execWaitany (sp : Space) (a d : BitVec 6) (m : BitVec 8) (s : State) : Res :=
  if m = 0 then s.illegal 2
  else s.barLoc sp (.waitany sp a d m) 128 (fun off loc => s.waitAny off loc d m)

/-- `waita` (R185): on a remote, CXL or TSO page it completes after its read, which the bundle has then made. -/
def execWaita (sp : Space) (b a : BitVec 6) (o : BitVec 8) (s : State) : Res :=
  let i : Instr := .waita sp b a o
  if sp = .lg ∧ s.oc.readAt = some s.iss.addr then done (s.nullOp.modC (fun c => { c with readAt := none }))
  else if sp = .lg then
    match s.old.access s.cx .load (s.wordAddr i) 8 8 with
    | .error c => s.raise c
    | .ok segs =>
      match segs with
      | [g] =>
        if leafREM g.leaf || leafCXL g.leaf || leafTSO g.leaf then s.waitRead segs
        else s.waitLine g.pa (s.old.peek s.oc.rid (clusterOf s.cx) g) (s.rg b)
      | _ => done s
  else
    match s.old.local_ s.cx sp (s.wordAddr i) 8 8 with
    | .error c => s.raise c
    | .ok loc => s.waitLine loc (BitVec.ofNat 64 (s.old.load loc 8)) (s.rg b)

/-- `drain` (R187): a pending fault of run code is delivered first; the checkpoint that precedes the issue has committed the
store buffer. It waits until its tokens are complete, and for the LG operations of its context that wait for theirs (R245). -/
def execDrain (s : State) : Res :=
  s.deliverFirst (
    let (id, s1) := s.operation
    let held := (s.m.gops.filter (fun g => g.ctx == s.cx && !g.needs.isEmpty && !g.isFeed)).map (fun g => g.id)
    done (s1.modC (fun c => { c with drains := (id, true) :: (s.needs.map (fun k => (k, true)) ++ (held ++ s.drainSet).map (fun k => (k, false))) })))

end Sys2Proof.Machine
end

