-- ==== Sys2Proof/Machine/Vector.lean ====
section
/-! DEFINITION. The V slot (R189 to R202): lanes and masks, floating-point and integer arithmetic, compares, mask logic, moves,
tile reorders, reductions, generators and `vacc`. An operation computes from the operands of its issue (R190) and waits in the
context's V queue; it writes its destination when it completes. -/

namespace Sys2Proof.Machine

/-- The active lanes of a form (R189), `m` and `e` its mask fields. -/
def State.active (s : State) (m : BitVec 3) (e : BitVec 1) : List Nat :=
  (List.range s.vl).filter (fun i => e == 0 || (s.rm m).getLsbD i)

/-- RM and GEN of `VRM` (R77). -/
def State.vrmMode (s : State) : Nat := (s.regs.vrm.extractLsb' 0 3).toNat
def State.vrmGen (s : State) : Nat := (s.regs.vrm.extractLsb' 3 2).toNat

/-- Elements of `n` bits of a register replaced. -/
def setLanes {w : Nat} (n : Nat) (v : BitVec w) (l : List (Nat × BitVec n)) : BitVec w :=
  l.foldl (fun acc p => setField acc (n * p.1) n p.2) v

/-- Each element with its draw; no draws are left where the mode takes none (R107). -/
def withDraws {α : Type} : List α → List W32 → List (α × W32)
  | [], _ => []
  | a :: r, [] => (a, 0) :: withDraws r []
  | a :: r, d :: ds => (a, d) :: withDraws r ds

/-- A V or QC operation of this issue that makes the writes given, `tile` the accumulator tile that it reads, if it reads one. -/
def State.newV (s : State) (id : Nat) (tile : Option Nat) (vW : List (Nat × VReg)) (mW : List (Nat × BitVec 1024)) (gW : List (Nat × W64))
    (flags : XF) : VOp :=
  { id := id, no := s.no, pc := s.iss.addr, tile := tile, srcs := s.iss.srcs, needs := s.needs, begun := false, vW := vW, mW := mW, gW := gW, flags := flags }

/-- A V operation enters the context's queue with the writes it will make (R190). -/
def State.vop (s : State) (tile : Option Nat) (vW : List (Nat × VReg)) (mW : List (Nat × BitVec 1024)) (gW : List (Nat × W64)) (flags : XF)
    (rs : List RegId) : Res :=
  let (id, s1) := s.operation
  done ((s1.modC (fun c => { c with vq := c.vq ++ [s.newV id tile vW mW gW flags] })).pendAll rs)

/-- A vector result. -/
def State.vput (s : State) (d : BitVec 5) (v : VReg) (flags : XF) : Res := s.vop none [(d.toNat, v)] [] [] flags (vR d)

/-- A mask result. -/
def State.mput (s : State) (c : BitVec 3) (v : BitVec 1024) : Res := s.vop none [] [(c.toNat, v)] [] 0 (mR c)

/-- The elements of `n` bits in some lanes (R189). -/
def elemsOf (n : Nat) (ls : List Nat) : List Nat := if n = 16 then ls.flatMap (fun i => [2 * i, 2 * i + 1]) else ls

/-- A floating-point form (R193): `n` bits an element, rounding by `VRM` with a draw for each active element. -/
def State.vfloat (s : State) (f : Fmt) (n : Nat) (op : FOp) (d a b : BitVec 5) (m : BitVec 3) (e : BitVec 1) : Res :=
  let es := elemsOf n (s.active m e)
  let (ds, s1) := s.roundDraws s.vrmMode s.vrmGen es.length
  let out := (withDraws es ds).map (fun p =>
    let at_ := fun (v : VReg) => (lane n v p.1 : BitVec n).toNat
    let r := fop f op (roundOf s.vrmMode p.2) (at_ (s.rv a)) (at_ (s.rv b)) (at_ (s.rv d))
    (p.1, BitVec.ofNat n r.1, r.2))
  s1.vput d (setLanes n (s.rv d) (out.map (fun p => (p.1, p.2.1)))) (out.foldl (fun x p => x ||| p.2.2) 0)

/-- `vabs` and `vneg` (R193): no draw, no flag. -/
def State.vsign (s : State) (op : FOp) (d a : BitVec 5) (m : BitVec 3) (e : BitVec 1) : Res :=
  s.vput d (setLanes 32 (s.rv d) ((s.active m e).map (fun i =>
    (i, BitVec.ofNat 32 (fop fmtF32 op .rne (lane 32 (s.rv a) i : W32).toNat 0 0).1)))) 0

/-- An integer or logic form (R194), or a move (R197). -/
def State.vint (s : State) (f : W32 → W32 → W32) (d a b : BitVec 5) (m : BitVec 3) (e : BitVec 1) : Res :=
  s.vput d (setLanes 32 (s.rv d) ((s.active m e).map (fun i => (i, f (lane 32 (s.rv a) i) (lane 32 (s.rv b) i))))) 0

/-- A compare (R195). -/
def State.vcmp (s : State) (rel : W32 → W32 → Bool) (c : BitVec 3) (a b : BitVec 5) (m : BitVec 3) (e : BitVec 1) : Res :=
  s.mput c (setLanes 1 (s.rm c) ((s.active m e).map (fun i =>
    (i, BitVec.ofBool (rel (lane 32 (s.rv a) i) (lane 32 (s.rv b) i))))))

/-- The value of an `.f32` word. -/
def numF32 (w : W32) : Num := fmtF32.decode w.toNat

/-- The `.f32` relations (R124). -/
def ltF (a b : W32) : Bool := ltNum (numF32 a) (numF32 b)
def eqF (a b : W32) : Bool := eqNum (numF32 a) (numF32 b)
def leF (a b : W32) : Bool := ltF a b || eqF a b

/-! ### Tile reorders (R198) -/

/-- A register whose element `i` is element `f i` of `v`. -/
def reorder (v : VReg) (f : Nat → Nat) : VReg := packLanes 32768 ((List.range 1024).map (fun i => (lane 32 v (f i) : W32)))

/-- The position that `vtr32` reads for position `p`. -/
def transposed (p : Nat) : Nat := tilePos (tileRC p).2 (tileRC p).1

/-- The row-major number of the element at position `p`. -/
def rowMajor (p : Nat) : Nat := 32 * (tileRC p).1 + (tileRC p).2

/-! ### Reductions (R125, R199) -/

/-- One level of the tree: neighbours are combined, an absent one lets its partner through; the draws that are left and the
flags raised. -/
def pairUp (op : Round → W32 → W32 → W32 × XF) (rm : Nat) : List (Option W32) → List W32 → List (Option W32) × List W32 × XF
  | some p :: some q :: rest, ds =>
    let (v, x) := op (roundOf rm (ds.headD 0)) p q
    let (l, ds', y) := pairUp op rm rest (ds.drop 1)
    (some v :: l, ds', x ||| y)
  | some p :: none :: rest, ds =>
    let (l, ds', y) := pairUp op rm rest ds
    (some p :: l, ds', y)
  | none :: q :: rest, ds =>
    let (l, ds', y) := pairUp op rm rest ds
    (q :: l, ds', y)
  | [q], ds => ([q], ds, 0)
  | [], ds => ([], ds, 0)

/-- `n` levels of the tree: the value of the root and the flags. -/
def treeOf (op : Round → W32 → W32 → W32 × XF) (rm : Nat) : Nat → List (Option W32) → List W32 → Option W32 × XF
  | 0, l, _ => (l.headD none, 0)
  | n + 1, l, ds =>
    let (l', ds', x) := pairUp op rm l ds
    let (v, y) := treeOf op rm n l' ds'
    (v, x ||| y)

/-- A reduction (R199): a draw for each COMBINE of two present values, the result through `fin` in element 0. -/
def State.vreduce (s : State) (op : Round → W32 → W32 → W32 × XF) (fin : W32 → W32) (empty_ : W32) (d a : BitVec 5) (m : BitVec 3)
    (e : BitVec 1) : Res :=
  let on := s.active m e
  let (ds, s1) := s.roundDraws s.vrmMode s.vrmGen (on.length - 1)
  let leaves := (List.range s.vl).map (fun i => if e == 0 || (s.rm m).getLsbD i then some (lane 32 (s.rv a) i : W32) else none)
  let (v, x) := treeOf op s.vrmMode 10 leaves ds
  s1.vput d ((fin (v.getD empty_)).zeroExtend 32768) x

/-- The combining operations of R125. -/
def redF (op : FOp) (r : Round) (a b : W32) : W32 × XF :=
  let (v, x) := fop fmtF32 op r a.toNat b.toNat 0
  (BitVec.ofNat 32 v, x)

/-- A maximum or minimum over lanes with a NaN is the canonical NaN, a lone lane's too (R199). -/
def oneNaN (v : W32) : W32 := if v.extractLsb' 23 8 = 0xFF ∧ v.extractLsb' 0 23 ≠ 0 then 0x7FC00000 else v

/-! ### Meanings -/

def execVaddF32 (d a b : BitVec 5) (m : BitVec 3) (e : BitVec 1) (s : State) : Res := s.vfloat fmtF32 32 .add d a b m e
def execVsubF32 (d a b : BitVec 5) (m : BitVec 3) (e : BitVec 1) (s : State) : Res := s.vfloat fmtF32 32 .sub d a b m e
def execVmulF32 (d a b : BitVec 5) (m : BitVec 3) (e : BitVec 1) (s : State) : Res := s.vfloat fmtF32 32 .mul d a b m e
/-- `vfma.f32` (R193): vd is read too. -/
def execVfmaF32 (d a b : BitVec 5) (m : BitVec 3) (e : BitVec 1) (s : State) : Res := s.vfloat fmtF32 32 .fma d a b m e
def execVminF32 (d a b : BitVec 5) (m : BitVec 3) (e : BitVec 1) (s : State) : Res := s.vfloat fmtF32 32 .min d a b m e
def execVmaxF32 (d a b : BitVec 5) (m : BitVec 3) (e : BitVec 1) (s : State) : Res := s.vfloat fmtF32 32 .max d a b m e
def execVaddBf16 (d a b : BitVec 5) (m : BitVec 3) (e : BitVec 1) (s : State) : Res := s.vfloat fmtBf16 16 .add d a b m e
def execVsubBf16 (d a b : BitVec 5) (m : BitVec 3) (e : BitVec 1) (s : State) : Res := s.vfloat fmtBf16 16 .sub d a b m e
def execVmulBf16 (d a b : BitVec 5) (m : BitVec 3) (e : BitVec 1) (s : State) : Res := s.vfloat fmtBf16 16 .mul d a b m e
def execVfmaBf16 (d a b : BitVec 5) (m : BitVec 3) (e : BitVec 1) (s : State) : Res := s.vfloat fmtBf16 16 .fma d a b m e
def execVminBf16 (d a b : BitVec 5) (m : BitVec 3) (e : BitVec 1) (s : State) : Res := s.vfloat fmtBf16 16 .min d a b m e
def execVmaxBf16 (d a b : BitVec 5) (m : BitVec 3) (e : BitVec 1) (s : State) : Res := s.vfloat fmtBf16 16 .max d a b m e
def execVaddF16 (d a b : BitVec 5) (m : BitVec 3) (e : BitVec 1) (s : State) : Res := s.vfloat fmtF16 16 .add d a b m e
def execVsubF16 (d a b : BitVec 5) (m : BitVec 3) (e : BitVec 1) (s : State) : Res := s.vfloat fmtF16 16 .sub d a b m e
def execVmulF16 (d a b : BitVec 5) (m : BitVec 3) (e : BitVec 1) (s : State) : Res := s.vfloat fmtF16 16 .mul d a b m e
def execVfmaF16 (d a b : BitVec 5) (m : BitVec 3) (e : BitVec 1) (s : State) : Res := s.vfloat fmtF16 16 .fma d a b m e
def execVminF16 (d a b : BitVec 5) (m : BitVec 3) (e : BitVec 1) (s : State) : Res := s.vfloat fmtF16 16 .min d a b m e
def execVmaxF16 (d a b : BitVec 5) (m : BitVec 3) (e : BitVec 1) (s : State) : Res := s.vfloat fmtF16 16 .max d a b m e
def execVdivF32 (d a b : BitVec 5) (m : BitVec 3) (e : BitVec 1) (s : State) : Res := s.vfloat fmtF32 32 .div d a b m e
def execVsqrtF32 (d a : BitVec 5) (m : BitVec 3) (e : BitVec 1) (s : State) : Res := s.vfloat fmtF32 32 .sqrt d a a m e
def execVabsF32 (d a : BitVec 5) (m : BitVec 3) (e : BitVec 1) (s : State) : Res := s.vsign .abs d a m e
def execVnegF32 (d a : BitVec 5) (m : BitVec 3) (e : BitVec 1) (s : State) : Res := s.vsign .neg d a m e
def execVaddS32 (d a b : BitVec 5) (m : BitVec 3) (e : BitVec 1) (s : State) : Res := s.vint (· + ·) d a b m e
def execVsubS32 (d a b : BitVec 5) (m : BitVec 3) (e : BitVec 1) (s : State) : Res := s.vint (· - ·) d a b m e
def execVmulS32 (d a b : BitVec 5) (m : BitVec 3) (e : BitVec 1) (s : State) : Res := s.vint (· * ·) d a b m e
/-- `vmulh.s32` (R194): bits 63 to 32 of the signed product. -/
def execVmulhS32 (d a b : BitVec 5) (m : BitVec 3) (e : BitVec 1) (s : State) : Res :=
  s.vint (fun x y => (x.signExtend 64 * y.signExtend 64).extractLsb' 32 32) d a b m e
def execVminS32 (d a b : BitVec 5) (m : BitVec 3) (e : BitVec 1) (s : State) : Res :=
  s.vint (fun x y => if x.slt y then x else y) d a b m e
def execVmaxS32 (d a b : BitVec 5) (m : BitVec 3) (e : BitVec 1) (s : State) : Res :=
  s.vint (fun x y => if x.slt y then y else x) d a b m e
def execVminZ32 (d a b : BitVec 5) (m : BitVec 3) (e : BitVec 1) (s : State) : Res :=
  s.vint (fun x y => if x.ult y then x else y) d a b m e
def execVmaxZ32 (d a b : BitVec 5) (m : BitVec 3) (e : BitVec 1) (s : State) : Res :=
  s.vint (fun x y => if x.ult y then y else x) d a b m e
def execVandZ32 (d a b : BitVec 5) (m : BitVec 3) (e : BitVec 1) (s : State) : Res := s.vint (· &&& ·) d a b m e
def execVorZ32 (d a b : BitVec 5) (m : BitVec 3) (e : BitVec 1) (s : State) : Res := s.vint (· ||| ·) d a b m e
def execVxorZ32 (d a b : BitVec 5) (m : BitVec 3) (e : BitVec 1) (s : State) : Res := s.vint (· ^^^ ·) d a b m e
/-- Shift counts are the low 5 bits of the element (R194). -/
def execVshlZ32 (d a b : BitVec 5) (m : BitVec 3) (e : BitVec 1) (s : State) : Res :=
  s.vint (fun x y => x <<< (y.extractLsb' 0 5).toNat) d a b m e
def execVshrZ32 (d a b : BitVec 5) (m : BitVec 3) (e : BitVec 1) (s : State) : Res :=
  s.vint (fun x y => x >>> (y.extractLsb' 0 5).toNat) d a b m e
def execVasrS32 (d a b : BitVec 5) (m : BitVec 3) (e : BitVec 1) (s : State) : Res :=
  s.vint (fun x y => x.sshiftRight (y.extractLsb' 0 5).toNat) d a b m e
def execVnotZ32 (d a : BitVec 5) (m : BitVec 3) (e : BitVec 1) (s : State) : Res := s.vint (fun x _ => ~~~x) d a a m e
def execVcmpLtF32 (c : BitVec 3) (a b : BitVec 5) (m : BitVec 3) (e : BitVec 1) (s : State) : Res := s.vcmp ltF c a b m e
def execVcmpLeF32 (c : BitVec 3) (a b : BitVec 5) (m : BitVec 3) (e : BitVec 1) (s : State) : Res := s.vcmp leF c a b m e
def execVcmpEqF32 (c : BitVec 3) (a b : BitVec 5) (m : BitVec 3) (e : BitVec 1) (s : State) : Res := s.vcmp eqF c a b m e
def execVcmpLtS32 (c : BitVec 3) (a b : BitVec 5) (m : BitVec 3) (e : BitVec 1) (s : State) : Res := s.vcmp BitVec.slt c a b m e
def execVcmpEqS32 (c : BitVec 3) (a b : BitVec 5) (m : BitVec 3) (e : BitVec 1) (s : State) : Res := s.vcmp (· == ·) c a b m e
def execVcmpLtZ32 (c : BitVec 3) (a b : BitVec 5) (m : BitVec 3) (e : BitVec 1) (s : State) : Res := s.vcmp BitVec.ult c a b m e
/-- Mask logic acts on all 1,024 bits (R196). -/
def execVmand (c a b : BitVec 3) (s : State) : Res := s.mput c (s.rm a &&& s.rm b)
def execVmor (c a b : BitVec 3) (s : State) : Res := s.mput c (s.rm a ||| s.rm b)
def execVmxor (c a b : BitVec 3) (s : State) : Res := s.mput c (s.rm a ^^^ s.rm b)
def execVmnot (c a : BitVec 3) (s : State) : Res := s.mput c (~~~(s.rm a))

/-- `vsel` (R197): the mask selects and does not gate. -/
def execVsel (d a b : BitVec 5) (m : BitVec 3) (s : State) : Res :=
  s.vput d (setLanes 32 (s.rv d) ((List.range s.vl).map (fun i =>
    (i, (lane 32 (if (s.rm m).getLsbD i then s.rv a else s.rv b) i : W32))))) 0

/-- `vperm` (R197). -/
def execVperm (d a b : BitVec 5) (m : BitVec 3) (e : BitVec 1) (s : State) : Res :=
  s.vput d (setLanes 32 (s.rv d) ((s.active m e).map (fun i =>
    (i, (lane 32 (s.rv a) ((lane 32 (s.rv b) i : W32).extractLsb' 0 10).toNat : W32))))) 0

/-- `vbcast` (R197). -/
def execVbcast (d : BitVec 5) (a : BitVec 6) (s : State) : Res :=
  s.vput d (setLanes 32 (s.rv d) ((List.range s.vl).map (fun i => (i, (s.rg a).extractLsb' 0 32)))) 0

/-- `vext` (R197). -/
def execVext (g : BitVec 6) (a : BitVec 5) (b : BitVec 6) (s : State) : Res :=
  s.vop none [] [] [(g.toNat, (lane 32 (s.rv a) ((s.rg b).extractLsb' 0 10).toNat : W32).zeroExtend 64)] 0 (gR g)

/-- `vins` (R197): vd is read too. -/
def execVins (d : BitVec 5) (a b : BitVec 6) (s : State) : Res :=
  s.vput d (setLanes 32 (s.rv d) [(((s.rg b).extractLsb' 0 10).toNat, (s.rg a).extractLsb' 0 32)]) 0

/-- `vtr32` (R198). -/
def execVtr32 (d a : BitVec 5) (s : State) : Res := s.vput d (reorder (s.rv a) transposed) 0

/-- `vzord` (R198): row-major to Z-order. -/
def execVzord (d a : BitVec 5) (s : State) : Res := s.vput d (reorder (s.rv a) rowMajor) 0

/-- `vrowm` (R198): Z-order to row-major. -/
def execVrowm (d a : BitVec 5) (s : State) : Res := s.vput d (reorder (s.rv a) (fun i => tilePos (i / 32) (i % 32))) 0

def execVrsumF32 (d a : BitVec 5) (m : BitVec 3) (e : BitVec 1) (s : State) : Res := s.vreduce (redF .add) oneNaN 0 d a m e
def execVrmaxF32 (d a : BitVec 5) (m : BitVec 3) (e : BitVec 1) (s : State) : Res := s.vreduce (redF .max) oneNaN 0xFF800000 d a m e
def execVrminF32 (d a : BitVec 5) (m : BitVec 3) (e : BitVec 1) (s : State) : Res := s.vreduce (redF .min) oneNaN 0x7F800000 d a m e
/-- `vrsum.s32` (R199): its COMBINEs take draws too. -/
def execVrsumS32 (d a : BitVec 5) (m : BitVec 3) (e : BitVec 1) (s : State) : Res :=
  s.vreduce (fun _ x y => (x + y, 0)) id 0 d a m e

/-- `vrand.z32` (R200). -/
def execVrandZ32 (d : BitVec 5) (n : BitVec 2) (s : State) : Res :=
  let (ds, s1) := s.draws n.toNat s.vl
  s1.vput d (setLanes 32 (s.rv d) (List.zip (List.range s.vl) ds)) 0

/-- `vsetvl` (R192): it enters no queue, so an `ord` that names it finds nothing. -/
def execVsetvl (a : BitVec 6) (s : State) : Res :=
  done (s.modR (fun r => { r with vl := if (s.rg a).toNat ≤ 1024 then (s.rg a).extractLsb' 0 11 else 1024 }))

def execVmov (d a : BitVec 5) (m : BitVec 3) (e : BitVec 1) (s : State) : Res := s.vint (fun x _ => x) d a a m e

/-- `vacc.f32` (R201): the exact tile value, an exact zero as +0, is added to vd. -/
def execVaccF32 (d : BitVec 5) (t : BitVec 3) (r : BitVec 5) (s : State) : Res :=
  s.guard (.vaccF32 d t r) (
    let tile := (s.old.core (coreOf s.cx)).tile t.toNat
    let (ds, s1) := s.roundDraws s.vrmMode s.vrmGen s.vl
    let out := (withDraws (List.range s.vl) ds).map (fun p =>
      let y := addNum fmtF32 (roundOf s.vrmMode p.2) (numF32 (lane 32 (s.rv d) p.1))
        (tile.col (laneRow r.toNat p.1) (laneCol p.1))
      (p.1, BitVec.ofNat 32 y.1, y.2))
    s1.vop (some t.toNat) [(d.toNat, setLanes 32 (s.rv d) (out.map (fun p => (p.1, p.2.1))))] [] [] (out.foldl (fun x p => x ||| p.2.2) 0) (vR d))

end Sys2Proof.Machine
end

