-- ==== Sys2Proof/Machine/Stones.lean ====
section
/-! DEFINITION. The M slot (R216 to R232): feeds and feed offsets, stone loads, the matrix forms, dendritic sums, curve tables
and branch maps, and the moves of accumulator rows. An issue hands an operation to the core's M queue with what it captured;
`Core.perform` is what the operation does when it completes (R216). -/

namespace Sys2Proof.Machine

/-! ### Alignment of blocks (R114, R115) -/

/-- ROUND_NE of a number × 2^`q`; a NaN or an infinity gives 0. -/
def alignTo (q : Int) : Num → Int
  | .fin neg m e => (roundInt .rne neg m (e + q)).1
  | _ => 0

/-- A block of 16 values aligned so that the largest takes `top` + 1 bits: the integers, the exponent, the NaN mark. -/
def alignBlock (top : Int) (x : List Num) : List Int × Int × Bool :=
  if x.any (fun v => !v.isFin) then (x.map (fun _ => 0), 0, true)
  else
    match maxLog2 x with
    | none => (x.map (fun _ => 0), 0, false)
    | some e => (x.map (alignTo (top - e)), e - top, false)

/-- A column of a stone: 16 K blocks of 16 cells with their exponents and NaN marks (R114). -/
structure StoneCol where
  c   : List (List Int)
  e   : List Int
  nan : List Bool
  deriving DecidableEq, Repr

/-- Column `n` of a stone. -/
def Stone.column (t : Stone) (n : Nat) : StoneCol :=
  { c := chunks 16 16 ((lanes 12 256 (rget n t.cells)).map BitVec.toInt)
    e := (List.range 16).map (fun k => kgetD 0 (16 * n + k) t.exps)
    nan := (List.range 16).map (fun k => t.nan.contains (16 * n + k)) }

/-- A stone from its columns of aligned K blocks. -/
def stoneOf (cols : List (List (List Int × Int × Bool))) : Stone :=
  let num := List.zip (List.range 256) cols
  { cells := num.foldl (fun acc p => rput p.1 (packLanes 3072 ((p.2.flatMap (fun b => b.1)).map (BitVec.ofInt 12))) acc) []
    exps := num.flatMap (fun p => (List.zip (List.range 16) p.2).filterMap (fun q =>
      if q.2.2.1 = 0 then none else some (16 * p.1 + q.1, q.2.2.1)))
    nan := num.flatMap (fun p => (List.zip (List.range 16) p.2).filterMap (fun q =>
      if q.2.2.2 then some (16 * p.1 + q.1) else none)) }

/-- The image of `ldb` (R220): `bytes` of elements of `n` bits in format `f`, scales after them where `scaled`. -/
def stoneImage (f : Fmt) (n : Nat) (scaled : Bool) (bs : List Byte) : Stone :=
  let per := 256 * n / 8
  let cols := chunks per 256 bs
  let scales := chunks 16 256 (bs.drop (256 * per))
  stoneOf ((List.zip (List.range 256) cols).map (fun p =>
    let v : BitVec 4096 := ofBytes 4096 p.2
    let x := (List.range 256).map (fun k => f.decode (lane n v k : BitVec n).toNat)
    let sc := scales.getD p.1 []
    (List.zip (List.range 16) (chunks 16 16 x)).map (fun b =>
      alignBlock 10 (if scaled then b.2.map (dequant (sc.getD b.1 0)) else b.2))))

/-- The image of `ldb.s8` (R114, R220). -/
def stoneBytes (bs : List Byte) : Stone :=
  stoneOf ((chunks 256 256 bs).map (fun c => (chunks 16 16 c).map (fun b => (b.map BitVec.toInt, 0, false))))

/-! ### Feeds (R105, R115, R219, R221) -/

/-- What a matrix form takes from its word and its literal (R222, R226): the tile, the stones in ascending order, M, N and K in
blocks of 16, the planes fed (9 for `.bf16`), the planes stored, the first scale register if scales are supplied, and the
register of an LG feed (0 for the core scratchpad). `segs` is the number of segments of an A row. -/
structure MForm where
  tile   : Nat
  stones : List Nat
  segs   : Nat
  rows   : Nat
  nb     : Nat
  kb     : Nat
  planes : Nat
  stored : Nat
  scales : Option Nat
  ga     : BitVec 6
  clr    : Bool
  deriving DecidableEq, Repr

/-- `mm.bpN` and `mm.bf16` (R222). -/
def mmForm (t : BitVec 3) (m : BitVec 4) (rows : BitVec 6) (planes : Nat) (c : BitVec 1) : MForm :=
  { tile := t.toNat, stones := stonesIn m, segs := (stonesIn m).length, rows := rows.toNat, nb := 16, kb := 16, planes := planes,
    stored := 8, scales := none, ga := 0, clr := c == 1 }

/-- `mmx` (R222). -/
def mmxForm (t : BitVec 3) (m : BitVec 4) (w : W32) (c : BitVec 1) : MForm :=
  { tile := t.toNat, stones := stonesIn m, segs := (stonesIn m).length, rows := (w.extractLsb' 20 6).toNat,
    nb := (w.extractLsb' 15 5).toNat, kb := (w.extractLsb' 10 5).toNat, planes := (w.extractLsb' 6 4).toNat,
    stored := (w.extractLsb' 3 3).toNat + 1, scales := if w.getLsbD 2 then some (4 * (w.extractLsb' 0 2).toNat) else none,
    ga := w.extractLsb' 26 6, clr := c == 1 }

/-- `dmm` and `dmmr` (R226): the reverse pass feeds one segment a row (R228). -/
def dmmForm (rev : Bool) (t : BitVec 3) (m : BitVec 4) (w : W32) (c : BitVec 1) : MForm :=
  { tile := t.toNat, stones := stonesIn m, segs := if rev then 1 else (stonesIn m).length, rows := (w.extractLsb' 26 6).toNat,
    nb := 16, kb := 16, planes := (w.extractLsb' 11 4).toNat, stored := (w.extractLsb' 8 3).toNat + 1, scales := none,
    ga := w.extractLsb' 2 6, clr := c == 1 }

/-- Bytes read of a segment, and the distance of two segments (R221). -/
def MForm.segBytes (f : MForm) : Nat := if f.planes = 9 then 512 else 32 * f.planes
def MForm.stride (f : MForm) : Nat := if f.planes = 9 then 512 else 32 * f.stored

/-- Where the segments of a feed begin, from its base (R221); a form with a zero dimension reads nothing (R223). -/
def MForm.pieces (f : MForm) : List Nat :=
  if f.nb = 0 ∨ f.kb = 0 then [] else (List.range (f.rows * f.segs)).map (fun i => i * f.stride)

/-- OFF of a feed offset (R219). -/
def foOff (w : W32) : BitVec 21 := w.extractLsb' 0 21

/-- The post-increment of R219. -/
def foNext (w : W32) : W32 := setField w 0 21 (foOff w + ((w.extractLsb' 21 11).signExtend 21 <<< 5))

/-- The feed offset as the issue reads it. -/
def State.fo (s : State) (o : BitVec 3) : W32 := rget o.toNat s.regs.fo

/-- A feed offset written at the commit of the issue. -/
def State.setFo (s : State) (o : BitVec 3) (v : W32) : State := s.modR (fun r => { r with fo := rput o.toNat v r.fo })

/-- One A row's segment as integers (R115): 16 K blocks of 16, their exponents and NaN marks. -/
structure FeedRow where
  a   : List (List Int)
  e   : List Int
  nan : List Bool
  deriving DecidableEq, Repr

/-- The integer a_N of element `i` from its planes, plane 7 first (R105). -/
def planeInt (planes : List (BitVec 256)) (i : Nat) : Int :=
  (List.zip (List.range planes.length) planes).foldl (fun (acc : Int) p =>
    if p.2.getLsbD i then
      (if p.1 = 0 then acc - 2 ^ (planes.length - 1) else acc + 2 ^ (planes.length - 1 - p.1))
    else acc) 0

/-- A segment of `n` planes; `sc` holds the scales of its blocks where the form supplies them. -/
def planeRow (n : Nat) (bs : List Byte) (sc : List Byte) : FeedRow :=
  let planes := (chunks 32 n bs).map (ofBytes 256)
  { a := chunks 16 16 ((List.range 256).map (planeInt planes))
    e := (List.range 16).map (fun k => match sc[k]? with
      | some b => 8 - (n : Int) + ((b.toNat : Int) - 127)
      | none => 8 - (n : Int))
    nan := (List.range 16).map (fun k => sc[k]? == some 0xFF) }

/-- A row of 256 numbers as a `.bf16` feed (R115). -/
def alignRow (x : List Num) : FeedRow :=
  let blocks := (chunks 16 16 x).map (alignBlock 7)
  { a := blocks.map (fun b => b.1), e := blocks.map (fun b => b.2.1), nan := blocks.map (fun b => b.2.2) }

/-- The numbers of a `.bf16` segment. -/
def bf16Nums (bs : List Byte) : List Num := (chunks 2 256 bs).map (fun b => fmtBf16.decode (leNat b))

/-- Segment `i` of a feed; `vec` holds the scale registers (R222). -/
def MForm.row (f : MForm) (vec : VReg) (i : Nat) (bs : List Byte) : FeedRow :=
  if f.planes = 9 then alignRow (bf16Nums bs)
  else
    planeRow f.planes bs (match f.scales with
      | none => []
      | some _ => (List.range 16).map (fun k => lane 8 vec (16 * i + k)))

/-! ### Partial sums (R116) -/

/-- A product sum. -/
def dotInt (a c : List Int) : Int := (List.zipWith (fun x y => x * y) a c).foldl (fun x y => x + y) 0

/-- The exact sum of `p` × 2^`e`: an integer at the least exponent of a nonzero term, 0 for none (R116). -/
def sumExact (l : List (Int × Int)) : Int × Int :=
  let nz := l.filter (fun p => p.1 != 0)
  let e := leastExp nz
  let v := nz.foldl (fun (acc : Int) p => acc + p.1 * 2 ^ (p.2 - e).toNat) 0
  (v, if v = 0 then 0 else e)

/-- The block products of a row and a column. -/
def blockTerms (r : FeedRow) (k : StoneCol) : List (Int × Int) :=
  List.zip (List.zipWith dotInt r.a k.c) (List.zipWith (fun x y => x + y) r.e k.e)

/-- The NaN marks of the blocks of a row and a column. -/
def blockNan (r : FeedRow) (k : StoneCol) : List Bool := List.zipWith (fun x y => x || y) r.nan k.nan

/-- The partial sum of a row and a column over `kb` K blocks, and whether it is NaN (R116). -/
def partialSum (r : FeedRow) (k : StoneCol) (kb : Nat) : (Int × Int) × Bool :=
  (sumExact ((blockTerms r k).take kb), ((blockNan r k).take kb).any id)

/-- Arrivals at the blocks of a tile row, from column 0 on; the flags they raise (R118, R119). -/
def Tile.arrive (t : Tile) (r : Nat) : Nat → List ((Int × Int) × Bool) → Nat → Tile × XF
  | 0, _, _ => (t, 0)
  | n + 1, l, b =>
    let here := l.take 16
    let (k, x) := accAdd (t.blk r b) (here.map (fun p => p.1)) (here.any (fun p => p.2))
    let (t', y) := (t.setBlk r b k).arrive r n (l.drop 16) (b + 1)
    (t', x ||| y)

/-- The first `n` rows cleared where the form clears (R223): all 32. -/
def Tile.clear (t : Tile) (on : Bool) : Tile := if on then Tile.zero else t

/-- The matrix forms (R223). -/
def MForm.run (f : MForm) (t : Tile) (cols : List (List StoneCol)) (rows : List FeedRow) : Tile × XF :=
  (List.range f.rows).foldl (fun (acc : Tile × XF) m =>
    (List.zip (List.range f.segs) cols).foldl (fun (acc : Tile × XF) p =>
      match rows[m * f.segs + p.1]? with
      | none => acc
      | some r =>
        let (t', x) := acc.1.arrive m f.nb (p.2.map (fun k => partialSum r k f.kb)) 0
        (t', acc.2 ||| x)) acc) (t.clear f.clr, 0)

/-! ### Dendritic sums (R121 to R123, R226 to R229) -/

/-- The branch of a row group: K block `kb` of stone `s` (R121, R225). -/
def branchOf (bm : BitVec 256) (s kb : Nat) : Nat := (lane 4 bm (16 * s + kb) : BitVec 4).toNat

/-- The present branches of a branch map and the selected stones, in ascending order (R226). -/
def presentBranches (bm : BitVec 256) (stones : List Nat) : List Nat :=
  (List.range 16).filter (fun b => stones.any (fun s => (List.range 16).any (fun kb => branchOf bm s kb == b)))

/-- A field of a curve table's segment (R122): 0 START, 1 SLOPE, 2 OFFSET. -/
def curveField (cv : BitVec 6144) (i k : Nat) : W32 := lane 32 cv (3 * i + k)

/-- Whether `a` ≤ `b` as real values; false for a NaN. -/
def leNum (a b : Num) : Bool := ltNum a b || eqNum a b

/-- The curve of R122 on a branch sum: its value and the tap. -/
def curveAt (cv : BitVec 6144) (x : W32) : W32 × W32 :=
  if numF32 x == .nan then (BitVec.ofNat 32 fmtF32.nan, BitVec.ofNat 32 fmtF32.nan)
  else
    let i := (List.range 64).foldl (fun acc j => if leNum (numF32 (curveField cv j 0)) (numF32 x) then j else acc) 0
    let slope := curveField cv i 1
    let y := (fop fmtF32 .fma .rne slope.toNat x.toNat (curveField cv i 2).toNat).1
    (BitVec.ofNat 32 y, if numF32 slope == .nan then BitVec.ofNat 32 fmtF32.nan else slope)

/-- A sum rounded once to `.f32` (R121). -/
def roundSum (p : Int × Int) : W32 := BitVec.ofNat 32 (fmtF32.round false .rne (decide (p.1 < 0)) p.1.natAbs p.2).1

/-- The branch sum of branch `b` for one row and one column (R121): `l` pairs each selected stone with its row's segment and its
column. -/
def branchSum (bm : BitVec 256) (b : Nat) (l : List (Nat × FeedRow × StoneCol)) : W32 :=
  let groups := l.flatMap (fun p =>
    (List.zip (List.range 16) (List.zip (blockTerms p.2.1 p.2.2) (blockNan p.2.1 p.2.2))).filterMap (fun q =>
      if branchOf bm p.1 q.1 = b then some q.2 else none))
  if groups.any (fun g => g.2) then BitVec.ofNat 32 fmtF32.nan else roundSum (sumExact (groups.map (fun g => g.1)))

/-- The second-level sum (R123). -/
def secondLevel : List W32 → W32
  | [] => 0
  | y :: rest => rest.foldl (fun acc z => BitVec.ofNat 32 (fop fmtF32 .add .rne acc.toNat z.toNat 0).1) y

/-- An `.f32` word as an arrival (R120, R123). -/
def wordArrival (w : W32) : (Int × Int) × Bool :=
  match (numF32 w).exact with
  | some p => (p, false)
  | none => ((0, 0), true)

/-- The tap tile after a word of a row is written; the row's exponents become 0 (R227). -/
def Tile.setTap (t : Tile) (row n : Nat) (w : W32) : Tile :=
  if row < 32 then { mant := rput row (setField (rget row t.mant) (32 * n) 32 w) t.mant, exps := rput row 0 t.exps } else t

/-- `dmm` (R227): the tile, the tap tile, the flags. `cvs` holds the curve of each entry of CVS. -/
def MForm.dendritic (f : MForm) (t tap : Tile) (tapOn : Bool) (bm : BitVec 256) (cvs : List (BitVec 6144))
    (cols : List (List StoneCol)) (rows : List FeedRow) : Tile × Tile × XF :=
  let present := presentBranches bm f.stones
  (List.range f.rows).foldl (fun (acc : Tile × Tile × XF) m =>
    let here := (rows.drop (m * f.segs)).take f.segs
    let outs := (List.range 256).map (fun n =>
      let l := List.zip f.stones (List.zip here (cols.filterMap (fun c => (c.drop n).head?)))
      (n, present.map (fun b => curveAt (cvs.getD (b % 4) 0) (branchSum bm b l))))
    let (t', x) := acc.1.arrive m 16 (outs.map (fun o => wordArrival (secondLevel (o.2.map (fun y => y.1))))) 0
    let tap' := if tapOn then
        outs.foldl (fun (q : Tile) o => (List.zip (List.range present.length) o.2).foldl (fun (q : Tile) y =>
          q.setTap (m * present.length + y.1) o.1 y.2.2) q) acc.2.1
      else acc.2.1
    (t', tap', acc.2.2 ||| x)) (t.clear f.clr, tap, 0)

/-- A gradient scaled by a tap (R228): the product rounded to `.bf16`. -/
def scaledGrad (g : Num) (w : W32) : Num :=
  fmtBf16.decode (match (mulNum g (numF32 w)).1 with
    | .nan => fmtBf16.nan
    | .inf neg => fmtBf16.infBits neg
    | .fin neg m e => (fmtBf16.round false .rne neg m e).1)

/-- `dmmr` (R228). -/
def MForm.reverse (f : MForm) (t tap : Tile) (bm : BitVec 256) (cols : List (List StoneCol)) (grads : List (List Num)) : Tile × XF :=
  let present := presentBranches bm f.stones
  let rank := fun (b : Nat) => (present.filter (fun c => c < b)).length
  (List.zip (List.range f.rows) grads).foldl (fun (acc : Tile × XF) g =>
    (List.zip (List.range f.stones.length) (List.zip f.stones cols)).foldl (fun (acc : Tile × XF) st =>
      let arrivals := (List.range 16).flatMap (fun kb =>
        let row := g.1 * present.length + rank (branchOf bm st.2.1 kb)
        let h := alignRow ((List.zip (List.range 256) g.2).map (fun p =>
          if row < 32 then scaledGrad p.2 (lane 32 (rget row tap.mant) p.1) else .nan))
        let bad := h.nan.any id || st.2.2.any (fun c => c.nan.getD kb false)
        let hs := h.a.flatten
        (List.range 16).map (fun i =>
          (sumExact ((List.zip (List.range 256) (List.zip hs st.2.2)).map (fun p =>
            (p.2.1 * (p.2.2.c.getD kb []).getD i 0, h.e.getD (p.1 / 16) 0 + p.2.2.e.getD kb 0))), bad)))
      let (t', x) := acc.1.arrive (g.1 * f.stones.length + st.1) 16 arrivals 0
      (t', acc.2 ||| x)) acc) (t.clear f.clr, 0)

/-! ### Row moves (R120, R229, R230) -/

/-- Four rows of a tile as a vector, column by column. -/
def tileRows (f : Nat → Nat → W32) (r : Nat) : VReg :=
  packLanes 32768 ((List.range 1024).map (fun i => f (laneRow r i) (laneCol i)))

/-- `awr` (R230): each block of the four rows takes its 16 lanes. -/
def Tile.writeRows (t : Tile) (r : Nat) (x : List Num) : Tile × XF :=
  (List.zip (List.range 64) (chunks 16 64 x)).foldl (fun (acc : Tile × XF) p =>
    let (k, y) := blkOf p.2
    (acc.1.setBlk (r + p.1 / 16) (p.1 % 16) k, acc.2 ||| y)) (t, 0)

/-- A 32-bit integer as a number (R120). -/
def numOfS32 (w : W32) : Num := .fin (decide (w.toInt < 0)) w.toInt.natAbs 0

/-- The exponent bytes of four rows (R230). -/
def expRows (t : Tile) (r : Nat) : VReg :=
  (packLanes 512 ((List.range 4).map (fun i => rget (r + i) t.exps)) : BitVec 512).zeroExtend 32768

/-! ### What an operation does (R216) -/

/-- The form of a matrix word under its literal. -/
def mForm (w : W32) : Instr → Option MForm
  | .mmBp2 t m _ r c => some (mmForm t m r 2 c)
  | .mmBp3 t m _ r c => some (mmForm t m r 3 c)
  | .mmBp4 t m _ r c => some (mmForm t m r 4 c)
  | .mmBp5 t m _ r c => some (mmForm t m r 5 c)
  | .mmBp6 t m _ r c => some (mmForm t m r 6 c)
  | .mmBp7 t m _ r c => some (mmForm t m r 7 c)
  | .mmBp8 t m _ r c => some (mmForm t m r 8 c)
  | .mmBf16 t m _ r c => some (mmForm t m r 9 c)
  | .mmx t m _ _ c => some (mmxForm t m w c)
  | .dmm t m _ _ _ _ c => some (dmmForm false t m w c)
  | .dmmr t m _ _ _ _ c => some (dmmForm true t m w c)
  | _ => none

/-- Tiles that an M word reads or overwrites (R217), which are busy from its issue to its last access (R68); `w` is its literal,
or the target word of a `selftest` (R334). -/
def tilesOf (w : W32) : Instr → List Nat
  | .mmBp2 t _ _ _ _ | .mmBp3 t _ _ _ _ | .mmBp4 t _ _ _ _ | .mmBp5 t _ _ _ _ | .mmBp6 t _ _ _ _ | .mmBp7 t _ _ _ _
  | .mmBp8 t _ _ _ _ | .mmBf16 t _ _ _ _ | .mmx t _ _ _ _ => [t.toNat]
  | .dmm t _ _ _ _ a _ => if a = 1 then [t.toNat, (tapOf w).toNat] else [t.toNat]
  | .dmmr t _ _ _ _ _ _ => [t.toNat, (tapOf w).toNat]
  | .dtap _ t _ | .ardF32 _ t _ | .ardS32 _ t _ | .awrF32 _ t _ | .awrS32 _ t _ | .aclr t | .aexp _ t _ | .vaccF32 _ t _ =>
    [t.toNat]
  | .nop => if w.extractLsb' 0 4 = 2 then [(w.extractLsb' 4 4).toNat] else []
  | _ => []

/-- Tiles that an M word writes or clears (R190, R201, R217). -/
def tilesWritten (w : W32) : Instr → List Nat
  | .dmm t _ _ _ _ a _ => if a = 1 then [t.toNat, (tapOf w).toNat] else [t.toNat]
  | .dmmr t _ _ _ _ _ _ => [t.toNat]
  | .dtap _ _ _ | .ardF32 _ _ _ | .ardS32 _ _ _ | .aexp _ _ _ | .vaccF32 _ _ _ => []
  | i => tilesOf w i

/-- Rows of tiles that an operation writes (R38, R313), each with the number of its blocks of 16 columns that it writes, from column 0 on. -/
def EngOp.rows (o : EngOp) (c : Core) : List (Nat × Nat × Nat) :=
  let w := ((o.words.headD 0).extractLsb' 0 32 : W32)
  let some_ := fun (t n b : Nat) => (List.range (min n 32)).map (fun r => (t, r, b))
  let base := match mForm w o.ins with
    | some f => if f.clr then some_ f.tile 32 16 else if f.nb = 0 ∨ f.kb = 0 then [] else some_ f.tile f.rows f.nb
    | none => []
  match o.ins with
  | .dmm _ m _ b _ a _ =>
    let f := (presentBranches (rget b.toNat c.bm) (stonesIn m)).length
    if a = 1 then base ++ some_ (tapOf w).toNat ((w.extractLsb' 26 6).toNat * f) 16 else base
  | .dmmr t m _ _ _ _ cl => if cl = 1 then base else some_ t.toNat ((w.extractLsb' 26 6).toNat * (stonesIn m).length) 16
  | .awrF32 _ t r | .awrS32 _ t r => (List.range 4).map (fun i => (t.toNat, r.toNat + i, 16))
  | .aclr t => some_ t.toNat 32 16
  | .nop => if w.extractLsb' 0 4 = 2 then some_ (w.extractLsb' 4 4).toNat 32 16 else []
  | _ => base

/-- The core with a tile replaced. -/
def Core.putTile (c : Core) (t : Nat) (v : Tile) : Core := { c with tiles := kput t v c.tiles }

/-- The columns of the selected stones. -/
def Core.columns (c : Core) (stones : List Nat) (n : Nat) : List (List StoneCol) :=
  stones.map (fun k => (List.range n).map (c.stone k).column)

/-- An M operation's whole effect on its core (R216), `bs` the bytes of its pieces in order: the core, the vector it writes and
the flags it raises. -/
def Core.perform (c : Core) (o : EngOp) (bs : List (List Byte)) : Core × List (Nat × VReg) × XF :=
  let w := ((o.words.headD 0).extractLsb' 0 32 : W32)
  let mm := match mForm w o.ins with
    | none => (c, [], 0)
    | some f =>
      let rows := (List.zip (List.range bs.length) bs).map (fun p => f.row o.vec p.1 p.2)
      let (t, x) := f.run (c.tile f.tile) (if bs.isEmpty then [] else c.columns f.stones (16 * f.nb)) rows
      (c.putTile f.tile t, [], x)
  let load := fun (k : Nat) (st : Stone) => ({ c with stones := kput k st c.stones }, ([] : List (Nat × VReg)), (0 : XF))
  let read := fun (v : BitVec 5) (x : VReg) (fl : XF) => (c, [(v.toNat, x)], fl)
  match o.ins with
  | .ldbS8 k _ => load k.toNat (stoneBytes bs.flatten)
  | .ldbBf16 k _ => load k.toNat (stoneImage fmtBf16 16 false bs.flatten)
  | .ldbE4m3 k _ => load k.toNat (stoneImage fmtE4m3 8 true bs.flatten)
  | .ldbE5m2 k _ => load k.toNat (stoneImage fmtE5m2 8 true bs.flatten)
  | .ldbE2m1 k _ => load k.toNat (stoneImage fmtE2m1 4 true bs.flatten)
  | .dmm t m _ b _ a cl =>
    let f := dmmForm false t m w cl
    let rows := (List.zip (List.range bs.length) bs).map (fun p => f.row o.vec p.1 p.2)
    let (q, tap, x) := f.dendritic (c.tile t.toNat) (c.tile (tapOf w).toNat) (a == 1) (rget b.toNat c.bm)
      ((curvesOf w).map (fun k => rget k.toNat c.cv)) (if bs.isEmpty then [] else c.columns f.stones 256) rows
    let c1 := c.putTile t.toNat q
    (if a = 1 then c1.putTile (tapOf w).toNat tap else c1, [], x)
  | .dmmr t m _ b _ _ cl =>
    let f := dmmForm true t m w cl
    let (q, x) := f.reverse (c.tile t.toNat) (c.tile (tapOf w).toNat) (rget b.toNat c.bm)
      (if bs.isEmpty then [] else c.columns f.stones 256) (bs.map bf16Nums)
    (c.putTile t.toNat q, [], x)
  | .dtap v t r => read v (tileRows (fun i j => lane 32 (rget i (c.tile t.toNat).mant) j) r.toNat) 0
  | .ardF32 v t r => read v (tileRows (c.tile t.toNat).readF32 r.toNat) 0
  | .ardS32 v t r =>
    let q := c.tile t.toNat
    read v (tileRows (fun i j => (q.readS32 i j).1) r.toNat)
      ((List.range 1024).foldl (fun x i => x ||| (q.readS32 (laneRow r.toNat i) (laneCol i)).2) 0)
  | .awrF32 _ t r =>
    let (q, x) := (c.tile t.toNat).writeRows r.toNat ((lanes 32 1024 o.vec).map numF32)
    (c.putTile t.toNat q, [], x)
  | .awrS32 _ t r =>
    let (q, x) := (c.tile t.toNat).writeRows r.toNat ((lanes 32 1024 o.vec).map numOfS32)
    (c.putTile t.toNat q, [], x)
  | .aclr t => (c.putTile t.toNat Tile.zero, [], 0)
  | .aexp v t r => read v (expRows (c.tile t.toNat) r.toNat) 0
  | .ldcv k _ => ({ c with cv := rput k.toNat (ofBytes 6144 bs.flatten) c.cv }, [], 0)
  | .ldbm k _ => ({ c with bm := rput k.toNat (ofBytes 256 bs.flatten) c.bm }, [], 0)
  | _ => mm

/-- The bytes that have come for `n` bytes at `va`, from pieces in rising order of address. -/
def cameBytes (came : List (W64 × List Byte)) (va n : Nat) : List Byte :=
  came.flatMap (fun p =>
    let lo := max va p.1.toNat
    let hi := min (va + n) (p.1.toNat + p.2.length)
    (p.2.drop (lo - p.1.toNat)).take (hi - lo))

/-- The bytes of an operation's pieces: from the scratchpad, or those that have come for an LG feed (R221). -/
def EngOp.gather (o : EngOp) (mem : Memory) : List (List Byte) :=
  if o.feed.isEmpty then o.reads.map (fun p => readBytes mem p.1 p.2)
  else
    match mForm ((o.words.headD 0).extractLsb' 0 32) o.ins with
    | none => []
    | some f => f.pieces.map (fun p => cameBytes o.came ((o.words.getD 1 0).toNat + p) f.segBytes)

/-! ### Issue -/

/-- The LL and SC accesses of the context that M reads of the core scratchpad follow (R218). -/
def State.earlierLocal (s : State) (slots : List Nat) : List Nat :=
  (s.old.locq.filter (fun o => o.ctx == s.cx && slots.contains o.slot)).map (fun o => o.id)

/-- An M operation enters the core's engine (R216): what it reads of the core scratchpad, the pieces of an LG feed, the vector it
captured, the registers pending. An LG feed is read as an LG load is (R240). -/
def State.mop (s : State) (i : Instr) (lit : W32) (base : W64) (reads : List (Nat × Nat)) (segs : List Seg) (vec : VReg)
    (rs : List RegId) : Res :=
  let (id, s1) := s.operation
  let needs := s.needs ++ (if reads.isEmpty then [] else s.earlierLocal [7, 8])
  let op : EngOp :=
    { id := id, ctx := s.cx, pc := s.iss.addr, rid := s.oc.rid, no := s.no, ins := i, needs := needs, begun := false,
      words := [lit.zeroExtend 64, base], vec := vec, reads := reads, feed := segs.map (fun g => (g.va, g.len)), came := [],
      blocks := (segs.filter (fun g => leafCMP g.leaf)).map (fun g => g.va) }
  let s2 := (s1.mapM (fun m => m.modCore (coreOf s.cx) (fun c => { c with mq := c.mq ++ [op] }))).pendAll rs
  if segs.isEmpty then done s2
  else
    let (g, m) := s2.m.fresh
    done (({ s2 with m := m }).addRead { s.gop g (.read (.feed id)) segs (segs.flatMap (s.m.ownBytes s.oc.rid (clusterOf s.cx)))
      with needs := s.needs })

/-- What is read of the pieces of a feed: a piece as it is, or the 4 KiB slots of a compressed page that hold it (R164), each once,
numbered by their place in what is read. -/
def readUnits : Nat → List Seg → List Seg
  | _, [] => []
  | off, g :: rest => { g with off := off } :: readUnits (off + g.len) rest

/-- The slots that a piece of a compressed page lies in, and any other piece itself. -/
def slotsOf (g : Seg) : List Seg :=
  if leafCMP g.leaf then
    (List.range ((g.pa + g.len - 1) / 4096 - g.pa / 4096 + 1)).map (fun i =>
      let pa := (g.pa / 4096 + i) * 4096
      { g with va := g.va + BitVec.ofInt 64 ((pa : Int) - g.pa), pa := pa, len := 4096 })
  else [g]

/-- The checks of an LG feed (R145, R155, R169, R224): every byte canonical, aligned, then every piece is translated, then checked. -/
def State.lgFeed (s : State) (va : W64) (at_ : List Nat) (n : Nat) : Except Cause (List Seg) :=
  if at_.any (fun o => 2 ^ 57 < va.toNat + o + n) then .error { code := 0x10, sub := 0, addr := BitVec.ofNat 64 (max va.toNat (2 ^ 57)) }
  else if va.toNat % 32 != 0 then .error { code := 0x03, sub := 0, addr := va }
  else
    match s.run? with
    | none => .error { code := 0x10, sub := 1, addr := va }
    | some r =>
      let all := at_.foldl (fun (acc : Except Cause (List Seg)) o => match acc with
        | .error e => .error e
        | .ok l =>
          match pieces s.old (coreOf s.cx) r.root 5 0 (va.toNat + o) n with
          | .error e => .error e
          | .ok more => .ok (l ++ more)) (.ok [])
      match all with
      | .error e => .error e
      | .ok segs =>
        match checkPieces s.old .load r.part segs with
        | .error e => .error e
        | .ok _ => .ok (readUnits 0 ((segs.flatMap slotsOf).foldl (fun acc g =>
            if acc.any (fun h => h.va == g.va && h.len == g.len) then acc else acc ++ [g]) []))

/-- A matrix word issued (R221 to R228): its feed is checked over every byte it reads, its `fo` is post-incremented. -/
def State.matrix (s : State) (i : Instr) (lit : W32) (f : MForm) (o : BitVec 3) : Res :=
  let w := s.fo o
  let s1 := s.setFo o (foNext w)
  let vec : VReg := match f.scales with
    | none => 0
    | some k => packLanes 32768 ((List.range (16 - k)).map (fun j => rget (k + j) s.regs.sc))
  if f.pieces.isEmpty then s1.mop i lit 0 [] [] vec []
  else if f.ga = 0 then
    let off : W64 := (foOff w).zeroExtend 64
    match s.old.local_ s.cx .ll off ((f.rows * f.segs - 1) * f.stride + f.segBytes) 32 with
    | .error e => s.raise e
    | .ok loc => s1.mop i lit off (f.pieces.map (fun p => (loc + p, f.segBytes))) [] vec []
  else
    let va := s.rg f.ga + (foOff w).zeroExtend 64
    match s.lgFeed va f.pieces f.segBytes with
    | .error e => s.raise e
    | .ok segs => s1.mop i lit va [] segs vec []

/-- A stone, curve table or branch map loaded from `n` bytes at OFF (R220, R225). -/
def State.install (s : State) (i : Instr) (o : BitVec 3) (n align : Nat) : Res :=
  let w := s.fo o
  match s.old.local_ s.cx .ll ((foOff w).zeroExtend 64) n align with
  | .error e => s.raise e
  | .ok loc => (s.setFo o (foNext w)).mop i 0 0 [(loc, n)] [] 0 []

/-- A row move (R229, R230). -/
def State.rowMove (s : State) (i : Instr) (vec : VReg) (rs : List RegId) : Res := s.mop i 0 0 [] [] vec rs

/-! ### Meanings -/

def execLdbS8 (k : BitVec 2) (o : BitVec 3) (s : State) : Res := s.guard (.ldbS8 k o) (s.install (.ldbS8 k o) o 65536 64)
def execLdbBf16 (k : BitVec 2) (o : BitVec 3) (s : State) : Res := s.guard (.ldbBf16 k o) (s.install (.ldbBf16 k o) o 131072 64)
def execLdbE4m3 (k : BitVec 2) (o : BitVec 3) (s : State) : Res := s.guard (.ldbE4m3 k o) (s.install (.ldbE4m3 k o) o 69632 64)
def execLdbE5m2 (k : BitVec 2) (o : BitVec 3) (s : State) : Res := s.guard (.ldbE5m2 k o) (s.install (.ldbE5m2 k o) o 69632 64)
def execLdbE2m1 (k : BitVec 2) (o : BitVec 3) (s : State) : Res := s.guard (.ldbE2m1 k o) (s.install (.ldbE2m1 k o) o 36864 64)

def execMmBp2 (t : BitVec 3) (m : BitVec 4) (o : BitVec 3) (r : BitVec 6) (c : BitVec 1) (s : State) : Res :=
  s.guard (.mmBp2 t m o r c) (s.matrix (.mmBp2 t m o r c) 0 (mmForm t m r 2 c) o)
def execMmBp3 (t : BitVec 3) (m : BitVec 4) (o : BitVec 3) (r : BitVec 6) (c : BitVec 1) (s : State) : Res :=
  s.guard (.mmBp3 t m o r c) (s.matrix (.mmBp3 t m o r c) 0 (mmForm t m r 3 c) o)
def execMmBp4 (t : BitVec 3) (m : BitVec 4) (o : BitVec 3) (r : BitVec 6) (c : BitVec 1) (s : State) : Res :=
  s.guard (.mmBp4 t m o r c) (s.matrix (.mmBp4 t m o r c) 0 (mmForm t m r 4 c) o)
def execMmBp5 (t : BitVec 3) (m : BitVec 4) (o : BitVec 3) (r : BitVec 6) (c : BitVec 1) (s : State) : Res :=
  s.guard (.mmBp5 t m o r c) (s.matrix (.mmBp5 t m o r c) 0 (mmForm t m r 5 c) o)
def execMmBp6 (t : BitVec 3) (m : BitVec 4) (o : BitVec 3) (r : BitVec 6) (c : BitVec 1) (s : State) : Res :=
  s.guard (.mmBp6 t m o r c) (s.matrix (.mmBp6 t m o r c) 0 (mmForm t m r 6 c) o)
def execMmBp7 (t : BitVec 3) (m : BitVec 4) (o : BitVec 3) (r : BitVec 6) (c : BitVec 1) (s : State) : Res :=
  s.guard (.mmBp7 t m o r c) (s.matrix (.mmBp7 t m o r c) 0 (mmForm t m r 7 c) o)
def execMmBp8 (t : BitVec 3) (m : BitVec 4) (o : BitVec 3) (r : BitVec 6) (c : BitVec 1) (s : State) : Res :=
  s.guard (.mmBp8 t m o r c) (s.matrix (.mmBp8 t m o r c) 0 (mmForm t m r 8 c) o)
def execMmBf16 (t : BitVec 3) (m : BitVec 4) (o : BitVec 3) (r : BitVec 6) (c : BitVec 1) (s : State) : Res :=
  s.guard (.mmBf16 t m o r c) (s.matrix (.mmBf16 t m o r c) 0 (mmForm t m r 9 c) o)
/-- `mmx` (R222). -/
def execMmx (t : BitVec 3) (m : BitVec 4) (o : BitVec 3) (k : BitVec 5) (c : BitVec 1) (s : State) : Res :=
  s.guard (.mmx t m o k c) (s.matrix (.mmx t m o k c) (s.lit k.toNat) (mmxForm t m (s.lit k.toNat) c) o)
/-- `dmm` (R227). -/
def execDmm (t : BitVec 3) (m : BitVec 4) (o : BitVec 3) (b : BitVec 2) (k : BitVec 5) (a c : BitVec 1) (s : State) : Res :=
  s.guard (.dmm t m o b k a c) (s.matrix (.dmm t m o b k a c) (s.lit k.toNat) (dmmForm false t m (s.lit k.toNat) c) o)
/-- `dmmr` (R228). -/
def execDmmr (t : BitVec 3) (m : BitVec 4) (o : BitVec 3) (b : BitVec 2) (k : BitVec 5) (a c : BitVec 1) (s : State) : Res :=
  s.guard (.dmmr t m o b k a c) (s.matrix (.dmmr t m o b k a c) (s.lit k.toNat) (dmmForm true t m (s.lit k.toNat) c) o)

def execDtap (v : BitVec 5) (t : BitVec 3) (r : BitVec 5) (s : State) : Res :=
  s.guard (.dtap v t r) (s.rowMove (.dtap v t r) 0 (vR v))
def execArdF32 (v : BitVec 5) (t : BitVec 3) (r : BitVec 5) (s : State) : Res :=
  s.guard (.ardF32 v t r) (s.rowMove (.ardF32 v t r) 0 (vR v))
def execArdS32 (v : BitVec 5) (t : BitVec 3) (r : BitVec 5) (s : State) : Res :=
  s.guard (.ardS32 v t r) (s.rowMove (.ardS32 v t r) 0 (vR v))
/-- `awr` reads its vector at the issue (R217). -/
def execAwrF32 (v : BitVec 5) (t : BitVec 3) (r : BitVec 5) (s : State) : Res :=
  s.guard (.awrF32 v t r) (s.rowMove (.awrF32 v t r) (s.rv v) [])
def execAwrS32 (v : BitVec 5) (t : BitVec 3) (r : BitVec 5) (s : State) : Res :=
  s.guard (.awrS32 v t r) (s.rowMove (.awrS32 v t r) (s.rv v) [])
def execAclr (t : BitVec 3) (s : State) : Res := s.guard (.aclr t) (s.rowMove (.aclr t) 0 [])
def execAexp (v : BitVec 5) (t : BitVec 3) (r : BitVec 5) (s : State) : Res :=
  s.guard (.aexp v t r) (s.rowMove (.aexp v t r) 0 (vR v))
def execLdcv (k : BitVec 2) (o : BitVec 3) (s : State) : Res := s.guard (.ldcv k o) (s.install (.ldcv k o) o 768 64)
def execLdbm (k : BitVec 2) (o : BitVec 3) (s : State) : Res := s.guard (.ldbm k o) (s.install (.ldbm k o) o 32 32)

/-- `mvfo` and `addfo` act at their issue and enter no engine (R216, R219). -/
def execMvfo (o : BitVec 3) (a : BitVec 6) (s : State) : Res := done (s.setFo o ((s.rg a).extractLsb' 0 32))
def execAddfo (o : BitVec 3) (a : BitVec 6) (s : State) : Res :=
  done (s.setFo o (setField (s.fo o) 0 21 (foOff (s.fo o) + (s.rg a).extractLsb' 0 21)))

end Sys2Proof.Machine
end

