-- ==== Sys2Proof/Machine/System.lean ====
section
/-! DEFINITION. The system and trap words of the C slot (R325 to R336): system registers, traps and trap return, the save area,
the generator barriers, translation maintenance, energy and power requests, self-test and interrupts. The stalls that R329, R331
and R335 demand before a word acts are part of whether its issue can be made (Issue.lean). -/

namespace Sys2Proof.Machine

/-! ### System registers (R77, R326) -/

/-- RUNID (R77). -/
def Run.runId (r : Run) : W64 := (BitVec.ofNat 4 r.stream) ++ (r.pos.extractLsb' 0 60)

/-- The value of system register `n` as this issue reads it (R326). -/
def State.sysRead (s : State) (n : Nat) : W64 :=
  let c := s.oc
  let r := s.regs
  let run := fun (f : Run → W64) => (s.run?.map f).getD 0
  match n with
  | 0x000 => (r.fs ++ r.f).zeroExtend 64
  | 0x001 => r.vrm.zeroExtend 64
  | 0x002 => r.xf.zeroExtend 64
  | 0x010 => run Run.runId
  | 0x011 => BitVec.ofNat 64 (s.old.pkg.chip.toNat * 1024 + s.cx)
  | 0x012 => BitVec.ofNat 64 c.share
  | 0x013 => s.old.pkg.expiry.zeroExtend 64
  | 0x020 => run (fun q => rget 0 q.cnt)
  | 0x021 => run (fun q => rget 1 q.cnt)
  | 0x022 => run (fun q => rget 2 q.cnt)
  | 0x023 => run (fun q => rget 3 q.cnt)
  | 0x024 => run (fun q => rget 4 q.cnt)
  | 0x030 => run (fun q => BitVec.ofNat 64 q.energy)
  | 0x031 => BitVec.ofNat 64 s.old.pkg.ftime
  | 0x040 => c.trp.tcause
  | 0x041 => c.trp.taddr
  | 0x042 => c.trp.tvec
  | 0x043 => c.trp.trec
  | _ => 0

/-- EXPIRY written (R326); the largest value since a token's assignment bounds how soon it may be assigned again (R251). -/
def Pkg.setExpiry (p : Pkg) (v : BitVec 32) : Pkg :=
  { p with expiry := v, reuse := p.reuse.map (fun e => (e.1, (e.2.1, max e.2.2 v.toNat))) }

/-- A context's share written, its core's table rebuilt (R27, R77). -/
def Mach.setShare (m : Mach) (x n : Nat) : Mach := (m.modCtx x (fun c => { c with share := n })).rebuild (coreOf x)

/-- System register `n` written with a value that R78 allows (R326). -/
def State.sysWrite (s : State) (n : Nat) (v : W64) : State :=
  let trp := fun (f : Trp → Trp) => s.modC (fun c => { c with trp := f c.trp })
  match n with
  | 0x000 => s.modR (fun r => { r with f := v.extractLsb' 0 8 })
  | 0x001 => s.modR (fun r => { r with vrm := v.extractLsb' 0 5 })
  | 0x002 => s.modR (fun r => { r with xf := v.extractLsb' 0 5 })
  | 0x012 => s.mapM (fun m => m.setShare s.cx v.toNat)
  | 0x013 => s.mapM (fun m => m.modPkg (fun p => p.setExpiry (v.extractLsb' 0 32)))
  | 0x040 => trp (fun t => { t with tcause := v })
  | 0x041 => trp (fun t => { t with taddr := v })
  | 0x042 => trp (fun t => { t with tvec := v })
  | 0x043 => trp (fun t => { t with trec := v })
  | _ => s

/-! ### Context save and restore (R323, R329) -/

/-- A double fault at this issue, which commits nothing (R315). -/
def State.doubleFault (s : State) : Res :=
  .next { s with m := s.old.doubleFault s.cx, iss := { s.iss with trapped := true } }

/-- The bytes of a file of `n` registers of `sz` bytes. -/
def fileBytes {w : Nat} (m : RMap w) (base n sz : Nat) : List Byte :=
  (List.range n).flatMap (fun i => vecLE sz (rget (base + i) m))

/-- The control block of a record with the tokens all complete and the pending faults `p` (R329). -/
def saveCtl (b : List Byte) (p : Pend) : List Byte :=
  b.take 208 ++ [0xFF, 0xFF, 0xFF, 0xFF] ++ (b.drop 212).take 4 ++ pendBytes p ++ (b.drop 248).take 264

/-- A context's four generators in the layout of R323. -/
def genBytes (r : Regs) : List Byte :=
  (List.range 4).flatMap (fun k => vecLE 16 (rget k r.genC) ++ vecLE 8 (rget k r.genK) ++ zeroBytes 8)

/-- The save area of 160 KiB (R323): `r` the context's registers, `b` its trap record, `p` its pending faults. -/
def saveArea (r : Regs) (b : List Byte) (p : Pend) : List Byte :=
  fileBytes r.v 0 32 4096 ++ fileBytes r.q 0 8 1088 ++ fileBytes r.sc 0 16 128 ++ fileBytes r.m 0 8 128 ++
    (b.drop 512).take 512 ++ fileBytes r.sh 0 16 8 ++ fileBytes r.stride 0 72 4 ++ vecLE 64 r.byp ++ fileBytes r.fo 0 8 4 ++
    saveCtl b p ++ (b.drop 1024).take 1536 ++ genBytes r ++ zeroBytes 17792

/-- A generator file read from 32-byte entries (R323). -/
def genCounters (b : List Byte) : RMap 128 :=
  (List.range 4).foldl (fun (acc : RMap 128) k => rput k (BitVec.ofNat 128 (fieldAt b (32 * k) 16)) acc) []
def genKeys (b : List Byte) : RMap 64 :=
  (List.range 4).foldl (fun (acc : RMap 64) k => rput k (BitVec.ofNat 64 (fieldAt b (32 * k + 16) 8)) acc) []

/-- The registers that `crest` loads from a save area (R329). -/
def restoreRegs (r : Regs) (b : List Byte) : Regs :=
  { r with
    v := fileAt 32768 b 0 32 4096 0
    q := fileAt 8704 b 0x20000 8 1088 0
    sc := fileAt 1024 b 0x22200 16 128 0
    m := fileAt 1024 b 0x22A00 8 128 0
    sh := fileAt 64 b 0x23000 16 8 0
    stride := fileAt 32 b 0x23080 72 4 0
    byp := BitVec.ofNat 512 (fieldAt b 0x231A0 64)
    fo := fileAt 32 b 0x231E0 8 4 0
    genC := genCounters (b.drop 0x23A00)
    genK := genKeys (b.drop 0x23A00)
    ot := [] }

/-- `csave` (R329). -/
def State.csave (s : State) (a : W64) : Res :=
  match s.old.plainArea s.cx s.oc.trp.trec 4096, s.old.plainArea s.cx a 163840 with
  | some rec_, some area =>
    let b := s.old.segBytes rec_
    let p := mergePend (pendOf b) s.oc.pend
    done ((s.modC (fun c => { c with pend := { Pend.zero with lost := c.pend.lost } })).mapM
      (fun m => m.storeSegs area (saveArea s.regs b p)))
  | _, _ => s.doubleFault

/-- `crest` (R329): the control block, `g0` to `g63` and the replay entries go to the trap record. The restored program has no
order token incomplete, and waits at no barrier. -/
def State.crest (s : State) (a : W64) : Res :=
  match s.old.plainArea s.cx s.oc.trp.trec 4096, s.old.plainArea s.cx a 163840 with
  | some rec_, some area =>
    let b := s.old.segBytes area
    if ctlValid (b.drop 0x23200) then
      let img := (b.drop 0x23200).take 512 ++ (b.drop 0x22E00).take 512 ++ (b.drop 0x23400).take 1536 ++
        (s.old.segBytes rec_).drop 2560
      done (((s.modR (fun r => restoreRegs r b)).modC (fun c => { c with late := [], trp := { c.trp with ot := [], held := none } })).mapM (fun m => m.storeSegs rec_ img))
    else s.doubleFault
  | _, _ => s.doubleFault

/-! ### Generator barriers (R330) -/

/-- `ckptg` and `replayg`: each issue checks its own bytes, then arrives. -/
def State.genBarrier (s : State) (restore : Bool) (a : W64) : Res :=
  match s.old.local_ s.cx .lk a (128 * s.oc.size) 32 with
  | .error c => s.raise c
  | .ok _ => if s.otherBarrier (if restore then 3 else 2) then s.trapHere 0x05 0 else s.arrive (.gen restore a s.oc.ctl)

/-! ### Power (R333, R359 to R361) -/

/-- A Governor's record. -/
def Pkg.gov (p : Pkg) (q : Nat) : Gov := kgetD Gov.zero q p.govs

/-- The package with `f` applied to the Governor of quarter `q`. -/
def Pkg.modGov (p : Pkg) (q : Nat) (f : Gov → Gov) : Pkg := { p with govs := kmod Gov.zero q f p.govs }

/-- The issuing quarter's Governor changed. -/
def State.modGov (s : State) (f : Gov → Gov) : Res :=
  done (s.mapM (fun m => m.modPkg (fun p => p.modGov (quarterOf s.cx) f)))

/-- The clock that the last request allows (R333, R359). -/
def Gov.asked (g : Gov) : Nat := if g.req = 0 then 76 else g.req

/-- The Governor with its own limits set. It keeps the clock of a group that it has left until one of them changes (R360). -/
def Gov.limits (g : Gov) (req power thermal : Nat) : Gov :=
  let h := { g with req := req, power := power, thermal := thermal }
  if g.gclock.any (fun c => g.group != some c.group) && (h.asked != g.asked || power != g.power || thermal != g.thermal) then { h with gclock := none } else h

/-- The Governor as it leaves its group. It keeps the group clock (R360). -/
def Gov.leave (g : Gov) : Gov := { g with group := none, told := none, changes := [] }

/-- Quarter `q` leaves its group (R333, R360): the leader to which it has reported is told, by a limit of 0 steps (log 54). -/
def Mach.leaveGroup (m : Mach) (q : Nat) : Mach :=
  let g := m.pkg.gov q
  match g.group with
  | none => m
  | some n =>
    let m1 := m.modPkg (fun p => p.modGov q Gov.leave)
    let m2 := if (List.range 4).any (fun r => (m1.pkg.gov r).group == some n) then m1
      else m1.modPkg (fun p => { p with groups := kdel n.toNat p.groups })
    match g.told with
    | some (c, _) => m2.post c (.limit c n q 0)
    | none => m2

/-- Quarter `q` joins a group, having left any other (R333). -/
def Mach.joinGroup (m : Mach) (q : Nat) (n : BitVec 16) : Mach :=
  if (m.pkg.gov q).group = some n then m
  else (m.leaveGroup q).modPkg (fun p => p.modGov q (fun g => { g with group := some n }))

/-- Units given to a package, or a refusal counted (R361). -/
def Mach.give (m : Mach) (chip : BitVec 12) (n : Nat) : Mach :=
  if m.pkg.p < m.pkg.f + n then m.modPkg (fun p => p.bump 301)
  else (m.modPkg (fun p => { p with p := p.p - n })).post chip (.give chip n)

/-! ### Meanings -/

/-- `mfs` (R326). -/
def execMfs (g : BitVec 6) (n : BitVec 10) (s : State) : Res :=
  s.guardC 0x40 n.toNat true (if sysRegOk n then s.put g (s.sysRead n.toNat) else s.illegal 2)

/-- `mts` (R78, R326). -/
def execMts (g : BitVec 6) (n : BitVec 10) (s : State) : Res :=
  s.guardC 0x41 n.toNat true (
    if s.mtsOk n.toNat (s.rg g) then done (s.sysWrite n.toNat (s.rg g)) else s.illegal 4)

/-- `trap` (R327). -/
def execTrap (c : BitVec 8) (s : State) : Res := s.guardC 0x42 0 true (s.trapHere 0x06 c.toNat)

/-- `tret` (R328): the context waits for what its handler has issued, then returns. -/
def execTret (s : State) : Res := s.guardC 0x43 0 true (s.arrive .ret)

def execCsave (a : BitVec 6) (s : State) : Res := s.guardC 0x44 0 true (s.csave (s.rg a))
def execCrest (a : BitVec 6) (s : State) : Res := s.guardC 0x45 0 true (s.crest (s.rg a))
def execCkptg (a : BitVec 6) (s : State) : Res := s.guardC 0x46 0 true (s.genBarrier false (s.rg a))
def execReplayg (a : BitVec 6) (s : State) : Res := s.guardC 0x47 0 true (s.genBarrier true (s.rg a))

/-- `tlbinv` (R331). -/
def execTlbinv (a : BitVec 6) (s : State) : Res :=
  s.guardC 0x48 0 true (
    let root := (s.run?.map (fun r => r.root)).getD 0
    let va := (s.rg a).toNat
    done (s.mapM (fun m => m.dropTlb (fun t => t.covers root va))))

/-- `tlbinva` (R331). -/
def execTlbinva (s : State) : Res :=
  s.guardC 0x49 0 true (
    let root := (s.run?.map (fun r => r.root)).getD 0
    done (s.mapM (fun m => m.dropTlb (fun t => t.root == root))))

/-- `enrd` (R332). -/
def execEnrd (d : BitVec 6) (c : BitVec 2) (s : State) : Res :=
  s.guardC 0x4A c.toNat true (s.put d (match c.toNat with
    | 0 => s.sysRead 0x030
    | 1 => rget (quarterOf s.cx) s.old.pkg.energyQ
    | 2 => s.old.pkg.energyP
    | _ => rget ((s.run?.map (fun r => r.tenant)).getD 0) s.old.pkg.energyT))

/-- `clkreq` (R333): 0 withdraws the request, and what lies above 76 counts as 76. -/
def execClkreq (a : BitVec 6) (s : State) : Res :=
  s.guardC 0x4B 0 true (s.modGov (fun g => g.limits (min 76 ((s.rg a).extractLsb' 0 7).toNat) g.power g.thermal))

def execSgjoin (a : BitVec 6) (s : State) : Res := s.guardC 0x4C 0 true (done (s.mapM (fun m => m.joinGroup (quarterOf s.cx) ((s.rg a).extractLsb' 0 16))))
def execSgleave (s : State) : Res := s.guardC 0x4D 0 true (done (s.mapM (fun m => m.leaveGroup (quarterOf s.cx))))

/-- Whether a self-test may run on the target `w` of the issuing run (R334). -/
def State.testable (s : State) (w : W64) : Bool :=
  let n := (w.extractLsb' 4 4).toNat
  match (w.extractLsb' 0 4).toNat with
  | 1 => n < 4 && s.place.stones.getLsbD n
  | 2 => n < 8 && s.place.tiles.getLsbD n
  | 3 => n < 4 && s.place.curves.getLsbD n
  | 4 => n < 4 && s.place.maps.getLsbD n
  | _ => false

/-- `selftest` (R334): an M operation, which stands in the queue as a `nop`; a refused one names no target. -/
def execSelftest (a : BitVec 6) (s : State) : Res :=
  s.guardC 0x4E 0 true (
    let w := if s.testable (s.rg a) then (s.rg a).extractLsb' 0 8 else 0
    let (id, m) := s.m.begin_
    let op : EngOp :=
      { id := id, ctx := s.cx, pc := s.iss.addr, rid := s.oc.rid, no := s.no, ins := .nop, needs := [], begun := false,
        words := [w.zeroExtend 64, a.zeroExtend 64], vec := 0, reads := [], feed := [], came := [], blocks := [] }
    done ((({ s with m := m }).mapM (fun q => q.modCore (coreOf s.cx) (fun c => { c with mq := c.mq ++ [op] }))).pendAll (gR a)))

/-- `irq` (R335). -/
def execIrq (c : BitVec 8) (s : State) : Res := s.guardC 0x4F 0 true (done (s.mapM (fun m => m.raiseIrq c)))

/-- `brk` (R327). -/
def execBrk (s : State) : Res := s.guardC 0x50 0 true (s.trapHere 0x07 0)

/-- `pwrgive` (R361). -/
def execPwrgive (a : BitVec 6) (s : State) : Res :=
  s.guardC 0x51 0 true (done (s.mapM (fun m => m.give ((s.rg a).extractLsb' 16 12) ((s.rg a).extractLsb' 0 16).toNat)))

/-- `pwrask` (R361). -/
def execPwrask (a : BitVec 6) (s : State) : Res :=
  s.guardC 0x52 0 true (done (s.mapM (fun m =>
    m.post ((s.rg a).extractLsb' 16 12) (.ask ((s.rg a).extractLsb' 16 12) ((s.rg a).extractLsb' 0 16).toNat))))

end Sys2Proof.Machine
end

