-- ==== Sys2Proof/Machine/Streams.lean ====
section
/-! DEFINITION. Command streams and their sequencers: ring and record reads (R14, R18, R371), the commands (R15), stream faults
(R16), appends (R14), the checks of a placement record (R20), and the events that end a waiting command. An event acts only when
it can happen; otherwise the machine stands as it was. -/

namespace Sys2Proof.Machine

/-- The answer of an event: what `f` gives, or no change when it cannot happen. A package that stays in reset does nothing (R367). -/
def State.event (s : State) (f : Mach → Option Mach) : Res :=
  .next (if s.m.pkg.stuck then s
    else match f s.m with
      | some m => { s with m := m }
      | none => s)

/-! ### Streams (R13, R16) -/

/-- STATE of `SSTAT`. -/
def Stream.state (t : Stream) : Nat := (t.stat.extractLsb' 0 3).toNat

/-- The stream with STATE `n`. -/
def Stream.setState (t : Stream) (n : Nat) : Stream := { t with stat := setField t.stat 0 3 (BitVec.ofNat 3 n) }

/-- LOG, and whether it is in range (R13). -/
def Stream.log (t : Stream) : Nat := (t.size.extractLsb' 0 5).toNat
def Stream.logOk (t : Stream) : Bool := 12 ≤ t.log && t.log ≤ 30

/-- TENANT, CLMASK and PTMASK (R13). -/
def Stream.tenant (t : Stream) : Nat := (t.cfg.extractLsb' 52 4).toNat
def Stream.clMask (t : Stream) (cl : Nat) : Bool := cl < 32 && t.cfg.getLsbD (20 + cl)
def Stream.ptMask (t : Stream) (p : Nat) : Bool := p < 8 && t.cfg.getLsbD (12 + p)

/-- STATE while a command waits (R13). -/
def Await.state : Await → Nat
  | .placement _ => 2
  | .position _ _ | .all => 3
  | .store _ _ _ => 1

/-- The stream as it faults (R16): FCODE, STATE 4 and FSEQL; HEAD stays. -/
def Stream.fault (t : Stream) (code : BitVec 8) (fseql : BitVec 32) : Stream :=
  { t with stat := fseql ++ t.stat.extractLsb' 16 16 ++ code ++ (4 : BitVec 8) }

/-- A stream fault (R16): the host is interrupted. -/
def Mach.streamFault (m : Mach) (k : Nat) (code : BitVec 8) (fseql : BitVec 32) : Mach :=
  (m.modStream k (fun t => t.fault code fseql)).raiseIrq (m.pkg.vector 0)

/-- STATE between commands: idle at END, and with a LOG out of range (R13). -/
def Stream.rest (t : Stream) : Nat := if t.head = t.end_ ∨ t.logOk = false then 0 else 1

/-- A command completes: HEAD advances past it (R15). -/
def Stream.complete (t : Stream) : Stream :=
  let u := { t with head := t.head + BitVec.ofNat 64 t.len, await := none, len := 0, since := none }
  u.setState u.rest

/-- A command begins to wait (R15). -/
def Stream.wait (t : Stream) (a : Await) : Stream := { t with await := some a }.setState a.state

/-! ### What a sequencer reads (R371) -/

/-- The place of the sequencers among the cores, for a translation's walk: they stand in a cluster of their own. -/
def sequencerCore : Nat := 256

/-- The checks of R371 on a page: `store` for a `signal`. -/
def Mach.seqPageOk (m : Mach) (t : Stream) (store : Bool) (g : Seg) : Bool :=
  !leafREM g.leaf && !leafCMP g.leaf && (if store then leafWR g.leaf && !leafCXL g.leaf else leafRD g.leaf) &&
    populated g.pa && populated (g.pa + g.len - 1) &&
    (!hbmPopulated g.pa || (match kget (sliceOf g.pa) m.pkg.part with
      | some p => t.ptMask p
      | none => false))

/-- The pieces of `n` bytes that a sequencer may access (R371). -/
def Mach.seqPieces (m : Mach) (t : Stream) (store : Bool) (va n : Nat) : Option (List Seg) :=
  match pieces m sequencerCore t.root 5 0 va n with
  | .error _ => none
  | .ok l => if l.all (m.seqPageOk t store) then some l else none

/-- `n` bytes that a sequencer reads. -/
def Mach.seqRead (m : Mach) (t : Stream) (va n : Nat) : Option (List Byte) := (m.seqPieces t false va n).map m.segBytes

/-- `n` bytes of the ring from position `p`: byte `p` lies at BASE + (p mod 2^LOG) (R14). -/
def Mach.ringRead (m : Mach) (t : Stream) (p : W64) (n : Nat) : Option (List Byte) :=
  let sz := 2 ^ t.log
  let o := p.toNat % sz
  if o + n ≤ sz then m.seqRead t (t.base.toNat + o) n
  else
    match m.seqRead t (t.base.toNat + o) (sz - o), m.seqRead t t.base.toNat (o + n - sz) with
    | some a, some b => some (a ++ b)
    | _, _ => none

/-! ### Placement records (R18, R20) -/

/-- NENT. -/
def hdrEntries (b : List Byte) : Nat := fieldAt b 6 2

/-- The run header's checks (R20). -/
def headerOk (t : Stream) (b : List Byte) : Bool :=
  fieldAt b 0 4 == 0x314B4952 && fieldAt b 4 2 == 1 && zeroAt b 9 7 && zeroAt b 28 36 && 1 ≤ hdrEntries b && hdrEntries b ≤ 256 &&
    t.ptMask (byteAt b 8)

/-- A placement entry (R18). -/
def entryFrom (b : List Byte) : Entry :=
  { cluster := byteAt b 0, core := byteAt b 1, ctxMask := BitVec.ofNat 4 (byteAt b 2), tiles := BitVec.ofNat 8 (byteAt b 3),
    stones := BitVec.ofNat 4 (byteAt b 4), curves := BitVec.ofNat 4 (byteAt b 4 / 16), maps := BitVec.ofNat 4 (byteAt b 5),
    share := byteAt b 6, llBase := byteAt b 8, llCnt := byteAt b 9, lkBase := byteAt b 12, lkCnt := byteAt b 13 }

/-- Contexts of a core that an entry names, in rising order. -/
def Entry.ctxs (e : Entry) : List Nat := (List.range 4).filter (fun c => e.ctxMask.getLsbD c)

/-- A placement entry's own checks (R18, R20). -/
def entryOk (t : Stream) (b : List Byte) : Bool :=
  let e := entryFrom b
  e.cluster < 32 && e.core < 8 && byteAt b 2 < 16 && byteAt b 5 < 16 && byteAt b 7 == 0 && zeroAt b 10 2 && zeroAt b 14 2 &&
    e.ctxs.length ≤ e.share && e.share ≤ 64 && 1 ≤ e.llCnt && e.llBase + e.llCnt ≤ 24 && 1 ≤ e.lkCnt && e.lkBase + e.lkCnt ≤ 128 &&
    t.clMask e.cluster

/-- The checks of R20 between entries. -/
def entriesOk (l : List Entry) : Bool :=
  decide (l.Pairwise (fun a b => ¬(a.cluster = b.cluster ∧ a.core = b.core) ∧
    (a.cluster = b.cluster → a.lkBase = b.lkBase ∧ a.lkCnt = b.lkCnt)))

/-- A run header and record read and checked (R15, R18, R20): the code of the stream fault, or the offset of the first bundle
and the entries. -/
def Mach.readRecord (m : Mach) (t : Stream) (bin : W64) : Except (BitVec 8) (W64 × Nat × List Entry) :=
  match m.seqRead t bin.toNat 64 with
  | none => .error 0x04
  | some h =>
    if headerOk t h = false then .error 0x03
    else
      match m.seqRead t (bin.toNat + 64) (16 * hdrEntries h) with
      | none => .error 0x04
      | some b =>
        let raw := chunks 16 (hdrEntries h) b
        if raw.all (entryOk t) && entriesOk (raw.map entryFrom) then
          .ok (BitVec.ofNat 64 (fieldAt h 16 8 + fieldAt h 24 4), byteAt h 8, raw.map entryFrom)
        else .error 0x03

/-- A run that waits for placement (R21): `time` orders it, `pos` is its position. -/
def Run.waiting (id k : Nat) (t : Stream) (pos : W64) (time : Nat) (bin args : W64) (rec_ : W64 × Nat × List Entry) : Run :=
  { id := id, stream := k, pos := pos, time := time, tenant := t.tenant, root := t.root, part := rec_.2.1, bin := bin, args := args,
    pc := bin + rec_.1, recs := rec_.2.2, placed := false, begun := false, stopped := false, cnt := [], served := [], flits := 0, energy := 0, child := none }

/-- The stream as a cycle ends: a command that stands at its head has reached it in this cycle `n`, or before (R21; log 115). -/
def Stream.arrived (t : Stream) (n : Nat) : Stream :=
  if t.since.isNone && t.await.isNone && t.head != t.end_ then { t with since := some n } else t

/-! ### Commands (R15) -/

/-- A command word: a context that issues it takes the illegal-encoding trap (R17); the sequencer of stream `k` does `f`. -/
def State.command (s : State) (lits : Bool) (f : Nat → Stream → Mach → Mach) : Res :=
  match s.iss.agent with
  | .ctx _ => s.illegal 2
  | .seq k => if lits then done (s.mapM (fun m => f k (m.stream k) m)) else done (s.mapM (fun m => m.streamFault k 0x01 0))

/-- `launch` (R15): the record is read and checked, then the run waits for placement, ordered by the cycle in which the command reached the
head of its stream (R21). -/
def Mach.launch (k : Nat) (t : Stream) (bin args : W64) (m : Mach) : Mach :=
  let m1 := m.modStream k (fun t => { t with seq := t.seq + 1 })
  match m.readRecord t bin with
  | .error c => m1.streamFault k c 0
  | .ok rec_ =>
    let (id, m2) := m1.fresh
    { m2 with runs := m2.runs ++ [Run.waiting id k t t.seq (t.since.getD m.cyc) bin args rec_] }.modStream k
      (fun t => { t with open_ := t.open_ ++ [t.seq - 1] }.wait (.placement id))

/-- `waitrun` (R15). -/
def Mach.waitrun (k : Nat) (t : Stream) (j : Nat) (n : W64) (m : Mach) : Mach :=
  if n = 0 then m.modStream k Stream.complete
  else if j = k ∧ t.seq ≤ n then m.streamFault k 0x05 0
  else m.modStream k (fun t => t.wait (.position j n))

/-- `signal` (R15, R371). -/
def Mach.signal (k : Nat) (t : Stream) (a v : W64) (irq : Option (BitVec 8)) (m : Mach) : Mach :=
  if a.toNat % 8 ≠ 0 then m.streamFault k 0x06 0
  else
    match m.seqPieces t true a.toNat 8 with
    | some [g] => m.modStream k (fun t => t.wait (.store g.pa v irq))
    | _ => m.streamFault k 0x06 0

def execLaunch (k : BitVec 5) (s : State) : Res :=
  s.command (k.toNat + 4 ≤ s.iss.hdr.lits.toNat) (fun n t => Mach.launch n t (s.lit2 k.toNat) (s.lit2 (k.toNat + 2)))

def execWaitrun (j : BitVec 4) (k : BitVec 5) (s : State) : Res :=
  s.command (k.toNat + 2 ≤ s.iss.hdr.lits.toNat) (fun n t => Mach.waitrun n t j.toNat (s.lit2 k.toNat))

def execSignal (v : BitVec 8) (e : BitVec 1) (k : BitVec 5) (s : State) : Res :=
  s.command (k.toNat + 4 ≤ s.iss.hdr.lits.toNat)
    (fun n t => Mach.signal n t (s.lit2 k.toNat) (s.lit2 (k.toNat + 2)) (if e = 1 then some v else none))

def execFence (s : State) : Res := s.command true (fun n _ m => m.modStream n (fun t => t.wait .all))

/-! ### Events of streams -/

/-- The command under way is abandoned, HEAD standing at it (R16): a faulted stream executes nothing further, and it resumes at HEAD
(R13). A launch that still waits is withdrawn with its position, which is then as one whose record was refused (log 37). -/
def Mach.abandon (m : Mach) (k : Nat) : Mach :=
  let rest := fun (t : Stream) => { t with await := none, len := 0 }
  match (m.stream k).await with
  | some (.placement id) =>
    { m with runs := m.runs.filter (fun r => r.id != id) }.modStream k (fun t =>
      rest { t with open_ := t.open_.filter (fun p => some p != (m.run? id).map (fun (r : Run) => r.pos)) })
  | _ => m.modStream k rest

/-- APPEND (R14): END advances, or the stream faults. -/
def Mach.append (m : Mach) (k : Nat) (e : W64) : Option Mach :=
  let t := m.stream k
  if t.end_.toNat ≤ e.toNat ∧ e.toNat % 4 = 0 ∧ (e - t.head).toNat ≤ 2 ^ t.log then
    some (m.modStream k (fun t => { t with end_ := e }))
  else some ((m.abandon k).streamFault k 0x07 0)

/-- What `f` makes of the command that stream `k` waits in. No command stream executes in a wipe (R167). -/
def Mach.awaited (m : Mach) (k : Nat) (f : Await → Option Mach) : Option Mach :=
  if m.pkg.wiping then none else (m.stream k).await.bind f

/-- WAITRUN_DONE (R15, R25). -/
def Mach.waitrunDone (m : Mach) (k : Nat) : Option Mach :=
  m.awaited k (fun a => match a with
  | .position j n => if (m.stream j).ret.contains n then some (m.modStream k Stream.complete) else none
  | _ => none)

/-- FENCE_DONE (R15): no position that the stream launched is open; its signals have completed one by one. -/
def Mach.fenceDone (m : Mach) (k : Nat) : Option Mach :=
  m.awaited k (fun a => match a with
  | .all => if (m.stream k).open_.isEmpty then some (m.modStream k Stream.complete) else none
  | _ => none)

/-- SIGNAL_STORE_PERFORMED (R15): the store performs, then the interrupt is raised. -/
def Mach.signalDone (m : Mach) (k : Nat) : Option Mach :=
  m.awaited k (fun a => match a with
  | .store loc v irq =>
    let m1 := (m.store loc (vecLE 8 v)).modStream k Stream.complete
    some (match irq with
      | some n => m1.raiseIrq n
      | none => m1)
  | _ => none)

/-- DEFERRED_STREAM_FAULT (R16): at a command boundary, the oldest first. -/
def Mach.lateStreamFault (m : Mach) (k : Nat) : Option Mach :=
  match (m.stream k).late, (m.stream k).await with
  | (c, n) :: rest, none => some ((m.streamFault k c n).modStream k (fun t => { t with late := rest }))
  | _, _ => none

def execAppend (k : BitVec 4) (e : W64) (s : State) : Res := s.event (fun m => m.append k.toNat e)
def execWaitrunDone (k : BitVec 4) (s : State) : Res := s.event (fun m => m.waitrunDone k.toNat)
def execFenceDone (k : BitVec 4) (s : State) : Res := s.event (fun m => m.fenceDone k.toNat)
def execSignalStorePerformed (k : BitVec 4) (s : State) : Res := s.event (fun m => m.signalDone k.toNat)
def execDeferredStreamFault (k : BitVec 4) (s : State) : Res := s.event (fun m => m.lateStreamFault k.toNat)

end Sys2Proof.Machine
end

