-- ==== Sys2Proof/Machine/Geometry.lean ====
section
/-! DEFINITION. Coordinates and elements: where an element of a format lies (R265), the coordinate header (R258), the runs of a
box (R259). The Headrace reads, and the Tailrace writes, through these. -/

namespace Sys2Proof.Machine

/-- Bytes of an element of a format of R80; 1 for `.e2m1` and `.bp8`, which pack bits. -/
def fmtBytes (f : Nat) : Nat :=
  if f == 0 || f == 3 || f == 0xB then 4 else if f == 1 || f == 2 || f == 9 || f == 0xA then 2 else 1

/-- The bytes of element `q` with position 0 at `base` (R265, R104): each location with the lowest bit and the number of bits
that it gives the element, and the element's bit that the lowest is. -/
def elemBits (f : Nat) (base q : Int) : List (Int × Nat × Nat × Nat) :=
  if f = 8 then [(base + q / 2, 4 * (q % 2).toNat, 4, 0)]
  else if f = 0xC then
    (List.range 8).map (fun j => (base + 256 * (q / 256) + 32 * (7 - j : Nat) + (q % 256) / 8, (q % 8).toNat, 1, j))
  else (List.range (fmtBytes f)).map (fun (i : Nat) => (base + fmtBytes f * q + i, 0, 8, 8 * i))

/-- The element at position `q`, its locations taken as memory locations. -/
def readElem (m : Memory) (f : Nat) (base q : Int) : Nat :=
  (elemBits f base q).foldl (fun acc p =>
    acc + ((readByte m p.1.toNat).toNat / 2 ^ p.2.1 % 2 ^ p.2.2.1) * 2 ^ p.2.2.2) 0

/-- The bytes after element `q` is written with `v`, no other element's bits touched (R265). -/
def elemWrites (m : Memory) (f : Nat) (base q : Int) (v : Nat) : List (Nat × Byte) :=
  (elemBits f base q).map (fun p =>
    let old := (readByte m p.1.toNat).toNat
    let lo := 2 ^ p.2.1
    let n := 2 ^ p.2.2.1
    (p.1.toNat, BitVec.ofNat 8 (old - old / lo % n * lo + v / 2 ^ p.2.2.2 % n * lo)))

/-- The payload of a run (R258). -/
def packElems (f : Nat) (l : List Nat) : List Byte :=
  if f = 8 then (chunks 2 ((l.length + 1) / 2) l).map (fun p => BitVec.ofNat 8 (p.headD 0 + 16 * p.getD 1 0))
  else l.flatMap (natLE (fmtBytes f))

/-- Element `j` of a payload. -/
def payloadElem (f : Nat) (bs : List Byte) (j : Nat) : Nat :=
  if f = 8 then (bs.getD (j / 2) 0).toNat / 16 ^ (j % 2) % 16 else leNat ((bs.drop (fmtBytes f * j)).take (fmtBytes f))

/-- Payload bytes of a run of `n` elements, and its sectors (R258). -/
def runBytes (f n : Nat) : Nat := if f = 8 then (n + 1) / 2 else fmtBytes f * n
def sectorsOf (n : Nat) : Nat := (n + 31) / 32

/-- A coordinate header (R258). -/
def coordHdr (stream : BitVec 16) (f dim cnt : Nat) (end_ : Bool) (c : List Nat) (tid : BitVec 12) : BitVec 128 :=
  BitVec.ofNat 128 (tid.toNat * 2 ^ 4 + c.getD 0 0 * 2 ^ 16 + c.getD 1 0 * 2 ^ 36 + c.getD 2 0 * 2 ^ 56 + c.getD 3 0 * 2 ^ 76 +
    (if end_ then 2 ^ 99 else 0) + cnt * 2 ^ 100 + (dim - 1) * 2 ^ 106 + f * 2 ^ 108 + stream.toNat * 2 ^ 112)

/-- Fields of a header. -/
def hdrStream (h : BitVec 128) : BitVec 16 := h.extractLsb' 112 16
def hdrFmt (h : BitVec 128) : Nat := (h.extractLsb' 108 4).toNat
def hdrDim (h : BitVec 128) : Nat := (h.extractLsb' 106 2).toNat + 1
def hdrCnt (h : BitVec 128) : Nat := (h.extractLsb' 100 6).toNat + 1
def hdrEnd (h : BitVec 128) : Bool := h.getLsbD 99
def hdrCoord (h : BitVec 128) (d : Nat) : Nat := (h.extractLsb' (16 + 20 * d) 20).toNat
def hdrTid (h : BitVec 128) : BitVec 12 := h.extractLsb' 4 12

/-- Whether some active extent is 0 (R276). -/
def Box.empty (b : Box) : Bool := (b.size.take b.dim).any (fun e => e == 0)

/-- Source position of the element at offsets `u` from the origin (R273). -/
def Box.pos (b : Box) (u : List Nat) : Int :=
  (List.zipWith (fun (x : Nat) (st : Int) => (x : Int) * st) u b.strd).foldl (fun x y => x + y) 0

/-- The least and the greatest source position of a box that is not empty. -/
def Box.span (b : Box) : Int × Int :=
  (List.zip b.size b.strd).foldl (fun (acc : Int × Int) p =>
    let far := ((p.1 : Int) - 1) * p.2
    (acc.1 + min 0 far, acc.2 + max 0 far)) (0, 0)

/-- Whether every byte of the elements of a box lies in a window of `n` bytes (R276): the outermost positions decide. -/
def Box.inside (b : Box) (n : Nat) : Bool :=
  let ok := fun (q : Int) => (elemBits b.fmt b.src q).all (fun p => decide (0 ≤ p.1) && decide (p.1 < n))
  ok b.span.1 && ok b.span.2

/-- The runs of a box in the order of R259: the offsets of each run's first element and its length. -/
def Box.runs (b : Box) : List (List Nat × Nat) :=
  let e := fun (d : Nat) => b.size.getD d 1
  (List.range (e 3)).flatMap (fun u3 => (List.range (e 2)).flatMap (fun u2 => (List.range (e 1)).flatMap (fun u1 =>
    (List.range ((e 0 + 63) / 64)).map (fun i => ([64 * i, u1, u2, u3], min 64 (e 0 - 64 * i))))))

/-- The elements of a run, as the Headrace reads them with position 0 at location `base`. -/
def Box.runElems (b : Box) (m : Memory) (base : Int) (run : List Nat × Nat) : List Nat :=
  (List.range run.2).map (fun (j : Nat) => readElem m b.fmt base (b.pos run.1 + (j : Int)))

/-- The bytes that a run reads, as first location and count (R246); whole plane groups for `.bp8`. -/
def Box.runReads (b : Box) (base : Int) (run : List Nat × Nat) : Nat × Nat :=
  let q := b.pos run.1
  let last := q + run.2 - 1
  if b.fmt = 8 then ((base + q / 2).toNat, (last / 2 - q / 2 + 1).toNat)
  else if b.fmt = 0xC then ((base + 256 * (q / 256)).toNat, (256 * (last / 256 - q / 256 + 1)).toNat)
  else ((base + fmtBytes b.fmt * q).toNat, fmtBytes b.fmt * run.2)

/-- Absolute coordinates of a run. -/
def Box.coords (b : Box) (run : List Nat × Nat) : List Nat := List.zipWith (fun x y => x + y) b.org run.1

/-- The Tailrace that a destination word names (R275, R365). -/
def destTail (w : W64) : Nat :=
  let cl := (w.extractLsb' 3 5).toNat
  if w.extractLsb' 8 2 = 0 then 8 * cl + (w.extractLsb' 0 3).toNat else 256 + cl

/-- The package that a destination word names. -/
def destChip (w : W64) : BitVec 12 := w.extractLsb' 16 12

/-- The Tailrace of a context's core, or of its cluster (R281). -/
def tailOf (x : Nat) (t : BitVec 1) : Nat := if t = 1 then 256 + clusterOf x else coreOf x

end Sys2Proof.Machine
end

