-- ==== Sys2Proof/Machine/Transfer.lean ====
section
/-! DEFINITION. The X slot (R271 to R285): shape registers, sends, multicasts, collective reductions, map operations, causal
token registers and link bindings. A queued form captures here what its issue reads; what it does when it begins stands in
Engines.lean. -/

namespace Sys2Proof.Machine

/-- A shape register written for the third issue after this one (R272). -/
def State.putShape (s : State) (k : BitVec 4) (v : W64) : Res :=
  done (s.expose [{ kind := 2, reg := k.zeroExtend 8, byte := 0, k := 3, data := v.zeroExtend 128, src := none }])

/-- An operation enters the context's X queue (R271): the words it captured and the scratchpad bytes it still has to read. -/
def State.xop (s : State) (i : Instr) (tok : Nat) (words : List W64) (reads : List (Nat × Nat)) (after : List Nat) : Res :=
  let (id, m) := s.m.begin_
  let s1 := { s with m := m }
  done (s1.modC (fun c => { c with
    regs := c.regs.record tok id
    xq := c.xq ++ [{ id := id, ctx := s.cx, pc := s.iss.addr, rid := s.oc.rid, no := s.no, ins := i, needs := s.needs ++ after,
                     begun := false, words := words, vec := 0, reads := reads, feed := [], came := [], blocks := [] }] }))

/-- The source checks of R276: the window, then the alignment of SRC. -/
def State.sourceOk (s : State) (sp : Space) (b : Box) : Option Cause :=
  if b.empty then none
  else if !b.inside (s.old.window s.cx sp).2 then some { code := 0x11, sub := 1, addr := BitVec.ofNat 64 b.src }
  else if b.src % (if b.fmt = 0xC then 256 else fmtBytes b.fmt) != 0 then
    some { code := 0x03, sub := 0, addr := BitVec.ofNat 64 b.src }
  else none

/-- A send to some destination words (R276, R279, R280): each is one transfer with its own number, in order. The words it keeps
are the four shape words, the operand word, the location of source position 0, the first transfer number, the destinations. -/
def State.send (s : State) (i : Instr) (sp : Space) (k : BitVec 4) (t : BitVec 5) (d : BitVec 6) (dests : List W64) : Res :=
  let b := boxOf s.regs k.toNat
  match s.sourceOk sp b with
  | some c => s.raise c
  | none =>
    let base := (s.old.window s.cx sp).1 + b.src
    let tid := (s.m.core (coreOf s.cx)).tid
    let s1 := s.mapM (fun m => m.modCore (coreOf s.cx) (fun c => { c with tid := c.tid + BitVec.ofNat 12 dests.length }))
    s1.xop i t.toNat
      ((List.range 4).map (fun j => rget (k.toNat + j) s.regs.sh) ++ [s.rg d, BitVec.ofNat 64 base, tid.zeroExtend 64] ++ dests)
      (if b.empty then [] else b.runs.map (b.runReads base))
      (s.earlierLocal (if sp = .lk then [9] else [7, 8]))

/-- A multicast (R279): the member list's window and alignment, then each member word; the list lies in the LL window. -/
def State.multicast (s : State) (i : Instr) (sp : Space) (k : BitVec 4) (t : BitVec 5) (d : BitVec 6) : Res :=
  let n := ((s.rg d).extractLsb' 32 5).toNat + 1
  match s.old.local_ s.cx .ll ((s.rg d).extractLsb' 0 32 |>.zeroExtend 64) (8 * n) 8 with
  | .error c => s.raise c
  | .ok loc =>
    let members : List W64 := (List.range n).map (fun j => BitVec.ofNat 64 (s.old.load (loc + 8 * j) 8))
    if members.all sendDestOk then s.send i sp k t d members else s.illegal 4

/-- A map operation or a stray read enters the queue (R281, R282). -/
def State.mapOp (s : State) (i : Instr) (t : BitVec 1) (words : List W64) (reads : List (Nat × Nat)) : Res :=
  s.xop i 0 words reads (s.earlierLocal (if t = 1 then [9] else [7, 8]))

/-- The space of a Tailrace's memory. -/
def tailSpace (t : BitVec 1) : Space := if t = 1 then .lk else .ll

/-- The pair without the words of a request that is not complete. -/
def Link.dropPart (l : Link) : Link := { l with outb := l.outb.take (l.outb.length - l.asm.length), asm := [] }

/-- A link pair bound to a run (R284, R296): generations and outstanding bits begin at zero, and so does the next request (log 32). -/
def Link.bindTo (l : Link) (rid : Nat) (w : W64) : Link :=
  { l.dropPart with holder := some rid, bind := w, gen := [], out_ := [] }

/-- A link pair freed (R284): inbound words are discarded, complete outbound ones are still sent (log 32). -/
def Link.free (l : Link) : Link := { l.dropPart with holder := none, inb := [], out_ := [] }

/-- The machine as the `lnmsg` words that context `x` has queued for link `k` will leave it, one after the other (R284). -/
def Mach.pushQueued (m : Mach) (x k : Nat) : Mach :=
  ((m.ctx x).xq.filter (fun o => match o.ins with
    | .lnmsg n _ => n.toNat == k
    | _ => false)).foldl (fun acc o => match acc.pushLink x o.no o.pc k (o.words.headD 0) with
      | .ok n => n
      | .error _ => acc) m

/-! ### Meanings -/

def execMvsh (k : BitVec 4) (a : BitVec 6) (s : State) : Res := s.putShape k (s.rg a)
/-- `shadd` (R272): the old value is that seen at this issue. -/
def execShadd (k : BitVec 4) (a : BitVec 6) (s : State) : Res := s.putShape k (rget k.toNat s.regs.sh + s.rg a)
def execLish (k : BitVec 4) (l : BitVec 5) (s : State) : Res := s.guard (.lish k l) (s.putShape k (s.lit2 l.toNat))

/-- `xsend` (R276). -/
def execXsend (k : BitVec 4) (t : BitVec 5) (d : BitVec 6) (s : State) : Res :=
  s.guard (.xsend k t d) (s.send (.xsend k t d) .ll k t d [s.rg d])
def execXsendLk (k : BitVec 4) (t : BitVec 5) (d : BitVec 6) (s : State) : Res :=
  s.guard (.xsendLk k t d) (s.send (.xsendLk k t d) .lk k t d [s.rg d])
/-- `xmcast` (R279). -/
def execXmcast (k : BitVec 4) (t : BitVec 5) (d : BitVec 6) (s : State) : Res :=
  s.guard (.xmcast k t d) (s.multicast (.xmcast k t d) .ll k t d)
def execXmcastLk (k : BitVec 4) (t : BitVec 5) (d : BitVec 6) (s : State) : Res :=
  s.guard (.xmcastLk k t d) (s.multicast (.xmcastLk k t d) .lk k t d)
/-- `xred` (R280). -/
def execXredAddF32 (k : BitVec 4) (t : BitVec 5) (d : BitVec 6) (s : State) : Res :=
  s.guard (.xredAddF32 k t d) (s.send (.xredAddF32 k t d) .ll k t d [s.rg d])
def execXredMaxF32 (k : BitVec 4) (t : BitVec 5) (d : BitVec 6) (s : State) : Res :=
  s.guard (.xredMaxF32 k t d) (s.send (.xredMaxF32 k t d) .ll k t d [s.rg d])
def execXredMinF32 (k : BitVec 4) (t : BitVec 5) (d : BitVec 6) (s : State) : Res :=
  s.guard (.xredMinF32 k t d) (s.send (.xredMinF32 k t d) .ll k t d [s.rg d])
def execXredAddBf16 (k : BitVec 4) (t : BitVec 5) (d : BitVec 6) (s : State) : Res :=
  s.guard (.xredAddBf16 k t d) (s.send (.xredAddBf16 k t d) .ll k t d [s.rg d])
def execXredAddS32 (k : BitVec 4) (t : BitVec 5) (d : BitVec 6) (s : State) : Res :=
  s.guard (.xredAddS32 k t d) (s.send (.xredAddS32 k t d) .ll k t d [s.rg d])
def execXredMaxS32 (k : BitVec 4) (t : BitVec 5) (d : BitVec 6) (s : State) : Res :=
  s.guard (.xredMaxS32 k t d) (s.send (.xredMaxS32 k t d) .ll k t d [s.rg d])

/-- `ldmap` (R281): the image's window and alignment. -/
def execLdmap (k : BitVec 4) (a : BitVec 6) (t : BitVec 1) (s : State) : Res :=
  match s.old.local_ s.cx (tailSpace t) (s.rg a) 96 32 with
  | .error c => s.raise c
  | .ok loc => s.mapOp (.ldmap k a t) t [BitVec.ofNat 64 loc] [(loc, 96)]
def execSwapmap (n o : BitVec 4) (t : BitVec 1) (s : State) : Res := s.mapOp (.swapmap n o t) t [0] []
def execRetiremap (k : BitVec 4) (t : BitVec 1) (s : State) : Res := s.mapOp (.retiremap k t) t [0] []
/-- `strays` (R282). -/
def execStrays (a : BitVec 6) (t : BitVec 1) (s : State) : Res :=
  match s.old.local_ s.cx (tailSpace t) (s.rg a) 288 32 with
  | .error c => s.raise c
  | .ok loc => s.mapOp (.strays a t) t [BitVec.ofNat 64 loc] []

/-- `lnbind` (R284). -/
def execLnbind (k : BitVec 3) (a : BitVec 6) (s : State) : Res :=
  s.guard (.lnbind k a) (
    match ((s.old.core (coreOf s.cx)).link k.toNat).holder with
    | some r =>
      if r = s.oc.rid then
        done (s.mapM (fun m => m.modCore (coreOf s.cx) (fun c => c.modLink k.toNat (fun l => l.bindTo s.oc.rid (s.rg a)))))
      else s.raise (linkTrap k.toNat s.iss.addr)
    | none => done (s.mapM (fun m => m.modCore (coreOf s.cx) (fun c => c.modLink k.toNat (fun l => l.bindTo s.oc.rid (s.rg a))))))

/-- `lnfree` (R284): freeing a pair that the run does not hold does nothing. -/
def execLnfree (k : BitVec 3) (s : State) : Res :=
  if s.holdsLink k then done (s.mapM (fun m => m.modCore (coreOf s.cx) (fun c => c.modLink k.toNat Link.free))) else done s

/-- `lnmsg` (R284): the word is pushed once every earlier X operation of the context has completed; at the issue the access is checked as
its push will be, behind those that are queued (log 30). -/
def execLnmsg (k : BitVec 3) (a : BitVec 6) (s : State) : Res :=
  if s.holdsLink k then
    match (s.m.pushQueued s.cx k.toNat).pushLink s.cx s.no s.iss.addr k.toNat (s.rg a) with
    | .error c => s.raise c
    | .ok _ => s.xop (.lnmsg k a) 0 [s.rg a] [] []
  else s.raise (linkTrap k.toNat s.iss.addr)

/-- `ctset` and `ctclr` (R283). -/
def execCtset (c : BitVec 3) (a : BitVec 6) (s : State) : Res :=
  done (s.modR (fun r => { r with ct := rput c.toNat ((s.rg a).extractLsb' 0 16) r.ct }))
def execCtclr (c : BitVec 3) (s : State) : Res := done (s.modR (fun r => { r with ct := rput c.toNat 0 r.ct }))

end Sys2Proof.Machine
end

