-- ==== Sys2Proof/Machine/Runs.lean ====
section
/-! DEFINITION. Runs: placement (R19 to R22, R27), retirement (R25, R268, R318), tail children (R24), end of a run by system
software (R365), pre-emption (R29, R33, R321), wakes (R30, R32, R183 to R186), team barriers and forced checkpoints (R36, R37,
R242, R330), and the delivery of a reported fault (R316). -/

namespace Sys2Proof.Machine

/-! ### Resources (R19, R21) -/

/-- Whether two ranges of granules meet. -/
def meet (a n b k : Nat) : Bool := a < b + k && b < a + n

/-- Whether two entries name a resource in common, slot-table entries aside (R19). -/
def Entry.clash (a b : Entry) : Bool :=
  a.cluster == b.cluster &&
    (meet a.lkBase a.lkCnt b.lkBase b.lkCnt ||
      (a.core == b.core && (a.ctxMask &&& b.ctxMask != 0 || a.tiles &&& b.tiles != 0 || a.stones &&& b.stones != 0 ||
        a.curves &&& b.curves != 0 || a.maps &&& b.maps != 0 || meet a.llBase a.llCnt b.llBase b.llCnt)))

/-- Whether two runs name a resource in common. -/
def Run.clash (a b : Run) : Bool := a.recs.any (fun e => b.recs.any e.clash)

/-- Waiting launches in the order of R21. -/
def Run.before (a b : Run) : Bool :=
  a.time < b.time || (a.time == b.time && (a.stream < b.stream || (a.stream == b.stream && a.id < b.id)))

/-- The slot-table entries that a run's record asks for on core `k`. -/
def Run.sharesOn (r : Run) (k : Nat) : Nat :=
  ((r.recs.filter (fun e => 8 * e.cluster + e.core == k)).map (fun e => e.share)).foldl (fun x y => x + y) 0

/-- Every resource that `r` names is free to it (R21): no placed run holds one, no older waiting launch names one, and the cores'
entries suffice for it and for the older launches, and no core waits to be substituted (R369). DESIGN CHOICE (log 98): the slot-table entries of a core are a quantity and no
resource that two launches name in common, so `r` may pass an older launch with which it shares only them, while enough are left for
both. -/
def Mach.roomFor (m : Mach) (r : Run) : Bool :=
  let older := m.runs.filter (fun q => !q.placed && q.before r)
  m.runs.all (fun q => !q.placed || !q.clash r) && older.all (fun q => !q.clash r) &&
    r.recs.all (fun e =>
      let k := 8 * e.cluster + e.core
      !(m.core k).dead && !m.pkg.repairs.contains k && m.heldShares k + (older.map (fun q => q.sharesOn k)).foldl (fun x y => x + y) 0 + e.share ≤ 64)

/-- The clusters that a run names, rising: its teams (R22, R375). -/
def Run.clusters (r : Run) : List Nat := (List.range 32).filter (fun c => r.recs.any (fun e => e.cluster == c))

/-- The entries of a cluster in rising order of core. -/
def Run.entriesIn (r : Run) (cl : Nat) : List Entry :=
  (List.range 8).flatMap (fun k => r.recs.filter (fun e => e.cluster == cl && e.core == k))

/-- The contexts of a team in rank order (R22). -/
def Run.teamCtxs (r : Run) (cl : Nat) : List Nat :=
  (r.entriesIn cl).flatMap (fun e => e.ctxs.map (fun c => 4 * (8 * e.cluster + e.core) + c))

/-! ### Zeroing (R22, R167) -/

/-- Memory with `n` bytes from `a` zero. -/
def Memory.clear (m : Memory) (a n : Nat) : Memory := m.filter (fun c => decide (c.1 < a) || decide (a + n ≤ c.1))

/-- The granules of an entry by number (R366): location / 65,536. -/
def Entry.granules (e : Entry) : List Nat :=
  (List.range e.llCnt).map (fun i => llLoc (8 * e.cluster + e.core) 0 / 65536 + e.llBase + i) ++
    (List.range e.lkCnt).map (fun i => lkLoc e.cluster 0 / 65536 + e.lkBase + i)

/-- Granules given to tenant `ten`: those recorded for another are zeroed, and all record it (R22, R366). -/
def Mach.takeGranules (m : Mach) (ten : Nat) (gs : List Nat) : Mach :=
  let foreign := gs.filter (fun g => kget g m.pkg.granT != some ten)
  { m with
    mem := foreign.foldl (fun acc g => Memory.clear acc (65536 * g) 65536) m.mem
    pkg := { m.pkg with
      granT := gs.foldl (fun acc g => kput g ten acc) m.pkg.granT
      wiping := m.pkg.wiping || !foreign.isEmpty } }

/-- Numbers of an entry's core resources: tiles 0 to 7, stones 8 to 11, curve tables 12 to 15, branch maps 16 to 19. -/
def Entry.units (e : Entry) : List Nat :=
  (List.range 8).filter (fun i => e.tiles.getLsbD i) ++ ((List.range 4).filter (fun i => e.stones.getLsbD i)).map (fun i => i + 8) ++
    ((List.range 4).filter (fun i => e.curves.getLsbD i)).map (fun i => i + 12) ++
    ((List.range 4).filter (fun i => e.maps.getLsbD i)).map (fun i => i + 16)

/-- One core resource zeroed. -/
def Core.zeroUnit (c : Core) (u : Nat) : Core :=
  if u < 8 then { c with tiles := kdel u c.tiles }
  else if u < 12 then { c with stones := kdel (u - 8) c.stones }
  else if u < 16 then { c with cv := kdel (u - 12) c.cv }
  else { c with bm := kdel (u - 16) c.bm }

/-- A core's resources given to tenant `ten` (R22). -/
def Core.take (c : Core) (ten : Nat) (us : List Nat) : Core :=
  us.foldl (fun acc u =>
    let a := if (kget u acc.last).any (fun t => t != ten) then acc.zeroUnit u else acc
    { a with last := kput u ten a.last }) c

/-- The resources of a record given to a tenant (R22). -/
def Mach.takeEntry (m : Mach) (ten : Nat) (e : Entry) : Mach :=
  let k := 8 * e.cluster + e.core
  let foreign := e.units.any (fun u => (kget u (m.core k).last).any (fun t => t != ten))
  ((m.takeGranules ten e.granules).modCore k (fun c => c.take ten e.units)).modPkg (fun p => { p with wiping := p.wiping || foreign })

/-! ### Placement (R22, R27, R315) -/

/-- The share of the `j`-th of `n` contexts (R27). -/
def shareOf (share n j : Nat) : Nat := share / n + (if j < share % n then 1 else 0)

/-- A context as its run begins (R22, R315). -/
def Mach.startCtx (m : Mach) (r : Run) (x team rank size share : Nat) : Ctx :=
  let g := [(1, r.args), (2, BitVec.ofNat 64 rank), (3, BitVec.ofNat 64 size), (4, BitVec.ofNat 64 team), (5, r.pos)]
  { Ctx.zero with
    regs := { Regs.zero with g := g.foldl (fun acc p => rput p.1 p.2 acc) [], vl := 1024 }
    ctl := { Ctl.zero with pc := r.pc }
    trp := { Ctx.zero.trp with
      tvec := rget (2 * r.tenant) m.pkg.ttab
      trec := rget (2 * r.tenant + 1) m.pkg.ttab + BitVec.ofNat 64 (4096 * x) }
    status := .run
    rid := r.id
    team := team
    rank := rank
    size := size
    share := share }

/-- The contexts of an entry with their shares. -/
def Entry.shares (e : Entry) : List (Nat × Nat) :=
  (List.zip (List.range e.ctxs.length) e.ctxs).map (fun p =>
    (4 * (8 * e.cluster + e.core) + p.2, shareOf e.share e.ctxs.length p.1))

/-- One team of a run is set up: its contexts at their first bundle, and its first checkpoint. -/
def Mach.placeTeam (m : Mach) (r : Run) (p : Nat × Nat) : Mach :=
  let xs := r.teamCtxs p.2
  let sh := (r.entriesIn p.2).flatMap Entry.shares
  let m1 := (List.zip (List.range xs.length) xs).foldl (fun (acc : Mach) q =>
    acc.setCtx q.2 (m.startCtx r q.2 p.1 q.1 xs.length (kgetD 0 q.2 sh))) m
  { m1 with teams := m1.teams ++ [{ rid := r.id, cluster := p.2, ctxs := xs, ckpt := xs.map (fun x => (x, m1.snap x)), cut := m1.nextId, undo := [],
                                    full := false, reports := [], serving := none, gate := none }] }

/-- The core of a resource that is part of one. -/
def unitCore (r : Resource) (unit : Nat) : Option Nat :=
  match r with
  | .scratchCore | .fetch => some unit
  | .registers => some (unit / 4)
  | .tile | .curve => some (unit / 8)
  | .stone => some (unit / 4)
  | _ => none

/-- Whether an entry of core `k` holds a resource of that core (R18): its contexts, its tiles, stones, curve tables and branch maps one by
one, the rest of the core whole. Units are numbered as `unitCore` divides them, branch maps after curve tables. -/
def Entry.holdsUnit (e : Entry) (r : Resource) (unit : Nat) : Bool :=
  match r with
  | .registers => e.ctxMask.getLsbD (unit % 4)
  | .tile => e.tiles.getLsbD (unit % 8)
  | .stone => e.stones.getLsbD (unit % 4)
  | .curve => if unit % 8 < 4 then e.curves.getLsbD (unit % 8) else e.maps.getLsbD (unit % 8 - 4)
  | _ => true

/-- Whether a run's record holds a resource (R369). -/
def Mach.heldIn (m : Mach) (q : Run) (r : Resource) (unit : Nat) : Bool :=
  match r, unitCore r unit with
  | _, some k => q.recs.any (fun e => 8 * e.cluster + e.core == k && e.holdsUnit r unit)
  | .scratchCluster, none => q.recs.any (fun e => e.cluster == unit)
  | .hbmRow, none => kget unit m.pkg.part == some q.part
  | _, none => false

/-- Whether a placed run holds core `k` or a part of it. -/
def Mach.coreHeld (m : Mach) (k : Nat) : Bool := m.runs.any (fun q => q.placed && q.recs.any (fun e => 8 * e.cluster + e.core == k))

/-- Whether a placed run holds a resource (R369). -/
def Mach.holds (m : Mach) (r : Resource) (unit : Nat) : Bool := m.runs.any (fun q => q.placed && m.heldIn q r unit)

/-- A self-test that is due of a resource which no run holds is made before a run takes it (R369). -/
def Mach.testFirst (m : Mach) (q : Run) : Bool := m.pkg.tests.any (fun t => !m.holds t.1 t.2 && m.heldIn q t.1 t.2)

/-- RUN_PLACEMENT (R21, R22): the run is placed exactly as recorded; its `launch` is complete. -/
def Mach.place (m : Mach) (id : Nat) : Option Mach :=
  match m.run? id with
  | none => none
  | some r =>
    if r.placed || m.pkg.wiping || !m.roomFor r || m.testFirst r then none
    else
      let m1 := r.recs.foldl (fun (acc : Mach) e => acc.takeEntry r.tenant e) m
      let m2 := (List.zip (List.range r.clusters.length) r.clusters).foldl (fun (acc : Mach) p => acc.placeTeam r p) m1
      let m3 := r.recs.foldl (fun (acc : Mach) e => acc.rebuild (8 * e.cluster + e.core)) m2
      let m4 := m3.modRun id (fun q => { q with placed := true })
      some (m4.modStream r.stream (fun t => if t.await == some (.placement id) then t.complete else t))

/-- RUN_START (R22): the contexts may issue. -/
def Mach.start (m : Mach) (id : Nat) : Option Mach :=
  match m.run? id with
  | none => none
  | some r => if r.placed && !r.begun && !m.pkg.wiping then some (m.modRun id (fun q => { q with begun := true })) else none

/-! ### Retirement (R25, R250, R318) -/

/-- The contexts of a placed run. -/
def Run.ctxs (r : Run) : List Nat := r.clusters.flatMap r.teamCtxs

/-- Nothing that the run issued is still under way (R25, R250). -/
def Mach.finished (m : Mach) (r : Run) : Bool :=
  r.ctxs.all (fun x =>
    let c := m.ctx x
    c.status == .ended && c.vq.isEmpty && c.qq.isEmpty && c.xq.isEmpty && !m.locq.any (fun o => o.ctx == x) &&
      !m.rets.any (fun o => o.ctx == x) && !(m.core (coreOf x)).mq.any (fun o => o.ctx == x)) &&
    !m.gops.any (fun g => g.rid == r.id) && r.recs.all (fun e => !(m.core (8 * e.cluster + e.core)).xfers.any (fun f => f.rid == r.id))

/-- Lost stores and failed transfers that no context took (R318). -/
def Ctx.lateFaults (c : Ctx) : Nat := (if c.pend.pex then c.pend.pexN.toNat else 0) + b2n c.pend.ptf

/-- LATE FAULTS of a run that retires (R318): LATEF, the stream's counter, the interrupt; the entries they report are freed. -/
def Mach.lateFaults (m : Mach) (r : Run) (xs : List Nat) : Mach :=
  let n := (xs.map (fun x => (m.ctx x).lateFaults)).foldl (fun a b => a + b) 0
  let m1 := xs.foldl Mach.clearExpiry m
  if n = 0 then m1
  else
    ((m1.modStream r.stream (fun t => { t with stat := setField t.stat 16 1 1 })).modPkg (fun p =>
      { p with cnts := rput (302 + r.stream) (rget (302 + r.stream) p.cnts + BitVec.ofNat 64 n) p.cnts })).raiseIrq (m.pkg.vector 2)

/-- The number that own entries of retired runs name: no context has it (R77). -/
abbrev noContext : Nat := 1024

/-- The cores that no run holds any longer are substituted by the spares that wait for them (R369). -/
def Mach.substituteFree (m : Mach) : Mach := m.modPkg (fun p => { p with repairs := p.repairs.filter m.coreHeld })

/-- The run's contexts, team state, link pairs and shares are released (R19, R25, R284), and cores that it alone held are substituted
(R369). An own entry still PENDING, its store dropped
(R297), tells no context of its deadline (log 17). -/
def Mach.release (m : Mach) (r : Run) (xs : List Nat) : Mach :=
  let m1 : Mach := { m with
    ctxs := m.ctxs.filter (fun p => !xs.contains p.1)
    teams := m.teams.filter (fun t => t.rid != r.id)
    runs := m.runs.filter (fun q => q.id != r.id)
    cores := m.cores.map (fun p => (p.1, { p.2 with
      links := p.2.links.map (fun q => (q.1, if q.2.holder == some r.id then q.2.free else q.2)) }))
    pkg := { m.pkg with own := m.pkg.own.map (fun e => (e.1, if xs.contains e.2.ctx then { e.2 with ctx := noContext } else e.2)) } }
  (r.recs.foldl (fun (acc : Mach) e => acc.rebuild (8 * e.cluster + e.core)) m1).substituteFree

/-- The position of a retired run: its child begins placement, or it has RETIRED (R24, R25). -/
def Mach.position (m : Mach) (r : Run) : Mach :=
  let shut := fun (m : Mach) => m.modStream r.stream (fun t =>
    { t with open_ := t.open_.filter (fun p => p != r.pos), ret := t.ret ++ [r.pos] })
  match r.child with
  | none => shut m
  | some (bin, args) =>
    let t := m.stream r.stream
    match m.readRecord t bin with
    | .error c => (shut m).modStream r.stream (fun u => { u with late := u.late ++ [(c, r.pos.extractLsb' 0 32)] })
    | .ok rec_ =>
      let (id, m1) := m.fresh
      { m1 with runs := m1.runs ++ [Run.waiting id r.stream t r.pos r.time bin args rec_] }

/-- RUN_RETIRE (R25). -/
def Mach.retire (m : Mach) (id : Nat) : Option Mach :=
  match m.run? id with
  | none => none
  | some r =>
    if r.begun && m.finished r then
      let xs := r.ctxs
      some (((m.lateFaults r xs).release r xs).position r)
    else none

/-- A slot table of maps without those that retired runs installed (R268). -/
def Mach.liveMaps (m : Mach) (t : Nat) : KMap MapSlot := (m.tail t).slots.filter (fun s => (m.run? s.2.rid).isSome)

/-- RETIRED_MAPS_EMPTY (R268): between two arrivals. -/
def Mach.emptyMaps (m : Mach) (t : Nat) : Option Mach :=
  if (m.liveMaps t).length = (m.tail t).slots.length || (m.tail t).landing.isSome then none
  else some (m.modTail t (fun q => { q with slots := m.liveMaps t }))

/-- A context as system software ends its run (R365): nothing more is begun. `p` are its pending faults, those that its handler's trap record
holds among them, which follow R318. -/
def Ctx.stop (c : Ctx) (p : Pend) : Ctx :=
  { c with
    status := .ended
    pend := p
    xq := c.xq.filter (fun o => o.begun)
    drains := []
    readAt := none
    trp := { c.trp with handler := false, ot := [], held := none }
    preempt := false }

/-- A run ended through the window (R365): every context stops, the store buffers are discarded, there is no child; it retires when
what it has committed is done (R25). -/
def Mach.endRun (m : Mach) (k : Nat) (pos : W64) : Option Mach :=
  match m.runs.find? (fun q => q.placed && q.stream == k && q.pos == pos) with
  | none => none
  | some r =>
    let xs := r.ctxs
    let dropped := fun (g : GOp) => g.rid == r.id && (match g.act with
      | .store _ | .red _ _ => !g.committed
      | _ => false)
    let gone := (m.gops.filter dropped).map (fun g => g.id) ++
      xs.flatMap (fun x => ((m.ctx x).xq.filter (fun o => !o.begun)).map (fun o => o.id))
    let m1 : Mach := { m with
      ctxs := m.ctxs.map (fun p => (p.1, if xs.contains p.1 then p.2.stop (m.pendingStill p.1) else p.2))
      gops := m.gops.filter (fun g => !dropped g)
      ops := m.ops.filter (fun i => !gone.contains i)
      teams := m.teams.map (fun t => if t.rid == r.id then
        { t with full := false, reports := [], serving := none, gate := none, undo := [] } else t) }
    some (m1.modRun r.id (fun q => { q with begun := true, stopped := false, child := none }))

/-! ### Pre-emption and wakes -/

/-- PREEMPT (R29, R33, R321): a context whose share is zero issues nothing further; a spin-parked one wakes (R32). The results in
its exposed paths stand in its replay buffer (R34). -/
def Mach.tryPreempt (m : Mach) (x : Nat) : Option Mach :=
  let c := m.ctx x
  if c.status == .absent || c.preempt || c.share != 0 then none
  else some (m.modCtx x (fun c => { c with
    preempt := true
    ibuf := []
    status := match c.status with
      | .parked (.spin _) => .run
      | q => q }))

/-- CONTEXT_RESUME (R29, R35, R53): a group boundary falls, and a `wait` is made again (R186). -/
def Mach.resume (m : Mach) (x : Nat) : Option Mach :=
  let c := m.ctx x
  if c.preempt && c.share != 0 then some ((m.modCtx x (fun c =>
    { c with preempt := false, status := match c.status with
      | .parked (.flags _) => .run
      | q => q })).boundary x) else none

/-- A parked context makes its issue (R30, R53): a group boundary falls. -/
def Mach.wake (m : Mach) (x : Nat) (keep : Bool) : Mach :=
  (m.modCtx x (fun c => { c with status := .run, hit := keep && c.hit, spin := [] })).boundary x

/-- SPIN_WAKE (R32): a store to a watched line, or a change of the engine flags. -/
def Mach.spinWake (m : Mach) (x : Nat) : Option Mach :=
  let c := m.ctx x
  match c.status with
  | .parked (.spin _) => if c.hit || m.engineFlags x != c.regs.fs then some (m.wake x false) else none
  | _ => none

/-- BAR_WAIT_WAKE (R183): the barrier's line has been written. -/
def Mach.barWake (m : Mach) (x : Nat) : Option Mach :=
  let c := m.ctx x
  match c.status with
  | .parked (.bar _) => if c.hit then some (m.wake x false) else none
  | _ => none

/-- WAITANY_WAKE (R184). -/
def Mach.anyWake (m : Mach) (x : Nat) : Option Mach :=
  let c := m.ctx x
  match c.status with
  | .parked (.any _ _) => if c.hit then some (m.wake x false) else none
  | _ => none

/-- WAITA_WAKE (R185): on a store to its line or for no cause, and where the page is REM, CXL or TSO once its read has performed; the word
then completes. -/
def Mach.lineWake (m : Mach) (x : Nat) : Option Mach :=
  match (m.ctx x).status with
  | .parked (.line _) => some ((m.modCtx x (fun c => { c with hit := true })).wake x true)
  | .parked (.read id) =>
    if m.inFlight id then none else some ((m.modCtx x (fun c => { c with readAt := some c.ctl.pc })).wake x false)
  | _ => none

/-- WAIT_WAKE (R186): the flags have changed and are settled afresh. -/
def Mach.flagWake (m : Mach) (x : Nat) : Option Mach :=
  match (m.ctx x).status with
  | .parked (.flags _) => if m.engineFlags x != (m.ctx x).regs.fs then some (m.wake x false) else none
  | _ => none

/-! ### Team barriers (R36, R37, R242, R330) -/

/-- Nothing keeps a team from a checkpoint (R317, R319). -/
def Mach.settled (m : Mach) (t : Team) : Bool := m.quiet t && t.reports.isEmpty && t.serving.isNone && t.gate.isNone

/-- The contexts of a team that wait at a `tbar` go on. -/
def Status.go (q : Status) : Status :=
  match q with
  | .parked .tbar => .run
  | q => q

/-- TBAR_RELEASE (R36, R242): when the whole team has arrived, the checkpoint is taken and the buffer commits; when every entry
committed there has performed, the contexts resume. -/
def Mach.tbarRelease (m : Mach) (rid cl : Nat) : Option Mach :=
  match m.team? rid cl with
  | none => none
  | some t =>
    match t.gate with
    | some l =>
      if m.gops.any (fun g => l.contains g.id) then none
      else
        let m1 := t.ctxs.foldl (fun (acc : Mach) x =>
          if (acc.ctx x).status == .parked .tbar then (acc.modCtx x (fun c => { c with status := .run })).boundary x else acc) m
        some (m1.modTeam rid cl (fun u => { u with gate := none }))
    | none =>
      if m.settled t && t.ctxs.any (fun x => (m.ctx x).status == .parked .tbar) &&
          t.ctxs.all (fun x => (m.ctx x).status == .parked .tbar || (m.ctx x).status == .ended) then
        let ck := fun (u : Team) => { u with ckpt := u.ckpt.map (fun p => (p.1, { p.2 with status := p.2.status.go })) }
        let ids := (m.gops.filter (fun g => g.rid == rid && g.cluster == cl && !g.committed)).map (fun g => g.id)
        some ((((m.checkpoint t).modTeam rid cl ck).commit rid cl).modTeam rid cl (fun u => { u with gate := some ids }))
      else none

/-- Nothing keeps a team from a forced checkpoint (R319); one may be taken while a handler runs (R38). -/
def Mach.canForce (m : Mach) (t : Team) : Bool := m.quiet t && t.reports.isEmpty && t.gate.isNone

/-- BUFFER_FULL_CHECKPOINT (R37): a full store buffer or undo log, and the second checkpoint of a commit point (R177, R277). -/
def Mach.bufferFull (m : Mach) (rid cl : Nat) : Option Mach :=
  match m.team? rid cl with
  | none => none
  | some t => if t.full && m.canForce t then some (m.forced t) else none

/-- The bytes of an undo log that a record of core `core` takes (DEDUCED, log 16): those of the 64-byte line, or of the tile row's 256
mantissas. -/
def Undo.room (core : Nat) : Undo → Nat
  | .line k _ _ => if k = core then 64 else 0
  | .row k _ _ _ _ => if k = core then 1024 else 0
  | .child _ | .popped _ _ _ | .pushed _ _ _ _ => 0

/-- Whether the undo log of a core is full (R37, R38). -/
def logIsFull (core : Nat) (log : List Undo) : Bool :=
  decide (Config.undoLogBytes ≤ (log.map (Undo.room core)).foldl (fun a b => a + b) 0)

/-- The old contents of a 64-byte line enter the undo log of `core` before the first write that changes it after the cut (R38; log 16); a
full log asks for a forced checkpoint (R37). -/
def Mach.logLine (m : Mach) (rid cl core line : Nat) : Mach :=
  match m.team? rid cl with
  | none => m
  | some t =>
    if t.undo.any (fun u => match u with
      | .line _ l _ => l == 64 * line
      | _ => false) then m
    else
      let log := Undo.line core (64 * line) (readBytes m.mem (64 * line) 64) :: t.undo
      m.modTeam rid cl (fun u => { u with undo := log, full := u.full || logIsFull core log })

/-- The old contents of a tile row enter the undo log (R38). -/
def Mach.logRow (m : Mach) (rid cl core tile row : Nat) : Mach :=
  match m.team? rid cl with
  | none => m
  | some t =>
    if t.undo.any (fun u => match u with
      | .row k a r _ _ => k == core && a == tile && r == row
      | _ => false) then m
    else
      let q := (m.core core).tile tile
      let log := Undo.row core tile row (rget row q.mant) (rget row q.exps) :: t.undo
      m.modTeam rid cl (fun u => { u with undo := log, full := u.full || logIsFull core log })

/-- The 64-byte lines that the bytes `bs` stored at `loc` change. -/
def Mach.changedLines (m : Mach) (loc : Nat) (bs : List Byte) : List Nat :=
  let old := readBytes m.mem loc bs.length
  (linesOf loc bs.length).filter (fun l =>
    let o := 64 * l - loc
    let n := 64 * (l + 1) - (loc + o)
    (old.drop o).take n != (bs.drop o).take n)

/-- A logged write of run code to a scratchpad. -/
def Mach.logStore (m : Mach) (rid cl core loc : Nat) (bs : List Byte) : Mach :=
  ((m.changedLines loc bs).foldl (fun (acc : Mach) l => acc.logLine rid cl core l) m).store loc bs

/-- Whether row `r` of a tile differs from that of another. -/
def Tile.rowDiffers (a b : Tile) (r : Nat) : Bool := rget r a.mant != rget r b.mant || rget r a.exps != rget r b.exps

/-- Where a generator barrier keeps its snapshot (R330): the context of lowest rank that arrived. -/
def Mach.snapshotAt (m : Mach) (t : Team) (restore : Bool) : Option Nat :=
  (t.ctxs.filterMap (fun x => match (m.ctx x).status with
    | .parked (.gen r off _) => if r = restore then some ((m.window x .lk).1 + off.toNat) else none
    | _ => none)).head?

/-- A context goes on after a generator barrier; `replayg` loads its generators. -/
def Ctx.leaveGen (c : Ctx) (restore : Bool) (b : List Byte) : Ctx :=
  { c with
    status := .run
    regs := if restore then { c.regs with genC := genCounters b, genK := genKeys b } else c.regs }

/-- GENERATOR_BARRIER_RELEASE (R330). -/
def Mach.genRelease (m : Mach) (rid cl : Nat) : Option Mach :=
  match m.team? rid cl with
  | none => none
  | some t =>
    let at_ := fun (restore : Bool) => t.ctxs.all (fun x => (m.ctx x).status == .ended || (m.ctx x).status.barrier == (if restore then 3 else 2))
    let act := fun (restore : Bool) =>
      match m.snapshotAt t restore with
      | none => none
      | some loc =>
        let ranks := List.zip (List.range t.ctxs.length) t.ctxs
        let m1 := if restore then m
          else ranks.foldl (fun (acc : Mach) p => acc.logStore rid cl (coreOf p.2) (loc + 128 * p.1) (genBytes (m.ctx p.2).regs)) m
        some (ranks.foldl (fun (acc : Mach) p =>
          if (acc.ctx p.2).status == .ended then acc
          else (acc.modCtx p.2 (fun c => c.leaveGen restore (readBytes m.mem (loc + 128 * p.1) 128))).boundary p.2) m1)
    if t.serving.isSome || !t.reports.isEmpty || m.locq.any (fun o => t.ctxs.contains o.ctx) then none
    else if at_ false then act false
    else if at_ true then act true
    else none

/-- FAULT_DELIVERY (R316, R317). A run that a double fault has stopped keeps its state (R315). -/
def Mach.tryDeliver (m : Mach) (rid cl : Nat) : Option Mach :=
  match m.team? rid cl with
  | none => none
  | some t => if t.reports.isEmpty || t.serving.isSome || m.runStopped rid then none else some (m.deliver t)

/-- Whether context `x` may issue at all (R26, R29, R30, R37, R39, R187, R316). -/
def Mach.mayIssue (m : Mach) (x : Nat) : Bool :=
  let c := m.ctx x
  c.status == .run && c.share != 0 && !c.preempt && c.drains.isEmpty &&
    (match m.run? c.rid with
     | some r => r.begun && !r.stopped
     | none => false) &&
    (match m.team? c.rid (clusterOf x) with
     | some t => !t.full && t.reports.isEmpty && t.gate.isNone && (t.serving.isNone || t.serving == some x)
     | none => false)

/-! ### Spares (R2, R369) -/

/-- Spare cores of a quarter: two in each of its two spare clusters (R2). -/
abbrev spareCoresPer : Nat := 4

/-- Spare rows of a stone (R369). -/
abbrev spareRowsPer : Nat := 8

/-- Whether a spare core of the quarter of core `k` is left. -/
def Pkg.spareCore (p : Pkg) (k : Nat) : Bool := kgetD 0 (k / 64) p.spareCores < spareCoresPer

/-- A cluster retired (R369): its bit leaves every stream's CLMASK, the host is told, and every run that holds a part of it stops as a double
fault stops one. -/
def Mach.retireCluster (m : Mach) (cl : Nat) : Mach :=
  let clear := fun (t : Stream) => { t with cfg := setField t.cfg (20 + cl) 1 (0 : BitVec 1) }
  let holders := m.runs.filter (fun q => q.placed && q.recs.any (fun e => e.cluster == cl))
  holders.foldl (fun (acc : Mach) q => acc.stopRun q.id none)
    (((List.range 16).foldl (fun (acc : Mach) k => acc.modStream k clear) m).raiseIrq (m.pkg.vector 3))

/-- A part of core `k` with a lasting fault is repaired by a spare core of its quarter, or, where there is none, its core is retired and with
it its cluster (R369). A core that a run holds is substituted when none does, its spare kept for it until then. The spare takes the core's
place with all that it holds, so no program can tell the two apart (R2; log 60). A core that waits for its spare needs no second one. -/
def Mach.substitute (m : Mach) (k : Nat) : Mach :=
  if m.pkg.repairs.contains k then m
  else if m.pkg.spareCore k then m.modPkg (fun p => { p with
    spareCores := kmod 0 (k / 64) (fun n => n + 1) p.spareCores
    repairs := if m.coreHeld k then p.repairs ++ [k] else p.repairs })
  else (m.modCore k (fun c => { c with dead := true })).retireCluster (k / 8)

/-! ### Meanings -/

def execRunPlacement (r : Nat) (s : State) : Res := s.event (fun m => m.place r)
def execRunStart (r : Nat) (s : State) : Res := s.event (fun m => m.start r)
def execRunRetire (r : Nat) (s : State) : Res := s.event (fun m => m.retire r)
def execRetiredMapsEmpty (t : Nat) (s : State) : Res := s.event (fun m => m.emptyMaps t)
def execPreempt (x : Nat) (s : State) : Res := s.event (fun m => m.tryPreempt x)
def execContextResume (x : Nat) (s : State) : Res := s.event (fun m => m.resume x)
def execSpinWake (x : Nat) (s : State) : Res := s.event (fun m => m.spinWake x)
def execBarWaitWake (x : Nat) (s : State) : Res := s.event (fun m => m.barWake x)
def execWaitanyWake (x : Nat) (s : State) : Res := s.event (fun m => m.anyWake x)
def execWaitaWake (x : Nat) (s : State) : Res := s.event (fun m => m.lineWake x)
def execWaitWake (x : Nat) (s : State) : Res := s.event (fun m => m.flagWake x)
def execTbarRelease (r cl : Nat) (s : State) : Res := s.event (fun m => m.tbarRelease r cl)
def execBufferFullCheckpoint (r cl : Nat) (s : State) : Res := s.event (fun m => m.bufferFull r cl)
def execGeneratorBarrierRelease (r cl : Nat) (s : State) : Res := s.event (fun m => m.genRelease r cl)
def execFaultDelivery (r cl : Nat) (s : State) : Res := s.event (fun m => m.tryDeliver r cl)

end Sys2Proof.Machine
end

