-- ==== Sys2Proof/Machine/Ports.lean ====
section
/-! DEFINITION. Link ports (R286 to R291, R298, R368, R369): flits received and sent, replay, locking, attestation and retraining. What the
payload of a packet holds is not part of a flit's layout (R288; log 49): a packet that ends here appears as the event of its kind. -/

namespace Sys2Proof.Machine

/-- Fields of a flit header (R288). -/
def flitClass (f : Flit) : BitVec 3 := f.hdr.extractLsb' 61 3
def flitSop (f : Flit) : Bool := f.hdr.getLsbD 60
def flitEop (f : Flit) : Bool := f.hdr.getLsbD 59
def flitDest (f : Flit) : BitVec 12 := f.hdr.extractLsb' 47 12
def flitSrc (f : Flit) : BitVec 12 := f.hdr.extractLsb' 35 12
def flitSeq (f : Flit) : BitVec 16 := f.hdr.extractLsb' 0 16

/-- The header of a packet's flit (R288), CRED and SEQ still zero. -/
def flitHeader (cls : Nat) (sop eop : Bool) (dest src : BitVec 12) (used : Nat) : W64 :=
  BitVec.ofNat 3 cls ++ BitVec.ofBool sop ++ BitVec.ofBool eop ++ dest ++ src ++ BitVec.ofNat 8 (used - 1) ++ (0 : BitVec 27)

/-- One link error of a port (R290, R373). -/
def Pkg.linkError (p : Pkg) (k : Nat) : Pkg := p.bump (289 + k)

/-- The packet of a class that the port has begun to send, by its first flit and the port it came in by. -/
def Port.begun (p : Port) (cls : BitVec 3) : Option (BitVec 3 × Flit) := kget cls.toNat p.sending

/-! ### Encryption (R289, R7) -/

/-- The nonce of the flit with counter `ctr`: the epoch, then the counter (R289). -/
def Port.nonce (p : Port) (ctr : Nat) : BitVec 96 := p.epoch ++ BitVec.ofNat 64 ctr

/-- A nonce as the 12 bytes that GCM takes, the epoch first (R289; log 8). -/
def nonceBytes (nonce : BitVec 96) : List Byte := beBytes 12 nonce.toNat

/-- The key stream over the payload of a flit (R289). -/
def flitStream (key : BitVec 256) (nonce : BitVec 96) : BitVec 2048 := ofBytes 2048 (aesGcmStream (bytesOf 32 key) (nonceBytes nonce) 256)

/-- The tag of a flit: the first 64 bits of that of AES-256-GCM over the header and the encrypted payload (R289). -/
def flitTag (key : BitVec 256) (nonce : BitVec 96) (f : Flit) : BitVec 64 :=
  ofBytes 64 ((aesGcmTag (bytesOf 32 key) (nonceBytes nonce) (bytesOf 8 f.hdr) (bytesOf 256 f.payload)).take 8)

/-- A flit as it goes on the link (R289). A link that is not attested has no key: what it carries goes in clear (DESIGN CHOICE, log 99). -/
def Port.seal (p : Port) (ctr : Nat) (f : Flit) : Flit :=
  if p.attested then
    let g := { f with payload := f.payload ^^^ flitStream p.keyTx (p.nonce ctr) }
    { g with tag := flitTag p.keyTx (p.nonce ctr) g }
  else f

/-- The flit that the receiver expects next in clear, if its tag matches (R289, R290). -/
def Port.unseal (p : Port) (f : Flit) : Option Flit :=
  if p.attested then
    if f.tag = flitTag p.keyRx (p.nonce p.rx) f then some { f with payload := f.payload ^^^ flitStream p.keyRx (p.nonce p.rx), tag := 0 }
    else none
  else some f

/-! ### Packets and their notices (R290, R298) -/

/-- Whether a message is a flit in transit that waits for port `k`, or one that came in by it. -/
def waitsFor (k : Nat) : Sent → Option Flit
  | .transit _ j f => if j.toNat = k then some f else none
  | _ => none
def cameBy (k : Nat) (cls : Nat) : Sent → Option Flit
  | .transit i _ f => if i.toNat = k ∧ (flitClass f).toNat = cls then some f else none
  | _ => none

/-- An undeliverable notice for each packet, by its first flit (R298): what its payload names, else its class. -/
def Mach.notices (m : Mach) (firsts : List Flit) : Mach :=
  firsts.foldl (fun (acc : Mach) f => acc.post (flitSrc f) (.undeliverable (flitSrc f)
    ((Config.packetNotice (flitClass f) f.payload).getD (.packet (flitClass f))))) m

/-- The packets that a port has sent whole and whose last flit has a counter from `ctr` on (R290), each by its first flit among those kept. -/
def packetsFrom (ctr : Nat) (l : List KeptFlit) : List KeptFlit :=
  (l.foldl (fun (acc : KMap KeptFlit × List KeptFlit) e =>
    let cls := (flitClass e.flit).toNat
    let first := if flitSop e.flit then e else kgetD e cls acc.1
    if flitEop e.flit then (kdel cls acc.1, if ctr ≤ e.ctr then acc.2 ++ [first] else acc.2)
    else (kput cls first acc.1, acc.2)) ([], [])).2

/-- A notice to this package itself. -/
def Mach.tellSelf (m : Mach) (n : Notice) : Mach := { m with net := m.net ++ [.undeliverable m.pkg.chip n] }

/-- The source of a packet that was under way on a link is told (R290, R298). -/
def Mach.tellKept (m : Mach) (e : KeptFlit) : Mach :=
  match e.own with
  | some (some n) => m.tellSelf n
  | some none => m
  | none => m.notices [e.flit]

/-- The messages without the flits of a packet that `is` selects and whose last flit has not come: those behind the last EOP. -/
def dropCut (is : Sent → Option Flit) (l : List Sent) : List Sent :=
  (l.reverse.foldl (fun (acc : Bool × List Sent) x => match is x with
    | some f => if acc.1 && !flitEop f then acc else (false, x :: acc.2)
    | none => (acc.1, x :: acc.2)) (true, [])).2

/-- The port by which a message of this package leaves (R287), or the one whose link partner it is for. -/
def Pkg.portOf (p : Pkg) : Sent → Option Nat
  | .land c _ | .xred c _ | .causal c _ | .red c _ | .remote c _ | .reply c _ _ _ _ _ | .linkWord c _ | .linkReq c _
  | .linkReply c _ _ _ _ | .ack c _ _ _ | .notice c _ | .query c _ | .answer c _ _ | .expiry c _ _ _ _ | .undeliverable c _
  | .give c _ | .ask c _ | .limit c _ _ _ | .groupClock c _ _ _ _ => p.route c
  | .replayRequest k _ => some k.toNat
  | .transit _ _ _ | .attest _ _ | .report _ => none

/-- The package at the far side of port `k` (R286). -/
def Pkg.neighbour (p : Pkg) (k : Nat) : BitVec 12 :=
  let on := fun (n c : Nat) (a : Nat) => if k / 2 = a then (if k % 2 = 0 then c + 1 else c + n - 1) % n else c
  BitVec.ofNat 4 (on p.nx (chipX p.chip) 0) ++ BitVec.ofNat 4 (on p.ny (chipY p.chip) 1) ++ BitVec.ofNat 4 (on p.nz (chipZ p.chip) 2)

/-- The package that a message of this package is for. -/
def Pkg.destOf (p : Pkg) : Sent → BitVec 12
  | .land c _ | .xred c _ | .causal c _ | .red c _ | .remote c _ | .reply c _ _ _ _ _ | .linkWord c _ | .linkReq c _
  | .linkReply c _ _ _ _ | .ack c _ _ _ | .notice c _ | .query c _ | .answer c _ _ | .expiry c _ _ _ _ | .undeliverable c _
  | .give c _ | .ask c _ | .limit c _ _ _ | .groupClock c _ _ _ _ => c
  | .replayRequest k _ => p.neighbour k.toNat
  | .transit _ _ f => flitDest f
  | .attest _ _ | .report _ => p.chip

/-- The run that originated a message (R363). -/
def Mach.originOf (m : Mach) : Sent → Option Nat
  | .land _ p => ((m.core p.core.toNat).xfers.find? (fun f => f.tid == p.hdr.extractLsb' 4 12)).map (fun f => f.rid)
  | .xred _ p => ((m.core p.pkt.core.toNat).xfers.find? (fun f => f.tid == p.pkt.hdr.extractLsb' 4 12)).map (fun f => f.rid)
  | .causal _ p => some (m.ctx p.ctx).rid
  | .red _ p => (m.gops.find? (fun g => coreOf g.ctx == p.core.toNat && g.reqs.any (fun q => q.tag == p.tag && q.gen == p.gen))).map (fun g => g.rid)
  | .remote _ r => (m.gops.find? (fun g => coreOf g.ctx == r.core.toNat && g.reqs.any (fun q => q.tag == r.tag && q.gen == r.gen))).map (fun g => g.rid)
  | .linkWord _ w => ((m.core w.srcCore.toNat).link w.link.toNat).holder
  | .linkReq _ r => ((m.core r.core.toNat).link r.link.toNat).holder
  | _ => none

/-! ### Locking (R290) -/

/-- What is in flight, waiting or partial at port `k` is discarded, and the source of each packet is told once (R290). `ctr` is the counter
from which the far side has asked for replay, if that is why; else how many of the last flits sent are still in flight is free (log 104). -/
def Mach.clearPort (m : Mach) (k : Nat) (ctr : Option Nat) : Mach :=
  let p := m.pkg.port k
  let own := m.out.filter (fun x => m.pkg.portOf x == some k)
  let waiting := (m.net.filterMap (waitsFor k)).filter flitSop
  let cut := p.crossing.map (fun e => e.1)
  let firsts := p.partial_.map (fun e => e.2) ++ p.crossing.map (fun e => e.2) ++ p.sending.map (fun e => e.2.2) ++ waiting
  let forget := fun (q : Port) => { q with sending := q.sending.filter (fun (e : Nat × BitVec 3 × Flit) => !(e.2.1.toNat == k && cut.contains e.1)) }
  let m1 : Mach := { m with
    tick := m.tick + 1
    net := cut.foldl (fun acc cls => dropCut (cameBy k cls) acc) (m.net.filter (fun x => (waitsFor k x).isNone))
    out := m.out.filter (fun x => m.pkg.portOf x != some k)
    pkg := { m.pkg with ports := m.pkg.ports.map (fun (e : Nat × Port) => (e.1, forget e.2)) }.modPort k (fun q =>
      { q with retry := none, asked := none, kept := [], partial_ := [], crossing := [], sending := [] }) }
  let m2 := (packetsFrom (ctr.getD (p.tx - Config.inFlight k m.tick)) p.kept).foldl Mach.tellKept (m1.notices firsts)
  (own.filterMap noticeOf).foldl Mach.tellSelf m2

/-- A port locks in both directions (R290). -/
def Mach.lockPort (m : Mach) (k : Nat) (ctr : Option Nat) : Mach :=
  (m.modPkg (fun p => p.modPort k (fun q => { q with locked := true, attested := false }))).clearPort k ctr

/-- Whether anything is in flight, waiting or partial at port `k`. -/
def Mach.portBusy (m : Mach) (k : Nat) : Bool :=
  let p := m.pkg.port k
  m.out.any (fun x => m.pkg.portOf x == some k) || m.net.any (fun x => (waitsFor k x).isSome) || !p.kept.isEmpty || !p.partial_.isEmpty ||
    !p.crossing.isEmpty || !p.sending.isEmpty

/-- Port `k` sees whether the router at its far side is in reset (R298, R306): that one forwards nothing, so what is under way to it or waits
for it is reported undeliverable. When a far side is in reset is free (log 104). -/
def Mach.watchPort (m : Mach) (k : Nat) : Mach :=
  let now := Config.farReset k m.tick
  (if m.portBusy k && !(m.pkg.port k).away && now then m.clearPort k none else m).modPkg (fun p => p.modPort k (fun q => { q with away := now }))

/-! ### Receiving (R288 to R290, R298) -/

/-- Whether no route of R287 brings to port `k` a packet that leaves by port `j`: it would go back out of the port it came by, or turn
to a dimension that is already corrected. -/
def wrongTurn (k j : Nat) : Bool := j == k || decide (j / 2 < k / 2)

/-- A flit in clear, accepted in order by port `k` (R288, R298): a bad header is discarded and counted; of a packet that cannot be delivered
the source is told; a flit of a packet for another package goes on; a packet for this one is gathered up to its last flit. -/
def Mach.takeFlit (m : Mach) (k : Nat) (f : Flit) : Mach :=
  let cls := (flitClass f).toNat
  let out := m.pkg.route (flitDest f)
  let told := fun (m : Mach) => if flitSop f then m.notices [f] else m
  let mark := fun (l : KMap Flit) => if flitEop f then kdel cls l else if flitSop f then kput cls f l else l
  if 6 ≤ cls then m.modPkg (fun p => p.linkError k)
  else if !m.pkg.names (flitDest f) then told (m.modPkg (fun p => p.linkError k))
  else if out.any (wrongTurn k) then told (m.modPkg (fun p => p.linkError k))
  else
    match out with
    | some j =>
      if !m.pkg.reaches cls (flitDest f) then told (m.modPkg (fun p => p.modPort k (fun q => { q with crossing := kdel cls q.crossing })))
      else if !flitSop f && (kget cls (m.pkg.port k).crossing).isNone then m
      else { m with net := m.net ++ [Sent.transit (BitVec.ofNat 3 k) (BitVec.ofNat 3 j) f] }.modPkg (fun p =>
        p.modPort k (fun q => { q with crossing := mark q.crossing }))
    | none => m.modPkg (fun p => p.modPort k (fun q => { q with partial_ := mark q.partial_ }))

/-- FLIT_RECEIVE (R288 to R290, R368). A flit that does not match is discarded with every later one until the replay, which begins at its
counter. A link that is not attested carries the control class only. A flit that comes by a locked port is discarded and its source told
(R290). DESIGN CHOICE (log 110): the receiver asks for one replay and tells the far side of a second failure by nothing more. -/
def Mach.receive (m : Mach) (k : Nat) (f : Flit) : Option Mach :=
  let p := m.pkg.port k
  if 6 ≤ k || p.away then none
  else if p.locked then some (if flitSop f then m.notices [f] else m)
  else if p.retry.isSome && flitSeq f != BitVec.ofNat 16 p.rx then some m
  else
    match p.unseal f with
    | some g =>
      let m1 := m.modPkg (fun q => q.modPort k (fun r => { r with rx := r.rx + 1, retry := none }))
      some (if p.attested || flitClass g == 5 then m1.takeFlit k g else if flitSop g then m1.notices [g] else m1)
    | none =>
      if p.retry.isSome then some ((m.modPkg (fun q => q.linkError k)).lockPort k none)
      else
        let m1 := m.modPkg (fun q => (q.modPort k (fun r => { r with retry := some r.rx })).linkError k)
        some { m1 with out := m1.out ++ [.replayRequest (BitVec.ofNat 3 k) p.rx] }

/-! ### Sending (R287 to R291, R363) -/

/-- LINK_REPLAY_REQUEST (R290): the flits kept from that counter on are sent again; a second failure of one flit locks the port. DESIGN CHOICE
(log 110): the sender learns of a second failure by a second request for the same counter. -/
def Mach.replay (m : Mach) (k : Nat) (ctr : Nat) : Option Mach :=
  let p := m.pkg.port k
  if 6 ≤ k || p.locked then none
  else if p.asked = some ctr then some (m.lockPort k (some ctr))
  else
    let again := (p.kept.filter (fun e => decide (ctr ≤ e.ctr))).map (fun e => (BitVec.ofNat 3 k, p.seal e.ctr e.flit))
    let m1 := m.modPkg (fun q => q.modPort k (fun r => { r with asked := some ctr }))
    some { m1 with wire := m1.wire ++ again }

/-- A flit in clear sent by port `k` (R288, R289): it takes the next counter; the last 512 are kept. `own` is as a kept flit has it. -/
def Mach.sendFlit (m : Mach) (k : Nat) (own : Option (Option Notice)) (f : Flit) : Mach :=
  let p := m.pkg.port k
  let g := { f with hdr := setField (setField f.hdr 16 11 (Config.credits k p.tx)) 0 16 (BitVec.ofNat 16 p.tx) }
  { m with
    wire := m.wire ++ [(BitVec.ofNat 3 k, p.seal p.tx g)]
    pkg := { m.pkg with flits := m.pkg.flits + 1 }.modPort k (fun r =>
      { r with tx := r.tx + 1, kept := (r.kept ++ [({ ctr := p.tx, flit := g, own := own } : KeptFlit)]).drop (r.kept.length - 511) }) }

/-- The flits of a packet with the bytes `bs` (R288). -/
def packetFlits (cls : Nat) (dest src : BitVec 12) (bs : List Byte) : List Flit :=
  let n := max 1 ((bs.length + 255) / 256)
  (List.range n).map (fun i =>
    let part := (bs.drop (256 * i)).take 256
    { hdr := flitHeader cls (i == 0) (i + 1 == n) dest src part.length, payload := ofBytes 2048 part, tag := 0 })

/-- Whether port `k` may send a flit of a class now (R298, R368, R369): it is open to a router that is not in reset, does not retrain, and is
attested but for control. -/
def Port.sends (p : Port) (cls : Nat) : Bool := !p.locked && !p.away && !p.training && (p.attested || cls == 5)

/-- Whether a flit in transit that came by port `i` may leave by a port now: flits of a class are consecutive by packet (R288). -/
def Port.next (p : Port) (i : BitVec 3) (f : Flit) : Bool :=
  p.sends (flitClass f).toNat && (match p.begun (flitClass f) with
    | some (j, _) => i == j && !flitSop f
    | none => flitSop f)

/-- The first flit in transit that port `k` may send (R287). -/
def Mach.sendTransit (m : Mach) (k : Nat) : Option Mach :=
  let p := m.pkg.port k
  let fits := fun (x : Sent) => match x with
    | .transit i j f => j.toNat == k && p.next i f
    | _ => false
  match takeFirst fits m.net with
  | some (.transit i _ f, rest) =>
    let cls := (flitClass f).toNat
    let mark := fun (l : KMap (BitVec 3 × Flit)) => if flitEop f then kdel cls l else if flitSop f then kput cls (i, f) l else l
    let m1 : Mach := { m with net := rest, pkg := m.pkg.modPort k (fun r => { r with sending := mark r.sending }) }
    some (m1.sendFlit k none f)
  | _ => none

/-- The first of this package's own messages that port `k` may send, as flits (R288); its run has originated them (R363). -/
def Mach.sendOwn (m : Mach) (k : Nat) : Option Mach :=
  let p := m.pkg.port k
  match takeFirst (fun x => m.pkg.portOf x == some k && p.sends (classOf x) && (kget (classOf x) p.sending).isNone) m.out with
  | some (x, rest) =>
    let fs := packetFlits (classOf x) (m.pkg.destOf x) m.pkg.chip (Config.packetBytes x)
    let m1 := match m.originOf x with
      | some r => m.modRun r (fun q => { q with flits := q.flits + fs.length })
      | none => m
    some (fs.foldl (fun (acc : Mach) f => acc.sendFlit k (some (noticeOf x)) f) { m1 with out := rest })
  | none => none

/-- PACKET_FORWARD (R287, R291): port `k` sends a flit in transit, or a packet of this package. -/
def Mach.forward (m : Mach) (k : Nat) (own : Bool) : Option Mach := if 6 ≤ k then none else if own then m.sendOwn k else m.sendTransit k

/-! ### Attestation (R7, R289, R290, R358, R368) -/

/-- Whether the Ed25519 and the ML-DSA-65 signature of a message both verify (R7, R367, R368). -/
def signedBy (ed : BitVec 256) (ml : List Byte) (msg : List Byte) (s : Signatures) : Bool :=
  mlDsa65Verify ml msg s.ml && ed25519Verify (bytesOf 32 ed) msg (bytesOf 64 s.ed)

/-- A report is accepted when both signatures verify under its sender's identity keys (R368). -/
def reportOk (r : AttReport) : Bool :=
  signedBy (Config.identityEd25519 r.chip) (Config.identityMlDsa65 r.chip) (Config.reportMessage r.chip r.life r.digest) r.sigs

/-- The share of ML-KEM-768 that this package sends in the agreement made at tick `n`, and the secret, for the far side's share (R7): a far
encapsulation key is answered with a ciphertext; else the far share is a ciphertext for this package's key. The spec does not say which end
encapsulates (log 8). -/
def kemAgree (n : Nat) (share : List Byte) : Option (List Byte × List Byte) :=
  if mlKem768KeyOk share then
    let r := mlKem768Encaps share (bytesOf 32 (Config.kemMessage n))
    some (r.2, r.1)
  else if share.length = 1088 then
    let d := bytesOf 32 (Config.kemSeedD n)
    some (mlKem768Public d, mlKem768Decaps d (bytesOf 32 (Config.kemSeedZ n)) share)
  else none

/-- The input keying material of HKDF (R7): the secret of X25519, then that of ML-KEM-768. -/
def linkSecret (n : Nat) (share : BitVec 256) (kem : List Byte) : List Byte := x25519 (bytesOf 32 (Config.x25519Scalar n)) (bytesOf 32 share) ++ kem

/-- The AES key of a link direction (R7, R368). -/
def linkKey (secret : List Byte) (up : Bool) : BitVec 256 := ofBytes 256 (hkdfSha384 Config.hkdfSalt secret (Config.hkdfInfo up) 32)

/-- This package's report (R368), signed at tick `n` with the identity key pairs created at tick `id`, with its shares of the key agreement. -/
def Pkg.attReport (p : Pkg) (id n : Nat) (kemShare : List Byte) : AttReport :=
  let d := Config.digest p.flash.image
  let msg := Config.reportMessage p.chip p.life d
  { chip := p.chip, life := p.life, digest := d
    sigs := {
      ed := ofBytes 512 (ed25519Sign (bytesOf 32 (Config.edSeed id)) msg)
      ml := mlDsa65Sign (bytesOf 32 (Config.dsaSeed id)) msg (bytesOf 32 (Config.dsaRandom n)) }
    x25519 := ofBytes 256 (x25519 (bytesOf 32 (Config.x25519Scalar n)) x25519Base), mlKem := kemShare }

/-- LINK_ATTESTATION (R7, R289, R290, R358, R368): system software orders it, and the report `r` of the far side has come. An accepted one
opens the port under a new epoch and keys, and fabric time counts. DESIGN CHOICE (log 109): a report that does not verify, a share that
ML-KEM-768 does not take, or an order to a package that has no identity keys leaves the port as it is. -/
def Mach.attest (m : Mach) (k : Nat) (r : AttReport) : Option Mach :=
  if 6 ≤ k then none
  else match m.pkg.identity, reportOk r, kemAgree m.tick r.mlKem with
  | some id, true, some (share, kem) =>
    let secret := linkSecret m.tick r.x25519 kem
    some { m with
      tick := m.tick + 1
      out := m.out ++ [Sent.attest (BitVec.ofNat 3 k) (m.pkg.attReport id m.tick share)]
      pkg := { m.pkg with counting := true }.modPort k (fun p =>
        { p with
          locked := false, attested := true, epoch := p.epoch + 1, rx := 0, tx := 0, retry := none, asked := none, kept := []
          keyTx := linkKey secret (decide (m.pkg.chip.toNat < r.chip.toNat))
          keyRx := linkKey secret (decide (r.chip.toNat < m.pkg.chip.toNat)) }) }
  | _, _, _ => some m

/-- LINK_RETRAIN_DONE (R369). -/
def Mach.retrained (m : Mach) (k : Nat) : Option Mach :=
  if (m.pkg.port k).training then some (m.modPkg (fun q => q.modPort k (fun r => { r with training := false }))) else none

def execFlitReceive (k : BitVec 3) (f : Flit) (s : State) : Res := s.event (fun m => m.receive k.toNat f)
def execLinkReplayRequest (k : BitVec 3) (c : Nat) (s : State) : Res := s.event (fun m => m.replay k.toNat c)
/-- `p` is the port, and whether it sends a packet of this package or a flit in transit (R287). -/
def execPacketForward (p : BitVec 3 × Bool) (s : State) : Res := s.event (fun m => m.forward p.1.toNat p.2)
def execLinkAttestation (k : BitVec 3) (r : AttReport) (s : State) : Res := s.event (fun m => m.attest k.toNat r)
def execLinkRetrainDone (k : BitVec 3) (s : State) : Res := s.event (fun m => m.retrained k.toNat)

end Sys2Proof.Machine
end

