-- ==== Sys2Proof/Machine/Landing.lean ====
section
/-! DEFINITION. The Tailrace (R258 to R270): matching, landing and barrier counts, end markers and acknowledgements, map operations,
the stray buffer; and the transfers of the Headrace as they complete (R266, R278, R279). -/

namespace Sys2Proof.Machine

/-! ### The stray buffer (R269) -/

/-- A stray buffer entry of 288 bytes. -/
def strayEntry (kind : Nat) (src chip slot opk : Nat) (hdr : BitVec 128) (data : List Byte) : List Byte :=
  let b := natLE 2 kind ++ natLE 2 src ++ natLE 2 chip ++ natLE 1 slot ++ natLE 1 opk ++ zeroBytes 8 ++ vecLE 16 hdr ++ data
  b ++ zeroBytes (288 - b.length)

/-- SRC of a packet's entry. -/
def landSrc (p : LandPkt) : Nat := p.core.toNat / 8 * 256 + p.core.toNat % 8 * 32 + p.tenant.toNat

/-- A packet's entry. -/
def landEntry (p : LandPkt) (kind : Nat) : List Byte := strayEntry kind (landSrc p) p.src.toNat 0 0 p.hdr p.payload

/-- Whether a tenant holds a placed run on the package. -/
def Mach.tenantPlaced (m : Mach) (ten : BitVec 4) : Bool := m.runs.any (fun r => r.placed && r.tenant == ten.toNat)

/-- A foreign packet counted at Tailrace `t` (R264, R373). -/
def Mach.foreign (m : Mach) (t : Nat) : Mach := m.modPkg (fun p => p.bump t)

/-- An event recorded in a stray buffer; in a full one it frees the oldest entry of a tenant that holds no placed run, and where
there is none it finds no room (R269). -/
def Mach.pushStray (m : Mach) (t : Nat) (e : Stray) : Option Mach :=
  let l := (m.tail t).strays
  let put := fun (m : Mach) (l : List Stray) => m.modTail t (fun q => { q with strays := l ++ [e] })
  if l.length < Config.strayPlaces then some (put m l)
  else
    match takeFirst (fun x => !m.tenantPlaced x.tenant) l with
    | some (_, rest) => some (put (m.foreign t) rest)
    | none => none

/-- The oldest entry of a tenant taken (R282). -/
def Tail.takeStray (t : Tail) (ten : BitVec 4) : Option (Stray × Tail) :=
  (takeFirst (fun x => x.tenant == ten) t.strays).map (fun p => (p.1, { t with strays := p.2 }))

/-! ### Map images (R261, R262) -/

/-- Fields of an image. -/
def imgStream (b : List Byte) : BitVec 16 := BitVec.ofNat 16 (fieldAt b 0 2)
def imgFmt (b : List Byte) : Nat := byteAt b 2 / 16
def imgDim (b : List Byte) : Nat := byteAt b 2 / 4 % 4 + 1
def imgForm (b : List Byte) : Nat := byteAt b 3 / 32
def imgArv (b : List Byte) : Bool := (byteAt b 3).testBit 4
def imgBarv (b : List Byte) : Bool := (byteAt b 3).testBit 3
def imgStg (b : List Byte) : Bool := (byteAt b 3).testBit 2
def imgBase (b : List Byte) : Nat := fieldAt b 8 4
def imgBar (b : List Byte) : Nat := fieldAt b 12 4
def imgBlk (b : List Byte) (d : Nat) : Nat := bits (fieldAt b (16 + 8 * d) 8) 59 40
def imgHi (b : List Byte) (d : Nat) : Nat := bits (fieldAt b (16 + 8 * d) 8) 39 20
def imgLo (b : List Byte) (d : Nat) : Nat := bits (fieldAt b (16 + 8 * d) 8) 19 0
def imgS (b : List Byte) (d : Nat) : Int := signed 32 (fieldAt b (48 + 4 * d) 4)
def imgT (b : List Byte) (d : Nat) : Int := signed 32 (fieldAt b (64 + 4 * d) 4)
def imgGlen (b : List Byte) : Nat := fieldAt b 80 4
def imgGbase (b : List Byte) : Nat := fieldAt b 84 4

/-- Whether an image is valid for a window of `win` bytes (R262). DESIGN CHOICE (log 108): a BASE equal to the size of the window lies beyond
it; R262 does not say. -/
def imageOk (b : List Byte) (win : Nat) : Bool :=
  let form := imgForm b
  byteAt b 2 % 4 == 0 && byteAt b 3 % 4 == 0 && zeroAt b 4 4 && zeroAt b 88 8 && imgFmt b < 13 && form < 5 &&
    (imgBarv b || imgBar b == 0) && (!imgBarv b || (imgBar b % 16 == 0 && imgBar b + 16 ≤ win)) && imgBase b < win &&
    (form == 4 || (imgGlen b == 0 && imgGbase b == 0)) &&
    (form != 4 || (imgGbase b % 4 == 0 && imgGbase b + 4 * imgGlen b ≤ win)) && !(form == 3 && imgDim b == 1) &&
    !(imgFmt b == 0xC && imgBase b % 256 != 0) &&
    (List.range 4).all (fun d =>
      if imgDim b ≤ d then zeroAt b (16 + 8 * d) 8 && imgS b d == 0 && imgT b d == 0
      else bits (fieldAt b (16 + 8 * d) 8) 63 60 == 0 && imgLo b d ≤ imgHi b d &&
        (if form = 2 then 1 ≤ imgBlk b d else imgBlk b d == 0 && imgT b d == 0))

/-! ### Matching (R263) -/

/-- STREAM, FMT, DIM and tenant agree. -/
def MapSlot.kind (s : MapSlot) (p : LandPkt) : Bool :=
  imgStream s.image == hdrStream p.hdr && imgFmt s.image == hdrFmt p.hdr && imgDim s.image == hdrDim p.hdr && s.tenant == p.tenant

/-- The identity of a packet's transfer (R258). -/
def landXfer (p : LandPkt) : XferId := (p.src, p.core, hdrTid p.hdr)

/-- Whether a slot may take packets of a transfer (R260). -/
def MapSlot.takes (s : MapSlot) (x : XferId) : Bool :=
  match s.state with
  | .staged => false
  | .live | .retiring => true
  | .closing => s.open_.contains x

/-- Every element of the run lies in the box. -/
def MapSlot.holds (s : MapSlot) (p : LandPkt) : Bool :=
  (List.range (hdrDim p.hdr)).all (fun d =>
    let c := hdrCoord p.hdr d
    imgLo s.image d ≤ c && (if d = 0 then c + hdrCnt p.hdr - 1 else c) ≤ imgHi s.image d)

/-- The first slot that satisfies `f`: LIVE slots first, then RETIRING and CLOSING ones (R263). -/
def Tail.pick (t : Tail) (f : MapSlot → Bool) : Option (Nat × MapSlot) :=
  match t.slots.find? (fun p => p.2.state == .live && f p.2) with
  | some p => some p
  | none => t.slots.find? (fun p => (p.2.state == .retiring || p.2.state == .closing) && f p.2)

/-- The map that takes a data packet (R263); `merged` says that the packet belongs to no transfer (R301). -/
def Tail.matching (t : Tail) (p : LandPkt) (merged : Bool) : Option (Nat × MapSlot) :=
  t.pick (fun s => (if merged then s.state != .closing else s.takes (landXfer p)) && s.kind p && s.holds p)

/-! ### Landing (R265) -/

/-- The position of an element at offsets `u` (R265), FORM 4 aside. -/
def formPos (b : List Byte) (u : List Nat) : Int :=
  let x := fun (d : Nat) => (u.getD d 0 : Int)
  let sum := fun (f : Nat → Int) => f 0 + f 1 + f 2 + f 3
  match imgForm b with
  | 1 => x 0 * imgS b 1 + x 1 * imgS b 0 + x 2 * imgS b 2 + x 3 * imgS b 3
  | 2 => sum (fun d => x d / (imgBlk b d : Int) * imgS b d + x d % (imgBlk b d : Int) * imgT b d)
  | 3 => (tilePos (u.getD 1 0 % 32) (u.getD 0 0 % 32) : Int) + x 0 / 32 * imgS b 0 + x 1 / 32 * imgS b 1 + x 2 * imgS b 2 + x 3 * imgS b 3
  | _ => sum (fun d => x d * imgS b d)

/-- What becomes of an element: its position, nothing (discarded), or a fault. -/
inductive Place where
  | at_ (p : Int)
  | skip
  | fault
  deriving DecidableEq, Repr

/-- The place of an element (R265): FORM 4 looks its position up. -/
def MapSlot.place (s : MapSlot) (m : Memory) (u : List Nat) : Place :=
  let q := formPos s.image u
  let at_ := fun (p : Int) =>
    if (elemBits (imgFmt s.image) (imgBase s.image) p).all (fun e => decide (0 ≤ e.1) && decide (e.1 < s.bytes)) then Place.at_ p
    else Place.fault
  if imgForm s.image = 4 then
    if 0 ≤ q ∧ q < imgGlen s.image then
      let e := readLE m (s.base + imgGbase s.image + 4 * q.toNat) 4
      if e = 0xFFFFFFFF then .skip else at_ (signed 32 e)
    else .fault
  else at_ q

/-- Who logs the writes of a landing (R38): the team whose own transfer it is, if the map is its run's in its own cluster: run,
cluster and the core that sends. A handler's transfer is not logged (R313). -/
def Mach.landingLog (m : Mach) (t : Nat) (s : MapSlot) (p : LandPkt) : Option (Nat × Nat × Nat) :=
  if p.src ≠ m.pkg.chip then none
  else
    match (m.core p.core.toNat).xfers.find? (fun f => f.tid == hdrTid p.hdr && !f.done) with
    | none => none
    | some f =>
      let cl := if t < 256 then t / 8 else t - 256
      let byH := (m.ctx f.ctx).xq.any (fun o => o.id == f.op && (m.ctx f.ctx).byHandler o.no)
      if f.rid == s.rid && clusterOf f.ctx == cl && !byH then some (f.rid, cl, p.core.toNat) else none

/-- Bytes written by a landing. -/
def Mach.landStore (m : Mach) (log : Option (Nat × Nat × Nat)) (loc : Nat) (bs : List Byte) : Mach :=
  match log with
  | some (rid, cl, core) => m.logStore rid cl core loc bs
  | none => m.keptStore loc bs

/-- One element landed: the machine, and whether it is a landing fault. -/
def MapSlot.landElem (s : MapSlot) (log : Option (Nat × Nat × Nat)) (m : Mach) (u : List Nat) (v : Nat) : Mach × Bool :=
  match s.place m.mem u with
  | .skip => (m, false)
  | .fault => (m, true)
  | .at_ q =>
    ((elemWrites m.mem (imgFmt s.image) ((s.base + imgBase s.image : Nat) : Int) q v).foldl
      (fun (acc : Mach) w => acc.landStore log w.1 [w.2]) m, false)

/-- The barrier of a map (R266): its location. -/
def MapSlot.barrier (s : MapSlot) : Option Nat := if imgBarv s.image then some (s.base + imgBar s.image) else none

/-- A change of a map's barrier (R182). -/
def Mach.signal_ (m : Mach) (log : Option (Nat × Nat × Nat)) (loc : Nat) (f : BitVec 128 → BitVec 128) : Mach :=
  m.landStore log loc (vecLE 16 (f (m.barrier loc)))

/-- The offsets of element `j` of a run in a map's box (R265). -/
def MapSlot.offsets (s : MapSlot) (p : LandPkt) (j : Nat) : List Nat :=
  (List.range 4).map (fun d => hdrCoord p.hdr d - imgLo s.image d + (if d = 0 then j else 0))

/-- A run that has landed whole counts on its map's barrier (R265, R247); `bad` says that one of its elements was a landing fault. -/
def Mach.landCount (m : Mach) (log : Option (Nat × Nat × Nat)) (s : MapSlot) (p : LandPkt) (bad : Bool) : Mach :=
  match s.barrier with
  | none => m
  | some loc =>
    let sect := sectorsOf (runBytes (hdrFmt p.hdr) (hdrCnt p.hdr))
    m.signal_ log loc (fun b =>
      let c := barUpdate b 0 (BitVec.ofInt 32 (-(sect : Int)))
      if bad then barFault c 0x20 else c)

/-- A transfer's packet accounted for at a Tailrace (R266). -/
def Tail.account (t : Tail) (x : XferId) (stray : Bool) (slot : Option Nat) : Tail :=
  let a := (t.acct.find? (fun a => a.xfer == x)).getD { xfer := x, count := 0, strays := 0, slot := none }
  let b := { a with count := a.count + 1, strays := a.strays + b2n stray, slot := match slot with
    | some k => some k
    | none => a.slot }
  { t with acct := t.acct.filter (fun a => a.xfer != x) ++ [b] }

/-- The transfer opens at the map that takes its packet (R260). -/
def Tail.openAt (t : Tail) (k : Nat) (x : XferId) : Tail :=
  { t with slots := t.slots.map (fun p => if p.1 = k && !p.2.open_.contains x then (k, { p.2 with open_ := p.2.open_ ++ [x] }) else p) }

/-- What a merged run stands for: the packets of its contributions, and the reduction record that follows it, if any (R301, R303). -/
abbrev Merged := List LandPkt × Option (List Byte)

/-- A packet has landed, strayed or been discarded: its transfer's account grows (R266), for a merged run that of each contribution, and its
record is written (R303); none where the record finds no room. -/
def Mach.landed (m : Mach) (p : LandPkt) (merged : Option Merged) (stray : Bool) (slot : Option Nat) : Option Mach :=
  match merged with
  | none => some (m.modTail p.tail (fun q => q.account (landXfer p) stray slot))
  | some (ps, record) =>
    let m1 := ps.foldl (fun (acc : Mach) c => acc.modTail c.tail (fun q => q.account (landXfer c) false none)) m
    match record with
    | none => some m1
    | some bs => m1.pushStray p.tail { tenant := p.tenant, bytes := bs }

/-- A data packet, or a merged run, taken by a Tailrace (R263, R264): the map that matches begins to land it; none where a stray finds no
room. -/
def Mach.land (m : Mach) (p : LandPkt) (merged : Option Merged) : Option Mach :=
  let t := p.tail
  match (m.tail t).matching p merged.isSome with
  | some (k, _) =>
    let m1 := if merged.isSome then m else m.modTail t (fun q => q.openAt k (landXfer p))
    some (m1.modTail t (fun q => { q with landing := some { pkt := p, slot := k, left := List.range (hdrCnt p.hdr), bad := false, merged := merged } }))
  | none =>
    if (m.tail t).slots.isEmpty || (m.tail t).slots.any (fun q => q.2.tenant == p.tenant) then
      (m.pushStray t { tenant := p.tenant, bytes := landEntry p 1 }).bind (fun q => q.landed p merged true none)
    else (m.foreign t).landed p merged false none

/-- The element of a packet that lands next: any of those that have not landed (R257, R270; DESIGN CHOICE, log 103). -/
def Landing.pick (l : Landing) (tick : Nat) : Option Nat :=
  match l.left with
  | [] => none
  | [j] => some j
  | j :: rest => some ((j :: rest).getD (Config.landNext tick % (rest.length + 1)) j)

/-- The packet that Tailrace `t` is landing goes on (R234, R265): an element lands, or, after the last, it counts on its barrier and in
its account. A record that finds no room stops the Tailrace (R269). -/
def Mach.landStep (m : Mach) (t : Nat) (l : Landing) : Option Mach :=
  match kget l.slot (m.tail t).slots with
  | none => some (m.modTail t (fun q => { q with landing := none }))
  | some s =>
    let log := if l.merged.isSome then none else m.landingLog t s l.pkt
    match l.pick m.tick with
    | some j =>
      let (m1, f) := s.landElem log m (s.offsets l.pkt j) (payloadElem (hdrFmt l.pkt.hdr) l.pkt.payload j)
      some { m1.modTail t (fun q => { q with landing := some { l with left := l.left.erase j, bad := l.bad || f } }) with tick := m.tick + 1 }
    | none =>
      match ((m.landCount log s l.pkt l.bad).modTail t (fun q => { q with landing := none, stop := false })).landed l.pkt l.merged false
          (some l.slot) with
      | some m1 => some m1
      | none => if (m.tail t).stop then none else some (m.modTail t (fun q => { q with stop := true }))

/-- An arrival at Tailrace `t` (R263, R268, R269): maps of retired runs are empty by then; one that finds no room in the stray
buffer stops the Tailrace and waits. -/
def Mach.arrival (m : Mach) (t : Nat) (src : BitVec 12) (x : Sent) (f : Mach → Option Mach) : Option Mach :=
  m.arrive src x (fun m1 =>
    match f (m1.modTail t (fun q => { q with slots := m1.liveMaps t })) with
    | some m3 => some (m3.modTail t (fun q => { q with stop := false }))
    | none =>
      if (m.tail t).stop then none
      else some { (m1.modTail t (fun q => { q with stop := true })) with net := x :: m1.net })

/-- Whether a Tailrace takes arrivals and operations (R263, R269): it is landing no packet, and one that is stopped waits for room. -/
def Mach.taking (m : Mach) (t : Nat) : Bool :=
  t < 288 && (m.tail t).landing.isNone && (!(m.tail t).stop || (m.tail t).strays.length < Config.strayPlaces ||
    (m.tail t).strays.any (fun x => !m.tenantPlaced x.tenant))

/-- DATA_PACKET_ARRIVE (R263, R265): a packet is taken, or the one that its Tailrace is landing goes on by one element. -/
def Mach.dataPacket (m : Mach) (p : LandPkt) : Option Mach :=
  match (m.tail p.tail).landing with
  | some l => if l.pkt = p then m.landStep p.tail l else none
  | none =>
    if hdrEnd p.hdr || !m.taking p.tail then none
    else m.arrival p.tail p.src (.land m.pkg.chip p) (fun q => q.land p none)

/-- END_MARKER_ARRIVE (R266): it waits for its packets. -/
def Mach.endMarker (m : Mach) (p : LandPkt) : Option Mach :=
  if !hdrEnd p.hdr || !m.taking p.tail then none
  else m.arrival p.tail p.src (.land m.pkg.chip p) (fun q => some (q.modTail p.tail (fun t => { t with ends := t.ends ++ [p] })))

/-! ### X operations as they complete (R266, R271, R278, R279) -/

/-- A queued X operation completes: it leaves its queue and its token reads complete. -/
def Mach.xDone (m : Mach) (x id : Nat) : Mach :=
  (m.modCtx x (fun c => { c with xq := c.xq.filter (fun o => o.id != id) })).finish id

/-- A pending transfer fault is set; only the first is kept (R278). -/
def Ctx.transferFault (c : Ctx) (code : BitVec 8) (v : W64) : Ctx :=
  if c.pend.ptf then c else { c with pend := { c.pend with ptf := true, ptfC := code, ptfV := v } }

/-- Whether an X operation is a multicast (R279). -/
def isMulticast : Instr → Bool
  | .xmcast _ _ _ | .xmcastLk _ _ _ => true
  | _ => false

/-- The operation `op` of context `x` completes once each of its transfers has (R266): a multicast that a member did not accept, or a
single transfer reported undeliverable, sets the pending transfer fault (R278, R279). -/
def Mach.closeXfers (m : Mach) (x op : Nat) : Mach :=
  let k := coreOf x
  let mine := (m.core k).xfers.filter (fun f => f.op == op)
  if mine.isEmpty || mine.any (fun f => !f.done) then m
  else
    let multi := (m.ctx x).xq.any (fun o => o.id == op && isMulticast o.ins)
    let bad := mine.any (fun f => !f.ok)
    let mask : W64 := mine.foldl (fun acc f => if f.ok then acc ||| (1 <<< f.member) else acc) 0
    let m1 := m.modCore k (fun c => { c with xfers := c.xfers.filter (fun f => f.op != op) })
    let m2 := if !bad then m1
      else m1.modCtx x (fun c => if multi then c.transferFault 0x21 mask else c.transferFault 0x22 ((mine.head?.map (fun f => f.dest)).getD 0))
    m2.xDone x op

/-- A transfer ends: acknowledged with some strays, or undeliverable. A single transfer with strays has still completed well. -/
def Mach.endXfer (m : Mach) (core : Nat) (tid : BitVec 12) (ok : Xfer → Bool) : Option Mach :=
  match (m.core core).xfers.find? (fun f => f.tid == tid && !f.done) with
  | none => none
  | some f =>
    let end_ := fun (g : Xfer) => if g.tid == tid && !g.done then { g with done := true, ok := ok g } else g
    let m1 := m.modCore core (fun c => { c with xfers := c.xfers.map end_ })
    some (m1.closeXfers f.ctx f.op)

/-- TRANSFER_ACK (R266): from a Tailrace of this package, or from another. -/
def Mach.transferAck (m : Mach) (core : Nat) (tid : BitVec 12) (strays : Nat) : Option Mach :=
  match (m.core core).xfers.find? (fun f => f.tid == tid && !f.done) with
  | none => none
  | some f =>
    m.arrive (destChip f.dest) (.ack m.pkg.chip (BitVec.ofNat 8 core) tid strays) (fun m1 =>
      let multi := (m.ctx f.ctx).xq.any (fun o => o.id == f.op && isMulticast o.ins)
      m1.endXfer core tid (fun _ => !multi || strays == 0))

/-! ### End markers (R266) -/

/-- A slot after a transfer has closed at it; a CLOSING slot whose pending count is zero becomes EMPTY, and the `retiremap` that
waited for it completes (R267). -/
def Mach.settleSlots (m : Mach) (t : Nat) : Mach :=
  let gone := (m.tail t).slots.filter (fun p => p.2.state == .closing && p.2.open_.isEmpty)
  let m1 := m.modTail t (fun q => { q with slots := q.slots.filter (fun p => !(p.2.state == .closing && p.2.open_.isEmpty)) })
  gone.foldl (fun (acc : Mach) p => match p.2.waiter with
    | none => acc
    | some id =>
      let a : Mach := { acc with ctxs := acc.ctxs.map (fun (c : Nat × Ctx) => (c.1, { c.2 with xq := c.2.xq.filter (fun o => o.id != id) })) }
      a.finish id) m1

/-- NPKT and FCAUSE of an end marker (R258). -/
def endCount (p : LandPkt) : Nat := fieldAt p.payload 0 4
def endCause (p : LandPkt) : BitVec 8 := BitVec.ofNat 8 (byteAt p.payload 4)

/-- An end marker applied at Tailrace `t`; none where it is a stray that finds no room. The map that took the transfer's last packet
is the one in its slot only while the transfer is open there; where that map is EMPTY by now the marker is a stray (R267, R268). -/
def Mach.applyEnd (m : Mach) (t : Nat) (p : LandPkt) : Option Mach :=
  let x := landXfer p
  let q := m.tail t
  let a := (q.acct.find? (fun a => a.xfer == x)).getD { xfer := x, count := 0, strays := 0, slot := none }
  let by_ := match a.slot with
    | some k => ((kget k q.slots).filter (fun (s : MapSlot) => s.open_.contains x)).map (fun s => (k, s))
    | none => q.pick (fun s => s.takes x && s.kind p)
  let marked := match by_ with
    | none => m.pushStray t { tenant := p.tenant, bytes := landEntry p 2 }
    | some (_, s) =>
      match s.barrier with
      | none => some m
      | some loc =>
        let log := m.landingLog t s p
        let f := fun (b : BitVec 128) =>
          let c := if imgArv s.image then barUpdate b (BitVec.allOnes 32) 0 else b
          if endCause p = 0 then c else barFault c (endCause p)
        if imgArv s.image || endCause p != 0 then some (m.signal_ log loc f) else some m
  marked.map (fun m1 =>
    let m2 := m1.modTail t (fun r => { r with
      ends := r.ends.erase p
      acct := r.acct.filter (fun b => b.xfer != x)
      slots := r.slots.map (fun s => (s.1, { s.2 with open_ := s.2.open_.filter (fun y => y != x) })) })
    (m2.settleSlots t).post p.src (.ack p.src p.core (hdrTid p.hdr) a.strays))

/-- END_MARKER_APPLY (R266): the first marker whose packets are all accounted for. -/
def Mach.endApply (m : Mach) (t : Nat) : Option Mach :=
  if !m.taking t then none
  else
    let q := m.tail t
    match q.ends.find? (fun p => ((q.acct.find? (fun a => a.xfer == landXfer p)).map (fun a => a.count)).getD 0 == endCount p) with
    | none => none
    | some p =>
      match (m.modTail t (fun r => { r with slots := m.liveMaps t, stop := false })).applyEnd t p with
      | some m1 => some m1
      | none => if q.stop then none else some (m.modTail t (fun r => { r with stop := true }))

/-! ### Map operations (R267) -/

/-- The tenant of a run. -/
def Mach.tenantOf (m : Mach) (rid : Nat) : BitVec 4 := BitVec.ofNat 4 (((m.run? rid).map (fun r => r.tenant)).getD 0)

/-- The window of a Tailrace's memory that an operation's context has (R260). -/
def Mach.tailWindow (m : Mach) (t x : Nat) : Nat × Nat := m.window x (if t < 256 then .ll else .lk)

/-- A refused operation: a map-error entry (R267, R269), and the operation is done. -/
def Mach.refuseMap (m : Mach) (t : Nat) (o : MapOp) (slot opk : Nat) : Option Mach :=
  (m.pushStray t { tenant := m.tenantOf o.rid, bytes := strayEntry 3 0 0 slot opk 0 [] }).map (fun q => q.xDone o.ctx o.id)

/-- A map operation applied at Tailrace `t`; none where its refusal finds no room. DESIGN CHOICE (log 107): the entry of a refused swap names
its new slot; R269 does not say which of the two. -/
def Mach.applyMap (m : Mach) (t : Nat) (o : MapOp) : Option Mach :=
  let q := m.tail t
  let own := fun (s : MapSlot) => s.rid == o.rid
  let put := fun (k : Nat) (s : MapSlot) => m.modTail t (fun r => { r with slots := kput k s r.slots })
  match o.ins with
  | .ldmap k _ _ =>
    let img := readBytes m.mem o.loc 96
    let w := m.tailWindow t o.ctx
    if (kget k.toNat q.slots).isNone && imageOk img w.2 then
      some ((put k.toNat { state := if imgStg img then .staged else .live, image := img, rid := o.rid, tenant := m.tenantOf o.rid,
                           base := w.1, bytes := w.2, open_ := [], waiter := none }).xDone o.ctx o.id)
    else m.refuseMap t o k.toNat 1
  | .swapmap n k _ =>
    match kget n.toNat q.slots, kget k.toNat q.slots with
    | some a, some b =>
      if a.state == .staged && b.state == .live && own a && own b then
        some (((put n.toNat { a with state := .live }).modTail t (fun r =>
          { r with slots := kput k.toNat { b with state := .retiring } r.slots })).xDone o.ctx o.id)
      else m.refuseMap t o n.toNat 2
    | _, _ => m.refuseMap t o n.toNat 2
  | .retiremap k _ =>
    match kget k.toNat q.slots with
    | none => m.refuseMap t o k.toNat 3
    | some s =>
      if !own s || s.state == .closing then m.refuseMap t o k.toNat 3
      else if s.state == .staged then some ((m.modTail t (fun r => { r with slots := kdel k.toNat r.slots })).xDone o.ctx o.id)
      else some ((put k.toNat { s with state := .closing, waiter := some o.id }).settleSlots t)
  | _ => some m

/-- The kind of a map operation: 1 install, 2 swap, 3 retire. -/
def mapKind : Instr → Nat
  | .ldmap _ _ _ => 1
  | .swapmap _ _ _ => 2
  | .retiremap _ _ => 3
  | _ => 0

/-- MAP_INSTALL, MAP_SWAP and MAP_RETIRE (R267): the oldest operation that has reached Tailrace `t`, at an arrival boundary. -/
def Mach.mapStep (m : Mach) (t k : Nat) : Option Mach :=
  match (m.tail t).ops with
  | [] => none
  | o :: rest =>
    if mapKind o.ins != k || !m.taking t then none
    else
      match (m.modTail t (fun q => { q with ops := rest, slots := m.liveMaps t, stop := false })).applyMap t o with
      | some m1 => some m1
      | none => if (m.tail t).stop then none else some (m.modTail t (fun q => { q with stop := true }))

/-! ### Meanings -/

def execDataPacketArrive (p : LandPkt) (s : State) : Res := s.event (fun m => m.dataPacket p)
def execEndMarkerArrive (p : LandPkt) (s : State) : Res := s.event (fun m => m.endMarker p)
def execEndMarkerApply (t : Nat) (s : State) : Res := s.event (fun m => m.endApply t)
def execTransferAck (c : Nat) (t : BitVec 12) (n : Nat) (s : State) : Res := s.event (fun m => m.transferAck c t n)
def execMapInstall (t : Nat) (s : State) : Res := s.event (fun m => m.mapStep t 1)
def execMapSwap (t : Nat) (s : State) : Res := s.event (fun m => m.mapStep t 2)
def execMapRetire (t : Nat) (s : State) : Res := s.event (fun m => m.mapStep t 3)

end Sys2Proof.Machine
end

