-- ==== Sys2Proof/Machine/Quantise.lean ====
section
/-! DEFINITION. The QM, QC and SC slots (R203 to R215): block scales and the scale bypass, quantising and dequantising through
the staging registers, conversions, and scale registers. QM acts at its issue; a QC operation computes from the operands of
its issue and writes its vector when it completes; staging registers, which only QC words name, are written at the issue. -/

namespace Sys2Proof.Machine

/-- The element formats of a staging register (R204). -/
inductive QFmt where
  | e4m3 | e5m2 | e2m1 | s8 | bp8
  deriving DecidableEq, Repr

/-- The target format of R112; none for the integers. -/
def QFmt.target : QFmt → Option Fmt
  | .e4m3 => some fmtE4m3
  | .e5m2 => some fmtE5m2
  | .e2m1 => some fmtE2m1
  | .s8 => none
  | .bp8 => none

/-- The target that a `qmax` names (R206). -/
def qmaxTarget (c : BitVec 4) : Option Fmt :=
  match c.toNat with
  | 6 => some fmtE4m3 | 7 => some fmtE5m2 | 8 => some fmtE2m1 | _ => none

/-! ### Staging registers (R203, R204) -/

/-- The physical staging register that the name `n` means (R204). -/
def State.qPhys (s : State) (n : BitVec 3) : Nat := (s.regs.rb + n).toNat

/-- A plane group of 256 elements with P = 8 (R104): planes 7 down to 0. -/
def planeGroup (codes : List Byte) : BitVec 2048 :=
  packLanes 2048 ((List.range 8).map (fun j => (packLanes 256 (codes.map (fun c => c.extractLsb' (7 - j) 1)) : BitVec 256)))

/-- The element bytes of R204. -/
def qBytes (f : QFmt) (codes : List Byte) : BitVec 8192 :=
  match f with
  | .e2m1 => packLanes 8192 (codes.map (fun c => c.extractLsb' 0 4))
  | .bp8 => packLanes 8192 ((List.range 4).map (fun g => planeGroup ((codes.drop (256 * g)).take 256)))
  | _ => packLanes 8192 codes

/-- A staging register from its elements and scales. -/
def qPack (f : QFmt) (codes scales : List Byte) : BitVec 8704 :=
  ((packLanes 512 scales : BitVec 512).zeroExtend 8704 <<< 8192) ||| (qBytes f codes).zeroExtend 8704

/-- Element `i` of a staging register as a number without its scale (R204). -/
def qElem (f : QFmt) (q : BitVec 8704) (i : Nat) : Num :=
  match f with
  | .e4m3 => fmtE4m3.decode (lane 8 q i : Byte).toNat
  | .e5m2 => fmtE5m2.decode (lane 8 q i : Byte).toNat
  | .e2m1 => fmtE2m1.decode (lane 4 q i : BitVec 4).toNat
  | .s8 => numOfS8 (lane 8 q i : Byte).toNat
  | .bp8 =>
    let g : BitVec 2048 := lane 2048 q (i / 256)
    numOfS8 (((List.range 8).map (fun j => if g.getLsbD (256 * (7 - j) + i % 256) then 2 ^ j else 0)).foldl (· + ·) 0)

/-- Scale byte `b` of a staging register (R204). -/
def qScale (q : BitVec 8704) (b : Nat) : Byte := lane 8 q (1024 + b)

/-- The scales a QC word uses with SRC = 1 (R208, R209). -/
def State.scScale (s : State) (c : BitVec 4) (h : BitVec 1) (b : Nat) : Byte :=
  lane 8 (rget c.toNat s.regs.sc) (64 * h.toNat + b)

/-! ### QM (R206, R207) -/

/-- The 64 scales of `qmax` over 1,024 elements of `n` bits in format `f` (R206). -/
def blockScales (f : Fmt) (n : Nat) (t : Option Fmt) (v : VReg) : List Byte :=
  (List.range 64).map (fun b =>
    blockScale t ((List.range 16).map (fun j => f.decode (lane n v (16 * b + j) : BitVec n).toNat)))

/-- `qmax` (R206): the bypass is seen from the second issue after this one (R66). -/
def State.qmax (s : State) (f : Fmt) (n : Nat) (v : BitVec 5) (c : BitVec 4) : Res :=
  let all : BitVec 512 := packLanes 512 (blockScales f n (qmaxTarget c) (s.rv v))
  done (s.expose ((List.range 4).map (fun i =>
    { kind := 3, reg := 0, byte := BitVec.ofNat 16 (16 * i), k := 2, data := lane 128 all i, src := none })))

/-- A direct write of 16 bytes of a scale register prevails over an exposed write of the same bytes that the next issue would
see with it (R213). -/
def Replay.outdone (e : Replay) (r : Nat) (byte : Nat) (d : BitVec 128) : Replay :=
  if e.kind == 1 && e.k == 1 && e.reg.toNat == r && e.byte.toNat == byte then { e with data := d, src := none } else e

/-- The entries of a direct write of half `h` of scale register `c`. -/
def outdoneBy (c : BitVec 4) (h : BitVec 1) (b : BitVec 512) (l : List Replay) : List Replay :=
  (List.range 4).foldl (fun acc i => acc.map (fun e => e.outdone c.toNat (64 * h.toNat + 16 * i) (lane 128 b i))) l

/-! ### QC -/

/-- A QC operation enters the context's queue (R205). -/
def State.qop (s : State) (vW : List (Nat × VReg)) (flags : XF) (rs : List RegId) : Res :=
  let (id, s1) := s.operation
  done ((s1.modC (fun c => { c with qq := c.qq ++ [s.newV id none vW [] [] flags] })).pendAll rs)

/-- A staging register written. -/
def State.putQ (s : State) (q : BitVec 3) (v : BitVec 8704) : State := s.modR (fun r => { r with q := rput (s.qPhys q) v r.q })

/-- One block of `qcvt` (R208): its scale, its elements, and the flags. -/
def quantBlock (t : Option Fmt) (rm : Nat) (given : Byte) (x : List (Num × W32)) : Byte × List Byte × XF :=
  let bad := x.any (fun p => !p.1.isFin) || given == 0xFF
  let zero := x.all (fun p => match p.1 with
    | .fin _ m _ => m == 0
    | _ => false)
  let sc : Byte := if bad then 0xFF else if zero then 0 else given
  let out := x.map (fun p => quantOne t zero sc (roundOf rm p.2) p.1)
  (sc, out.map (fun p => BitVec.ofNat 8 p.1), out.foldl (fun a p => a ||| p.2) 0)

/-- `qcvt` (R208). -/
def State.qcvt (s : State) (f : QFmt) (q : BitVec 3) (v : BitVec 5) (r : BitVec 3) (n : BitVec 2) (src : BitVec 1) (c : BitVec 4)
    (h : BitVec 1) : Res :=
  let (ds, s1) := s.roundDraws r.toNat n.toNat 1024
  let given := fun (b : Nat) => if src = 1 then s.scScale c h b else (lane 8 s.regs.byp b : Byte)
  let blocks := chunks 16 64 (withDraws ((lanes 32 1024 (s.rv v)).map numF32) ds)
  let out := (List.zip (List.range 64) blocks).map (fun p => quantBlock f.target r.toNat (given p.1) p.2)
  (s1.putQ q (qPack f (out.flatMap (fun p => p.2.1)) (out.map (fun p => p.1)))).qop []
    (out.foldl (fun a p => a ||| p.2.2) 0) []

/-- `qdq` (R209). -/
def State.qdq (s : State) (f : QFmt) (q : BitVec 3) (v : BitVec 5) (r : BitVec 3) (n : BitVec 2) (src : BitVec 1) (c : BitVec 4)
    (h : BitVec 1) : Res :=
  let (ds, s1) := s.roundDraws r.toNat n.toNat 1024
  let w := rget (s.qPhys q) s.regs.q
  let out := (withDraws (List.range 1024) ds).map (fun p =>
    let sc := if src = 1 then s.scScale c h (p.1 / 16) else qScale w (p.1 / 16)
    fmtF32.ofNum (roundOf r.toNat p.2) (dequant sc (qElem f w p.1)))
  s1.qop [(v.toNat, packLanes 32768 (out.map (fun p => BitVec.ofNat 32 p.1)))] (out.foldl (fun a p => a ||| p.2) 0) (vR v)

/-- A conversion (R211): elements of `k` bits of the source become elements of `n` bits of the destination. -/
def State.convert (s : State) (k n : Nat) (op : Round → BitVec k → BitVec n × XF) (d v : BitVec 5) (r : BitVec 3)
    (g : BitVec 2) : Res :=
  let (ds, s1) := s.roundDraws r.toNat g.toNat s.vl
  let out := (withDraws (List.range s.vl) ds).map (fun p => (p.1, op (roundOf r.toNat p.2) (lane k (s.rv v) p.1)))
  s1.qop [(d.toNat, setLanes n (s.rv d) (out.map (fun p => (p.1, p.2.1))))] (out.foldl (fun a p => a ||| p.2.2) 0) (vR d)

/-- A float in format `f` to a float in format `t` (R111). -/
def cvtFloat (f t : Fmt) {k n : Nat} (r : Round) (w : BitVec k) : BitVec n × XF :=
  let (v, x) := t.ofNum r (f.decode w.toNat)
  (BitVec.ofNat n v, x)

/-! ### Meanings -/

def execQmaxF32 (v : BitVec 5) (c : BitVec 4) (s : State) : Res := s.qmax fmtF32 32 v c
def execQmaxBf16 (v : BitVec 5) (c : BitVec 4) (s : State) : Res := s.qmax fmtBf16 16 v c
def execQmaxF16 (v : BitVec 5) (c : BitVec 4) (s : State) : Res := s.qmax fmtF16 16 v c

/-- `qmvsc` (R207, R213). -/
def execQmvsc (c : BitVec 4) (h : BitVec 1) (s : State) : Res :=
  done ((s.modR (fun r => { r with sc := rput c.toNat (setField (rget c.toNat r.sc) (512 * h.toNat) 512 s.regs.byp) r.sc })).modC
    (fun d => { d with replay := outdoneBy c h s.regs.byp d.replay }))

def execQcvtE4m3 (q : BitVec 3) (v : BitVec 5) (r : BitVec 3) (n : BitVec 2) (b : BitVec 1) (c : BitVec 4) (h : BitVec 1) (s : State) : Res :=
  s.qcvt .e4m3 q v r n b c h
def execQcvtE5m2 (q : BitVec 3) (v : BitVec 5) (r : BitVec 3) (n : BitVec 2) (b : BitVec 1) (c : BitVec 4) (h : BitVec 1) (s : State) : Res :=
  s.qcvt .e5m2 q v r n b c h
def execQcvtE2m1 (q : BitVec 3) (v : BitVec 5) (r : BitVec 3) (n : BitVec 2) (b : BitVec 1) (c : BitVec 4) (h : BitVec 1) (s : State) : Res :=
  s.qcvt .e2m1 q v r n b c h
def execQcvtS8 (q : BitVec 3) (v : BitVec 5) (r : BitVec 3) (n : BitVec 2) (b : BitVec 1) (c : BitVec 4) (h : BitVec 1) (s : State) : Res :=
  s.qcvt .s8 q v r n b c h
def execQcvtBp8 (q : BitVec 3) (v : BitVec 5) (r : BitVec 3) (n : BitVec 2) (b : BitVec 1) (c : BitVec 4) (h : BitVec 1) (s : State) : Res :=
  s.qcvt .bp8 q v r n b c h
def execQdqE4m3 (q : BitVec 3) (v : BitVec 5) (r : BitVec 3) (n : BitVec 2) (b : BitVec 1) (c : BitVec 4) (h : BitVec 1) (s : State) : Res :=
  s.qdq .e4m3 q v r n b c h
def execQdqE5m2 (q : BitVec 3) (v : BitVec 5) (r : BitVec 3) (n : BitVec 2) (b : BitVec 1) (c : BitVec 4) (h : BitVec 1) (s : State) : Res :=
  s.qdq .e5m2 q v r n b c h
def execQdqE2m1 (q : BitVec 3) (v : BitVec 5) (r : BitVec 3) (n : BitVec 2) (b : BitVec 1) (c : BitVec 4) (h : BitVec 1) (s : State) : Res :=
  s.qdq .e2m1 q v r n b c h
def execQdqS8 (q : BitVec 3) (v : BitVec 5) (r : BitVec 3) (n : BitVec 2) (b : BitVec 1) (c : BitVec 4) (h : BitVec 1) (s : State) : Res :=
  s.qdq .s8 q v r n b c h
def execQdqBp8 (q : BitVec 3) (v : BitVec 5) (r : BitVec 3) (n : BitVec 2) (b : BitVec 1) (c : BitVec 4) (h : BitVec 1) (s : State) : Res :=
  s.qdq .bp8 q v r n b c h

/-- `qrot` (R210): it enters the QC queue, and later issues see the new base. -/
def execQrot (s : State) : Res := (s.modR (fun r => { r with rb := r.rb + 1 })).qop [] 0 []

/-- `qin` (R210). -/
def execQin (q : BitVec 3) (v : BitVec 5) (s : State) : Res := (s.putQ q ((s.rv v).extractLsb' 0 8704)).qop [] 0 []

/-- `qout` (R210). -/
def execQout (q : BitVec 3) (v : BitVec 5) (s : State) : Res :=
  s.qop [(v.toNat, (rget (s.qPhys q) s.regs.q).zeroExtend 32768)] 0 (vR v)

def execCvtBf16F32 (d v : BitVec 5) (r : BitVec 3) (n : BitVec 2) (s : State) : Res :=
  s.convert 32 16 (cvtFloat fmtF32 fmtBf16) d v r n
def execCvtF16F32 (d v : BitVec 5) (r : BitVec 3) (n : BitVec 2) (s : State) : Res :=
  s.convert 32 16 (cvtFloat fmtF32 fmtF16) d v r n
/-- The widening forms name no RM: it is 0 (R211). -/
def execCvtF32Bf16 (d v : BitVec 5) (s : State) : Res := s.convert 16 32 (cvtFloat fmtBf16 fmtF32) d v 0 0
def execCvtF32F16 (d v : BitVec 5) (s : State) : Res := s.convert 16 32 (cvtFloat fmtF16 fmtF32) d v 0 0
def execCvtF32S32 (d v : BitVec 5) (r : BitVec 3) (n : BitVec 2) (s : State) : Res :=
  s.convert 32 32 (fun rnd w => let (y, x) := intToFmt fmtF32 rnd w.toInt; (BitVec.ofNat 32 y, x)) d v r n
def execCvtS32F32 (d v : BitVec 5) (r : BitVec 3) (n : BitVec 2) (s : State) : Res :=
  s.convert 32 32 (fun rnd w => let (y, x) := numToInt rnd (-(2 ^ 31)) (2 ^ 31 - 1) (numF32 w); (BitVec.ofInt 32 y, x)) d v r n

/-! ### SC (R212, R213) -/

/-- A scale load (R212): its 128 bytes are exposed for the third issue after this one, and wait for their data (R66). -/
def State.loadScale (s : State) (i : Instr) (c : BitVec 4) (n align : Nat) : Res :=
  match s.old.local_ s.cx .ll (s.wordAddr i) n align with
  | .error e => s.raise e
  | .ok loc =>
    let id := s.m.nextId
    done ((s.localOp (.load [(loc, n)]) .scale).expose ((List.range 8).map (fun j =>
      { kind := 1, reg := c.zeroExtend 8, byte := BitVec.ofNat 16 (16 * j), k := 3, data := 0, src := some id })))

def execLdsc (c : BitVec 4) (a : BitVec 6) (o : BitVec 10) (s : State) : Res := s.loadScale (.ldsc c a o) c 128 64
/-- `ldsc.b` (R212): one byte fills the register. -/
def execLdscB (c : BitVec 4) (a : BitVec 6) (o : BitVec 10) (s : State) : Res := s.loadScale (.ldscB c a o) c 1 1
def execStsc (c : BitVec 4) (a : BitVec 6) (o : BitVec 10) (s : State) : Res :=
  match s.old.local_ s.cx .ll (s.wordAddr (.stsc c a o)) 128 64 with
  | .error e => s.raise e
  | .ok loc => done (s.localOp (.store [(loc, bytesOf 128 (rget c.toNat s.regs.sc))]) .none)

end Sys2Proof.Machine
end

