-- ==== Sys2Proof/Machine/Engines.lean ====
section
/-! DEFINITION. Engine operations and local accesses as they begin, perform and complete (R216, R233 to R238, R245, R246, R259): the
Headrace, the V, QC and M engines, the local queues, loaded data on its way to its destination (R67), and the Bolter (R162 to
R165). -/

namespace Sys2Proof.Machine

/-- The operations that one waits for are complete (R245). -/
def Mach.ready (m : Mach) (needs : List Nat) : Bool := needs.all (fun k => !m.inFlight k)

/-! ### The Headrace (R259, R276, R279, R280) -/

/-- How a collective combines (R280). -/
def xredOp : Instr → Option RedOp
  | .xredAddF32 _ _ _ => some .addF32
  | .xredMaxF32 _ _ _ => some .maxF32
  | .xredMinF32 _ _ _ => some .minF32
  | .xredAddBf16 _ _ _ => some .addBf16
  | .xredAddS32 _ _ _ => some .addS32
  | .xredMaxS32 _ _ _ => some .maxS32
  | _ => none

/-- Word `i` that an operation captured. -/
def EngOp.word (o : EngOp) (i : Nat) : W64 := o.words.getD i 0

/-- The box of a send. -/
def EngOp.box (o : EngOp) : Box := boxFrom o.word

/-- The destination words of a send. -/
def EngOp.dests (o : EngOp) : List W64 := o.words.drop 7

/-- The runs that a send emits: those before the first that reads a byte in error (R276). `blocks` of a send lists such bytes by
location. -/
def EngOp.goodRuns (o : EngOp) : List (List Nat × Nat) :=
  if o.box.empty then []
  else o.box.runs.takeWhile (fun r =>
    let p := o.box.runReads (o.word 5).toNat r
    !o.blocks.any (fun a => decide (p.1 ≤ a.toNat) && decide (a.toNat < p.1 + p.2)))

/-- The packet that carries a run, or the end marker, of member `j` (R258). -/
def EngOp.packet (o : EngOp) (chip : BitVec 12) (tenant : BitVec 4) (j : Nat) (d : W64) (cnt : Nat) (end_ : Bool) (c : List Nat)
    (bs : List Byte) : LandPkt :=
  { src := chip, core := BitVec.ofNat 8 (coreOf o.ctx), tenant := tenant, tail := destTail d,
    hdr := coordHdr o.box.stream o.box.fmt o.box.dim cnt end_ c ((o.word 6).extractLsb' 0 12 + BitVec.ofNat 12 j), payload := bs }

/-- A data packet or a contribution sent (R259, R280). -/
def EngOp.emit (o : EngOp) (m : Mach) (d : W64) (p : LandPkt) : Mach :=
  let c := destChip d
  match xredOp o.ins with
  | some op => m.post c (.xred c { pkt := p, op := op, nc := d.extractLsb' 56 6, rank := d.extractLsb' 50 6, gen := d.extractLsb' 46 4 })
  | none => m.post c (.land c p)

/-- HEADRACE_EMIT (R259): every source element is read once; each member takes the same packets, then its end marker. -/
def Mach.headrace (m : Mach) (o : EngOp) : Mach :=
  let b := o.box
  let chip := m.pkg.chip
  let ten := m.tenantOf o.rid
  let data := o.goodRuns.map (fun r => (b.coords r, r.2, packElems b.fmt (b.runElems m.mem (o.word 5).toNat r)))
  let cause : Nat := if o.goodRuns.length = (if b.empty then 0 else b.runs.length) then 0 else 0x23
  let one := fun (m : Mach) (p : Nat × W64) =>
    let m1 := data.foldl (fun (acc : Mach) r => o.emit acc p.2 (o.packet chip ten p.1 p.2 (r.2.1 - 1) false r.1 r.2.2)) m
    let c := destChip p.2
    m1.post c (.land c (o.packet chip ten p.1 p.2 0 true b.org (natLE 4 data.length ++ natLE 4 cause)))
  let ms := List.zip (List.range o.dests.length) o.dests
  let m1 := m.modCore (coreOf o.ctx) (fun c => { c with xfers := c.xfers ++ ms.map (fun p =>
    { tid := (o.word 6).extractLsb' 0 12 + BitVec.ofNat 12 p.1, op := o.id, ctx := o.ctx, rid := o.rid, member := p.1, dest := p.2,
      done := false, ok := false }) })
  ms.foldl one m1

/-! ### ENGINE_BEGIN (R245) -/

/-- An X operation marked begun: its source has been read. -/
def Ctx.xBegun (c : Ctx) (id : Nat) : Ctx :=
  { c with xq := c.xq.map (fun o => if o.id = id then { o with begun := true, reads := if mapKind o.ins = 1 then o.reads else [] } else o) }

/-- Whether an X operation is a send of some form (R271). -/
def isSend : Instr → Bool
  | .xsend _ _ _ | .xsendLk _ _ _ | .xmcast _ _ _ | .xmcastLk _ _ _ => true
  | i => (xredOp i).isSome

/-- `strays` performs (R282): the oldest entry of the run's tenant, or zeros, is written and freed. -/
def Mach.readStray (m : Mach) (o : EngOp) (t : Nat) : Mach :=
  let c := m.ctx o.ctx
  let (bs, m1) := match (m.tail t).takeStray (m.tenantOf o.rid) with
    | some (e, q) => (e.bytes, m.modTail t (fun _ => q))
    | none => (zeroBytes 288, m)
  let loc := (o.word 0).toNat
  let m2 := if c.byHandler o.no then m1.keptStore loc bs else m1.logStore o.rid (clusterOf o.ctx) (coreOf o.ctx) loc bs
  m2.xDone o.ctx o.id

/-- `lnmsg` performs (R284): its word is pushed while the FIFO has room. A push that has become illegal is dropped. -/
def Mach.pushMsg (m : Mach) (o : EngOp) (k : Nat) : Option Mach :=
  if Config.linkWords ≤ ((m.core (coreOf o.ctx)).link k).outb.length then none
  else match m.pushLink o.ctx o.no o.pc k (o.word 0) with
    | .ok m1 => some (m1.xDone o.ctx o.id)
    | .error _ => some (m.xDone o.ctx o.id)

/-- Whether a destination word of context `x` names a Tailrace outside its cluster, or another package (R277). -/
def Mach.outside (m : Mach) (x : Nat) (d : W64) : Bool := destChip d != m.pkg.chip || (d.extractLsb' 3 5).toNat != clusterOf x

/-- Whether a queued X operation is a commit point with a second checkpoint (R37): a send that leaves the cluster, and `lnmsg`. -/
def Mach.leavesTeam (m : Mach) (o : EngOp) : Bool :=
  match o.ins with
  | .lnmsg _ _ => true
  | i => isSend i && o.dests.any (m.outside o.ctx)

/-- Whether the second checkpoint of an operation has been taken, so that no rollback replays it (R37, R277); a handler has none (R313). -/
def Mach.keptFor (m : Mach) (o : EngOp) : Bool :=
  (m.ctx o.ctx).byHandler o.no || (m.team? o.rid (clusterOf o.ctx)).all (fun t => decide (o.no < t.cut) && !t.full)

/-- An operation at the head of the X queue begins (R271); a commit point does once its second checkpoint holds it. -/
def Mach.beginX (m : Mach) (x : Nat) (o : EngOp) : Option Mach :=
  let before := (m.ctx x).xq.takeWhile (fun p => p.id != o.id)
  if before.any (fun p => !p.begun || !isSend p.ins) || !m.ready o.needs || (m.leavesTeam o && !m.keptFor o) then none
  else
    let mapTo := fun (t : BitVec 1) =>
      some ((m.modCtx x (fun c => c.xBegun o.id)).modTail (tailOf x t) (fun q =>
        { q with ops := q.ops ++ [{ ins := o.ins, ctx := x, rid := o.rid, id := o.id, loc := (o.word 0).toNat }] }))
    match o.ins with
    | .ldmap _ _ t => mapTo t
    | .swapmap _ _ t => mapTo t
    | .retiremap _ t => mapTo t
    | .strays _ t => some (m.readStray o (tailOf x t))
    | .lnmsg k _ => if before.isEmpty then m.pushMsg o k.toNat else none
    | _ =>
      if Config.headracePlaces < ((m.core (coreOf x)).xfers.filter (fun f => !f.done)).length + o.dests.length then none
      else some ((m.headrace o).modCtx x (fun c => c.xBegun o.id))

/-- The first operation of a queue that has not begun, if it is `id` and may begin. -/
def Mach.headV (m : Mach) (q : List VOp) (id : Nat) : Bool :=
  match q.find? (fun o => !o.begun) with
  | some o => o.id == id && m.ready o.needs
  | none => false

/-- A V or QC operation marked begun. -/
def beginV (q : List VOp) (id : Nat) : List VOp := modWhere (fun o => o.id == id) (fun o => { o with begun := true }) q

/-- The M operation at the head of the core's queue begins (R216); the read of its LG feed goes, one that waited for a token with the bytes
that its team's stores hold now (R245). -/
def Mach.beginM (m : Mach) (k : Nat) (id : Nat) : Option Mach :=
  match (m.core k).mq.find? (fun o => !o.begun) with
  | none => none
  | some o =>
    if o.id != id || !m.ready o.needs then none
    else
      let feed := fun (g : GOp) => match g.act with
        | .read (.feed i) => i == id
        | _ => false
      let m1 := (m.gops.filter (fun g => feed g && !g.needs.isEmpty)).foldl Mach.retake m
      some ({ m1 with gops := modWhere feed (fun g => { g with needs := [] }) m1.gops }.modCore k (fun c =>
        { c with mq := modWhere (fun p => p.id == id) (fun p => { p with begun := true }) c.mq }))

/-- A store that has waited enters the team store buffer with the pieces `segs` (R245): its token completes, its team learns of it (R185),
and once the team has ended it is committed (R23). -/
def Mach.enterBuffer (m : Mach) (g : GOp) (segs : List Seg) : Mach :=
  let m1 := (m.finish g.id).noticeTeam g.rid g.cluster (homeLines segs)
  if g.direct then m1 else (m1.commitEnded g.rid g.cluster).checkFull g.rid g.cluster

/-- The LG operation of a context that waits first goes (R245): a read takes its team's bytes, a store enters the store buffer with all its
pieces. -/
def Mach.beginG (m : Mach) (g : GOp) : Option Mach :=
  let first := m.gops.find? (fun h => h.ctx == g.ctx && !h.needs.isEmpty && !h.isFeed)
  if first.any (fun h => h.id == g.id) && m.ready g.needs then
    let mine := fun (h : GOp) => h.ctx == g.ctx && h.no == g.no && !h.isFeed
    let m0 := m.retake g
    let m1 : Mach := { m0 with gops := modWhere mine (fun h => { h with needs := [] }) m0.gops }
    some (match g.act with
      | .store _ | .red _ _ => m1.enterBuffer g ((m.gops.filter mine).flatMap (fun h => h.segs))
      | _ => m1)
  else none

/-- ENGINE_BEGIN (R245). -/
def Mach.engineBegin (m : Mach) (id : Nat) : Option Mach :=
  match m.ctxs.find? (fun p => m.headV p.2.vq id) with
  | some p => some (m.modCtx p.1 (fun c => { c with vq := beginV c.vq id }))
  | none =>
    match m.ctxs.find? (fun p => m.headV p.2.qq id) with
    | some p => some (m.modCtx p.1 (fun c => { c with qq := beginV c.qq id }))
    | none =>
      match m.ctxs.findSome? (fun p => (p.2.xq.find? (fun o => o.id == id && !o.begun)).map (fun o => (p.1, o))) with
      | some (x, o) => m.beginX x o
      | none =>
        match m.cores.find? (fun p => p.2.mq.any (fun o => o.id == id)) with
        | some p => m.beginM p.1 id
        | none =>
          match m.gops.find? (fun g => g.id == id && !g.needs.isEmpty && !g.isFeed) with
          | some g => m.beginG g
          | none => none

/-! ### V and QC (R190, R205) -/

/-- Registers that a completed operation writes: they are pending no longer (R67). -/
def Ctx.written (c : Ctx) (vW : List (Nat × VReg)) (mW : List (Nat × BitVec 1024)) (gW : List (Nat × W64)) : Ctx :=
  let r := c.regs
  let done_ := vW.map (fun p => RegId.v p.1) ++ mW.map (fun p => RegId.m p.1) ++ gW.map (fun p => RegId.g p.1)
  { c with
    regs := { r with
      v := vW.foldl (fun acc p => rput p.1 p.2 acc) r.v
      m := mW.foldl (fun acc p => rput p.1 p.2 acc) r.m
      g := rput 0 0 (gW.foldl (fun acc p => rput p.1 p.2 acc) r.g) }
    busy := c.busy.filter (fun q => !done_.contains q) }

/-- The writes of a completed V or QC operation. -/
def Ctx.retireV (c : Ctx) (o : VOp) : Ctx := c.written o.vW o.mW o.gW

/-- The flags of operation `id` of engine `k` are owed to the trapped program where its handler did not issue it (R110, R314). -/
def Ctx.owed (c : Ctx) (k id : Nat) (fl : BitVec 5) : Ctx :=
  if c.trp.handler && id < c.trp.from_ then { c with late := rput k (rget k c.late ||| fl) c.late } else c

/-- V_OP_COMPLETE (R190). -/
def Mach.vComplete (m : Mach) (x : Nat) : Option Mach :=
  match (m.ctx x).vq with
  | [] => none
  | o :: rest =>
    if o.begun then
      some ((m.modCtx x (fun c => ({ c.retireV o with vq := rest, xfV := c.xfV ||| o.flags } : Ctx).owed 1 o.id o.flags)).finish o.id)
    else none

/-- QC_OP_COMPLETE (R205). -/
def Mach.qcComplete (m : Mach) (x : Nat) : Option Mach :=
  match (m.ctx x).qq with
  | [] => none
  | o :: rest =>
    if o.begun then
      some ((m.modCtx x (fun c => ({ c.retireV o with qq := rest, xfQ := c.xfQ ||| o.flags } : Ctx).owed 2 o.id o.flags)).finish o.id)
    else none

/-! ### M (R216, R334) -/

/-- The target of a self-test zeroed (R334). -/
def Core.zeroTarget (c : Core) (w : W64) : Core :=
  let n := (w.extractLsb' 4 4).toNat
  match (w.extractLsb' 0 4).toNat with
  | 1 => c.zeroUnit (8 + n)
  | 2 => c.zeroUnit n
  | 3 => c.zeroUnit (12 + n)
  | 4 => c.zeroUnit (16 + n)
  | _ => c

/-- The result of a self-test on core `k` (R334, R369): whether the fault lasts is a free value; a stone has spare rows, and every part of a
core the quarter's spare cores. -/
def Mach.testResult (m : Mach) (k : Nat) (w : W64) : Nat :=
  let n := (w.extractLsb' 4 4).toNat
  if w.extractLsb' 0 4 = 0 then 3
  else if Config.lastingFault m.tick = false then 0
  else if (w.extractLsb' 0 4 = 1 ∧ kgetD 0 (4 * k + n) m.pkg.spareRows < spareRowsPer) ∨ m.pkg.repairs.contains k = true ∨
      m.pkg.spareCore k = true then 1
  else 2

/-- The resource that a self-test names, with its number on the package (R369); a refused test names none. -/
def testUnit (k : Nat) (w : W64) : Option (Resource × Nat) :=
  let n := (w.extractLsb' 4 4).toNat
  match (w.extractLsb' 0 4).toNat with
  | 1 => some (.stone, 4 * k + n)
  | 2 => some (.tile, 8 * k + n)
  | 3 => some (.curve, 8 * k + n)
  | 4 => some (.curve, 8 * k + 4 + n)
  | _ => none

/-- A lasting fault of a resource repaired (R369). -/
def Mach.repairCore (m : Mach) (r : Resource) (unit k : Nat) : Mach :=
  if r = .stone ∧ kgetD 0 unit m.pkg.spareRows < spareRowsPer then
    m.modPkg (fun p => { p with spareRows := kmod 0 unit (fun n => n + 1) p.spareRows })
  else m.substitute k

/-- A self-test completes (R334, R369): the target ends zero and the test is due no longer. A lasting fault takes a spare; where none is left,
the core is retired with its cluster, which stops the runs that hold it. -/
def Mach.finishTest (m : Mach) (k : Nat) (o : EngOp) : Mach :=
  let w := o.word 0
  let res := m.testResult k w
  let reg := (o.word 1).extractLsb' 0 6
  let m1 : Mach := { m with tick := m.tick + 1 }
  let m2 := (m1.modCore k (fun c => c.zeroTarget w)).modPkg (fun p => { p with tests := p.tests.filter (fun t => some t != testUnit k w) })
  let m3 := m2.modCtx o.ctx (fun c => ({ c with regs := c.regs.wg reg (BitVec.ofNat 64 res) }).settle (.g reg.toNat))
  match testUnit k w with
  | none => m3
  | some (r, unit) =>
    if res = 1 ∨ res = 2 then m3.repairCore r unit k else m3

/-- A row of a tile as a rollback puts it back after a handler has written its first `n` blocks of 16 columns and left the tile `b` (R313):
those blocks survive, with their exponents. -/
def Undo.patchRow (core tile row n : Nat) (b : Tile) : Undo → Undo
  | .row k t r mant exps =>
    if k = core ∧ t = tile ∧ r = row then
      .row k t r (setLanes 512 mant ((List.range n).map (fun i => (i, lane 512 (rget row b.mant) i))))
        (setLanes 8 exps ((List.range n).map (fun i => (i, lane 8 (rget row b.exps) i))))
    else .row k t r mant exps
  | u => u

/-- The rows that an M operation changes are logged (R38; log 16), as they were before; what a handler's operation writes survives a rollback
(R313). `f` is what the operation does. -/
def Mach.withRows (m : Mach) (o : EngOp) (k : Nat) (rows : List (Nat × Nat × Nat)) (f : Mach → Mach) : Mach :=
  let m1 := f m
  if (m.ctx o.ctx).byHandler o.no then
    let keep := fun (u : Undo) => rows.foldl (fun acc p => acc.patchRow k p.1 p.2.1 p.2.2 ((m1.core k).tile p.1)) u
    { m1 with teams := m1.teams.map (fun (t : Team) => { t with undo := t.undo.map keep }) }
  else
    let changed := rows.filter (fun p => ((m.core k).tile p.1).rowDiffers ((m1.core k).tile p.1) p.2.1)
    { m1 with teams := (changed.foldl (fun (acc : Mach) p => acc.logRow o.rid (clusterOf o.ctx) k p.1 p.2.1) m).teams }

/-- Every byte of an M operation's LG feed has come, every compressed block is verified (R164, R221). -/
def EngOp.fed (o : EngOp) : Bool := (o.feed.isEmpty || o.came.length == o.feed.length) && o.blocks.isEmpty

/-- M_OP_COMPLETE (R216): the operation at the head has its whole effect; the rows that it changes are logged first (R38). -/
def Mach.mComplete (m : Mach) (k : Nat) : Option Mach :=
  match (m.core k).mq with
  | [] => none
  | o :: rest =>
    if !o.begun || !o.fed then none
    else
      let pop := fun (m : Mach) => (m.modCore k (fun c => { c with mq := rest })).finish o.id
      match o.ins with
      | .nop =>
        some (pop (m.withRows o k (o.rows (m.core k)) (fun n => n.finishTest k o)))
      | _ =>
        let (c, vW, fl) := (m.core k).perform o (o.gather m.mem)
        let m1 := m.withRows o k (o.rows (m.core k)) (fun n => n.modCore k (fun _ => c))
        some (pop (m1.modCtx o.ctx (fun d => ({ d.written vW [] [] with xfM := d.xfM ||| fl } : Ctx).owed 0 o.id fl)))

/-! ### Local accesses (R233, R237, R238) -/

/-- The first location of a local access, which names its scratchpad. -/
def LocalAct.loc : LocalAct → Nat
  | .load segs => (segs.head?.map (fun p => p.1)).getD 0
  | .store segs => (segs.head?.map (fun p => p.1)).getD 0
  | .amo _ loc _ _ => loc
  | .bar loc _ _ => loc

/-- The scratchpad of a location. -/
def padOf (loc : Nat) : Nat := loc / 2 ^ 24

/-- A write by a local access, logged for run code (R38, R313). -/
def Mach.localStore (m : Mach) (o : LocalOp) (loc : Nat) (bs : List Byte) : Mach :=
  let c := m.ctx o.ctx
  if c.byHandler o.no then m.keptStore loc bs else m.logStore c.rid (clusterOf o.ctx) (coreOf o.ctx) loc bs

/-- Data of a load or an atomic on its way. -/
def Mach.answer (m : Mach) (o : LocalOp) (bs : List Byte) : Mach :=
  if o.dest == .none then m.finish o.id
  else { m with rets := m.rets ++ [{ id := o.id, ctx := o.ctx, slot := o.slot, dest := o.dest, bytes := bs }] }

/-- A local access performs (R234). -/
def Mach.perform (m : Mach) (o : LocalOp) : Mach :=
  match o.act with
  | .load segs =>
    let bs := segs.flatMap (fun p => readBytes m.mem p.1 p.2)
    (m.spinLoad o.ctx (segs.flatMap (fun p => linesOf p.1 p.2)) true bs).answer o bs
  | .store segs => (segs.foldl (fun (acc : Mach) p => acc.localStore o p.1 p.2) m).finish o.id
  | .amo op loc b c =>
    let old : W64 := BitVec.ofNat 64 (m.load loc 8)
    let m1 := match amoNew op old b c with
      | some v => m.localStore o loc (vecLE 8 v)
      | none => m
    m1.answer o (vecLE 8 old)
  | .bar loc da ds => (m.localStore o loc (vecLE 16 (barUpdate (m.barrier loc) da ds))).finish o.id

/-- Whether an access must wait for the LG word of its issue: a store does for a load, a tile load or an atomic (R237). -/
def Mach.lgFirst (m : Mach) (o : LocalOp) : Bool :=
  o.storeOf o.no && m.gops.any (fun g => g.ctx == o.ctx && g.no == o.no && (match g.act with
    | .read .none | .read (.feed _) => false
    | .read _ | .amo .. => true
    | _ => false))

/-- LOCAL_PERFORM (R237, R238): no access issued before it by its context, or to its scratchpad, still waits, nor a read of its issue that must
come first. -/
def Mach.localPerform (m : Mach) (id : Nat) : Option Mach :=
  match m.locq.find? (fun o => o.id == id) with
  | none => none
  | some o =>
    let before := m.locq.takeWhile (fun p => p.id != id)
    if before.any (fun p => p.ctx == o.ctx || padOf p.act.loc == padOf o.act.loc) || m.lgFirst o then none
    else some (({ m with locq := m.locq.filter (fun p => p.id != id) }).perform o)

/-! ### LOAD_DATA_RETURN (R67) -/

/-- Element `s` of a tile of format `f` (R160). -/
def tileElem (f : Nat) (bs : List Byte) (s : Nat) : Nat := payloadElem f bs s

/-- The `.f32` of a tile element (R111, R113); `sc` is its leaf's scale byte. -/
def widenElem (f : Nat) (sc : Byte) (v : Nat) : Nat :=
  let out := fun (x : Num) => (fmtF32.ofNum .rne x).1
  match f with
  | 0 => v
  | 1 => out (fmtBf16.decode v)
  | 2 => out (fmtF16.decode v)
  | 4 => out (dequant sc (numOfS8 v))
  | 6 => out (dequant sc (fmtE4m3.decode v))
  | 7 => out (dequant sc (fmtE5m2.decode v))
  | _ => out (dequant sc (fmtE2m1.decode v))

/-- A tile's register from its bytes and its 64 scale bytes (R174, R161). -/
def tileIn (f : Nat) (t : Bool) (bs : List Byte) : VReg :=
  packLanes 32768 ((List.range 1024).map (fun p =>
    let s := tileStored t p
    (BitVec.ofNat 32 (widenElem f (bs.getD (tileBytes f + s / 16) 0) (tileElem f bs s)) : W32)))

/-- A scalar load's value (R173). -/
def scalarOf (sgn : Bool) (bs : List Byte) : W64 :=
  if sgn then BitVec.ofInt 64 (signed (8 * bs.length) (leNat bs)) else BitVec.ofNat 64 (leNat bs)

/-- A vector with its first elements replaced (R172). -/
def headOf (v : VReg) (n : Nat) (bs : List Byte) : VReg := (v >>> (32 * n) <<< (32 * n)) ||| ofBytes 32768 (bs.take (4 * n))

/-- The replay entries of a scale load filled (R66, R212); one byte fills the register. -/
def fillScale (l : List Replay) (id : Nat) (bs : List Byte) : List Replay :=
  let all := if bs.length = 1 then List.replicate 128 (bs.headD 0) else bs
  l.map (fun e => if e.src = some id then { e with data := ofBytes 128 ((all.drop e.byte.toNat).take 16), src := none } else e)

/-- A destination written (R67). -/
def Ctx.takeData (c : Ctx) (o : Ret) : Ctx :=
  let r := c.regs
  match o.dest with
  | .vec d n => ({ c with regs := { r with v := rput d (headOf (rget d r.v) n o.bytes) r.v } }).settle (.v d)
  | .mask d => ({ c with regs := { r with m := rput d (ofBytes 1024 o.bytes) r.m } }).settle (.m d)
  | .scal d sgn => ({ c with regs := r.wg (BitVec.ofNat 6 d) (scalarOf sgn o.bytes) }).settle (.g d)
  | .tile d f t => ({ c with regs := { r with v := rput d (tileIn f t o.bytes) r.v } }).settle (.v d)
  | .scale => { c with replay := fillScale c.replay o.id o.bytes }
  | _ => c

/-- The pieces of a feed as they have come (R221). -/
def feedPieces : List (W64 × Nat) → List Byte → List (W64 × List Byte)
  | [], _ => []
  | (va, n) :: rest, bs => (va, bs.take n) :: feedPieces rest (bs.drop n)

/-- LOAD_DATA_RETURN (R67). -/
def Mach.dataReturn (m : Mach) (id : Nat) : Option Mach :=
  match m.rets.find? (fun o => o.id == id) with
  | none => none
  | some o =>
    let m1 : Mach := { m with rets := m.rets.filter (fun p => p.id != id) }
    some (match o.dest with
      | .feed op => m1.modCore (coreOf o.ctx) (fun c =>
          { c with mq := modWhere (fun p => p.id == op) (fun p => { p with came := feedPieces p.feed o.bytes }) c.mq })
      | _ => (m1.modCtx o.ctx (fun c => c.seenBySpin (fun d => d.takeData o))).finish id)

/-! ### The Bolter (R162 to R165) -/

/-- Bits of a payload, bit 7 of each byte first. -/
def bitsMsb (bs : List Byte) : List Bool := bs.flatMap (fun b => (List.range 8).map (fun i => b.getLsbD (7 - i)))

/-- A code of R163: the 1 bits before the next 0, then `k` bits; none when the payload is exhausted. -/
def riceCode (k : Nat) (l : List Bool) : Option (Nat × List Bool) :=
  let q := (l.takeWhile id).length
  let rest := l.drop (q + 1)
  if l.length ≤ q || rest.length < k then none
  else some (q * 2 ^ k + (rest.take k).foldl (fun a b => 2 * a + b2n b) 0, rest.drop k)

/-- `n` bytes expanded (R163). -/
def riceBytes (k : Nat) : Nat → List Bool → Option (List Byte)
  | 0, _ => some []
  | n + 1, l =>
    match riceCode k l with
    | none => none
    | some (u, rest) =>
      if 255 < u then none
      else (riceBytes k n rest).map (fun bs => (if u % 2 = 0 then BitVec.ofNat 8 (u / 2) else BitVec.ofNat 8 (256 - (u + 1) / 2)) :: bs)

/-- A slot of 4 KiB expanded and verified (R162, R163). -/
def expandSlot (b : List Byte) : Option (List Byte) :=
  let len := fieldAt b 0 2
  if len < 1 || 4080 < len || 7 < byteAt b 2 || byteAt b 3 != 0 || !zeroAt b 8 8 then none
  else
    match riceBytes (byteAt b 2) 4096 (bitsMsb ((b.drop 16).take len)) with
    | none => none
    | some out => if crc32c out = fieldAt b 4 4 then some out else none

/-- BOLTER_BLOCK_VERIFY (R163 to R165): the next block of the operation at the head of the core's queue is expanded, or its checksum
fault is reported against that operation's issue. -/
def Mach.bolter (m : Mach) (k : Nat) : Option Mach :=
  match (m.core k).mq with
  | [] => none
  | o :: _ =>
    match o.blocks with
    | [] => none
    | va :: rest =>
      match o.came.find? (fun p => p.1 == va) with
      | none => none
      | some p =>
        let reported := (m.team? o.rid (clusterOf o.ctx)).any (fun t => t.reports.any (fun r => r.ctx == o.ctx && r.no == o.no))
        match expandSlot p.2 with
        | some bs =>
          let new := fun (q : EngOp) => { q with blocks := rest, came := q.came.map (fun c => if c.1 == va then (va, bs) else c) }
          some (m.modCore k (fun c => { c with mq := modWhere (fun q => q.id == o.id) new c.mq }))
        | none => if reported then none else some (m.report o.ctx o.no o.pc (tcause 0x13 0 4 0 0 false) va)

/-! ### Meanings -/

def execEngineBegin (id : Nat) (s : State) : Res := s.event (fun m => m.engineBegin id)
def execVOpComplete (x : Nat) (s : State) : Res := s.event (fun m => m.vComplete x)
def execQcOpComplete (x : Nat) (s : State) : Res := s.event (fun m => m.qcComplete x)
def execMOpComplete (k : Nat) (s : State) : Res := s.event (fun m => m.mComplete k)
def execLocalPerform (id : Nat) (s : State) : Res := s.event (fun m => m.localPerform id)
def execLoadDataReturn (id : Nat) (s : State) : Res := s.event (fun m => m.dataReturn id)
def execBolterBlockVerify (k : Nat) (s : State) : Res := s.event (fun m => m.bolter k)

end Sys2Proof.Machine
end

