-- ==== Sys2Proof/Machine/Global.lean ====
section
/-! DEFINITION. Global memory: LG reads, stores, reductions and atomics as they perform at their homes or leave for another package
(R171, R234 to R243, R249, R297), `drain` (R187, R241), and table walks (R153, R158, R159). -/

namespace Sys2Proof.Machine

/-- The machine without the global operation `id`. -/
def Mach.dropGop (m : Mach) (id : Nat) : Mach := { m with gops := m.gops.filter (fun g => g.id != id) }

/-- The machine with `f` applied to the global operation `id`. -/
def Mach.modGop (m : Mach) (id : Nat) (f : GOp → GOp) : Mach := { m with gops := modWhere (fun g => g.id == id) f m.gops }

/-- The operations issued before `id`. -/
def Mach.beforeGop (m : Mach) (id : Nat) : List GOp := m.gops.takeWhile (fun g => g.id != id)

/-! ### Homes and order -/

/-- The home of a piece: another package, a CXL port, or an L2 slice (R148, R233). -/
def homeOf (g : Seg) : Nat :=
  match g.chip with
  | some c => 1024 + c.toNat
  | none => if cxlRange g.pa then 64 + g.pa % 0x100000000000 / 0x40000000000 else sliceOf g.pa

/-- Whether two pieces have a byte in common. -/
def Seg.meets (g h : Seg) : Bool := g.chip == h.chip && g.pa < h.pa + h.len && h.pa < g.pa + g.len

/-- Whether two operations have a byte in common. -/
def GOp.meets (g h : GOp) : Bool := g.segs.any (fun p => h.segs.any p.meets)

/-- Whether an operation touches a TSO page (R249). -/
def GOp.tso (g : GOp) : Bool := g.segs.any (fun q => leafTSO q.leaf)

/-- A committed store or reduction: an entry of a home channel (R239). -/
def GOp.isEntry (g : GOp) : Bool :=
  g.committed && (match g.act with
    | .store _ | .red _ _ => true
    | _ => false)

/-- A read that returns bytes; a prefetch returns none (R175). -/
def GOp.isRead (g : GOp) : Bool :=
  match g.act with
  | .read .none => false
  | .read _ => true
  | _ => false

def GOp.isRed (g : GOp) : Bool :=
  match g.act with
  | .red _ _ => true
  | _ => false

def GOp.isAmo (g : GOp) : Bool :=
  match g.act with
  | .amo .. => true
  | _ => false

def GOp.isCausal (g : GOp) : Bool :=
  match g.act with
  | .causal .. => true
  | _ => false

/-- Whether two entries travel in one home channel (R239): a handler's stores have their own (R313). -/
def GOp.channel (g h : GOp) : Bool :=
  g.direct == h.direct && g.rid == h.rid && g.cluster == h.cluster && (!g.direct || g.ctx == h.ctx) &&
    g.segs.any (fun p => h.segs.any (fun q => homeOf p == homeOf q))

/-- Whether `h`, sent by a handler, stands before its later operation `g` of one home (R313): stores, atomics and causal-token stores. -/
def GOp.directFirst (h g : GOp) : Bool :=
  h.direct && g.direct && h.ctx == g.ctx && !h.isRead && !h.isRed && !g.isRed && g.segs.any (fun p => h.segs.any (fun q => homeOf p == homeOf q))

/-- Whether an access to a scratchpad that the issue of an entry reads with has still to perform (R237). -/
def Mach.padFirst (m : Mach) (g : GOp) : Bool := m.locq.any (fun o => o.ctx == g.ctx && o.no == g.no && !o.storeOf g.no)

/-- Whether an entry must wait: its issue has not made its reads (R237), it is not at the head of its channel, a TSO entry of its team stands before it, an operation that its handler
has sent to its home has not performed, nor a read that its context issued before it, of one of its bytes or of a TSO page, nor one of a
context that has since read its bytes (R239, R240, R249, R313). A committed reduction stands in no channel: it has no order with other
entries (R256). -/
def Mach.entryWaits (m : Mach) (g : GOp) : Bool :=
  m.padFirst g || (m.beforeGop g.id).any (fun h =>
    (h.isEntry && !h.isRed && !g.isRed && (h.channel g || (h.rid == g.rid && h.cluster == g.cluster && g.tso && h.tso))) || h.directFirst g ||
      (h.isRead && h.ctx == g.ctx && (h.meets g || (g.tso && h.tso))) || (h.isRead && g.seen.contains h.ctx && h.meets g))

/-- The bytes of this package's memory that two operations share, by location and number. -/
def GOp.sharedBytes (g h : GOp) : List (Nat × Nat) :=
  g.segs.flatMap (fun p => (h.segs.filter (fun q => p.chip.isNone && p.meets q)).map (fun q => (max p.pa q.pa, min (p.pa + p.len) (q.pa + q.len) - max p.pa q.pa)))

/-- Whether the operation of a feed has begun (R245). -/
def Mach.feedBegun (m : Mach) (g : GOp) : Bool :=
  match g.act with
  | .read (.feed op) => (m.core (coreOf g.ctx)).mq.any (fun o => o.id == op && o.begun)
  | _ => true

/-- Whether a later read of its context may pass the read `h` (R240): it waits for nothing. -/
def Mach.passable (m : Mach) (h : GOp) : Bool := h.sent || (h.needs.isEmpty && m.feedBegun h)

/-- Whether a read must wait: for an earlier atomic of its context of one of its bytes, or an earlier read of one that it may not pass; when
it reads a TSO page, for all that do (R240, R249); a feed waits for its operation to begin (R245). -/
def Mach.readWaits (m : Mach) (g : GOp) : Bool :=
  (m.beforeGop g.id).any (fun h => h.ctx == g.ctx && ((h.isAmo && h.meets g) || (h.isRead && h.meets g && !m.passable h) ||
    ((h.isAmo || h.isRead) && g.tso && h.tso))) || !m.feedBegun g

/-- The reads that a read passes remember the bytes of this package that they share with it (R240). -/
def Mach.passReads (m : Mach) (g : GOp) : List GOp :=
  (m.beforeGop g.id).map (fun h => if h.ctx == g.ctx && h.isRead && !h.sent then { h with passed := h.passed ++ g.sharedBytes h } else h) ++
    m.gops.dropWhile (fun h => h.id != g.id)

/-- Nothing else of the team of an atomic is in flight that could still be struck by a fault, and none is reported, so that the second checkpoint
follows its perform step (R37, R177; log 19). A handler's makes no checkpoint (R313). -/
def Mach.nothingElse (m : Mach) (g : GOp) : Bool :=
  g.direct || (m.team? g.rid g.cluster).all (fun t => m.quietBut t g.id g.no && t.reports.isEmpty)

/-- Whether an atomic must wait: for every entry that its team committed before it, for every earlier atomic and causal store of its
context, and for its context's earlier reads of its bytes or, on a TSO page, of TSO pages (R243, R249). -/
def Mach.amoWaits (m : Mach) (g : GOp) : Bool :=
  (m.beforeGop g.id).any (fun h =>
    (h.isEntry && h.rid == g.rid && h.cluster == g.cluster) ||
      (h.ctx == g.ctx && (h.isAmo || h.isCausal || (h.isRead && (h.meets g || (g.tso && h.tso)))))) || !m.nothingElse g

/-! ### Requests to other packages (R297) -/

/-- The tags of a core that requests hold. -/
def Mach.tagsUsed (m : Mach) (k : Nat) : List Nat :=
  (m.gops.filter (fun g => coreOf g.ctx == k)).flatMap (fun g => g.reqs.map (fun q => q.tag))

/-- The lowest tag that is free. -/
def freeTag (used : List Nat) : Nat := ((List.range (used.length + 1)).find? (fun t => !used.contains t)).getD used.length

/-- Whether an operation holds a tag from its issue on (R67): a load, a prefetch that makes an access, an atomic, a causal store. Stores,
reductions and the feeds of M take theirs as they go to another package (R297). -/
def GOp.holdsTag (g : GOp) : Bool :=
  match g.act with
  | .store _ | .red _ _ | .read (.feed _) => false
  | .read .none => !g.segs.isEmpty
  | _ => true

/-- The tags that an operation holds: one for each request, one from its issue on where it holds that, one for a prefetch until its last
line is answered (R67, R175, R297). -/
def GOp.tags (g : GOp) : Nat :=
  if g.act == .read .none then b2n g.holdsTag else max (b2n g.holdsTag) g.reqs.length

/-- The tags that a core's requests hold (R67), of the one pool of 4,096 (R4, R297): one for each local access and each load whose data is under
way, and those of its global operations. A request that waits for its translation is among them (R158). -/
def Mach.tagsHeld (m : Mach) (k : Nat) : Nat :=
  (m.locq.filter (fun o => coreOf o.ctx == k)).length + (m.rets.filter (fun o => coreOf o.ctx == k)).length +
    ((m.gops.filter (fun g => coreOf g.ctx == k)).map GOp.tags).foldl (fun a b => a + b) 0

/-- Whether operation `id` may take a tag for one more request: its first takes the one that it holds, another needs one of those not in
use (R4, R67, R297). -/
def Mach.tagFree (m : Mach) (k id : Nat) : Bool :=
  m.gops.any (fun g => g.id == id && g.holdsTag && g.reqs.isEmpty) || decide (m.tagsHeld k < 4096)

/-- A tag allocated for piece `off` of operation `id` of core `k`: its generation advances (R297); none while all 4,096 are in use. -/
def Mach.allocTag (m : Mach) (k id off : Nat) : Option (Req × Mach) :=
  let t := freeTag (m.tagsUsed k)
  if 4096 ≤ t || !m.tagFree k id then none
  else
    let gen := rget t (m.core k).tagGen + 1
    let q : Req := { off := off, tag := t, gen := gen, due := m.pkg.deadline }
    some (q, (m.modCore k (fun c => { c with tagGen := rput t gen c.tagGen })).modGop id (fun g => { g with sent := true, reqs := g.reqs ++ [q] }))

/-- The tag of a piece of operation `id`: a fresh one, or, for the further pieces of a prefetch, the one it holds (R175). -/
def Mach.pieceTag (m : Mach) (k id off : Nat) : Option (Req × Mach) :=
  match (m.gops.find? (fun g => g.id == id && g.act == .read .none)).bind (fun g => g.reqs.head?) with
  | some r => some ({ r with off := off }, m.modGop id (fun g => { g with reqs := g.reqs ++ [{ r with off := off }] }))
  | none => m.allocTag k id off

/-- A request for a piece sent to its home package. -/
def Mach.request (m : Mach) (g : GOp) (q : Seg) (chip : BitVec 12) (kind : RemKind) : Option Mach :=
  (m.pieceTag (coreOf g.ctx) g.id q.off).map (fun p =>
    p.2.post chip (.remote chip { src := m.pkg.chip, core := BitVec.ofNat 8 (coreOf g.ctx), tag := p.1.tag, gen := p.1.gen, pa := q.pa,
                                  kind := kind }))

/-! ### Reads (R240) -/

/-- The bytes of a read: those of its team's stores stand before its homes'. -/
def GOp.bytes (g : GOp) : List Byte :=
  g.segs.flatMap (fun q =>
    let home := (kget q.off g.got).getD []
    (List.range q.len).map (fun i => (kget (q.off + i) g.own).getD (home.getD i 0)))

/-- Whether a piece of a read still needs its home: a piece that the team's stores cover does not (R240). -/
def GOp.away (g : GOp) (q : Seg) : Bool :=
  q.chip.isSome && !(List.range q.len).all (fun i => (kget (q.off + i) g.own).isSome)

/-- The pieces of a read that are still to be asked for at another package. -/
def GOp.unasked (g : GOp) : List Seg :=
  g.segs.filter (fun q => g.away q && (kget q.off g.got).isNone && !g.reqs.any (fun r => r.off == q.off))

/-- Whether two reads share a byte of another package. -/
def GOp.sharesAway (g h : GOp) : Bool := g.segs.any (fun p => p.chip.isSome && h.segs.any p.meets)

/-- Whether an earlier read of its context shares a byte of another package with the read `g` and has not delivered its data: the homes
may have served the two in either order, and `g` waits to be held against it (R240). -/
def Mach.readHeld (m : Mach) (g : GOp) : Bool := (m.beforeGop g.id).any (fun h => h.ctx == g.ctx && h.isRead && h.sharesAway g)

/-- The byte of another package that a read has got for place `i` of its access; none where its team's stores gave it, or none has come. -/
def GOp.awayByte (g : GOp) (i : Nat) : Option Byte :=
  g.segs.findSome? (fun q =>
    if q.chip.isSome && q.off ≤ i && i < q.off + q.len && (kget i g.own).isNone then (kget q.off g.got).bind (fun bs => bs[i - q.off]?)
    else none)

/-- The bytes that the read `h` shares with the earlier read `g` at another package, by their place in `h`, as `g` has got them. -/
def GOp.learned (h g : GOp) : List (Nat × Byte) :=
  h.segs.flatMap (fun q => if q.chip.isNone then [] else
    (g.segs.filter q.meets).flatMap (fun p => (List.range q.len).filterMap (fun i =>
      if p.pa ≤ q.pa + i && q.pa + i < p.pa + p.len then (g.awayByte (p.off + (q.pa + i - p.pa))).map (fun b => (q.off + i, b)) else none)))

/-- Whether a read has got the same as the earlier reads that it shares bytes of another package with (R240). -/
def GOp.agrees (g : GOp) : Bool := g.prior.all (fun p => (g.awayByte p.1).all (fun b => b == p.2))

/-- The data of a read that is whole is on its way; the later reads of its context learn what it has got (R240). -/
def Mach.deliverRead (m : Mach) (g : GOp) (dest : Dest) : Mach :=
  let slot := if g.isFeed then 4 else 10
  let m1 := if g.isFeed then m
    else m.spinLoad g.ctx (g.segs.flatMap (fun q => linesOf q.pa q.len)) (g.segs.all (fun q => q.chip.isNone && !leafCXL q.leaf)) g.bytes
  let m2 := m1.dropGop g.id
  { m2 with
    gops := m2.gops.map (fun h => if h.ctx == g.ctx && h.isRead && g.id < h.id then { h with prior := h.prior ++ h.learned g } else h)
    rets := m2.rets ++ [{ id := g.id, ctx := g.ctx, slot := slot, dest := dest, bytes := g.bytes }] }

/-- A read whose every piece has come (R240): its data is on its way, or a prefetch is answered. It waits for the earlier reads that it shares
bytes of another package with; where one of them has got a byte that differs, it asks for those pieces again. -/
def Mach.readDone (m : Mach) (id : Nat) : Mach :=
  match m.gops.find? (fun g => g.id == id) with
  | none => m
  | some g =>
    if g.segs.all (fun q => (kget q.off g.got).isSome) then
      match g.act with
      | .read .none => (m.dropGop id).finish id
      | .read dest =>
        if m.readHeld g then m
        else if g.agrees then m.deliverRead g dest
        else m.modGop id (fun h => { h with prior := [], got := h.got.filter (fun p => !h.segs.any (fun q => q.off == p.1 && h.away q)) })
      | _ => m
    else m

/-- A piece of a read asked for at its home, if a tag is free. -/
def Mach.askPiece (m : Mach) (g : GOp) (q : Seg) : Option Mach := q.chip.bind (fun c => m.request g q c (.load q.len))

/-- The first perform step of a read (R240): the pieces at home are read, those at another package are asked for as far as tags are free. -/
def Mach.readFirst (m : Mach) (g : GOp) : Mach :=
  let here := (g.segs.filter (fun q => !g.away q)).map (fun q =>
    (q.off, (kget q.off g.got).getD (if q.chip.isSome then zeroBytes q.len else readBytes m.mem q.pa q.len)))
  let m0 : Mach := { m with gops := m.passReads g }
  let m1 := (m0.modGop g.id (fun h => { h with sent := true, got := here })).serve g.rid
    ((g.segs.filter (fun q => q.chip.isNone)).map (fun q => q.pa))
  ((g.segs.filter g.away).foldl (fun acc q => (acc.askPiece g q).getD acc) m1).readDone g.id

/-- LG_READ_PERFORM (R240): the first step of a read, or a further piece asked for, or the data of one that was held goes on its way. -/
def Mach.readPerform (m : Mach) (id : Nat) : Option Mach :=
  match m.gops.find? (fun g => g.id == id && g.needs.isEmpty) with
  | none => none
  | some g =>
    match g.act with
    | .read _ =>
      if !g.sent then (if m.readWaits g then none else some (m.readFirst g))
      else match g.unasked with
        | q :: _ => m.askPiece g q
        | [] => if g.reqs.isEmpty && !m.readHeld g then some (m.readDone id) else none
    | _ => none

/-- A read that failed (R297): a prefetch is dropped; another read is the fabric access fault of its issue. -/
def Mach.readFail (m : Mach) (g : GOp) (q : Seg) (status : Nat) : Mach :=
  let m1 := (m.dropGop g.id).finish g.id
  match g.act with
  | .read .none => m1.count g.rid 1 1
  | _ => m1.report g.ctx g.no g.pc (tcause 0x14 0 (if g.isFeed then 4 else 10) status 0 false) q.va

/-! ### Stores and reductions (R239, R256, R299) -/

/-- The contribution of a line of a reduction: word `i` of the line by its number. -/
def redWords (pa : Nat) (ws : List W32) : List (Nat × W32) := List.zip ((List.range ws.length).map (fun i => pa % 64 / 4 + i)) ws

/-- A reduction leaves for the router of its home package (R299); for another package it holds a tag (R297). -/
def Mach.sendRed (m : Mach) (g : GOp) (q : Seg) (op : RedOp) (ws : List W32) : Option Mach :=
  let pkt : RedPkt := { src := m.pkg.chip, core := BitVec.ofNat 8 (coreOf g.ctx), tag := g.id, gen := 0, tenant := m.tenantOf g.rid, op := op,
                        line := lineOf q.pa, words := redWords q.pa ws }
  match q.chip with
  | none => some ((m.modGop g.id (fun h => { h with sent := true })).post m.pkg.chip (.red m.pkg.chip pkt))
  | some c => (m.allocTag (coreOf g.ctx) g.id q.off).map (fun p => p.2.post c (.red c { pkt with tag := p.1.tag, gen := p.1.gen }))

/-- A causal-token store leaves for its home (R236, R251); for another package it holds a tag (R297). -/
def Mach.sendCausal (m : Mach) (g : GOp) (q : Seg) (seq : Option (BitVec 16)) (carries : List (BitVec 16)) (deadline : Nat)
    (bs : List Byte) : Option Mach :=
  let pkt : CausalPkt := { src := m.pkg.chip, ctx := g.ctx, tag := g.id, gen := 0, seq := seq, carries := carries, deadline := deadline,
                           va := q.va, pa := q.pa, bytes := bs }
  match q.chip with
  | none => some ((m.modGop g.id (fun h => { h with sent := true })).post m.pkg.chip (.causal m.pkg.chip pkt))
  | some c => (m.allocTag (coreOf g.ctx) g.id q.off).map (fun p => p.2.post c (.causal c { pkt with tag := p.1.tag, gen := p.1.gen }))

/-- Whether a causal-token store must wait: its second checkpoint has not been taken (R37, R177), or, of a handler's, its issue has not made its
reads (R237), or an operation that the handler has sent to its home has not performed (R313). -/
def Mach.causalWaits (m : Mach) (g : GOp) : Bool :=
  if g.direct then m.padFirst g || (m.beforeGop g.id).any (fun h => h.directFirst g)
  else (m.team? g.rid g.cluster).any (fun t => decide (t.cut ≤ g.no))

/-- HOME_PERFORM (R239): the head of a home channel performs at its home, or leaves for it; a causal-token store leaves for its home. -/
def Mach.homePerform (m : Mach) (id : Nat) : Option Mach :=
  match m.gops.find? (fun g => g.id == id && g.committed && g.needs.isEmpty && !g.sent) with
  | none => none
  | some g =>
    match g.segs, g.act with
    | [q], .store bs =>
      if m.entryWaits g then none
      else match q.chip with
        | none => some (((m.store q.pa bs).serve g.rid [q.pa]).dropGop id)
        | some c => m.request g q c (.store bs)
    | [q], .red op ws => if m.entryWaits g then none else m.sendRed g q op ws
    | [q], .causal seq carries deadline bs =>
      if m.causalWaits g then none else m.sendCausal g q seq carries deadline bs
    | _, _ => none

/-! ### Atomics (R243) -/

/-- The old value of an atomic on its way to its destination; its token reads complete (R245). -/
def Mach.amoDone (m : Mach) (g : GOp) (rd : Nat) (old : List Byte) : Mach :=
  let m1 := (m.dropGop g.id).finish g.id
  { m1 with rets := m1.rets ++ [{ id := g.id, ctx := g.ctx, slot := 10, dest := .scal rd false, bytes := old }] }

/-- LG_ATOMIC_PERFORM (R243): one indivisible read-modify-write at the home, or a request to it. -/
def Mach.atomicPerform (m : Mach) (id : Nat) : Option Mach :=
  match m.gops.find? (fun g => g.id == id && g.needs.isEmpty && !g.sent) with
  | none => none
  | some g =>
    match g.segs, g.act with
    | [q], .amo op b c rd =>
      if m.amoWaits g then none
      else
        match q.chip with
        | some chip => m.request g q chip (.amo op b c)
        | none =>
          let old : W64 := BitVec.ofNat 64 (m.load q.pa 8)
          let m1 := match amoNew op old b c with
            | some v => m.store q.pa (vecLE 8 v)
            | none => m
          some ((m1.serve g.rid [q.pa]).amoDone g rd (vecLE 8 old))
    | _, _ => none

/-- A store, reduction or atomic that failed (R297): it is dropped, and its context's pending transfer fault is set; an atomic's
destination receives 0. -/
def Mach.writeFail (m : Mach) (g : GOp) (q : Seg) : Mach :=
  let m1 := m.modCtx g.ctx (fun c => c.transferFault 0x24 q.va)
  match g.act with
  | .amo _ _ _ rd => m1.amoDone g rd (zeroBytes 8)
  | _ => m1.dropGop g.id

/-! ### `drain` (R187, R241) -/

/-- DRAIN_COMPLETE (R187): everything that the drain waits for has performed, been dropped or expired, its tokens are complete, and the LG
operations that waited before it have gone (R245): a read among them has begun. -/
def Mach.drained (m : Mach) (x : Nat) : Option Mach :=
  match (m.ctx x).drains with
  | [] => none
  | (id, _) :: rest =>
    let waits := fun (k : Nat) => m.gops.any (fun g => g.id == k && (match g.act with
      | .read _ => !g.needs.isEmpty
      | _ => true))
    if rest.any (fun p => if p.2 then m.inFlight p.1 else waits p.1) then none
    else some ((m.modCtx x (fun c => { c with drains := [] })).finish id)

/-! ### Table walks (R153, R158, R159) -/

/-- Entries that a cluster's TLB and a core's micro-TLB hold (R158). -/
abbrev tlbPlaces : Nat := 4096
abbrev utlbPlaces : Nat := 64

/-- A translation enters the micro-TLB of core `k`; the oldest makes room. The sequencers have none (log 79). -/
def Mach.fillMicro (m : Mach) (k : Nat) (e : TlbEnt) : Mach :=
  if k = sequencerCore then m
  else m.modCore k (fun c => { c with utlb := (c.utlb ++ [e]).drop (c.utlb.length + 1 - utlbPlaces) })

/-- A translation enters its cluster's TLB; the oldest makes room. -/
def Mach.fillCluster (m : Mach) (e : TlbEnt) : Mach :=
  let mine := fun (t : TlbEnt) => t.cluster == e.cluster
  let old := if tlbPlaces ≤ (m.pkg.tlb.filter mine).length then ((takeFirst mine m.pkg.tlb).map (fun p => p.2)).getD m.pkg.tlb else m.pkg.tlb
  m.modPkg (fun p => { p with tlb := old ++ [e] })

/-- PAGE_WALK_COMPLETE (R153, R158): a translation comes to the micro-TLB of core `k`, from its cluster's TLB or from a walk that ends well; a
fault is not cached (R159), and each access that takes it does so at its own issue. -/
def Mach.walked (m : Mach) (k : Nat) (root : W64) (va : W64) : Option Mach :=
  if sequencerCore < k || 2 ^ 57 ≤ va.toNat || (m.core k).utlb.any (fun t => t.covers root va.toNat) then none
  else
    match m.clusterEntry (k / 8) root va.toNat with
    | some e => if k = sequencerCore then none else some (m.fillMicro k e)
    | none =>
      match m.walk root va.toNat with
      | .error _ => none
      | .ok (e, sz) =>
        let t : TlbEnt := { cluster := k / 8, root := root, va := BitVec.ofNat 64 (va.toNat / sz * sz), size := sz, leaf := e }
        some ((m.fillCluster t).fillMicro k t)

/-! ### Meanings -/

def execHomePerform (id : Nat) (s : State) : Res := s.event (fun m => m.homePerform id)
def execLgReadPerform (id : Nat) (s : State) : Res := s.event (fun m => m.readPerform id)
def execLgAtomicPerform (id : Nat) (s : State) : Res := s.event (fun m => m.atomicPerform id)
def execDrainComplete (x : Nat) (s : State) : Res := s.event (fun m => m.drained x)
def execPageWalkComplete (k : Nat) (root va : W64) (s : State) : Res := s.event (fun m => m.walked k root va)

end Sys2Proof.Machine
end

