-- ==== Sys2Proof/Machine/Fabric.lean ====
section
/-! DEFINITION. Requests and replies over the fabric (R297), undeliverable notices (R298), and the words and requests of link FIFO pairs
(R292 to R296, R244). -/

namespace Sys2Proof.Machine

/-! ### Remote accesses (R297) -/

/-- The outstanding request that a tag and a generation of a core match. -/
def Mach.findReq (m : Mach) (core : BitVec 8) (tag : Nat) (gen : BitVec 4) : Option (GOp × Req) :=
  (m.gops.filter (fun g => coreOf g.ctx == core.toNat)).findSome? (fun g =>
    (g.reqs.find? (fun q => q.tag == tag && q.gen == gen)).map (fun q => (g, q)))

/-- The run that a stale reply to a core is counted for: that of its lowest context (R42). -/
def Mach.runOn (m : Mach) (core : Nat) : Nat :=
  (((List.range 4).find? (fun i => (m.ctx (4 * core + i)).status != .absent)).map (fun i => (m.ctx (4 * core + i)).rid)).getD 0

/-- A causal store that has performed, been dropped or expired (R234, R245). -/
def Mach.endCausal (m : Mach) (id : Nat) : Mach := (m.dropGop id).finish id

/-- The piece that a request serves. -/
def GOp.piece (g : GOp) (q : Req) : Seg :=
  (g.segs.find? (fun p => p.off == q.off)).getD { off := 0, len := 0, va := 0, pa := 0, chip := none, leaf := 0 }

/-- A request answered with STATUS of R295: 0 for an access that performed (R297). -/
def Mach.answered (m : Mach) (g : GOp) (q : Req) (status : Nat) (data : List Byte) : Mach :=
  let p := g.piece q
  let m1 := m.modGop g.id (fun h => { h with reqs := h.reqs.filter (fun r => r != q) })
  match g.act with
  | .read _ =>
    if status = 0 then (m1.modGop g.id (fun h => { h with got := kput q.off ((data ++ zeroBytes p.len).take p.len) h.got })).readDone g.id
    else m1.readFail g p status
  | .amo _ _ _ rd => if status = 0 then m1.amoDone g rd ((data ++ zeroBytes 8).take 8) else m1.writeFail g p
  | .causal .. => if status = 0 then m1.endCausal g.id else (m1.endCausal g.id).modCtx g.ctx (fun c => c.expire p.va [])
  | _ => if status = 0 then m1.dropGop g.id else m1.writeFail g p

/-- A read, write or atomic of `kind` at local address `pa` (R297): the status, the bytes returned, and the machine after it. -/
def Mach.serveAt (m : Mach) (pa : Nat) (kind : RemKind) : BitVec 4 × List Byte × Mach :=
  let n := match kind with
    | .load n => n
    | .store bs => bs.length
    | .amo .. => 8
  if !(populated pa && populated (pa + n - 1)) then (1, [], m)
  else
    match kind with
    | .load n => (0, readBytes m.mem pa n, m)
    | .store bs => (0, [], m.store pa bs)
    | .amo op b c =>
      let old : W64 := BitVec.ofNat 64 (m.load pa 8)
      (0, vecLE 8 old, match amoNew op old b c with
        | some v => m.store pa (vecLE 8 v)
        | none => m)

/-- REMOTE_REQUEST_ARRIVE (R297): served at its home, whose population is checked here (R155). -/
def Mach.serveRemote (m : Mach) (r : RemReq) : Option Mach :=
  m.arrive r.src (.remote m.pkg.chip r) (fun m1 =>
    let (st, bs, m2) := m1.serveAt r.pa r.kind
    some (m2.post r.src (.reply r.src r.core r.tag r.gen st bs)))

/-- Whether an access reads memory that its home has, so that an uncorrectable error there can strike it (R297, R320). -/
def readsAt (pa : Nat) : RemKind → Bool
  | .load n => populated pa && populated (pa + n - 1)
  | .store _ => false
  | .amo .. => populated pa

/-- A request whose home finds an uncorrectable error in what it reads: STATUS 4, and it does nothing (R295, R297). -/
def Mach.failRemote (m : Mach) (r : RemReq) : Option Mach :=
  if readsAt r.pa r.kind then
    m.arrive r.src (.remote m.pkg.chip r) (fun m1 => some (m1.post r.src (.reply r.src r.core r.tag r.gen 4 [])))
  else none

/-- A stale reply to core `k` counted (R297). -/
def Mach.stale (m : Mach) (k : Nat) : Mach := m.count (m.runOn k) 2 1


/-- REMOTE_REPLY_ARRIVE (R297). -/
def Mach.replyArrive (m : Mach) (core : BitVec 8) (tag : Nat) (gen status : BitVec 4) (data : List Byte) : Option Mach :=
  m.replied (.reply m.pkg.chip core tag gen status data) (fun m1 => some (match m1.findReq core tag gen with
    | some (g, q) => m1.answered g q status.toNat data
    | none => m1.stale core.toNat))

/-- REMOTE_REQUEST_TIMEOUT (R297): the deadline of the request has passed. A `st.lg.c` times out with its own entry (R255). -/
def Mach.requestTimeout (m : Mach) (core : BitVec 8) (tag : Nat) : Option Mach :=
  match (m.gops.filter (fun g => coreOf g.ctx == core.toNat)).findSome? (fun g =>
      (g.reqs.find? (fun q => q.tag == tag && decide (q.due ≤ m.pkg.ftime))).map (fun q => (g, q))) with
  | none => none
  | some (g, q) =>
    match g.act with
    | .causal (some _) _ _ _ => none
    | _ => some (m.answered g q 2 [])

/-! ### Link FIFO pairs (R293 to R296) -/

/-- Whether a push to link `k` of a core may still be taken back: its second checkpoint has not been made (R37). -/
def Team.unsure (t : Team) (core k no : Nat) : Bool :=
  decide (t.cut ≤ no) && t.undo.any (fun u => match u with
    | .pushed c n _ _ => c == core && n == k
    | _ => false)

/-- Whether a word pushed under `mark` to link `k` must wait: an entry that its team committed before the push, or an earlier atomic or
causal store of its context, has not performed (R244), or a rollback would still take it back (R37). -/
def Mach.pushWaits (m : Mach) (core k mark : Nat) : Bool :=
  let x := 4 * core + mark % 4
  m.gops.any (fun g => g.no < mark / 4 &&
    ((g.isEntry && g.rid == (m.ctx x).rid && g.cluster == clusterOf x) || (g.ctx == x && (g.isAmo || g.isCausal)))) ||
    (m.team? (m.ctx x).rid (clusterOf x)).any (fun t => t.unsure core k (mark / 4))

/-- Words popped from link `k` of a core that a rollback would put back (R37): their places are kept. -/
def Mach.popped (m : Mach) (core k : Nat) : Nat :=
  (m.teams.map (fun t => (t.undo.filter (fun u => match u with
    | .popped c n _ => c == core && n == k
    | _ => false)).length)).foldl (fun a b => a + b) 0

/-- The outstanding bit and the deadline of a request that leaves (R296): a tag that has been used again is another request's. -/
def Link.left (l : Link) (tag : Nat) (gen : BitVec 4) (due : Nat) : Link :=
  if (kget tag l.out_).isSome ∧ rget tag l.gen = gen then { l with out_ := kput tag due l.out_ } else l

/-- LINK_PUSH_DEPART (R244, R293, R294): the word at the head of an outbound FIFO leaves in MODE 0; the whole request at its head does in
MODE 1. -/
def Mach.pushDepart (m : Mach) (core k : Nat) : Option Mach :=
  match ((m.core core).link k).outb with
  | [] => none
  | (w, mark, bind) :: rest =>
    let pop := fun (n : Nat) => m.modCore core (fun c => c.modLink k (fun l => { l with outb := l.outb.drop n }))
    if linkMode bind = 0 then
      if m.pushWaits core k mark then none
      else some ((pop 1).post (linkChip bind) (.linkWord (linkChip bind)
        { src := m.pkg.chip, srcCore := BitVec.ofNat 8 core, core := bind.extractLsb' 0 8, link := BitVec.ofNat 3 k, word := w }))
    else
      let n := requestWords (w.extractLsb' 60 4).toNat
      if rest.length + 1 < n || (rest.take (n - 1)).any (fun p => m.pushWaits core k p.2.1) || m.pushWaits core k mark then none
      else
        let arg := fun (i : Nat) => ((rest.getD i (0, 0, 0)).1 : W64)
        let tag := w.extractLsb' 48 12
        let gen := w.extractLsb' 44 4
        let r : LinkReq := { src := m.pkg.chip, core := BitVec.ofNat 8 core, link := BitVec.ofNat 3 k, op := w.extractLsb' 60 4, tag := tag, gen := gen,
                             pa := (arg 0).toNat, opnd := if 3 ≤ n then arg 1 else 0, cmp := if 4 ≤ n then arg 2 else 0 }
        some (((pop n).modCore core (fun c => c.modLink k (fun l => l.left tag.toNat gen m.pkg.deadline))).post (linkChip bind)
          (.linkReq (linkChip bind) r))

/-- A word that came before `w` on its pair is still under way inside the package (R292). -/
def Mach.wordBefore (m : Mach) (w : LinkWord) : Bool :=
  match m.net.find? (fun x => match x with
    | .linkWord _ v => v.srcCore == w.srcCore && v.link == w.link && v.core == w.core
    | _ => false) with
  | some (.linkWord _ v) => w.src == m.pkg.chip && v != w
  | _ => false

/-- LINK_WORD_ARRIVE (R293): a full FIFO takes no word yet. -/
def Mach.linkWord (m : Mach) (w : LinkWord) : Option Mach :=
  let l := (m.core w.core.toNat).link w.link.toNat
  let partner := l.holder.isSome && linkMode l.bind == 0 && linkChip l.bind == w.src && l.bind.extractLsb' 0 8 == w.srcCore
  if m.wordBefore w || (partner && decide (Config.linkWords ≤ l.inb.length + m.popped w.core.toNat w.link.toNat)) then none
  else m.arrive w.src (.linkWord m.pkg.chip w) (fun m1 => some (
    if partner then m1.modCore w.core.toNat (fun c => c.modLink w.link.toNat (fun q => { q with inb := q.inb ++ [w.word] }))
    else m1.foreign w.core.toNat))

/-- What a request does at its home (R294, R176); a reserved operation does nothing. -/
def requestKind (r : LinkReq) : Option RemKind :=
  match r.op.toNat with
  | 1 => some (.load 8)
  | 2 => some (.store (vecLE 8 r.opnd))
  | 3 => some (.amo .add r.opnd 0)
  | 4 => some (.amo .min r.opnd 0)
  | 5 => some (.amo .max r.opnd 0)
  | 6 => some (.amo .and r.opnd 0)
  | 7 => some (.amo .or r.opnd 0)
  | 8 => some (.amo .xor r.opnd 0)
  | 9 => some (.amo .swp r.opnd 0)
  | 10 => some (.amo .cas r.opnd r.cmp)
  | _ => none

/-- The status word of a reply (R295). -/
def statusWord (status gen : BitVec 4) (tag : BitVec 12) : W64 := status ++ tag ++ gen ++ (0 : BitVec 44)

/-- A request that came before `r` on its pair is still under way inside the package (R294). -/
def Mach.requestBefore (m : Mach) (r : LinkReq) : Bool :=
  match m.net.find? (fun x => match x with
    | .linkReq _ v => v.core == r.core && v.link == r.link
    | _ => false) with
  | some (.linkReq _ v) => r.src == m.pkg.chip && v != r
  | _ => false

/-- The two words that answer a link request (R295). -/
def Mach.linkAnswer (m : Mach) (r : LinkReq) (st : BitVec 4) (bs : List Byte) : Mach :=
  m.post r.src (.linkReply r.src r.core r.link (statusWord st r.gen r.tag) (BitVec.ofNat 64 (leNat bs)))

/-- LINK_REQUEST_SERVE (R294, R295): performed, then answered with two words. -/
def Mach.linkServe (m : Mach) (r : LinkReq) : Option Mach :=
  match requestKind r with
  | none => none
  | some kind =>
    if m.requestBefore r then none
    else m.arrive r.src (.linkReq m.pkg.chip r) (fun m1 =>
      let (st, bs, m2) := m1.serveAt r.pa kind
      some (m2.linkAnswer r st bs))

/-- A link request whose home finds an uncorrectable error in what it reads: STATUS 4, and it does nothing (R295). -/
def Mach.failLink (m : Mach) (r : LinkReq) : Option Mach :=
  if (requestKind r).any (readsAt r.pa) && !m.requestBefore r then
    m.arrive r.src (.linkReq m.pkg.chip r) (fun m1 => some (m1.linkAnswer r 4 []))
  else none

/-- A reply taken by a pair (R296): delivered when it matches an outstanding request, else stale; none while the FIFO is full. -/
def Mach.takeReply (m : Mach) (core k : Nat) (status data : W64) : Option Mach :=
  let l := (m.core core).link k
  let tag := (status.extractLsb' 48 12).toNat
  if (kget tag l.out_).isSome ∧ rget tag l.gen = status.extractLsb' 44 4 then
    if Config.linkWords < l.inb.length + m.popped core k + 2 then none
    else some (m.modCore core (fun c => c.modLink k (fun q => { q with inb := q.inb ++ [status, data], out_ := kdel tag q.out_ })))
  else some (match l.holder with
    | some r => m.count r 2 1
    | none => m)

/-- A reply that came before this one on its pair is still under way inside the package (R292). -/
def Mach.replyBefore (m : Mach) (core k : Nat) (status data : W64) : Bool :=
  match m.net.find? (fun x => match x with
    | .linkReply _ c n _ _ => c.toNat == core && n.toNat == k
    | _ => false) with
  | some (.linkReply _ _ _ s d) => !(s == status && d == data)
  | _ => false

/-- LINK_REPLY_ARRIVE (R292, R296). -/
def Mach.linkReply (m : Mach) (core k : Nat) (status data : W64) : Option Mach :=
  if m.replyBefore core k status data then none
  else m.replied (.linkReply m.pkg.chip (BitVec.ofNat 8 core) (BitVec.ofNat 3 k) status data) (fun m1 => m1.takeReply core k status data)

/-- LINK_REQUEST_TIMEOUT (R296): STATUS 2 under the generation of the tag. -/
def Mach.linkTimeout (m : Mach) (core k : Nat) (tag : BitVec 12) : Option Mach :=
  let l := (m.core core).link k
  match kget tag.toNat l.out_ with
  | none => none
  | some due => if due = 0 ∨ m.pkg.ftime < due then none else m.takeReply core k (statusWord 2 (rget tag.toNat l.gen) tag) 0

/-! ### Undeliverable notices (R298) -/

/-- Units that could not be delivered come back to P (R361). DESIGN CHOICE (log 113): no cap stops them, so P may pass 4,800. -/
def Mach.addUnits (m : Mach) (n : Nat) : Mach := m.modPkg (fun p => { p with p := p.p + n })

/-- UNDELIVERABLE_NOTICE (R298): what the notice names fails; a notice that matches nothing outstanding is stale. Of a packet in
transit it says only that the packet is gone (R290). -/
def Mach.undeliverable (m : Mach) (n : Notice) : Option Mach :=
  m.replied (.undeliverable m.pkg.chip n) (fun m1 =>
    match n with
    | .transfer core tid => some ((m1.endXfer core.toNat tid (fun _ => false)).getD m1)
    | .access core tag gen => some (match m1.findReq core tag gen with
      | some (g, q) => m1.answered g q 3 []
      | none => m1.stale core.toNat)
    | .link core k tag gen => m1.takeReply core.toNat k.toNat (statusWord 3 gen tag) 0
    | .units k => some (m1.addUnits k)
    | .packet _ => some m1)

/-! ### Meanings -/

def execRemoteRequestArrive (r : RemReq) (s : State) : Res := s.event (fun m => m.serveRemote r)
def execRemoteReplyArrive (c : BitVec 8) (t : Nat) (g st : BitVec 4) (d : List Byte) (s : State) : Res :=
  s.event (fun m => m.replyArrive c t g st d)
def execRemoteRequestTimeout (c : BitVec 8) (t : Nat) (s : State) : Res := s.event (fun m => m.requestTimeout c t)
def execLinkPushDepart (c : Nat) (k : BitVec 3) (s : State) : Res := s.event (fun m => m.pushDepart c k.toNat)
def execLinkWordArrive (w : LinkWord) (s : State) : Res := s.event (fun m => m.linkWord w)
def execLinkRequestServe (r : LinkReq) (s : State) : Res := s.event (fun m => m.linkServe r)
def execLinkReplyArrive (c : Nat) (k : BitVec 3) (st d : W64) (s : State) : Res := s.event (fun m => m.linkReply c k.toNat st d)
def execLinkRequestTimeout (c : Nat) (k : BitVec 3) (t : BitVec 12) (s : State) : Res := s.event (fun m => m.linkTimeout c k.toNat t)
def execUndeliverableNotice (n : Notice) (s : State) : Res := s.event (fun m => m.undeliverable n)

end Sys2Proof.Machine
end

