-- ==== Sys2Proof/Machine/Causal.lean ====
section
/-! DEFINITION. Causal tokens (R251 to R255): causal stores as they arrive and perform, the token table, the Sluice, and the notices,
queries, answers and deadlines that pass between the packages concerned. -/

namespace Sys2Proof.Machine

/-- A lost or dropped causal store reported to context `x`, if it is resident (R255). -/
def Mach.expireAt (m : Mach) (x : Nat) (va : W64) (lost : List (BitVec 16)) : Mach :=
  if (m.ctx x).status == .absent then m else m.modCtx x (fun c => c.expire va lost)

/-- A causal store dropped at its destination: its context is sent an expiry notice (R254), which says what it answers (R297, R298). -/
def Mach.dropCausal (m : Mach) (p : CausalPkt) : Mach := m.post p.src (.expiry p.src p.ctx p.va p.tag p.gen)

/-- The packages that wait on an own entry are answered (R254, R255). -/
def Mach.answerAll (m : Mach) (seq : BitVec 16) (landed : Bool) (ds : List (BitVec 12)) : Mach :=
  ds.foldl (fun (acc : Mach) d => acc.post d (.answer d seq landed)) m

/-- The `st.lg.c` that was assigned `seq` is no longer outstanding. -/
def Mach.endToken (m : Mach) (seq : BitVec 16) : Mach :=
  match m.gops.find? (fun g => match g.act with
    | .causal (some n) _ _ _ => n == seq
    | _ => false) with
  | some g => m.endCausal g.id
  | none => m

/-- A landing notice takes effect (R254): a PENDING own entry becomes LANDED and answers those that wait; with none waiting any longer
it is freed (R252). -/
def Mach.noticeLanded (m : Mach) (seq : BitVec 16) : Mach :=
  match kget seq.toNat m.pkg.own with
  | none => m
  | some e =>
    if e.state == .pending then
      ((m.endToken seq).modPkg (fun p => { p with own := kdel seq.toNat p.own })).answerAll seq true e.waiting
    else m

/-- The landed record that a `st.lg.c` of another package leaves here (R252), while the table has room. -/
def Pkg.record (p : Pkg) (c : CausalPkt) (seq : BitVec 16) : Pkg :=
  if p.own.length + p.landed.length < Config.tokenPlaces then
    { p with landed := p.landed ++ [{ chip := c.src, seq := seq, deadline := c.deadline }] }
  else p

/-- A causal store performs at its home (R234, R254, R155). Its issuer learns of it: by a landing notice for a `st.lg.c`, by a reply for
a `st.lg.k`; inside one package at once. -/
def Mach.performCausal (m : Mach) (p : CausalPkt) : Mach :=
  let reply := fun (m : Mach) (st : BitVec 4) => m.post p.src (.reply p.src (BitVec.ofNat 8 (coreOf p.ctx)) p.tag p.gen st [])
  if !(populated p.pa && populated (p.pa + p.bytes.length - 1)) then reply m 1
  else
    let m0 := m.store p.pa p.bytes
    let m1 := if p.src = m.pkg.chip then m0.serve (m.ctx p.ctx).rid [p.pa] else m0
    match p.seq with
    | some n => if p.src = m.pkg.chip then m1.noticeLanded n else (m1.modPkg (fun q => q.record p n)).post p.src (.notice p.src n)
    | none => if p.src = m.pkg.chip then m1.endCausal p.tag else reply m1 0

/-- CAUSAL_STORE_PERFORM (R254): a causal store that carries nothing; one that comes after its deadline is dropped. -/
def Mach.causalStore (m : Mach) (p : CausalPkt) : Option Mach :=
  if !p.carries.isEmpty then none
  else m.arrive p.src (.causal m.pkg.chip p) (fun m1 => some (if p.deadline < m.pkg.ftime then m1.dropCausal p else m1.performCausal p))

/-- LANDING_NOTICE (R254). -/
def Mach.landingNotice (m : Mach) (seq : BitVec 16) : Option Mach :=
  m.replied (.notice m.pkg.chip seq) (fun m1 => some (m1.noticeLanded seq))

/-- The carried tokens that no landed record satisfies (R254). -/
def Pkg.unsatisfied (p : Pkg) (c : CausalPkt) : List (BitVec 16) :=
  c.carries.filter (fun n => !p.landed.any (fun l => l.chip == c.src && l.seq == n))

/-- A carrier at its destination (R254): it performs when every token is satisfied; otherwise the others are asked for and it is held,
or it waits for room. -/
def Mach.hold (m : Mach) (p : CausalPkt) : Mach :=
  let unsat := m.pkg.unsatisfied p
  if unsat.isEmpty then m.performCausal p
  else if m.pkg.sluice.length < Config.sluicePlaces then
    unsat.foldl (fun (acc : Mach) n => acc.post p.src (.query p.src n))
      (m.modPkg (fun q => { q with sluice := q.sluice ++ [{ pkt := p, unsat := unsat }] }))
  else m.modPkg (fun q => { q with jam := q.jam ++ [p] })

/-- CARRIER_ARRIVE (R254). -/
def Mach.carrier (m : Mach) (p : CausalPkt) : Option Mach :=
  if p.seq.isSome then none
  else m.arrive p.src (.causal m.pkg.chip p) (fun m1 => some (if p.deadline < m.pkg.ftime then m1.dropCausal p else m1.hold p))

/-- CARRIER_ENTER_SLUICE (R254): the first that waits for room. -/
def Mach.admitCarrier (m : Mach) : Option Mach :=
  match m.pkg.jam with
  | [] => none
  | p :: rest =>
    if m.pkg.sluice.length < Config.sluicePlaces then some ((m.modPkg (fun q => { q with jam := rest })).hold p) else none

/-- CAUSAL_QUERY (R254): package `chip` asks after token `seq` of this package. -/
def Mach.query (m : Mach) (chip : BitVec 12) (seq : BitVec 16) : Option Mach :=
  m.arrive chip (.query m.pkg.chip seq) (fun m1 => some (
    match kget seq.toNat m.pkg.own with
    | none => m1.post chip (.answer chip seq true)
    | some e =>
      match e.state with
      | .landed => m1.post chip (.answer chip seq true)
      | .lost => m1.post chip (.answer chip seq false)
      | .pending =>
        if e.waiting.contains chip then m1
        else m1.modPkg (fun p => { p with own := kput seq.toNat { e with waiting := e.waiting ++ [chip] } p.own })))

/-- ANSWER_LANDED (R254): the token is satisfied; carriers with every token satisfied perform in the order in which they arrived. -/
def Mach.answerLanded (m : Mach) (chip : BitVec 12) (seq : BitVec 16) : Option Mach :=
  m.arrive chip (.answer m.pkg.chip seq true) (fun m1 =>
    let held := m.pkg.sluice.map (fun h => if h.pkt.src = chip then { h with unsat := h.unsat.filter (fun n => n != seq) } else h)
    some ((held.filter (fun h => h.unsat.isEmpty)).foldl (fun (acc : Mach) h => acc.performCausal h.pkt)
      (m1.modPkg (fun p => { p with sluice := held.filter (fun h => !h.unsat.isEmpty) }))))

/-- ANSWER_LOST (R254): the carriers that wait for the token are dropped. -/
def Mach.answerLost (m : Mach) (chip : BitVec 12) (seq : BitVec 16) : Option Mach :=
  m.arrive chip (.answer m.pkg.chip seq false) (fun m1 =>
    let hit := fun (h : Held) => h.pkt.src == chip && h.unsat.contains seq
    some ((m.pkg.sluice.filter hit).foldl (fun (acc : Mach) h => acc.dropCausal h.pkt)
      (m1.modPkg (fun p => { p with sluice := p.sluice.filter (fun h => !hit h) }))))

/-- CARRIER_DEADLINE (R254): the carrier `n` of those held, then of those that wait for room. -/
def Mach.carrierDeadline (m : Mach) (n : Nat) : Option Mach :=
  let k := m.pkg.sluice.length
  match (m.pkg.sluice.map (fun h => h.pkt) ++ m.pkg.jam)[n]? with
  | none => none
  | some p =>
    if m.pkg.ftime < p.deadline then none
    else some ((m.modPkg (fun q =>
      if n < k then { q with sluice := q.sluice.eraseIdx n } else { q with jam := q.jam.eraseIdx (n - k) })).dropCausal p)

/-- OWN_ENTRY_DEADLINE (R255): a PENDING entry becomes LOST, its waiters are answered LOST, its context's pending expiry is set. -/
def Mach.entryDeadline (m : Mach) (seq : BitVec 16) : Option Mach :=
  match kget seq.toNat m.pkg.own with
  | none => none
  | some e =>
    if e.state == .pending && decide (e.deadline ≤ m.pkg.ftime) then
      some ((((m.endToken seq).modPkg (fun p =>
        { p with own := kput seq.toNat { e with state := .lost, waiting := [] } p.own })).answerAll seq false e.waiting).expireAt e.ctx e.va [seq])
    else none

/-- EXPIRY_NOTICE (R255): the causal store that it answers is no longer outstanding, and the pending expiry of context `x` is set. Inside
the package `tag` is the store's number; from another it matches the tag and the generation of its request (R297). -/
def Mach.expiryArrive (m : Mach) (x : Nat) (va : W64) (tag : Nat) (gen : BitVec 4) : Option Mach :=
  match m.takeNet (.expiry m.pkg.chip x va tag gen) with
  | some q => some ((q.endCausal tag).expireAt x va [])
  | none =>
    if !m.pkg.attested then some m
    else match m.findReq (BitVec.ofNat 8 (coreOf x)) tag gen with
      | some (g, _) => some ((if g.isCausal then m.endCausal g.id else m).expireAt x va [])
      | none => some (m.expireAt x va [])

/-- LANDED_RECORD_EXPIRY (R252). -/
def Mach.recordExpiry (m : Mach) (chip : BitVec 12) (seq : BitVec 16) : Option Mach :=
  let due := fun (l : Landed) => l.chip == chip && l.seq == seq && decide (l.deadline ≤ m.pkg.ftime)
  if m.pkg.landed.any due then some (m.modPkg (fun p => { p with landed := p.landed.filter (fun l => !due l) })) else none

/-! ### Meanings -/

def execCausalStorePerform (p : CausalPkt) (s : State) : Res := s.event (fun m => m.causalStore p)
def execLandingNotice (n : BitVec 16) (s : State) : Res := s.event (fun m => m.landingNotice n)
def execCarrierArrive (p : CausalPkt) (s : State) : Res := s.event (fun m => m.carrier p)
def execCarrierEnterSluice (s : State) : Res := s.event (fun m => m.admitCarrier)
def execCausalQuery (c : BitVec 12) (n : BitVec 16) (s : State) : Res := s.event (fun m => m.query c n)
def execAnswerLanded (c : BitVec 12) (n : BitVec 16) (s : State) : Res := s.event (fun m => m.answerLanded c n)
def execAnswerLost (c : BitVec 12) (n : BitVec 16) (s : State) : Res := s.event (fun m => m.answerLost c n)
def execCarrierDeadline (n : Nat) (s : State) : Res := s.event (fun m => m.carrierDeadline n)
def execOwnEntryDeadline (n : BitVec 16) (s : State) : Res := s.event (fun m => m.entryDeadline n)
/-- `c` is the context and the address of the store, `t` its tag and generation (R255, R297). -/
def execExpiryNotice (c : Nat × W64) (t : Nat × BitVec 4) (s : State) : Res := s.event (fun m => m.expiryArrive c.1 c.2 t.1 t.2)
def execLandedRecordExpiry (c : BitVec 12) (n : BitVec 16) (s : State) : Res := s.event (fun m => m.recordExpiry c n)

end Sys2Proof.Machine
end

