-- ==== Sys2Proof/Machine/Reduction.lean ====
section
/-! DEFINITION. Reduction slots of the router (R256, R299 to R304): contributions of memory reductions and of collectives, their
merging, the merged results at memory and at the Tailrace, and late contributions. -/

namespace Sys2Proof.Machine

/-- Bits of an element of a reduction, and its format where it is floating-point. -/
def redFmt : RedOp → Option Fmt
  | .addF32 | .maxF32 | .minF32 => some fmtF32
  | .addBf16 => some fmtBf16
  | _ => none

/-- Whether an element is a NaN of the reduction's format (R300). -/
def redNan (op : RedOp) (a : Nat) : Bool := (redFmt op).any (fun f => f.decode a == .nan)

/-- Minimum of R300: a NaN operand gives way to the other. -/
def minPast (f : Fmt) (a b : Nat) : Nat :=
  if f.decode a == .nan then (if f.decode b == .nan then f.nan else b)
  else if f.decode b == .nan then a
  else (minMax f false a b).1

/-- Two elements combined (R178, R280, R300, R301). -/
def redCombine (op : RedOp) (a b : Nat) : Nat :=
  match op with
  | .addF32 => (fop fmtF32 .add .rne a b 0).1
  | .addBf16 => (fop fmtBf16 .add .rne a b 0).1
  | .maxF32 => (minMax fmtF32 true a b).1
  | .minF32 => minPast fmtF32 a b
  | .addS32 => (a + b) % 2 ^ 32
  | .maxS32 => if signed 32 a < signed 32 b then b else a
  | .minS32 => if signed 32 b < signed 32 a then b else a

/-- Whether combining two elements is noted in the NaN-seen bit (R300). -/
def redSees (op : RedOp) (a b : Nat) : Bool := redNan op a || redNan op b || redNan op (redCombine op a b)

/-- Slots of the router in use (R302). -/
def Pkg.slotsUsed (p : Pkg) : Nat := p.redSlots.length + p.xredSlots.length

/-! ### Memory reductions (R299) -/

/-- A slot serves a contribution with the same physical line, operation and tenant. -/
def RedSlot.takes (s : RedSlot) (p : RedPkt) : Bool := s.line == p.line && s.op == p.op && s.tenant == p.tenant

/-- Words combined into those of a slot, in order. -/
def RedSlot.combine (s : RedSlot) (k : Nat) (w : W32) : RedSlot :=
  match kget k s.words with
  | none => { s with words := kput k w s.words, nan := s.nan || redNan s.op w.toNat }
  | some v =>
    { s with words := kput k (BitVec.ofNat 32 (redCombine s.op v.toNat w.toNat)) s.words, nan := s.nan || redSees s.op v.toNat w.toNat }

/-- A contribution joins a slot. -/
def joinRed (s : RedSlot) (p : RedPkt) : RedSlot :=
  let t := p.words.foldl (fun acc q => acc.combine q.1 q.2) s
  { t with from_ := s.from_ ++ [(p.src, p.core, p.tag, p.gen)] }

/-- A contribution at the router: it joins its slot, opens one, or waits for one (R299, R302). -/
def Mach.contribute (m : Mach) (p : RedPkt) : Mach :=
  let fresh : RedSlot := { tenant := p.tenant, op := p.op, line := p.line, words := [], nan := false, from_ := [] }
  m.modPkg (fun q =>
    if q.redSlots.any (fun s => s.takes p) then { q with redSlots := modWhere (fun s => s.takes p) (fun s => joinRed s p) q.redSlots }
    else if q.slotsUsed < Config.reductionSlots then { q with redSlots := q.redSlots ++ [joinRed fresh p] }
    else { q with redJam := q.redJam ++ [p] })

/-- A contribution of this package counted among the requests of its run (R363). -/
def Mach.serveRed (m : Mach) (p : RedPkt) : Mach :=
  match m.gops.find? (fun g => p.src == m.pkg.chip && g.id == p.tag) with
  | some g => m.serve g.rid [64 * p.line]
  | none => m

/-- REDUCTION_CONTRIBUTION_ARRIVE (R299): its home's population is checked here (R155). -/
def Mach.redArrive (m : Mach) (p : RedPkt) : Option Mach :=
  m.arrive p.src (.red m.pkg.chip p) (fun m1 => some (
    if populated (64 * p.line) then (m1.serveRed p).contribute p else m1.post p.src (.reply p.src p.core p.tag p.gen 1 [])))

/-- The contributions of a slot have performed (R256): their issuers learn of it. -/
def Mach.redDone (m : Mach) (l : List (BitVec 12 × BitVec 8 × Nat × BitVec 4)) : Mach :=
  l.foldl (fun (acc : Mach) r =>
    if r.1 = m.pkg.chip then acc.dropGop r.2.2.1 else acc.post r.1 (.reply r.1 r.2.1 r.2.2.1 r.2.2.2 0 [])) m

/-- REDUCTION_SLOT_APPLY (R256, R299): one indivisible read, combine and write of the masked words; the slot is freed. -/
def Mach.applyRed (m : Mach) (n : Nat) : Option Mach :=
  match m.pkg.redSlots[n]? with
  | none => none
  | some s =>
    let word := fun (acc : Mach) (p : Nat × W32) =>
      let loc := 64 * s.line + 4 * p.1
      acc.store loc (natLE 4 (redCombine s.op (acc.load loc 4) p.2.toNat))
    let m1 := s.words.foldl word m
    some ((m1.modPkg (fun q => { q with redSlots := q.redSlots.eraseIdx n })).redDone s.from_)

/-- A contribution whose home has found an uncorrectable error: it is dropped, and its issuer learns of it (R297). -/
def Mach.failRed (m : Mach) (r : BitVec 12 × BitVec 8 × Nat × BitVec 4) : Mach :=
  if r.1 = m.pkg.chip then
    match m.gops.find? (fun g => g.id == r.2.2.1) with
    | some g => g.segs.foldl (fun acc q => acc.writeFail g q) m
    | none => m
  else m.post r.1 (.reply r.1 r.2.1 r.2.2.1 r.2.2.2 4 [])

/-- A reduction slot whose line has an uncorrectable error (R297): its contributions are dropped with STATUS 4, nothing is written, and the
slot is freed. -/
def Mach.failSlot (m : Mach) (n : Nat) : Option Mach :=
  match m.pkg.redSlots[n]? with
  | none => none
  | some s => some (s.from_.foldl Mach.failRed (m.modPkg (fun q => { q with redSlots := q.redSlots.eraseIdx n })))

/-! ### Collectives (R301, R303, R304) -/

/-- A header without its TID. -/
def bareHdr (h : BitVec 128) : BitVec 128 := setField h 4 12 0

/-- The key of a contribution (R280, R301). -/
def keyOf (p : XredPkt) : XredKey :=
  { tail := p.pkt.tail, stream := hdrStream p.pkt.hdr, origin := (List.range 4).map (hdrCoord p.pkt.hdr), cnt := hdrCnt p.pkt.hdr, nc := p.nc,
    gen := p.gen, tenant := p.pkt.tenant }

/-- Whether two keys agree but for their generations (R304). -/
def XredKey.same (a b : XredKey) : Bool := a == { b with gen := a.gen }

/-- Keys whose last closed GEN is kept (R304). -/
abbrev keptKeys : Nat := 1024

/-- Whether a contribution is late (R304): its GEN is the kept one or one of the 7 before it. -/
def Pkg.isLate (p : Pkg) (k : XredKey) : Bool := p.kept.any (fun q => q.same k && decide ((q.gen - k.gen).toNat < 8))

/-- A contribution accounted for at the Tailrace without landing (R266, R304). -/
def Mach.account (m : Mach) (p : XredPkt) : Mach := m.modTail p.pkt.tail (fun t => t.account (landXfer p.pkt) false none)

/-- A late contribution: discarded, counted, accounted for (R301, R304). -/
def Mach.late (m : Mach) (p : XredPkt) : Mach := (m.account p).modPkg (fun q => q.bump 288)

/-- The elements of a contribution. -/
def xredElems (p : XredPkt) : List Nat :=
  (List.range (hdrCnt p.pkt.hdr)).map (payloadElem (hdrFmt p.pkt.hdr) p.pkt.payload)

/-- The contributions of a slot combined in ascending rank (R301), and the NaN-seen bit (R300). -/
def combineRanks (op : RedOp) (l : List (List Nat)) : List Nat × Bool :=
  match l with
  | [] => ([], false)
  | a :: rest =>
    rest.foldl (fun (acc : List Nat × Bool) b =>
      (List.zipWith (redCombine op) acc.1 b, acc.2 || (List.zip acc.1 b).any (fun p => redSees op p.1 p.2)))
      (a, a.any (redNan op))

/-- The elements of the merged run of some contributions in rising rank, and the NaN-seen bit (R300, R301). What contributions of different
forms under one key combine to is a free value (log 45). -/
def mergeRun (l : List XredPkt) : List Nat × Bool :=
  match l with
  | [] => ([], false)
  | p :: rest =>
    if rest.all (fun q => q.op == p.op) then combineRanks p.op (l.map xredElems)
    else
      let out := Config.mixedRun l
      (out, l.any (fun q => (xredElems q).any (redNan q.op)) || out.any (redNan p.op))

/-- The contributor bitmap (R301). -/
def XredSlot.bitmap (s : XredSlot) : W64 := s.got.foldl (fun acc p => acc ||| (1 <<< p.1)) 0

/-- A reduction record (R303). -/
def redRecord (hdr : BitVec 128) (mask : W64) (incomplete nan : Bool) : List Byte :=
  let b := natLE 1 4 ++ zeroBytes 15 ++ vecLE 16 hdr ++ vecLE 8 mask ++ natLE 1 (b2n incomplete + 2 * b2n nan)
  b ++ zeroBytes (288 - b.length)

/-- A slot closed (R301 to R304): the merged run lands, its contributions are accounted for, a record is written where the run is
incomplete or saw a NaN; none where the Tailrace has no room. The header is that of the lowest rank present, without its TID (log 45). -/
def Mach.closeXred (m : Mach) (s : XredSlot) (complete : Bool) : Option Mach :=
  match s.got with
  | [] => none
  | (_, p) :: _ =>
    let hdr := bareHdr p.pkt.hdr
    let (out, nan) := mergeRun (s.got.map (fun q => q.2))
    let run : LandPkt := { p.pkt with hdr := hdr, payload := packElems (hdrFmt hdr) out }
    let m1 := m.modPkg (fun q => { q with
      xredSlots := q.xredSlots.filter (fun t => t.key != s.key)
      kept := (s.key :: q.kept.filter (fun k => !k.same s.key)).take keptKeys })
    m1.land run (some (s.got.map (fun q => q.2.pkt), if complete && !nan then none else some (redRecord hdr s.bitmap (!complete) nan)))

/-- A collective's contribution at the router (R301, R302, R304); none where closing its slot finds no room. -/
def Mach.contributeX (m : Mach) (p : XredPkt) : Option Mach :=
  let k := keyOf p
  let enter := fun (m : Mach) (s : XredSlot) =>
    let t := { s with got := kput p.rank.toNat p s.got }
    let m1 := m.modPkg (fun q => { q with xredSlots := modWhere (fun u => u.key == k) (fun _ => t) q.xredSlots })
    if (List.range (p.nc.toNat + 1)).all (fun r => (kget r t.got).isSome) then m1.closeXred t true else some m1
  match m.pkg.xredSlots.find? (fun s => s.key == k) with
  | some s => if (kget p.rank.toNat s.got).isSome then some (m.late p) else enter m s
  | none =>
    if m.pkg.isLate k then some (m.late p)
    else if m.pkg.slotsUsed < Config.reductionSlots then
      let s : XredSlot := { key := k, got := [], deadline := m.pkg.deadline }
      enter (m.modPkg (fun q => { q with xredSlots := q.xredSlots ++ [s], kept := q.kept.filter (fun j => !j.same k) })) s
    else some (m.modPkg (fun q => { q with xredJam := q.xredJam ++ [p] }))

/-- An event that needs room at Tailrace `t`, or else stops it (R269). -/
def Mach.orStop (m : Mach) (t : Nat) (r : Option Mach) : Option Mach :=
  match r with
  | some q => some (q.modTail t (fun u => { u with stop := false }))
  | none => if (m.tail t).stop then none else some (m.modTail t (fun u => { u with stop := true }))

/-- XRED_CONTRIBUTION_ARRIVE (R301). -/
def Mach.xredArrive (m : Mach) (p : XredPkt) : Option Mach :=
  if hdrEnd p.pkt.hdr || !m.taking p.pkt.tail then none
  else m.arrival p.pkt.tail p.pkt.src (.xred m.pkg.chip p) (fun q => q.contributeX p)

/-- XRED_SLOT_DEADLINE (R301): the slot closes incomplete. -/
def Mach.xredDeadline (m : Mach) (n : Nat) : Option Mach :=
  match m.pkg.xredSlots[n]? with
  | none => none
  | some s =>
    if m.pkg.ftime < s.deadline || !m.taking s.key.tail then none
    else m.orStop s.key.tail ((m.modTail s.key.tail (fun q => { q with slots := m.liveMaps s.key.tail })).closeXred s false)

/-- REDUCTION_SLOT_ADMIT (R302): the first contribution that waits for a slot takes one. -/
def Mach.admitRed (m : Mach) : Option Mach :=
  if Config.reductionSlots ≤ m.pkg.slotsUsed then none
  else
    match m.pkg.redJam, m.pkg.xredJam with
    | p :: rest, _ => some ((m.modPkg (fun q => { q with redJam := rest })).contribute p)
    | [], p :: rest =>
      if !m.taking p.pkt.tail then none
      else m.orStop p.pkt.tail (((m.modPkg (fun q => { q with xredJam := rest })).modTail p.pkt.tail (fun q =>
        { q with slots := m.liveMaps p.pkt.tail })).contributeX p)
    | [], [] => none

/-! ### Meanings -/

def execReductionContributionArrive (p : RedPkt) (s : State) : Res := s.event (fun m => m.redArrive p)
def execReductionSlotApply (n : Nat) (s : State) : Res := s.event (fun m => m.applyRed n)
def execXredContributionArrive (p : XredPkt) (s : State) : Res := s.event (fun m => m.xredArrive p)
def execXredSlotDeadline (n : Nat) (s : State) : Res := s.event (fun m => m.xredDeadline n)
def execReductionSlotAdmit (s : State) : Res := s.event (fun m => m.admitRed)

end Sys2Proof.Machine
end

