-- ==== Sys2Proof/Machine/Power.lean ====
section
/-! DEFINITION. Fabric time, clocks, power grants and energy (R358 to R363). What these measure is a free value of Config (R6, log 6). -/

namespace Sys2Proof.Machine

/-- A clock is 25 MHz × s, s from 1 to 76 (R359). -/
def clampStep (n : Nat) : Nat := max 1 (min 76 n)

/-! ### Fabric time (R358) -/

/-- FTIME_ADJUST (R358): a counter that lies behind the master's is moved on by one; one that lies ahead only counts more slowly. Package 0
is the master. -/
def Mach.adjustTime (m : Mach) (master : W64) : Option Mach :=
  if m.pkg.counting && m.pkg.chip != 0 && decide (m.pkg.ftime < master.toNat) then some (m.modPkg (fun p => { p with ftime := p.ftime + 1 }))
  else none

/-! ### Clocks (R359, R360) -/

/-- A Governor's own limit, without the group clock (R359, R360). -/
def Gov.own (g : Gov) : Nat := clampStep (min g.asked (min g.power g.thermal))

/-- The clock moved to the least of its limits (R359). -/
def Gov.settle (g : Gov) : Gov :=
  { g with clock := match g.gclock with
    | some c => min g.own c.steps
    | none => g.own }

/-- The package of a group's leader, the member quarter with the lowest chip id (R360). -/
def Mach.leader (m : Mach) (n : BitVec 16) : BitVec 12 :=
  if (Config.otherMember n m.tick).toNat < m.pkg.chip.toNat then Config.otherMember n m.tick else m.pkg.chip

/-- A member's own limit reported to its leader when it has changed, or when the leader has, whose predecessor is told by a limit of 0 steps
(R360; log 54). -/
def Mach.tell (m : Mach) (q : Nat) : Mach :=
  let g := m.pkg.gov q
  match g.group with
  | none => m
  | some n =>
    let c := m.leader n
    if g.told = some (c, g.own) then m
    else
      let m1 := match g.told with
        | some (d, _) => if d = c then m else m.post d (.limit d n q 0)
        | none => m
      (m1.modPkg (fun p => p.modGov q (fun h => { h with told := some (c, g.own) }))).post c (.limit c n q g.own)

/-- CLOCK_LIMIT_CHANGE (R359, R360): the sensors' limit is a free value. -/
def Mach.limitChange (m : Mach) (q : Nat) : Option Mach :=
  if 4 ≤ q then none
  else
    let new := fun (g : Gov) => (g.limits g.req g.power (clampStep (Config.thermalLimit m.tick q))).settle
    some (({ m with tick := m.tick + 1 }.modPkg (fun p => p.modGov q new)).tell q)

/-- The leading quarter of a group in this package. -/
def Pkg.leading (p : Pkg) (n : BitVec 16) : Option Nat := (List.range 4).find? (fun q => (p.gov q).group == some n)

/-- GROUP_LIMIT_REPORT (R360): the leader announces the least limit and the time of the switch to every member; a limit of 0 steps says that
the quarter has left (log 54). -/
def Mach.limitReport (m : Mach) (n : BitVec 16) (chip : BitVec 12) (q steps : Nat) : Option Mach :=
  m.arrive chip (.limit m.pkg.chip n q steps) (fun m1 => some (
    if (m.pkg.leading n).isNone then m1
    else
      let rest := (kgetD [] n.toNat m.pkg.groups).filter (fun r => !(r.1 == chip && r.2.1 == q))
      let ms := if steps = 0 then rest else rest ++ [(chip, q, steps)]
      let g := ms.foldl (fun acc r => min acc r.2.2) 76
      let t := (m.pkg.ftime + 4000 + 999) / 1000 * 1000
      ms.foldl (fun (acc : Mach) r => acc.post r.1 (.groupClock r.1 n r.2.1 g t)) (m1.modPkg (fun p => { p with groups := kput n.toNat ms p.groups }))))

/-- Changes in the order of their times (R360). -/
def insertChange (c : Nat × Nat) : List (Nat × Nat) → List (Nat × Nat)
  | [] => [c]
  | d :: rest => if c.1 < d.1 then c :: d :: rest else d :: insertChange c rest

/-- A change of group `n` at time `t` made now (R360). Changes apply in the order of their times: those of before `t` that are still to be
made are behind it, and one of after `t` that has been made stands. -/
def Gov.switch (g : Gov) (n : BitVec 16) (t steps : Nat) : Gov :=
  Gov.settle { g with
    gclock := if g.gclock.any (fun c => c.group == n && decide (t < c.at_)) then g.gclock else some { group := n, steps := steps, at_ := t }
    changes := g.changes.filter (fun c => decide (t < c.1)) }

/-- GROUP_CLOCK_ANNOUNCE (R360): a member that learns of the switch after its time makes it at once and counts a miss. A quarter that is in
another group now takes no clock of this one. -/
def Mach.announce (m : Mach) (n : BitVec 16) (q steps t : Nat) : Option Mach :=
  m.replied (.groupClock m.pkg.chip n q steps t) (fun m1 =>
    if 4 ≤ q then none
    else if (m.pkg.gov q).group ≠ some n then some m1
    else if t < m.pkg.ftime then some (m1.modPkg (fun p => (p.modGov q (fun g => g.switch n t (clampStep steps))).bump (297 + q)))
    else some (m1.modPkg (fun p => p.modGov q (fun g => { g with changes := insertChange (t, clampStep steps) g.changes }))))

/-- GROUP_CLOCK_SWITCH (R360). -/
def Mach.switchClock (m : Mach) (q : Nat) : Option Mach :=
  match (m.pkg.gov q).group, (m.pkg.gov q).changes with
  | some n, (t, s) :: rest =>
    if m.pkg.ftime < t then none
    else some (m.modPkg (fun p => p.modGov q (fun g => Gov.settle { g with gclock := some { group := n, steps := s, at_ := t }, changes := rest })))
  | _, _ => none

/-! ### Grants (R361, R362) -/

/-- GRANT_UNITS_ARRIVE (R361): P grows up to 4,800 and the excess goes back. -/
def Mach.unitsArrive (m : Mach) (chip : BitVec 12) (n : Nat) : Option Mach :=
  m.arrive chip (.give m.pkg.chip n) (fun m1 =>
    let back := m.pkg.p + n - 4800
    let m2 := m1.modPkg (fun p => { p with p := p.p + n - back })
    some (if back = 0 then m2 else m2.post chip (.give chip back)))

/-- The package's present draw, in units of 0.5 W. -/
def Mach.drawn (m : Mach) : Nat := (List.range 4).foldl (fun acc q => acc + Config.draw m.tick q) 0

/-- POWER_ASK_ARRIVE (R361): what can be spared is given. -/
def Mach.askArrive (m : Mach) (chip : BitVec 12) (n : Nat) : Option Mach :=
  m.arrive chip (.ask m.pkg.chip n) (fun m1 =>
    let k := min n (min (m.pkg.p - m.pkg.f) (m.pkg.p - m.drawn))
    let m2 : Mach := { m1 with tick := m1.tick + 1 }
    some (if k = 0 then m2 else (m2.modPkg (fun p => { p with p := p.p - k })).post chip (.give chip k)))

/-- GRANT_UNITS_RETURNED (R361): undeliverable units go back to their sender's P. -/
def Mach.unitsReturned (m : Mach) (n : Nat) : Option Mach :=
  m.replied (.undeliverable m.pkg.chip (.units n)) (fun m1 => some (m1.addUnits n))

/-- The shares of the quarters, in quarters of a unit, `low` being those that get a quarter of F: the others divide what is left of P in
proportion to their demand (R362). -/
def Pkg.sharesBut (p : Pkg) (d : Nat → Nat) (low : List Nat) (q : Nat) : Nat :=
  if low.contains q then p.f
  else
    let rest := (List.range 4).filter (fun i => !low.contains i)
    let total := rest.foldl (fun acc i => acc + d i) 0
    let left := 4 * p.p - low.length * p.f
    if total = 0 then left / rest.length else left * d q / total

/-- The quarters that would get less than a quarter of F (R362), found at most `fuel` times. -/
def Pkg.lowShares (p : Pkg) (d : Nat → Nat) : Nat → List Nat → List Nat
  | 0, low => low
  | fuel + 1, low =>
    let more := (List.range 4).filter (fun q => !low.contains q && decide (p.sharesBut d low q < p.f))
    if more.isEmpty then low else p.lowShares d fuel (low ++ more)

/-- A quarter's share of P in quarters of a unit (R362): in proportion to the demands `d`, and never below a quarter of F. -/
def Pkg.shareOf (p : Pkg) (d : Nat → Nat) (q : Nat) : Nat := p.sharesBut d (p.lowShares d 4 []) q

/-- The power limit of a quarter with a share, in quarters of a unit: the highest clock whose draw over the next 50 µs stays within it (R362). -/
def powerLimit (tick q share : Nat) : Nat :=
  (((List.range 76).map (fun i => 76 - i)).find? (fun s => decide (4 * Config.drawAt tick q s ≤ share))).getD 1

/-- POWER_PERIOD (R362): P is divided among the quarters in proportion to their draw, and each clock is lowered or raised to keep its draw
within its share. -/
def Mach.powerPeriod (m : Mach) : Mach :=
  let step := fun (p : Pkg) (q : Nat) =>
    let n := m.pkg.shareOf (Config.draw m.tick) q
    p.modGov q (fun g =>
      let h := g.limits g.req (powerLimit m.tick q n) g.thermal
      Gov.settle { h with share := n })
  let m1 : Mach := { m with tick := m.tick + 1, pkg := (List.range 4).foldl step m.pkg }
  (List.range 4).foldl Mach.tell m1

/-! ### Energy (R363) -/

/-- Entries of core `k` that run `r` holds (R27, R19). -/
def Mach.runShares (m : Mach) (r : Run) (k : Nat) : Nat :=
  ((List.range 4).map (fun i => if (m.ctx (4 * k + i)).rid = r.id ∧ (m.ctx (4 * k + i)).status ≠ .absent then (m.ctx (4 * k + i)).share else 0)).foldl
    (fun a b => a + b) 0 +
    ((r.recs.filter (fun e => 8 * e.cluster + e.core == k && e.ctxMask == 0)).map (fun e => e.share)).foldl (fun a b => a + b) 0

/-- Requests of a run served in the period by the slices of partition `n` (R363). -/
def Mach.servedBy (m : Mach) (n : Nat) (r : Run) : Nat :=
  ((r.served.filter (fun s => kget s.1 m.pkg.part == some n)).map (fun s => s.2)).foldl (fun a b => a + b) 0

/-- The energy of the slices of partition `n` and their HBM channels (R363). -/
def Mach.sliceEnergy (m : Mach) (n : Nat) : Nat :=
  ((m.pkg.part.filter (fun s => s.2 == n)).map (fun s => Config.energyStep m.tick (1024 + s.1))).foldl (fun a b => a + b) 0

/-- The energy of a period that is charged to a run (R363): of its cores by its entries, of its partition's slices by its requests among
those served, of the links by its flits among those sent. -/
def Mach.runEnergy (m : Mach) (r : Run) : Nat :=
  let served := (m.runs.map (m.servedBy r.part)).foldl (fun a b => a + b) 0
  (r.recs.map (fun e => Config.energyStep m.tick (8 * e.cluster + e.core) * m.runShares r (8 * e.cluster + e.core) / 64)).foldl (fun a b => a + b)
    (m.sliceEnergy r.part * m.servedBy r.part r / served + Config.energyStep m.tick 1088 * r.flits / m.pkg.flits)

/-- ENERGY_PERIOD (R363): consumers 0 to 255 are the cores, 256 to 259 the rest of each quarter, 260 the rest of the package, 1,024 to 1,087
the slices with their HBM channels, 1,088 the links and routers. Counters only grow; a new period begins. -/
def Mach.energyPeriod (m : Mach) : Mach :=
  let quarter := fun (q : Nat) => (List.range 64).foldl (fun acc k => acc + Config.energyStep m.tick (64 * q + k)) (Config.energyStep m.tick (256 + q))
  let rest := (List.range 65).foldl (fun acc k => acc + Config.energyStep m.tick (1024 + k)) (Config.energyStep m.tick 260)
  let total := (List.range 4).foldl (fun acc q => acc + quarter q) rest
  let placed := m.runs.filter (fun r => r.placed)
  let charge := fun (r : Run) => if r.placed then { r with energy := r.energy + m.runEnergy r, served := [], flits := 0 } else r
  { m with
    tick := m.tick + 1
    runs := m.runs.map charge
    pkg := { m.pkg with
      flits := 0
      energyP := m.pkg.energyP + BitVec.ofNat 64 total
      energyT := placed.foldl (fun acc r => rput r.tenant (rget r.tenant acc + BitVec.ofNat 64 (m.runEnergy r)) acc) m.pkg.energyT
      energyQ := (List.range 4).foldl (fun acc q => rput q (rget q acc + BitVec.ofNat 64 (quarter q)) acc) m.pkg.energyQ } }

/-! ### Meanings -/

def execFtimeAdjust (t : W64) (s : State) : Res := s.event (fun m => m.adjustTime t)
def execClockLimitChange (q : Nat) (s : State) : Res := s.event (fun m => m.limitChange q)
def execGroupLimitReport (n : BitVec 16) (c : BitVec 12) (q k : Nat) (s : State) : Res := s.event (fun m => m.limitReport n c q k)
/-- `g` is the group and the member quarter (R360). -/
def execGroupClockAnnounce (g : BitVec 16 × Nat) (k t : Nat) (s : State) : Res := s.event (fun m => m.announce g.1 g.2 k t)
def execGroupClockSwitch (q : Nat) (s : State) : Res := s.event (fun m => m.switchClock q)
def execGrantUnitsArrive (c : BitVec 12) (n : Nat) (s : State) : Res := s.event (fun m => m.unitsArrive c n)
def execPowerAskArrive (c : BitVec 12) (n : Nat) (s : State) : Res := s.event (fun m => m.askArrive c n)
def execGrantUnitsReturned (n : Nat) (s : State) : Res := s.event (fun m => m.unitsReturned n)
def execPowerPeriod (s : State) : Res := s.event (fun m => some m.powerPeriod)
def execEnergyPeriod (s : State) : Res := s.event (fun m => some m.energyPeriod)

end Sys2Proof.Machine
end

