-- ==== Sys2Proof/Machine/Platform.lean ====
section
/-! DEFINITION. Reset, wipes and the life cycle (R167, R367), memory and register errors with their self-tests and repair (R320,
R369). -/

namespace Sys2Proof.Machine

/-! ### Wipes (R167, R367) -/

/-- The cells that a wipe leaves: those of CXL expanders (R167). -/
def Memory.kept (m : Memory) : Memory := m.filter (fun c => cxlRange c.1)

/-- Cores as a wipe leaves them: a retired core stays retired. -/
def Mach.wipedCores (m : Mach) : KMap Core := (m.cores.filter (fun p => p.2.dead)).map (fun p => (p.1, { Core.zero with dead := true }))

/-- Whether both signatures over a message verify under the fused keys (R367). -/
def fusedOk (msg : List Byte) (s : Signatures) : Bool := signedBy Config.fusedEd25519 Config.fusedMlDsa65 msg s

/-- A record of what has left for the host or a link partner outside the packet classes: no wipe takes it back. -/
def isRecord : Sent → Bool
  | .attest _ _ | .report _ => true
  | _ => false

/-- The spare lanes in use survive a reset (R369). -/
def Pkg.keptPorts (p : Pkg) : KMap Port :=
  (p.ports.filter (fun e => e.2.spareTx != 0 || e.2.spareRx != 0)).map (fun e =>
    (e.1, { Port.zero with spareTx := e.2.spareTx, spareRx := e.2.spareRx }))

/-- DEVICE_RESET (R367, R167): the boot ROM loads the firmware `fw` from the package flash. Every memory but the CXL expanders is wiped, the
registers take their reset values; what repair has mapped and the life cycle stay. The image runs only when both its signatures verify;
otherwise the package stays in reset and reports it. -/
def Mach.deviceReset (m : Mach) (fw : Firmware) : Mach :=
  let ok := fusedOk fw.image fw.sigs
  { Mach.reset with
    mem := Memory.kept m.mem
    cores := m.wipedCores
    pkg := { Pkg.reset with
      life := m.pkg.life
      identity := m.pkg.identity
      flash := fw
      ports := m.pkg.keptPorts
      errs := m.pkg.errs
      tests := m.pkg.tests
      spareRows := m.pkg.spareRows
      spareCores := m.pkg.spareCores
      wiping := true
      stuck := !ok }
    out := m.out.filter isRecord ++ (if ok then [] else [.report m.pkg.life])
    wire := m.wire
    irqs := m.irqs
    comps := m.comps
    cyc := m.cyc
    nextId := m.nextId
    tick := m.tick }

/-- The state of the life cycle after another (R367). -/
def lifeAfter : LifeCycle → Option LifeCycle
  | .blank => some .provisioned
  | .provisioned => some .deployed
  | .deployed => some .returned
  | .returned => none

/-- A stream whose runs are gone: its words stay, it awaits nothing, its positions are closed. -/
def Stream.cleared (t : Stream) : Stream := { t with await := none, len := 0, open_ := [], ret := t.ret ++ t.open_, late := [] }

/-- Whether a message under way inside the package survives a wipe: flits in transit, and messages of the Governors and the grants. -/
def survives : Sent → Bool
  | .transit _ _ _ | .give _ _ | .ask _ _ | .limit _ _ _ _ | .groupClock _ _ _ _ _ | .undeliverable _ (.units _) => true
  | _ => false

/-- LIFE_CYCLE_CHANGE (R367, R167, R149, R366): a firmware command, signed under the fused keys, moves the life cycle on by one state, and the
package is wiped: with the registers of every context go the runs. Provisioning creates the identity key pairs (R368). -/
def Mach.lifeChange (m : Mach) (st : LifeCycle) (sigs : Signatures) : Option Mach :=
  if fusedOk (Config.commandMessage st) sigs && lifeAfter m.pkg.life == some st then
    some { m with
      tick := m.tick + 1, ctxs := [], cores := m.wipedCores, tails := [], mem := Memory.kept m.mem, runs := [], teams := [], locq := [], rets := [], gops := [],
      ops := [], net := m.net.filter survives
      streams := m.streams.map (fun p => (p.1, p.2.cleared))
      pkg := { m.pkg with
        life := st, identity := if st == .provisioned then some m.tick else m.pkg.identity, repairs := [], part := [], lastPart := [], granT := [], tlb := [], own := [], landed := [], sluice := [], jam := [], redSlots := [], xredSlots := [],
        redJam := [], xredJam := [], wiping := true } }
  else none

/-- WIPE_FINISH (R167): the accesses that waited complete. -/
def Mach.wipeDone (m : Mach) : Option Mach :=
  if m.pkg.wiping then
    some { m with comps := m.comps ++ m.pkg.owed, pkg := { m.pkg with wiping := false, owed := [] } }
  else none

/-! ### Errors (R320, R276, R369) -/

/-- The key under which errors of a resource are counted. -/
def errKey (r : Resource) (unit : Nat) : Nat :=
  16 * unit + (match r with
    | .scratchCore => 0 | .scratchCluster => 1 | .hbmRow => 2 | .cxl => 3 | .registers => 4 | .tile => 5 | .stone => 6 | .curve => 7
    | .fetch => 8 | .lane => 9)

/-- SUB of an uncorrectable error (R320); 0 for a lane, whose data the link sends again. -/
def errorSub : Resource → Nat
  | .scratchCore => 1 | .scratchCluster => 2 | .hbmRow => 3 | .cxl => 4 | .registers => 5 | .tile => 6 | .stone => 7 | .curve => 8
  | .fetch => 9 | .lane => 0

/-- An uncorrectable error reported against an operation of context `x` (R320): `addr` is the window offset or the virtual address, or the
bundle for a register file, a tile, a stone, a table or a fetch. -/
def Mach.errorIn (m : Mach) (x no : Nat) (pc addr : W64) (slot sub : Nat) : Mach :=
  m.report x no pc (tcause 0x12 0 slot sub 0 false) (if 5 ≤ sub then pc else addr)

/-- The error strikes the next issue of context `x`, if it may make one now (R320): its register file, its fetch, a page-table walk, or the
scratchpad words that the word of `slot` reads at its issue. -/
def Mach.strikeIssue (m : Mach) (sub x slot : Nat) (addr : W64) : Option Mach :=
  if m.mayIssue x && [1, 2, 3, 5, 9].contains sub && slot < 16 then some (m.errorIn x m.nextId (m.ctx x).ctl.pc addr slot sub) else none

/-- The error strikes a global operation (R320): a read or an atomic in its data, a store not yet committed in its page-table walk; a prefetch
is dropped (R175). -/
def Mach.strikeGlobal (m : Mach) (g : GOp) (sub : Nat) (addr : W64) : Option Mach :=
  match g.act with
  | .read .none => some (((m.dropGop g.id).finish g.id).count g.rid 1 1)
  | .read _ => some (((m.dropGop g.id).finish g.id).errorIn g.ctx g.no g.pc addr (if g.isFeed then 4 else 10) sub)
  | .amo .. => some (((m.dropGop g.id).finish g.id).errorIn g.ctx g.no g.pc addr 10 sub)
  | _ => if g.committed then none else some (m.errorIn g.ctx g.no g.pc addr 10 sub)

/-- The error strikes the queued X operation `o` (R320): the image of an `ldmap`, but not while a second checkpoint of its team is due (R177);
a byte of a Headrace source is marked instead (R276). -/
def Mach.strikeX (m : Mach) (o : EngOp) (sub : Nat) (addr : W64) : Option Mach :=
  if mapKind o.ins = 1 then
    if (m.team? o.rid (clusterOf o.ctx)).any (fun t => t.full) then none else some (m.errorIn o.ctx o.no o.pc addr 11 sub)
  else if isSend o.ins && !o.begun then
    some (m.modCtx o.ctx (fun c => { c with xq := modWhere (fun q => q.id == o.id) (fun q => { q with blocks := q.blocks ++ [addr] }) c.xq }))
  else none

/-- The error strikes the operation in flight `id` (R320). A read that has failed delivers nothing. -/
def Mach.strikeOp (m : Mach) (sub id : Nat) (addr : W64) : Option Mach :=
  match m.locq.find? (fun o => o.id == id) with
  | some { act := .store _, .. } => none
  | some o => some (({ m with locq := m.locq.filter (fun p => p.id != id) }.finish id).errorIn o.ctx o.no o.pc addr o.slot sub)
  | none =>
    match m.gops.find? (fun g => g.id == id) with
    | some g => m.strikeGlobal g sub addr
    | none =>
      match m.cores.findSome? (fun p => p.2.mq.find? (fun o => o.id == id)) with
      | some o => some (m.errorIn o.ctx o.no o.pc addr 4 sub)
      | none =>
        match m.ctxs.findSome? (fun p => (p.2.vq.find? (fun o => o.id == id && o.tile.isSome)).map (fun o => (p.1, o))) with
        | some (x, o) => some (m.errorIn x o.no o.pc addr 3 sub)
        | none => (m.ctxs.findSome? (fun p => p.2.xq.find? (fun o => o.id == id))).bind (fun o => m.strikeX o sub addr)

/-- The error strikes the data that a reader reads (R276, R295, R297, R299, R320). -/
def Mach.strike (m : Mach) (sub : Nat) (reader : Reader) (addr : W64) : Option Mach :=
  match reader with
  | .issue x slot => m.strikeIssue sub x slot addr
  | .op id => m.strikeOp sub id addr
  | .remote r => m.failRemote r
  | .link r => m.failLink r
  | .red n => m.failSlot n

/-- MEMORY_ERROR (R320, R369): counted, and a self-test of its resource is due; one that cannot be corrected strikes its reader, if it
has one. -/
def Mach.memoryError (m : Mach) (r : Resource) (unit : Nat) (corrected : Bool) (reader : Option Reader) (addr : W64) : Option Mach :=
  let m1 := m.modPkg (fun p => { p.bump (if corrected then 295 else 296) with
    errs := kmod 0 (errKey r unit) (fun n => n + 1) p.errs
    tests := if p.tests.contains (r, unit) then p.tests else p.tests ++ [(r, unit)] })
  match reader with
  | none => some m1
  | some k => if corrected || r == .lane then some m1 else m1.strike (errorSub r) k addr

/-! ### Self-test and repair (R369) -/

/-- Spare lanes of a link direction (R369). -/
abbrev spareLanesPer : Nat := 2

/-- A lasting fault repaired (R369). Lanes are numbered 2 × port + direction: 0 sends, 1 receives. -/
def Mach.repair (m : Mach) (r : Resource) (unit : Nat) : Mach :=
  match r, unitCore r unit with
  | _, some k => m.repairCore r unit k
  | .scratchCluster, none => m.retireCluster unit
  | .lane, none =>
    let p := m.pkg.port (unit / 2)
    let tx := unit % 2 == 0
    if (if tx then p.spareTx else p.spareRx) < spareLanesPer then
      m.modPkg (fun q => q.modPort (unit / 2) (fun r => { r with
        spareTx := if tx then r.spareTx + 1 else r.spareTx
        spareRx := if tx then r.spareRx else r.spareRx + 1
        training := true }))
    else m
  | _, none => m

/-- TARGETED_SELF_TEST (R369): of a resource that no run holds; whether the fault lasts is a free value. A part of a retired core is past
repair. -/
def Mach.selfTest (m : Mach) (r : Resource) (unit : Nat) : Option Mach :=
  if !m.pkg.tests.contains (r, unit) || m.holds r unit then none
  else
    let m1 : Mach := { m with tick := m.tick + 1, pkg := { m.pkg with tests := m.pkg.tests.filter (fun t => t != (r, unit)) } }
    some (if Config.lastingFault m.tick && !(unitCore r unit).any (fun k => (m.core k).dead) then m1.repair r unit else m1)

/-! ### Meanings -/

def execDeviceReset (fw : Firmware) (s : State) : Res := .next { s with m := s.m.deviceReset fw, iss := Issue.none }
def execLifeCycleChange (st : LifeCycle) (sigs : Signatures) (s : State) : Res := s.event (fun m => m.lifeChange st sigs)
def execMemoryError (r : Resource) (u : Nat) (c : Bool) (rd : Option Reader) (a : W64) (s : State) : Res :=
  s.event (fun m => m.memoryError r u c rd a)
def execTargetedSelfTest (r : Resource) (u : Nat) (s : State) : Res := s.event (fun m => m.selfTest r u)
def execWipeFinish (s : State) : Res := s.event (fun m => m.wipeDone)

end Sys2Proof.Machine
end

