-- ==== Sys2Proof/Machine/Window.lean ====
section
/-! DEFINITION. The Quinette window (R364 to R366, R370, R372, R373): its words, the rules for writing each (R13, R149, R361), the
scratchpad and device memory blocks, and the host's accesses as events. Every access is answered by a completion; one that fails
changes nothing else. -/

namespace Sys2Proof.Machine

/-! ### Completions (R364, R167) -/

/-- A completion returned to the host, or owed to it until a wipe has finished (R167). -/
def Mach.complete (m : Mach) (c : Completion) : Mach :=
  if m.pkg.wiping then m.modPkg (fun p => { p with owed := p.owed ++ [c] }) else { m with comps := m.comps ++ [c] }

/-- A window access: `f` gives the machine and the bytes of a load, or nothing where it fails. No access is made while a wipe has
not finished (R167). -/
def State.window (s : State) (f : Mach → Option (Mach × List Byte)) : Res :=
  s.event (fun m =>
    if m.pkg.wiping then none
    else some (match f m with
      | some (m1, bs) => m1.complete { ok := true, bytes := bs }
      | none => m.complete { ok := false, bytes := [] }))

/-- A window write. -/
def State.windowW (s : State) (f : Mach → Option Mach) : Res := s.window (fun m => (f m).map (fun m1 => (m1, [])))

/-! ### Reading (R365) -/

/-- A stream's words (R13). -/
def Stream.word (t : Stream) (i : Nat) : W64 :=
  match i with
  | 0 => t.base | 1 => t.size | 2 => t.head | 3 => t.end_ | 4 => t.seq | 5 => t.cfg | 6 => t.root | _ => t.stat

/-- Words of the configuration block (R372). -/
def Pkg.configWord (p : Pkg) (i : Nat) : W64 :=
  match i with
  | 0 => p.chip.zeroExtend 64
  | 1 => BitVec.ofNat 64 p.nx
  | 2 => BitVec.ofNat 64 p.ny
  | 3 => BitVec.ofNat 64 p.nz
  | 4 => p.expiry.zeroExtend 64
  | _ => 0

/-- Words of the power block (R365): P, F, the four quarter shares, and counter 3 of R332 over all tenants (log 11). -/
def Pkg.powerWord (p : Pkg) (i : Nat) : Option W64 :=
  match i with
  | 0 => some (BitVec.ofNat 64 p.p)
  | 1 => some (BitVec.ofNat 64 p.f)
  | 6 => some ((List.range 8).foldl (fun acc t => acc + rget t p.energyT) 0)
  | _ => if i < 6 then some (BitVec.ofNat 64 ((p.gov (i - 2)).share / 4)) else none

/-- A byte of a Tailrace's stray block (R365). -/
def Tail.strayByte (t : Tail) (b : Nat) : Byte :=
  match t.strays with
  | [] => 0
  | e :: _ => if b < 288 then e.bytes.getD b 0 else if b = 288 then e.tenant.zeroExtend 8 else 0

/-- Counters of the counter block (R373). -/
def counterCount : Nat := 318

/-- One byte of the register blocks; none where the window has nothing to read (R364, R365). -/
def Mach.windowByte (m : Mach) (off : Nat) : Option Byte :=
  let of := fun (w : W64) => some (lane 8 w (off % 8))
  if off < 0x10000 then
    if off % 0x1000 < 64 then of ((m.stream (off / 0x1000)).word (off % 0x1000 / 8)) else none
  else if 0x10000 ≤ off ∧ off < 0x10040 then some (match kget (off - 0x10000) m.pkg.part with
    | some p => BitVec.ofNat 8 p
    | none => 0xFF)
  else if 0x20000 ≤ off ∧ off < 0x20080 then of (rget ((off - 0x20000) / 8) m.pkg.ttab)
  else if 0x30000 ≤ off ∧ off < 0x30040 then of (m.pkg.configWord ((off - 0x30000) / 8))
  else if 0x40000 ≤ off ∧ off < 0x40000 + 8 * counterCount then of (rget ((off - 0x40000) / 8) m.pkg.cnts)
  else if 0x50000 ≤ off ∧ off < 0x50040 then (m.pkg.powerWord ((off - 0x50000) / 8)).map (fun w => lane 8 w (off % 8))
  else if 0x70000 ≤ off ∧ off < 0x70400 then some (BitVec.ofNat 8 (m.ctx (off - 0x70000)).share)
  else if 0x90000 ≤ off ∧ off < 0x90008 then of m.pkg.vectors
  else if 0x100000 ≤ off ∧ off < 0x124000 then some ((m.tail ((off - 0x100000) / 512)).strayByte ((off - 0x100000) % 512))
  else none

/-- Whether a placed run holds a granule (R366). -/
def Mach.granuleHeld (m : Mach) (g : Nat) : Bool := m.runs.any (fun r => r.placed && r.recs.any (fun e => e.granules.contains g))

/-- The pieces of `n` bytes from offset `o` of the cluster scratchpads, one for each pad they touch (R365): location and length. -/
def padPieces (o n : Nat) : List (Nat × Nat) :=
  (List.range ((o + n - 1) / Config.lkBytes - o / Config.lkBytes + 1)).map (fun i =>
    let c := o / Config.lkBytes + i
    let a := max o (Config.lkBytes * c)
    (lkLoc c (a - Config.lkBytes * c), min (o + n) (Config.lkBytes * (c + 1)) - a))

/-- The granules that `n` bytes from a location touch (R366). -/
def granulesOf (loc n : Nat) : List Nat := if n = 0 then [] else (List.range ((loc + n - 1) / 65536 - loc / 65536 + 1)).map (fun i => loc / 65536 + i)

/-- Where `n` bytes of the scratchpad blocks lie (R365, R366), by pieces; none where they are unpopulated or a placed run holds one. -/
def Mach.scratch (m : Mach) (off n : Nat) : Option (List (Nat × Nat)) :=
  let at_ := if off < 0x60000000 then
      let o := off - 0x40000000
      if o % 0x200000 + n ≤ Config.llBytes then some [(llLoc (o / 0x200000) (o % 0x200000), n)] else none
    else
      let o := off - 0x60000000
      if o + n ≤ 32 * Config.lkBytes then some (padPieces o n) else none
  at_.bind (fun l => if l.any (fun p => (granulesOf p.1 p.2).any m.granuleHeld) then none else some l)

/-- Bytes stored to pieces in order. -/
def Mach.storePieces (m : Mach) : List (Nat × Nat) → List Byte → Mach
  | [], _ => m
  | (loc, n) :: rest, bs => (m.store loc (bs.take n)).storePieces rest (bs.drop n)

/-- The pieces of `n` bytes of device memory (R365): through the stream 0 root, no REM page, every address populated. -/
def Mach.device (m : Mach) (va n : Nat) (store : Bool) : Option (List Seg) :=
  match pieces m sequencerCore (m.stream 0).root (n / 65536 + 2) 0 va n with
  | .error _ => none
  | .ok l =>
    if va + n ≤ 2 ^ 56 && l.all (fun g => !leafREM g.leaf && (if store then leafWR g.leaf else leafRD g.leaf) && populated g.pa &&
        populated (g.pa + g.len - 1)) then some l else none

/-- Whether an offset lies in a scratchpad block. -/
def inScratch (off : Nat) : Bool := 0x40000000 ≤ off && off < 0x70000000

/-- A window load (R364, R365). -/
def Mach.windowRead (m : Mach) (off n : Nat) : Option (List Byte) :=
  if 2 ^ 32 ≤ off then (m.device (off - 2 ^ 32) n false).map m.segBytes
  else if inScratch off then (m.scratch off n).map (fun l => l.flatMap (fun p => readBytes m.mem p.1 p.2))
  else (List.range n).foldr (fun i acc =>
    match m.windowByte (off + i), acc with
    | some b, some l => some (b :: l)
    | _, _ => none) (some [])

/-! ### Writing words -/

/-- A stream word written (R13). -/
def Mach.putStream (m : Mach) (k i : Nat) (w : W64) : Option Mach :=
  let t := m.stream k
  let set := fun (u : Stream) => some (m.modStream k (fun _ => u))
  match i with
  | 0 => set { t with base := w }
  | 1 => if w.extractLsb' 5 59 ≠ 0 then none
    else
      let u := { t with size := w }
      set (if u.state = 1 ∧ u.await = none then u.setState u.rest else u)
  | 2 =>
    if (t.state = 4 ∨ (t.state = 0 ∧ t.head = t.end_)) ∧ w.toNat % 4 = 0 ∧ w.toNat ≤ t.end_.toNat ∧ t.end_.toNat ≤ w.toNat + 2 ^ t.log then
      set { t with head := w, len := 0, since := none }
    else none
  | 3 => none
  | 4 => if (t.state = 0 ∨ t.state = 4) ∧ t.open_ = [] ∧ t.seq.toNat ≤ w.toNat then set { t with seq := w } else none
  | 5 => if w.extractLsb' 55 9 ≠ 0 ∨ w.extractLsb' 0 12 ≠ 0 then none else set { t with cfg := w }
  | 6 => set { t with root := w }
  | _ =>
    if w.extractLsb' 17 15 ≠ 0 ∨ w.extractLsb' 3 5 ≠ 0 then none
    else
      let a := if w.getLsbD 16 then t else { t with stat := setField t.stat 16 1 0 }
      set (if w.extractLsb' 0 3 = 0 ∧ t.state = 4 then a.setState t.rest else a)

/-- A slice assigned to a partition (R149): it is wiped before it serves a partition other than its last. A slice
that has served none since reset is wiped too: R149 does not say (DESIGN CHOICE, log 91). -/
def Mach.putPartition (m : Mach) (slice : Nat) (w : Byte) : Option Mach :=
  if w = 0xFF then some (m.modPkg (fun p => { p with part := kdel slice p.part }))
  else if 7 < w.toNat then none
  else
    let m1 := m.modPkg (fun p => { p with part := kput slice w.toNat p.part, lastPart := kput slice w.toNat p.lastPart })
    if kget slice m.pkg.lastPart = some w.toNat then some m1
    else some (({ m1 with
      mem := Memory.clear m1.mem (slice * 2 ^ 33) (2 ^ 33)
      pkg := { m1.pkg with wiping := true } } : Mach).dropTlb (fun t => sliceOf (leafPA t.leaf) == slice))

/-- A configuration word written (R372): a changed chip id or extent locks every port. -/
def Mach.putConfig (m : Mach) (i : Nat) (w : W64) : Option Mach :=
  let p := m.pkg
  let free := !m.runs.any (fun r => r.placed)
  let ext := 1 ≤ w.toNat && w.toNat ≤ 16
  let lock := fun (q : Pkg) => some ((List.range 6).foldl (fun (acc : Mach) k => acc.lockPort k none) { m with pkg := q })
  let same := w = p.configWord i
  match i with
  | 0 =>
    if !free || w.extractLsb' 12 52 != 0 || !p.names (w.extractLsb' 0 12) then none
    else if same then some m else lock { p with chip := w.extractLsb' 0 12 }
  | 1 => if !free || !ext then none else if same then some m else lock { p with nx := w.toNat }
  | 2 => if !free || !ext then none else if same then some m else lock { p with ny := w.toNat }
  | 3 => if !free || !ext then none else if same then some m else lock { p with nz := w.toNat }
  | 4 => if w.extractLsb' 32 32 ≠ 0 then none else some { m with pkg := p.setExpiry (w.extractLsb' 0 32) }
  | _ => if w ≠ 0 then none else some m

/-- P or F written, or counter 3 cleared (R361, R365). -/
def Mach.putPower (m : Mach) (i : Nat) (w : W64) : Option Mach :=
  let p := m.pkg
  match i with
  | 0 => if p.f ≤ w.toNat ∧ w.toNat ≤ 4800 then some { m with pkg := { p with p := w.toNat } } else none
  | 1 => if w.toNat ≤ p.p then some { m with pkg := { p with f := w.toNat } } else none
  | 6 => if w = 0 then some { m with pkg := { p with energyT := [] } } else none
  | _ => none

/-- Slot-table shares written (R365, R19): all the contexts named are judged together. -/
def Mach.putShares (m : Mach) (l : List (Nat × Nat)) : Option Mach :=
  let m1 := l.foldl (fun (acc : Mach) p => acc.modCtx p.1 (fun c => { c with share := p.2 })) m
  if l.all (fun p => (m.ctx p.1).status != .absent && p.2 ≤ 64 && m1.heldShares (coreOf p.1) ≤ 64) then
    some (l.foldl (fun (acc : Mach) p => acc.rebuild (coreOf p.1)) m1)
  else none

/-- A scratchpad claim (R366). DESIGN CHOICE (log 114): a COUNT of 0 is an error, and a store of fewer than 8 bytes to the block, which
reads as nothing, claims with the missing bytes 0. -/
def Mach.claim (m : Mach) (w : W64) : Option Mach :=
  let ten := (w.extractLsb' 36 4).toNat
  let lk := w.getLsbD 35
  let idx := (w.extractLsb' 27 8).toNat
  let first := (w.extractLsb' 19 8).toNat
  let n := (w.extractLsb' 11 8).toNat
  let base := if lk then lkLoc idx 0 / 65536 else llLoc idx 0 / 65536
  let gs := (List.range n).map (fun i => base + first + i)
  if w.extractLsb' 40 24 != 0 || w.extractLsb' 0 11 != 0 || 7 < ten || (lk && 31 < idx) || n < 1 || 128 < n ||
      (if lk then 128 else 24) < first + n || gs.any m.granuleHeld then none
  else some (m.takeGranules ten gs)

/-- The oldest stray entry of a Tailrace freed (R269, R365). -/
def Mach.freeStray (m : Mach) (t : Nat) : Option Mach :=
  if t < 288 then some (m.modTail t (fun q => { q with strays := q.strays.drop 1 })) else none

/-- A word of the register blocks written, at an offset that is a multiple of 8 (R364, R365). -/
def Mach.windowWord (m : Mach) (off : Nat) (w : W64) : Option Mach :=
  if off % 8 ≠ 0 then none
  else if off < 0x10000 then if off % 0x1000 < 64 then m.putStream (off / 0x1000) (off % 0x1000 / 8) w else none
  else if 0x20000 ≤ off ∧ off < 0x20080 then some (m.modPkg (fun p => { p with ttab := rput ((off - 0x20000) / 8) w p.ttab }))
  else if 0x30000 ≤ off ∧ off < 0x30040 then m.putConfig ((off - 0x30000) / 8) w
  else if 0x40000 ≤ off ∧ off < 0x40000 + 8 * counterCount then
    if w = 0 then some (m.modPkg (fun p => { p with cnts := rput ((off - 0x40000) / 8) 0 p.cnts })) else none
  else if 0x50000 ≤ off ∧ off < 0x50040 then m.putPower ((off - 0x50000) / 8) w
  else if off = 0x60000 then if w.toNat < 16 then m.endRun w.toNat m.pkg.endSeq else none
  else if off = 0x60008 then some (m.modPkg (fun p => { p with endSeq := w }))
  else if off = 0x80000 then m.claim w
  else if off = 0x90000 then if w.extractLsb' 32 32 = 0 then some (m.modPkg (fun p => { p with vectors := w })) else none
  else none

/-- A word with some of its bytes replaced by those of a store from `off`. -/
def mergedWord (m : Mach) (base off : Nat) (bs : List Byte) : W64 :=
  ofBytes 64 ((List.range 8).map (fun i =>
    if off ≤ base + i ∧ base + i < off + bs.length then bs.getD (base + i - off) 0 else (m.windowByte (base + i)).getD 0))

/-- A window store (R364, R365): the byte blocks byte by byte, the word blocks word by word, all or nothing. A store to both words of the
end-run block writes the sequence number first (DESIGN CHOICE, log 15). -/
def Mach.windowWrite (m : Mach) (off : Nat) (bs : List Byte) : Option Mach :=
  let n := bs.length
  if 2 ^ 32 ≤ off then (m.device (off - 2 ^ 32) n true).map (fun l => m.storeSegs l bs)
  else if inScratch off then (m.scratch off n).map (fun l => m.storePieces l bs)
  else if n = 0 then none
  else if 0x10000 ≤ off ∧ off + n ≤ 0x10040 then
    (List.zip (List.range n) bs).foldl (fun acc p => acc.bind (fun q => q.putPartition (off - 0x10000 + p.1) p.2)) (some m)
  else if 0x70000 ≤ off ∧ off + n ≤ 0x70400 then m.putShares ((List.zip (List.range n) bs).map (fun p => (off - 0x70000 + p.1, p.2.toNat)))
  else if 0x100000 ≤ off ∧ off < 0x124000 then
    if off % 512 ≤ 504 ∧ 504 < off % 512 + n ∧ off % 512 + n ≤ 512 then m.freeStray ((off - 0x100000) / 512) else none
  else
    let ws := List.range ((off + n - 1) / 8 - off / 8 + 1)
    (if off / 16 = 0x6000 then ws.reverse else ws).foldl (fun acc i =>
      acc.bind (fun q => q.windowWord (8 * (off / 8 + i)) (mergedWord q (8 * (off / 8 + i)) off bs))) (some m)

/-! ### Meanings -/

def execWindowLoad (off : W64) (len : Nat) (s : State) : Res :=
  s.window (fun m => (m.windowRead off.toNat len).map (fun bs => (m, bs)))
def execWindowStore (off : W64) (bs : List Byte) (s : State) : Res := s.windowW (fun m => m.windowWrite off.toNat bs)
def execRegisterWrite (off : W64) (w : W64) (s : State) : Res := s.windowW (fun m => m.windowWord off.toNat w)
def execSstatWrite (k : BitVec 4) (w : W64) (s : State) : Res := s.windowW (fun m => m.putStream k.toNat 7 w)
def execSheadWrite (k : BitVec 4) (w : W64) (s : State) : Res := s.windowW (fun m => m.putStream k.toNat 2 w)
def execSseqWrite (k : BitVec 4) (w : W64) (s : State) : Res := s.windowW (fun m => m.putStream k.toNat 4 w)
def execSendWrite (k : BitVec 4) (w : W64) (s : State) : Res := s.windowW (fun m => m.putStream k.toNat 3 w)
def execPartitionWrite (n : BitVec 6) (w : Byte) (s : State) : Res := s.windowW (fun m => m.putPartition n.toNat w)
def execConfigurationWrite (off : BitVec 6) (w : W64) (s : State) : Res := s.windowW (fun m => m.windowWord (0x30000 + off.toNat) w)
def execCounterClear (off : BitVec 16) (w : W64) (s : State) : Res := s.windowW (fun m => m.windowWord (0x40000 + off.toNat) w)
def execGrantWrite (off : BitVec 6) (w : W64) (s : State) : Res := s.windowW (fun m => m.windowWord (0x50000 + off.toNat) w)
def execEndRun (off : BitVec 4) (w : W64) (s : State) : Res := s.windowW (fun m => m.windowWord (0x60000 + off.toNat) w)
def execShareWindowWrite (x : BitVec 10) (w : Byte) (s : State) : Res := s.windowW (fun m => m.putShares [(x.toNat, w.toNat)])
def execScratchpadClaim (w : W64) (s : State) : Res := s.windowW (fun m => m.claim w)
def execInterruptVectorWrite (w : W64) (s : State) : Res := s.windowW (fun m => m.windowWord 0x90000 w)
def execStrayFree (t : Nat) (s : State) : Res := s.windowW (fun m => m.freeStray t)

end Sys2Proof.Machine
end

