-- ==== Sys2Proof/Machine/Dispatch.lean ====
section
/-! DEFINITION. The meaning of every instruction: one arm for each constructor of Instr. -/

namespace Sys2Proof.Machine

def exec (i : Instr) (s : State) : Host.Outcome State Fault Refusal :=
  match i with
  | .addS64 x0 x1 x2 => Sys2Proof.Machine.execAddS64 x0 x1 x2 s
  | .subS64 x0 x1 x2 => Sys2Proof.Machine.execSubS64 x0 x1 x2 s
  | .mulS64 x0 x1 x2 => Sys2Proof.Machine.execMulS64 x0 x1 x2 s
  | .mulhS64 x0 x1 x2 => Sys2Proof.Machine.execMulhS64 x0 x1 x2 s
  | .mulhZ64 x0 x1 x2 => Sys2Proof.Machine.execMulhZ64 x0 x1 x2 s
  | .andZ64 x0 x1 x2 => Sys2Proof.Machine.execAndZ64 x0 x1 x2 s
  | .orZ64 x0 x1 x2 => Sys2Proof.Machine.execOrZ64 x0 x1 x2 s
  | .addS64Imm x0 x1 x2 => Sys2Proof.Machine.execAddS64Imm x0 x1 x2 s
  | .andZ64Imm x0 x1 x2 => Sys2Proof.Machine.execAndZ64Imm x0 x1 x2 s
  | .orZ64Imm x0 x1 x2 => Sys2Proof.Machine.execOrZ64Imm x0 x1 x2 s
  | .xorZ64Imm x0 x1 x2 => Sys2Proof.Machine.execXorZ64Imm x0 x1 x2 s
  | .liS64 x0 x1 => Sys2Proof.Machine.execLiS64 x0 x1 s
  | .li64 x0 x1 => Sys2Proof.Machine.execLi64 x0 x1 s
  | .xorZ64 x0 x1 x2 => Sys2Proof.Machine.execXorZ64 x0 x1 x2 s
  | .shlZ64Imm x0 x1 x2 => Sys2Proof.Machine.execShlZ64Imm x0 x1 x2 s
  | .shrZ64Imm x0 x1 x2 => Sys2Proof.Machine.execShrZ64Imm x0 x1 x2 s
  | .asrS64Imm x0 x1 x2 => Sys2Proof.Machine.execAsrS64Imm x0 x1 x2 s
  | .shlZ64 x0 x1 x2 => Sys2Proof.Machine.execShlZ64 x0 x1 x2 s
  | .shrZ64 x0 x1 x2 => Sys2Proof.Machine.execShrZ64 x0 x1 x2 s
  | .asrS64 x0 x1 x2 => Sys2Proof.Machine.execAsrS64 x0 x1 x2 s
  | .minS64 x0 x1 x2 => Sys2Proof.Machine.execMinS64 x0 x1 x2 s
  | .maxS64 x0 x1 x2 => Sys2Proof.Machine.execMaxS64 x0 x1 x2 s
  | .minZ64 x0 x1 x2 => Sys2Proof.Machine.execMinZ64 x0 x1 x2 s
  | .maxZ64 x0 x1 x2 => Sys2Proof.Machine.execMaxZ64 x0 x1 x2 s
  | .divS64 x0 x1 x2 => Sys2Proof.Machine.execDivS64 x0 x1 x2 s
  | .divZ64 x0 x1 x2 => Sys2Proof.Machine.execDivZ64 x0 x1 x2 s
  | .remS64 x0 x1 x2 => Sys2Proof.Machine.execRemS64 x0 x1 x2 s
  | .remZ64 x0 x1 x2 => Sys2Proof.Machine.execRemZ64 x0 x1 x2 s
  | .bfxZ64 x0 x1 x2 => Sys2Proof.Machine.execBfxZ64 x0 x1 x2 s
  | .bfxS64 x0 x1 x2 => Sys2Proof.Machine.execBfxS64 x0 x1 x2 s
  | .cmpLtS64 x0 x1 x2 => Sys2Proof.Machine.execCmpLtS64 x0 x1 x2 s
  | .cmpEqS64 x0 x1 x2 => Sys2Proof.Machine.execCmpEqS64 x0 x1 x2 s
  | .cmpLeS64 x0 x1 x2 => Sys2Proof.Machine.execCmpLeS64 x0 x1 x2 s
  | .cmpNeS64 x0 x1 x2 => Sys2Proof.Machine.execCmpNeS64 x0 x1 x2 s
  | .cmpLtZ64 x0 x1 x2 => Sys2Proof.Machine.execCmpLtZ64 x0 x1 x2 s
  | .cmpLeZ64 x0 x1 x2 => Sys2Proof.Machine.execCmpLeZ64 x0 x1 x2 s
  | .bfiZ64 x0 x1 x2 => Sys2Proof.Machine.execBfiZ64 x0 x1 x2 s
  | .cmpLtS64Imm x0 x1 x2 => Sys2Proof.Machine.execCmpLtS64Imm x0 x1 x2 s
  | .cmpEqS64Imm x0 x1 x2 => Sys2Proof.Machine.execCmpEqS64Imm x0 x1 x2 s
  | .cmpLeS64Imm x0 x1 x2 => Sys2Proof.Machine.execCmpLeS64Imm x0 x1 x2 s
  | .cmpNeS64Imm x0 x1 x2 => Sys2Proof.Machine.execCmpNeS64Imm x0 x1 x2 s
  | .cmpLtZ64Imm x0 x1 x2 => Sys2Proof.Machine.execCmpLtZ64Imm x0 x1 x2 s
  | .cmpLeZ64Imm x0 x1 x2 => Sys2Proof.Machine.execCmpLeZ64Imm x0 x1 x2 s
  | .fand x0 x1 x2 => Sys2Proof.Machine.execFand x0 x1 x2 s
  | .fior x0 x1 x2 => Sys2Proof.Machine.execFior x0 x1 x2 s
  | .fxor x0 x1 x2 => Sys2Proof.Machine.execFxor x0 x1 x2 s
  | .fandn x0 x1 x2 => Sys2Proof.Machine.execFandn x0 x1 x2 s
  | .fset x0 => Sys2Proof.Machine.execFset x0 s
  | .fclr x0 => Sys2Proof.Machine.execFclr x0 s
  | .movS64Pop x0 x1 => Sys2Proof.Machine.execMovS64Pop x0 x1 s
  | .movS64Push x0 x1 => Sys2Proof.Machine.execMovS64Push x0 x1 s
  | .popcZ64 x0 x1 => Sys2Proof.Machine.execPopcZ64 x0 x1 s
  | .clzZ64 x0 x1 => Sys2Proof.Machine.execClzZ64 x0 x1 s
  | .ctzZ64 x0 x1 => Sys2Proof.Machine.execCtzZ64 x0 x1 s
  | .cvtF32S64 x0 x1 x2 => Sys2Proof.Machine.execCvtF32S64 x0 x1 x2 s
  | .cvtS64F32 x0 x1 x2 => Sys2Proof.Machine.execCvtS64F32 x0 x1 x2 s
  | .cvtF32Z64 x0 x1 x2 => Sys2Proof.Machine.execCvtF32Z64 x0 x1 x2 s
  | .cvtZ64F32 x0 x1 x2 => Sys2Proof.Machine.execCvtZ64F32 x0 x1 x2 s
  | .ld x0 x1 x2 x3 => Sys2Proof.Machine.execLd x0 x1 x2 x3 s
  | .st x0 x1 x2 x3 => Sys2Proof.Machine.execSt x0 x1 x2 x3 s
  | .ldm x0 x1 x2 x3 => Sys2Proof.Machine.execLdm x0 x1 x2 x3 s
  | .stm x0 x1 x2 x3 => Sys2Proof.Machine.execStm x0 x1 x2 x3 s
  | .pfLg x0 x1 => Sys2Proof.Machine.execPfLg x0 x1 s
  | .ldt x0 x1 x2 x3 => Sys2Proof.Machine.execLdt x0 x1 x2 x3 s
  | .stt x0 x1 x2 x3 => Sys2Proof.Machine.execStt x0 x1 x2 x3 s
  | .ldsS8 x0 x1 x2 x3 => Sys2Proof.Machine.execLdsS8 x0 x1 x2 x3 s
  | .ldsZ8 x0 x1 x2 x3 => Sys2Proof.Machine.execLdsZ8 x0 x1 x2 x3 s
  | .ldsS16 x0 x1 x2 x3 => Sys2Proof.Machine.execLdsS16 x0 x1 x2 x3 s
  | .ldsZ16 x0 x1 x2 x3 => Sys2Proof.Machine.execLdsZ16 x0 x1 x2 x3 s
  | .ldsS32 x0 x1 x2 x3 => Sys2Proof.Machine.execLdsS32 x0 x1 x2 x3 s
  | .ldsZ32 x0 x1 x2 x3 => Sys2Proof.Machine.execLdsZ32 x0 x1 x2 x3 s
  | .ldsS64 x0 x1 x2 x3 => Sys2Proof.Machine.execLdsS64 x0 x1 x2 x3 s
  | .stsZ8 x0 x1 x2 x3 => Sys2Proof.Machine.execStsZ8 x0 x1 x2 x3 s
  | .stsZ16 x0 x1 x2 x3 => Sys2Proof.Machine.execStsZ16 x0 x1 x2 x3 s
  | .stsZ32 x0 x1 x2 x3 => Sys2Proof.Machine.execStsZ32 x0 x1 x2 x3 s
  | .stsZ64 x0 x1 x2 x3 => Sys2Proof.Machine.execStsZ64 x0 x1 x2 x3 s
  | .aaddS64 x0 x1 x2 x3 => Sys2Proof.Machine.execAaddS64 x0 x1 x2 x3 s
  | .aminS64 x0 x1 x2 x3 => Sys2Proof.Machine.execAminS64 x0 x1 x2 x3 s
  | .amaxS64 x0 x1 x2 x3 => Sys2Proof.Machine.execAmaxS64 x0 x1 x2 x3 s
  | .aandZ64 x0 x1 x2 x3 => Sys2Proof.Machine.execAandZ64 x0 x1 x2 x3 s
  | .aorZ64 x0 x1 x2 x3 => Sys2Proof.Machine.execAorZ64 x0 x1 x2 x3 s
  | .axorZ64 x0 x1 x2 x3 => Sys2Proof.Machine.execAxorZ64 x0 x1 x2 x3 s
  | .aswpZ64 x0 x1 x2 x3 => Sys2Proof.Machine.execAswpZ64 x0 x1 x2 x3 s
  | .acasZ64 x0 x1 x2 x3 => Sys2Proof.Machine.execAcasZ64 x0 x1 x2 x3 s
  | .redAddF32 x0 x1 x2 => Sys2Proof.Machine.execRedAddF32 x0 x1 x2 s
  | .redMaxF32 x0 x1 x2 => Sys2Proof.Machine.execRedMaxF32 x0 x1 x2 s
  | .redMinF32 x0 x1 x2 => Sys2Proof.Machine.execRedMinF32 x0 x1 x2 s
  | .redAddS32 x0 x1 x2 => Sys2Proof.Machine.execRedAddS32 x0 x1 x2 s
  | .redMaxS32 x0 x1 x2 => Sys2Proof.Machine.execRedMaxS32 x0 x1 x2 s
  | .redMinS32 x0 x1 x2 => Sys2Proof.Machine.execRedMinS32 x0 x1 x2 s
  | .stLgC x0 x1 x2 => Sys2Proof.Machine.execStLgC x0 x1 x2 s
  | .stLgK x0 x1 x2 x3 => Sys2Proof.Machine.execStLgK x0 x1 x2 x3 s
  | .barWait x0 x1 x2 x3 => Sys2Proof.Machine.execBarWait x0 x1 x2 x3 s
  | .barArrive x0 x1 x2 => Sys2Proof.Machine.execBarArrive x0 x1 x2 s
  | .barInit x0 x1 x2 x3 => Sys2Proof.Machine.execBarInit x0 x1 x2 x3 s
  | .barExp x0 x1 x2 x3 => Sys2Proof.Machine.execBarExp x0 x1 x2 x3 s
  | .waitany x0 x1 x2 x3 => Sys2Proof.Machine.execWaitany x0 x1 x2 x3 s
  | .waita x0 x1 x2 x3 => Sys2Proof.Machine.execWaita x0 x1 x2 x3 s
  | .drain => Sys2Proof.Machine.execDrain s
  | .vaddF32 x0 x1 x2 x3 x4 => Sys2Proof.Machine.execVaddF32 x0 x1 x2 x3 x4 s
  | .vsubF32 x0 x1 x2 x3 x4 => Sys2Proof.Machine.execVsubF32 x0 x1 x2 x3 x4 s
  | .vmulF32 x0 x1 x2 x3 x4 => Sys2Proof.Machine.execVmulF32 x0 x1 x2 x3 x4 s
  | .vfmaF32 x0 x1 x2 x3 x4 => Sys2Proof.Machine.execVfmaF32 x0 x1 x2 x3 x4 s
  | .vminF32 x0 x1 x2 x3 x4 => Sys2Proof.Machine.execVminF32 x0 x1 x2 x3 x4 s
  | .vmaxF32 x0 x1 x2 x3 x4 => Sys2Proof.Machine.execVmaxF32 x0 x1 x2 x3 x4 s
  | .vaddBf16 x0 x1 x2 x3 x4 => Sys2Proof.Machine.execVaddBf16 x0 x1 x2 x3 x4 s
  | .vsubBf16 x0 x1 x2 x3 x4 => Sys2Proof.Machine.execVsubBf16 x0 x1 x2 x3 x4 s
  | .vmulBf16 x0 x1 x2 x3 x4 => Sys2Proof.Machine.execVmulBf16 x0 x1 x2 x3 x4 s
  | .vfmaBf16 x0 x1 x2 x3 x4 => Sys2Proof.Machine.execVfmaBf16 x0 x1 x2 x3 x4 s
  | .vminBf16 x0 x1 x2 x3 x4 => Sys2Proof.Machine.execVminBf16 x0 x1 x2 x3 x4 s
  | .vmaxBf16 x0 x1 x2 x3 x4 => Sys2Proof.Machine.execVmaxBf16 x0 x1 x2 x3 x4 s
  | .vaddF16 x0 x1 x2 x3 x4 => Sys2Proof.Machine.execVaddF16 x0 x1 x2 x3 x4 s
  | .vsubF16 x0 x1 x2 x3 x4 => Sys2Proof.Machine.execVsubF16 x0 x1 x2 x3 x4 s
  | .vmulF16 x0 x1 x2 x3 x4 => Sys2Proof.Machine.execVmulF16 x0 x1 x2 x3 x4 s
  | .vfmaF16 x0 x1 x2 x3 x4 => Sys2Proof.Machine.execVfmaF16 x0 x1 x2 x3 x4 s
  | .vminF16 x0 x1 x2 x3 x4 => Sys2Proof.Machine.execVminF16 x0 x1 x2 x3 x4 s
  | .vmaxF16 x0 x1 x2 x3 x4 => Sys2Proof.Machine.execVmaxF16 x0 x1 x2 x3 x4 s
  | .vdivF32 x0 x1 x2 x3 x4 => Sys2Proof.Machine.execVdivF32 x0 x1 x2 x3 x4 s
  | .vsqrtF32 x0 x1 x2 x3 => Sys2Proof.Machine.execVsqrtF32 x0 x1 x2 x3 s
  | .vabsF32 x0 x1 x2 x3 => Sys2Proof.Machine.execVabsF32 x0 x1 x2 x3 s
  | .vnegF32 x0 x1 x2 x3 => Sys2Proof.Machine.execVnegF32 x0 x1 x2 x3 s
  | .vaddS32 x0 x1 x2 x3 x4 => Sys2Proof.Machine.execVaddS32 x0 x1 x2 x3 x4 s
  | .vsubS32 x0 x1 x2 x3 x4 => Sys2Proof.Machine.execVsubS32 x0 x1 x2 x3 x4 s
  | .vmulS32 x0 x1 x2 x3 x4 => Sys2Proof.Machine.execVmulS32 x0 x1 x2 x3 x4 s
  | .vmulhS32 x0 x1 x2 x3 x4 => Sys2Proof.Machine.execVmulhS32 x0 x1 x2 x3 x4 s
  | .vminS32 x0 x1 x2 x3 x4 => Sys2Proof.Machine.execVminS32 x0 x1 x2 x3 x4 s
  | .vmaxS32 x0 x1 x2 x3 x4 => Sys2Proof.Machine.execVmaxS32 x0 x1 x2 x3 x4 s
  | .vminZ32 x0 x1 x2 x3 x4 => Sys2Proof.Machine.execVminZ32 x0 x1 x2 x3 x4 s
  | .vmaxZ32 x0 x1 x2 x3 x4 => Sys2Proof.Machine.execVmaxZ32 x0 x1 x2 x3 x4 s
  | .vandZ32 x0 x1 x2 x3 x4 => Sys2Proof.Machine.execVandZ32 x0 x1 x2 x3 x4 s
  | .vorZ32 x0 x1 x2 x3 x4 => Sys2Proof.Machine.execVorZ32 x0 x1 x2 x3 x4 s
  | .vxorZ32 x0 x1 x2 x3 x4 => Sys2Proof.Machine.execVxorZ32 x0 x1 x2 x3 x4 s
  | .vshlZ32 x0 x1 x2 x3 x4 => Sys2Proof.Machine.execVshlZ32 x0 x1 x2 x3 x4 s
  | .vshrZ32 x0 x1 x2 x3 x4 => Sys2Proof.Machine.execVshrZ32 x0 x1 x2 x3 x4 s
  | .vasrS32 x0 x1 x2 x3 x4 => Sys2Proof.Machine.execVasrS32 x0 x1 x2 x3 x4 s
  | .vnotZ32 x0 x1 x2 x3 => Sys2Proof.Machine.execVnotZ32 x0 x1 x2 x3 s
  | .vcmpLtF32 x0 x1 x2 x3 x4 => Sys2Proof.Machine.execVcmpLtF32 x0 x1 x2 x3 x4 s
  | .vcmpLeF32 x0 x1 x2 x3 x4 => Sys2Proof.Machine.execVcmpLeF32 x0 x1 x2 x3 x4 s
  | .vcmpEqF32 x0 x1 x2 x3 x4 => Sys2Proof.Machine.execVcmpEqF32 x0 x1 x2 x3 x4 s
  | .vcmpLtS32 x0 x1 x2 x3 x4 => Sys2Proof.Machine.execVcmpLtS32 x0 x1 x2 x3 x4 s
  | .vcmpEqS32 x0 x1 x2 x3 x4 => Sys2Proof.Machine.execVcmpEqS32 x0 x1 x2 x3 x4 s
  | .vcmpLtZ32 x0 x1 x2 x3 x4 => Sys2Proof.Machine.execVcmpLtZ32 x0 x1 x2 x3 x4 s
  | .vmand x0 x1 x2 => Sys2Proof.Machine.execVmand x0 x1 x2 s
  | .vmor x0 x1 x2 => Sys2Proof.Machine.execVmor x0 x1 x2 s
  | .vmxor x0 x1 x2 => Sys2Proof.Machine.execVmxor x0 x1 x2 s
  | .vmnot x0 x1 => Sys2Proof.Machine.execVmnot x0 x1 s
  | .vsel x0 x1 x2 x3 => Sys2Proof.Machine.execVsel x0 x1 x2 x3 s
  | .vperm x0 x1 x2 x3 x4 => Sys2Proof.Machine.execVperm x0 x1 x2 x3 x4 s
  | .vbcast x0 x1 => Sys2Proof.Machine.execVbcast x0 x1 s
  | .vext x0 x1 x2 => Sys2Proof.Machine.execVext x0 x1 x2 s
  | .vins x0 x1 x2 => Sys2Proof.Machine.execVins x0 x1 x2 s
  | .vtr32 x0 x1 => Sys2Proof.Machine.execVtr32 x0 x1 s
  | .vzord x0 x1 => Sys2Proof.Machine.execVzord x0 x1 s
  | .vrowm x0 x1 => Sys2Proof.Machine.execVrowm x0 x1 s
  | .vrsumF32 x0 x1 x2 x3 => Sys2Proof.Machine.execVrsumF32 x0 x1 x2 x3 s
  | .vrmaxF32 x0 x1 x2 x3 => Sys2Proof.Machine.execVrmaxF32 x0 x1 x2 x3 s
  | .vrminF32 x0 x1 x2 x3 => Sys2Proof.Machine.execVrminF32 x0 x1 x2 x3 s
  | .vrsumS32 x0 x1 x2 x3 => Sys2Proof.Machine.execVrsumS32 x0 x1 x2 x3 s
  | .vrandZ32 x0 x1 => Sys2Proof.Machine.execVrandZ32 x0 x1 s
  | .vsetvl x0 => Sys2Proof.Machine.execVsetvl x0 s
  | .vmov x0 x1 x2 x3 => Sys2Proof.Machine.execVmov x0 x1 x2 x3 s
  | .vaccF32 x0 x1 x2 => Sys2Proof.Machine.execVaccF32 x0 x1 x2 s
  | .qmaxF32 x0 x1 => Sys2Proof.Machine.execQmaxF32 x0 x1 s
  | .qmaxBf16 x0 x1 => Sys2Proof.Machine.execQmaxBf16 x0 x1 s
  | .qmaxF16 x0 x1 => Sys2Proof.Machine.execQmaxF16 x0 x1 s
  | .qmvsc x0 x1 => Sys2Proof.Machine.execQmvsc x0 x1 s
  | .qcvtE4m3 x0 x1 x2 x3 x4 x5 x6 => Sys2Proof.Machine.execQcvtE4m3 x0 x1 x2 x3 x4 x5 x6 s
  | .qcvtE5m2 x0 x1 x2 x3 x4 x5 x6 => Sys2Proof.Machine.execQcvtE5m2 x0 x1 x2 x3 x4 x5 x6 s
  | .qcvtE2m1 x0 x1 x2 x3 x4 x5 x6 => Sys2Proof.Machine.execQcvtE2m1 x0 x1 x2 x3 x4 x5 x6 s
  | .qcvtS8 x0 x1 x2 x3 x4 x5 x6 => Sys2Proof.Machine.execQcvtS8 x0 x1 x2 x3 x4 x5 x6 s
  | .qcvtBp8 x0 x1 x2 x3 x4 x5 x6 => Sys2Proof.Machine.execQcvtBp8 x0 x1 x2 x3 x4 x5 x6 s
  | .qdqE4m3 x0 x1 x2 x3 x4 x5 x6 => Sys2Proof.Machine.execQdqE4m3 x0 x1 x2 x3 x4 x5 x6 s
  | .qdqE5m2 x0 x1 x2 x3 x4 x5 x6 => Sys2Proof.Machine.execQdqE5m2 x0 x1 x2 x3 x4 x5 x6 s
  | .qdqE2m1 x0 x1 x2 x3 x4 x5 x6 => Sys2Proof.Machine.execQdqE2m1 x0 x1 x2 x3 x4 x5 x6 s
  | .qdqS8 x0 x1 x2 x3 x4 x5 x6 => Sys2Proof.Machine.execQdqS8 x0 x1 x2 x3 x4 x5 x6 s
  | .qdqBp8 x0 x1 x2 x3 x4 x5 x6 => Sys2Proof.Machine.execQdqBp8 x0 x1 x2 x3 x4 x5 x6 s
  | .qrot => Sys2Proof.Machine.execQrot s
  | .qin x0 x1 => Sys2Proof.Machine.execQin x0 x1 s
  | .qout x0 x1 => Sys2Proof.Machine.execQout x0 x1 s
  | .cvtBf16F32 x0 x1 x2 x3 => Sys2Proof.Machine.execCvtBf16F32 x0 x1 x2 x3 s
  | .cvtF16F32 x0 x1 x2 x3 => Sys2Proof.Machine.execCvtF16F32 x0 x1 x2 x3 s
  | .cvtF32Bf16 x0 x1 => Sys2Proof.Machine.execCvtF32Bf16 x0 x1 s
  | .cvtF32F16 x0 x1 => Sys2Proof.Machine.execCvtF32F16 x0 x1 s
  | .cvtF32S32 x0 x1 x2 x3 => Sys2Proof.Machine.execCvtF32S32 x0 x1 x2 x3 s
  | .cvtS32F32 x0 x1 x2 x3 => Sys2Proof.Machine.execCvtS32F32 x0 x1 x2 x3 s
  | .ldsc x0 x1 x2 => Sys2Proof.Machine.execLdsc x0 x1 x2 s
  | .ldscB x0 x1 x2 => Sys2Proof.Machine.execLdscB x0 x1 x2 s
  | .stsc x0 x1 x2 => Sys2Proof.Machine.execStsc x0 x1 x2 s
  | .ldbS8 x0 x1 => Sys2Proof.Machine.execLdbS8 x0 x1 s
  | .ldbBf16 x0 x1 => Sys2Proof.Machine.execLdbBf16 x0 x1 s
  | .ldbE4m3 x0 x1 => Sys2Proof.Machine.execLdbE4m3 x0 x1 s
  | .ldbE5m2 x0 x1 => Sys2Proof.Machine.execLdbE5m2 x0 x1 s
  | .ldbE2m1 x0 x1 => Sys2Proof.Machine.execLdbE2m1 x0 x1 s
  | .mmBp2 x0 x1 x2 x3 x4 => Sys2Proof.Machine.execMmBp2 x0 x1 x2 x3 x4 s
  | .mmBp3 x0 x1 x2 x3 x4 => Sys2Proof.Machine.execMmBp3 x0 x1 x2 x3 x4 s
  | .mmBp4 x0 x1 x2 x3 x4 => Sys2Proof.Machine.execMmBp4 x0 x1 x2 x3 x4 s
  | .mmBp5 x0 x1 x2 x3 x4 => Sys2Proof.Machine.execMmBp5 x0 x1 x2 x3 x4 s
  | .mmBp6 x0 x1 x2 x3 x4 => Sys2Proof.Machine.execMmBp6 x0 x1 x2 x3 x4 s
  | .mmBp7 x0 x1 x2 x3 x4 => Sys2Proof.Machine.execMmBp7 x0 x1 x2 x3 x4 s
  | .mmBp8 x0 x1 x2 x3 x4 => Sys2Proof.Machine.execMmBp8 x0 x1 x2 x3 x4 s
  | .mmBf16 x0 x1 x2 x3 x4 => Sys2Proof.Machine.execMmBf16 x0 x1 x2 x3 x4 s
  | .mmx x0 x1 x2 x3 x4 => Sys2Proof.Machine.execMmx x0 x1 x2 x3 x4 s
  | .dmm x0 x1 x2 x3 x4 x5 x6 => Sys2Proof.Machine.execDmm x0 x1 x2 x3 x4 x5 x6 s
  | .dmmr x0 x1 x2 x3 x4 x5 x6 => Sys2Proof.Machine.execDmmr x0 x1 x2 x3 x4 x5 x6 s
  | .dtap x0 x1 x2 => Sys2Proof.Machine.execDtap x0 x1 x2 s
  | .ardF32 x0 x1 x2 => Sys2Proof.Machine.execArdF32 x0 x1 x2 s
  | .ardS32 x0 x1 x2 => Sys2Proof.Machine.execArdS32 x0 x1 x2 s
  | .awrF32 x0 x1 x2 => Sys2Proof.Machine.execAwrF32 x0 x1 x2 s
  | .awrS32 x0 x1 x2 => Sys2Proof.Machine.execAwrS32 x0 x1 x2 s
  | .aclr x0 => Sys2Proof.Machine.execAclr x0 s
  | .aexp x0 x1 x2 => Sys2Proof.Machine.execAexp x0 x1 x2 s
  | .ldcv x0 x1 => Sys2Proof.Machine.execLdcv x0 x1 s
  | .ldbm x0 x1 => Sys2Proof.Machine.execLdbm x0 x1 s
  | .mvfo x0 x1 => Sys2Proof.Machine.execMvfo x0 x1 s
  | .addfo x0 x1 => Sys2Proof.Machine.execAddfo x0 x1 s
  | .mvsh x0 x1 => Sys2Proof.Machine.execMvsh x0 x1 s
  | .shadd x0 x1 => Sys2Proof.Machine.execShadd x0 x1 s
  | .lish x0 x1 => Sys2Proof.Machine.execLish x0 x1 s
  | .xsend x0 x1 x2 => Sys2Proof.Machine.execXsend x0 x1 x2 s
  | .xsendLk x0 x1 x2 => Sys2Proof.Machine.execXsendLk x0 x1 x2 s
  | .xmcast x0 x1 x2 => Sys2Proof.Machine.execXmcast x0 x1 x2 s
  | .xmcastLk x0 x1 x2 => Sys2Proof.Machine.execXmcastLk x0 x1 x2 s
  | .xredAddF32 x0 x1 x2 => Sys2Proof.Machine.execXredAddF32 x0 x1 x2 s
  | .xredMaxF32 x0 x1 x2 => Sys2Proof.Machine.execXredMaxF32 x0 x1 x2 s
  | .xredMinF32 x0 x1 x2 => Sys2Proof.Machine.execXredMinF32 x0 x1 x2 s
  | .xredAddBf16 x0 x1 x2 => Sys2Proof.Machine.execXredAddBf16 x0 x1 x2 s
  | .xredAddS32 x0 x1 x2 => Sys2Proof.Machine.execXredAddS32 x0 x1 x2 s
  | .xredMaxS32 x0 x1 x2 => Sys2Proof.Machine.execXredMaxS32 x0 x1 x2 s
  | .ldmap x0 x1 x2 => Sys2Proof.Machine.execLdmap x0 x1 x2 s
  | .swapmap x0 x1 x2 => Sys2Proof.Machine.execSwapmap x0 x1 x2 s
  | .retiremap x0 x1 => Sys2Proof.Machine.execRetiremap x0 x1 s
  | .strays x0 x1 => Sys2Proof.Machine.execStrays x0 x1 s
  | .lnbind x0 x1 => Sys2Proof.Machine.execLnbind x0 x1 s
  | .lnfree x0 => Sys2Proof.Machine.execLnfree x0 s
  | .lnmsg x0 x1 => Sys2Proof.Machine.execLnmsg x0 x1 s
  | .ctset x0 x1 => Sys2Proof.Machine.execCtset x0 x1 s
  | .ctclr x0 => Sys2Proof.Machine.execCtclr x0 s
  | .nop => Sys2Proof.Machine.execNop s
  | .jmp x0 => Sys2Proof.Machine.execJmp x0 s
  | .call x0 => Sys2Proof.Machine.execCall x0 s
  | .jmpr x0 => Sys2Proof.Machine.execJmpr x0 s
  | .br x0 x1 => Sys2Proof.Machine.execBr x0 x1 s
  | .callr x0 => Sys2Proof.Machine.execCallr x0 s
  | .ret => Sys2Proof.Machine.execRet s
  | .loop x0 x1 x2 => Sys2Proof.Machine.execLoop x0 x1 x2 s
  | .loopi x0 x1 x2 => Sys2Proof.Machine.execLoopi x0 x1 x2 s
  | .step x0 x1 x2 => Sys2Proof.Machine.execStep x0 x1 x2 s
  | .stepr x0 x1 x2 => Sys2Proof.Machine.execStepr x0 x1 x2 s
  | .ord x0 x1 => Sys2Proof.Machine.execOrd x0 x1 s
  | .waitF x0 => Sys2Proof.Machine.execWaitF x0 s
  | .tbar => Sys2Proof.Machine.execTbar s
  | .tail x0 x1 => Sys2Proof.Machine.execTail x0 x1 s
  | .endCtx => Sys2Proof.Machine.execEndCtx s
  | .mfs x0 x1 => Sys2Proof.Machine.execMfs x0 x1 s
  | .mts x0 x1 => Sys2Proof.Machine.execMts x0 x1 s
  | .trap x0 => Sys2Proof.Machine.execTrap x0 s
  | .tret => Sys2Proof.Machine.execTret s
  | .csave x0 => Sys2Proof.Machine.execCsave x0 s
  | .crest x0 => Sys2Proof.Machine.execCrest x0 s
  | .ckptg x0 => Sys2Proof.Machine.execCkptg x0 s
  | .replayg x0 => Sys2Proof.Machine.execReplayg x0 s
  | .tlbinv x0 => Sys2Proof.Machine.execTlbinv x0 s
  | .tlbinva => Sys2Proof.Machine.execTlbinva s
  | .enrd x0 x1 => Sys2Proof.Machine.execEnrd x0 x1 s
  | .clkreq x0 => Sys2Proof.Machine.execClkreq x0 s
  | .sgjoin x0 => Sys2Proof.Machine.execSgjoin x0 s
  | .sgleave => Sys2Proof.Machine.execSgleave s
  | .selftest x0 => Sys2Proof.Machine.execSelftest x0 s
  | .irq x0 => Sys2Proof.Machine.execIrq x0 s
  | .brk => Sys2Proof.Machine.execBrk s
  | .pwrgive x0 => Sys2Proof.Machine.execPwrgive x0 s
  | .pwrask x0 => Sys2Proof.Machine.execPwrask x0 s
  | .launch x0 => Sys2Proof.Machine.execLaunch x0 s
  | .waitrun x0 x1 => Sys2Proof.Machine.execWaitrun x0 x1 s
  | .signal x0 x1 x2 => Sys2Proof.Machine.execSignal x0 x1 x2 s
  | .fence => Sys2Proof.Machine.execFence s
  | .append x0 x1 => Sys2Proof.Machine.execAppend x0 x1 s
  | .windowLoad x0 x1 => Sys2Proof.Machine.execWindowLoad x0 x1 s
  | .windowStore x0 x1 => Sys2Proof.Machine.execWindowStore x0 x1 s
  | .registerWrite x0 x1 => Sys2Proof.Machine.execRegisterWrite x0 x1 s
  | .sstatWrite x0 x1 => Sys2Proof.Machine.execSstatWrite x0 x1 s
  | .sheadWrite x0 x1 => Sys2Proof.Machine.execSheadWrite x0 x1 s
  | .sseqWrite x0 x1 => Sys2Proof.Machine.execSseqWrite x0 x1 s
  | .sendWrite x0 x1 => Sys2Proof.Machine.execSendWrite x0 x1 s
  | .partitionWrite x0 x1 => Sys2Proof.Machine.execPartitionWrite x0 x1 s
  | .configurationWrite x0 x1 => Sys2Proof.Machine.execConfigurationWrite x0 x1 s
  | .counterClear x0 x1 => Sys2Proof.Machine.execCounterClear x0 x1 s
  | .grantWrite x0 x1 => Sys2Proof.Machine.execGrantWrite x0 x1 s
  | .endRun x0 x1 => Sys2Proof.Machine.execEndRun x0 x1 s
  | .shareWindowWrite x0 x1 => Sys2Proof.Machine.execShareWindowWrite x0 x1 s
  | .scratchpadClaim x0 => Sys2Proof.Machine.execScratchpadClaim x0 s
  | .interruptVectorWrite x0 => Sys2Proof.Machine.execInterruptVectorWrite x0 s
  | .strayFree x0 => Sys2Proof.Machine.execStrayFree x0 s
  | .runPlacement x0 => Sys2Proof.Machine.execRunPlacement x0 s
  | .runStart x0 => Sys2Proof.Machine.execRunStart x0 s
  | .waitrunDone x0 => Sys2Proof.Machine.execWaitrunDone x0 s
  | .fenceDone x0 => Sys2Proof.Machine.execFenceDone x0 s
  | .signalStorePerformed x0 => Sys2Proof.Machine.execSignalStorePerformed x0 s
  | .runRetire x0 => Sys2Proof.Machine.execRunRetire x0 s
  | .deferredStreamFault x0 => Sys2Proof.Machine.execDeferredStreamFault x0 s
  | .retiredMapsEmpty x0 => Sys2Proof.Machine.execRetiredMapsEmpty x0 s
  | .preempt x0 => Sys2Proof.Machine.execPreempt x0 s
  | .contextResume x0 => Sys2Proof.Machine.execContextResume x0 s
  | .spinWake x0 => Sys2Proof.Machine.execSpinWake x0 s
  | .barWaitWake x0 => Sys2Proof.Machine.execBarWaitWake x0 s
  | .waitanyWake x0 => Sys2Proof.Machine.execWaitanyWake x0 s
  | .waitaWake x0 => Sys2Proof.Machine.execWaitaWake x0 s
  | .waitWake x0 => Sys2Proof.Machine.execWaitWake x0 s
  | .tbarRelease x0 x1 => Sys2Proof.Machine.execTbarRelease x0 x1 s
  | .bufferFullCheckpoint x0 x1 => Sys2Proof.Machine.execBufferFullCheckpoint x0 x1 s
  | .generatorBarrierRelease x0 x1 => Sys2Proof.Machine.execGeneratorBarrierRelease x0 x1 s
  | .faultDelivery x0 x1 => Sys2Proof.Machine.execFaultDelivery x0 x1 s
  | .loadDataReturn x0 => Sys2Proof.Machine.execLoadDataReturn x0 s
  | .engineBegin x0 => Sys2Proof.Machine.execEngineBegin x0 s
  | .vOpComplete x0 => Sys2Proof.Machine.execVOpComplete x0 s
  | .qcOpComplete x0 => Sys2Proof.Machine.execQcOpComplete x0 s
  | .mOpComplete x0 => Sys2Proof.Machine.execMOpComplete x0 s
  | .localPerform x0 => Sys2Proof.Machine.execLocalPerform x0 s
  | .homePerform x0 => Sys2Proof.Machine.execHomePerform x0 s
  | .lgReadPerform x0 => Sys2Proof.Machine.execLgReadPerform x0 s
  | .lgAtomicPerform x0 => Sys2Proof.Machine.execLgAtomicPerform x0 s
  | .drainComplete x0 => Sys2Proof.Machine.execDrainComplete x0 s
  | .pageWalkComplete x0 x1 x2 => Sys2Proof.Machine.execPageWalkComplete x0 x1 x2 s
  | .bolterBlockVerify x0 => Sys2Proof.Machine.execBolterBlockVerify x0 s
  | .dataPacketArrive x0 => Sys2Proof.Machine.execDataPacketArrive x0 s
  | .endMarkerArrive x0 => Sys2Proof.Machine.execEndMarkerArrive x0 s
  | .endMarkerApply x0 => Sys2Proof.Machine.execEndMarkerApply x0 s
  | .transferAck x0 x1 x2 => Sys2Proof.Machine.execTransferAck x0 x1 x2 s
  | .mapInstall x0 => Sys2Proof.Machine.execMapInstall x0 s
  | .mapSwap x0 => Sys2Proof.Machine.execMapSwap x0 s
  | .mapRetire x0 => Sys2Proof.Machine.execMapRetire x0 s
  | .undeliverableNotice x0 => Sys2Proof.Machine.execUndeliverableNotice x0 s
  | .flitReceive x0 x1 => Sys2Proof.Machine.execFlitReceive x0 x1 s
  | .linkReplayRequest x0 x1 => Sys2Proof.Machine.execLinkReplayRequest x0 x1 s
  | .packetForward x0 => Sys2Proof.Machine.execPacketForward x0 s
  | .remoteRequestArrive x0 => Sys2Proof.Machine.execRemoteRequestArrive x0 s
  | .remoteReplyArrive x0 x1 x2 x3 x4 => Sys2Proof.Machine.execRemoteReplyArrive x0 x1 x2 x3 x4 s
  | .remoteRequestTimeout x0 x1 => Sys2Proof.Machine.execRemoteRequestTimeout x0 x1 s
  | .linkPushDepart x0 x1 => Sys2Proof.Machine.execLinkPushDepart x0 x1 s
  | .linkWordArrive x0 => Sys2Proof.Machine.execLinkWordArrive x0 s
  | .linkRequestServe x0 => Sys2Proof.Machine.execLinkRequestServe x0 s
  | .linkReplyArrive x0 x1 x2 x3 => Sys2Proof.Machine.execLinkReplyArrive x0 x1 x2 x3 s
  | .linkRequestTimeout x0 x1 x2 => Sys2Proof.Machine.execLinkRequestTimeout x0 x1 x2 s
  | .causalStorePerform x0 => Sys2Proof.Machine.execCausalStorePerform x0 s
  | .landingNotice x0 => Sys2Proof.Machine.execLandingNotice x0 s
  | .carrierArrive x0 => Sys2Proof.Machine.execCarrierArrive x0 s
  | .carrierEnterSluice => Sys2Proof.Machine.execCarrierEnterSluice s
  | .causalQuery x0 x1 => Sys2Proof.Machine.execCausalQuery x0 x1 s
  | .answerLanded x0 x1 => Sys2Proof.Machine.execAnswerLanded x0 x1 s
  | .answerLost x0 x1 => Sys2Proof.Machine.execAnswerLost x0 x1 s
  | .carrierDeadline x0 => Sys2Proof.Machine.execCarrierDeadline x0 s
  | .ownEntryDeadline x0 => Sys2Proof.Machine.execOwnEntryDeadline x0 s
  | .expiryNotice x0 x1 => Sys2Proof.Machine.execExpiryNotice x0 x1 s
  | .landedRecordExpiry x0 x1 => Sys2Proof.Machine.execLandedRecordExpiry x0 x1 s
  | .reductionContributionArrive x0 => Sys2Proof.Machine.execReductionContributionArrive x0 s
  | .reductionSlotApply x0 => Sys2Proof.Machine.execReductionSlotApply x0 s
  | .xredContributionArrive x0 => Sys2Proof.Machine.execXredContributionArrive x0 s
  | .xredSlotDeadline x0 => Sys2Proof.Machine.execXredSlotDeadline x0 s
  | .reductionSlotAdmit => Sys2Proof.Machine.execReductionSlotAdmit s
  | .ftimeAdjust x0 => Sys2Proof.Machine.execFtimeAdjust x0 s
  | .clockLimitChange x0 => Sys2Proof.Machine.execClockLimitChange x0 s
  | .groupLimitReport x0 x1 x2 x3 => Sys2Proof.Machine.execGroupLimitReport x0 x1 x2 x3 s
  | .groupClockAnnounce x0 x1 x2 => Sys2Proof.Machine.execGroupClockAnnounce x0 x1 x2 s
  | .groupClockSwitch x0 => Sys2Proof.Machine.execGroupClockSwitch x0 s
  | .grantUnitsArrive x0 x1 => Sys2Proof.Machine.execGrantUnitsArrive x0 x1 s
  | .powerAskArrive x0 x1 => Sys2Proof.Machine.execPowerAskArrive x0 x1 s
  | .grantUnitsReturned x0 => Sys2Proof.Machine.execGrantUnitsReturned x0 s
  | .powerPeriod => Sys2Proof.Machine.execPowerPeriod s
  | .energyPeriod => Sys2Proof.Machine.execEnergyPeriod s
  | .deviceReset x0 => Sys2Proof.Machine.execDeviceReset x0 s
  | .lifeCycleChange x0 x1 => Sys2Proof.Machine.execLifeCycleChange x0 x1 s
  | .linkAttestation x0 x1 => Sys2Proof.Machine.execLinkAttestation x0 x1 s
  | .memoryError x0 x1 x2 x3 x4 => Sys2Proof.Machine.execMemoryError x0 x1 x2 x3 x4 s
  | .targetedSelfTest x0 x1 => Sys2Proof.Machine.execTargetedSelfTest x0 x1 s
  | .wipeFinish => Sys2Proof.Machine.execWipeFinish s
  | .linkRetrainDone x0 => Sys2Proof.Machine.execLinkRetrainDone x0 s

end Sys2Proof.Machine
end

