-- ==== Sys2Proof/Machine/Issue.lean ====
section
/-! DEFINITION. One issue of a context (R26, R43 to R72, R99, R310): the fetch, the current words, the checks in their order, the
stalls, the forced checkpoint of a commit point, the words in slot order, and what the issue commits. -/

namespace Sys2Proof.Machine

/-- A slot's word in an issue (R48): the slot, the word, whether the bundle presents it. -/
structure Cur where
  k    : Nat
  w    : Slot
  pres : Bool
  deriving DecidableEq, Repr

/-! ### The bundle (R43, R47, R48, R65) -/

/-- The state as context `x` attempts an issue: of the bundle only its address is known. -/
def State.begin (s : State) (x : Nat) : State :=
  { s with old := s.m, iss := { Issue.none with agent := .ctx x, addr := (s.m.ctx x).ctl.pc } }

/-- The state with the bundle at hand. -/
def State.withBundle (s : State) (b : Bundle) : State :=
  { s with iss := { s.iss with next := s.iss.addr + BitVec.ofNat 64 b.hdr.bytes, hdr := b.hdr, pool := b.pool } }

/-- Whether this is the bundle's first issue (R322). -/
def State.firstIssue (s : State) : Bool := s.oc.ctl.remain == 0

/-- The words of the bundle: those in the instruction buffer in a loop (R65), else those fetched (R47). DESIGN CHOICE (log 100): a header
with reserved bits is refused before the words after it are fetched, where R47 and R99 do not order the two. DESIGN CHOICE (log 105): of
the bytes before and after a store to code, which R47 both allows, a fetch takes those that memory holds at its step. -/
def State.fetchWords (s : State) : Except Fail (List W32) :=
  match (if s.oc.ctl.nlev = 0 then none else kget s.iss.addr.toNat s.oc.ibuf) with
  | some ws => .ok ws
  | none =>
    match s.fetchHeader s.iss.addr with
    | .error c => .error (c, if c.code = 1 then 1 else 0)
    | .ok h =>
      match s.old.access s.cx .fetch s.iss.addr h.bytes 4 with
      | .error c => .error (c, 0)
      | .ok segs => .ok (wordsLE (s.old.segBytes segs))

/-- Where the words `ws` of the bundle come from in memory, if they are fetched: each page's part is one request to its slice (R145, R363). -/
def State.fetchedFrom (s : State) (ws : List W32) : List Nat :=
  if s.oc.ctl.nlev ≠ 0 ∧ (kget s.iss.addr.toNat s.oc.ibuf).isSome then [] else s.old.fetchPas s.cx s.iss.addr (4 * ws.length)

/-- Check 2 of R99: the presented words decoded, or the first slot whose word is refused; a word of the command class is (R17). -/
noncomputable def readWords : List (Nat × W32) → Except Nat (List Cur)
  | [] => .ok []
  | (k, w) :: rest =>
    match decodeSlot (slotMap k) w with
    | .error _ => .error k
    | .ok sl =>
      if k = 0 ∧ commandOp sl.ins.op.toNat = true then .error k
      else match readWords rest with
      | .error j => .error j
      | .ok l => .ok ({ k := k, w := sl, pres := true } :: l)

/-- The sticky word of slot `k` that the bundle leaves out (R48). -/
noncomputable def State.stickyWord (s : State) (k : Nat) : Option Cur :=
  if rget k s.oc.ctl.sticky = 0 then none
  else match decodeSlot (slotMap k) (rget k s.oc.ctl.sticky) with
    | .ok sl => some { k := k, w := sl, pres := false }
    | .error _ => none

/-- The current words in slot order: presented, or sticky and not NOP (R48). -/
noncomputable def State.current (s : State) (l : List Cur) : List Cur :=
  (List.range 12).filterMap (fun k =>
    match l.find? (fun u => u.k == k) with
    | some u => some u
    | none => if k = 0 then none else s.stickyWord k)

/-- The occupied set (R48), bit `k` for slot `k`. -/
def occupied (l : List Cur) : BitVec 12 :=
  l.foldl (fun (acc : BitVec 12) u => if u.k == 0 || u.w.ins != .nop then acc ||| (1 <<< u.k) else acc) 0

/-- The last bundles of the active bodies, walked again where they are not known (R65). -/
def State.refill (s : State) : Except Fail (RMap 64) :=
  (List.range s.oc.ctl.nlev).foldl (fun (acc : Except Fail (RMap 64)) n =>
    match acc with
    | .error f => .error f
    | .ok l =>
      if rget n l != 0 then .ok l
      else match s.walkBody ((rget n s.oc.ctl.blen).toNat - 1) (rget n s.oc.ctl.body) with
        | .error c => .error (c, if c.code = 1 then 1 else 0)
        | .ok (last, _) => .ok (rput n last l)) (.ok s.oc.ctl.lastB)

/-! ### Which words issue (R50, R61, R64, R128) -/

/-- Whether FI and LI let a word issue in this iteration of the innermost active level (R64). -/
def Ctl.selects (c : Ctl) (w : Slot) : Bool :=
  (!w.fi || c.nlev == 0 || c.first.getLsbD (c.nlev - 1)) && (!w.li || c.nlev == 0 || rget (c.nlev - 1) c.lc == 1)

/-- The condition tree of the issue (R60): its number of tests less one, and its literal. -/
def branchTree (l : List Cur) : Option (Nat × Nat × Cur) :=
  match l with
  | u :: _ => if u.k = 0 then (match u.w.ins with
      | .br n k => some (n.toNat, k.toNat, u)
      | _ => none) else none
  | [] => none

/-- The leaf that the issue's tree selects, when the tree issues (R61). -/
def State.leafOf (s : State) (l : List Cur) : Option Nat :=
  match branchTree l with
  | some (n, k, u) => if s.oc.ctl.selects u.w then some (s.treeLeaf n k) else none
  | none => none

/-- Whether a word issues (R50): under its FI, its LI and its path tag. -/
def State.issues (s : State) (leaf : Option Nat) (u : Cur) : Bool :=
  s.oc.ctl.selects u.w && (u.w.pt == 0 || leaf == some u.w.pt.toNat)

/-! ### Registers of the issue (R49, R54, R67, R130) -/

/-- A slot with a running address (R45), and a word that has one. -/
def stepped (u : Cur) : Bool := 7 ≤ u.k && u.k ≤ 10 && u.w.ins != .nop

/-- The registers that a word reads in this issue (R49, R54): a suppressed word reads only what steps its address. -/
def State.reads (s : State) (on : List Cur) (u : Cur) : List RegId :=
  (if on.contains u then readsOf s.lit u.w.ins else []) ++
    (if stepped u then
      (if u.pres && s.firstIssue then addrReadsOf u.w.ins else [.stride (6 * u.k + (s.oc.ctl.nlev - 1))])
    else [])

/-- Whether this issue, once committed, writes a call's link (R130). -/
def State.linkDue (s : State) : Bool := s.oc.ctl.dly == 1 && s.oc.ctl.link

/-- The registers that each word of the issue writes, and the link (R54, R130). -/
def State.writes (s : State) (on : List Cur) : List (List RegId) :=
  (if s.linkDue then [[.g 62]] else []) ++ on.map (fun u => writesOf u.w.ins)

/-- Whether two lists of a list have an element in common. -/
def overlap : List (List RegId) → Bool
  | [] => false
  | l :: rest => rest.any (fun r => l.any r.contains) || overlap rest

/-- A register pending on the scoreboard, or an exposed result still without its data, holds the issue (R26, R66, R67). -/
def State.pendingRegs (s : State) (cur on : List Cur) : Bool :=
  (cur.flatMap (s.reads on) ++ (s.writes on).flatten).any s.oc.busy.contains || s.oc.replay.any (fun e => e.k == 1 && e.src.isSome)

/-- Check 5 of R99: the group dependence rule (R54). -/
def State.dependent (s : State) (cur on : List Cur) : Bool :=
  (cur.flatMap (s.reads on) ++ (s.writes on).flatten).any s.oc.groupW.contains || overlap (s.writes on)

/-! ### Checks 3 and 4 of R99 -/

/-- The first word that fails a check, with its slot. -/
def firstFail (l : List Cur) (f : Cur → Option Fail) : Option (Fail × Nat) :=
  l.findSome? (fun u => (f u).map (fun e => (e, u.k)))

/-- Whether a word's path tag fits the issue's tree (R61). -/
def tagFits (l : List Cur) (u : Cur) : Bool :=
  u.w.pt == 0 || (match branchTree l with
    | some (n, _, _) => u.w.pt.toNat ≤ n + 2
    | none => false)

/-- Check 4: path tags, then what the context demands of each word. A repeated bundle in a delay issue is refused at slot 0 (R52). -/
def State.contextFail (s : State) (cur on : List Cur) : Option (Fail × Nat) :=
  if s.firstIssue && s.oc.ctl.dly != 0 && s.iss.hdr.rep != 0 then some (s.ill 4, 0)
  else firstFail cur (fun u => if tagFits cur u then s.check4 u.k u.w.ins (on.contains u) else some (s.ill 4))

/-! ### Stalls (R26, R67 to R72) -/

/-- Words that enter the V queue, the QC queue and the X queue (R69, R192, R271), and those that enter the M engine (R216). -/
def entersV (u : Cur) : Bool := u.k == 3 && (match u.w.ins with
  | .nop | .vsetvl _ => false
  | _ => true)
def entersQ (u : Cur) : Bool := u.k == 6 && u.w.ins != .nop
def entersX (u : Cur) : Bool := u.k == 11 && (match u.w.ins with
  | .nop | .mvsh _ _ | .shadd _ _ | .lish _ _ | .ctset _ _ | .ctclr _ | .lnbind _ _ | .lnfree _ => false
  | _ => true)
def entersM (u : Cur) : Bool := match u.w.ins with
  | .selftest _ => true
  | .nop | .mvfo _ _ | .addfo _ _ => false
  | _ => u.k == 4

/-- An engine queue that the issue enters is full (R69, R216). -/
def State.queueFull (s : State) (on : List Cur) : Bool :=
  (on.any entersV && 4 ≤ (s.oc.vq.filter (fun o => !o.begun)).length) ||
    (on.any entersQ && 4 ≤ (s.oc.qq.filter (fun o => !o.begun)).length) ||
    (on.any entersX && 4 ≤ (s.oc.xq.filter (fun o => !o.begun)).length) ||
    (on.any entersM && 4 < (s.old.core (coreOf s.cx)).mq.length + (on.filter entersM).length)

/-- The literal that an M word takes, if it takes one. -/
def State.litOf (s : State) : Instr → W32
  | .mmx _ _ _ k _ => s.lit k.toNat
  | .dmm _ _ _ _ k _ _ => s.lit k.toNat
  | .dmmr _ _ _ _ k _ _ => s.lit k.toNat
  | _ => 0

/-- A word as its tiles are named: with its literal, and a `selftest` as the `nop` of its target (R334). -/
def State.tileWord (s : State) (u : Cur) : W32 × Instr :=
  match u.w.ins with
  | .selftest a => (if s.testable (s.rg a) then (s.rg a).extractLsb' 0 8 |>.zeroExtend 32 else 0, .nop)
  | i => (s.litOf i, i)

/-- A tile that the issue reads or overwrites is busy (R68), or one that it writes or clears is still to be read by a queued `vacc` of a context
of the core (R190, R201). -/
def State.tileBusy (s : State) (on : List Cur) : Bool :=
  let busy := (s.old.core (coreOf s.cx)).mq.flatMap (fun o => tilesOf ((o.words.headD 0).extractLsb' 0 32) o.ins)
  let due := (List.range 4).flatMap (fun i => ((s.old.ctx (4 * coreOf s.cx + i)).vq.filter (fun o => !o.begun)).filterMap (fun o => o.tile))
  on.any (fun u => (tilesOf (s.tileWord u).1 (s.tileWord u).2).any busy.contains || (tilesWritten (s.tileWord u).1 (s.tileWord u).2).any due.contains)

/-- The issue writes a register that a queued V or QC operation of the context has still to read (R190, R205). -/
def State.readDue (s : State) (on : List Cur) : Bool :=
  let due := ((s.oc.vq ++ s.oc.qq).filter (fun o => !o.begun)).flatMap (fun o => o.srcs)
  (s.writes on).flatten.any due.contains

/-- Words of the issue that pop link `k`, and words that push it. -/
def popsOf (on : List Cur) (k : Nat) : Nat := (on.filter (fun u => match u.w.ins with
  | .movS64Pop _ j => j.toNat == k
  | _ => false)).length
def pushesOf (on : List Cur) (k : Nat) : Nat := (on.filter (fun u => match u.w.ins with
  | .movS64Push _ j => j.toNat == k
  | _ => false)).length

/-- A link FIFO cannot give or take the words of the issue (R72); a pair that the run does not hold is for the word to find. -/
def State.linkShort (s : State) (on : List Cur) : Bool :=
  (List.range 6).any (fun k =>
    let l := (s.old.core (coreOf s.cx)).link k
    s.holdsLink (BitVec.ofNat 3 k) &&
      (decide (l.inb.length < popsOf on k) || (pushesOf on k != 0 && decide (Config.linkWords < l.outb.length + pushesOf on k))))

/-- A memory word (R67): a load, store, prefetch or atomic of LL, LK, LG or SC. -/
def isAccess (u : Cur) : Bool := stepped u && u.w.ins != .drain

/-- Whether a memory word takes a request tag at its issue (R67): one that makes an access then, but for LG stores and reductions, which take
theirs as they leave for another package (R297). -/
def takesTag (u : Cur) : Bool :=
  isAccess u && (match u.w.ins with
    | .barWait _ _ _ _ | .waitany _ _ _ _ => false
    | .waita sp _ _ _ => sp == .lg
    | .redAddF32 _ _ _ | .redMaxF32 _ _ _ | .redMinF32 _ _ _ | .redAddS32 _ _ _ | .redMaxS32 _ _ _ | .redMinS32 _ _ _ => false
    | .st sp _ _ _ | .stm sp _ _ _ | .stt sp _ _ _ | .stsZ8 sp _ _ _ | .stsZ16 sp _ _ _ | .stsZ32 sp _ _ _ | .stsZ64 sp _ _ _ => sp != .lg
    | _ => true)

/-- A memory word of the issue finds too few request tags (R67). DESIGN CHOICE (log 116): an issue whose words take several tags waits for
as many, so that a core never holds more than its 4,096 (R4). -/
def State.tagsShort (s : State) (on : List Cur) : Bool :=
  on.any isAccess && decide (4096 < s.old.tagsHeld (coreOf s.cx) + max 1 (on.filter takesTag).length)

/-- The bytes of a scratchpad that a word of LL, LK or SC writes: first location and count. -/
def State.localWrite (s : State) (u : Cur) : Option (Nat × Nat) :=
  let sp : Space := if u.k = 9 then .lk else .ll
  let t : State := { s with iss := { s.iss with slot := u.k, fresh := u.pres && s.firstIssue } }
  let at_ := fun (n : Nat) => some ((s.old.window s.cx sp).1 + (t.wordAddr u.w.ins).toNat, n)
  if u.k = 7 ∨ u.k = 8 ∨ u.k = 9 then
    match u.w.ins with
    | .st _ _ _ _ => at_ (4 * s.vl)
    | .stm _ _ _ _ | .stsc _ _ _ => at_ 128
    | .stt _ _ _ _ => at_ 4096
    | .stsZ8 _ _ _ _ => at_ 1
    | .stsZ16 _ _ _ _ => at_ 2
    | .stsZ32 _ _ _ _ => at_ 4
    | .stsZ64 _ _ _ _ | .aaddS64 _ _ _ _ | .aminS64 _ _ _ _ | .amaxS64 _ _ _ _ | .aandZ64 _ _ _ _ | .aorZ64 _ _ _ _
    | .axorZ64 _ _ _ _ | .aswpZ64 _ _ _ _ | .acasZ64 _ _ _ _ => at_ 8
    | .barArrive _ _ _ | .barInit _ _ _ _ | .barExp _ _ _ _ => at_ 16
    | _ => none
  else none

/-- A store to bytes that an issued engine operation of the context still has to read (R218, R246). -/
def State.clobbers (s : State) (on : List Cur) : Bool :=
  let due := ((s.old.core (coreOf s.cx)).mq.filter (fun o => o.ctx == s.cx) ++ s.oc.xq).flatMap (fun o => o.reads)
  on.any (fun u => match s.localWrite u with
    | some (a, n) => due.any (fun r => meet a n r.1 r.2)
    | none => false)

/-- A local access while a `strays` of the context has not written its entry (R282). -/
def State.strayFirst (s : State) (on : List Cur) : Bool :=
  on.any (fun u => u.k == 7 || u.k == 8 || u.k == 9) && s.oc.xq.any (fun o => match o.ins with
    | .strays _ _ => true
    | _ => false)

/-- The scratchpad that a word reads at its issue, if it does (R183 to R185, R279). -/
def State.readsAtIssue (s : State) (u : Cur) : Option Nat :=
  let pad := fun (sp : Space) => match sp with
    | .ll => some (padOf (llLoc (coreOf s.cx) 0))
    | .lk => some (padOf (lkLoc (clusterOf s.cx) 0))
    | .lg => none
  match u.w.ins with
  | .barWait sp _ _ _ | .waitany sp _ _ _ | .waita sp _ _ _ => pad sp
  | .xmcast _ _ _ | .xmcastLk _ _ _ => pad .ll
  | _ => none

/-- A word reads a scratchpad at its issue while an access issued before it, by its context or to that scratchpad, still waits (R171, R238). -/
def State.readsEarly (s : State) (on : List Cur) : Bool :=
  (on.filterMap s.readsAtIssue).any (fun p => s.old.locq.any (fun o => o.ctx == s.cx || padOf o.act.loc == p))

/-- The operations whose tokens the issue's `ord` gives to the word of slot `k` (R133). -/
def State.ordFor (s : State) (on : List Cur) (k : Nat) : List Nat :=
  on.flatMap (fun u => match u.w.ins with
    | .ord j l => if j.toNat = k then s.old.tokenOps s.oc.regs (ordIn (s.lit l.toNat)) else []
    | _ => [])

/-- An LG `waita` of a page whose bytes it reads at its issue, while a token that it consumes is incomplete or an earlier LG operation of its
context waits (R185, R245; DESIGN CHOICE, log 102: the issue stalls). -/
def State.waitaEarly (s : State) (on : List Cur) : Bool :=
  on.any (fun u => match u.w.ins with
    | .waita .lg _ _ _ =>
      let t : State := { s with iss := { s.iss with slot := u.k, fresh := u.pres && s.firstIssue } }
      (!(s.ordFor on u.k).isEmpty || s.old.gops.any (fun g => g.ctx == s.cx && !g.needs.isEmpty && !g.isFeed)) &&
        (match s.old.access s.cx .load (t.wordAddr u.w.ins) 8 8 with
         | .ok segs => segs.all (fun g => !leafREM g.leaf && !leafCXL g.leaf && !leafTSO g.leaf)
         | .error _ => false)
    | _ => false)

/-- Whether a store of the context that its handler sent has still to perform (R313). -/
def Mach.handlerStores (m : Mach) (x : Nat) : Bool := m.gops.any (fun g => g.ctx == x && g.direct)

/-- Whether an engine operation of the context has not completed (R329). -/
def Mach.enginesBusy (m : Mach) (x : Nat) : Bool :=
  let c := m.ctx x
  !c.vq.isEmpty || !c.qq.isEmpty || !c.xq.isEmpty || (m.core (coreOf x)).mq.any (fun o => o.ctx == x) ||
    m.locq.any (fun o => o.ctx == x) || m.rets.any (fun o => o.ctx == x) || m.gops.any (fun g => g.ctx == x && (g.open_ || g.direct))

/-- A system word waits for what its rule names (R329, R331, R335). -/
def State.systemWaits (s : State) (u : Cur) : Bool := match u.w.ins with
  | .csave _ => s.old.enginesBusy s.cx
  | .crest _ => !s.oc.busy.isEmpty || s.old.handlerStores s.cx
  | .tlbinv _ | .tlbinva | .irq _ => s.old.handlerStores s.cx
  | _ => false

/-- Whether the issue stalls for something other than a register (R70). -/
def State.stalls (s : State) (on : List Cur) : Bool :=
  s.queueFull on || s.tileBusy on || s.linkShort on || s.clobbers on || s.strayFirst on || on.any s.systemWaits ||
    s.readDue on || s.tagsShort on || s.readsEarly on || s.waitaEarly on ||
    (on.any (fun u => match u.w.ins with
      | .stLgC _ _ _ => true
      | _ => false) && !s.old.pkg.tokenFree)

/-! ### Commit points (R37, R177, R277, R313) -/

/-- Whether a send of any form leaves the cluster (R277). -/
def State.sendsOut (s : State) (i : Instr) : Bool :=
  let list := fun (d : BitVec 6) =>
    let n := ((s.rg d).extractLsb' 32 5).toNat + 1
    match s.old.local_ s.cx .ll ((s.rg d).extractLsb' 0 32 |>.zeroExtend 64) (8 * n) 8 with
    | .ok loc => (List.range n).any (fun j => s.old.outside s.cx (BitVec.ofNat 64 (s.old.load (loc + 8 * j) 8)))
    | .error _ => false
  match i with
  | .xsend _ _ d | .xsendLk _ _ d | .xredAddF32 _ _ d | .xredMaxF32 _ _ d | .xredMinF32 _ _ d | .xredAddBf16 _ _ d
  | .xredAddS32 _ _ d | .xredMaxS32 _ _ d => s.old.outside s.cx (s.rg d)
  | .xmcast _ _ d | .xmcastLk _ _ d => list d
  | _ => false

/-- Commit points with a second checkpoint once their issue commits (R37). A handler's LG stores make none (R313). -/
def State.commitsTwice (s : State) (u : Cur) : Bool :=
  match u.w.ins with
  | .movS64Pop _ _ | .movS64Push _ _ | .lnmsg _ _ | .drain | .tail _ _ => true
  | .stLgC _ _ _ | .stLgK _ _ _ _ => s.inRun
  | .aaddS64 .lg _ _ _ | .aminS64 .lg _ _ _ | .amaxS64 .lg _ _ _ | .aandZ64 .lg _ _ _ | .aorZ64 .lg _ _ _ | .axorZ64 .lg _ _ _
  | .aswpZ64 .lg _ _ _ | .acasZ64 .lg _ _ _ => s.inRun
  | i => s.sendsOut i

/-- Commit points with the first checkpoint only (R37). -/
def commitsOnce (u : Cur) : Bool := match u.w.ins with
  | .ldbS8 _ _ | .ldbBf16 _ _ | .ldbE4m3 _ _ | .ldbE5m2 _ _ | .ldbE2m1 _ _ | .ldcv _ _ | .ldbm _ _ => true
  | _ => false

/-- Bytes that a word brings into the team store buffer. -/
def State.storedBytes (s : State) (u : Cur) : Nat := match u.w.ins with
  | .st .lg _ _ _ | .redAddF32 _ _ _ | .redMaxF32 _ _ _ | .redMinF32 _ _ _ | .redAddS32 _ _ _ | .redMaxS32 _ _ _ | .redMinS32 _ _ _ => 4 * s.vl
  | .stm .lg _ _ _ => 128
  | .stt .lg _ _ _ => 4096
  | .stsZ8 .lg _ _ _ => 1
  | .stsZ16 .lg _ _ _ => 2
  | .stsZ32 .lg _ _ _ => 4
  | .stsZ64 .lg _ _ _ => 8
  | _ => 0

/-- The store buffer has too little room left for the issue (R37; DESIGN CHOICE, log 96). -/
def State.noRoom (s : State) (on : List Cur) : Bool :=
  let held := s.old.buffered s.oc.rid (clusterOf s.cx)
  s.inRun && held != 0 && decide (Config.storeBufferBytes < held + (on.map s.storedBytes).foldl (fun a b => a + b) 0)

/-- Whether the issue must follow a forced checkpoint (R37): a fault delivered at its `drain` comes before that (R39). -/
def State.forces (s : State) (on : List Cur) : Bool :=
  (on.any (fun u => commitsOnce u || s.commitsTwice u) || s.noRoom on) &&
    !(s.inRun && (s.oc.pend.pex || s.oc.pend.ptf) && on.any (fun u => u.w.ins == .drain))

/-- The state with that checkpoint taken; none while the team is not quiet (R319). -/
def State.forceFirst (s : State) : Option State :=
  match s.team? with
  | none => some s
  | some t => if s.old.canForce t then some { s with old := s.old.forced t } else none

/-! ### The words act -/

/-- The machine as the words of the issue find it: exposed results due now have taken effect, the others are one issue nearer
(R35, R66). -/
def State.open_ (s : State) : State :=
  { s with m := ({ s.old with nextId := s.old.nextId + 1 }).modCtx s.cx (fun c => { c with
      regs := c.seen
      replay := (c.replay.filter (fun (e : Replay) => e.k != 1)).map (fun (e : Replay) => { e with k := e.k - 1 })
      issues := c.issues + 1 }) }

/-- The state in which a word acts. -/
def State.atWord (s : State) (u : Cur) : State :=
  { s with iss := { s.iss with slot := u.k, fresh := u.pres && s.firstIssue, srcs := readsOf s.lit u.w.ins } }

/-- The words act in slot order (R72, R310) until one traps, faults or parks. -/
def runWords : List Cur → State → Res
  | [], s => .next s
  | u :: rest, s =>
    if s.iss.trapped then .next s
    else match exec u.w.ins (s.atWord u) with
      | .next t => runWords rest t
      | .fault f => .fault f
      | .refused r => .refused r

/-! ### What the issue commits (R48, R49, R52, R57 to R65, R130) -/

/-- The sequencer at the end of the bundle `l`, whose next in sequence is `after` (R63), `fuel` levels at most. -/
def Ctl.afterBody (l after : W64) : Nat → Ctl → Ctl
  | 0, c => { c with pc := after }
  | fuel + 1, c =>
    let n := c.nlev - 1
    if c.nlev = 0 ∨ rget n c.lastB ≠ l then { c with pc := after }
    else
      let left := rget n c.lc - 1
      let first := c.first &&& ~~~((1 : BitVec 6) <<< n)
      if left ≠ 0 then { c with lc := rput n left c.lc, first := first, pc := rget n c.body }
      else Ctl.afterBody l after fuel { c with
        lc := rput n left c.lc, first := first, nlev := n, body := rput n 0 c.body, blen := rput n 0 c.blen, lastB := rput n 0 c.lastB }

/-- The context's place in its program after an issue of a bundle (R52, R57, R62, R63); `c` is as the C word has left it. -/
def State.advance (s : State) (c : Ctl) : Ctl :=
  let o := s.oc.ctl
  let left := (if o.remain = 0 then s.iss.hdr.rep.toNat + 1 else o.remain.toNat) - 1
  if left ≠ 0 then { c with remain := BitVec.ofNat 7 left }
  else
    let d := { c with remain := 0 }
    if o.dly = 1 then { d with pc := d.tgt, tgt := 0, dly := 0, link := false }
    else if o.dly ≠ 0 then { d with pc := s.iss.next, dly := o.dly - 1 }
    else if s.iss.taken then { d with pc := s.iss.next }
    else match s.iss.skip with
      | some (last, after) => Ctl.afterBody last after 6 d
      | none => Ctl.afterBody s.iss.addr s.iss.next 6 d

/-- The presented words become sticky (R48). -/
def stick (l : List Cur) (b : Bundle) (m : RMap 32) : RMap 32 :=
  b.words.foldl (fun (acc : RMap 32) p => if p.1 = 0 ∨ !l.any (fun u => u.k == p.1) then acc else rput p.1 p.2 acc) m

/-- The running addresses that the issue leaves (R49, R50). -/
def State.addresses (s : State) (l : List Cur) : RMap 64 :=
  (l.filter stepped).foldl (fun (acc : RMap 64) u => rput u.k ((s.atWord u).wordAddr u.w.ins) acc) s.oc.ctl.raddr

/-- The control state that the issue of bundle `b` commits; `lb` are the last bundles of the active bodies. -/
def State.committed (s : State) (l : List Cur) (b : Bundle) (lb : RMap 64) (c : Ctl) : Ctl :=
  let c1 := if s.iss.taken then c else { c with lastB := (List.range s.oc.ctl.nlev).foldl (fun (acc : RMap 64) n =>
    if rget n acc = 0 then rput n (rget n lb) acc else acc) c.lastB }
  s.advance { c1 with sticky := stick l b c.sticky, raddr := s.addresses l }

/-! ### The spin monitor (R31, R32) -/

/-- Words that make an iteration a changed one (R31): stores, atomics, engine operations, link accesses, `tail`. -/
def spinActs (u : Cur) : Bool := match u.w.ins with
  | .nop | .vsetvl _ | .mvfo _ _ | .addfo _ _ | .mvsh _ _ | .shadd _ _ | .lish _ _ | .ctset _ _ | .ctclr _ | .barWait _ _ _ _
  | .waitany _ _ _ _ | .waita _ _ _ _ | .ld _ _ _ _ | .ldm _ _ _ _ | .ldt _ _ _ _ | .ldsS8 _ _ _ _ | .ldsZ8 _ _ _ _
  | .ldsS16 _ _ _ _ | .ldsZ16 _ _ _ _ | .ldsS32 _ _ _ _ | .ldsZ32 _ _ _ _ | .ldsS64 _ _ _ _ | .ldsc _ _ _ | .ldscB _ _ _ => false
  | .movS64Pop _ _ | .movS64Push _ _ | .tail _ _ | .selftest _ => true
  | _ => 3 ≤ u.k

/-- A watched branch as it is taken again: the iteration that ends is unchanged or not. `early` says that a load has not returned. -/
def Spin.taken (w : Spin) (early : Bool) : Spin :=
  { w with
    dirty := false
    now := []
    last := some w.now
    nowHit := false
    lastHit := w.nowHit
    count := if !w.dirty && !early && w.last == some w.now then w.count + 1 else 0 }

/-- The monitor as the branch at `b` is taken to `t`. DESIGN CHOICE (log 90): a branch is known by its bundle and the target taken, so the
leaves of one tree that go to different targets are different branches; R31 does not say. -/
def spinTaken (l : List Spin) (b t : W64) (early : Bool) : List Spin :=
  if l.any (fun w => w.branch == b && w.target == t) then
    modWhere (fun w => w.branch == b && w.target == t) (fun w => w.taken early) l
  else l ++ [{ branch := b, target := t, dirty := false, now := [], last := none, count := 0, nowHit := false, lastHit := false }]

/-- Loads of the context that have not returned. -/
def Mach.loading (m : Mach) (x : Nat) : Bool :=
  m.locq.any (fun o => o.ctx == x && o.dest != .none) || m.rets.any (fun o => o.ctx == x) ||
    m.gops.any (fun g => g.ctx == x && (match g.act with
      | .read _ => true
      | _ => false))

/-- The context after the issue, as its spin monitor sees it (R31): the words `on` have acted, a transfer may have been taken. -/
def State.monitor (s : State) (on : List Cur) (c : Ctx) : Ctx :=
  let d := if !c.spin.isEmpty && (on.any spinActs || s.oc.differs c) then c.spinChanged else c
  if s.iss.taken && d.ctl.tgt.toNat ≤ s.iss.addr.toNat then
    { d with spin := spinTaken d.spin s.iss.addr d.ctl.tgt (s.m.loading s.cx) }
  else d

/-- The lines on which the monitor parks the context at a branch target (R31), and whether one of them has been stored to since the load
that it watched (R32). DESIGN CHOICE (log 89): an iteration that makes no load has no
last load, and the context is not parked; R31 does not say. -/
def Ctx.spinLines (c : Ctx) : Option (List Nat × Bool) :=
  match c.spin.find? (fun w => w.target == c.ctl.pc && 4 ≤ w.count) with
  | some w =>
    match (w.last.getD []).getLast? with
    | some (ls, ok, _) => if ok && !ls.isEmpty then some (ls, w.lastHit) else none
    | none => none
  | none => none

/-- SPIN_PARK (R31): at the target, after the delay issues. -/
def State.spinPark (s : State) : State :=
  let c := s.nc
  if s.oc.ctl.dly == 1 && c.status == .run then
    match c.spinLines with
    | some (ls, hit) => (s.modC (fun c => { c with status := .parked (.spin ls), hit := hit })).mapM (fun m => m.count c.rid 0 1)
    | none => s
  else s

/-! ### The issue as a whole -/

/-- What an issue whose words have acted commits: the link (R130), the control state, the instruction buffer (R65), the second
checkpoint that a commit point asks for (R177), the store buffer of a team whose last context ends (R23), the group boundary of STOP or the writes of the group (R53, R54), the spin
monitor. -/
def State.commit (s : State) (cur on : List Cur) (b : Bundle) (ws : List W32) (lb : RMap 64) : State :=
  let s1 := if s.linkDue then s.wg 62 s.iss.next else s
  let s2 := s1.modC (fun c =>
    let ctl := s.committed cur b lb c.ctl
    s.monitor on { c with
      ctl := ctl
      ibuf := if ctl.nlev = 0 then [] else if s.oc.ctl.nlev = 0 then c.ibuf else kput s.iss.addr.toNat ws c.ibuf
      groupW := c.groupW ++ (s.writes on).flatten })
  let s3 := if on.any s.commitsTwice then s2.mapM (fun m => m.modTeam s.oc.rid (clusterOf s.cx) (fun t => { t with full := true })) else s2
  let s4 := if s.nc.status == .ended then s3.mapM (fun m => m.commitEnded s.oc.rid (clusterOf s.cx)) else s3
  let s5 := if s.iss.hdr.stop then s4.mapM (fun m => m.boundary s.cx) else s4
  s5.spinPark

/-- Whether a trap record could now be written whole: no load or engine operation still owes a general register or an exposed
result (R311, R312). A trap waits for that. -/
def Ctx.mayTrap (c : Ctx) : Bool :=
  c.busy.all (fun r => match r with
    | .g _ => false
    | _ => true) && c.replay.all (fun e => e.src.isNone)

/-- A trap or a fault found by a check of R99, for slot `k`. -/
def State.refuse (s : State) (f : Fail) (k : Nat) : Option State :=
  if s.oc.mayTrap then some (s.fail f.1 k f.2) else none

/-- The words of an issue that has passed its checks act, and the issue commits; a trap waits until its record can be written. -/
def State.act (s : State) (cur on : List Cur) (b : Bundle) (ws : List W32) (lb : RMap 64) : Option State :=
  match runWords on s.open_ with
  | .next t =>
    if t.iss.trapped = false then some (t.commit cur on b ws lb)
    else match t.nc.status with
      | .parked _ => some t
      | _ => if s.oc.mayTrap then some t else none
  | _ => none

/-- The state in which a wait of the issue has parked the context, if one does: the bundle does not issue yet, so no checkpoint of a
commit point is due (R30, R37). -/
def State.parkedBy (s : State) (on : List Cur) : Option State :=
  match runWords on s.open_ with
  | .next t =>
    match t.iss.trapped, t.nc.status with
    | true, .parked _ => some t
    | _, _ => none
  | _ => none

/-- The issue of bundle `b` with the current words `cur`, from check 3 of R99 on. -/
def State.checked (s : State) (cur : List Cur) (b : Bundle) (ws : List W32) : Option State :=
  match firstFail cur (fun u => s.check3 u.w.ins) with
  | some (f, k) => s.refuse f k
  | none =>
    match s.refill with
    | .error f => s.refuse f 15
    | .ok lb =>
      let on := cur.filter (s.issues (s.leafOf cur))
      if s.pendingRegs cur on then none
      else match s.contextFail cur on with
        | some (f, k) => s.refuse f k
        | none =>
          if s.dependent cur on then s.refuse (s.ill 5) 15
          else if s.stalls on then none
          else if s.forces on then
            match s.parkedBy on with
            | some t => some t
            | none =>
              match s.forceFirst with
              | none => none
              | some t => t.act cur on b ws lb
          else s.act cur on b ws lb

/-- Whether everything that the context's handler issued is done (R328). -/
def Mach.handlerDone (m : Mach) (x : Nat) : Bool :=
  let c := m.ctx x
  let late := fun (id : Nat) => c.trp.from_ ≤ id
  !c.vq.any (fun o => late o.id) && !c.qq.any (fun o => late o.id) && !c.xq.any (fun o => late o.id) &&
    !(m.core (coreOf x)).mq.any (fun o => o.ctx == x && late o.id) && !m.locq.any (fun o => o.ctx == x && late o.id) &&
    !m.rets.any (fun o => o.ctx == x && late o.id) && !m.gops.any (fun g => g.ctx == x && late g.id) && c.drains.isEmpty

/-- A `tret` whose wait is over (R328). -/
def State.finishReturn (s : State) (x : Nat) : Option State :=
  let c := s.m.ctx x
  if c.status == .parked .ret && c.share != 0 && !c.preempt && s.m.handlerDone x then
    some { s with m := (s.m.modCtx x (fun d => { d with status := .run })).trapReturn x }
  else none

/-- A generator barrier that a rollback has abandoned is issued again (R330): the context arrives at it once more, or, where a barrier of
another kind is open, takes the run-state trap at its bundle (DEDUCED, log 101). -/
def State.barrierAgain (s : State) (x : Nat) : Option State :=
  match (s.m.ctx x).status with
  | .parked (.regen r off at_) =>
    let m1 := s.m.modCtx x (fun c => { c with status := .run })
    if !m1.mayIssue x then none
    else if (s.begin x).otherBarrier (if r then 3 else 2) then
      some { s with m := (m1.modCtx x (fun c => { c with ctl := at_ })).enter x at_.pc (tcause 0x05 0 0 0 0 false) at_.pc }
    else some { s with m := (m1.modCtx x (fun c => { c with status := .parked (.gen r off at_) })).boundary x }
  | _ => none

/-- The issue that context `x` can make now, with its occupied set (R26, R28): none when the context is not ready. Its fetch counts among the
requests of its run (R363). -/
noncomputable def State.attempt (s : State) (x : Nat) : Option (State × BitVec 12) :=
  if s.m.mayIssue x = false then ((s.finishReturn x).or (s.barrierAgain x)).map (fun t => (t, 0))
  else
    let s1 := s.begin x
    match s1.fetchWords with
    | .error f => (s1.refuse f 15).map (fun t => (t, 0))
    | .ok ws =>
      (match decodeBundle ws with
        | .error _ => (s1.refuse (s1.ill 1) 15).map (fun t => (t, 0))
        | .ok b =>
          let s2 := s1.withBundle b
          match readWords b.words with
          | .error k => (s2.refuse (s2.ill 2) k).map (fun t => (t, 0))
          | .ok l =>
            let cur := s2.current l
            (s2.checked cur b ws).map (fun t => (t, occupied cur))).map (fun (p : State × BitVec 12) =>
        (p.1.mapM (fun m => m.serve s1.oc.rid (s1.fetchedFrom ws)), p.2))

end Sys2Proof.Machine
end

