-- ==== Sys2Proof/Machine/Choice.lean ====
section
/-! DEFINITION. What a step does (R28, R50, R233): one event, one command, one issue, or the end of a cycle. The spec leaves open when
the device's own events happen; an agenda in the state fixes that, and when it is empty the machine takes the first event that can
happen, else a command, else an issue in the order of R28, else the cycle ends. -/

namespace Sys2Proof.Machine

/-! ### Events that can happen -/

/-- Whether a context waits for a remote read (R185). -/
def Status.reads : Status → Bool
  | .parked (.read _) => true
  | _ => false

/-- Whether an event that the machine may choose for itself can happen now. -/
def Mach.can (m : Mach) : Instr → Bool
  | .runPlacement r => (m.place r).isSome
  | .runStart r => (m.start r).isSome
  | .waitrunDone k => (m.waitrunDone k.toNat).isSome
  | .fenceDone k => (m.fenceDone k.toNat).isSome
  | .signalStorePerformed k => (m.signalDone k.toNat).isSome
  | .runRetire r => (m.retire r).isSome
  | .deferredStreamFault k => (m.lateStreamFault k.toNat).isSome
  | .retiredMapsEmpty t => (m.emptyMaps t).isSome
  | .preempt x => (m.tryPreempt x).isSome
  | .contextResume x => (m.resume x).isSome
  | .spinWake x => (m.spinWake x).isSome
  | .barWaitWake x => (m.barWake x).isSome
  | .waitanyWake x => (m.anyWake x).isSome
  | .waitaWake x => ((m.ctx x).hit || (m.ctx x).status.reads) && (m.lineWake x).isSome
  | .waitWake x => (m.flagWake x).isSome
  | .tbarRelease r cl => (m.tbarRelease r cl).isSome
  | .bufferFullCheckpoint r cl => (m.bufferFull r cl).isSome
  | .generatorBarrierRelease r cl => (m.genRelease r cl).isSome
  | .faultDelivery r cl => (m.tryDeliver r cl).isSome
  | .loadDataReturn id => (m.dataReturn id).isSome
  | .engineBegin id => (m.engineBegin id).isSome
  | .vOpComplete x => (m.vComplete x).isSome
  | .qcOpComplete x => (m.qcComplete x).isSome
  | .mOpComplete k => (m.mComplete k).isSome
  | .localPerform id => (m.localPerform id).isSome
  | .homePerform id => (m.homePerform id).isSome
  | .lgReadPerform id => (m.readPerform id).isSome
  | .lgAtomicPerform id => (m.atomicPerform id).isSome
  | .drainComplete x => (m.drained x).isSome
  | .bolterBlockVerify k => (m.bolter k).isSome
  | .dataPacketArrive p => (m.dataPacket p).isSome
  | .endMarkerArrive p => (m.endMarker p).isSome
  | .endMarkerApply t => (m.endApply t).isSome
  | .transferAck c t n => (m.transferAck c t n).isSome
  | .mapInstall t => (m.mapStep t 1).isSome
  | .mapSwap t => (m.mapStep t 2).isSome
  | .mapRetire t => (m.mapStep t 3).isSome
  | .undeliverableNotice n => (m.undeliverable n).isSome
  | .packetForward p => (m.forward p.1.toNat p.2).isSome
  | .linkReplayRequest k c => (m.replay k.toNat c).isSome
  | .targetedSelfTest r u => (m.selfTest r u).isSome
  | .remoteRequestArrive r => (m.serveRemote r).isSome
  | .remoteReplyArrive _ _ _ _ _ | .landingNotice _ | .expiryNotice _ _ | .grantUnitsReturned _ => true
  | .remoteRequestTimeout c t => (m.requestTimeout c t).isSome
  | .linkPushDepart c k => (m.pushDepart c k.toNat).isSome
  | .linkWordArrive w => (m.linkWord w).isSome
  | .linkRequestServe r => (m.linkServe r).isSome
  | .linkReplyArrive c k st d => (m.linkReply c k.toNat st d).isSome
  | .linkRequestTimeout c k t => (m.linkTimeout c k.toNat t).isSome
  | .causalStorePerform p => (m.causalStore p).isSome
  | .carrierArrive p => (m.carrier p).isSome
  | .carrierEnterSluice => m.admitCarrier.isSome
  | .causalQuery c n => (m.query c n).isSome
  | .answerLanded c n => (m.answerLanded c n).isSome
  | .answerLost c n => (m.answerLost c n).isSome
  | .carrierDeadline n => (m.carrierDeadline n).isSome
  | .ownEntryDeadline n => (m.entryDeadline n).isSome
  | .landedRecordExpiry c n => (m.recordExpiry c n).isSome
  | .reductionContributionArrive p => (m.redArrive p).isSome
  | .reductionSlotApply n => (m.applyRed n).isSome
  | .xredContributionArrive p => (m.xredArrive p).isSome
  | .xredSlotDeadline n => (m.xredDeadline n).isSome
  | .reductionSlotAdmit => m.admitRed.isSome
  | .clockLimitChange q => (m.limitChange q).isSome
  | .groupLimitReport n c q k => (m.limitReport n c q k).isSome
  | .groupClockAnnounce g k t => (m.announce g.1 g.2 k t).isSome
  | .groupClockSwitch q => (m.switchClock q).isSome
  | .grantUnitsArrive c n => (m.unitsArrive c n).isSome
  | .powerAskArrive c n => (m.askArrive c n).isSome
  | .wipeFinish => m.wipeDone.isSome
  | _ => false

/-- The event in which a message under way inside the package arrives; its sender is this package. -/
noncomputable def Mach.arrivalEvent (m : Mach) : Sent → Option Instr
  | .land _ p => some (if hdrEnd p.hdr then .endMarkerArrive p else .dataPacketArrive p)
  | .xred _ p => some (.xredContributionArrive p)
  | .causal _ p => some (if p.carries.isEmpty then .causalStorePerform p else .carrierArrive p)
  | .red _ p => some (.reductionContributionArrive p)
  | .remote _ r => some (.remoteRequestArrive r)
  | .reply _ c t g st d => some (.remoteReplyArrive c t g st d)
  | .linkWord _ w => some (.linkWordArrive w)
  | .linkReq _ r => some (.linkRequestServe r)
  | .linkReply _ c k st d => some (.linkReplyArrive c.toNat k st d)
  | .ack _ c t n => some (.transferAck c.toNat t n)
  | .notice _ n => some (.landingNotice n)
  | .query _ n => some (.causalQuery m.pkg.chip n)
  | .answer _ n landed => some (if landed then .answerLanded m.pkg.chip n else .answerLost m.pkg.chip n)
  | .expiry _ x va t g => some (.expiryNotice (x, va) (t, g))
  | .undeliverable _ n => some (match n with
    | .units k => .grantUnitsReturned k
    | _ => .undeliverableNotice n)
  | .transit _ k _ => some (.packetForward (k, false))
  | .give _ n => some (.grantUnitsArrive m.pkg.chip n)
  | .ask _ n => some (.powerAskArrive m.pkg.chip n)
  | .limit _ g q k => some (.groupLimitReport g m.pkg.chip q k)
  | .groupClock _ n q k t => some (.groupClockAnnounce (n, q) k t)
  | .replayRequest _ _ | .attest _ _ | .report _ => none

/-- Events of a context: its engines, its waits, pre-emption. -/
noncomputable def Mach.contextEvents (p : Nat × Ctx) : List Instr :=
  ((p.2.vq ++ p.2.qq).map (fun o => Instr.engineBegin o.id)) ++ p.2.xq.map (fun o => Instr.engineBegin o.id) ++
    (if p.2.vq.isEmpty then [] else [.vOpComplete p.1]) ++ (if p.2.qq.isEmpty then [] else [.qcOpComplete p.1]) ++
    (if p.2.drains.isEmpty then [] else [.drainComplete p.1]) ++
    (match p.2.status with
     | .parked (.spin _) => [.spinWake p.1]
     | .parked (.bar _) => [.barWaitWake p.1]
     | .parked (.any _ _) => [.waitanyWake p.1]
     | .parked (.line _) | .parked (.read _) => [.waitaWake p.1]
     | .parked (.flags _) => [.waitWake p.1]
     | _ => []) ++ [.preempt p.1, .contextResume p.1]

/-- Events of a team (R36, R37, R316). -/
noncomputable def Team.events (t : Team) : List Instr :=
  [.faultDelivery t.rid t.cluster, .bufferFullCheckpoint t.rid t.cluster, .tbarRelease t.rid t.cluster,
   .generatorBarrierRelease t.rid t.cluster]

/-- Events of a core: its M engine, the Bolter, its links and its requests. -/
noncomputable def Mach.coreEvents (m : Mach) (p : Nat × Core) : List Instr :=
  (if p.2.mq.isEmpty then [] else p.2.mq.map (fun o => Instr.engineBegin o.id) ++ [.bolterBlockVerify p.1, .mOpComplete p.1]) ++
    p.2.links.flatMap (fun q => (if q.2.outb.isEmpty then [] else [Instr.linkPushDepart p.1 (BitVec.ofNat 3 q.1)]) ++
      q.2.out_.map (fun t => Instr.linkRequestTimeout p.1 (BitVec.ofNat 3 q.1) (BitVec.ofNat 12 t.1))) ++
    (m.tagsUsed p.1).map (fun t => Instr.remoteRequestTimeout (BitVec.ofNat 8 p.1) t)

/-- Events of a stream (R15, R16). -/
noncomputable def Mach.streamEvents (p : Nat × Stream) : List Instr :=
  let k := BitVec.ofNat 4 p.1
  [.waitrunDone k, .fenceDone k, .signalStorePerformed k, .deferredStreamFault k]

/-- Events of a Tailrace. -/
noncomputable def Mach.tailEvents (p : Nat × Tail) : List Instr :=
  (match p.2.landing with
   | some l => [.dataPacketArrive l.pkt]
   | none => []) ++ (if p.2.ends.isEmpty then [] else [.endMarkerApply p.1]) ++
    (if p.2.ops.isEmpty then [] else [.mapInstall p.1, .mapSwap p.1, .mapRetire p.1]) ++
    (if p.2.slots.isEmpty then [] else [.retiredMapsEmpty p.1])

/-- Events of the package: tokens, the Sluice, reduction slots, the Governors, self-tests (R369). -/
noncomputable def Pkg.events (p : Pkg) : List Instr :=
  (if p.wiping then [.wipeFinish] else []) ++ p.tests.map (fun t => Instr.targetedSelfTest t.1 t.2) ++ (if p.jam.isEmpty then [] else [.carrierEnterSluice]) ++
    (if p.redJam.isEmpty && p.xredJam.isEmpty then [] else [.reductionSlotAdmit]) ++
    (List.range p.redSlots.length).map Instr.reductionSlotApply ++ (List.range p.xredSlots.length).map Instr.xredSlotDeadline ++
    p.own.map (fun e => Instr.ownEntryDeadline (BitVec.ofNat 16 e.1)) ++
    (List.range (p.sluice.length + p.jam.length)).map Instr.carrierDeadline ++
    p.landed.map (fun l => Instr.landedRecordExpiry l.chip l.seq) ++
    p.govs.flatMap (fun g => if g.2.changes.isEmpty then [] else [Instr.groupClockSwitch g.1])

/-- The events that the machine looks at, in the order in which it prefers them. -/
noncomputable def Mach.candidates (m : Mach) : List Instr :=
  m.pkg.events ++ m.teams.flatMap Team.events ++ m.rets.map (fun o => Instr.loadDataReturn o.id) ++
    m.locq.map (fun o => Instr.localPerform o.id) ++
    m.gops.flatMap (fun g => [Instr.lgReadPerform g.id, .lgAtomicPerform g.id, .homePerform g.id]) ++
    m.ctxs.flatMap Mach.contextEvents ++ m.cores.flatMap m.coreEvents ++ m.net.filterMap m.arrivalEvent ++
    (m.out.filterMap m.pkg.portOf).map (fun k => Instr.packetForward (BitVec.ofNat 3 k, true)) ++ m.tails.flatMap Mach.tailEvents ++
    m.streams.flatMap Mach.streamEvents ++ m.runs.flatMap (fun r => [Instr.runRetire r.id, .runPlacement r.id, .runStart r.id])

/-- The event that happens next when the agenda leaves it to the machine. -/
noncomputable def Mach.due (m : Mach) : Option Instr := if m.pkg.stuck then none else m.candidates.find? m.can

/-! ### Commands (R15) -/

/-- A command's header: only the C word is presented, and it is issued once (R15). -/
def commandHeader (h : Header) : Bool := h.p == 0x800 && h.rep == 0

/-- A C word that a command may hold (R15, R17). -/
def commandWord (w : Slot) : Bool := !w.fi && !w.li && commandOp w.ins.op.toNat

/-- The state in which the sequencer of stream `k` executes a command of header `h` and literals `pool` (R15). -/
def State.atCommand (s : State) (k : Nat) (h : Header) (pool : List W32) : State :=
  { s with
    m := s.m.modStream k (fun t => { t.setState 1 with len := h.bytes })
    old := s.m
    iss := { Issue.none with agent := .seq k, hdr := h, pool := pool } }

/-- Stream `k` faults at its next command (R16). -/
def State.commandFault (s : State) (k : Nat) (code : BitVec 8) : Option State := some { s with m := s.m.streamFault k code 0 }

/-- The next command of stream `k` executes, or faults (R14, R15, R16): none while there is none to begin. DESIGN CHOICE (log 88): a header
that no command may have faults as soon as END covers it, for its own length is then not one to wait for; R15 does not say when. -/
noncomputable def State.commandOf (s : State) (k : Nat) : Option State :=
  let t := s.m.stream k
  let left := (t.end_ - t.head).toNat
  if s.m.pkg.stuck || s.m.pkg.wiping || t.await.isSome || !t.late.isEmpty || t.state == 4 || !t.logOk || left < 4 then none
  else
    match s.m.ringRead t t.head 4 with
    | none => s.commandFault k 0x02
    | some hb =>
      match decodeHeader (BitVec.ofNat 32 (leNat hb)) with
      | .error _ => s.commandFault k 0x01
      | .ok h =>
        if !commandHeader h then s.commandFault k 0x01
        else if left < h.bytes then none
        else
          match s.m.ringRead t t.head h.bytes with
          | none => s.commandFault k 0x02
          | some bs =>
            match wordsLE bs with
            | _ :: w :: pool =>
              match decodeSlot .c w with
              | .error _ => s.commandFault k 0x01
              | .ok c =>
                if commandWord c then
                  match exec c.ins (s.atCommand k h pool) with
                  | .next u => some u
                  | _ => none
                else s.commandFault k 0x01
            | _ => s.commandFault k 0x01

/-- The first stream with a command to begin. -/
noncomputable def State.nextCommand (s : State) : Option State := (s.m.streams.map (fun p => p.1)).findSome? s.commandOf

/-! ### The cycle (R27, R28) -/

/-- The order in which a core looks for a ready context in this cycle (R28). -/
def Mach.order (m : Mach) (k : Nat) : List Nat :=
  let p := (m.core k).table.getD (m.cyc % 64) 4
  ((List.range 4).map (fun i => if p < 4 then (p + i) % 4 else i)).map (fun i => 4 * k + i)

/-- The cores that hold a context, from the core whose turn it is. -/
def Mach.coresLeft (m : Mach) : List Nat := ((m.ctxs.map (fun p => coreOf p.1)).eraseDups).filter (fun k => decide (m.turn ≤ k))

/-- The first issue of core `k` in this cycle (R28). -/
noncomputable def State.firstOf (s : State) (k : Nat) : Option State :=
  (s.m.order k).findSome? (fun x => (s.attempt x).map (fun p => { p.1 with m := { p.1.m with turn := k, first := some (x, p.2) } }))

/-- The second issue of core `k` (R28): the next ready context after the first, if their occupied sets are disjoint. -/
noncomputable def State.secondOf (s : State) (k x : Nat) (occ : BitVec 12) : Option State :=
  let later := ((s.m.order k).dropWhile (fun y => y != x)).drop 1
  match later.findSome? s.attempt with
  | some (t, o) => if o &&& occ = 0 then some { t with m := { t.m with turn := k + 1, first := .none } } else none
  | none => none

/-- The next issue of the cycle, if any core can still make one. -/
noncomputable def State.issueNext (s : State) : Option State :=
  match s.m.first with
  | some (x, occ) =>
    match s.secondOf (coreOf x) x occ with
    | some t => some t
    | none => (s.m.coresLeft.filter (fun k => k != coreOf x)).findSome? s.firstOf
  | none => s.m.coresLeft.findSome? s.firstOf

/-- A cycle ends: time passes (R358), a rebuilt slot table takes effect before entry 0 (R27), the commands that stand at the heads of their
streams have reached them (R21), and each port sees whether its far side is in reset (R298). -/
def Mach.pass (m : Mach) : Mach :=
  let adopt := fun (c : Core) => match c.next with
    | some t => { c with table := t, next := none }
    | none => c
  (List.range 6).foldl Mach.watchPort { m with
    cyc := m.cyc + 1
    tick := m.tick + 1
    turn := 0
    first := none
    cores := if (m.cyc + 1) % 64 = 0 then m.cores.map (fun p => (p.1, adopt p.2)) else m.cores
    streams := m.streams.map (fun p => (p.1, p.2.arrived m.cyc))
    pkg := if m.pkg.counting then { m.pkg with ftime := m.pkg.ftime + Config.timeStep m.tick } else m.pkg }

/-- What the machine does when it does not take an event: a command, else an issue, else the cycle ends. -/
noncomputable def State.proceed (s : State) : State :=
  match s.nextCommand with
  | some t => t
  | none =>
    match s.issueNext with
    | some t => t
    | none => { s with m := s.m.pass }

/-- Whether an entry of the agenda names an event: it stands in no opcode map (R84 to R96). -/
def Instr.isEvent (i : Instr) : Bool := tableMaps.all (fun sm => !i.inMap sm)

/-- One step: the agenda's first choice, or the machine's own. -/
noncomputable def State.advanceOne (s : State) : Res :=
  match s.agenda with
  | some ev :: rest => if Instr.isEvent ev then exec ev { s with agenda := rest } else .next { s with agenda := rest }
  | none :: rest => .next ({ s with agenda := rest }.proceed)
  | [] =>
    match s.m.due with
    | some ev => exec ev s
    | none => .next s.proceed

end Sys2Proof.Machine
end

