-- ==== Sys2Proof/Machine/FirstWord.lean ====
section
/-! DEFINITION. A word stood where the machine fetches its next instruction: what a loader and a launched run amount to (R13 to R22).
`step` of the state it gives runs that word. -/

namespace Sys2Proof.Machine

/-- The slot of the first map that accepts the word (log 2), C when none does. -/
noncomputable def slotOfWord (w : W32) : Nat :=
  (([(SlotMap.c, 0), (.s, 1), (.mem .ll, 8), (.mem .lk, 9), (.mem .lg, 10), (.v, 3), (.m, 4), (.qm, 5), (.qc, 6), (.sc, 7), (.x, 11)]).find?
    (fun p => match decodeSlot p.1 w with
      | .ok _ => true
      | .error _ => false)).elim 0 (fun p => p.2)

/-- A bundle of one word in slot `k` with 31 literals of zero (R43): the words above those of the instruction are zero. -/
def bundleOf (k : Nat) (w : W32) : List Byte :=
  bytesLE (encodeHeader { p := 1 <<< (11 - k), rep := 0, stop := false, lits := 31 }) ++ bytesLE w ++ List.replicate 124 0

/-- Virtual and physical address of the bundle, and of the ring of stream 0. -/
abbrev wordAt : Nat := 0x10000
abbrev ringAt : Nat := 0x20000

/-- The root table at 0x40010000 and its level-2 table at 0x40020000 (R150): one leaf maps the first GiB to itself, to read, write and
fetch from (R151). -/
def tables (m : Memory) : Memory :=
  writeBytes (writeBytes m 0x40010000 (natLE 8 0x8000000040020000)) 0x40020000 (natLE 8 0xC00000000000E000)

/-- The run that holds context 0: its core's tiles, stones, curve tables and branch maps, two granules of core scratchpad and one of
cluster scratchpad (R18). -/
def firstRun (id : Nat) : Run :=
  { id := id, stream := 0, pos := 1, time := 0, tenant := 0, root := 0x40010000, part := 0, bin := 0, args := 0, pc := BitVec.ofNat 64 wordAt,
    recs := [{ cluster := 0, core := 0, ctxMask := 1, tiles := 0xFF, stones := 0xF, curves := 0xF, maps := 0xF, share := 64, llBase := 0,
               llCnt := 2, lkBase := 0, lkCnt := 1 }],
    placed := false, begun := false, stopped := false, cnt := [], served := [], flits := 0, energy := 0,
    child := none }

/-- The machine with no run and no stream, slice 0 in partition 0 (R149), the tables in memory. -/
def Mach.bare (m : Mach) : Mach :=
  { m with
    ctxs := [], cores := [], runs := [], teams := [], streams := [], turn := 0, first := none
    mem := tables m.mem
    pkg := { m.pkg with part := [(0, 0)], tlb := [], tests := [], wiping := false, stuck := false } }

/-- A word of a context: the run is placed and begun, the bundle stands at its first address. -/
def Mach.standWord (m : Mach) (k : Nat) (w : W32) : Mach :=
  let m1 := m.bare
  let m2 := { m1 with mem := writeBytes m1.mem wordAt (bundleOf k w), runs := [firstRun m.nextId], nextId := m.nextId + 1 }
  let m3 := (m2.place m.nextId).getD m2
  (m3.modRun m.nextId (fun r => { r with begun := true })).modPkg (fun p => { p with wiping := false })

/-- A command: it stands at HEAD of stream 0, and END covers it (R14, R15). -/
def Mach.standCommand (m : Mach) (w : W32) : Mach :=
  let m1 := m.bare
  let b := bundleOf 0 w
  { m1 with
    mem := writeBytes m1.mem ringAt b
    streams := [(0, { Stream.zero with base := BitVec.ofNat 64 ringAt, end_ := BitVec.ofNat 64 b.length, cfg := 0x00000000FFF01000, root := 0x40010000 })] }

/-- The machine with the word stood where it is fetched next. -/
noncomputable def Mach.stand (m : Mach) (w : W32) : Mach :=
  let op := w.extractLsb' 20 7
  if slotOfWord w = 0 ∧ commandOp op.toNat = true then m.standCommand w else m.standWord (slotOfWord w) w

end Sys2Proof.Machine
end

