-- ==== Sys2Proof/Machine/Step.lean ====
section
/-! DEFINITION. The step of the machine, and the state in which a given word is fetched next. Everything that they do stands in
Choice.lean, Issue.lean and FirstWord.lean. -/

namespace Sys2Proof.Machine

/-- One step: an event, a command, an issue or the end of a cycle (R28). -/
noncomputable def step (s : State) : Host.Outcome State Fault Refusal := s.advanceOne

/-- The state with the word `w` of `nbits` bits stood where the next issue or command fetches it, and that the very next choice. -/
noncomputable def State.withFetchWord (s : State) (nbits w : Nat) : State :=
  { s with m := s.m.stand (BitVec.ofNat 32 (w % 2 ^ nbits)), agenda := [none] }

end Sys2Proof.Machine
end

