-- ==== Sys2Proof/Certificates/Slice0/Obligations.lean ====
section
/-! DEFINITION. The statements about the machine. `Sys2Proof.Claims` holds the tables and the shorthands that they use: values written
from the spec's own formulas, states written as the spec describes them. -/

namespace Sys2Proof.Claims

open Sys2Proof.Machine

/-! ### Numbers and rounding -/

/-- The real value of a finite number; 0 for the others. -/
noncomputable def realOf : Machine.Num → ℝ
  | .fin neg m e => (if neg then -1 else 1) * (m : ℝ) * (2 : ℝ) ^ e
  | _ => 0

/-- The value of a finite number. -/
noncomputable def valueR (neg : Bool) (m : Nat) (e : Int) : ℝ := (if neg then -1 else 1) * (m : ℝ) * (2 : ℝ) ^ e

/-- The magnitudes that a format represents, its exponents continued upwards with the spacing of its top binade (R106): multiples `k` of
2^`q`, where `q` is a spacing of the format. -/
def gridAt (f : Fmt) (y : ℝ) (k : Nat) (q : Int) : Prop :=
  y = (k : ℝ) * (2 : ℝ) ^ q ∧ f.qmin ≤ q ∧ q ≤ f.emax - f.mant ∧ (k < 2 ^ (f.mant + 1) ∨ q = f.emax - f.mant)
def onGrid (f : Fmt) (y : ℝ) : Prop := ∃ k q, gridAt f y k q

/-- Neighbours on the grid: nothing representable lies between them, and their distance is 2^`q`. -/
def neighbours (f : Fmt) (lo hi : ℝ) (k : Nat) (q : Int) : Prop :=
  gridAt f lo k q ∧ hi = lo + (2 : ℝ) ^ q ∧ onGrid f hi ∧ ∀ y, lo < y → y < hi → ¬ onGrid f y

/-- The magnitude that R106 chooses for an exact result of sign `neg` and magnitude `x`. -/
def picks (f : Fmt) (r : Round) (neg : Bool) (x a : ℝ) : Prop :=
  (onGrid f x ∧ a = x) ∨ (¬ onGrid f x ∧ ∃ lo hi k q, neighbours f lo hi k q ∧ lo < x ∧ x < hi ∧
    match r with
    | .rne => (x - lo < hi - x ∧ a = lo) ∨ (hi - x < x - lo ∧ a = hi) ∨ (x - lo = hi - x ∧ a = if k % 2 = 0 then lo else hi)
    | .rz => a = lo
    | .rd => a = if neg then hi else lo
    | .ru => a = if neg then lo else hi
    | .sr w =>
      if neg then a = if (w.toNat : Int) < ⌊(hi - x) * 2 ^ 32 / (hi - lo)⌋ then lo else hi
      else a = if (w.toNat : Int) < ⌊(x - lo) * 2 ^ 32 / (hi - lo)⌋ then hi else lo)

/-- The largest finite magnitude of a format (R100). -/
noncomputable def largest (f : Fmt) : ℝ := (f.top : ℝ) * (2 : ℝ) ^ (f.emax - (f.mant : Int))

/-- What an overflowing result becomes (R108): the largest magnitude where it saturates, under RZ, and towards zero; else an infinity. -/
def overflowBits (f : Fmt) (sat : Bool) (r : Round) (neg : Bool) : Nat :=
  if sat = true ∨ r = .rz ∨ (r = .rd ∧ neg = false) ∨ (r = .ru ∧ neg = true) then f.maxBits neg else f.infBits neg

/-- `res` is the exact result `x` (not zero) rounded once to a format (R106, R108 to R110). -/
def roundsTo (f : Fmt) (sat : Bool) (r : Round) (x : ℝ) (res : Nat × XF) : Prop :=
  let neg : Bool := decide (x < 0)
  ∃ a, picks f r neg |x| a ∧
    (a ≤ largest f → (∃ m e, f.decode res.1 = .fin neg m e ∧ valueR neg m e = (if neg then -a else a)) ∧
      (res.2.getLsbD 0 = true ↔ a ≠ |x|) ∧ (res.2.getLsbD 1 = true → a ≠ |x| ∧ |x| < (2 : ℝ) ^ (1 - (f.bias : Int))) ∧ res.2.getLsbD 2 = false) ∧
    (largest f < a → res = (overflowBits f sat r neg, 0b00101)) ∧ res.2.getLsbD 3 = false ∧ res.2.getLsbD 4 = false

/-- `i` is the integer that R106 chooses for the exact value `x`. -/
def integerPicked (r : Round) (x : ℝ) (i : Int) : Prop :=
  (i : ℝ) = x ∨ ((∀ j : Int, (j : ℝ) ≠ x) ∧
    match r with
    | .rne => 2 * |x - i| < 1 ∨ (2 * |x - i| = 1 ∧ i % 2 = 0)
    | .rz => (x < 0 → i = ⌈x⌉) ∧ (0 ≤ x → i = ⌊x⌋)
    | .rd => i = ⌊x⌋
    | .ru => i = ⌈x⌉
    | .sr w => i = if (w.toNat : Int) < ⌊(x - ⌊x⌋) * 2 ^ 32⌋ then ⌈x⌉ else ⌊x⌋)

/-- `res` is a number rounded to an integer of the range from `lo` to `hi`, with its flags (R108, R111): what lies outside is held to the
range and raises invalid alone, as do a NaN, which gives 0, and an infinity. -/
def integerOf (r : Round) (lo hi : Int) (n : Machine.Num) (res : Int × XF) : Prop :=
  match n with
  | .nan => res = (0, 0b10000)
  | .inf neg => res = (if neg then lo else hi, 0b10000)
  | .fin neg m e => ∃ i : Int, integerPicked r (valueR neg m e) i ∧ (i < lo → res = (lo, 0b10000)) ∧ (hi < i → res = (hi, 0b10000)) ∧
      (lo ≤ i → i ≤ hi → res.1 = i ∧ ((res.2 = 0 ∧ (i : ℝ) = valueR neg m e) ∨ (res.2 = 0b00001 ∧ (i : ℝ) ≠ valueR neg m e)))

/-- `res` is a number of another format converted to the format `f`, with its flags (R106, R108, R111): a NaN gives the canonical one, an
infinity and a zero keep their sign, and any other value is rounded. -/
def floatOf (f : Fmt) (sat : Bool) (r : Round) (n : Machine.Num) (res : Nat × XF) : Prop :=
  match n with
  | .nan => res = (f.nan, 0)
  | .inf neg => f.decode res.1 = .inf neg ∧ res.2 = 0
  | .fin neg m e => (m = 0 → (∃ d, f.decode res.1 = .fin neg 0 d) ∧ res.2 = 0) ∧ (m ≠ 0 → roundsTo f sat r (valueR neg m e) res)

end Sys2Proof.Claims

namespace Sys2Proof.Claims

open Sys2Proof.Machine

/-! ### The S0 and S1 slots -/

/-- The register and the value that an S word without a literal writes (R134, R138), by exact arithmetic on integers. -/
def scalarValue (s : State) : Instr → Option (BitVec 6 × W64)
  | .addS64 d a b => some (d, BitVec.ofInt 64 ((s.rg a).toInt + (s.rg b).toInt))
  | .subS64 d a b => some (d, BitVec.ofInt 64 ((s.rg a).toInt - (s.rg b).toInt))
  | .mulS64 d a b => some (d, BitVec.ofInt 64 ((s.rg a).toInt * (s.rg b).toInt))
  | .mulhS64 d a b => some (d, BitVec.ofInt 64 ((s.rg a).toInt * (s.rg b).toInt / 2 ^ 64))
  | .mulhZ64 d a b => some (d, BitVec.ofNat 64 ((s.rg a).toNat * (s.rg b).toNat / 2 ^ 64))
  | .andZ64 d a b => some (d, s.rg a &&& s.rg b)
  | .orZ64 d a b => some (d, s.rg a ||| s.rg b)
  | .xorZ64 d a b => some (d, s.rg a ^^^ s.rg b)
  | .addS64Imm d a i => some (d, BitVec.ofInt 64 ((s.rg a).toInt + i.toInt))
  | .andZ64Imm d a i => some (d, s.rg a &&& BitVec.ofInt 64 i.toInt)
  | .orZ64Imm d a i => some (d, s.rg a ||| BitVec.ofInt 64 i.toInt)
  | .xorZ64Imm d a i => some (d, s.rg a ^^^ BitVec.ofInt 64 i.toInt)
  | .shlZ64Imm d a n => some (d, BitVec.ofNat 64 ((s.rg a).toNat * 2 ^ n.toNat))
  | .shrZ64Imm d a n => some (d, BitVec.ofNat 64 ((s.rg a).toNat / 2 ^ n.toNat))
  | .asrS64Imm d a n => some (d, BitVec.ofInt 64 ((s.rg a).toInt / 2 ^ n.toNat))
  | .shlZ64 d a b => some (d, BitVec.ofNat 64 ((s.rg a).toNat * 2 ^ ((s.rg b).toNat % 64)))
  | .shrZ64 d a b => some (d, BitVec.ofNat 64 ((s.rg a).toNat / 2 ^ ((s.rg b).toNat % 64)))
  | .asrS64 d a b => some (d, BitVec.ofInt 64 ((s.rg a).toInt / 2 ^ ((s.rg b).toNat % 64)))
  | .minS64 d a b => some (d, BitVec.ofInt 64 (min (s.rg a).toInt (s.rg b).toInt))
  | .maxS64 d a b => some (d, BitVec.ofInt 64 (max (s.rg a).toInt (s.rg b).toInt))
  | .minZ64 d a b => some (d, BitVec.ofNat 64 (min (s.rg a).toNat (s.rg b).toNat))
  | .maxZ64 d a b => some (d, BitVec.ofNat 64 (max (s.rg a).toNat (s.rg b).toNat))
  | .popcZ64 d a => some (d, BitVec.ofNat 64 ((Finset.range 64).filter (fun k => (s.rg a).getLsbD k = true)).card)
  | .clzZ64 d a => some (d, if s.rg a = 0 then 64 else BitVec.ofNat 64 (63 - Nat.log2 (s.rg a).toNat))
  | .ctzZ64 d a => some (d, if s.rg a = 0 then 64 else BitVec.ofNat 64 (padicValNat 2 (s.rg a).toNat))
  | _ => none

/-- The flag and the value that a compare or a flag form writes (R139, R140). -/
def flagValue (s : State) : Instr → Option (BitVec 4 × Bool)
  | .cmpLtS64 c a b => some (c, decide ((s.rg a).toInt < (s.rg b).toInt))
  | .cmpEqS64 c a b => some (c, decide ((s.rg a).toNat = (s.rg b).toNat))
  | .cmpLeS64 c a b => some (c, decide ((s.rg a).toInt ≤ (s.rg b).toInt))
  | .cmpNeS64 c a b => some (c, decide ((s.rg a).toNat ≠ (s.rg b).toNat))
  | .cmpLtZ64 c a b => some (c, decide ((s.rg a).toNat < (s.rg b).toNat))
  | .cmpLeZ64 c a b => some (c, decide ((s.rg a).toNat ≤ (s.rg b).toNat))
  | .cmpLtS64Imm c a i => some (c, decide ((s.rg a).toInt < i.toInt))
  | .cmpEqS64Imm c a i => some (c, decide ((s.rg a).toInt = i.toInt))
  | .cmpLeS64Imm c a i => some (c, decide ((s.rg a).toInt ≤ i.toInt))
  | .cmpNeS64Imm c a i => some (c, decide ((s.rg a).toInt ≠ i.toInt))
  | .cmpLtZ64Imm c a i => some (c, decide ((s.rg a).toNat < (BitVec.ofInt 64 i.toInt).toNat))
  | .cmpLeZ64Imm c a i => some (c, decide ((s.rg a).toNat ≤ (BitVec.ofInt 64 i.toInt).toNat))
  | .fand c a b => some (c, s.regs.flag a.toNat && s.regs.flag b.toNat)
  | .fior c a b => some (c, s.regs.flag a.toNat || s.regs.flag b.toNat)
  | .fxor c a b => some (c, s.regs.flag a.toNat != s.regs.flag b.toNat)
  | .fandn c a b => some (c, s.regs.flag a.toNat && !s.regs.flag b.toNat)
  | .fset c => some (c, true)
  | .fclr c => some (c, false)
  | _ => none

/-- The words that the issue's literal pool holds for a form of `n` literals from index `k` (R46, R97). -/
def holdsLits (s : State) (k : BitVec 5) (n : Nat) : Prop := k.toNat + n ≤ s.iss.hdr.lits.toNat

/-- The state after check `k` of R99 has refused the word of this slot: the illegal-encoding trap, whose TADDR is the bundle. -/
def refusedAt (s : State) (k : Nat) : State := s.fail { code := 0x01, sub := 0, addr := s.iss.addr } s.iss.slot k

/-- The literal of a bit-field form gives position and length of a field that lies within 64 bits (R85, R137). -/
def fieldFits (w : W32) : Prop := w.toNat / 4096 = 0 ∧ w.toNat % 64 + (w.toNat / 64 % 64 + 1) ≤ 64

/-- The draw and the later state of a conversion under RM `r` (R107, R142): generator 0 under RM 4, none otherwise. -/
def drawOne (s : State) (r : BitVec 3) : Round × State :=
  if r = 4 then (.sr ((s.draws 0 1).1.headD 0), (s.draws 0 1).2)
  else (match r.toNat with
    | 0 => .rne
    | 1 => .rz
    | 2 => .rd
    | 3 => .ru
    | _ => .sr 0, s)

/-- The scalar conversions (R108, R111, R142): the register written, RM, and which value and flags the source gives under a rounding mode. -/
def conversion (s : State) : Instr → Option (BitVec 6 × BitVec 3 × (Round → W64 × XF → Prop))
  | .cvtF32S64 d a r => some (d, r, fun m y => y.1.toNat < 2 ^ 32 ∧
      floatOf fmtF32 false m (.fin (decide ((s.rg a).toInt < 0)) (s.rg a).toInt.natAbs 0) (y.1.toNat, y.2))
  | .cvtF32Z64 d a r => some (d, r, fun m y => y.1.toNat < 2 ^ 32 ∧
      floatOf fmtF32 false m (.fin false (s.rg a).toNat 0) (y.1.toNat, y.2))
  | .cvtS64F32 d a r => some (d, r, fun m y =>
      integerOf m (-(2 ^ 63)) (2 ^ 63 - 1) (fmtF32.decode ((s.rg a).toNat % 2 ^ 32)) (y.1.toInt, y.2))
  | .cvtZ64F32 d a r => some (d, r, fun m y =>
      integerOf m 0 (2 ^ 64 - 1) (fmtF32.decode ((s.rg a).toNat % 2 ^ 32)) ((y.1.toNat : Int), y.2))
  | _ => none

/-- Link pair `k` of the issuing context's core as the words before this one have left it. -/
def linkNow (s : State) (k : BitVec 3) : Link := (s.m.core (coreOf s.cx)).link k.toNat

/-- The issuing run has bound link `k` of its core (R141, R284). -/
def bound (s : State) (k : BitVec 3) : Prop := ((s.old.core (coreOf s.cx)).link k.toNat).holder = some s.oc.rid

/-- Link pair `k` after a word has joined its outbound FIFO. -/
def withWord (s : State) (k : BitVec 3) (w : W64) : Link :=
  { linkNow s k with outb := (linkNow s k).outb ++ [(w, 4 * s.no + s.cx % 4, (linkNow s k).bind)] }

/-- Words of a request, by the operation of its header (R294). -/
def wordsOf (h : W64) : Nat := requestWords (h.toNat / 2 ^ 60)

/-- The state with link pair `k` of the issuing context's core replaced. -/
def withLink (s : State) (k : BitVec 3) (l : Link) : State :=
  let c : Core := s.m.core (coreOf s.cx)
  { s with m := { s.m with cores := kput (coreOf s.cx) { c with links := kput k.toNat l c.links } s.m.cores } }

/-- A header of R294 with the generation `g` in its bits 47 to 44. -/
def stamped (w : W64) (g : BitVec 4) : W64 := BitVec.ofNat 64 (w.toNat / 2 ^ 48 * 2 ^ 48 + g.toNat * 2 ^ 44)

/-- The state with a record for the team's next rollback, which takes back what the word has done until the second checkpoint of its
issue is taken (R37); what a handler does is not taken back (R313). -/
def noted (s : State) (u : Undo) : State :=
  if s.nc.trp.handler then s
  else { s with m := { s.m with
    teams := modWhere (fun t => t.rid == s.nc.rid && t.cluster == clusterOf s.cx) (fun t => { t with undo := u :: t.undo }) s.m.teams } }

/-- What a push of the word `w` on a link that the run holds does, by the word `i` (R141, R284, R294, R296). -/
def pushes (s : State) (k : BitVec 3) (w : W64) (i : Instr) : Prop :=
  let l := linkNow s k
  let mode := l.bind.toNat / 256 % 4
  let tag := w.toNat / 2 ^ 48 % 2 ^ 12
  let op := w.toNat / 2 ^ 60
  let gen := rget tag l.gen + 1
  let header := 1 ≤ op ∧ op ≤ 10 ∧ w.toNat % 2 ^ 48 = 0
  let back : Undo := .pushed (coreOf s.cx) k.toNat l.asm (if mode = 1 ∧ l.asm = [] then some (tag, rget tag l.gen, kget tag l.out_) else none)
  let pushed := fun (m : Link) => exec i s = .next (noted (withLink s k m) back)
  let trap := fun (a : W64) => exec i s = .next (s.fail { code := 0x04, sub := k.toNat, addr := a } s.iss.slot 0)
  (mode = 0 → pushed (withWord s k w)) ∧
  (mode ≠ 0 → l.asm = [] → header →
    pushed { withWord s k (stamped w gen) with asm := [w], gen := rput tag gen l.gen, out_ := kput tag 0 l.out_ }) ∧
  (mode ≠ 0 → l.asm = [] → ¬ header → trap s.iss.addr) ∧
  (∀ h, mode ≠ 0 → l.asm = [h] →
    (∀ g, s.m.access s.cx (linkKind (h.toNat / 2 ^ 60)) w 8 8 = .ok [g] → leafREM g.leaf = true →
      (leafCHIP g.leaf).toNat = l.bind.toNat / 2 ^ 16 % 2 ^ 12 →
      pushed { withWord s k (BitVec.ofNat 64 g.pa) with asm := if wordsOf h = 2 then [] else [h, w] }) ∧
    ((∀ g, s.m.access s.cx (linkKind (h.toNat / 2 ^ 60)) w 8 8 = .ok [g] → leafREM g.leaf = false ∨
      (leafCHIP g.leaf).toNat ≠ l.bind.toNat / 2 ^ 16 % 2 ^ 12) → trap w)) ∧
  (∀ h a rest, mode ≠ 0 → l.asm = h :: a :: rest →
    pushed { withWord s k w with asm := if wordsOf h = rest.length + 3 then [] else h :: a :: rest ++ [w] })

end Sys2Proof.Claims

open Sys2Proof Sys2Proof.Machine Sys2Proof.Claims

/-- R134, R138: the integer forms of the S slots write the value that exact integer arithmetic gives, taken modulo 2^64, and nothing
else changes. -/
def Sys2Proof.Claims.ScalarArithmeticResults : Prop :=
  ∀ (s : State) (i : Instr) (d : BitVec 6) (v : W64), scalarValue s i = some (d, v) → exec i s = .next (s.wg d v)

/-- R135: division truncates toward zero, the remainder takes the sign of the dividend, a = q × b + r, and the two cases of the table.
Nothing else changes: neither case raises a flag. -/
def Obligations.DivisionTruncatesTowardZero : Prop :=
  (∀ (s : State) (d a b : BitVec 6), ∃ q r : W64,
    exec (.divS64 d a b) s = .next (s.wg d q) ∧ exec (.remS64 d a b) s = .next (s.wg d r) ∧
    (s.rg b = 0 → q = BitVec.allOnes 64 ∧ r = s.rg a) ∧
    (s.rg b ≠ 0 → s.rg a = q * s.rg b + r) ∧
    (s.rg b ≠ 0 → ¬ (s.rg a = BitVec.intMin 64 ∧ s.rg b = BitVec.allOnes 64) →
      (s.rg a).toInt = q.toInt * (s.rg b).toInt + r.toInt ∧ r.toInt.natAbs < (s.rg b).toInt.natAbs ∧
      (r = 0 ∨ r.toInt.sign = (s.rg a).toInt.sign)) ∧
    (s.rg a = BitVec.intMin 64 → s.rg b = BitVec.allOnes 64 → q = BitVec.intMin 64 ∧ r = 0)) ∧
  (∀ (s : State) (d a b : BitVec 6), ∃ q r : W64,
    exec (.divZ64 d a b) s = .next (s.wg d q) ∧ exec (.remZ64 d a b) s = .next (s.wg d r) ∧
    (s.rg b = 0 → q.toNat = 2 ^ 64 - 1 ∧ r = s.rg a) ∧
    (s.rg b ≠ 0 → (s.rg a).toNat = q.toNat * (s.rg b).toNat + r.toNat ∧ r.toNat < (s.rg b).toNat)) ∧
  decodeSlot .s 0x01A1461C = .ok { pt := 0, fi := false, li := false, ins := .divS64 5 6 7 }

/-- R136, R137: the forms with a literal write what the literals give; a pool that does not hold them, or a bit-field literal out of
range, is the illegal-encoding trap of check 3. -/
def Sys2Proof.Claims.LiteralFormsResults : Prop :=
  ∀ (s : State) (d a : BitVec 6) (k : BitVec 5),
    (holdsLits s k 1 → exec (.liS64 d k) s = .next (s.wg d (BitVec.ofInt 64 (s.lit k.toNat).toInt))) ∧
    (¬ holdsLits s k 1 → exec (.liS64 d k) s = .next (refusedAt s 3)) ∧
    (holdsLits s k 2 → exec (.li64 d k) s =
      .next (s.wg d (BitVec.ofNat 64 ((s.lit (k.toNat + 1)).toNat * 2 ^ 32 + (s.lit k.toNat).toNat)))) ∧
    (¬ holdsLits s k 2 → exec (.li64 d k) s = .next (refusedAt s 3)) ∧
    (holdsLits s k 1 → fieldFits (s.lit k.toNat) →
      (let p := (s.lit k.toNat).toNat % 64
       let n := (s.lit k.toNat).toNat / 64 % 64 + 1
       exec (.bfxZ64 d a k) s = .next (s.wg d (BitVec.ofNat 64 ((s.rg a).toNat / 2 ^ p % 2 ^ n))) ∧
       exec (.bfxS64 d a k) s = .next (s.wg d (BitVec.ofInt 64 (Int.bmod ((s.rg a).toNat / 2 ^ p : Nat) (2 ^ n)))) ∧
       ∃ v : W64, exec (.bfiZ64 d a k) s = .next (s.wg d v) ∧
         ∀ j < 64, v.getLsbD j = if p ≤ j ∧ j < p + n then (s.rg a).getLsbD (j - p) else (s.rg d).getLsbD j)) ∧
    (¬ (holdsLits s k 1 ∧ fieldFits (s.lit k.toNat)) →
      exec (.bfxZ64 d a k) s = .next (refusedAt s 3) ∧ exec (.bfxS64 d a k) s = .next (refusedAt s 3) ∧
      exec (.bfiZ64 d a k) s = .next (refusedAt s 3))

/-- R139, R140: a compare writes 1 to its flag when its relation holds and 0 otherwise, a flag form its combination; nothing else
changes. -/
def Sys2Proof.Claims.CompareAndFlagResults : Prop :=
  ∀ (s : State) (i : Instr) (c : BitVec 4) (b : Bool), flagValue s i = some (c, b) → exec i s = .next (s.wf c b)

/-- R134, R138, R139, R140. Its parts: `ScalarArithmeticResults`; `CompareAndFlagResults`. -/
def Obligations.ScalarIntegersCompareAndCompute : Prop := Claims.ScalarArithmeticResults ∧ Claims.CompareAndFlagResults

/-- R108, R111, R142: a scalar conversion writes the value that its rounding mode gives, an integer held to its range, takes one draw of
generator 0 under RM 4 and none otherwise, and adds its flags to `XFLAGS`. -/
def Sys2Proof.Claims.ScalarConversionResults : Prop :=
  ∀ (s : State) (i : Instr) (d : BitVec 6) (r : BitVec 3) (f : Round → W64 × XF → Prop), conversion s i = some (d, r, f) → r.toNat ≤ 4 →
    ∃ y : W64 × XF, f (drawOne s r).1 y ∧
      exec i s = .next (((drawOne s r).2.modR (fun q => { q with xf := q.xf ||| y.2 })).wg d y.1)

/-- R136, R137, R108, R111, R142. Its parts: `LiteralFormsResults`; `ScalarConversionResults`. -/
def Obligations.ScalarLiteralFormsAndConversions : Prop := Claims.LiteralFormsResults ∧ Claims.ScalarConversionResults

/-- R141, R284, R294: a pop takes the word at the head of the inbound FIFO. A push in MODE 0 appends its word to the outbound one; in
MODE 1 it appends a header with its generation, then the physical address of its access, then the other words of the request; a word
that is none of these, and any access to a link that the issuing run does not hold, takes the access trap. Until the second checkpoint of
the issue is taken a rollback takes the word back (R37). That a request's first word alone is judged as a header, and the words after it
never are, is the model's reading (log 25): R294 also names a header pushed while a request is open. -/
def Obligations.LinkMovesPopAndPush : Prop :=
  ∀ (s : State) (g : BitVec 6) (k : BitVec 3),
    (∀ w rest, bound s k → (linkNow s k).inb = w :: rest →
      exec (.movS64Pop g k) s = .next ((noted (withLink s k { linkNow s k with inb := rest }) (.popped (coreOf s.cx) k.toNat w)).wg g w)) ∧
    (bound s k → pushes s k (s.rg g) (.movS64Push g k)) ∧
    (¬ bound s k →
      exec (.movS64Pop g k) s = .next (s.fail { code := 0x04, sub := k.toNat, addr := s.iss.addr } s.iss.slot 0) ∧
      exec (.movS64Push g k) s = .next (s.fail { code := 0x04, sub := k.toNat, addr := s.iss.addr } s.iss.slot 0))

/-- R74, R128: what writing a general register or a flag does to the machine. `g0` is not written and reads zero; any other register
then reads as the value written; every other register, every other context, memory and all the rest of the machine stay. -/
def Obligations.RegisterWritesTouchOneRegister : Prop :=
  ∀ (s : State) (d e : BitVec 6) (v : W64) (x : Nat),
    ((s.wg d v).nc.regs.rg d = if d = 0 then 0 else v) ∧
    (e ≠ d → (s.wg d v).nc.regs.rg e = s.nc.regs.rg e) ∧
    (s.wg d v).nc = { s.nc with regs := { s.nc.regs with g := (s.wg d v).nc.regs.g } } ∧
    (x ≠ s.cx → (s.wg d v).m.ctx x = s.m.ctx x) ∧
    (s.wg d v) = { s with m := { s.m with ctxs := (s.wg d v).m.ctxs } } ∧
    ∀ (c j : BitVec 4) (b : Bool), c.toNat < 8 →
      (s.wf c b).nc.regs.flag c.toNat = b ∧
      (j ≠ c → (s.wf c b).nc.regs.flag j.toNat = s.nc.regs.flag j.toNat) ∧
      (s.wf c b).nc = { s.nc with regs := { s.nc.regs with f := (s.wf c b).nc.regs.f } } ∧
      (x ≠ s.cx → (s.wf c b).m.ctx x = s.m.ctx x) ∧
      (s.wf c b) = { s with m := { s.m with ctxs := (s.wf c b).m.ctxs } }

namespace Sys2Proof.Claims

/-! ### The C slot: words that steer a context -/

/-- The issue is no repeat and no delay issue (R52, R58). -/
def plainIssue (s : State) : Prop := s.iss.hdr.rep = 0 ∧ s.oc.ctl.dly = 0

/-- The state after a taken transfer to `t` (R57, R59): two delay issues are due, every loop level is closed, the counters stay; for a
call the link is due (R130). -/
def moved (s : State) (t : W64) (call : Bool) : State :=
  { s with
    m := s.m.setCtx s.cx { s.nc with
      ibuf := []
      ctl := { s.nc.ctl with tgt := t, dly := 2, nlev := 0, lastB := [], link := s.nc.ctl.link || call } }
    iss := { s.iss with taken := true } }

/-- PC + SEXT(off) × 4, modulo 2^64 (R129). -/
def farBy (s : State) (off : Int) : W64 := BitVec.ofInt 64 ((s.iss.addr.toNat : Int) + 4 * off)

/-- Test `i` of the tree at literal `k` holds: the flag it names differs from its sense bit (R60). -/
def testHolds (s : State) (k : BitVec 5) (i : Nat) : Prop :=
  s.regs.flag ((s.lit k.toNat).toNat / 2 ^ (8 * i) % 16) ≠ (s.lit k.toNat).getLsbD (8 * i + 7)

/-- The leaf that a tree of `n` + 1 tests selects (R60): that of the first test that holds, else the last. -/
def selectsLeaf (s : State) (n : BitVec 2) (k : BitVec 5) (leaf : Nat) : Prop :=
  (∃ i, i ≤ n.toNat ∧ leaf = i + 1 ∧ testHolds s k i ∧ ∀ j, j < i → ¬ testHolds s k j) ∨
    (leaf = n.toNat + 2 ∧ ∀ j, j ≤ n.toNat → ¬ testHolds s k j)

/-- The state after the headers of the body of `b` + 1 bundles have been read: the slices that served them count it (R363). -/
def headersRead (s : State) (b : BitVec 8) : State := { s with m := s.m.serve s.oc.rid (s.headerPas b) }

/-- The state after loop level `v` opens over `b` + 1 bundles with count `cnt` (R62). -/
def loopOpened (s : State) (v : BitVec 3) (cnt : W32) (b : BitVec 8) (last : W64) : State :=
  { s with m := s.m.setCtx s.cx { s.nc with ctl := { s.nc.ctl with
      nlev := v.toNat + 1
      first := s.nc.ctl.first ||| (1 <<< v.toNat)
      lc := rput v.toNat cnt s.nc.ctl.lc
      body := rput v.toNat s.iss.next s.nc.ctl.body
      blen := rput v.toNat (BitVec.ofNat 9 (b.toNat + 1)) s.nc.ctl.blen
      lastB := rput v.toNat last s.nc.ctl.lastB } } }

/-- The state after the context has parked on `w` in mid-issue: the issue commits nothing and is made again when the context wakes
(R30, R183, R186). -/
def parkedOn (s : State) (w : Park) : State :=
  { s with
    m := s.old.setCtx s.cx { s.oc with status := .parked w }
    iss := { s.iss with trapped := true } }

/-- The state after the context has come to a barrier that it passes later, at the next bundle (R36, R330). -/
def arrivedAt (s : State) (w : Park) : State := { s with m := s.m.setCtx s.cx { s.nc with status := .parked w } }

/-- The context has no pending fault that a `drain`, `tbar` or `end` must deliver first (R255, R278). -/
def nothingPending (s : State) : Prop := s.oc.trp.handler = true ∨ (s.oc.pend.pex = false ∧ s.oc.pend.ptf = false)

/-- No context of the team waits at a barrier of another kind than `k` (R330). -/
def sameBarrier (s : State) (k : Nat) : Prop :=
  ∀ t, s.team? = some t → ∀ x ∈ t.ctxs, (s.old.ctx x).status.barrier = 0 ∨ (s.old.ctx x).status.barrier = k

end Sys2Proof.Claims

/-- R57, R59, R129, R130: every unconditional transfer is taken to its target with two delay issues due and every loop level closed; a
call makes its link due; a register target that is no multiple of 4 takes the alignment trap at this issue, TADDR the target. -/
def Obligations.TransfersAreTaken : Prop :=
  ∀ (s : State) (j : BitVec 20) (a : BitVec 6), plainIssue s →
    exec (.jmp j) s = .next (moved s (farBy s j.toInt) false) ∧
    exec (.call j) s = .next (moved s (farBy s j.toInt) true) ∧
    ((s.rg a).toNat % 4 = 0 →
      exec (.jmpr a) s = .next (moved s (s.rg a) false) ∧ exec (.callr a) s = .next (moved s (s.rg a) true)) ∧
    ((s.rg 62).toNat % 4 = 0 → exec .ret s = .next (moved s (s.rg 62) false)) ∧
    ((s.rg a).toNat % 4 ≠ 0 →
      exec (.jmpr a) s = .next (s.fail { code := 0x03, sub := 0, addr := s.rg a } s.iss.slot 0) ∧
      exec (.callr a) s = .next (s.fail { code := 0x03, sub := 0, addr := s.rg a } s.iss.slot 0)) ∧
    ((s.rg 62).toNat % 4 ≠ 0 → exec .ret s = .next (s.fail { code := 0x03, sub := 0, addr := s.rg 62 } s.iss.slot 0))

/-- R60, R61: a condition tree selects the leaf of the first of its tests that holds, else its last leaf; a leaf of mode 1 is a taken
transfer by its offset, a leaf of mode 0 goes on in sequence; the words of the issue are governed by that leaf. -/
def Sys2Proof.Claims.ConditionTreeSelectsItsLeaf : Prop :=
  ∀ (s : State) (n : BitVec 2) (k : BitVec 5) (leaf : Nat), plainIssue s → holdsLits s k (n.toNat + 3) →
    treeOk s.lit k.toNat n.toNat = true → selectsLeaf s n k leaf →
    (let w := s.lit (k.toNat + leaf)
     let t : State := { s with iss := { s.iss with leaf := some leaf } }
     (w.toNat % 4 = 1 → exec (.br n k) s = .next (moved t (farBy s (BitVec.ofNat 30 (w.toNat / 4)).toInt) false)) ∧
     (w.toNat % 4 ≠ 1 → exec (.br n k) s = .next t))

/-- R62, R131: a loop whose body nests and can be read opens its level with its count; a count of 0 skips the body. Check 4 refuses a level
that is not the next one, a body that does not lie wholly inside the one around it, and one with which the bundles of the outermost active
body exceed 256, that body and the new one counted once each where they share bundles. The headers read count as requests of the run
(R363). -/
def Sys2Proof.Claims.LoopsOpenTheirLevel : Prop :=
  ∀ (s : State) (v : BitVec 3) (g : BitVec 6) (c : BitVec 9) (b : BitVec 8) (last after : W64), plainIssue s →
    (s.openLoop v b = .ok (last, after) →
      ((s.rg g).toNat % 2 ^ 32 ≠ 0 →
        exec (.loop v g b) s = .next (loopOpened (headersRead s b) v (BitVec.ofNat 32 ((s.rg g).toNat % 2 ^ 32)) b last)) ∧
      ((s.rg g).toNat % 2 ^ 32 = 0 →
        exec (.loop v g b) s = .next { headersRead s b with iss := { s.iss with skip := some (last, after) } }) ∧
      exec (.loopi v c b) s = .next (loopOpened (headersRead s b) v (BitVec.ofNat 32 (c.toNat + 1)) b last)) ∧
    (v.toNat ≠ s.oc.ctl.nlev →
      exec (.loop v g b) s = .next (refusedAt s 4) ∧ exec (.loopi v c b) s = .next (refusedAt s 4)) ∧
    (∀ lo outer, v.toNat = s.oc.ctl.nlev → 0 < s.oc.ctl.nlev → s.walkBody b.toNat s.iss.next = .ok (last, after) →
      s.bodyEnd s.oc.ctl = .ok (lo, outer) →
      (let c0 := s.oc.ctl
       let outside := outer.toNat < after.toNat ∨ s.iss.next.toNat < (rget (c0.nlev - 1) c0.body).toNat
       let long := 256 < (rget 0 c0.blen).toNat ∨ (1 < c0.nlev ∧ ∃ xs ys, s.bodyList ((rget 0 c0.blen).toNat - 1) (rget 0 c0.body) = .ok xs ∧
         s.bodyList b.toNat s.iss.next = .ok ys ∧ 256 < xs.length + (ys.filter (fun a => !xs.contains a)).length)
       (outside ∨ long → exec (.loop v g b) s = .next (refusedAt s 4) ∧ exec (.loopi v c b) s = .next (refusedAt s 4)) ∧
       (s.openLoop v b = .ok (last, after) → ¬ outside ∧ ¬ long)))

/-- R60, R61, R62, R131. Its parts: `ConditionTreeSelectsItsLeaf`; `LoopsOpenTheirLevel`. -/
def Obligations.BranchTreesAndLoops : Prop := Claims.ConditionTreeSelectsItsLeaf ∧ Claims.LoopsOpenTheirLevel

/-- R44, R132, R133: `nop` changes nothing; `step` and `stepr` write one stride and nothing else; `ord` gives its literal to the slot
that it names, in this issue. -/
def Sys2Proof.Claims.StridesTokensAndNop : Prop :=
  ∀ (s : State) (k : BitVec 4) (v : BitVec 3) (t : BitVec 13) (a : BitVec 6) (l : BitVec 5),
    exec .nop s = .next s ∧
    exec (.step k v t) s = .next { s with m := s.m.setCtx s.cx { s.nc with regs := { s.nc.regs with
      stride := rput (6 * k.toNat + v.toNat) (BitVec.ofInt 32 (4 * t.toInt)) s.nc.regs.stride } } } ∧
    exec (.stepr k v a) s = .next { s with m := s.m.setCtx s.cx { s.nc with regs := { s.nc.regs with
      stride := rput (6 * k.toNat + v.toNat) (BitVec.ofNat 32 ((s.rg a).toNat % 2 ^ 32)) s.nc.regs.stride } } } ∧
    (holdsLits s l 1 → ordOk k (s.lit l.toNat) = true →
      exec (.ord k l) s = .next { s with iss := { s.iss with ords := [(k.toNat, s.lit l.toNat)] } })

/-- R23, R24, R36, R186: `wait` goes on when every flag of its mask reads 1 and parks otherwise; `tbar` parks the context at the team
barrier; `tail` queues the run's one child, which a rollback takes back until the issue's second checkpoint is taken (R37); `end` ends the
context, and as the issue commits its team's store buffer is committed once all have ended. -/
def Sys2Proof.Claims.WaitsBarriersTailAndEnd : Prop :=
  ∀ (s : State) (f : BitVec 16) (a b : BitVec 6),
    ((∀ k < 16, f.getLsbD k = true → s.regs.flag k = true) → exec (.waitF f) s = .next s) ∧
    ((∃ k < 16, f.getLsbD k = true ∧ s.regs.flag k = false) → exec (.waitF f) s = .next (parkedOn s (.flags f))) ∧
    (s.iss.hdr.rep = 0 → s.oc.trp.handler = false → nothingPending s → sameBarrier s 1 →
      exec .tbar s = .next (arrivedAt s .tbar)) ∧
    (∀ r, s.iss.hdr.rep = 0 → s.oc.trp.handler = false → s.run? = some r → r.child = none →
      exec (.tail a b) s = .next (noted { s with m := { s.m with
        runs := modWhere (fun q => q.id == r.id) (fun q => { q with child := some (s.rg a, s.rg b) }) s.m.runs } } (.child r.id))) ∧
    (∀ r, s.iss.hdr.rep = 0 → s.oc.trp.handler = false → s.run? = some r → r.child.isSome = true →
      exec (.tail a b) s = .next (s.fail { code := 0x05, sub := 0, addr := s.iss.addr } s.iss.slot 0)) ∧
    (s.iss.hdr.rep = 0 → s.oc.trp.handler = false → nothingPending s →
      exec .endCtx s = .next { s with m := s.m.setCtx s.cx { s.nc with status := .ended } }) ∧
    (∀ cur on bundle ws lb t, s.nc.status = .ended → s.m.team? s.oc.rid (clusterOf s.cx) = some t →
      (s.commit cur on bundle ws lb).m.gops =
        if ∀ x ∈ t.ctxs, (s.m.ctx x).status = .ended then s.m.gops.map (fun g =>
          if g.rid = s.oc.rid ∧ g.cluster = clusterOf s.cx ∧ g.committed = false ∧ g.needs = [] then
            { g with committed := true, batch := s.m.nextId }
          else g)
        else s.m.gops)

/-- R44, R132, R133, R23, R24, R36, R186. Its parts: `StridesTokensAndNop`; `WaitsBarriersTailAndEnd`. -/
def Obligations.StridesWaitsBarriersAndEnds : Prop := Claims.StridesTokensAndNop ∧ Claims.WaitsBarriersTailAndEnd

namespace Sys2Proof.Claims

/-! ### System registers, traps and the system words -/

/-- A quantity of the issuing run; 0 where the context runs in none. -/
def ofRun (s : State) (f : Run → Nat) : Nat :=
  match s.run? with
  | some r => f r
  | none => 0

/-- The value of each system register at this issue (R77), as the table gives its contents. -/
def sysValue (s : State) (n : Nat) : Nat :=
  match n with
  | 0x000 => s.regs.f.toNat + 256 * s.regs.fs.toNat
  | 0x001 => s.regs.vrm.toNat
  | 0x002 => s.regs.xf.toNat
  | 0x010 => ofRun s (fun r => r.stream % 16 * 2 ^ 60 + r.pos.toNat % 2 ^ 60)
  | 0x011 => s.old.pkg.chip.toNat * 2 ^ 10 + s.cx
  | 0x012 => s.oc.share
  | 0x013 => s.old.pkg.expiry.toNat
  | 0x020 => ofRun s (fun r => (rget 0 r.cnt).toNat)
  | 0x021 => ofRun s (fun r => (rget 1 r.cnt).toNat)
  | 0x022 => ofRun s (fun r => (rget 2 r.cnt).toNat)
  | 0x023 => ofRun s (fun r => (rget 3 r.cnt).toNat)
  | 0x024 => ofRun s (fun r => (rget 4 r.cnt).toNat)
  | 0x030 => ofRun s (fun r => r.energy)
  | 0x031 => s.old.pkg.ftime
  | 0x040 => s.oc.trp.tcause.toNat
  | 0x041 => s.oc.trp.taddr.toNat
  | 0x042 => s.oc.trp.tvec.toNat
  | 0x043 => s.oc.trp.trec.toNat
  | _ => 0

/-- The numbers of R77's table, and those that run code may not name. -/
def sysNumbers : List Nat :=
  [0x000, 0x001, 0x002, 0x010, 0x011, 0x012, 0x013, 0x020, 0x021, 0x022, 0x023, 0x024, 0x030, 0x031, 0x040, 0x041, 0x042, 0x043]
def hiddenNumbers : List Nat := [0x012, 0x040, 0x041, 0x042, 0x043]

/-- The issuing context with one part changed, the rest of the machine as it is. -/
def ctxWith (s : State) (f : Ctx → Ctx) : State := { s with m := s.m.setCtx s.cx (f s.nc) }

/-- The package with one part changed, the rest of the machine as it is. -/
def pkgWith (s : State) (f : Pkg → Pkg) : State := { s with m := { s.m with pkg := f s.m.pkg } }

/-- The Governor of the issuing context's quarter with one part changed (R333). -/
def govWith (s : State) (f : Gov → Gov) : State :=
  pkgWith s (fun p => { p with govs := kput (quarterOf s.cx) (f (kgetD Gov.zero (quarterOf s.cx) p.govs)) p.govs })

/-- The package sends a message to package `chip` (R298: reported undeliverable where the route is closed). -/
def posted (s : State) (chip : BitVec 12) (x : Sent) : State := { s with m := s.m.post chip x }

/-- The Governor of the issuing context's quarter. -/
def quarterGov (s : State) : Gov := kgetD Gov.zero (quarterOf s.cx) s.m.pkg.govs

/-- The state without the cached translations that satisfy `gone` (R158, R331). -/
def tlbWithout (s : State) (gone : TlbEnt → Bool) : State :=
  { s with m := { s.m with
    cores := s.m.cores.map (fun p => (p.1, { p.2 with utlb := p.2.utlb.filter (fun t => !gone t) }))
    pkg := { s.m.pkg with tlb := s.m.pkg.tlb.filter (fun t => !gone t) } } }

/-- The Governor after a request for `n` steps of 25 MHz, 0 for none (R333): a quarter whose limits change keeps the clock of a group that it
has left no longer (R360). -/
def requested (g : Gov) (n : Nat) : Gov :=
  let limit := fun (k : Nat) => if k = 0 then 76 else k
  { g with req := n, gclock := g.gclock.filter (fun c => decide (g.group = some c.group ∨ limit n = limit g.req)) }

/-- The quarter leaves its group (R333, R360): the package forgets a group that no quarter of its own is in, and the leader to which the
quarter has reported is told. -/
def groupLeft (s : State) : State :=
  match (quarterGov s).group with
  | none => s
  | some n =>
    let t := govWith s (fun g => { g with group := none, told := none, changes := [] })
    let u := if (List.range 4).all (fun r => decide ((kgetD Gov.zero r t.m.pkg.govs).group ≠ some n)) then
        pkgWith t (fun p => { p with groups := kdel n.toNat p.groups })
      else t
    match (quarterGov s).told with
    | some (c, _) => posted u c (.limit c n (quarterOf s.cx) 0)
    | none => u

/-- A privileged-instruction trap of the word of this slot (R78, R84, R307). -/
def privilegedAt (s : State) : State := s.fail { code := 0x02, sub := 0, addr := s.iss.addr } s.iss.slot 0

/-- The words of R84 that only a handler may issue, and the register accesses that R77 keeps from run code. -/
def handlerWord : Instr → Bool
  | .tret | .csave _ | .crest _ | .tlbinv _ | .tlbinva | .clkreq _ | .sgjoin _ | .sgleave | .selftest _ | .irq _ | .pwrgive _
  | .pwrask _ => true
  | .mfs _ n | .mts _ n => hiddenNumbers.contains n.toNat
  | .enrd _ c => c != 0
  | _ => false

/-- The words of R325 and R23, R24, R36 that a repeated bundle may not hold. -/
def onceOnly : Instr → Bool
  | .tret | .csave _ | .crest _ | .ckptg _ | .replayg _ | .selftest _ | .tbar | .tail _ _ | .endCtx | .jmp _ | .call _ | .jmpr _
  | .br _ _ | .callr _ | .ret | .loop _ _ _ | .loopi _ _ _ => true
  | _ => false

/-- The words that a delay issue may not hold (R58, R325). -/
def notInDelay : Instr → Bool
  | .tret | .jmp _ | .call _ | .jmpr _ | .br _ _ | .callr _ | .ret | .loop _ _ _ | .loopi _ _ _ => true
  | _ => false

/-- The words of the C slot whose literals, if they name any, the pool holds (check 3 comes before check 4). -/
def literalsHeld (s : State) : Instr → Prop
  | .br n k => holdsLits s k (n.toNat + 3) ∧ treeOk s.lit k.toNat n.toNat = true
  | _ => True

/-- The tenant of the issuing run. -/
def tenantOf (s : State) : Nat := ofRun s (fun r => r.tenant)

/-- The table root of the issuing run. -/
def rootOf (s : State) : W64 :=
  match s.run? with
  | some r => r.root
  | none => 0

/-- The M operation that a `selftest` of the target word `w` puts in the queue (R334); `a` is its result register. -/
def testOp (s : State) (w : W64) (a : BitVec 6) : EngOp :=
  { id := s.m.nextId, ctx := s.cx, pc := s.iss.addr, rid := s.oc.rid, no := s.no, ins := .nop, needs := [], begun := false,
    words := [BitVec.ofNat 64 (w.toNat % 256), BitVec.ofNat 64 a.toNat], vec := 0, reads := [], feed := [], came := [], blocks := [] }

/-- A self-test target that the run's placement entry gives it (R334). -/
def testable (s : State) (w : W64) : Bool := decide (
  (w.toNat % 16 = 1 ∧ w.toNat / 16 % 16 < 4 ∧ s.place.stones.getLsbD (w.toNat / 16 % 16) = true) ∨
  (w.toNat % 16 = 2 ∧ w.toNat / 16 % 16 < 8 ∧ s.place.tiles.getLsbD (w.toNat / 16 % 16) = true) ∨
  (w.toNat % 16 = 3 ∧ w.toNat / 16 % 16 < 4 ∧ s.place.curves.getLsbD (w.toNat / 16 % 16) = true) ∨
  (w.toNat % 16 = 4 ∧ w.toNat / 16 % 16 < 4 ∧ s.place.maps.getLsbD (w.toNat / 16 % 16) = true))

/-- Bytes `k` to `k` + `n` − 1 of a byte list as a little-endian number. -/
def field (b : List Byte) (k n : Nat) : Nat := (((b.drop k).take n).map BitVec.toNat).foldr (fun x acc => x + 256 * acc) 0

end Sys2Proof.Claims

/-- R77, R326: `mfs` of every assigned register writes its value as it stands at the issue. -/
def Sys2Proof.Claims.SystemRegistersAreRead : Prop :=
  ∀ (s : State) (g : BitVec 6) (n : BitVec 10), n.toNat ∈ sysNumbers →
    (s.oc.trp.handler = true ∨ n.toNat ∉ hiddenNumbers) →
    exec (.mfs g n) s = .next (s.wg g (BitVec.ofNat 64 (sysValue s n.toNat)))

/-- R77, R78, R326: what a legal `mts` writes, register by register, and that a value which R78 forbids is refused at check 4. That an
`mts` to a read-only register, EXPIRY from run code included, is refused at check 4 is the model's reading (log 73). -/
def Sys2Proof.Claims.SystemRegistersAreWritten : Prop :=
  ∀ (s : State) (g : BitVec 6),
    (let v := s.rg g
     let h := s.oc.trp.handler = true
     let put := fun (n : BitVec 10) (t : State) => exec (.mts g n) s = .next t
     let bad := fun (n : BitVec 10) => exec (.mts g n) s = .next (refusedAt s 4)
     put 0x000 (ctxWith s (fun c => { c with regs := { c.regs with f := BitVec.ofNat 8 (v.toNat % 256) } })) ∧
     (v.toNat < 32 → (v.toNat % 8 < 4 ∧ v.toNat / 8 = 0 ∨ v.toNat % 8 = 4) →
       put 0x001 (ctxWith s (fun c => { c with regs := { c.regs with vrm := BitVec.ofNat 5 v.toNat } }))) ∧
     (¬ (v.toNat < 32 ∧ (v.toNat % 8 < 4 ∧ v.toNat / 8 = 0 ∨ v.toNat % 8 = 4)) → bad 0x001) ∧
     (v.toNat < 32 → put 0x002 (ctxWith s (fun c => { c with regs := { c.regs with xf := BitVec.ofNat 5 v.toNat } }))) ∧
     (32 ≤ v.toNat → bad 0x002) ∧
     (h → v.toNat ≤ 64 → s.old.otherShares (coreOf s.cx) s.cx + v.toNat ≤ 64 →
       put 0x012 { s with m := (ctxWith s (fun c => { c with share := v.toNat })).m.rebuild (coreOf s.cx) }) ∧
     (h → 64 < v.toNat ∨ 64 < s.old.otherShares (coreOf s.cx) s.cx + v.toNat → bad 0x012) ∧
     (h → v.toNat < 2 ^ 32 →
       put 0x013 (pkgWith s (fun p =>
         { p with expiry := BitVec.ofNat 32 v.toNat, reuse := p.reuse.map (fun e => (e.1, (e.2.1, max e.2.2 v.toNat))) }))) ∧
     (h → 2 ^ 32 ≤ v.toNat → bad 0x013) ∧
     (h → v.toNat / 2 ^ 40 % 2 ^ 8 = 0 → v.toNat / 2 ^ 20 % 2 ^ 12 = 0 → v.toNat / 2 ^ 11 % 2 ^ 4 = 0 →
       put 0x040 (ctxWith s (fun c => { c with trp := { c.trp with tcause := v } }))) ∧
     (h → ¬ (v.toNat / 2 ^ 40 % 2 ^ 8 = 0 ∧ v.toNat / 2 ^ 20 % 2 ^ 12 = 0 ∧ v.toNat / 2 ^ 11 % 2 ^ 4 = 0) → bad 0x040) ∧
     (h → put 0x041 (ctxWith s (fun c => { c with trp := { c.trp with taddr := v } }))) ∧
     (h → v.toNat % 4 = 0 → put 0x042 (ctxWith s (fun c => { c with trp := { c.trp with tvec := v } }))) ∧
     (h → v.toNat % 4 ≠ 0 → bad 0x042) ∧
     (h → v.toNat % 4096 = 0 → put 0x043 (ctxWith s (fun c => { c with trp := { c.trp with trec := v } }))) ∧
     (h → v.toNat % 4096 ≠ 0 → bad 0x043) ∧
     (∀ n : BitVec 10, n.toNat ∈ [0x010, 0x011, 0x020, 0x021, 0x022, 0x023, 0x024, 0x030, 0x031] → bad n) ∧
     (¬ h → bad 0x013))

/-- R77, R326, R78. Its parts: `SystemRegistersAreRead`; `SystemRegistersAreWritten`. What rests on log entry 73 is the model's choice: each
part names the clause. -/
def Obligations.SystemRegistersAreReadAndWritten : Prop := Claims.SystemRegistersAreRead ∧ Claims.SystemRegistersAreWritten

/-- R78, R84, R325: a word of handler mode issued from run code takes the privileged-instruction trap and has no other effect. -/
def Sys2Proof.Claims.HandlerWordsTrapInRunCode : Prop :=
  ∀ (s : State) (i : Instr), handlerWord i = true → s.oc.trp.handler = false → s.iss.hdr.rep = 0 → s.oc.ctl.dly = 0 →
    exec i s = .next (privilegedAt s)

/-- R52, R58, R313, R325: the words that may not stand in a repeated bundle, in a delay issue or in a handler are refused by check 4. -/
def Sys2Proof.Claims.MisplacedControlWordsAreRefused : Prop :=
  ∀ (s : State) (i : Instr), literalsHeld s i →
    (s.iss.hdr.rep ≠ 0 → onceOnly i = true → exec i s = .next (refusedAt s 4)) ∧
    (s.iss.hdr.rep = 0 → s.oc.ctl.dly ≠ 0 → notInDelay i = true → exec i s = .next (refusedAt s 4)) ∧
    (s.iss.hdr.rep = 0 → s.oc.trp.handler = true → i = .tbar ∨ (∃ a b, i = .tail a b) ∨ i = .endCtx →
      exec i s = .next (refusedAt s 4))

/-- R78, R84, R325, R52, R58, R313. Its parts: `HandlerWordsTrapInRunCode`; `MisplacedControlWordsAreRefused`. -/
def Obligations.HandlerWordsAndMisplacedWordsAreRefused : Prop := Claims.HandlerWordsTrapInRunCode ∧ Claims.MisplacedControlWordsAreRefused

/-- R307, R327: `trap` and `brk` are traps precise at their issue, with SLOT, SUB and TADDR as the table has them; outside the handler
and with a record that can be written, the context enters its handler from the machine as it stood before the issue. -/
def Sys2Proof.Claims.SoftwareTrapsEnterTheHandler : Prop :=
  ∀ (s : State) (c : BitVec 8) (segs : List Seg), s.iss.slot = 0 → s.oc.trp.handler = false → s.old.plainArea s.cx s.oc.trp.trec 4096 = some segs →
    ∃ t u : State, exec (.trap c) s = .next t ∧ exec .brk s = .next u ∧ t.iss.trapped = true ∧ u.iss.trapped = true ∧
      t.old = s.old ∧ u.old = s.old ∧
      t.nc.trp.handler = true ∧ u.nc.trp.handler = true ∧
      t.nc.trp.tcause.toNat = 0x06 + 2 ^ 32 * c.toNat ∧
      u.nc.trp.tcause.toNat = 0x07 ∧
      t.nc.trp.taddr = s.iss.addr ∧ u.nc.trp.taddr = s.iss.addr ∧
      t.nc.ctl.pc = s.oc.trp.tvec ∧ u.nc.ctl.pc = s.oc.trp.tvec

namespace Sys2Proof.Claims

/-- A group boundary of a context (R53, R56, R110): `f8` to `f15` settle to the engines' state, an engine that reads complete gives its
flags to XFLAGS, the group's writes are forgotten. -/
def settledCtx (m : Mach) (x : Nat) (c : Ctx) : Ctx :=
  let fs := m.engineFlags x
  let xm := if fs.getLsbD 0 then c.xfM else 0
  let xv := if fs.getLsbD 1 then c.xfV else 0
  let xq := if fs.getLsbD 2 then c.xfQ else 0
  { c with regs := { c.regs with fs := fs, xf := c.regs.xf ||| xm ||| xv ||| xq }, xfM := c.xfM &&& ~~~xm, xfV := c.xfV &&& ~~~xv,
           xfQ := c.xfQ &&& ~~~xq, groupW := [] }

/-- The barrier that a context waits at again after its handler (R36, R316, R330): one that it has come to and, of a generator barrier,
that a rollback has restored. -/
def barrierHeld : Status → Option Park
  | .parked .tbar => some .tbar
  | .parked (.regen r o c) => some (.regen r o c)
  | _ => none

/-- What a spin monitor has seen, but for the marks of stores to the lines of its last loads (R31, R32). -/
def unmarked (l : List Spin) : List Spin := l.map (fun w => { w with nowHit := false, lastHit := false })

end Sys2Proof.Claims

/-- R53, R311, R312, R313: trap entry of a context that is not in handler mode and whose record lies on a page that R312 allows. The 4,096
bytes of the record are written at its home and no other byte changes; TCAUSE and TADDR are set; the context is in handler mode at TVEC
with its sticky words NOP, no loop level, no delay issue, nothing pending and no exposed result left; a group boundary falls; every
other register keeps its value; the order tokens of the trapped program are kept apart (R322), and so is the barrier at which it waits; of the
other contexts only the marks that a watched line was stored to can change, and of the operations in flight only a read that a later one
has passed (R240), which takes the record's bytes as they stood. -/
def Sys2Proof.Claims.TrapEntryWritesTheRecord : Prop :=
  ∀ (m : Mach) (x : Nat) (fpc tc ta : W64) (g : Seg), (m.ctx x).trp.handler = false →
    m.plainArea x (m.ctx x).trp.trec 4096 = some [g] → g.len = 4096 →
    (let c := m.ctx x
     let t := m.enter x fpc tc ta
     let d := t.ctx x
     let b := m.recordBytes c fpc tc ta
     (∀ i, i < 4096 → readByte t.mem (g.pa + i) = b.getD i 0) ∧
     (∀ a, a < g.pa ∨ g.pa + 4096 ≤ a → readByte t.mem a = readByte m.mem a) ∧
     d.trp = { c.trp with handler := true, from_ := m.nextId, tcause := tc, taddr := ta, ot := c.regs.ot, held := barrierHeld c.status } ∧
     d.ctl = { Ctl.zero with pc := c.trp.tvec } ∧
     d.pend = { Pend.zero with lost := c.pend.lost } ∧
     d.replay = [] ∧ d.groupW = [] ∧ d.status = .run ∧
     d.regs = { c.regs with fs := t.engineFlags x, xf := d.regs.xf } ∧
     c.regs.xf &&& d.regs.xf = c.regs.xf ∧
     (∀ y, y ≠ x → t.ctx y = { m.ctx y with hit := (t.ctx y).hit, spin := (t.ctx y).spin } ∧
       unmarked (t.ctx y).spin = unmarked (m.ctx y).spin) ∧
     t = { m with mem := t.mem, ctxs := t.ctxs, gops := m.gops.map (fun o => o.overtaken m.mem g.pa 4096) })

/-- R312, R322, R323: the bytes of a trap record, field by field. -/
def Sys2Proof.Claims.TrapRecordLayout : Prop :=
  ∀ (m : Mach) (c : Ctx) (fpc tc ta : W64), c.ctl.nlev ≤ 6 →
    (let b := m.recordBytes c fpc tc ta
     let at_ := fun (k n v : Nat) => field b k n = v
     b.length = 4096 ∧
     at_ 0 8 c.ctl.pc.toNat ∧ at_ 8 8 (if c.ctl.dly = 0 then 0 else c.ctl.tgt.toNat) ∧
     at_ 16 1 (c.ctl.dly.toNat + if c.ctl.link then 4 else 0) ∧ at_ 17 1 c.ctl.remain.toNat ∧ at_ 18 2 c.regs.vl.toNat ∧
     at_ 20 1 c.regs.f.toNat ∧ at_ 21 1 c.ctl.nlev ∧ at_ 23 1 (c.regs.rb.toNat + 16 * c.regs.rs.toNat) ∧
     (∀ k < 6, (field b 22 1).testBit k = (c.ctl.first.getLsbD k && decide (k < c.ctl.nlev))) ∧
     (∀ k < 6, at_ (24 + 4 * k) 4 (if k < c.ctl.nlev then (rget k c.ctl.lc).toNat else 0) ∧
       at_ (48 + 8 * k) 8 (if k < c.ctl.nlev then (rget k c.ctl.body).toNat else 0) ∧
       at_ (96 + 2 * k) 2 (if k < c.ctl.nlev then (rget k c.ctl.blen).toNat else 0)) ∧
     (∀ k, 1 ≤ k → k ≤ 11 → at_ (112 + 4 * (k - 1)) 4 (rget k c.ctl.sticky).toNat) ∧
     (∀ k, 7 ≤ k → k ≤ 10 → at_ (160 + 8 * (k - 7)) 8 (rget k c.ctl.raddr).toNat) ∧
     (∀ k < 8, at_ (192 + 2 * k) 2 (rget k c.regs.ct).toNat) ∧
     (∀ k < 32, (field b 208 4).testBit k = m.tokenDone c.regs k) ∧
     at_ 212 1 c.regs.vrm.toNat ∧ at_ 213 1 c.regs.xf.toNat ∧
     at_ 216 8 ((if c.pend.pex then 1 else 0) + 2 ^ 16 * c.pend.pexN.toNat) ∧ at_ 224 8 c.pend.pexA.toNat ∧
     at_ 232 8 ((if c.pend.ptf then 1 else 0) + 2 ^ 8 * c.pend.ptfC.toNat) ∧ at_ 240 8 c.pend.ptfV.toNat ∧
     at_ 512 8 0 ∧ (∀ k, 1 ≤ k → k < 64 → at_ (512 + 8 * k) 8 (rget k c.regs.g).toNat) ∧
     (∀ k e, k < 48 → c.replay[k]? = some e →
       at_ (1024 + 32 * k) 16 e.data.toNat ∧ at_ (1040 + 32 * k) 1 e.kind.toNat ∧ at_ (1041 + 32 * k) 1 e.reg.toNat ∧
       at_ (1042 + 32 * k) 2 e.byte.toNat ∧ at_ (1044 + 32 * k) 1 e.k.toNat) ∧
     (∀ k, k < 48 → c.replay[k]? = none → at_ (1024 + 32 * k) 32 0) ∧
     at_ 2560 8 fpc.toNat ∧ at_ 2568 8 tc.toNat ∧ at_ 2576 8 ta.toNat ∧ at_ 2584 1512 0)

/-- R53, R311, R312, R313, R322, R323. Its parts: `TrapEntryWritesTheRecord`; `TrapRecordLayout`. -/
def Obligations.TrapEntrySavesTheProgram : Prop := Claims.TrapEntryWritesTheRecord ∧ Claims.TrapRecordLayout

/-- R311, R315: a trap in handler mode, or one whose record cannot be written, is a double fault: the context halts with its state kept,
the other contexts of its run stop, the run is stopped, and the double-fault interrupt is raised. A run that one has stopped keeps its
state. -/
def Sys2Proof.Claims.DoubleFaultStopsTheRun : Prop :=
  ∀ (m : Mach) (x : Nat) (fpc tc ta : W64),
    (m.ctx x).trp.handler = true ∨ m.plainArea x (m.ctx x).trp.trec 4096 = none →
    (let r := (m.ctx x).rid
     let t := m.enter x fpc tc ta
     ((∀ q, m.run? r = some q → q.stopped = false) →
       (∀ y, kget y t.ctxs = (kget y m.ctxs).map (fun c =>
         if y = x then { c with status := .halted }
         else if c.rid = r ∧ c.status ≠ .absent ∧ c.status ≠ .ended ∧ c.status ≠ .halted then { c with status := .runStopped }
         else c)) ∧
       (∀ q ∈ t.runs, q.id = r → q.stopped = true) ∧
       t.runs.map (fun q => { q with stopped := false }) = m.runs.map (fun q => { q with stopped := false }) ∧
       t.irqs = m.irqs ++ [m.pkg.vectors.extractLsb' 8 8] ∧
       t = { m with ctxs := t.ctxs, runs := t.runs, irqs := t.irqs }) ∧
     (∀ q, m.run? r = some q → q.stopped = true → t = m))

/-- R307, R327, R311, R315. Its parts: `SoftwareTrapsEnterTheHandler`; `DoubleFaultStopsTheRun`. -/
def Obligations.SoftwareTrapsAndDoubleFaults : Prop := Claims.SoftwareTrapsEnterTheHandler ∧ Claims.DoubleFaultStopsTheRun

/-- R314, R316, R328: `tret` makes the context wait for what its handler issued; trap return then loads CTL and `g1` to `g63` from the
record as it stands, merges the pending faults, leaves handler mode, makes a group boundary and lets a team that waited for this handler
go on, each of its contexts with a group boundary, one that is pre-empted or has ended too (the model's choice, log 85); an order token
that the record shows complete is complete, another is the trapped program's (R322); a context that waited at a barrier waits again (R316);
every register that the record does not hold is unchanged. -/
def Obligations.TrapReturnLoadsTheRecord : Prop :=
  (∀ s : State, s.oc.trp.handler = true → plainIssue s → exec .tret s = .next (arrivedAt s .ret)) ∧
  ∀ (m : Mach) (x : Nat) (segs : List Seg), m.plainArea x (m.ctx x).trp.trec 4096 = some segs →
    ctlValid (m.segBytes segs) = true →
    (let c := m.ctx x
     let b := m.segBytes segs
     let t := m.trapReturn x
     let d := t.ctx x
     let live := fun (k : Nat) => k < field b 21 1
     d.trp = { c.trp with handler := false, ot := [], held := none } ∧ d.readAt = none ∧
     d.status = (match c.trp.held with
       | some w => .parked w
       | none => .run) ∧
     (∀ k < 32, kget k d.regs.ot = if (field b 208 4).testBit k then none else kget k c.trp.ot) ∧
     d.ctl.pc.toNat = field b 0 8 ∧ d.ctl.tgt.toNat = field b 8 8 ∧ d.ctl.dly.toNat = field b 16 1 % 4 ∧
     d.ctl.link = (field b 16 1).testBit 2 ∧ d.ctl.remain.toNat = field b 17 1 ∧ d.ctl.nlev = field b 21 1 ∧
     (∀ k < 6, live k → (rget k d.ctl.lc).toNat = field b (24 + 4 * k) 4 ∧ (rget k d.ctl.body).toNat = field b (48 + 8 * k) 8 ∧
       (rget k d.ctl.blen).toNat = field b (96 + 2 * k) 2 ∧ d.ctl.first.getLsbD k = (field b 22 1).testBit k) ∧
     d.ctl.lastB = [] ∧ d.ibuf = [] ∧
     (∀ k, 1 ≤ k → k ≤ 11 → (rget k d.ctl.sticky).toNat = field b (112 + 4 * (k - 1)) 4) ∧
     (∀ k, 7 ≤ k → k ≤ 10 → (rget k d.ctl.raddr).toNat = field b (160 + 8 * (k - 7)) 8) ∧
     (∀ k : BitVec 6, k ≠ 0 → (d.regs.rg k).toNat = field b (512 + 8 * k.toNat) 8) ∧
     d.regs.f.toNat = field b 20 1 ∧ d.regs.vl.toNat = field b 18 2 % 2 ^ 11 ∧ d.regs.vrm.toNat = field b 212 1 ∧
     d.regs.rb.toNat = field b 23 1 % 8 ∧ d.regs.rs.toNat = field b 23 1 / 16 ∧
     (∀ k < 8, (rget k d.regs.ct).toNat = field b (192 + 2 * k) 2) ∧
     d.pend.pex = (field b 216 1 % 2 == 1 || c.pend.pex) ∧ d.pend.ptf = (field b 232 1 % 2 == 1 || c.pend.ptf) ∧
     (field b 216 1 % 2 = 1 → c.pend.pex = true → d.pend.pexN.toNat = min 65535 (field b 218 2 + c.pend.pexN.toNat)) ∧
     (field b 216 1 % 2 = 1 → d.pend.pexA.toNat = field b 224 8) ∧
     (field b 216 1 % 2 = 0 → d.pend.pexN = c.pend.pexN ∧ d.pend.pexA = c.pend.pexA) ∧
     (field b 232 1 % 2 = 1 → d.pend.ptfC.toNat = field b 233 1 ∧ d.pend.ptfV.toNat = field b 240 8) ∧
     (field b 232 1 % 2 = 0 → d.pend.ptfC = c.pend.ptfC ∧ d.pend.ptfV = c.pend.ptfV) ∧
     d.regs.v = c.regs.v ∧ d.regs.m = c.regs.m ∧ d.regs.stride = c.regs.stride ∧ d.regs.sc = c.regs.sc ∧ d.regs.q = c.regs.q ∧
     d.regs.byp = c.regs.byp ∧ d.regs.sh = c.regs.sh ∧ d.regs.fo = c.regs.fo ∧ d.regs.genC = c.regs.genC ∧ d.regs.genK = c.regs.genK ∧
     d.groupW = [] ∧ d.regs.fs = t.engineFlags x ∧
     (∀ y, y ≠ x → t.ctx y = if (∃ u, m.team? c.rid (clusterOf x) = some u ∧ u.serving = some x ∧ y ∈ u.ctxs) then settledCtx m y (m.ctx y)
       else m.ctx y) ∧
     (∀ u, t.team? c.rid (clusterOf x) = some u → u.serving ≠ some x) ∧
     t = { m with ctxs := t.ctxs, teams := t.teams })

/-- R311, R314: when the handler has not changed the record, trap return restores what trap entry saved: the general registers, the
control state, the pending faults and the incomplete order tokens stand as before the trap. -/
def Obligations.TrapThenReturnRestoresTheProgram : Prop :=
  ∀ (m : Mach) (x : Nat) (fpc tc ta : W64) (g : Seg), (m.ctx x).trp.handler = false →
    m.plainArea x (m.ctx x).trp.trec 4096 = some [g] → g.len = 4096 →
    (m.enter x fpc tc ta).plainArea x (m.ctx x).trp.trec 4096 = some [g] →
    (m.ctx x).ctl.nlev ≤ 6 → (m.ctx x).replay = [] →
    ctlValid (m.recordBytes (m.ctx x) fpc tc ta) = true →
    (let c := m.ctx x
     let d := ((m.enter x fpc tc ta).trapReturn x).ctx x
     d.trp.handler = false ∧ (∀ n : BitVec 6, d.regs.rg n = c.regs.rg n) ∧
     (∀ k < 32, m.tokenDone c.regs k = false → kget k d.regs.ot = kget k c.regs.ot) ∧
     (∀ k < 32, ((m.enter x fpc tc ta).trapReturn x).tokenDone d.regs k = m.tokenDone c.regs k) ∧
     d.regs.f = c.regs.f ∧ d.regs.vl = c.regs.vl ∧ d.regs.vrm = c.regs.vrm ∧ d.regs.rb = c.regs.rb ∧ d.regs.rs = c.regs.rs ∧
     (∀ k < 8, rget k d.regs.ct = rget k c.regs.ct) ∧ d.regs.v = c.regs.v ∧ d.regs.m = c.regs.m ∧ d.regs.sc = c.regs.sc ∧
     d.ctl.pc = c.ctl.pc ∧ d.ctl.dly = c.ctl.dly ∧ (c.ctl.dly ≠ 0 → d.ctl.tgt = c.ctl.tgt) ∧ d.ctl.link = c.ctl.link ∧
     d.ctl.remain = c.ctl.remain ∧ d.ctl.nlev = c.ctl.nlev ∧
     (∀ k < c.ctl.nlev, rget k d.ctl.lc = rget k c.ctl.lc ∧ rget k d.ctl.body = rget k c.ctl.body ∧
       rget k d.ctl.blen = rget k c.ctl.blen ∧ d.ctl.first.getLsbD k = c.ctl.first.getLsbD k) ∧
     (∀ k, 1 ≤ k → k ≤ 11 → rget k d.ctl.sticky = rget k c.ctl.sticky) ∧
     (∀ k, 7 ≤ k → k ≤ 10 → rget k d.ctl.raddr = rget k c.ctl.raddr) ∧
     d.pend.pex = c.pend.pex ∧ (c.pend.pex = true → d.pend.pexN = c.pend.pexN ∧ d.pend.pexA = c.pend.pexA) ∧
     d.pend.ptf = c.pend.ptf ∧ (c.pend.ptf = true → d.pend.ptfC = c.pend.ptfC ∧ d.pend.ptfV = c.pend.ptfV))

/-- R323, R329: `csave` writes the save area and clears the live pending faults; the area's parts lie where R323 puts them. An area that
R312 does not allow is a double fault. -/
def Sys2Proof.Claims.SaveAreaIsWritten : Prop :=
  ∀ (s : State) (a : BitVec 6), s.oc.trp.handler = true → s.iss.hdr.rep = 0 →
    (∀ (r g : Seg), s.old.plainArea s.cx s.oc.trp.trec 4096 = some [r] → r.len = 4096 →
      s.old.plainArea s.cx (s.rg a) 163840 = some [g] → g.len = 163840 →
      ∃ t : State, exec (.csave a) s = .next t ∧ t.nc.pend = { Pend.zero with lost := s.nc.pend.lost } ∧
        t.iss = s.iss ∧ t.old = s.old ∧
        (∀ b, b < g.pa ∨ g.pa + 163840 ≤ b → readByte t.m.mem b = readByte s.m.mem b) ∧
        (let out := readBytes t.m.mem g.pa 163840
         let rec_ := s.old.segBytes [r]
         (∀ k < 32, field out (4096 * k) 4096 = (rget k s.regs.v).toNat) ∧
         (∀ k < 8, field out (0x20000 + 1088 * k) 1088 = (rget k s.regs.q).toNat) ∧
         (∀ k < 16, field out (0x22200 + 128 * k) 128 = (rget k s.regs.sc).toNat) ∧
         (∀ k < 8, field out (0x22A00 + 128 * k) 128 = (rget k s.regs.m).toNat) ∧
         (∀ k < 64, field out (0x22E00 + 8 * k) 8 = field rec_ (512 + 8 * k) 8) ∧
         (∀ k < 16, field out (0x23000 + 8 * k) 8 = (rget k s.regs.sh).toNat) ∧
         (∀ k < 72, field out (0x23080 + 4 * k) 4 = (rget k s.regs.stride).toNat) ∧
         field out 0x231A0 64 = s.regs.byp.toNat ∧
         (∀ k < 8, field out (0x231E0 + 4 * k) 4 = (rget k s.regs.fo).toNat) ∧
         field out 0x23200 208 = field rec_ 0 208 ∧ field out (0x23200 + 208) 4 = 2 ^ 32 - 1 ∧
         field out 0x23400 1536 = field rec_ 1024 1536 ∧
         (∀ k < 4, field out (0x23A00 + 32 * k) 16 = (rget k s.regs.genC).toNat ∧
           field out (0x23A00 + 32 * k + 16) 8 = (rget k s.regs.genK).toNat))) ∧
    (s.old.plainArea s.cx s.oc.trp.trec 4096 = none ∨ s.old.plainArea s.cx (s.rg a) 163840 = none →
      exec (.csave a) s = .next { s with m := s.old.doubleFault s.cx, iss := { s.iss with trapped := true } } ∧
      exec (.crest a) s = .next { s with m := s.old.doubleFault s.cx, iss := { s.iss with trapped := true } })

/-- R323, R329: `crest` loads the registers that it names from the save area, makes every order token complete, those of the program that
the handler returns to too, which waits at no barrier, and copies the control block, `g0` to `g63` and the replay entries into the trap
record; an invalid control block is a double fault. -/
def Sys2Proof.Claims.SaveAreaIsRestored : Prop :=
  ∀ (s : State) (a : BitVec 6) (r g : Seg), s.oc.trp.handler = true → s.iss.hdr.rep = 0 →
    s.old.plainArea s.cx s.oc.trp.trec 4096 = some [r] → r.len = 4096 →
    s.old.plainArea s.cx (s.rg a) 163840 = some [g] → g.len = 163840 →
    (let b := s.old.segBytes [g]
     (ctlValid (b.drop 0x23200) = true →
       ∃ t : State, exec (.crest a) s = .next t ∧ t.iss = s.iss ∧ t.old = s.old ∧
         (∀ k < 32, (rget k t.nc.regs.v).toNat = field b (4096 * k) 4096) ∧
         (∀ k < 8, (rget k t.nc.regs.q).toNat = field b (0x20000 + 1088 * k) 1088) ∧
         (∀ k < 16, (rget k t.nc.regs.sc).toNat = field b (0x22200 + 128 * k) 128) ∧
         (∀ k < 8, (rget k t.nc.regs.m).toNat = field b (0x22A00 + 128 * k) 128) ∧
         (∀ k < 16, (rget k t.nc.regs.sh).toNat = field b (0x23000 + 8 * k) 8) ∧
         (∀ k < 72, (rget k t.nc.regs.stride).toNat = field b (0x23080 + 4 * k) 4) ∧
         t.nc.regs.byp.toNat = field b 0x231A0 64 ∧
         (∀ k < 8, (rget k t.nc.regs.fo).toNat = field b (0x231E0 + 4 * k) 4) ∧
         (∀ k < 4, (rget k t.nc.regs.genC).toNat = field b (0x23A00 + 32 * k) 16 ∧
           (rget k t.nc.regs.genK).toNat = field b (0x23A00 + 32 * k + 16) 8) ∧
         (∀ k < 32, t.m.tokenDone t.nc.regs k = true) ∧
         t.nc.regs.g = s.nc.regs.g ∧ t.nc.ctl = s.nc.ctl ∧ t.nc.pend = s.nc.pend ∧
         t.nc.trp = { s.nc.trp with ot := [], held := none } ∧
         (∀ i < 512, readByte t.m.mem (r.pa + i) = b.getD (0x23200 + i) 0) ∧
         (∀ i < 512, readByte t.m.mem (r.pa + 512 + i) = b.getD (0x22E00 + i) 0) ∧
         (∀ i < 1536, readByte t.m.mem (r.pa + 1024 + i) = b.getD (0x23400 + i) 0) ∧
         (∀ i < 1536, readByte t.m.mem (r.pa + 2560 + i) = readByte s.old.mem (r.pa + 2560 + i)) ∧
         (∀ i, i < r.pa ∨ r.pa + 4096 ≤ i → readByte t.m.mem i = readByte s.m.mem i)) ∧
     (ctlValid (b.drop 0x23200) = false →
       exec (.crest a) s = .next { s with m := s.old.doubleFault s.cx, iss := { s.iss with trapped := true } }))

/-- R323, R329. Its parts: `SaveAreaIsWritten`; `SaveAreaIsRestored`. -/
def Obligations.SaveAreaIsWrittenAndRestored : Prop := Claims.SaveAreaIsWritten ∧ Claims.SaveAreaIsRestored

/-- R330: `ckptg` and `replayg` check their own 128 bytes for each context of the team and arrive at the team's generator barrier; a
context that arrives while a barrier of another kind is open takes the run-state trap. A wait keeps where the context stands in its
program, for a barrier that a rollback abandons. -/
def Sys2Proof.Claims.GeneratorBarriersArePassedTogether : Prop :=
  ∀ (s : State) (a : BitVec 6), s.iss.hdr.rep = 0 →
    (let w := (s.old.window s.cx .lk).2
     let n := 128 * s.oc.size
     let inside := (s.rg a).toNat + n ≤ w
     let cause := fun (c u : Nat) => s.fail { code := c, sub := u, addr := s.rg a } s.iss.slot 0
     (inside → (s.rg a).toNat % 32 = 0 → sameBarrier s 2 → exec (.ckptg a) s = .next (arrivedAt s (.gen false (s.rg a) s.oc.ctl))) ∧
     (inside → (s.rg a).toNat % 32 = 0 → sameBarrier s 3 → exec (.replayg a) s = .next (arrivedAt s (.gen true (s.rg a) s.oc.ctl))) ∧
     (inside → (s.rg a).toNat % 32 = 0 → ¬ sameBarrier s 2 →
       exec (.ckptg a) s = .next (s.fail { code := 0x05, sub := 0, addr := s.iss.addr } s.iss.slot 0)) ∧
     (inside → (s.rg a).toNat % 32 = 0 → ¬ sameBarrier s 3 →
       exec (.replayg a) s = .next (s.fail { code := 0x05, sub := 0, addr := s.iss.addr } s.iss.slot 0)) ∧
     (inside → (s.rg a).toNat % 32 ≠ 0 →
       exec (.ckptg a) s = .next (cause 0x03 0) ∧ exec (.replayg a) s = .next (cause 0x03 0)) ∧
     (¬ inside → exec (.ckptg a) s = .next (cause 0x11 1) ∧ exec (.replayg a) s = .next (cause 0x11 1)))

/-- R331 to R335, R360, R361: what the maintenance words do. `tlbinv` and `tlbinva` drop the cached translations of the run's root in every
TLB and micro-TLB (the former those that cover the address); `enrd` writes an energy counter; `clkreq`, `sgjoin` and `sgleave` change the
quarter's Governor, and a leader is told of a quarter that leaves (by a limit of 0 steps, the model's choice, log 54);
`pwrgive` and `pwrask` post a grant or a request; `selftest` enters the core's M engine with its result register pending; `irq` raises
its vector. -/
def Sys2Proof.Claims.MaintenanceWordsAct : Prop :=
  ∀ (s : State) (a d : BitVec 6) (c : BitVec 8),
    (exec (.enrd d 0) s = .next (s.wg d (BitVec.ofNat 64 (ofRun s (fun r => r.energy))))) ∧
    (s.oc.trp.handler = true →
      exec (.tlbinv a) s = .next (tlbWithout s (fun t => t.root == rootOf s && (s.rg a).toNat / t.size == t.va.toNat / t.size)) ∧
      exec .tlbinva s = .next (tlbWithout s (fun t => t.root == rootOf s)) ∧
      exec (.enrd d 1) s = .next (s.wg d (rget (quarterOf s.cx) s.old.pkg.energyQ)) ∧
      exec (.enrd d 2) s = .next (s.wg d s.old.pkg.energyP) ∧
      exec (.enrd d 3) s = .next (s.wg d (rget (tenantOf s) s.old.pkg.energyT)) ∧
      exec (.clkreq a) s = .next (govWith s (fun g => requested g (min 76 ((s.rg a).toNat % 128)))) ∧
      exec (.sgjoin a) s = .next (
        if (quarterGov s).group = some (BitVec.ofNat 16 (s.rg a).toNat) then s
        else govWith (groupLeft s) (fun g => { g with group := some (BitVec.ofNat 16 (s.rg a).toNat) })) ∧
      exec .sgleave s = .next (groupLeft s) ∧
      (s.m.pkg.f + (s.rg a).toNat % 2 ^ 16 ≤ s.m.pkg.p →
        exec (.pwrgive a) s = .next (posted (pkgWith s (fun p => { p with p := p.p - (s.rg a).toNat % 2 ^ 16 }))
          (BitVec.ofNat 12 ((s.rg a).toNat / 2 ^ 16)) (.give (BitVec.ofNat 12 ((s.rg a).toNat / 2 ^ 16)) ((s.rg a).toNat % 2 ^ 16)))) ∧
      (s.m.pkg.p < s.m.pkg.f + (s.rg a).toNat % 2 ^ 16 →
        exec (.pwrgive a) s = .next (pkgWith s (fun p => { p with cnts := rput 301 (rget 301 p.cnts + 1) p.cnts }))) ∧
      exec (.pwrask a) s = .next (posted s (BitVec.ofNat 12 ((s.rg a).toNat / 2 ^ 16))
        (.ask (BitVec.ofNat 12 ((s.rg a).toNat / 2 ^ 16)) ((s.rg a).toNat % 2 ^ 16))) ∧
      exec (.irq c) s = .next { s with m := { s.m with irqs := s.m.irqs ++ [c] } } ∧
      (s.iss.hdr.rep = 0 → ∃ t : State, exec (.selftest a) s = .next t ∧
        (t.m.core (coreOf s.cx)).mq = (s.m.core (coreOf s.cx)).mq ++ [testOp s (if testable s (s.rg a) then s.rg a else 0) a] ∧
        t.nc.busy = s.nc.busy ++ (if a = 0 then [] else [.g a.toNat]) ∧ t.m.mem = s.m.mem ∧ t.iss = s.iss ∧ t.old = s.old))

/-- R330, R331, R335, R360, R361. Its parts: `GeneratorBarriersArePassedTogether`; `MaintenanceWordsAct`. What rests on log entry 54 is the
model's choice: each part names the clause. -/
def Obligations.GeneratorBarriersAndMaintenanceWords : Prop := Claims.GeneratorBarriersArePassedTogether ∧ Claims.MaintenanceWordsAct

namespace Sys2Proof.Claims

/-! ### Commands -/

/-- The sequencer of stream `k` executes the command (R15). -/
def bySequencer (s : State) (k : Nat) : Prop := s.iss.agent = .seq k

/-- The machine with stream `k` changed. -/
def streamNow (s : State) (k : Nat) (f : Stream → Stream) : State :=
  { s with m := { s.m with streams := kput k (f (s.m.stream k)) s.m.streams } }

/-- SSTAT with STATE `n`, its other bits kept (R13). -/
def stateBits (v : W64) (n : Nat) : W64 := BitVec.ofNat 64 (v.toNat / 8 * 8 + n % 8)

/-- The stream as a command of it begins to wait (R15): STATE 2 for a placement, 3 for positions, 1 for a store. -/
def waitsFor (a : Await) (n : Nat) (t : Stream) : Stream := { t with await := some a, stat := stateBits t.stat n }

/-- The stream after its command has completed (R13, R15): HEAD is past it. That STATE is then idle at END, or where LOG is out of range,
and running otherwise is the model's choice (log 36). -/
def completed (t : Stream) : Stream :=
  { t with
    head := t.head + BitVec.ofNat 64 t.len, await := none, len := 0, since := none
    stat := stateBits t.stat (if t.head + BitVec.ofNat 64 t.len = t.end_ ∨ t.logOk = false then 0 else 1) }

/-- The machine after stream `k` has faulted with `code` (R16): FCODE and STATE 4, HEAD kept, the interrupt of R370 raised. -/
def faulted (s : State) (k : Nat) (code : Nat) : State :=
  let t := streamNow s k (fun q => { q with stat := BitVec.ofNat 64 (q.stat.toNat / 2 ^ 16 % 2 ^ 16 * 2 ^ 16 + code * 256 + 4) })
  { t with m := { t.m with irqs := t.m.irqs ++ [s.m.pkg.vectors.extractLsb' 0 8] } }

/-- The run that a `launch` with literal index `l` makes of its record (R15, R18): it waits for placement, in the order of the cycles in
which the commands reached the heads of their streams (R21). -/
def waitingRun (s : State) (k : Nat) (l : BitVec 5) (pc : W64) (part : Nat) (es : List Entry) : Run :=
  let t := s.m.stream k
  { id := s.m.nextId, stream := k, pos := t.seq, time := t.since.getD s.m.cyc, tenant := t.cfg.toNat / 2 ^ 52 % 16, root := t.root, part := part,
    bin := s.lit2 l.toNat, args := s.lit2 (l.toNat + 2), pc := s.lit2 l.toNat + pc, recs := es, placed := false, begun := false,
    stopped := false, cnt := [], served := [], flits := 0, energy := 0, child := none }

end Sys2Proof.Claims

/-- R15, R17: what each command does when the sequencer of stream `k` executes it, and that a context which issues one takes the
illegal-encoding trap. A `launch` whose record is good makes a run that waits for placement and takes the next stream position; a
`waitrun` of position 0 completes at once, of a position not yet launched on its own stream faults, and waits otherwise; a `signal`
whose address it may store to waits for its store; a `fence` waits for every open position. The STATE that a completed command leaves is
the model's choice (log 36; what an append fault does to a waiting command: log 37). -/
def Obligations.CommandsAct : Prop :=
  ∀ (s : State) (k : Nat) (l : BitVec 5) (j : BitVec 4) (v : BitVec 8) (e : BitVec 1),
    (bySequencer s k →
      (let t := s.m.stream k
       (holdsLits s l 4 →
         (∀ (pc : W64) (part : Nat) (es : List Entry), s.m.readRecord t (s.lit2 l.toNat) = .ok (pc, part, es) →
           ∃ u : State, exec (.launch l) s = .next u ∧
             u.m.runs = s.m.runs ++ [waitingRun s k l pc part es] ∧
             u.m.stream k = waitsFor (.placement s.m.nextId) 2 { t with seq := t.seq + 1, open_ := t.open_ ++ [t.seq] } ∧
             u.m.mem = s.m.mem ∧ u.m.ctxs = s.m.ctxs ∧ u.m.pkg = s.m.pkg) ∧
         (∀ c : BitVec 8, s.m.readRecord t (s.lit2 l.toNat) = .error c →
           exec (.launch l) s = .next (faulted (streamNow s k (fun q => { q with seq := q.seq + 1 })) k c.toNat))) ∧
       (holdsLits s l 2 →
         (s.lit2 l.toNat = 0 → exec (.waitrun j l) s = .next (streamNow s k completed)) ∧
         (s.lit2 l.toNat ≠ 0 → j.toNat = k → t.seq.toNat ≤ (s.lit2 l.toNat).toNat → exec (.waitrun j l) s = .next (faulted s k 5)) ∧
         (s.lit2 l.toNat ≠ 0 → (j.toNat ≠ k ∨ (s.lit2 l.toNat).toNat < t.seq.toNat) →
           exec (.waitrun j l) s = .next (streamNow s k (waitsFor (.position j.toNat (s.lit2 l.toNat)) 3)))) ∧
       (holdsLits s l 4 →
         (∀ g : Seg, (s.lit2 l.toNat).toNat % 8 = 0 → s.m.seqPieces t true (s.lit2 l.toNat).toNat 8 = some [g] →
           exec (.signal v e l) s = .next (streamNow s k
             (waitsFor (.store g.pa (s.lit2 (l.toNat + 2)) (if e = 1 then some v else none)) 1))) ∧
         ((s.lit2 l.toNat).toNat % 8 ≠ 0 ∨ s.m.seqPieces t true (s.lit2 l.toNat).toNat 8 = none →
           exec (.signal v e l) s = .next (faulted s k 6))) ∧
       exec .fence s = .next (streamNow s k (waitsFor .all 3)))) ∧
    (∀ x, s.iss.agent = .ctx x →
      exec (.launch l) s = .next (refusedAt s 2) ∧ exec (.waitrun j l) s = .next (refusedAt s 2) ∧
      exec (.signal v e l) s = .next (refusedAt s 2) ∧ exec .fence s = .next (refusedAt s 2))

namespace Sys2Proof.Claims

/-! ### The memory slots -/

/-- The state `t` is `s` with `c` as the issuing context, every other context as it was, and the rest of the machine as in `m`. -/
def After (s t : State) (c : Ctx) (m : Mach) : Prop :=
  t.nc = c ∧ (∀ y, y ≠ s.cx → t.m.ctx y = s.m.ctx y) ∧ t = { s with m := { m with ctxs := t.m.ctxs } }

/-- ADDRESS_FROM_OPERANDS of the words of the stepped slots (R49, R168, R212): the register plus the offset in the form's units. -/
def formedAddress (s : State) : Instr → Option Int
  | .ld _ _ a o | .st _ _ a o | .ldm _ _ a o | .stm _ _ a o | .pfLg a o | .redAddF32 _ a o | .redMaxF32 _ a o | .redMinF32 _ a o
  | .redAddS32 _ a o | .redMaxS32 _ a o | .redMinS32 _ a o => some ((s.rg a).toNat + 64 * o.toInt)
  | .ldsS8 _ _ a o | .ldsZ8 _ _ a o | .stsZ8 _ _ a o => some ((s.rg a).toNat + o.toInt)
  | .ldsS16 _ _ a o | .ldsZ16 _ _ a o | .stsZ16 _ _ a o => some ((s.rg a).toNat + 2 * o.toInt)
  | .ldsS32 _ _ a o | .ldsZ32 _ _ a o | .stsZ32 _ _ a o => some ((s.rg a).toNat + 4 * o.toInt)
  | .ldsS64 _ _ a o | .stsZ64 _ _ a o | .waita _ _ a o => some ((s.rg a).toNat + 8 * o.toInt)
  | .ldt _ _ a _ | .stt _ _ a _ | .aaddS64 _ _ a _ | .aminS64 _ _ a _ | .amaxS64 _ _ a _ | .aandZ64 _ _ a _ | .aorZ64 _ _ a _
  | .axorZ64 _ _ a _ | .aswpZ64 _ _ a _ | .acasZ64 _ _ a _ | .stLgC _ a _ | .stLgK _ a _ _ | .waitany _ a _ _ => some (s.rg a).toNat
  | .barWait _ a o _ | .barArrive _ a o | .barInit _ a o _ | .barExp _ a o _ => some ((s.rg a).toNat + 16 * o.toInt)
  | .ldsc _ a o | .stsc _ a o => some ((s.rg a).toNat + 128 * o.toInt)
  | .ldscB _ a o => some ((s.rg a).toNat + o.toInt)
  | _ => none

/-- `n` bytes from offset `a` lie inside the context's window of the space and are aligned to `al` (R145, R146). -/
def inside (s : State) (sp : Space) (a : W64) (n al : Nat) : Prop := a.toNat + n ≤ (s.old.window s.cx sp).2 ∧ a.toNat % al = 0

/-- The location of offset `a` of the context's window. -/
def place (s : State) (sp : Space) (a : W64) : Nat := (s.old.window s.cx sp).1 + a.toNat

/-- The registers with the token of this slot's `ord` recording operation `id` (R74, R133). -/
def withToken (s : State) (id : Nat) (r : Regs) : Regs :=
  match s.ordLit with
  | some w => if ordOut w = 0 then r else { r with ot := kput (ordOut w) id r.ot }
  | none => r

/-- The registers with the token of this slot's `ord` complete (R74). -/
def tokenComplete (s : State) (r : Regs) : Regs :=
  match s.ordLit with
  | some w => { r with ot := kdel (ordOut w) r.ot }
  | none => r

/-- The issuing context after an operation has been issued that leaves the registers `rs` pending (R67). -/
def issuedCtx (s : State) (rs : List RegId) : Ctx :=
  { s.nc with regs := withToken s s.m.nextId s.nc.regs, busy := s.nc.busy ++ rs }

/-- The machine with a fresh operation in flight. -/
def newOp (s : State) : Mach := { s.m with nextId := s.m.nextId + 1, ops := s.m.ops ++ [s.m.nextId] }

/-- A local access as this issue queues it (R233). -/
def localOf (s : State) (act : LocalAct) (dest : Dest) : LocalOp :=
  { id := s.m.nextId, ctx := s.cx, pc := s.iss.addr, slot := s.iss.slot, no := s.no, act := act, dest := dest }

/-- The machine after that access has been queued. -/
def localQueued (s : State) (act : LocalAct) (dest : Dest) : Mach :=
  { newOp s with locq := enqueue (localOf s act dest) s.m.locq }

/-- A load: space, bytes, alignment, destination, the registers pending until the data return (R172, R173). -/
def loadOf (s : State) : Instr → Option (Space × Nat × Nat × Dest × List RegId)
  | .ld sp v _ _ => some (sp, 4 * s.vl, 64, .vec v.toNat s.vl, [.v v.toNat])
  | .ldm sp m _ _ => some (sp, 128, 64, .mask m.toNat, [.m m.toNat])
  | .ldsS8 sp g _ _ => some (sp, 1, 1, .scal g.toNat true, if g = 0 then [] else [.g g.toNat])
  | .ldsZ8 sp g _ _ => some (sp, 1, 1, .scal g.toNat false, if g = 0 then [] else [.g g.toNat])
  | .ldsS16 sp g _ _ => some (sp, 2, 2, .scal g.toNat true, if g = 0 then [] else [.g g.toNat])
  | .ldsZ16 sp g _ _ => some (sp, 2, 2, .scal g.toNat false, if g = 0 then [] else [.g g.toNat])
  | .ldsS32 sp g _ _ => some (sp, 4, 4, .scal g.toNat true, if g = 0 then [] else [.g g.toNat])
  | .ldsZ32 sp g _ _ => some (sp, 4, 4, .scal g.toNat false, if g = 0 then [] else [.g g.toNat])
  | .ldsS64 sp g _ _ => some (sp, 8, 8, .scal g.toNat true, if g = 0 then [] else [.g g.toNat])
  | _ => none

/-- The `k` low bytes of a number, least significant first. -/
def lowBytes (k v : Nat) : List Byte := (List.range k).map (fun i => BitVec.ofNat 8 (v / 256 ^ i))

/-- The first `k` bytes of a vector register: byte `i` lies in bits 8i + 7 to 8i (R102). -/
def vecBytes {w : Nat} (k : Nat) (v : BitVec w) : List Byte := (List.range k).map (fun i => v.extractLsb' (8 * i) 8)

/-- A store: space, bytes, alignment (R172, R173). -/
def storeOf (s : State) : Instr → Option (Space × List Byte × Nat)
  | .st sp v _ _ => some (sp, vecBytes (4 * s.vl) (s.rv v), 64)
  | .stm sp m _ _ => some (sp, vecBytes 128 (s.rm m), 64)
  | .stsZ8 sp g _ _ => some (sp, lowBytes 1 (s.rg g).toNat, 1)
  | .stsZ16 sp g _ _ => some (sp, lowBytes 2 (s.rg g).toNat, 2)
  | .stsZ32 sp g _ _ => some (sp, lowBytes 4 (s.rg g).toNat, 4)
  | .stsZ64 sp g _ _ => some (sp, lowBytes 8 (s.rg g).toNat, 8)
  | _ => none

/-- An atomic: space, operation, destination register, operand register (R176). -/
def atomicOf : Instr → Option (Space × AmoOp × BitVec 6 × BitVec 6)
  | .aaddS64 sp d _ b => some (sp, .add, d, b)
  | .aminS64 sp d _ b => some (sp, .min, d, b)
  | .amaxS64 sp d _ b => some (sp, .max, d, b)
  | .aandZ64 sp d _ b => some (sp, .and, d, b)
  | .aorZ64 sp d _ b => some (sp, .or, d, b)
  | .axorZ64 sp d _ b => some (sp, .xor, d, b)
  | .aswpZ64 sp d _ b => some (sp, .swp, d, b)
  | .acasZ64 sp d _ b => some (sp, .cas, d, b)
  | _ => none

/-- A reduction at memory (R178). -/
def reductionOf : Instr → Option (RedOp × BitVec 5)
  | .redAddF32 v _ _ => some (.addF32, v)
  | .redMaxF32 v _ _ => some (.maxF32, v)
  | .redMinF32 v _ _ => some (.minF32, v)
  | .redAddS32 v _ _ => some (.addS32, v)
  | .redMaxS32 v _ _ => some (.maxS32, v)
  | .redMinS32 v _ _ => some (.minS32, v)
  | _ => none

/-- Bytes of a tile, and whether 64 scale bytes go with it (R174), by the format of the layout word. -/
def tileSize (f : Nat) : Nat := if f = 0 then 4096 else if f = 1 ∨ f = 2 then 2048 else if f = 8 then 512 else 1024
def scaledTile (f : Nat) : Prop := f = 4 ∨ f = 6 ∨ f = 7 ∨ f = 8

/-- The layout words that a load and a store of a tile accept (R174). -/
def layoutGood (load : Bool) (w : W64) : Prop :=
  w.toNat / 32 % 8 = 0 ∧ if load then w.toNat % 16 ∈ [0, 1, 2, 4, 6, 7, 8] else w.toNat % 16 = 0

/-- Where the scales of a tile at `a` lie (R174): `a` plus the signed offset of the layout word. -/
def scalesAt (a w : W64) : W64 := BitVec.ofInt 64 ((a.toNat : Int) + (BitVec.ofNat 56 (w.toNat / 256)).toInt)

/-- A word that traps or faults at this issue, by its code, SUB and TADDR. -/
def trapsAt (s : State) (i : Instr) (code sub : Nat) (addr : W64) : Prop :=
  exec i s = .next (s.fail { code := code, sub := sub, addr := addr } s.iss.slot 0)

/-- A global operation as this issue makes it (R239, R240, R313). -/
def globalOf (s : State) (id : Nat) (needs : List Nat) (act : GAct) (segs : List Seg) (own : KMap Byte) (committed : Bool) : GOp :=
  { id := id, ctx := s.cx, pc := s.iss.addr, rid := s.oc.rid, cluster := clusterOf s.cx, no := s.no, needs := needs, act := act,
    segs := segs, committed := committed, batch := 0, direct := s.oc.trp.handler, sent := false, reqs := [], own := own, got := [], seen := [], passed := [],
    prior := [] }

/-- The machine after a read of the pieces has joined the global operations, with the bytes that its team's stores hold (R240). -/
def readQueued (s : State) (segs : List Seg) (dest : Dest) : Mach :=
  { newOp s with gops := s.m.takenBy s.cx s.oc.rid (clusterOf s.cx) segs ++ [globalOf s s.m.nextId s.lgNeeds (.read dest) segs
      (segs.flatMap (s.m.ownBytes s.oc.rid (clusterOf s.cx))) s.oc.trp.handler] }

/-- The issuing context after an LG word that makes no access (R74, R168, R245): its token reads complete at once, unless it consumes an
incomplete token or an earlier LG operation of its context waits; then an operation stands for it. -/
def nullCtx (s : State) : Ctx :=
  if s.ordLit = none ∨ s.lgNeeds = [] then { s.nc with regs := tokenComplete s s.nc.regs } else issuedCtx s []

/-- The machine after such a word. -/
def nullMach (s : State) : Mach :=
  if s.ordLit = none ∨ s.lgNeeds = [] then s.m
  else { newOp s with gops := s.m.gops ++ [globalOf s s.m.nextId s.lgNeeds (.read .none) [] [] s.oc.trp.handler] }

end Sys2Proof.Claims

/-- R49, R168, R212: the running address of a word of a stepped slot. Where the word is fresh it is formed from the operands in the
form's units; otherwise it is the slot's recorded address plus the slot's stride at the innermost active level. -/
def Obligations.RunningAddressIsFormedOrStepped : Prop :=
  ∀ (s : State) (i : Instr) (a : Int), formedAddress s i = some a →
    (s.iss.fresh = true → s.wordAddr i = BitVec.ofInt 64 a) ∧
    (s.iss.fresh = false → s.wordAddr i = BitVec.ofInt 64 ((rget s.iss.slot s.oc.ctl.raddr).toNat +
      (rget (6 * s.iss.slot + (s.oc.ctl.nlev - 1)) s.oc.regs.stride).toInt))

/-- R145, R168, R172, R173, R233: a scratchpad load that lies in the window and is aligned joins the local queue with its destination
pending, and changes nothing else; of no element it completes at once; outside the window it takes the access fault, misaligned the
alignment trap. -/
def Sys2Proof.Claims.ScratchpadLoadsAreQueued : Prop :=
  ∀ (s : State) (i : Instr) (sp : Space) (n al : Nat) (d : Dest) (rs : List RegId), loadOf s i = some (sp, n, al, d, rs) → sp ≠ .lg →
    (let a := s.wordAddr i
     (n ≠ 0 → inside s sp a n al → ∃ t : State, exec i s = .next t ∧
       After s t (issuedCtx s rs) (localQueued s (.load [(place s sp a, n)]) d)) ∧
     (n = 0 → ∃ t : State, exec i s = .next t ∧ After s t (nullCtx s) (nullMach s)) ∧
     (n ≠ 0 → (s.old.window s.cx sp).2 < a.toNat + n → trapsAt s i 0x11 1 a) ∧
     (n ≠ 0 → a.toNat + n ≤ (s.old.window s.cx sp).2 → a.toNat % al ≠ 0 → trapsAt s i 0x03 0 a))

/-- R145, R168, R172, R173, R233: a scratchpad store that lies in the window and is aligned joins the local queue with the bytes it
will write, and changes nothing else, memory included; the other cases as for loads. -/
def Sys2Proof.Claims.ScratchpadStoresAreQueued : Prop :=
  ∀ (s : State) (i : Instr) (sp : Space) (bs : List Byte) (al : Nat), storeOf s i = some (sp, bs, al) → sp ≠ .lg →
    (let a := s.wordAddr i
     let n := bs.length
     (n ≠ 0 → inside s sp a n al → ∃ t : State, exec i s = .next t ∧
       After s t (issuedCtx s []) (localQueued s (.store [(place s sp a, bs)]) .none)) ∧
     (n = 0 → ∃ t : State, exec i s = .next t ∧ After s t (nullCtx s) (nullMach s)) ∧
     (n ≠ 0 → (s.old.window s.cx sp).2 < a.toNat + n → trapsAt s i 0x11 1 a) ∧
     (n ≠ 0 → a.toNat + n ≤ (s.old.window s.cx sp).2 → a.toNat % al ≠ 0 → trapsAt s i 0x03 0 a))

/-- R145, R168, R172, R173, R233. Its parts: `ScratchpadLoadsAreQueued`; `ScratchpadStoresAreQueued`. -/
def Obligations.ScratchpadLoadsAndStores : Prop := Claims.ScratchpadLoadsAreQueued ∧ Claims.ScratchpadStoresAreQueued

/-- R160, R161, R169, R174: `ldt` and `stt` in a scratchpad: a layout word that the form does not accept is refused by check 4; a tile load
takes the scale bytes where the format has them, in one access whose bytes must all lie in the window before their alignment counts; a tile store writes `.f32` elements, the one of logical position p at the stored
position that the layout bit gives. -/
def Sys2Proof.Claims.TileAccessesAreQueued : Prop :=
  ∀ (s : State) (sp : Space) (v : BitVec 5) (a b : BitVec 6), sp ≠ .lg →
    (let w := s.rg b
     let f := w.toNat % 16
     let T := w.getLsbD 4
     let i : Instr := .ldt sp v a b
     let j : Instr := .stt sp v a b
     let x := s.wordAddr i
     (¬ layoutGood true w → exec i s = .next (refusedAt s 4)) ∧
     (¬ layoutGood false w → exec j s = .next (refusedAt s 4)) ∧
     (layoutGood true w → inside s sp x (tileSize f) (tileSize f) → ¬ scaledTile f → ∃ t : State, exec i s = .next t ∧
       After s t (issuedCtx s [.v v.toNat]) (localQueued s (.load [(place s sp x, tileSize f)]) (.tile v.toNat f T))) ∧
     (layoutGood true w → inside s sp x (tileSize f) (tileSize f) → scaledTile f → inside s sp (scalesAt x w) 64 64 →
       ∃ t : State, exec i s = .next t ∧ After s t (issuedCtx s [.v v.toNat])
         (localQueued s (.load [(place s sp x, tileSize f), (place s sp (scalesAt x w), 64)]) (.tile v.toNat f T))) ∧
     (layoutGood true w → (s.old.window s.cx sp).2 < x.toNat + tileSize f → trapsAt s i 0x11 1 x) ∧
     (layoutGood true w → x.toNat + tileSize f ≤ (s.old.window s.cx sp).2 → scaledTile f →
       (s.old.window s.cx sp).2 < (scalesAt x w).toNat + 64 → trapsAt s i 0x11 1 (scalesAt x w)) ∧
     (layoutGood true w → x.toNat + tileSize f ≤ (s.old.window s.cx sp).2 →
       (scaledTile f → (scalesAt x w).toNat + 64 ≤ (s.old.window s.cx sp).2) → x.toNat % tileSize f ≠ 0 → trapsAt s i 0x03 0 x) ∧
     (layoutGood true w → inside s sp x (tileSize f) (tileSize f) → scaledTile f →
       (scalesAt x w).toNat + 64 ≤ (s.old.window s.cx sp).2 → (scalesAt x w).toNat % 64 ≠ 0 → trapsAt s i 0x03 0 (scalesAt x w)) ∧
     (layoutGood false w → inside s sp (s.wordAddr j) 4096 4096 → ∃ (t : State) (bs : List Byte), exec j s = .next t ∧
       After s t (issuedCtx s []) (localQueued s (.store [(place s sp (s.wordAddr j), bs)]) .none) ∧ bs.length = 4096 ∧
       ∀ r c k, r < 32 → c < 32 → k < 4 →
         bs.getD (4 * (if T then tilePos c r else tilePos r c) + k) 0 = (s.rv v).extractLsb' (8 * (4 * tilePos r c + k)) 8))

/-- R176, R183: scratchpad atomics and the barrier words that change a barrier join the local queue; `bar.init` as a store of the
initial barrier, `bar.arrive` and `bar.exp` as updates of one barrier. -/
def Sys2Proof.Claims.ScratchpadAtomicsAndBarriersAreQueued : Prop :=
  ∀ (s : State),
    (∀ (i : Instr) (sp : Space) (op : AmoOp) (d b : BitVec 6), atomicOf i = some (sp, op, d, b) → sp ≠ .lg →
      (inside s sp (s.wordAddr i) 8 8 → ∃ t : State, exec i s = .next t ∧
        After s t (issuedCtx s (if d = 0 then [] else [.g d.toNat]))
          (localQueued s (.amo op (place s sp (s.wordAddr i)) (s.rg b) (s.rg d)) (.scal d.toNat false))) ∧
      ((s.old.window s.cx sp).2 < (s.wordAddr i).toNat + 8 → trapsAt s i 0x11 1 (s.wordAddr i)) ∧
      ((s.wordAddr i).toNat + 8 ≤ (s.old.window s.cx sp).2 → (s.wordAddr i).toNat % 8 ≠ 0 → trapsAt s i 0x03 0 (s.wordAddr i))) ∧
    (∀ (sp : Space) (a : BitVec 6) (o : BitVec 9) (k : BitVec 5),
      (let at_ := fun (i : Instr) => place s sp (s.wordAddr i)
       (inside s sp (s.wordAddr (.barArrive sp a o)) 16 16 → ∃ t : State, exec (.barArrive sp a o) s = .next t ∧
         After s t (issuedCtx s []) (localQueued s (.bar (at_ (.barArrive sp a o)) (BitVec.ofInt 32 (-1)) 0) .none)) ∧
       (holdsLits s k 1 → inside s sp (s.wordAddr (.barExp sp a o k)) 16 16 → ∃ t : State, exec (.barExp sp a o k) s = .next t ∧
         After s t (issuedCtx s []) (localQueued s (.bar (at_ (.barExp sp a o k)) 0 (s.lit k.toNat)) .none)) ∧
       (holdsLits s k 1 → inside s sp (s.wordAddr (.barInit sp a o k)) 16 16 → ∃ t : State, exec (.barInit sp a o k) s = .next t ∧
         After s t (issuedCtx s []) (localQueued s (.store [(at_ (.barInit sp a o k),
           lowBytes 4 0 ++ lowBytes 4 ((s.lit k.toNat).toNat % 2 ^ 16) ++ lowBytes 4 ((s.lit k.toNat).toNat / 2 ^ 16) ++
             lowBytes 4 (s.lit k.toNat).toNat)]) .none))))

/-- R160, R161, R169, R174, R176, R183. Its parts: `TileAccessesAreQueued`; `ScratchpadAtomicsAndBarriersAreQueued`. -/
def Obligations.TilesAtomicsAndBarriersInScratchpads : Prop := Claims.TileAccessesAreQueued ∧ Claims.ScratchpadAtomicsAndBarriersAreQueued

/-- R183 to R186: the words that wait for memory. `bar.wait` traps on a barrier with F = 1, goes on when the phase differs from its own
and parks otherwise; `waitany` writes the number and the phase of the first masked barrier whose phase has changed, in the order of its
rotating start, and parks when none has; `waita` goes on when the bytes differ or a store to their line woke it, and parks otherwise. -/
def Sys2Proof.Claims.MemoryWaitsParkOrGoOn : Prop :=
  ∀ (s : State) (sp : Space) (a : BitVec 6),
    (∀ (o : BitVec 9) (h : BitVec 4), inside s sp (s.wordAddr (.barWait sp a o h)) 16 16 →
      (let i : Instr := .barWait sp a o h
       let b := s.old.barrier (place s sp (s.wordAddr i))
       (b.getLsbD 4 = true → trapsAt s i 0x08 (b.toNat / 2 ^ 16 % 256) (s.wordAddr i)) ∧
       (b.getLsbD 4 = false → b.toNat % 16 ≠ h.toNat → exec i s = .next s) ∧
       (b.getLsbD 4 = false → b.toNat % 16 = h.toNat → exec i s = .next (parkedOn s (.bar (place s sp (s.wordAddr i))))))) ∧
    (∀ (d : BitVec 6) (m : BitVec 8), m ≠ 0 → inside s sp (s.wordAddr (.waitany sp a d m)) 128 16 →
      (let i : Instr := .waitany sp a d m
       let bar := fun (k : Nat) => s.old.barrier (place s sp (s.wordAddr i) + 16 * k)
       let r := s.regs.rs.toNat
       let changed := fun (k : Nat) => m.getLsbD k = true ∧ (bar k).toNat % 16 ≠ (s.rg d).toNat / 16 ^ k % 16
       let sound := ∀ k < 8, m.getLsbD k = true → (bar k).getLsbD 4 = false
       (∀ j < 8, m.getLsbD ((r + j) % 8) = true → (bar ((r + j) % 8)).getLsbD 4 = true →
         (∀ k < j, m.getLsbD ((r + k) % 8) = true → (bar ((r + k) % 8)).getLsbD 4 = false) →
         trapsAt s i 0x08 ((bar ((r + j) % 8)).toNat / 2 ^ 16 % 256) (s.wordAddr i + BitVec.ofNat 64 (16 * ((r + j) % 8)))) ∧
       (sound → ∀ j < 8, changed ((r + j) % 8) → (∀ k < j, ¬ changed ((r + k) % 8)) →
         ∃ v : W64, exec i s = .next ((s.wg d v).modR (fun q => { q with rs := BitVec.ofNat 3 ((r + j) % 8 + 1) })) ∧
           v.toNat / 2 ^ 32 = (r + j) % 8 ∧
           ∀ k < 8, v.toNat / 16 ^ k % 16 = if k = (r + j) % 8 then (bar k).toNat % 16 else (s.rg d).toNat / 16 ^ k % 16) ∧
       (sound → (∀ k < 8, ¬ changed k) → exec i s = .next (parkedOn s (.any (place s sp (s.wordAddr i)) m))))) ∧
    (∀ (b : BitVec 6) (o : BitVec 8), sp ≠ .lg → inside s sp (s.wordAddr (.waita sp b a o)) 8 8 →
      (let i : Instr := .waita sp b a o
       let l := place s sp (s.wordAddr i)
       ((s.old.load l 8 ≠ (s.rg b).toNat ∨ s.oc.hit = true) → ∃ t : State, exec i s = .next t ∧
         After s t { nullCtx s with hit := false } (nullMach s)) ∧
       (s.old.load l 8 = (s.rg b).toNat → s.oc.hit = false → exec i s = .next (parkedOn s (.line l)))))

namespace Sys2Proof.Claims

/-! ### The LG slot -/

/-- The pieces of an access of the issuing context, as R145 to R155 resolve them, or the trap or fault they find. -/
def resolved (s : State) (k : AccKind) (a : W64) (n al : Nat) : Except Cause (List Seg) := s.old.access s.cx k a n al

/-- The state `t` is `s` with `c` as the issuing context and the rest of the machine as in `m`; every other context is as it was, but that
the contexts of the team know of stores to the lines `ls` (R185). -/
def AfterStore (s t : State) (c : Ctx) (m : Mach) (ls : List Nat) : Prop :=
  t.nc = (if c.rid = s.oc.rid then c.notice ls else c) ∧
  (∀ y, y ≠ s.cx → t.m.ctx y =
    if (s.m.ctx y).rid = s.oc.rid ∧ clusterOf y = clusterOf s.cx then (s.m.ctx y).notice ls else s.m.ctx y) ∧
  t = { s with m := { m with ctxs := t.m.ctxs } }

/-- The state after a `waita` has sent the read of piece `g` from the machine before its issue, and parked until it has performed (R185). -/
def readSent (s : State) (g : Seg) : State :=
  let m := s.old.setCtx s.cx { s.oc with status := .parked (.read s.old.nextId) }
  { s with
    m := { m with
      nextId := s.old.nextId + 1
      ops := s.old.ops ++ [s.old.nextId]
      gops := s.old.takenBy s.cx s.oc.rid (clusterOf s.cx) [g] ++ [globalOf s s.old.nextId s.lgNeeds (.read (.scal 0 false)) [g]
        (s.old.ownBytes s.oc.rid (clusterOf s.cx) g) s.oc.trp.handler] }
    iss := { s.iss with trapped := true } }

/-- The entries of a store or a reduction (R239): one for each piece, numbered on from the operation's number, committed at once in
handler mode (R313). -/
def entriesOf (s : State) (es : List (GAct × Seg)) : List GOp :=
  es.mapIdx (fun k e => globalOf s (s.m.nextId + k) s.lgNeeds e.1 [e.2] [] s.oc.trp.handler)

/-- The machine after those entries have entered the team store buffer: the operation of the word is over, unless it waits for its
tokens (R245); a full buffer asks for a forced checkpoint (R37). -/
def storesQueued (s : State) (es : List (GAct × Seg)) : Mach :=
  let n := s.m.nextId
  let m : Mach := { s.m with
    nextId := n + max 1 es.length
    ops := if s.lgNeeds = [] then s.m.ops.filter (fun k => k ≠ n) else s.m.ops ++ [n]
    gops := s.m.gops ++ entriesOf s es }
  if s.oc.trp.handler then m else m.checkFull s.oc.rid (clusterOf s.cx)

/-- The lines of local memory that the entries bring into the buffer: none while they wait for their tokens (R185, R245). -/
def storedLines (s : State) (es : List (GAct × Seg)) : List Nat :=
  if s.lgNeeds = [] then es.flatMap (fun e => if e.2.chip = none then linesOf e.2.pa e.2.len else []) else []

/-- The entries of a plain store of the bytes `bs` (R169, R239): each piece takes its own bytes. -/
def pieceEntries (bs : List Byte) (segs : List Seg) : List (GAct × Seg) :=
  segs.map (fun g => (GAct.store ((bs.drop g.off).take g.len), g))

/-- The words of a vector register (R102). -/
def vecWords (n : Nat) (v : VReg) : List W32 := (List.range n).map (fun i => v.extractLsb' (32 * i) 32)

/-- The issuing context with token register `c` holding `n` and the token of the word's `ord` recording `id`, or complete. -/
def withCt (s : State) (r : Regs) (c : BitVec 3) (n : BitVec 16) : Ctx := { s.nc with regs := { r with ct := rput c.toNat n r.ct } }

/-- The sequence number that follows (R179): 1 after 65,535. -/
def followingSeq (n : BitVec 16) : BitVec 16 := if n.toNat = 65535 then 1 else n + 1

/-- The package after it has assigned the next sequence number (R179, R251); `entry` is the own entry made, if any, which the oldest
landed record gives way to (R252). -/
def numbered (s : State) (entry : Option OwnTok) : Pkg :=
  let p := s.m.pkg
  let n := p.nextTok
  let q : Pkg := { p with nextTok := followingSeq n, reuse := kput n.toNat (p.ftime, p.expiry.toNat) p.reuse }
  match entry with
  | none => q
  | some e => { q with
      own := kput n.toNat e p.own
      landed := if Config.tokenPlaces ≤ p.own.length + p.landed.length then p.landed.drop 1 else p.landed }

/-- The own entry of a `st.lg.c` at `va` (R252). -/
def freshToken (s : State) (va : W64) : OwnTok :=
  { state := .pending, deadline := s.m.pkg.ftime + 1000 * s.m.pkg.expiry.toNat, ctx := s.cx, va := va, waiting := [] }

/-- A causal store as this issue makes it (R179, R180): it needs no commit. -/
def causalQueued (s : State) (m : Mach) (seq : Option (BitVec 16)) (carries : List (BitVec 16)) (v : VReg) (segs : List Seg) : Mach :=
  { m with
    nextId := m.nextId + 1
    ops := m.ops ++ [m.nextId]
    gops := m.gops ++ [globalOf s m.nextId s.lgNeeds
      (.causal seq carries (s.m.pkg.ftime + 1000 * s.m.pkg.expiry.toNat) (vecBytes (4 * s.vl) v)) segs [] true] }

/-- What the own entry of token `n` holds (R252). -/
def tokenState (s : State) (n : BitVec 16) : Option TokState := (kget n.toNat s.m.pkg.own).map (fun e => e.state)

/-- The tokens that `st.lg.k` names in ct[c] and ct[k], each once (R180). -/
def namedTokens (s : State) (c k : BitVec 3) : List (BitVec 16) :=
  let x := rget c.toNat s.regs.ct
  let y := rget k.toNat s.regs.ct
  if x = 0 then (if y = 0 then [] else [y]) else if y = 0 ∨ y = x then [x] else [x, y]

/-- A context told that its causal store at `a` is lost (R253, R255): the first address stays, the count saturates. -/
def expired (c : Ctx) (a : W64) : Ctx :=
  { c with pend := { c.pend with
      pex := true
      pexN := BitVec.ofNat 16 (min 65535 (c.pend.pexN.toNat + 1))
      pexA := if c.pend.pex then c.pend.pexA else a } }

/-- The piece of an access that begins at `va`, its byte `off`, with `n` bytes left, on a page of `sz` bytes with the leaf `e` (R155, R169). -/
def pieceAt (m : Mach) (off va n : Nat) (e : W64) (sz : Nat) : Seg :=
  { off := off, len := min n (sz - va % sz), va := BitVec.ofNat 64 va, pa := leafPA e + va % sz,
    chip := if leafREM e = true ∧ leafCHIP e ≠ m.pkg.chip then some (leafCHIP e) else none, leaf := e }

/-- The pieces of the bytes of an access from `va`, number `off` of the access, up to those from `va'`, number `off'`, one for each page (R169);
of `n` bytes, `n'` are left. Core `k` translates each page under the table root `root` (R158). -/
inductive Cut (m : Mach) (k : Nat) (root : W64) : Nat → Nat → Nat → List Seg → Nat → Nat → Nat → Prop
  | nil (off va n : Nat) : Cut m k root off va n [] off va n
  | cons (off va n : Nat) (e : W64) (sz : Nat) (rest : List Seg) (off' va' n' : Nat) (hn : n ≠ 0)
      (ht : m.translate k root va = .ok (e, sz))
      (hr : Cut m k root (off + min n (sz - va % sz)) (va + min n (sz - va % sz)) (n - min n (sz - va % sz)) rest off' va' n') :
      Cut m k root off va n (pieceAt m off va n e sz :: rest) off' va' n'

/-- `n` bytes from `a` are canonical (R144, R145). -/
def canonical (a : W64) (n : Nat) : Prop := a.toNat + n ≤ 2 ^ 57

/-- An access of two ranges of bytes, each with its alignment (R169, R174). -/
def resolvedPair (s : State) (k : AccKind) (a : W64) (n al : Nat) (b : W64) (m bl : Nat) : Except Cause (List Seg) :=
  s.old.accessAll s.cx k [(a, n, al), (b, m, bl)]

/-- What the checks of the pieces of an access answer, where it is one (`f`), in ascending order (R155). -/
def judged (s : State) (k : AccKind) (part : Nat) (segs : List Seg) (f : Except Cause (List Seg)) : Prop :=
  (∀ (i : Nat) (g : Seg) (sub : Nat), segs[i]? = some g → (∀ (j : Nat) (h : Seg), j < i → segs[j]? = some h → pageCheck s.old k part h.leaf h.pa h.len = none) →
    pageCheck s.old k part g.leaf g.pa g.len = some sub →
      f = .error { code := 0x11, sub := sub, addr := g.va }) ∧
  ((∀ g ∈ segs, pageCheck s.old k part g.leaf g.pa g.len = none) → f = .ok segs)

/-- The translation of `va` by the tables from a table of level `lvl` at `t` (R150 to R153): `e` is the leaf, `n` the bytes it maps. -/
inductive Walks (m : Mach) (va : Nat) : Nat → Nat → W64 → Nat → Prop
  | leaf (lvl t : Nat) (e : W64) (he : m.load (t + 8 * (va / pageSize lvl % 2 ^ (levelIndex lvl).2)) 8 = e.toNat)
      (hv : e.toNat / 2 ^ 62 = 3) (hl : 2 ≤ lvl) (hz : e.toNat / 2 ^ 60 % 4 = 0 ∧ e.toNat % 2 ^ 7 = 0)
      (ha : (e.toNat / 2 ^ 16 % 2 ^ 32 * 65536) % pageSize lvl = 0)
      (hr : e.getLsbD 12 = true ∨ e.toNat / 2 ^ 48 % 2 ^ 12 = 0) (hm : malformed e = false) :
      Walks m va lvl t e (pageSize lvl)
  | table (lvl t : Nat) (e f : W64) (n : Nat) (he : m.load (t + 8 * (va / pageSize lvl % 2 ^ (levelIndex lvl).2)) 8 = e.toNat)
      (hv : e.toNat / 2 ^ 62 = 2) (hl : lvl ≤ 3) (hz : e.toNat / 2 ^ 48 % 2 ^ 14 = 0 ∧ e.toNat % 2 ^ 8 = 0)
      (ht : tableOk (e.toNat / 2 ^ 8 % 2 ^ 40 * 256) (lvl + 1) = true)
      (hw : Walks m va (lvl + 1) (e.toNat / 2 ^ 8 % 2 ^ 40 * 256) f n) :
      Walks m va lvl t f n

end Sys2Proof.Claims

/-- R150 to R153: a walk answers a leaf exactly where the tables lead to it: valid entries with their reserved fields zero, each table
aligned to its size in populated local HBM, the leaf below level 1, aligned to its page size, with attributes that R152 allows. -/
def Obligations.WalkFollowsTheTables : Prop :=
  ∀ (m : Mach) (root : W64) (va : Nat) (e : W64) (n : Nat),
    m.walk root va = .ok (e, n) ↔ (tableOk root.toNat 1 = true ∧ Walks m va 1 root.toNat e n)

/-- R145, R154, R155, R169: a global access checks, in this order, that all its bytes are canonical, that it is aligned, that every page it
touches has a translation, and that each page permits it, in ascending order; what passes is cut into one piece for each page, and the
pieces cover the access. A causal-token store on two pages is refused before its pages are judged. Five pages of 64 KiB, the smallest,
hold the 256 KiB of the longest access. An access of two ranges, the elements and the scales of a tile, makes each check for both of them
before the next check (R174). -/
def Obligations.GlobalAccessesAreCheckedInOrder : Prop :=
  ∀ (s : State) (k : AccKind) (a : W64) (n al : Nat) (r : Run), s.old.run? s.oc.rid = some r → 1 ≤ n →
    (let cut := Cut s.old (coreOf s.cx) r.root
     let fault := fun (code sub : Nat) (x : W64) => resolved s k a n al = .error { code := code, sub := sub, addr := x }
     (¬ canonical a n → fault 0x10 0 (BitVec.ofNat 64 (max a.toNat (2 ^ 57)))) ∧
     (canonical a n → a.toNat % al ≠ 0 → fault 0x03 0 a) ∧
     (∀ xs off va left lvl, canonical a n → a.toNat % al = 0 → cut 0 a.toNat n xs off va left → xs.length < 5 → left ≠ 0 →
       s.old.translate (coreOf s.cx) r.root va = .error lvl → fault 0x10 lvl (BitVec.ofNat 64 va)) ∧
     (∀ xs off va, canonical a n → a.toNat % al = 0 → cut 0 a.toNat n xs off va 0 → xs.length ≤ 5 →
       (k = .causal → 2 ≤ xs.length → fault 0x11 9 a) ∧
       ((k = .causal → xs.length ≤ 1) → judged s k r.part xs (resolved s k a n al)) ∧
       off = n ∧ ∀ i < n, ∃ g ∈ xs, g.off ≤ i ∧ i < g.off + g.len ∧ g.va = BitVec.ofNat 64 (a.toNat + g.off)) ∧
     (∀ (b : W64) (m bl : Nat), 1 ≤ m → k ≠ .causal →
       (let pair := resolvedPair s k a n al b m bl
        (¬ canonical a n → pair = .error { code := 0x10, sub := 0, addr := BitVec.ofNat 64 (max a.toNat (2 ^ 57)) }) ∧
        (canonical a n → ¬ canonical b m → pair = .error { code := 0x10, sub := 0, addr := BitVec.ofNat 64 (max b.toNat (2 ^ 57)) }) ∧
        (canonical a n → canonical b m → a.toNat % al ≠ 0 → pair = .error { code := 0x03, sub := 0, addr := a }) ∧
        (canonical a n → canonical b m → a.toNat % al = 0 → b.toNat % bl ≠ 0 → pair = .error { code := 0x03, sub := 0, addr := b }) ∧
        (∀ xs ys va vb off', canonical a n → canonical b m → a.toNat % al = 0 → b.toNat % bl = 0 →
          cut 0 a.toNat n xs n va 0 → xs.length ≤ 5 → cut n b.toNat m ys off' vb 0 → ys.length ≤ 5 →
          judged s k r.part (xs ++ ys) pair))))

/-- R154, R168, R172 to R175, R240: a global load whose access passes joins the global operations as a read, with the bytes that its
team's stores hold and with its destination pending; one that does not pass traps or faults at its issue. A prefetch that would fault
is dropped and counted. -/
def Sys2Proof.Claims.GlobalLoadsAreQueued : Prop :=
  ∀ (s : State),
    (∀ (i : Instr) (n al : Nat) (d : Dest) (rs : List RegId), loadOf s i = some (.lg, n, al, d, rs) →
      (∀ segs, n ≠ 0 → resolved s .load (s.wordAddr i) n al = .ok segs → ∃ t : State, exec i s = .next t ∧
        After s t (issuedCtx s rs) (readQueued s segs d)) ∧
      (n = 0 → ∃ t : State, exec i s = .next t ∧ After s t (nullCtx s) (nullMach s)) ∧
      (∀ c, n ≠ 0 → resolved s .load (s.wordAddr i) n al = .error c → exec i s = .next (s.fail c s.iss.slot 0))) ∧
    (∀ (a : BitVec 6) (o : BitVec 9),
      (∀ segs, resolved s .load (s.wordAddr (.pfLg a o)) 4096 64 = .ok segs → ∃ t : State, exec (.pfLg a o) s = .next t ∧
        After s t (issuedCtx s []) (readQueued s segs .none)) ∧
      (∀ c, resolved s .load (s.wordAddr (.pfLg a o)) 4096 64 = .error c → ∃ t : State, exec (.pfLg a o) s = .next t ∧
        After s t (nullCtx s) ((nullMach s).count s.oc.rid 1 1))) ∧
    (∀ (v : BitVec 5) (a b : BitVec 6), layoutGood true (s.rg b) →
      (let i : Instr := .ldt .lg v a b
       let f := (s.rg b).toNat % 16
       let d : Dest := .tile v.toNat f ((s.rg b).getLsbD 4)
       let x := s.wordAddr i
       (∀ segs, ¬ scaledTile f → resolved s .load x (tileSize f) (tileSize f) = .ok segs → ∃ t : State, exec i s = .next t ∧
         After s t (issuedCtx s [.v v.toNat]) (readQueued s segs d)) ∧
       (∀ c, ¬ scaledTile f → resolved s .load x (tileSize f) (tileSize f) = .error c → exec i s = .next (s.fail c s.iss.slot 0)) ∧
       (∀ segs, scaledTile f → resolvedPair s .load x (tileSize f) (tileSize f) (scalesAt x (s.rg b)) 64 64 = .ok segs →
         ∃ t : State, exec i s = .next t ∧ After s t (issuedCtx s [.v v.toNat]) (readQueued s segs d)) ∧
       (∀ c, scaledTile f → resolvedPair s .load x (tileSize f) (tileSize f) (scalesAt x (s.rg b)) 64 64 = .error c →
         exec i s = .next (s.fail c s.iss.slot 0))))

/-- R168, R172 to R174, R178, R239, R245, R313: a global store or a reduction at memory whose access passes enters its team's store
buffer, one entry for each piece (for each line of a piece, for a reduction), and memory stays as it is; in handler mode the entries are
committed at once. One that does not pass traps or faults. -/
def Sys2Proof.Claims.GlobalStoresEnterTheTeamBuffer : Prop :=
  ∀ (s : State),
    (∀ (i : Instr) (bs : List Byte) (al : Nat), storeOf s i = some (.lg, bs, al) →
      (∀ segs, bs ≠ [] → resolved s .store (s.wordAddr i) bs.length al = .ok segs → ∃ t : State, exec i s = .next t ∧
        AfterStore s t (issuedCtx s []) (storesQueued s (pieceEntries bs segs)) (storedLines s (pieceEntries bs segs))) ∧
      (bs = [] → ∃ t : State, exec i s = .next t ∧ After s t (nullCtx s) (nullMach s)) ∧
      (∀ c, bs ≠ [] → resolved s .store (s.wordAddr i) bs.length al = .error c → exec i s = .next (s.fail c s.iss.slot 0))) ∧
    (∀ (v : BitVec 5) (a b : BitVec 6) (segs : List Seg), layoutGood false (s.rg b) →
      resolved s .store (s.wordAddr (.stt .lg v a b)) 4096 4096 = .ok segs →
      ∃ (t : State) (bs : List Byte), exec (.stt .lg v a b) s = .next t ∧ bs.length = 4096 ∧
        (∀ r c k, r < 32 → c < 32 → k < 4 →
          bs.getD (4 * (if (s.rg b).getLsbD 4 then tilePos c r else tilePos r c) + k) 0 =
            (s.rv v).extractLsb' (8 * (4 * tilePos r c + k)) 8) ∧
        AfterStore s t (issuedCtx s []) (storesQueued s (pieceEntries bs segs)) (storedLines s (pieceEntries bs segs))) ∧
    (∀ (i : Instr) (op : RedOp) (v : BitVec 5), reductionOf i = some (op, v) →
      (let es := fun segs => redParts op (vecWords s.vl (s.rv v)) segs
       (∀ segs, s.vl ≠ 0 → resolved s .red (s.wordAddr i) (4 * s.vl) 64 = .ok segs → ∃ t : State, exec i s = .next t ∧
         AfterStore s t (issuedCtx s []) (storesQueued s (es segs)) (storedLines s (es segs))) ∧
       (s.vl = 0 → ∃ t : State, exec i s = .next t ∧ After s t (nullCtx s) (nullMach s)) ∧
       (∀ c, s.vl ≠ 0 → resolved s .red (s.wordAddr i) (4 * s.vl) 64 = .error c → exec i s = .next (s.fail c s.iss.slot 0))))

/-- R154, R168, R172, R175, R240, R174, R178, R239, R245, R313. Its parts: `GlobalLoadsAreQueued`; `GlobalStoresEnterTheTeamBuffer`. -/
def Obligations.GlobalLoadsAndStores : Prop := Claims.GlobalLoadsAreQueued ∧ Claims.GlobalStoresEnterTheTeamBuffer

/-- R176, R179, R180, R251 to R253: a global atomic goes to its home with its destination pending; `st.lg.c` takes the package's next
sequence number into its token register and makes a PENDING own entry; `st.lg.k` carries the PENDING tokens that it names, and is
dropped, its context told, where one of them is LOST. With `vl` = 0 a LOST token sets nothing (the model's choice, log 97). -/
def Obligations.GlobalAtomicsAndCausalStoresAreSent : Prop :=
  ∀ (s : State),
    (∀ (i : Instr) (op : AmoOp) (d b : BitVec 6), atomicOf i = some (.lg, op, d, b) →
      (∀ segs, resolved s .atomic (s.wordAddr i) 8 8 = .ok segs → ∃ t : State, exec i s = .next t ∧
        After s t (issuedCtx s (if d = 0 then [] else [.g d.toNat])) { newOp s with gops := s.m.gops ++
          [globalOf s s.m.nextId s.lgNeeds (.amo op (s.rg b) (s.rg d) d.toNat) segs [] s.oc.trp.handler] }) ∧
      (∀ c, resolved s .atomic (s.wordAddr i) 8 8 = .error c → exec i s = .next (s.fail c s.iss.slot 0))) ∧
    (∀ (v : BitVec 5) (a : BitVec 6) (c : BitVec 3),
      (let i : Instr := .stLgC v a c
       let n := s.m.pkg.nextTok
       (s.vl = 0 → ∃ t : State, exec i s = .next t ∧
         After s t (withCt s (nullCtx s).regs c n) { nullMach s with pkg := numbered s none }) ∧
       (∀ segs, s.vl ≠ 0 → resolved s .causal (s.wordAddr i) (4 * s.vl) 64 = .ok segs → ∃ t : State, exec i s = .next t ∧
         After s t (withCt s (withToken s s.m.nextId s.nc.regs) c n)
           (causalQueued s { s.m with pkg := numbered s (some (freshToken s (s.wordAddr i))) } (some n) [] (s.rv v) segs)) ∧
       (∀ e, s.vl ≠ 0 → resolved s .causal (s.wordAddr i) (4 * s.vl) 64 = .error e → exec i s = .next (s.fail e s.iss.slot 0)))) ∧
    (∀ (v : BitVec 5) (a : BitVec 6) (c k : BitVec 3),
      (let i : Instr := .stLgK v a c k
       let lost := ∃ n ∈ namedTokens s c k, tokenState s n = some .lost
       (s.vl = 0 → ∃ t : State, exec i s = .next t ∧ After s t (nullCtx s) (nullMach s)) ∧
       (∀ segs, s.vl ≠ 0 → resolved s .causal (s.wordAddr i) (4 * s.vl) 64 = .ok segs → lost → ∃ t : State,
         exec i s = .next t ∧ After s t (expired (nullCtx s) (s.wordAddr i)) (nullMach s)) ∧
       (∀ segs, s.vl ≠ 0 → resolved s .causal (s.wordAddr i) (4 * s.vl) 64 = .ok segs → ¬ lost → ∃ t : State,
         exec i s = .next t ∧ After s t (issuedCtx s []) (causalQueued s s.m none
           ((namedTokens s c k).filter (fun n => tokenState s n = some .pending)) (s.rv v) segs)) ∧
       (∀ e, s.vl ≠ 0 → resolved s .causal (s.wordAddr i) (4 * s.vl) 64 = .error e → exec i s = .next (s.fail e s.iss.slot 0))))

/-- R185, R187: a global `waita` goes on when the 8 bytes differ from its register or a store to their line woke it, and parks on the
line otherwise (the line of the home address: the model's choice, log 27); of a remote, CXL or TSO page it sends its read and parks until
that has performed, and its bundle, issued again, goes on. `drain`
delivers a pending fault first, TCAUSE with SLOT 15 (the model's choice, log 14); without one it waits for its own writes, for every store
that its checkpoint committed, for its tokens and for the LG operations of its context that wait for theirs (R245). -/
def Sys2Proof.Claims.GlobalWaitsAndDrain : Prop :=
  ∀ (s : State),
    (∀ (b a : BitVec 6) (o : BitVec 8), s.oc.readAt = some s.iss.addr → ∃ t : State, exec (.waita .lg b a o) s = .next t ∧
      After s t { nullCtx s with readAt := none } (nullMach s)) ∧
    (∀ (b a : BitVec 6) (o : BitVec 8) (g : Seg), s.oc.readAt ≠ some s.iss.addr →
      resolved s .load (s.wordAddr (.waita .lg b a o)) 8 8 = .ok [g] →
      (let i : Instr := .waita .lg b a o
       let far := leafREM g.leaf = true ∨ leafCXL g.leaf = true ∨ leafTSO g.leaf = true
       let now := s.old.peek s.oc.rid (clusterOf s.cx) g
       (far → exec i s = .next (readSent s g)) ∧
       (¬ far → now ≠ s.rg b ∨ s.oc.hit = true → ∃ t : State, exec i s = .next t ∧
         After s t { nullCtx s with hit := false } (nullMach s)) ∧
       (¬ far → now = s.rg b → s.oc.hit = false → exec i s = .next (parkedOn s (.line g.pa))))) ∧
    (nothingPending s → ∃ t : State, exec .drain s = .next t ∧
      After s t { issuedCtx s [] with drains := (s.m.nextId, true) :: (s.needs.map (fun k => (k, true)) ++
        ((s.m.gops.filter (fun g => g.ctx == s.cx && !g.needs.isEmpty && !g.isFeed)).map (fun g => g.id) ++ s.drainSet).map
          (fun k => (k, false))) } (newOp s)) ∧
    (¬ nothingPending s → ∃ t : State, exec .drain s = .next t ∧ t.iss = { s.iss with trapped := true } ∧
      t.m = if s.oc.pend.pex = true
        then (s.old.clearExpiry s.cx).faultAt s.cx s.no s.iss.addr
          (BitVec.ofNat 64 (0x15 + 15 * 65536 + 2 ^ 48 * s.oc.pend.pexN.toNat)) s.oc.pend.pexA
        else (s.old.clearTransfer s.cx).faultAt s.cx s.no s.iss.addr
          (BitVec.ofNat 64 (0x16 + 15 * 65536 + 2 ^ 32 * s.oc.pend.ptfC.toNat)) s.oc.pend.ptfV)

/-- R183, R186, R185, R187. Its parts: `MemoryWaitsParkOrGoOn`; `GlobalWaitsAndDrain`. What rests on log entries 14, 27 is the model's
choice: each part names the clause. -/
def Obligations.MemoryWaitsAndDrain : Prop := Claims.MemoryWaitsParkOrGoOn ∧ Claims.GlobalWaitsAndDrain

namespace Sys2Proof.Claims

/-! ### The V slot -/

/-- Element `i` of `n` bits of a register (R102, R189). -/
def el (n : Nat) {w : Nat} (v : BitVec w) (i : Nat) : BitVec n := v.extractLsb' (n * i) n

/-- A V operation as this issue makes it (R190): the registers that it reads as it begins, what it will write when it completes, and the
flags it will raise. -/
def vOpOf (s : State) (vW : List (Nat × VReg)) (mW : List (Nat × BitVec 1024)) (gW : List (Nat × W64)) (fl : XF) : VOp :=
  { id := s.m.nextId, no := s.no, pc := s.iss.addr, tile := none, srcs := s.iss.srcs, needs := s.needs, begun := false, vW := vW, mW := mW,
    gW := gW, flags := fl }

/-- The issuing context's registers after `n` draws from generator `k` (R107). -/
def drawn (s : State) (k n : Nat) : Regs :=
  { s.nc.regs with genC := rput k (rget k s.nc.regs.genC + BitVec.ofNat 128 ((n + 3) / 4)) s.nc.regs.genC }

/-- Draw `j` of this issue from generator `k` (R107): word j mod 4 of the block at C + j / 4. -/
def drawAt (s : State) (k j : Nat) : W32 :=
  (philox (rget k s.nc.regs.genC + BitVec.ofNat 128 (j / 4)) (rget k s.nc.regs.genK)).getD (j % 4) 0

/-- The issuing context with a V operation queued and the registers `rs` pending, its other registers as in `r` (R190). -/
def vQueued (s : State) (r : Regs) (o : VOp) (rs : List RegId) : Ctx :=
  { s.nc with regs := withToken s s.m.nextId r, vq := s.nc.vq ++ [o], busy := s.nc.busy ++ rs }

/-- `exec` answers the state in which the operation `o` waits in the V queue; nothing else but the draws in `r` has changed. -/
def vIssues (i : Instr) (s : State) (r : Regs) (o : VOp) (rs : List RegId) : Prop :=
  ∃ t : State, exec i s = .next t ∧ After s t (vQueued s r o rs) (newOp s)

/-- The word passes checks 3 and 4 of R99: its literals, the resources it names, and what it reads. -/
def accepts (s : State) (i : Instr) : Prop :=
  litsOk s.lit s.iss.hdr.lits.toNat i = true ∧ heldBy s.place s.lit i = true ∧ s.valuesOk i = true

/-- Lane `i` is active (R189). -/
def laneOn (s : State) (m : BitVec 3) (e : BitVec 1) (i : Nat) : Prop := i < s.vl ∧ (e = 0 ∨ (s.rm m).getLsbD i = true)

/-- The integer, logic and copy forms (R194, R197): destination, sources, mask fields, and the result of a lane by integer arithmetic. -/
def laneForm : Instr → Option (BitVec 5 × BitVec 5 × BitVec 5 × BitVec 3 × BitVec 1 × (W32 → W32 → W32))
  | .vaddS32 d a b m e => some (d, a, b, m, e, fun x y => BitVec.ofInt 32 (x.toInt + y.toInt))
  | .vsubS32 d a b m e => some (d, a, b, m, e, fun x y => BitVec.ofInt 32 (x.toInt - y.toInt))
  | .vmulS32 d a b m e => some (d, a, b, m, e, fun x y => BitVec.ofInt 32 (x.toInt * y.toInt))
  | .vmulhS32 d a b m e => some (d, a, b, m, e, fun x y => BitVec.ofInt 32 (x.toInt * y.toInt / 2 ^ 32))
  | .vminS32 d a b m e => some (d, a, b, m, e, fun x y => BitVec.ofInt 32 (min x.toInt y.toInt))
  | .vmaxS32 d a b m e => some (d, a, b, m, e, fun x y => BitVec.ofInt 32 (max x.toInt y.toInt))
  | .vminZ32 d a b m e => some (d, a, b, m, e, fun x y => BitVec.ofNat 32 (min x.toNat y.toNat))
  | .vmaxZ32 d a b m e => some (d, a, b, m, e, fun x y => BitVec.ofNat 32 (max x.toNat y.toNat))
  | .vandZ32 d a b m e => some (d, a, b, m, e, fun x y => x &&& y)
  | .vorZ32 d a b m e => some (d, a, b, m, e, fun x y => x ||| y)
  | .vxorZ32 d a b m e => some (d, a, b, m, e, fun x y => x ^^^ y)
  | .vshlZ32 d a b m e => some (d, a, b, m, e, fun x y => BitVec.ofNat 32 (x.toNat * 2 ^ (y.toNat % 32)))
  | .vshrZ32 d a b m e => some (d, a, b, m, e, fun x y => BitVec.ofNat 32 (x.toNat / 2 ^ (y.toNat % 32)))
  | .vasrS32 d a b m e => some (d, a, b, m, e, fun x y => BitVec.ofInt 32 (x.toInt / 2 ^ (y.toNat % 32)))
  | .vnotZ32 d a m e => some (d, a, a, m, e, fun x _ => BitVec.ofNat 32 (2 ^ 32 - 1 - x.toNat))
  | .vmov d a m e => some (d, a, a, m, e, fun x _ => x)
  | _ => none

/-- The value of a number that is no NaN, on the extended real line. -/
noncomputable def valueOf : Machine.Num → EReal
  | .nan => 0
  | .inf neg => if neg then ⊥ else ⊤
  | .fin neg m e => (((if neg then -1 else 1) * (m : ℝ) * (2 : ℝ) ^ e : ℝ) : EReal)

/-- The compares (R124, R195): mask destination, sources, mask fields, and the relation. -/
def compareForm : Instr → Option (BitVec 3 × BitVec 5 × BitVec 5 × BitVec 3 × BitVec 1 × (W32 → W32 → Prop))
  | .vcmpLtF32 c a b m e => some (c, a, b, m, e, fun x y =>
      fmtF32.decode x.toNat ≠ .nan ∧ fmtF32.decode y.toNat ≠ .nan ∧ valueOf (fmtF32.decode x.toNat) < valueOf (fmtF32.decode y.toNat))
  | .vcmpLeF32 c a b m e => some (c, a, b, m, e, fun x y =>
      fmtF32.decode x.toNat ≠ .nan ∧ fmtF32.decode y.toNat ≠ .nan ∧ valueOf (fmtF32.decode x.toNat) ≤ valueOf (fmtF32.decode y.toNat))
  | .vcmpEqF32 c a b m e => some (c, a, b, m, e, fun x y =>
      fmtF32.decode x.toNat ≠ .nan ∧ fmtF32.decode y.toNat ≠ .nan ∧ valueOf (fmtF32.decode x.toNat) = valueOf (fmtF32.decode y.toNat))
  | .vcmpLtS32 c a b m e => some (c, a, b, m, e, fun x y => x.toInt < y.toInt)
  | .vcmpEqS32 c a b m e => some (c, a, b, m, e, fun x y => x = y)
  | .vcmpLtZ32 c a b m e => some (c, a, b, m, e, fun x y => x.toNat < y.toNat)
  | _ => none

/-- The floating-point forms that round (R193): format, element width, operation, destination, sources, mask fields. -/
def floatForm : Instr → Option (Fmt × Nat × FOp × BitVec 5 × BitVec 5 × BitVec 5 × BitVec 3 × BitVec 1)
  | .vaddF32 d a b m e => some (fmtF32, 32, .add, d, a, b, m, e)
  | .vsubF32 d a b m e => some (fmtF32, 32, .sub, d, a, b, m, e)
  | .vmulF32 d a b m e => some (fmtF32, 32, .mul, d, a, b, m, e)
  | .vfmaF32 d a b m e => some (fmtF32, 32, .fma, d, a, b, m, e)
  | .vminF32 d a b m e => some (fmtF32, 32, .min, d, a, b, m, e)
  | .vmaxF32 d a b m e => some (fmtF32, 32, .max, d, a, b, m, e)
  | .vaddBf16 d a b m e => some (fmtBf16, 16, .add, d, a, b, m, e)
  | .vsubBf16 d a b m e => some (fmtBf16, 16, .sub, d, a, b, m, e)
  | .vmulBf16 d a b m e => some (fmtBf16, 16, .mul, d, a, b, m, e)
  | .vfmaBf16 d a b m e => some (fmtBf16, 16, .fma, d, a, b, m, e)
  | .vminBf16 d a b m e => some (fmtBf16, 16, .min, d, a, b, m, e)
  | .vmaxBf16 d a b m e => some (fmtBf16, 16, .max, d, a, b, m, e)
  | .vaddF16 d a b m e => some (fmtF16, 16, .add, d, a, b, m, e)
  | .vsubF16 d a b m e => some (fmtF16, 16, .sub, d, a, b, m, e)
  | .vmulF16 d a b m e => some (fmtF16, 16, .mul, d, a, b, m, e)
  | .vfmaF16 d a b m e => some (fmtF16, 16, .fma, d, a, b, m, e)
  | .vminF16 d a b m e => some (fmtF16, 16, .min, d, a, b, m, e)
  | .vmaxF16 d a b m e => some (fmtF16, 16, .max, d, a, b, m, e)
  | .vdivF32 d a b m e => some (fmtF32, 32, .div, d, a, b, m, e)
  | .vsqrtF32 d a m e => some (fmtF32, 32, .sqrt, d, a, a, m, e)
  | _ => none

open Classical in
/-- How many numbers below `n` satisfy `p`. -/
noncomputable def countBelow (n : Nat) (p : Nat → Prop) : Nat := ((List.range n).filter (fun i => decide (p i))).length

/-- The result of an operation on the elements of `n` bits of three registers at place `j`, under the draw `w` (R124). -/
def elemResult (s : State) (f : Fmt) (n : Nat) (op : FOp) (a b d : BitVec 5) (w : W32) (j : Nat) : Nat × XF :=
  fop f op (roundOf s.vrmMode w) (el n (s.rv a) j).toNat (el n (s.rv b) j).toNat (el n (s.rv d) j).toNat

/-- The registers after the draws of a rounding form: `n` from VRM's generator under RM 4, none otherwise (R106, R107). -/
def afterDraws (s : State) (n : Nat) : Regs := if s.vrmMode = 4 then drawn s s.vrmGen n else s.nc.regs

/-- Draw `j` of a rounding form. -/
def roundDraw (s : State) (j : Nat) : W32 := if s.vrmMode = 4 then drawAt s s.vrmGen j else 0

/-- The flags that a set of results raises. -/
def flagsOf (fl : XF) (on : Nat → Prop) (x : Nat → XF) : Prop := ∀ k, fl.getLsbD k = true ↔ ∃ j, on j ∧ (x j).getLsbD k = true

end Sys2Proof.Claims

/-- R189, R190, R194, R197: an integer, logic or copy form queues a V operation that writes to each active lane what integer arithmetic
gives, modulo 2^32, keeps the other lanes and raises no flag. -/
def Sys2Proof.Claims.VectorIntegerLanes : Prop :=
  ∀ (s : State) (i : Instr) (d a b : BitVec 5) (m : BitVec 3) (e : BitVec 1) (f : W32 → W32 → W32),
    laneForm i = some (d, a, b, m, e, f) →
    ∃ v : VReg, vIssues i s s.nc.regs (vOpOf s [(d.toNat, v)] [] [] 0) [.v d.toNat] ∧
      ∀ j < 1024, (laneOn s m e j → el 32 v j = f (el 32 (s.rv a) j) (el 32 (s.rv b) j)) ∧
        (¬ laneOn s m e j → el 32 v j = el 32 (s.rv d) j)

/-- R124, R189, R195, R196: a compare queues a V operation that writes to each active bit of its mask whether the relation holds of the
values (for `.f32`: no NaN, and real values in that order) and keeps the other bits; a mask form writes its combination of all 1,024
bits. Neither raises a flag. -/
def Sys2Proof.Claims.VectorComparesAndMaskLogic : Prop :=
  ∀ (s : State),
    (∀ (i : Instr) (c : BitVec 3) (a b : BitVec 5) (m : BitVec 3) (e : BitVec 1) (r : W32 → W32 → Prop),
      compareForm i = some (c, a, b, m, e, r) →
      ∃ v : BitVec 1024, vIssues i s s.nc.regs (vOpOf s [] [(c.toNat, v)] [] 0) [.m c.toNat] ∧
        ∀ j < 1024, (laneOn s m e j → (v.getLsbD j = true ↔ r (el 32 (s.rv a) j) (el 32 (s.rv b) j))) ∧
          (¬ laneOn s m e j → v.getLsbD j = (s.rm c).getLsbD j)) ∧
    (∀ (c a b : BitVec 3), ∃ x y z n : BitVec 1024,
      vIssues (.vmand c a b) s s.nc.regs (vOpOf s [] [(c.toNat, x)] [] 0) [.m c.toNat] ∧
      vIssues (.vmor c a b) s s.nc.regs (vOpOf s [] [(c.toNat, y)] [] 0) [.m c.toNat] ∧
      vIssues (.vmxor c a b) s s.nc.regs (vOpOf s [] [(c.toNat, z)] [] 0) [.m c.toNat] ∧
      vIssues (.vmnot c a) s s.nc.regs (vOpOf s [] [(c.toNat, n)] [] 0) [.m c.toNat] ∧
      ∀ j < 1024, x.getLsbD j = ((s.rm a).getLsbD j && (s.rm b).getLsbD j) ∧
        y.getLsbD j = ((s.rm a).getLsbD j || (s.rm b).getLsbD j) ∧
        z.getLsbD j = ((s.rm a).getLsbD j != (s.rm b).getLsbD j) ∧ n.getLsbD j = !(s.rm a).getLsbD j)

/-- R189, R190, R194, R197, R124, R195, R196. Its parts: `VectorIntegerLanes`; `VectorComparesAndMaskLogic`. -/
def Obligations.VectorIntegersComparesAndMasks : Prop := Claims.VectorIntegerLanes ∧ Claims.VectorComparesAndMaskLogic

/-- R107, R124, R189, R190, R193: a floating-point form queues a V operation that writes to each active element the rounded result, keeps
the other elements, and raises the flags of the active ones; under stochastic rounding each active element takes one draw of VRM's
generator, in ascending order. `vabs` and `vneg` change the sign bit of what is no NaN, and take no draw. -/
def Obligations.VectorFloatElements : Prop :=
  ∀ (s : State),
    (∀ (i : Instr) (f : Fmt) (n : Nat) (op : FOp) (d a b : BitVec 5) (m : BitVec 3) (e : BitVec 1),
      floatForm i = some (f, n, op, d, a, b, m, e) →
      (let on := fun (j : Nat) => laneOn s m e (j / (32 / n))
       let total := countBelow (s.vl * (32 / n)) on
       let res := fun (j : Nat) => elemResult s f n op a b d (roundDraw s (countBelow j on)) j
       ∃ (v : VReg) (fl : XF), vIssues i s (afterDraws s total) (vOpOf s [(d.toNat, v)] [] [] fl) [.v d.toNat] ∧
         (∀ j < 32768 / n, (on j → el n v j = BitVec.ofNat n (res j).1) ∧ (¬ on j → el n v j = el n (s.rv d) j)) ∧
         flagsOf fl on (fun j => (res j).2))) ∧
    (∀ (d a : BitVec 5) (m : BitVec 3) (e : BitVec 1), ∃ v w : VReg,
      vIssues (.vabsF32 d a m e) s s.nc.regs (vOpOf s [(d.toNat, v)] [] [] 0) [.v d.toNat] ∧
      vIssues (.vnegF32 d a m e) s s.nc.regs (vOpOf s [(d.toNat, w)] [] [] 0) [.v d.toNat] ∧
      ∀ j < 1024, (let x := el 32 (s.rv a) j
        (laneOn s m e j → fmtF32.decode x.toNat = .nan → el 32 v j = 0x7FC00000 ∧ el 32 w j = 0x7FC00000) ∧
        (laneOn s m e j → fmtF32.decode x.toNat ≠ .nan →
          el 32 v j = BitVec.ofNat 32 (x.toNat % 2 ^ 31) ∧ el 32 w j = BitVec.ofNat 32 (x.toNat + 2 ^ 31)) ∧
        (¬ laneOn s m e j → el 32 v j = el 32 (s.rv d) j ∧ el 32 w j = el 32 (s.rv d) j)))

/-- R160, R189, R190, R197, R198: the element moves and the tile reorders queue a V operation that copies 32-bit elements unchanged and
raises no flag. -/
def Sys2Proof.Claims.VectorMovesAndReorders : Prop :=
  ∀ (s : State) (d a b : BitVec 5) (m : BitVec 3) (e : BitVec 1) (g h : BitVec 6),
    (let once := fun (i : Instr) (v : VReg) => vIssues i s s.nc.regs (vOpOf s [(d.toNat, v)] [] [] 0) [.v d.toNat]
     let idx := (s.rg h).toNat % 1024
     (∃ v : VReg, once (.vsel d a b m) v ∧ ∀ j < 1024, el 32 v j =
       if j < s.vl then (if (s.rm m).getLsbD j then el 32 (s.rv a) j else el 32 (s.rv b) j) else el 32 (s.rv d) j) ∧
     (∃ v : VReg, once (.vperm d a b m e) v ∧ ∀ j < 1024,
       (laneOn s m e j → el 32 v j = el 32 (s.rv a) ((el 32 (s.rv b) j).toNat % 1024)) ∧
       (¬ laneOn s m e j → el 32 v j = el 32 (s.rv d) j)) ∧
     (∃ v : VReg, once (.vbcast d g) v ∧ ∀ j < 1024, el 32 v j =
       if j < s.vl then BitVec.ofNat 32 (s.rg g).toNat else el 32 (s.rv d) j) ∧
     (∃ v : VReg, once (.vins d g h) v ∧ ∀ j < 1024, el 32 v j =
       if j = idx then BitVec.ofNat 32 (s.rg g).toNat else el 32 (s.rv d) j) ∧
     vIssues (.vext g a h) s s.nc.regs (vOpOf s [] [] [(g.toNat, BitVec.ofNat 64 (el 32 (s.rv a) idx).toNat)] 0)
       (if g = 0 then [] else [.g g.toNat]) ∧
     (∃ v w u : VReg, once (.vtr32 d a) v ∧ once (.vzord d a) w ∧ once (.vrowm d a) u ∧ ∀ r c, r < 32 → c < 32 →
       el 32 v (tilePos r c) = el 32 (s.rv a) (tilePos c r) ∧ el 32 w (tilePos r c) = el 32 (s.rv a) (32 * r + c) ∧
       el 32 u (32 * r + c) = el 32 (s.rv a) (tilePos r c)))

namespace Sys2Proof.Claims

/-- A lane of the first 2^`l` × (`k` + 1) lanes that a node of the reduction tree covers is active (R125). -/
def present (on : Nat → Prop) (l k : Nat) : Prop := ∃ i, 2 ^ l * k ≤ i ∧ i < 2 ^ l * (k + 1) ∧ on i

/-- Node `k` of level `l` combines two present values. -/
def combines (on : Nat → Prop) (l k : Nat) : Prop := 0 < l ∧ present on (l - 1) (2 * k) ∧ present on (l - 1) (2 * k + 1)

/-- The number of COMBINEs before node `k` of level `l`, level by level and ascending within a level (R125). -/
noncomputable def combinesBefore (on : Nat → Prop) : Nat → Nat → Nat
  | 0, _ => 0
  | l + 1, k => combinesBefore on l (2 ^ (10 - l)) + countBelow k (combines on (l + 1))

open Classical in
/-- The value of node `k` of level `l`, and the flags of its own COMBINE (R125): `x` the lanes, `f` the operation under a draw, `w` the
draws. -/
noncomputable def nodeOf (on : Nat → Prop) (x : Nat → W32) (f : W32 → W32 → W32 → W32 × XF) (w : Nat → W32) :
    Nat → Nat → W32 × XF
  | 0, k => (x k, 0)
  | l + 1, k =>
    let p := nodeOf on x f w l (2 * k)
    let q := nodeOf on x f w l (2 * k + 1)
    if present on l (2 * k) then
      if present on l (2 * k + 1) then f (w (combinesBefore on (l + 1) k)) p.1 q.1 else (p.1, 0)
    else (q.1, 0)

/-- The reductions (R125, R199): operation, EMPTY value, and whether a NaN makes the result the canonical NaN. -/
def reduceForm (s : State) : Instr → Option (BitVec 5 × BitVec 5 × BitVec 3 × BitVec 1 × (W32 → W32 → W32 → W32 × XF) × W32 × Bool)
  | .vrsumF32 d a m e => some (d, a, m, e, fun w p q => redF .add (roundOf s.vrmMode w) p q, 0, true)
  | .vrmaxF32 d a m e => some (d, a, m, e, fun w p q => redF .max (roundOf s.vrmMode w) p q, 0xFF800000, true)
  | .vrminF32 d a m e => some (d, a, m, e, fun w p q => redF .min (roundOf s.vrmMode w) p q, 0x7F800000, true)
  | .vrsumS32 d a m e => some (d, a, m, e, fun _ p q => (BitVec.ofNat 32 (p.toNat + q.toNat), 0), 0, false)
  | _ => none

end Sys2Proof.Claims

/-- R107, R125, R189, R190, R199: a reduction queues a V operation that writes the root of the fixed tree over its active lanes to
element 0 and zero to the others; an absent node lets its partner through, no active lane gives the EMPTY value, each COMBINE of two
present values takes a draw under stochastic rounding, level by level, and an `.f32` result that is a NaN is the canonical one (R101), a
lone lane's too; one over a lane with a NaN is that. -/
def Obligations.VectorReductionsFollowTheTree : Prop :=
  ∀ (s : State) (i : Instr) (d a : BitVec 5) (m : BitVec 3) (e : BitVec 1) (f : W32 → W32 → W32 → W32 × XF) (z : W32) (nan : Bool),
    reduceForm s i = some (d, a, m, e, f, z, nan) → s.vl ≤ 1024 →
    (let on := laneOn s m e
     let node := nodeOf on (fun j => el 32 (s.rv a) j) f (roundDraw s)
     let root := (node 10 0).1
     ∃ (v : VReg) (fl : XF), vIssues i s (afterDraws s (countBelow s.vl on - 1)) (vOpOf s [(d.toNat, v)] [] [] fl) [.v d.toNat] ∧
       (∀ j < 1024, 0 < j → el 32 v j = 0) ∧
       (¬ present on 10 0 → el 32 v 0 = z) ∧
       (present on 10 0 → el 32 v 0 = if nan = true ∧ fmtF32.decode root.toNat = .nan then 0x7FC00000 else root) ∧
       (nan = true → (∃ j, on j ∧ fmtF32.decode (el 32 (s.rv a) j).toNat = .nan) → el 32 v 0 = 0x7FC00000) ∧
       ∀ k, fl.getLsbD k = true ↔ ∃ l j, l < 10 ∧ j < 2 ^ (9 - l) ∧ combines on (l + 1) j ∧ (node (l + 1) j).2.getLsbD k = true)

/-- R107, R192, R200, R201: `vrand` queues a V operation that writes consecutive draws of its generator to the lanes below `vl`;
`vsetvl` writes the smaller of its register and 1,024 to `vl` at once; `vacc` adds the exact tile values to its register, each sum
rounded once; a word that names a tile which its context does not hold is refused by check 4. -/
def Sys2Proof.Claims.VectorDrawsLengthAndAccumulate : Prop :=
  ∀ (s : State),
    (∀ (d : BitVec 5) (n : BitVec 2), ∃ v : VReg,
      vIssues (.vrandZ32 d n) s (drawn s n.toNat s.vl) (vOpOf s [(d.toNat, v)] [] [] 0) [.v d.toNat] ∧
      ∀ j < 1024, el 32 v j = if j < s.vl then drawAt s n.toNat j else el 32 (s.rv d) j) ∧
    (∀ a : BitVec 6, exec (.vsetvl a) s = .next { s with m := s.m.setCtx s.cx { s.nc with regs :=
      { s.nc.regs with vl := BitVec.ofNat 11 (min (s.rg a).toNat 1024) } } }) ∧
    (∀ (d : BitVec 5) (t : BitVec 3) (r : BitVec 5), accepts s (.vaccF32 d t r) →
      (let tile := (s.old.core (coreOf s.cx)).tile t.toNat
       let res := fun (j : Nat) => addNum fmtF32 (roundOf s.vrmMode (roundDraw s j)) (fmtF32.decode (el 32 (s.rv d) j).toNat)
         (tile.col (r.toNat + j / 256) (j % 256))
       ∃ (v : VReg) (fl : XF),
         vIssues (.vaccF32 d t r) s (afterDraws s s.vl) { vOpOf s [(d.toNat, v)] [] [] fl with tile := some t.toNat } [.v d.toNat] ∧
         (∀ j < 1024, el 32 v j = if j < s.vl then BitVec.ofNat 32 (res j).1 else el 32 (s.rv d) j) ∧
         flagsOf fl (fun j => j < s.vl) (fun j => (res j).2))) ∧
    (∀ (d : BitVec 5) (t : BitVec 3) (r : BitVec 5), s.place.tiles.getLsbD t.toNat = false →
      exec (.vaccF32 d t r) s = .next (refusedAt s 4))

/-- R160, R189, R190, R197, R198, R107, R192, R200, R201. Its parts: `VectorMovesAndReorders`; `VectorDrawsLengthAndAccumulate`. -/
def Obligations.VectorMovesDrawsLengthAndAccumulate : Prop := Claims.VectorMovesAndReorders ∧ Claims.VectorDrawsLengthAndAccumulate

namespace Sys2Proof.Claims

/-! ### The QM, QC and SC slots -/

/-- `sc` is the scale of the 16 numbers `x` for a target whose largest power of two is 2^`emax` (R112): 0xFF for a block that holds a
NaN or an infinity, 0 for a block of zeros, else the power of two of the largest magnitude less `emax`, biased and clamped. -/
def isScale (emax : Int) (x : Nat → Machine.Num) (sc : Byte) : Prop :=
  ((∃ j < 16, (x j).isFin = false) ∧ sc = 0xFF) ∨
  ((∀ j < 16, (x j).isFin = true ∧ realOf (x j) = 0) ∧ sc = 0) ∨
  ((∀ j < 16, (x j).isFin = true) ∧ ∃ j < 16, realOf (x j) ≠ 0 ∧ (∀ i < 16, |realOf (x i)| ≤ |realOf (x j)|) ∧
    (sc.toNat : Int) = min (max (Int.log 2 |realOf (x j)| - emax + 127) 0) 254)

/-- EMAX of the formats of the QM and QC slots (R112), by their number of R79: `.s8` otherwise. -/
def scaleEmax (n : Nat) : Int := if n = 6 then 8 else if n = 7 then 15 else if n = 8 then 2 else 6

/-- The `qmax` forms: source format, bits, source register, target. -/
def qmaxForm : Instr → Option (Fmt × Nat × BitVec 5 × BitVec 4)
  | .qmaxF32 v c => some (fmtF32, 32, v, c)
  | .qmaxBf16 v c => some (fmtBf16, 16, v, c)
  | .qmaxF16 v c => some (fmtF16, 16, v, c)
  | _ => none

/-- The replay entries of the 64 scales of a `qmax`: the bypass shows them from the second issue after this one (R66, R206, R323). -/
def bypassEntries (b : BitVec 512) : List Replay :=
  (List.range 4).map (fun i => { kind := 3, reg := 0, byte := BitVec.ofNat 16 (16 * i), k := 2, data := b.extractLsb' (128 * i) 128, src := none })

/-- A QC operation as this issue makes it (R205). -/
def qOpOf (s : State) (vW : List (Nat × VReg)) (fl : XF) : VOp := vOpOf s vW [] [] fl

/-- `exec` answers the state in which the operation `o` waits in the QC queue, the registers otherwise as in `r`. -/
def qIssues (i : Instr) (s : State) (r : Regs) (o : VOp) (rs : List RegId) : Prop :=
  ∃ t : State, exec i s = .next t ∧
    After s t { s.nc with regs := withToken s s.m.nextId r, qq := s.nc.qq ++ [o], busy := s.nc.busy ++ rs } (newOp s)

/-- The physical staging register of a name (R204): RB plus the name, modulo 8. -/
def physical (s : State) (q : BitVec 3) : Nat := (s.regs.rb.toNat + q.toNat) % 8

/-- The registers after the draws of a form with an RM and a GEN field (R81, R107). -/
def fieldDraws (s : State) (r : BitVec 3) (g : BitVec 2) (n : Nat) : Regs := if r = 4 then drawn s g.toNat n else s.nc.regs

/-- Draw `j` of such a form as its rounding mode. -/
def fieldRound (s : State) (r : BitVec 3) (g : BitVec 2) (j : Nat) : Round :=
  roundOf r.toNat (if r = 4 then drawAt s g.toNat j else 0)

/-- The formats of the quantising forms: operands and format. -/
def quantForm : Instr → Option (QFmt × BitVec 3 × BitVec 5 × BitVec 3 × BitVec 2 × BitVec 1 × BitVec 4 × BitVec 1)
  | .qcvtE4m3 q v r n b c h => some (.e4m3, q, v, r, n, b, c, h)
  | .qcvtE5m2 q v r n b c h => some (.e5m2, q, v, r, n, b, c, h)
  | .qcvtE2m1 q v r n b c h => some (.e2m1, q, v, r, n, b, c, h)
  | .qcvtS8 q v r n b c h => some (.s8, q, v, r, n, b, c, h)
  | .qcvtBp8 q v r n b c h => some (.bp8, q, v, r, n, b, c, h)
  | _ => none

/-- The dequantising forms. -/
def dequantForm : Instr → Option (QFmt × BitVec 3 × BitVec 5 × BitVec 3 × BitVec 2 × BitVec 1 × BitVec 4 × BitVec 1)
  | .qdqE4m3 q v r n b c h => some (.e4m3, q, v, r, n, b, c, h)
  | .qdqE5m2 q v r n b c h => some (.e5m2, q, v, r, n, b, c, h)
  | .qdqE2m1 q v r n b c h => some (.e2m1, q, v, r, n, b, c, h)
  | .qdqS8 q v r n b c h => some (.s8, q, v, r, n, b, c, h)
  | .qdqBp8 q v r n b c h => some (.bp8, q, v, r, n, b, c, h)
  | _ => none

/-- The code of element `i` that a staging register holds in a format (R104, R204): a byte, a nibble, or its eight planes. -/
def codeAt (f : QFmt) (q : BitVec 8704) (i : Nat) : Nat :=
  match f with
  | .e2m1 => (el 4 q i).toNat
  | .bp8 => ((List.range 8).map (fun j => if q.getLsbD (2048 * (i / 256) + 256 * (7 - j) + i % 256) then 2 ^ j else 0)).sum
  | _ => (el 8 q i).toNat

/-- The scale that a `qcvt` or `qdq` takes from the scale registers for block `b` (R208, R209). -/
def scaleFrom (s : State) (c : BitVec 4) (h : BitVec 1) (b : Nat) : Byte := el 8 (rget c.toNat s.regs.sc) (64 * h.toNat + b)

/-- Number `i` of the source of a quantising form. -/
def sourceNum (s : State) (v : BitVec 5) (i : Nat) : Machine.Num := fmtF32.decode (el 32 (s.rv v) i).toNat

/-- The scale that block `b` gets in a quantising form (R112, R208): 0xFF where the given scale or an element says NaN, 0 for zeros. -/
def blockGets (given : Byte) (x : Nat → Machine.Num) (sc : Byte) : Prop :=
  (((given = 0xFF ∨ ∃ j < 16, (x j).isFin = false) ∧ sc = 0xFF)) ∨
  (given ≠ 0xFF ∧ (∀ j < 16, (x j).isFin = true) ∧ (∀ j < 16, realOf (x j) = 0) ∧ sc = 0) ∨
  (given ≠ 0xFF ∧ (∀ j < 16, (x j).isFin = true) ∧ (∃ j < 16, realOf (x j) ≠ 0) ∧ sc = given)

/-- `c` is the code of the number ± m × 2^e under the scale `sc` in a target, with its flags (R108, R112): the target's rounding with
saturation; for `.s8` and `.bp8` the integer that rounding gives, held to -128 and 127. -/
def isCode (f : QFmt) (r : Round) (neg : Bool) (m : Nat) (e : Int) (sc : Byte) (c : Nat × XF) : Prop :=
  match f.target with
  | some t => floatOf t true r (.fin neg m (e + 127 - sc.toNat)) c
  | none => ∃ i : Int, integerPicked r (valueR neg m (e + 127 - sc.toNat)) i ∧
      (i < -128 → c = (0x80, 0b00101)) ∧ (127 < i → c = (0x7F, 0b00101)) ∧
      (-128 ≤ i → i ≤ 127 → c.1 = (i % 256).toNat ∧
        ((c.2 = 0 ∧ (i : ℝ) = valueR neg m (e + 127 - sc.toNat)) ∨ (c.2 = 0b00001 ∧ (i : ℝ) ≠ valueR neg m (e + 127 - sc.toNat))))

/-- The number that a code of a staging register stands for without its scale (R100, R113, R204): of `.s8` and `.bp8` the integer. -/
def codeNum (f : QFmt) (c : Nat) : Machine.Num :=
  match f with
  | .e4m3 => fmtE4m3.decode c
  | .e5m2 => fmtE5m2.decode c
  | .e2m1 => fmtE2m1.decode c
  | .s8 | .bp8 => if c < 128 then .fin false c 0 else .fin true (256 - c) 0

/-- `y` is an element under the scale `sc` in `.f32`, with its flags (R103, R113, R209): the canonical NaN under the scale 0xFF and for a NaN,
else the element's value times 2^(`sc` − 127), rounded. -/
def dequantised (r : Round) (sc : Byte) (n : Machine.Num) (y : W32 × XF) : Prop :=
  (sc = 0xFF ∨ n = .nan → y = (0x7FC00000, 0)) ∧
  (∀ neg, sc ≠ 0xFF → n = .inf neg → y = (if neg then 0xFF800000 else 0x7F800000, 0)) ∧
  (∀ neg m e, sc ≠ 0xFF → n = .fin neg m e →
    (realOf n = 0 → y = (if neg then 0x80000000 else 0, 0)) ∧
    (realOf n ≠ 0 → roundsTo fmtF32 false r (realOf n * (2 : ℝ) ^ ((sc.toNat : Int) - 127)) (y.1.toNat, y.2)))

/-- The element conversions (R108, R111, R211): bits of source and destination, operands, and which element and flags the source gives
under a rounding mode. -/
def elementForm : Instr → Option (Nat × (n : Nat) × BitVec 5 × BitVec 5 × BitVec 3 × BitVec 2 × (Round → Nat → BitVec n × XF → Prop))
  | .cvtBf16F32 d v r g => some (32, ⟨16, d, v, r, g, fun m x y => floatOf fmtBf16 false m (fmtF32.decode x) (y.1.toNat, y.2)⟩)
  | .cvtF16F32 d v r g => some (32, ⟨16, d, v, r, g, fun m x y => floatOf fmtF16 false m (fmtF32.decode x) (y.1.toNat, y.2)⟩)
  | .cvtF32Bf16 d v => some (16, ⟨32, d, v, 0, 0, fun m x y => floatOf fmtF32 false m (fmtBf16.decode x) (y.1.toNat, y.2)⟩)
  | .cvtF32F16 d v => some (16, ⟨32, d, v, 0, 0, fun m x y => floatOf fmtF32 false m (fmtF16.decode x) (y.1.toNat, y.2)⟩)
  | .cvtF32S32 d v r g => some (32, ⟨32, d, v, r, g, fun m x y =>
      floatOf fmtF32 false m (if x < 2 ^ 31 then .fin false x 0 else .fin true (2 ^ 32 - x) 0) (y.1.toNat, y.2)⟩)
  | .cvtS32F32 d v r g => some (32, ⟨32, d, v, r, g, fun m x y =>
      integerOf m (-(2 ^ 31)) (2 ^ 31 - 1) (fmtF32.decode x) (y.1.toInt, y.2)⟩)
  | _ => none

/-- The direct write of half `h` of scale register `c` prevails over exposed writes of the same bytes that the next issue would see
(R213). -/
def prevail (c : BitVec 4) (h : BitVec 1) (b : BitVec 512) (e : Replay) : Replay :=
  if e.kind = 1 ∧ e.k = 1 ∧ e.reg.toNat = c.toNat ∧ e.byte.toNat / 64 = h.toNat ∧ e.byte.toNat % 16 = 0
  then { e with data := b.extractLsb' (8 * (e.byte.toNat % 64)) 128, src := none } else e

/-- The replay entries of a scale load that the operation `id` feeds: they show from the third issue after this one (R66, R212). -/
def scaleEntries (c : BitVec 4) (id : Nat) : List Replay :=
  (List.range 8).map (fun j =>
    { kind := 1, reg := BitVec.ofNat 8 c.toNat, byte := BitVec.ofNat 16 (16 * j), k := 3, data := 0, src := some id })

end Sys2Proof.Claims

/-- R66, R112, R206, R207, R213: `qmax` gives the scale bypass the scales of its 64 blocks, seen from the second issue after it;
`qmvsc` writes the bypass to half a scale register at once, over an exposed write of the same bytes due with it. -/
def Obligations.BlockScalesAreFormedAndKept : Prop :=
  ∀ (s : State),
    (∀ (i : Instr) (f : Fmt) (n : Nat) (v : BitVec 5) (c : BitVec 4), qmaxForm i = some (f, n, v, c) →
      ∃ b : BitVec 512, exec i s = .next { s with m := s.m.setCtx s.cx { s.nc with replay := s.nc.replay ++ bypassEntries b } } ∧
        ∀ k < 64, isScale (scaleEmax c.toNat) (fun j => f.decode (el n (s.rv v) (16 * k + j)).toNat) (el 8 b k)) ∧
    (∀ (c : BitVec 4) (h : BitVec 1), ∃ x : BitVec 1024,
      exec (.qmvsc c h) s = .next { s with m := s.m.setCtx s.cx { s.nc with
        regs := { s.nc.regs with sc := rput c.toNat x s.nc.regs.sc },
        replay := s.nc.replay.map (prevail c h s.regs.byp) } } ∧
      ∀ k < 1024, x.getLsbD k = if k / 512 = h.toNat then s.regs.byp.getLsbD (k % 512) else (rget c.toNat s.nc.regs.sc).getLsbD k)

/-- R104, R107, R108, R112, R204, R208: a `qcvt` writes to its staging register, at its issue, the codes of its 1,024 elements and the
scales of its 64 blocks, with its flags on their way; under stochastic rounding each element takes a draw. -/
def Sys2Proof.Claims.QuantisedBlocksFillTheStagingRegister : Prop :=
  ∀ (s : State) (i : Instr) (f : QFmt) (q : BitVec 3) (v : BitVec 5) (r : BitVec 3) (n : BitVec 2) (b : BitVec 1) (c : BitVec 4)
    (h : BitVec 1), quantForm i = some (f, q, v, r, n, b, c, h) →
    (let given := fun (k : Nat) => if b = 1 then scaleFrom s c h k else el 8 s.regs.byp k
     ∃ (w : BitVec 8704) (fl : XF) (raised : Nat → XF),
       qIssues i s { fieldDraws s r n 1024 with q := rput (physical s q) w s.nc.regs.q } (qOpOf s [] fl) [] ∧
       (∀ k < 64, blockGets (given k) (fun j => sourceNum s v (16 * k + j)) (el 8 w (1024 + k))) ∧
       (∀ k < 1024, el 8 w (1024 + k / 16) = 0xFF ∨ realOf (sourceNum s v k) = 0 ∧ (∀ j < 16, realOf (sourceNum s v (16 * (k / 16) + j)) = 0) →
         codeAt f w k = 0) ∧
       (∀ k < 1024, ∀ neg m e, el 8 w (1024 + k / 16) ≠ 0xFF → sourceNum s v k = .fin neg m e →
         (∃ j < 16, realOf (sourceNum s v (16 * (k / 16) + j)) ≠ 0) →
         isCode f (fieldRound s r n k) neg m e (el 8 w (1024 + k / 16)) (codeAt f w k, raised k)) ∧
       (∀ z, fl.getLsbD z = true ↔ ∃ k < 1024, el 8 w (1024 + k / 16) ≠ 0xFF ∧
         (∃ j < 16, realOf (sourceNum s v (16 * (k / 16) + j)) ≠ 0) ∧ (raised k).getLsbD z = true))

/-- R103, R104, R107, R108, R111, R113, R205, R209 to R211: a `qdq` writes to each of the 1,024 lanes its element times its scale, rounded
to `.f32`; a conversion writes the first `vl` elements and keeps the others, an integer held to its range; `qin`, `qout` and `qrot` move a
staging register and the base. -/
def Sys2Proof.Claims.DequantisingAndConversions : Prop :=
  ∀ (s : State),
    (∀ (i : Instr) (f : QFmt) (q : BitVec 3) (v : BitVec 5) (r : BitVec 3) (n : BitVec 2) (b : BitVec 1) (c : BitVec 4) (h : BitVec 1),
      dequantForm i = some (f, q, v, r, n, b, c, h) →
      (let w := rget (physical s q) s.regs.q
       let sc := fun (k : Nat) => if b = 1 then scaleFrom s c h k else el 8 w (1024 + k)
       ∃ (x : VReg) (fl : XF) (raised : Nat → XF), qIssues i s (fieldDraws s r n 1024) (qOpOf s [(v.toNat, x)] fl) [.v v.toNat] ∧
         (∀ k < 1024, dequantised (fieldRound s r n k) (sc (k / 16)) (codeNum f (codeAt f w k)) (el 32 x k, raised k)) ∧
         flagsOf fl (fun k => k < 1024) raised)) ∧
    (∀ (i : Instr) (k n : Nat) (d v : BitVec 5) (r : BitVec 3) (g : BitVec 2) (op : Round → Nat → BitVec n × XF → Prop),
      elementForm i = some (k, ⟨n, d, v, r, g, op⟩) →
      ∃ (x : VReg) (fl : XF) (raised : Nat → XF), qIssues i s (fieldDraws s r g s.vl) (qOpOf s [(d.toNat, x)] fl) [.v d.toNat] ∧
        (∀ j < s.vl, ∃ y : BitVec n × XF, op (fieldRound s r g j) (el k (s.rv v) j).toNat y ∧ raised j = y.2 ∧ (j < 32768 / n → el n x j = y.1)) ∧
        (∀ j < 32768 / n, s.vl ≤ j → el n x j = el n (s.rv d) j) ∧
        flagsOf fl (fun j => j < s.vl) raised) ∧
    (∀ (q : BitVec 3) (v : BitVec 5),
      qIssues (.qin q v) s { s.nc.regs with q := rput (physical s q) ((s.rv v).extractLsb' 0 8704) s.nc.regs.q } (qOpOf s [] 0) [] ∧
      qIssues (.qout q v) s s.nc.regs (qOpOf s [(v.toNat, BitVec.ofNat 32768 (rget (physical s q) s.regs.q).toNat)] 0) [.v v.toNat] ∧
      qIssues .qrot s { s.nc.regs with rb := BitVec.ofNat 3 (s.nc.regs.rb.toNat + 1) } (qOpOf s [] 0) [])

/-- R104, R107, R108, R112, R204, R208, R103, R111, R113, R205, R209, R211. Its parts: `QuantisedBlocksFillTheStagingRegister`;
`DequantisingAndConversions`. -/
def Obligations.QuantisedBlocksAreFormedAndRead : Prop := Claims.QuantisedBlocksFillTheStagingRegister ∧ Claims.DequantisingAndConversions

/-- R66, R145, R168, R212: a scale load joins the local queue and exposes its 128 bytes for the third issue after it; a scale store
joins the queue with the bytes of its register; outside the window, or misaligned, they take the fault and the trap of any access. -/
def Sys2Proof.Claims.ScaleLoadsAndStoresAreQueued : Prop :=
  ∀ (s : State) (c : BitVec 4) (a : BitVec 6) (o : BitVec 10),
    (∀ (i : Instr) (n al : Nat), (i = .ldsc c a o ∧ n = 128 ∧ al = 64) ∨ (i = .ldscB c a o ∧ n = 1 ∧ al = 1) →
      (inside s .ll (s.wordAddr i) n al → ∃ t : State, exec i s = .next t ∧
        After s t { issuedCtx s [] with replay := s.nc.replay ++ scaleEntries c s.m.nextId }
          (localQueued s (.load [(place s .ll (s.wordAddr i), n)]) .scale)) ∧
      ((s.old.window s.cx .ll).2 < (s.wordAddr i).toNat + n → trapsAt s i 0x11 1 (s.wordAddr i)) ∧
      ((s.wordAddr i).toNat + n ≤ (s.old.window s.cx .ll).2 → (s.wordAddr i).toNat % al ≠ 0 → trapsAt s i 0x03 0 (s.wordAddr i))) ∧
    (inside s .ll (s.wordAddr (.stsc c a o)) 128 64 → ∃ t : State, exec (.stsc c a o) s = .next t ∧
      After s t (issuedCtx s []) (localQueued s (.store [(place s .ll (s.wordAddr (.stsc c a o)),
        vecBytes 128 (rget c.toNat s.regs.sc))]) .none)) ∧
    ((s.old.window s.cx .ll).2 < (s.wordAddr (.stsc c a o)).toNat + 128 → trapsAt s (.stsc c a o) 0x11 1 (s.wordAddr (.stsc c a o))) ∧
    ((s.wordAddr (.stsc c a o)).toNat + 128 ≤ (s.old.window s.cx .ll).2 → (s.wordAddr (.stsc c a o)).toNat % 64 ≠ 0 →
      trapsAt s (.stsc c a o) 0x03 0 (s.wordAddr (.stsc c a o)))

namespace Sys2Proof.Claims

/-! ### The M slot -/

/-- The LL and SC accesses of the issuing context that are still queued: an M read of the core scratchpad follows them (R218). -/
def queuedBefore (s : State) : List Nat :=
  (s.old.locq.filter (fun o => o.ctx == s.cx && (o.slot == 7 || o.slot == 8))).map (fun o => o.id)

/-- An M operation as this issue makes it (R216): the literal `w`, the base of its feed, what it reads of the core scratchpad, the
pieces of a global feed, and the vector or the scales that it captures. -/
def mOpOf (s : State) (i : Instr) (w : W32) (base : W64) (reads : List (Nat × Nat)) (segs : List Seg) (vec : VReg) : EngOp :=
  { id := s.m.nextId, ctx := s.cx, pc := s.iss.addr, rid := s.oc.rid, no := s.no, ins := i,
    needs := s.needs ++ (if reads = [] then [] else queuedBefore s), begun := false,
    words := [BitVec.ofNat 64 w.toNat, base], vec := vec, reads := reads, feed := segs.map (fun g => (g.va, g.len)), came := [],
    blocks := (segs.filter (fun g => leafCMP g.leaf)).map (fun g => g.va) }

/-- The machine `m` with the operation at the end of the M queue of the issuing context's core. -/
def withMOp (s : State) (m : Mach) (o : EngOp) : Mach :=
  { m with cores := kput (coreOf s.cx) { s.m.core (coreOf s.cx) with mq := (s.m.core (coreOf s.cx)).mq ++ [o] } m.cores }

/-- `exec` answers the state in which the operation `o` waits in the core's M queue and the registers `rs` are pending; of the other
registers only those in `r` have changed. -/
def mIssues (i : Instr) (s : State) (r : Regs) (o : EngOp) (rs : List RegId) : Prop :=
  ∃ t : State, exec i s = .next t ∧
    After s t { s.nc with regs := withToken s s.m.nextId r, busy := s.nc.busy ++ rs } (withMOp s (newOp s) o)

/-- OFF and INC of a feed offset (R219). -/
def offOf (w : W32) : Nat := w.toNat % 2 ^ 21
def incOf (w : W32) : Int := (BitVec.ofNat 11 (w.toNat / 2 ^ 21)).toInt

/-- A feed offset after its post-increment (R219): OFF grows by 32 × INC, modulo 2^21, and INC stays. -/
def bumped (w : W32) : W32 := BitVec.ofNat 32 (w.toNat / 2 ^ 21 * 2 ^ 21 + (((offOf w : Int) + 32 * incOf w) % 2 ^ 21).toNat)

/-- The feed offset that the issue reads, and the issuing context's registers after its post-increment. -/
def feedOffset (s : State) (o : BitVec 3) : W32 := rget o.toNat s.regs.fo
def feedBumped (s : State) (o : BitVec 3) : Regs := { s.nc.regs with fo := rput o.toNat (bumped (feedOffset s o)) s.nc.regs.fo }

/-- The loads of stones, curve tables and branch maps (R220, R225): bytes and alignment. -/
def installForm : Instr → Option (BitVec 3 × Nat × Nat)
  | .ldbS8 _ o => some (o, 65536, 64)
  | .ldbBf16 _ o => some (o, 131072, 64)
  | .ldbE4m3 _ o | .ldbE5m2 _ o => some (o, 69632, 64)
  | .ldbE2m1 _ o => some (o, 36864, 64)
  | .ldcv _ o => some (o, 768, 64)
  | .ldbm _ o => some (o, 32, 32)
  | _ => none

/-- The matrix words: feed offset and literal. -/
def matrixForm (s : State) : Instr → Option (BitVec 3 × W32)
  | .mmBp2 _ _ o _ _ | .mmBp3 _ _ o _ _ | .mmBp4 _ _ o _ _ | .mmBp5 _ _ o _ _ | .mmBp6 _ _ o _ _ | .mmBp7 _ _ o _ _
  | .mmBp8 _ _ o _ _ | .mmBf16 _ _ o _ _ => some (o, 0)
  | .mmx _ _ o k _ | .dmm _ _ o _ k _ _ | .dmmr _ _ o _ k _ _ => some (o, s.lit k.toNat)
  | _ => none

/-- The scale registers that an `mmx` with scales captures, from register `k` on (R222). -/
def scalesFrom (s : State) : Option Nat → VReg
  | none => 0
  | some k => packLanes 32768 ((List.range (16 - k)).map (fun j => rget (k + j) s.regs.sc))

/-- The machine after an M operation with a global feed has been queued: its read joins the global operations (R221, R240). -/
def feedQueued (s : State) (o : EngOp) (segs : List Seg) : Mach :=
  let n := s.m.nextId
  let g : GOp := globalOf s (n + 1) s.needs (.read (.feed n)) segs (segs.flatMap (s.m.ownBytes s.oc.rid (clusterOf s.cx)))
    s.oc.trp.handler
  withMOp s { newOp s with nextId := n + 2, gops := s.m.takenBy s.cx s.oc.rid (clusterOf s.cx) segs ++ [g] } o

/-- The row moves (R229, R230): the vector captured and the registers pending. -/
def moveForm (s : State) : Instr → Option (VReg × List RegId)
  | .dtap v _ _ | .ardF32 v _ _ | .ardS32 v _ _ | .aexp v _ _ => some (0, [.v v.toNat])
  | .awrF32 v _ _ | .awrS32 v _ _ => some (s.rv v, [])
  | .aclr _ => some (0, [])
  | _ => none

/-- `r` is the integer nearest to `i` × 2^`e`, a tie going to the even one (R106, R118). -/
def isNearest (i e r : Int) : Prop :=
  |(i : ℝ) * (2 : ℝ) ^ e - r| ≤ 1 / 2 ∧ (|(i : ℝ) * (2 : ℝ) ^ e - r| = 1 / 2 → 2 ∣ r)

/-- A block of a tile holds the sums of an arrival at the exponent `y` (R118). -/
def sumsAt (x : Int) (m : List Int) (a : List (Int × Int)) (y : Int) (t : List Int) : Prop :=
  t.length = 16 ∧ ∀ j < 16, ∃ p q : Int, t.getD j 0 = p + q ∧ isNearest (m.getD j 0) (x - y) p ∧
    isNearest (a.getD j (0, 0)).1 ((a.getD j (0, 0)).2 - y) q

/-- All of them fit 32 bits. -/
def fits (t : List Int) : Prop := ∀ j < 16, -(2 ^ 31) ≤ t.getD j 0 ∧ t.getD j 0 < 2 ^ 31

/-- The arrivals at one block of one row of a matrix form: the partial sums of 16 columns from stone `q` (R116, R223). -/
def arrivals (f : MForm) (rows : List FeedRow) (cols : List (List StoneCol)) (m q b : Nat) : List ((Int × Int) × Bool) :=
  match rows[m * f.segs + q]?, cols[q]? with
  | some r, some c => ((c.drop (16 * b)).take 16).map (fun k => partialSum r k f.kb)
  | _, _ => []

/-- One arrival taken. -/
def takes (k : Blk) (l : List ((Int × Int) × Bool)) : Blk := (accAdd k (l.map (fun p => p.1)) (l.any (fun p => p.2))).1

end Sys2Proof.Claims

/-- R145, R218 to R220, R225: a load of a stone, a curve table or a branch map is checked over every byte, bumps its feed offset and
waits in the M queue behind the context's earlier scratchpad accesses; `mvfo` and `addfo` write the feed offset at once. -/
def Sys2Proof.Claims.StoneLoadsAndFeedOffsets : Prop :=
  ∀ (s : State),
    (∀ (i : Instr) (o : BitVec 3) (n al : Nat), installForm i = some (o, n, al) →
      (let a : W64 := BitVec.ofNat 64 (offOf (feedOffset s o))
       (accepts s i → inside s .ll a n al → mIssues i s (feedBumped s o) (mOpOf s i 0 0 [(place s .ll a, n)] [] 0) []) ∧
       (accepts s i → (s.old.window s.cx .ll).2 < a.toNat + n → trapsAt s i 0x11 1 a) ∧
       (accepts s i → a.toNat + n ≤ (s.old.window s.cx .ll).2 → a.toNat % al ≠ 0 → trapsAt s i 0x03 0 a) ∧
       (heldBy s.place s.lit i = false → exec i s = .next (refusedAt s 4)))) ∧
    (∀ (o : BitVec 3) (a : BitVec 6),
      exec (.mvfo o a) s = .next { s with m := s.m.setCtx s.cx { s.nc with regs := { s.nc.regs with
        fo := rput o.toNat (BitVec.ofNat 32 (s.rg a).toNat) s.nc.regs.fo } } } ∧
      exec (.addfo o a) s = .next { s with m := s.m.setCtx s.cx { s.nc with regs := { s.nc.regs with
        fo := rput o.toNat (BitVec.ofNat 32 ((feedOffset s o).toNat / 2 ^ 21 * 2 ^ 21 +
          (offOf (feedOffset s o) + (s.rg a).toNat) % 2 ^ 21)) s.nc.regs.fo } } })

/-- R99, R145, R218, R219, R221 to R224, R226: a matrix word that passes its checks bumps its feed offset and waits in the M queue with
what it captured: a feed from the core scratchpad is checked over every byte it reads, a global feed is read as the words read, and a
form with a zero dimension reads nothing. -/
def Sys2Proof.Claims.MatrixWordsAreQueued : Prop :=
  ∀ (s : State) (i : Instr) (o : BitVec 3) (w : W32) (f : MForm), matrixForm s i = some (o, w) → mForm w i = some f → accepts s i →
    (let off : W64 := BitVec.ofNat 64 (offOf (feedOffset s o))
     let n := (f.rows * f.segs - 1) * f.stride + f.segBytes
     let vec := scalesFrom s f.scales
     let va := s.rg f.ga + off
     (f.pieces = [] → mIssues i s (feedBumped s o) (mOpOf s i w 0 [] [] vec) []) ∧
     (f.pieces ≠ [] → f.ga = 0 → inside s .ll off n 32 → mIssues i s (feedBumped s o)
       (mOpOf s i w off (f.pieces.map (fun p => (place s .ll off + p, f.segBytes))) [] vec) []) ∧
     (f.pieces ≠ [] → f.ga = 0 → (s.old.window s.cx .ll).2 < off.toNat + n → trapsAt s i 0x11 1 off) ∧
     (f.pieces ≠ [] → f.ga = 0 → off.toNat + n ≤ (s.old.window s.cx .ll).2 → off.toNat % 32 ≠ 0 → trapsAt s i 0x03 0 off) ∧
     (∀ segs, f.pieces ≠ [] → f.ga ≠ 0 → segs ≠ [] → s.lgFeed va f.pieces f.segBytes = .ok segs →
       ∃ t : State, exec i s = .next t ∧ After s t { s.nc with regs := withToken s s.m.nextId (feedBumped s o) }
         (feedQueued s (mOpOf s i w va [] segs vec) segs)) ∧
     (∀ c, f.pieces ≠ [] → f.ga ≠ 0 → s.lgFeed va f.pieces f.segBytes = .error c → exec i s = .next (s.fail c s.iss.slot 0)))

/-- R68, R117, R120, R216, R217, R229, R230: a row move waits in the M queue with the vector it captured; performed, `dtap`, `ard` and
`aexp` write four rows of the tile to their vector and leave the core as it is, `ard` rounds each column to the nearest, `aclr` clears
the tile, and `awr` makes each block of its rows take its 16 lanes as one arrival. -/
def Sys2Proof.Claims.RowMovesAreQueuedAndPerformed : Prop :=
  (∀ (s : State) (i : Instr) (vec : VReg) (rs : List RegId), moveForm s i = some (vec, rs) →
    (heldBy s.place s.lit i = true → mIssues i s s.nc.regs (mOpOf s i 0 0 [] [] vec) rs) ∧
    (heldBy s.place s.lit i = false → exec i s = .next (refusedAt s 4))) ∧
  (∀ (c : Core) (o : EngOp) (v : BitVec 5) (t : BitVec 3) (r : BitVec 5),
    (let row := fun (k : Nat) => r.toNat + k / 256
     let x := c.tile t.toNat
     (o.ins = .dtap v t r → ∃ w : VReg, c.perform o [] = (c, [(v.toNat, w)], 0) ∧
       ∀ k < 1024, el 32 w k = el 32 (rget (row k) x.mant) (k % 256)) ∧
     (o.ins = .ardF32 v t r → ∃ w : VReg, c.perform o [] = (c, [(v.toNat, w)], 0) ∧
       ∀ k < 1024, el 32 w k = match x.exp (row k) (k % 256 / 16) with
         | none => 0x7FC00000
         | some e => BitVec.ofNat 32 (fmtF32.round false .rne (decide (x.mantissa (row k) (k % 256) < 0))
             (x.mantissa (row k) (k % 256)).natAbs e).1) ∧
     (o.ins = .ardS32 v t r → ∃ (w : VReg) (fl : XF), c.perform o [] = (c, [(v.toNat, w)], fl) ∧
       ∀ k < 1024, ∀ e n, x.exp (row k) (k % 256 / 16) = some e → isNearest (x.mantissa (row k) (k % 256)) e n →
         (el 32 w k).toInt = max (-(2 ^ 31)) (min n (2 ^ 31 - 1)) ∧
         (n < -(2 ^ 31) ∨ 2 ^ 31 - 1 < n → fl.getLsbD 4 = true)) ∧
     (o.ins = .aexp v t r → ∃ w : VReg, c.perform o [] = (c, [(v.toNat, w)], 0) ∧
       ∀ k < 4096, el 8 w k = if k < 64 then el 8 (rget (r.toNat + k / 16) x.exps) (k % 16) else 0) ∧
     (o.ins = .aclr t → c.perform o [] = ({ c with tiles := kput t.toNat Tile.zero c.tiles }, [], 0)) ∧
     (o.ins = .awrF32 v t r ∨ o.ins = .awrS32 v t r → ∃ (q : Tile) (fl : XF),
       c.perform o [] = ({ c with tiles := kput t.toNat q c.tiles }, [], fl) ∧
       ∀ j b, b < 16 → q.blk j b = if r.toNat ≤ j ∧ j < r.toNat + 4
         then takes Blk.clear ((List.range 16).map (fun k =>
           let z := el 32 o.vec (256 * (j - r.toNat) + 16 * b + k)
           if o.ins = .awrS32 v t r then ((z.toInt, 0), false) else wordArrival z))
         else x.blk j b)))

/-- R99, R145, R218, R219, R221, R224, R226, R68, R117, R120, R216, R217, R229, R230. Its parts: `MatrixWordsAreQueued`;
`RowMovesAreQueuedAndPerformed`. -/
def Obligations.MatrixWordsAndRowMoves : Prop := Claims.MatrixWordsAreQueued ∧ Claims.RowMovesAreQueuedAndPerformed

/-- R118: ACC_ADD. A NaN, or a non-finite block, leaves a non-finite block; an arrival of zeros leaves a block of zeros as it is;
otherwise the block takes the least exponent, from its own (from the arrival's least, held to -127, where the block is empty) up to
127, at which every rounded sum fits 32 bits; where none does it becomes non-finite and overflow is raised. -/
def Obligations.AccumulatorAddsAnArrival : Prop :=
  ∀ (k : Blk) (a : List (Int × Int)) (nan : Bool), k.m.length = 16 → a.length = 16 →
    (nan = true ∨ k.x = none → accAdd k a nan = (Blk.bad, 0)) ∧
    (∀ x, nan = false → k.x = some x → (∀ v ∈ k.m, v = 0) → (∀ p ∈ a, p.1 = 0) → accAdd k a nan = (k, 0)) ∧
    (∀ x x0, nan = false → k.x = some x → ¬ ((∀ v ∈ k.m, v = 0) ∧ ∀ p ∈ a, p.1 = 0) →
      ((∃ v ∈ k.m, v ≠ 0) ∧ x0 = x ∨ (∀ v ∈ k.m, v = 0) ∧ ∃ p ∈ a, p.1 ≠ 0 ∧ x0 = max (-127) p.2 ∧ ∀ q ∈ a, q.1 ≠ 0 → p.2 ≤ q.2) →
      (∀ y t, x0 ≤ y → y ≤ 127 → sumsAt x k.m a y t → fits t →
        (∀ z u, x0 ≤ z → z < y → sumsAt x k.m a z u → ¬ fits u) → accAdd k a nan = ({ x := some y, m := t }, 0)) ∧
      ((∀ z u, x0 ≤ z → z ≤ 127 → sumsAt x k.m a z u → ¬ fits u) → accAdd k a nan = (Blk.bad, 0b00100)))

/-- R116: the partial sum of a row and a column is the exact sum of its block products, an integer at the least exponent of a nonzero
one, with exponent 0 for a zero sum; it is NaN when one of its first K blocks is marked in the row or in the column. -/
def Obligations.PartialSumsAreExact : Prop :=
  ∀ (r : FeedRow) (c : StoneCol) (kb : Nat), kb ≤ 16 → r.a.length = 16 → r.e.length = 16 → r.nan.length = 16 → c.c.length = 16 →
    c.e.length = 16 → c.nan.length = 16 →
    (let product := fun (k : Nat) => (List.zipWith (fun x y => x * y) (r.a.getD k []) (c.c.getD k [])).sum
     let exponent := fun (k : Nat) => r.e.getD k 0 + c.e.getD k 0
     let p := partialSum r c kb
     (p.1.1 : ℝ) * (2 : ℝ) ^ p.1.2 = ((List.range kb).map (fun k => (product k : ℝ) * (2 : ℝ) ^ exponent k)).sum ∧
     (p.1.1 = 0 → p.1.2 = 0) ∧
     (p.1.1 ≠ 0 → ∃ k < kb, product k ≠ 0 ∧ p.1.2 = exponent k ∧ ∀ j < kb, product j ≠ 0 → exponent k ≤ exponent j) ∧
     (p.2 = true ↔ ∃ k < kb, r.nan.getD k false = true ∨ c.nan.getD k false = true))

/-- R119, R222, R223: a matrix form adds to each block of its first M rows and N columns the partial sums of its stones, in ascending
order of the stones, after clearing the tile where it clears; every other block keeps its contents. -/
def Obligations.MatrixFormsAddInStoneOrder : Prop :=
  ∀ (f : MForm) (t : Tile) (cols : List (List StoneCol)) (rows : List FeedRow), f.rows ≤ 32 → f.nb ≤ 16 →
    rows.length = f.rows * f.segs → cols.length = f.segs → (∀ c ∈ cols, 16 * f.nb ≤ c.length) →
    ∀ m b, b < 16 → ((f.run t cols rows).1.blk m b =
      if m < f.rows ∧ b < f.nb
      then (List.range f.segs).foldl (fun k q => takes k (arrivals f rows cols m q b)) ((if f.clr then Tile.zero else t).blk m b)
      else (if f.clr then Tile.zero else t).blk m b)

namespace Sys2Proof.Claims

/-! ### The X slot -/

/-- `exec` answers the state in which the shape register `k` is to hold `v` from the third issue after this one (R66, R272). -/
def shapes (i : Instr) (s : State) (k : BitVec 4) (v : W64) : Prop :=
  exec i s = .next { s with m := s.m.setCtx s.cx { s.nc with replay := s.nc.replay ++
    [{ kind := 2, reg := BitVec.ofNat 8 k.toNat, byte := 0, k := 3, data := BitVec.ofNat 128 v.toNat, src := none }] } }

/-- An X operation as this issue makes it (R271): the words it captured, the source it still has to read, the accesses it follows. -/
def xOpOf (s : State) (i : Instr) (words : List W64) (reads : List (Nat × Nat)) (after : List Nat) : EngOp :=
  { id := s.m.nextId, ctx := s.cx, pc := s.iss.addr, rid := s.oc.rid, no := s.no, ins := i, needs := s.needs ++ after, begun := false,
    words := words, vec := 0, reads := reads, feed := [], came := [], blocks := [] }

/-- The local accesses of the issuing context in slot `k` that are still queued. -/
def localsIn (s : State) (ks : List Nat) : List Nat :=
  (s.old.locq.filter (fun o => o.ctx == s.cx && ks.contains o.slot)).map (fun o => o.id)

/-- `exec` answers the state in which the operation `o` waits in the X queue, the token `tok` recording it; the rest of the machine is
as in `m`. -/
def xIssues (i : Instr) (s : State) (m : Mach) (tok : Nat) (o : EngOp) : Prop :=
  ∃ t : State, exec i s = .next t ∧ After s t
    { s.nc with
      regs := if tok = 0 then s.nc.regs else { s.nc.regs with ot := kput tok s.m.nextId s.nc.regs.ot }
      xq := s.nc.xq ++ [o] }
    { m with nextId := s.m.nextId + 1, ops := s.m.ops ++ [s.m.nextId] }

/-- The sends to one destination and the collectives (R276, R280): source space, first shape register, token, operand register. -/
def sendForm : Instr → Option (Space × BitVec 4 × BitVec 5 × BitVec 6)
  | .xsend k t d | .xredAddF32 k t d | .xredMaxF32 k t d | .xredMinF32 k t d | .xredAddBf16 k t d | .xredAddS32 k t d
  | .xredMaxS32 k t d => some (.ll, k, t, d)
  | .xsendLk k t d => some (.lk, k, t, d)
  | _ => none

/-- The multicasts (R279). -/
def castForm : Instr → Option (Space × BitVec 4 × BitVec 5 × BitVec 6)
  | .xmcast k t d => some (.ll, k, t, d)
  | .xmcastLk k t d => some (.lk, k, t, d)
  | _ => none

/-- The offsets of the elements of a box: each below the extent of its dimension (R273). -/
def inBox (b : Box) (u : List Nat) : Prop := u.length = 4 ∧ ∀ d < 4, u.getD d 0 < b.size.getD d 0

/-- Every byte of every element of the box lies in the context's window of the space (R276). -/
def boxWithin (s : State) (sp : Space) (b : Box) : Prop :=
  ∀ u, inBox b u → ∀ p ∈ elemBits b.fmt b.src (b.pos u), 0 ≤ p.1 ∧ p.1 < (s.old.window s.cx sp).2

/-- An extent of the box is 0: it holds no element. -/
def noElement (b : Box) : Prop := ∃ d < b.dim, b.size.getD d 1 = 0

/-- The alignment of a source (R276): an element's bytes, 256 for `.bp8`. -/
def sourceAlign (b : Box) : Nat := if b.fmt = 0xC then 256 else fmtBytes b.fmt

/-- The machine after `n` transfer numbers of the issuing context's core have been taken (R258, R276). -/
def tidsTaken (s : State) (n : Nat) : Mach :=
  let c : Core := s.m.core (coreOf s.cx)
  { s.m with cores := kput (coreOf s.cx) { c with tid := BitVec.ofNat 12 (c.tid.toNat + n) } s.m.cores }

/-- The operation of a send to the destination words `ds`: the four shape words, the operand, where source position 0 lies, the first
transfer number, and the destinations. -/
def sendOp (s : State) (i : Instr) (sp : Space) (k : BitVec 4) (d : BitVec 6) (ds : List W64) (reads : List (Nat × Nat)) : EngOp :=
  let b := boxOf s.regs k.toNat
  xOpOf s i (((List.range 4).map (fun j => rget (k.toNat + j) s.regs.sh)) ++
      [s.rg d, BitVec.ofNat 64 ((s.old.window s.cx sp).1 + b.src), BitVec.ofNat 64 (s.m.core (coreOf s.cx)).tid.toNat] ++ ds)
    reads (localsIn s (if sp = .lk then [9] else [7, 8]))

/-- What a send to the words `ds` does by the word `i`, whose checks 3 and 4 have passed. -/
def sends (s : State) (i : Instr) (sp : Space) (k : BitVec 4) (t : BitVec 5) (d : BitVec 6) (ds : List W64) : Prop :=
  let b := boxOf s.regs k.toNat
  let src : W64 := BitVec.ofNat 64 b.src
  (noElement b → xIssues i s (tidsTaken s ds.length) t.toNat (sendOp s i sp k d ds [])) ∧
  (¬ noElement b → boxWithin s sp b → b.src % sourceAlign b = 0 → xIssues i s (tidsTaken s ds.length) t.toNat
    (sendOp s i sp k d ds (b.runs.map (b.runReads ((s.old.window s.cx sp).1 + b.src))))) ∧
  (¬ noElement b → ¬ boxWithin s sp b → trapsAt s i 0x11 1 src) ∧
  (¬ noElement b → boxWithin s sp b → b.src % sourceAlign b ≠ 0 → trapsAt s i 0x03 0 src)

/-- The space of a Tailrace's memory, and the LL or LK accesses of the context that an operation on it follows (R281). -/
def tailPad (t : BitVec 1) : Space := if t = 1 then .lk else .ll
def tailLocals (s : State) (t : BitVec 1) : List Nat := localsIn s (if t = 1 then [9] else [7, 8])

/-- A link pair as a binding leaves it (R284, R296): every generation 0 and no request under way, the words of one that is not complete gone
(the model's choice, log 32). -/
def boundTo (s : State) (l : Link) (w : W64) : Link :=
  { l with holder := some s.oc.rid, bind := w, gen := [], out_ := [], outb := l.outb.take (l.outb.length - l.asm.length), asm := [] }

/-- A link pair as `lnfree` leaves it (R284): the words already queued outbound are sent, all but those of a request not yet complete (the
model's choice, log 32); inbound words are discarded. -/
def freed (l : Link) : Link :=
  { l with holder := none, inb := [], out_ := [], outb := l.outb.take (l.outb.length - l.asm.length), asm := [] }

end Sys2Proof.Claims

/-- R66, R272: `mvsh`, `shadd` and `lish` give a shape register a value for the third issue after theirs; the register itself, and the
rest of the machine, stay. -/
def Sys2Proof.Claims.ShapeWritesAreExposed : Prop :=
  ∀ (s : State) (k : BitVec 4) (a : BitVec 6) (l : BitVec 5),
    shapes (.mvsh k a) s k (s.rg a) ∧
    shapes (.shadd k a) s k (BitVec.ofNat 64 ((rget k.toNat s.regs.sh).toNat + (s.rg a).toNat)) ∧
    (holdsLits s l 2 → shapes (.lish k l) s k (BitVec.ofNat 64 ((s.lit (l.toNat + 1)).toNat * 2 ^ 32 + (s.lit l.toNat).toNat))) ∧
    (¬ holdsLits s l 2 → exec (.lish k l) s = .next (refusedAt s 3))

/-- R99, R258, R271, R273 to R276, R279, R280: a send whose shape group and destination are valid waits in the X queue with what it
captured, after the context's earlier accesses of its source space, and takes a transfer number for each destination; a source byte
outside the window is the access fault, with the SRC offset in TADDR (the model's choice, log 31), a misaligned source the alignment trap,
and a box of no element has no source to check. A multicast reads its member list first. -/
def Obligations.SendsAreQueued : Prop :=
  ∀ (s : State) (i : Instr) (sp : Space) (k : BitVec 4) (t : BitVec 5) (d : BitVec 6),
    (sendForm i = some (sp, k, t, d) → (s.valuesOk i = true → sends s i sp k t d [s.rg d]) ∧
      (s.valuesOk i = false → exec i s = .next (refusedAt s 4))) ∧
    (castForm i = some (sp, k, t, d) → s.valuesOk i = true →
      (let n := (s.rg d).toNat / 2 ^ 32 % 32 + 1
       let a : W64 := BitVec.ofNat 64 ((s.rg d).toNat % 2 ^ 32)
       let member := fun (j : Nat) => (BitVec.ofNat 64 (s.old.load (place s .ll a + 8 * j) 8) : W64)
       (inside s .ll a (8 * n) 8 → (∀ j < n, sendDestOk (member j) = true) → sends s i sp k t d ((List.range n).map member)) ∧
       (inside s .ll a (8 * n) 8 → (∃ j < n, sendDestOk (member j) = false) → exec i s = .next (refusedAt s 4)) ∧
       ((s.old.window s.cx .ll).2 < a.toNat + 8 * n → trapsAt s i 0x11 1 a) ∧
       (a.toNat + 8 * n ≤ (s.old.window s.cx .ll).2 → a.toNat % 8 ≠ 0 → trapsAt s i 0x03 0 a))) ∧
    (castForm i = some (sp, k, t, d) → s.valuesOk i = false → exec i s = .next (refusedAt s 4))

/-- R267, R271, R281 to R284: map operations and `strays` wait in the X queue behind the context's earlier accesses of that memory, an
image or an entry outside the window faults; `ctset` and `ctclr` write a token register at once; `lnbind` and `lnfree` change the
holder of a link pair at once, one that another run holds is the access trap; `lnmsg` waits in the X queue with its word. At its issue it
is judged by a trial push behind the words of the context's `lnmsg` operations still queued for the pair, and the words of a request that
is not complete are dropped by `lnbind` and `lnfree`: R284 says neither, and they are the model's choices (logs 30 and 32). -/
def Sys2Proof.Claims.MapTokenAndLinkWords : Prop :=
  ∀ (s : State) (k n o : BitVec 4) (a : BitVec 6) (t : BitVec 1) (c : BitVec 3),
    (let loc := fun (i : Instr) (b : Nat) => xIssues i s s.m 0 (xOpOf s i [BitVec.ofNat 64 (place s (tailPad t) (s.rg a))]
       (if b = 96 then [(place s (tailPad t) (s.rg a), 96)] else []) (tailLocals s t))
     let checked := fun (i : Instr) (b : Nat) =>
       (inside s (tailPad t) (s.rg a) b 32 → loc i b) ∧
       ((s.old.window s.cx (tailPad t)).2 < (s.rg a).toNat + b → trapsAt s i 0x11 1 (s.rg a)) ∧
       ((s.rg a).toNat + b ≤ (s.old.window s.cx (tailPad t)).2 → (s.rg a).toNat % 32 ≠ 0 → trapsAt s i 0x03 0 (s.rg a))
     let l := (s.old.core (coreOf s.cx)).link c.toNat
     let trial := (s.m.pushQueued s.cx c.toNat).pushLink s.cx s.no s.iss.addr c.toNat (s.rg a)
     checked (.ldmap k a t) 96 ∧ checked (.strays a t) 288 ∧
     xIssues (.swapmap n o t) s s.m 0 (xOpOf s (.swapmap n o t) [0] [] (tailLocals s t)) ∧
     xIssues (.retiremap k t) s s.m 0 (xOpOf s (.retiremap k t) [0] [] (tailLocals s t)) ∧
     exec (.ctset c a) s = .next { s with m := s.m.setCtx s.cx { s.nc with regs := { s.nc.regs with
       ct := rput c.toNat (BitVec.ofNat 16 (s.rg a).toNat) s.nc.regs.ct } } } ∧
     exec (.ctclr c) s = .next { s with m := s.m.setCtx s.cx { s.nc with regs := { s.nc.regs with ct := rput c.toNat 0 s.nc.regs.ct } } } ∧
     (bindOk (s.rg a) = true → (∀ r, l.holder = some r → r = s.oc.rid) →
       exec (.lnbind c a) s = .next (withLink s c (boundTo s (linkNow s c) (s.rg a)))) ∧
     (bindOk (s.rg a) = true → (∃ r, l.holder = some r ∧ r ≠ s.oc.rid) → exec (.lnbind c a) s = .next
       (s.fail { code := 0x04, sub := c.toNat, addr := s.iss.addr } s.iss.slot 0)) ∧
     (bindOk (s.rg a) = false → exec (.lnbind c a) s = .next (refusedAt s 4)) ∧
     (bound s c → exec (.lnfree c) s = .next (withLink s c (freed (linkNow s c)))) ∧
     (¬ bound s c → exec (.lnfree c) s = .next s) ∧
     (bound s c → ((linkNow s c).bind.toNat / 256 % 4 = 0 ∨ ∃ m, trial = .ok m) →
       xIssues (.lnmsg c a) s s.m 0 (xOpOf s (.lnmsg c a) [s.rg a] [] [])) ∧
     (∀ e, bound s c → trial = .error e → exec (.lnmsg c a) s = .next (s.fail e s.iss.slot 0)) ∧
     ((∀ o ∈ s.nc.xq, ∀ b, o.ins ≠ .lnmsg c b) → s.m.pushQueued s.cx c.toNat = s.m) ∧
     (¬ bound s c → exec (.lnmsg c a) s = .next (s.fail { code := 0x04, sub := c.toNat, addr := s.iss.addr } s.iss.slot 0)))

/-- R66, R272, R267, R271, R281, R284. Its parts: `ShapeWritesAreExposed`; `MapTokenAndLinkWords`. What rests on log entries 30, 32 is the
model's choice: each part names the clause. -/
def Obligations.ShapesMapsTokensAndLinks : Prop := Claims.ShapeWritesAreExposed ∧ Claims.MapTokenAndLinkWords

namespace Sys2Proof.Claims

/-! ### Events -/

/-- `exec` answers the state whose machine is `m`; the issue in progress and the agenda stay. -/
def happens (i : Instr) (s : State) (m : Mach) : Prop := exec i s = .next { s with m := m }

/-- The package is out of reset: its boot image verified (R367). -/
def awake (s : State) : Prop := s.m.pkg.stuck = false

/-- The package takes window accesses: it is out of reset, and no wipe is under way (R167). -/
def open_ (s : State) : Prop := awake s ∧ s.m.pkg.wiping = false

/-- The machine after the completion of a window access has been returned, or is owed until a wipe that has begun is over (R167, R364). -/
def answered (m : Mach) (c : Completion) : Mach :=
  if m.pkg.wiping then { m with pkg := { m.pkg with owed := m.pkg.owed ++ [c] } } else { m with comps := m.comps ++ [c] }

/-- A window access succeeds with the machine `m` and the bytes `bs`; it fails, and changes nothing else. -/
def succeeds (i : Instr) (s : State) (m : Mach) (bs : List Byte) : Prop := happens i s (answered m { ok := true, bytes := bs })
def failsAt (i : Instr) (s : State) : Prop := happens i s (answered s.m { ok := false, bytes := [] })

/-- The machine with stream `k` replaced. -/
def streamWith (m : Mach) (k : Nat) (t : Stream) : Mach := { m with streams := kput k t m.streams }

/-- STATE and FCODE of a stream (R13). -/
def stateOf (t : Stream) : Nat := t.stat.toNat % 8

/-- `u` is `t` with STATE `n`, FCODE, LATEF and FSEQL as they were. -/
def sameButState (t u : Stream) (n : Nat) : Prop :=
  u = { t with stat := u.stat } ∧ stateOf u = n ∧ ∀ j < 64, 3 ≤ j → u.stat.getLsbD j = t.stat.getLsbD j

/-- No run is placed. -/
def noRunPlaced (s : State) : Prop := ∀ r ∈ s.m.runs, r.placed = false

/-- Granules of a claim (R366): those `first` to `first` + `n` - 1 of the scratchpad that it names. -/
def claimed (w : W64) : List Nat :=
  let idx := w.toNat / 2 ^ 27 % 2 ^ 8
  let base := if w.getLsbD 35 then lkLoc idx 0 / 65536 else llLoc idx 0 / 65536
  (List.range (w.toNat / 2 ^ 11 % 2 ^ 8)).map (fun i => base + w.toNat / 2 ^ 19 % 2 ^ 8 + i)

/-- The fields of a claim are in range (R366). -/
def claimOk (w : W64) : Prop :=
  w.toNat / 2 ^ 40 = 0 ∧ w.toNat % 2 ^ 11 = 0 ∧ w.toNat / 2 ^ 36 % 16 ≤ 7 ∧ 1 ≤ w.toNat / 2 ^ 11 % 2 ^ 8 ∧ w.toNat / 2 ^ 11 % 2 ^ 8 ≤ 128 ∧
    (w.getLsbD 35 = true → w.toNat / 2 ^ 27 % 2 ^ 8 ≤ 31 ∧ w.toNat / 2 ^ 19 % 2 ^ 8 + w.toNat / 2 ^ 11 % 2 ^ 8 ≤ 128) ∧
    (w.getLsbD 35 = false → w.toNat / 2 ^ 19 % 2 ^ 8 + w.toNat / 2 ^ 11 % 2 ^ 8 ≤ 24)

/-- A byte of memory outside the granules `gs` is as in `m`; inside those that another tenant was recorded for it is 0 (R22, R366). -/
def granulesTaken (m m' : Mach) (ten : Nat) (gs : List Nat) : Prop :=
  (∀ a, a / 65536 ∉ gs → readByte m'.mem a = readByte m.mem a) ∧
  (∀ a, a / 65536 ∈ gs → readByte m'.mem a = if kget (a / 65536) m.pkg.granT = some ten then readByte m.mem a else 0) ∧
  (∀ g ∈ gs, kget g m'.pkg.granT = some ten)

/-- The tables of the context's shares are rebuilt for the next cycle at entry 0 (R27). -/
def sharesRebuilt (m : Mach) (x : Nat) (n : Nat) : Mach :=
  let k := coreOf x
  let m1 : Mach := { m with ctxs := kput x { m.ctx x with share := n } m.ctxs }
  let c : Core := m.core k
  { m1 with cores := kput k { c with next := some (slotTable ((List.range 4).map (fun i => (m1.ctx (4 * k + i)).share))) } m1.cores }

end Sys2Proof.Claims

/-- R13, R364: how the window writes the words of a stream. SHEAD and SSEQ are written only as R13 allows, SEND never, SSTAT clears
LATEF and leaves a fault; every other word takes its value but for reserved bits; a LOG out of range makes a stream that awaits no
command idle; a refused write changes nothing. STATE after a write of SSTAT or SLOG is the model's choice (log 36). -/
def Sys2Proof.Claims.WindowWritesStreamWords : Prop :=
  ∀ (s : State) (k : BitVec 4) (w : W64), open_ s →
    (let t := s.m.stream k.toNat
     let ok := fun (i : Instr) (u : Stream) => succeeds i s (streamWith s.m k.toNat u) []
     let size := 2 ^ (t.size.toNat % 32)
     let headFree := (stateOf t = 4 ∨ (stateOf t = 0 ∧ t.head = t.end_)) ∧ w.toNat % 4 = 0 ∧ w.toNat ≤ t.end_.toNat ∧
       t.end_.toNat ≤ w.toNat + size
     let seqFree := (stateOf t = 0 ∨ stateOf t = 4) ∧ t.open_ = [] ∧ t.seq.toNat ≤ w.toNat
     let reg := fun (j : Nat) => (.registerWrite (BitVec.ofNat 64 (4096 * k.toNat + 8 * j)) w : Instr)
     let idle := fun (z : W64) => t.head = t.end_ ∨ z.toNat % 32 < 12 ∨ 30 < z.toNat % 32
     let statOk := w.toNat / 2 ^ 17 % 2 ^ 15 = 0 ∧ w.toNat / 8 % 32 = 0
     (headFree → ok (.sheadWrite k w) { t with head := w, len := 0 }) ∧ (¬ headFree → failsAt (.sheadWrite k w) s) ∧
     (seqFree → ok (.sseqWrite k w) { t with seq := w }) ∧ (¬ seqFree → failsAt (.sseqWrite k w) s) ∧
     failsAt (.sendWrite k w) s ∧
     (¬ statOk → failsAt (.sstatWrite k w) s) ∧
     (statOk → ∃ u : Stream, ok (.sstatWrite k w) u ∧ u = { t with stat := u.stat } ∧
       (∀ j < 64, 3 ≤ j → j ≠ 16 → u.stat.getLsbD j = t.stat.getLsbD j) ∧
       u.stat.getLsbD 16 = (t.stat.getLsbD 16 && w.getLsbD 16) ∧
       (w.toNat % 8 ≠ 0 ∨ stateOf t ≠ 4 → stateOf u = stateOf t) ∧
       (w.toNat % 8 = 0 → stateOf t = 4 → (idle t.size → stateOf u = 0) ∧ (¬ idle t.size → stateOf u = 1))) ∧
     ok (reg 0) { t with base := w } ∧
     (w.toNat / 32 = 0 → ∃ u : Stream, ok (reg 1) u ∧ u = { t with size := w, stat := u.stat } ∧
       (stateOf t ≠ 1 ∨ t.await ≠ none → u.stat = t.stat) ∧ (∀ j < 64, 3 ≤ j → u.stat.getLsbD j = t.stat.getLsbD j) ∧
       (stateOf t = 1 → t.await = none → (idle w → stateOf u = 0) ∧ (¬ idle w → stateOf u = 1))) ∧
     (w.toNat / 32 ≠ 0 → failsAt (reg 1) s) ∧
     (w.toNat / 2 ^ 55 = 0 → w.toNat % 2 ^ 12 = 0 → ok (reg 5) { t with cfg := w }) ∧
     (w.toNat / 2 ^ 55 ≠ 0 ∨ w.toNat % 2 ^ 12 ≠ 0 → failsAt (reg 5) s) ∧
     ok (reg 6) { t with root := w })

/-- R149, R361, R364 to R366, R370, R372, R373, R19, R27: the other window writes. A slice takes a partition, wiped where it last served
another one; P and F keep F ≤ P ≤ 4,800, a value outside being an error completion (the model's choice, log 39; the offsets of the power
block: log 11); the configuration words are written while no run is placed; a counter is cleared by 0; a share
is judged with its core's; a claim takes free granules; a stray entry is freed; the vectors and the sequence number are kept. -/
def Sys2Proof.Claims.WindowWritesPackageWords : Prop :=
  ∀ (s : State) (n : BitVec 6) (b : Byte) (w : W64) (x : BitVec 10) (t j : Nat), open_ s →
    (let p := s.m.pkg
     let pkg := fun (q : Pkg) => ({ s.m with pkg := q } : Mach)
     let share := b.toNat
     let fits := (s.m.ctx x.toNat).status ≠ .absent ∧ share ≤ 64 ∧
       s.m.heldShares (coreOf x.toNat) - (s.m.ctx x.toNat).share + share ≤ 64
     let claimable := claimOk w ∧ ∀ g ∈ claimed w, s.m.granuleHeld g = false
     (b = 0xFF → succeeds (.partitionWrite n b) s (pkg { p with part := kdel n.toNat p.part }) []) ∧
     (8 ≤ b.toNat → b ≠ 0xFF → failsAt (.partitionWrite n b) s) ∧
     (b.toNat ≤ 7 → kget n.toNat p.lastPart = some b.toNat → succeeds (.partitionWrite n b) s
       (pkg { p with part := kput n.toNat b.toNat p.part, lastPart := kput n.toNat b.toNat p.lastPart }) []) ∧
     (b.toNat ≤ 7 → kget n.toNat p.lastPart ≠ some b.toNat → ∃ m : Mach,
       succeeds (.partitionWrite n b) s m [] ∧ m.pkg.wiping = true ∧ kget n.toNat m.pkg.part = some b.toNat ∧
       ∀ a, readByte m.mem a = if n.toNat * 2 ^ 33 ≤ a ∧ a < (n.toNat + 1) * 2 ^ 33 then 0 else readByte s.m.mem a) ∧
     (p.f ≤ w.toNat → w.toNat ≤ 4800 → succeeds (.grantWrite 0 w) s (pkg { p with p := w.toNat }) []) ∧
     (w.toNat < p.f ∨ 4800 < w.toNat → failsAt (.grantWrite 0 w) s) ∧
     (w.toNat ≤ p.p → succeeds (.grantWrite 8 w) s (pkg { p with f := w.toNat }) []) ∧
     (p.p < w.toNat → failsAt (.grantWrite 8 w) s) ∧
     (j < 318 → w = 0 → succeeds (.counterClear (BitVec.ofNat 16 (8 * j)) w) s (pkg { p with cnts := rput j 0 p.cnts }) []) ∧
     (j < 318 → w ≠ 0 → failsAt (.counterClear (BitVec.ofNat 16 (8 * j)) w) s) ∧
     (w.toNat / 2 ^ 32 = 0 → succeeds (.configurationWrite 32 w) s (pkg (p.setExpiry (BitVec.ofNat 32 w.toNat))) []) ∧
     (¬ noRunPlaced s → failsAt (.configurationWrite 0 w) s) ∧
     (noRunPlaced s → w = p.chip.zeroExtend 64 → p.names p.chip = true → succeeds (.configurationWrite 0 w) s s.m []) ∧
     (noRunPlaced s → w.toNat < 2 ^ 12 → w ≠ p.chip.zeroExtend 64 → p.names (BitVec.ofNat 12 w.toNat) = true →
       ∃ m : Mach, succeeds (.configurationWrite 0 w) s m [] ∧ m.pkg.chip.toNat = w.toNat ∧
         ∀ q < 6, (m.pkg.port q).locked = true) ∧
     (fits → (s.m.ctx x.toNat).share ≤ s.m.heldShares (coreOf x.toNat) →
       succeeds (.shareWindowWrite x b) s (sharesRebuilt s.m x.toNat share) []) ∧
     (64 < share ∨ (s.m.ctx x.toNat).status = .absent → failsAt (.shareWindowWrite x b) s) ∧
     (claimable → ∃ m : Mach, succeeds (.scratchpadClaim w) s m [] ∧ granulesTaken s.m m (w.toNat / 2 ^ 36 % 16) (claimed w)) ∧
     (¬ claimable → failsAt (.scratchpadClaim w) s) ∧
     (t < 288 → succeeds (.strayFree t) s { s.m with tails := kput t { s.m.tail t with strays := (s.m.tail t).strays.drop 1 } s.m.tails } []) ∧
     (w.toNat / 2 ^ 32 = 0 → succeeds (.interruptVectorWrite w) s (pkg { p with vectors := w }) []) ∧
     (w.toNat / 2 ^ 32 ≠ 0 → failsAt (.interruptVectorWrite w) s) ∧
     succeeds (.endRun 8 w) s (pkg { p with endSeq := w }) [])

/-- R13, R25, R364, R365: a window load of a stream's word answers its eight bytes, one of device memory, or of a scratchpad granule that no placed run holds, answers the bytes of memory; a
store there writes them, over the end of a cluster's pad into the next one's too; an access that the window does not allow fails and
changes nothing. A write of a stream's number to the end-run block stops the run at the position written before, discards its uncommitted stores and gives it no child. -/
def Sys2Proof.Claims.WindowAccessesMemoryAndEndsRuns : Prop :=
  ∀ (s : State) (off : W64) (n : Nat) (bs : List Byte) (k : BitVec 4), open_ s →
    (∀ i < 8, succeeds (.windowLoad (BitVec.ofNat 64 (4096 * k.toNat + 8 * i)) 8) s s.m
      (lowBytes 8 ((s.m.stream k.toNat).word i).toNat)) ∧
    (2 ^ 32 ≤ off.toNat → ∀ l, s.m.device (off.toNat - 2 ^ 32) n false = some l →
      succeeds (.windowLoad off n) s s.m (l.flatMap (fun g => readBytes s.m.mem g.pa g.len))) ∧
    (2 ^ 32 ≤ off.toNat → s.m.device (off.toNat - 2 ^ 32) n false = none → failsAt (.windowLoad off n) s) ∧
    (2 ^ 32 ≤ off.toNat → ∀ l, s.m.device (off.toNat - 2 ^ 32) bs.length true = some l →
      succeeds (.windowStore off bs) s (s.m.storeSegs l bs) []) ∧
    (2 ^ 32 ≤ off.toNat → s.m.device (off.toNat - 2 ^ 32) bs.length true = none → failsAt (.windowStore off bs) s) ∧
    (0x40000000 ≤ off.toNat → off.toNat < 0x70000000 → ∀ l, s.m.scratch off.toNat n = some l →
      succeeds (.windowLoad off n) s s.m (l.flatMap (fun p => readBytes s.m.mem p.1 p.2))) ∧
    (0x40000000 ≤ off.toNat → off.toNat < 0x70000000 → ∀ l, s.m.scratch off.toNat bs.length = some l →
      succeeds (.windowStore off bs) s (s.m.storePieces l bs) []) ∧
    (0x40000000 ≤ off.toNat → off.toNat < 0x70000000 → s.m.scratch off.toNat n = none → failsAt (.windowLoad off n) s) ∧
    (0x40000000 ≤ off.toNat → off.toNat < 0x70000000 → s.m.scratch off.toNat bs.length = none → failsAt (.windowStore off bs) s) ∧
    (∀ r, s.m.runs.find? (fun q => q.placed && q.stream == k.toNat && q.pos == s.m.pkg.endSeq) = some r →
      ∃ m : Mach, succeeds (.endRun 0 (BitVec.ofNat 64 k.toNat)) s m [] ∧ m.mem = s.m.mem ∧
        (∀ x ∈ r.ctxs, kget x s.m.ctxs ≠ none → (m.ctx x).status = .ended ∧ (m.ctx x).regs = (s.m.ctx x).regs) ∧
        (∀ g ∈ m.gops, g ∈ s.m.gops ∧ (g.rid = r.id → g.committed = false → (∀ b, g.act ≠ .store b) ∧ ∀ o ws, g.act ≠ .red o ws)) ∧
        (∀ q ∈ m.runs, q.id = r.id → q.child = none ∧ q.begun = true)) ∧
    (s.m.runs.find? (fun q => q.placed && q.stream == k.toNat && q.pos == s.m.pkg.endSeq) = none →
      failsAt (.endRun 0 (BitVec.ofNat 64 k.toNat)) s)

/-- R13, R364, R149, R361, R366, R370, R372, R373, R19, R27, R25, R365. Its parts: `WindowWritesStreamWords`; `WindowWritesPackageWords`;
`WindowAccessesMemoryAndEndsRuns`. What rests on log entries 11, 36, 39 is the model's choice: each part names the clause. -/
def Obligations.WindowAccessesByTheHost : Prop :=
  Claims.WindowWritesStreamWords ∧ Claims.WindowWritesPackageWords ∧ Claims.WindowAccessesMemoryAndEndsRuns

namespace Sys2Proof.Claims

/-- Stream `k` as it faults with a code (R16): STATE 4, FCODE, FSEQL; LATEF and HEAD as they were; the host is interrupted. -/
def streamFaulted (m m' : Mach) (k : Nat) (code : Nat) (seq : Nat) : Prop :=
  ∃ u : Stream, m' = { streamWith m k u with irqs := m.irqs ++ [m.pkg.vector 0] } ∧ u = { m.stream k with stat := u.stat } ∧
    u.stat.toNat % 2 ^ 16 = 4 + 256 * code ∧ u.stat.toNat / 2 ^ 32 = seq ∧
    ∀ j, 16 ≤ j → j < 32 → u.stat.getLsbD j = (m.stream k).stat.getLsbD j

/-- The machine after the command that stream `k` waits in has been abandoned (R13, R16): it stands at HEAD, no longer waiting; the run of
a waiting launch is withdrawn and its position closed (the model's choice, log 37). -/
def abandoned (m : Mach) (k : Nat) : Mach :=
  let t := m.stream k
  match t.await with
  | some (.placement id) =>
    { streamWith m k { t with await := none, len := 0, open_ := t.open_.filter (fun p => some p != (m.run? id).map (fun (r : Run) => r.pos)) } with
      runs := m.runs.filter (fun r => r.id != id) }
  | _ => streamWith m k { t with await := none, len := 0 }

/-- What a context holds as its run begins (R22, R315): `g1` the arguments, `g2` its rank, `g3` the team's size, `g4` the team's number,
`g5` the position, every other register 0, `vl` 1,024, every token complete. -/
def begins (m : Mach) (r : Run) (x team rank size : Nat) (c : Ctx) : Prop :=
  (∀ n : BitVec 6, c.regs.rg n = if n = 1 then r.args else if n = 2 then BitVec.ofNat 64 rank else if n = 3 then BitVec.ofNat 64 size
    else if n = 4 then BitVec.ofNat 64 team else if n = 5 then r.pos else 0) ∧
  c.regs = { Regs.zero with g := c.regs.g, vl := 1024 } ∧ c.ctl = { Ctl.zero with pc := r.pc } ∧ c.status = .run ∧ c.rid = r.id ∧
  c.trp.handler = false ∧ c.trp.tvec = rget (2 * r.tenant) m.pkg.ttab ∧
  c.trp.trec = rget (2 * r.tenant + 1) m.pkg.ttab + BitVec.ofNat 64 (4096 * x)

/-- Nothing that an older waiting launch or a placed run holds keeps the run from its resources (R19, R21), and none of its cores is retired or
waits to be substituted by a spare (R369). -/
def free (s : State) (r : Run) : Prop :=
  (∀ q ∈ s.m.runs, q.placed = true → q.clash r = false) ∧
  (∀ q ∈ s.m.runs, q.placed = false → q.before r = true → q.clash r = false) ∧
  (∀ e ∈ r.recs, (s.m.core (8 * e.cluster + e.core)).dead = false ∧ 8 * e.cluster + e.core ∉ s.m.pkg.repairs ∧
    s.m.heldShares (8 * e.cluster + e.core) +
      (((s.m.runs.filter (fun q => !q.placed && q.before r)).map (fun q => q.sharesOn (8 * e.cluster + e.core))).sum) + e.share ≤ 64)

/-- No self-test is due of a resource that the record names and that no placed run holds (R369). -/
def tested (s : State) (r : Run) : Prop := ∀ t ∈ s.m.pkg.tests, s.m.holds t.1 t.2 = true ∨ s.m.heldIn r t.1 t.2 = false

/-- A context of a run has ended and has nothing under way (R25). -/
def idle (m : Mach) (x : Nat) : Prop :=
  (m.ctx x).status = .ended ∧ (m.ctx x).vq = [] ∧ (m.ctx x).qq = [] ∧ (m.ctx x).xq = [] ∧ (∀ o ∈ m.locq, o.ctx ≠ x) ∧
    (∀ o ∈ m.rets, o.ctx ≠ x) ∧ ∀ o ∈ (m.core (coreOf x)).mq, o.ctx ≠ x

/-- A placed run that has ended: each of its contexts has, and nothing that it has issued is under way (R25, R250). -/
def over_ (s : State) (r : Run) : Prop :=
  r.begun = true ∧ (∀ x ∈ r.ctxs, idle s.m x) ∧ (∀ g ∈ s.m.gops, g.rid ≠ r.id) ∧
    ∀ e ∈ r.recs, ∀ f ∈ (s.m.core (8 * e.cluster + e.core)).xfers, f.rid ≠ r.id

/-- The run that the queued tail child of `r` becomes as `r` retires (R24): it waits for placement with the position and the place in the
order of waiting launches that `r` had. -/
def childRun (s : State) (r : Run) (bin args pc : W64) (part : Nat) (es : List Entry) : Run :=
  let t := s.m.stream r.stream
  { id := s.m.nextId, stream := r.stream, pos := r.pos, time := r.time, tenant := t.cfg.toNat / 2 ^ 52 % 16, root := t.root, part := part,
    bin := bin, args := args, pc := bin + pc, recs := es, placed := false, begun := false, stopped := false, cnt := [], served := [],
    flits := 0, energy := 0, child := none }

/-- The machine after `r` has released what it held (R25): its contexts, its teams and its place among the runs; `rest` are the runs
that follow those that stay. -/
def released (s : State) (r : Run) (m : Mach) (rest : List Run) : Prop :=
  (∀ x ∈ r.ctxs, (m.ctx x).status = .absent) ∧ (∀ t ∈ m.teams, t.rid ≠ r.id) ∧
    m.runs = s.m.runs.filter (fun q => q.id != r.id) ++ rest ∧ m.mem = s.m.mem

/-- Position `n` of a stream, `t` before and `u` after, has RETIRED (R25). -/
def positionRetired (t u : Stream) (n : W64) : Prop := u.ret = t.ret ++ [n] ∧ u.open_ = t.open_.filter (fun p => p != n)

end Sys2Proof.Claims

/-- R13 to R16, R25, R167: an append that R14 accepts moves END, another faults its stream, whose waiting command is abandoned (log 37); a
`waitrun`, a `fence` and a `signal` complete when their position has retired, when no position is open, when their store has performed,
but not in a wipe (log 34); the late faults of tail children take effect at a command boundary, each with its interrupt, oldest first. -/
def Sys2Proof.Claims.StreamEvents : Prop :=
  ∀ (s : State) (k : BitVec 4) (e : W64), awake s →
    (let t := s.m.stream k.toNat
     let good := t.end_.toNat ≤ e.toNat ∧ e.toNat % 4 = 0 ∧ (e - t.head).toNat ≤ 2 ^ (t.size.toNat % 32)
     let over_ := streamWith s.m k.toNat (completed t)
     (good → happens (.append k e) s (streamWith s.m k.toNat { t with end_ := e })) ∧
     (¬ good → ∃ m : Mach, happens (.append k e) s m ∧ streamFaulted (abandoned s.m k.toNat) m k.toNat 7 0) ∧
     (s.m.pkg.wiping = false →
       (∀ j n, t.await = some (.position j n) → n ∈ (s.m.stream j).ret → happens (.waitrunDone k) s over_) ∧
       (t.await = some .all → t.open_ = [] → happens (.fenceDone k) s over_) ∧
       (∀ loc v irq, t.await = some (.store loc v irq) → ∃ m : Mach, happens (.signalStorePerformed k) s m ∧
         m.mem = writeBytes s.m.mem loc (lowBytes 8 v.toNat) ∧ m.irqs = s.m.irqs ++ irq.toList ∧ m.stream k.toNat = completed t ∧
         (∀ j, j ≠ k.toNat → m.stream j = s.m.stream j) ∧ m.runs = s.m.runs ∧ m.pkg = s.m.pkg ∧
         m.gops = s.m.gops.map (fun g => g.overtaken s.m.mem loc 8))) ∧
     (s.m.pkg.wiping = true →
       happens (.waitrunDone k) s s.m ∧ happens (.fenceDone k) s s.m ∧ happens (.signalStorePerformed k) s s.m) ∧
     (∀ j n, t.await = some (.position j n) → n ∉ (s.m.stream j).ret → happens (.waitrunDone k) s s.m) ∧
     (t.await = some .all → t.open_ ≠ [] → happens (.fenceDone k) s s.m) ∧
     (∀ c n rest, t.late = (c, n) :: rest → t.await = none → ∃ m m' : Mach, happens (.deferredStreamFault k) s m' ∧
       streamFaulted s.m m k.toNat c.toNat n.toNat ∧ m' = streamWith m k.toNat { m.stream k.toNat with late := rest }) ∧
     (t.await ≠ none → happens (.deferredStreamFault k) s s.m))

/-- R19, R21, R22, R24, R25, R268, R315, R318, R369: a waiting run whose resources are free, and due no self-test, is placed: its contexts
begin as R22 says, its teams are set up, its `launch` is complete; a placed run starts; in a wipe neither happens (log 34). A run whose
contexts have ended with nothing under way retires: its contexts and teams are released; a lost store or failed transfer that no context
took sets LATEF and interrupts the host; its position is RETIRED, or passes to its child, which waits for placement in its turn; where the
child's record is refused (0x03) or cannot be read (0x04) the position is RETIRED and its stream faults at its next command boundary. Maps
of retired runs become EMPTY, between two arrivals. No run is placed on a retired core, and waiting launches pass each other only as log 98
says. -/
def Sys2Proof.Claims.RunEvents : Prop :=
  ∀ (s : State) (id : Nat) (r : Run), awake s → s.m.run? id = some r →
    (r.placed = false → s.m.pkg.wiping = false → free s r → tested s r → ∃ m : Mach, happens (.runPlacement id) s m ∧
      m.run? id = some { r with placed := true } ∧
      (∀ j cl i x, r.clusters[j]? = some cl → (r.teamCtxs cl)[i]? = some x → (∀ y, r.ctxs.count y ≤ 1) →
        begins s.m r x j i (r.teamCtxs cl).length (m.ctx x)) ∧
      (∀ x, x ∉ r.ctxs → m.ctx x = s.m.ctx x) ∧
      (∀ cl ∈ r.clusters, ∃ t ∈ m.teams, t.rid = r.id ∧ t.cluster = cl ∧ t.ctxs = r.teamCtxs cl) ∧
      ((s.m.stream r.stream).await = some (.placement id) → m.stream r.stream = completed (s.m.stream r.stream))) ∧
    (r.placed = false → ¬ free s r ∨ ¬ tested s r → happens (.runPlacement id) s s.m) ∧
    (s.m.pkg.wiping = true → happens (.runPlacement id) s s.m ∧ happens (.runStart id) s s.m) ∧
    (r.placed = true → r.begun = false → s.m.pkg.wiping = false →
      happens (.runStart id) s { s.m with runs := s.m.runs.map (fun q => if q.id = id then { q with begun := true } else q) }) ∧
    (over_ s r → ∃ (m : Mach) (rest : List Run), happens (.runRetire id) s m ∧ released s r m rest ∧
      ((∃ x ∈ r.ctxs, ((s.m.ctx x).pend.pex = true ∧ (s.m.ctx x).pend.pexN ≠ 0) ∨ (s.m.ctx x).pend.ptf = true) →
        (m.stream r.stream).stat.getLsbD 16 = true ∧ m.irqs = s.m.irqs ++ [s.m.pkg.vector 2]) ∧
      (r.child = none → rest = [] ∧ positionRetired (s.m.stream r.stream) (m.stream r.stream) r.pos) ∧
      (∀ bin args, r.child = some (bin, args) →
        (∀ pc part es, s.m.readRecord (s.m.stream r.stream) bin = .ok (pc, part, es) → rest = [childRun s r bin args pc part es] ∧
          (m.stream r.stream).ret = (s.m.stream r.stream).ret ∧ (m.stream r.stream).open_ = (s.m.stream r.stream).open_) ∧
        (∀ c, s.m.readRecord (s.m.stream r.stream) bin = .error c → rest = [] ∧
          positionRetired (s.m.stream r.stream) (m.stream r.stream) r.pos ∧
          (m.stream r.stream).late = (s.m.stream r.stream).late ++ [(c, r.pos.extractLsb' 0 32)]))) ∧
    (r.begun = true → (∃ x ∈ r.ctxs, ¬ idle s.m x) → happens (.runRetire id) s s.m) ∧
    (∀ t : Nat, (∃ q ∈ (s.m.tail t).slots, s.m.run? q.2.rid = none) → (s.m.tail t).landing = none →
      happens (.retiredMapsEmpty t) s { s.m with tails := kput t { s.m.tail t with
        slots := (s.m.tail t).slots.filter (fun q => (s.m.run? q.2.rid).isSome) } s.m.tails }) ∧
    (∀ t : Nat, (s.m.tail t).landing ≠ none → happens (.retiredMapsEmpty t) s s.m)

/-- R13, R16, R25, R167, R19, R21, R22, R24, R268, R315, R318, R369. Its parts: `StreamEvents`; `RunEvents`. What rests on log entries 34,
37, 98 is the model's choice: each part names the clause. -/
def Obligations.StreamsAndRunsAdvance : Prop := Claims.StreamEvents ∧ Claims.RunEvents

namespace Sys2Proof.Claims

/-- Context `x` wakes and is to make its issue; `hit` says whether it keeps the word that its line was stored to. -/
def woken (s : State) (x : Nat) (hit : Bool) : Mach :=
  s.m.setCtx x (settledCtx s.m x { s.m.ctx x with status := .run, hit := hit, spin := [] })

/-- The engines' state has changed since the flags last settled. -/
def flagsMoved (s : State) (x : Nat) : Prop := s.m.engineFlags x ≠ (s.m.ctx x).regs.fs

/-- Nothing that the team issued is still to deliver its data, no fault waits, no handler serves one, and no release is under way
(R37, R317, R319). -/
def teamSettled (s : State) (t : Team) : Prop :=
  s.m.quiet t = true ∧ t.reports = [] ∧ t.serving = none ∧ t.gate = none

/-- The store buffer of a team after a commit (R239): every entry in it is committed, in its order; what other teams issued stays, and what
waits for its tokens, which has not entered the buffer (R245). -/
def bufferCommitted (m m' : Mach) (rid cl : Nat) : Prop :=
  m'.gops.length = m.gops.length ∧ ∀ (j : Nat) (g : GOp), m.gops[j]? = some g → ∃ h : GOp, m'.gops[j]? = some h ∧
    (g.rid = rid ∧ g.cluster = cl ∧ g.needs = [] → h.committed = true ∧ h = { g with committed := true, batch := h.batch }) ∧
    (¬ (g.rid = rid ∧ g.cluster = cl ∧ g.needs = []) → h = g)

/-- Where the snapshot of an open generator barrier lies (R330): at the offset, in the cluster scratchpad's window, that the context of
lowest rank brought to it; every context before it has ended. -/
def snapshotBase (s : State) (t : Team) (restore : Bool) (loc : Nat) : Prop :=
  ∃ j x off c, t.ctxs[j]? = some x ∧ (s.m.ctx x).status = .parked (.gen restore off c) ∧
    (∀ (i y : Nat), i < j → t.ctxs[i]? = some y → (s.m.ctx y).status = .ended) ∧ loc = (s.m.window x .lk).1 + off.toNat

/-- Byte `i` of a context's 128 bytes of the snapshot (R323, R330): 32 bytes for each generator, its counter, its key, zeros. -/
def snapshotByte (r : Regs) (i : Nat) : Byte :=
  if i % 32 < 16 then (rget (i / 32) r.genC).extractLsb' (8 * (i % 32)) 8
  else if i % 32 < 24 then (rget (i / 32) r.genK).extractLsb' (8 * (i % 32 - 16)) 8
  else 0

/-- What the undo log, newest first, holds of the byte at `a` and of row `r` of tile `t` of core `k` (R38, R39): applied newest first, the
oldest record stays. -/
def oldByte (log : List Undo) (a : Nat) : Option Byte :=
  log.reverse.findSome? (fun u => match u with
    | .line _ l old => if l ≤ a then old[a - l]? else none
    | _ => none)
def oldRow (log : List Undo) (k t r : Nat) : Option (BitVec 8192 × BitVec 128) :=
  log.reverse.findSome? (fun u => match u with
    | .row k' t' r' m e => if k' = k ∧ t' = t ∧ r' = r then some (m, e) else none
    | _ => none)

/-- An operation of the team that a rollback does not withdraw: a store or a reduction at memory that has been committed (R39). -/
def stays (t : Team) (g : GOp) : Prop :=
  ¬ (g.rid = t.rid ∧ g.cluster = t.cluster) ∨ (g.committed = true ∧ ((∃ b, g.act = .store b) ∨ ∃ o ws, g.act = .red o ws))

end Sys2Proof.Claims

/-- R29, R30, R32, R33, R53, R183 to R186, R321: a context whose share is 0 is pre-empted and resumes with its share, with a group boundary
at which a `wait` is made again (the model's choice, log 85); a parked context wakes for what it waits for, with a group boundary, and stays
parked otherwise; a `waita` may wake for no cause, but, of a remote, CXL or TSO page, only once its read has performed. -/
def Sys2Proof.Claims.PreemptionAndWakes : Prop :=
  ∀ (s : State) (x : Nat), awake s →
    (let c := s.m.ctx x
     (c.status ≠ .absent → c.preempt = false → c.share = 0 → (∀ l, c.status ≠ .parked (.spin l)) →
       happens (.preempt x) s (s.m.setCtx x { c with preempt := true, ibuf := [] })) ∧
     (∀ l, c.status = .parked (.spin l) → c.preempt = false → c.share = 0 →
       happens (.preempt x) s (s.m.setCtx x { c with preempt := true, ibuf := [], status := .run })) ∧
     (c.share ≠ 0 → c.preempt = false → happens (.preempt x) s s.m) ∧
     (c.preempt = true → c.share ≠ 0 → happens (.contextResume x) s (s.m.setCtx x
       (settledCtx s.m x { c with preempt := false, status := match c.status with
         | .parked (.flags _) => .run
         | q => q }))) ∧
     (∀ l, c.status = .parked (.spin l) → c.hit = true ∨ flagsMoved s x → happens (.spinWake x) s (woken s x false)) ∧
     (∀ l, c.status = .parked (.spin l) → c.hit = false → ¬ flagsMoved s x → happens (.spinWake x) s s.m) ∧
     (∀ l, c.status = .parked (.bar l) → happens (.barWaitWake x) s (if c.hit then woken s x false else s.m)) ∧
     (∀ l k, c.status = .parked (.any l k) → happens (.waitanyWake x) s (if c.hit then woken s x false else s.m)) ∧
     (∀ l, c.status = .parked (.line l) → happens (.waitaWake x) s (woken s x true)) ∧
     (∀ i, c.status = .parked (.read i) → (i ∈ s.m.ops → happens (.waitaWake x) s s.m) ∧
       (i ∉ s.m.ops → happens (.waitaWake x) s (s.m.setCtx x (settledCtx s.m x
         { c with readAt := some c.ctl.pc, status := .run, hit := false, spin := [] })))) ∧
     (∀ k, c.status = .parked (.flags k) → flagsMoved s x → happens (.waitWake x) s (woken s x false)) ∧
     (∀ k, c.status = .parked (.flags k) → ¬ flagsMoved s x → happens (.waitWake x) s s.m))

/-- R36 to R38, R242, R319: when every context of a team waits at `tbar` or has ended, the team takes its checkpoint and its store buffer
commits; when the entries committed there have performed, the waiting contexts go on. A team whose buffer or log is full takes a forced
checkpoint, which commits and is counted. That a checkpoint waits until nothing is under way in the team is the model's choice (log 19). -/
def Sys2Proof.Claims.TeamBarrierAndForcedCheckpoint : Prop :=
  ∀ (s : State) (rid cl : Nat) (t : Team), awake s → s.m.team? rid cl = some t →
    (let at_ := fun (x : Nat) => (s.m.ctx x).status = .parked .tbar
     (teamSettled s t → (∃ x ∈ t.ctxs, at_ x) → (∀ x ∈ t.ctxs, at_ x ∨ (s.m.ctx x).status = .ended) → ∃ m : Mach,
       happens (.tbarRelease rid cl) s m ∧ bufferCommitted s.m m rid cl ∧ m.ctxs = s.m.ctxs ∧ m.mem = s.m.mem ∧
       ∃ u, m.team? rid cl = some u ∧ u.undo = [] ∧ u.cut = s.m.nextId ∧ u.ctxs = t.ctxs ∧ u.ckpt.map (fun p => p.1) = t.ctxs ∧
         (∀ l, u.gate = some l → ∀ g ∈ s.m.gops, g.rid = rid → g.cluster = cl → g.committed = false → g.id ∈ l) ∧ u.gate ≠ none) ∧
     (t.gate = none → ((∃ x ∈ t.ctxs, ¬ at_ x ∧ (s.m.ctx x).status ≠ .ended) ∨ ¬ teamSettled s t) →
       happens (.tbarRelease rid cl) s s.m) ∧
     (∀ l, t.gate = some l → (∀ g ∈ s.m.gops, g.id ∉ l) → t.ctxs.Nodup → ∃ m : Mach, happens (.tbarRelease rid cl) s m ∧
       (∀ x ∈ t.ctxs, at_ x → (m.ctx x).status = .run ∧ (m.ctx x).groupW = []) ∧
       (∀ x, x ∉ t.ctxs ∨ ¬ at_ x → m.ctx x = s.m.ctx x) ∧ ∃ u, m.team? rid cl = some u ∧ u = { t with gate := none }) ∧
     (∀ l, t.gate = some l → (∃ g ∈ s.m.gops, g.id ∈ l) → happens (.tbarRelease rid cl) s s.m) ∧
     (t.full = true → s.m.quiet t = true → t.reports = [] → t.gate = none → ∃ m : Mach, happens (.bufferFullCheckpoint rid cl) s m ∧
       bufferCommitted s.m m rid cl ∧ m.ctxs = s.m.ctxs ∧ m.mem = s.m.mem ∧
       ∃ u, m.team? rid cl = some u ∧ u.full = false ∧ u.undo = [] ∧ u.cut = s.m.nextId ∧ u.ckpt.map (fun p => p.1) = t.ctxs ∧
         ∀ x ∈ t.ctxs, (s.m.ctx x).trp.handler = false → ∃ n, (x, n) ∈ u.ckpt ∧ n.regs = (s.m.ctx x).regs ∧
           n.ctl = (s.m.ctx x).ctl ∧ n.drains = (s.m.ctx x).drains) ∧
     (t.full = false → happens (.bufferFullCheckpoint rid cl) s s.m))

/-- R39, R40, R41, R315 to R317, R330: a reported fault is delivered: the team rolls back and the context struck by the earliest one enters
its handler with RB = 1, its team waiting for it; a run that a double fault has stopped keeps its state. A generator barrier at which the
whole team waits is passed: `ckptg` has written every context's generators to the snapshot, in rank order, `replayg` has loaded those of
every context that arrived. It is passed when no local access of the team is under way (the model's choice, log 33). -/
def Sys2Proof.Claims.FaultDeliveryAndGeneratorRelease : Prop :=
  ∀ (s : State) (rid cl : Nat) (t : Team), awake s → s.m.team? rid cl = some t →
    (∀ r, r ∈ t.reports → (∀ q ∈ t.reports, q ≠ r → r.no < q.no) → t.serving = none → s.m.runStopped rid = false → ∃ m : Mach,
      happens (.faultDelivery rid cl) s (m.enter r.ctx r.pc (r.cause ||| 0x8000) r.addr) ∧
      m = (s.m.rollback t).modTeam t.rid t.cluster (fun u => { u with serving := some r.ctx })) ∧
    (t.reports = [] ∨ t.serving ≠ none ∨ s.m.runStopped rid = true → happens (.faultDelivery rid cl) s s.m) ∧
    (∀ restore, t.serving = none → t.reports = [] → (∀ o ∈ s.m.locq, o.ctx ∉ t.ctxs) → t.ctxs.Nodup →
      (∃ x ∈ t.ctxs, (s.m.ctx x).status ≠ .ended) →
      (∀ x ∈ t.ctxs, (s.m.ctx x).status = .ended ∨ ∃ off c, (s.m.ctx x).status = .parked (.gen restore off c)) → ∃ m : Mach,
      happens (.generatorBarrierRelease rid cl) s m ∧
      (∀ x ∈ t.ctxs, (s.m.ctx x).status ≠ .ended → (m.ctx x).status = .run) ∧
      (∀ x, x ∉ t.ctxs → (m.ctx x).regs = (s.m.ctx x).regs) ∧
      (restore = false → ∀ x ∈ t.ctxs, (m.ctx x).regs.genC = (s.m.ctx x).regs.genC ∧ (m.ctx x).regs.genK = (s.m.ctx x).regs.genK) ∧
      (restore = false → ∀ loc, snapshotBase s t restore loc →
        (∀ (p x i : Nat), t.ctxs[p]? = some x → i < 128 → readByte m.mem (loc + 128 * p + i) = snapshotByte (s.m.ctx x).regs i) ∧
        ∀ a, a < loc ∨ loc + 128 * t.ctxs.length ≤ a → readByte m.mem a = readByte s.m.mem a) ∧
      (restore = true → m.mem = s.m.mem ∧ ∀ loc, snapshotBase s t restore loc → ∀ (p x k : Nat), t.ctxs[p]? = some x → k < 4 →
        ((s.m.ctx x).status = .ended → (m.ctx x).regs = (s.m.ctx x).regs) ∧
        ((s.m.ctx x).status ≠ .ended →
          (rget k (m.ctx x).regs.genC).toNat = readLE s.m.mem (loc + 128 * p + 32 * k) 16 ∧
          (rget k (m.ctx x).regs.genK).toNat = readLE s.m.mem (loc + 128 * p + 32 * k + 16) 8))) ∧
    ((∃ x ∈ t.ctxs, (s.m.ctx x).status ≠ .ended ∧ (s.m.ctx x).status.barrier ≠ 2 ∧ (s.m.ctx x).status.barrier ≠ 3) →
      happens (.generatorBarrierRelease rid cl) s s.m)

/-- R38, R39, R255, R316: a rollback of a team. Its stores and reductions that have not been committed are gone, those that have and every
operation of another team stay; each line and tile row in its undo log holds what the oldest record since the checkpoint says, and no other
byte or row changes; each context has the registers, the place in its program, the exposed results and the stall of its checkpoint, in run
mode, and nothing of it in its engines; pending faults stand; the log, the reports and the wish for a checkpoint are gone; ROLLBK has
counted it. -/
def Sys2Proof.Claims.RollbackRestoresTheTeam : Prop :=
  ∀ (m : Mach) (t : Team), m.team? t.rid t.cluster = some t → (t.ckpt.map (fun p => p.1)).Nodup →
    (let u := m.rollback t
     (∀ g ∈ u.gops, g.rid = t.rid → g.cluster = t.cluster → ((∃ b, g.act = .store b) ∨ ∃ o ws, g.act = .red o ws) → g.committed = true) ∧
     (∀ g ∈ m.gops, stays t g → ∃ h ∈ u.gops, h = { g with got := h.got }) ∧
     (∀ a, readByte u.mem a = (oldByte t.undo a).getD (readByte m.mem a)) ∧
     (∀ k n r, (rget r ((u.core k).tile n).mant, rget r ((u.core k).tile n).exps) =
       (oldRow t.undo k n r).getD (rget r ((m.core k).tile n).mant, rget r ((m.core k).tile n).exps)) ∧
     (∀ x n, (x, n) ∈ t.ckpt →
       (let c := u.ctx x
        c.regs = { n.regs with fs := (m.ctx x).regs.fs } ∧ c.ctl = { n.ctl with lastB := [] } ∧ c.replay = n.replay ∧
        c.drains = n.drains ∧ c.trp = { (m.ctx x).trp with handler := false, ot := [], held := none } ∧ c.readAt = none ∧ c.vq = [] ∧ c.qq = [] ∧ c.busy = [] ∧ c.groupW = [] ∧
        ((m.ctx x).trp.handler = false → c.pend = (m.ctx x).pend) ∧ c.preempt = (m.ctx x).preempt ∧ c.share = (m.ctx x).share)) ∧
     (∀ x, (∀ n, (x, n) ∉ t.ckpt) → u.ctx x = { m.ctx x with hit := (u.ctx x).hit, spin := (u.ctx x).spin } ∧
       unmarked (u.ctx x).spin = unmarked (m.ctx x).spin) ∧
     u.team? t.rid t.cluster = some { t with undo := [], full := false, reports := [] } ∧
     (∀ r, m.run? t.rid = some r → ∃ q, u.run? t.rid = some q ∧ rget 4 q.cnt = rget 4 r.cnt + 1 ∧ q.placed = r.placed ∧ q.begun = r.begun) ∧
     u.irqs = m.irqs ∧ u.streams = m.streams)

/-- R29, R30, R32, R33, R53, R183, R186, R321, R36, R38, R242, R319, R39, R40, R41, R315, R317, R330, R255, R316. Its parts:
`PreemptionAndWakes`; `TeamBarrierAndForcedCheckpoint`; `FaultDeliveryAndGeneratorRelease`; `RollbackRestoresTheTeam`. What rests on log
entries 19, 33, 85 is the model's choice: each part names the clause. -/
def Obligations.ContextsWakeMeetAndAreReleased : Prop :=
  Claims.PreemptionAndWakes ∧ Claims.TeamBarrierAndForcedCheckpoint ∧ Claims.FaultDeliveryAndGeneratorRelease ∧ Claims.RollbackRestoresTheTeam

namespace Sys2Proof.Claims

/-- The operations that one waits for have completed or faulted (R245). -/
def needsMet (m : Mach) (needs : List Nat) : Prop := ∀ k ∈ needs, k ∉ m.ops

/-- The machine without operation `id` in flight. -/
def opOver (m : Mach) (id : Nat) : Mach := { m with ops := m.ops.filter (fun k => k ≠ id) }

/-- The registers after a V or QC operation has written its destinations (R190, R205); `g0` stays 0. -/
def written (r : Regs) (o : VOp) : Regs :=
  { r with
    v := o.vW.foldl (fun acc p => rput p.1 p.2 acc) r.v
    m := o.mW.foldl (fun acc p => rput p.1 p.2 acc) r.m
    g := rput 0 0 (o.gW.foldl (fun acc p => rput p.1 p.2 acc) r.g) }

/-- The flags kept for a trapped program while its handler runs (R110, R314): an operation issued before the handler adds its own. -/
def owedTo (c : Ctx) (k id : Nat) (fl : BitVec 5) : RMap 5 :=
  if c.trp.handler = true ∧ id < c.trp.from_ then rput k (rget k c.late ||| fl) c.late else c.late

/-- The registers that were pending for it. -/
def writtenIds (o : VOp) : List RegId :=
  o.vW.map (fun p => RegId.v p.1) ++ o.mW.map (fun p => RegId.m p.1) ++ o.gW.map (fun p => RegId.g p.1)

/-- The operation stands first in its local queue for its context and for its scratchpad (R238). -/
def firstLocal (m : Mach) (o : LocalOp) : Prop :=
  ∃ before after, m.locq = before ++ o :: after ∧ ∀ p ∈ before, p.id ≠ o.id ∧ p.ctx ≠ o.ctx ∧ padOf p.act.loc ≠ padOf o.act.loc

/-- A load, a tile load or an atomic of the LG word of issue `no` of context `x` has not performed: the scratchpad stores of the issue follow
it (R237). -/
def lgReadDue (m : Mach) (x no : Nat) : Prop :=
  ∃ g ∈ m.gops, g.ctx = x ∧ g.no = no ∧
    ((∃ d, g.act = .read d ∧ d ≠ .none ∧ ∀ op, d ≠ .feed op) ∨ ∃ op b c r, g.act = .amo op b c r)

/-- Memory and the global operations after some writes, in their order: a read that a later read of its context has passed takes the bytes
that they share before a write changes them (R240). -/
def afterWrites (m : Mach) (w : List (Nat × List Byte)) : Memory × List GOp :=
  w.foldl (fun acc p => (writeBytes acc.1 p.1 p.2, acc.2.map (fun g => g.overtaken acc.1 p.1 p.2.length))) (m.mem, m.gops)

/-- The machine `m'` is `m` with the access `o` gone from the local queue and the writes `w` made; registers, control state and status of
every context, and what it has in flight, are as they were. -/
def localDone (m m' : Mach) (o : LocalOp) (w : List (Nat × List Byte)) (ops : List Nat) (rets : List Ret) : Prop :=
  m'.mem = (afterWrites m w).1 ∧ m'.gops = (afterWrites m w).2 ∧ m'.locq = m.locq.filter (fun p => p.id ≠ o.id) ∧ m'.ops = ops ∧
    m'.rets = rets ∧ m'.cores = m.cores ∧ m'.pkg = m.pkg ∧
    ∀ x, (m'.ctx x).regs = (m.ctx x).regs ∧ (m'.ctx x).ctl = (m.ctx x).ctl ∧ (m'.ctx x).status = (m.ctx x).status ∧
      (m'.ctx x).trp = (m.ctx x).trp ∧ (m'.ctx x).replay = (m.ctx x).replay

/-- What an atomic writes (R176): nothing, where `cas` finds another value than it expects. -/
def amoWrites (mem : Memory) (op : AmoOp) (loc : Nat) (b c : W64) : List (Nat × List Byte) :=
  let old : W64 := BitVec.ofNat 64 (readLE mem loc 8)
  match op with
  | .add => [(loc, lowBytes 8 ((old.toNat + b.toNat) % 2 ^ 64))]
  | .min => [(loc, lowBytes 8 (if b.toInt < old.toInt then b.toNat else old.toNat))]
  | .max => [(loc, lowBytes 8 (if old.toInt < b.toInt then b.toNat else old.toNat))]
  | .and => [(loc, lowBytes 8 (old &&& b).toNat)]
  | .or => [(loc, lowBytes 8 (old ||| b).toNat)]
  | .xor => [(loc, lowBytes 8 (old ^^^ b).toNat)]
  | .swp => [(loc, lowBytes 8 b.toNat)]
  | .cas => if old = c then [(loc, lowBytes 8 b.toNat)] else []

/-- Memory after an atomic (R176). -/
def afterAmo (mem : Memory) (op : AmoOp) (loc : Nat) (b c : W64) : Memory :=
  (amoWrites mem op loc b c).foldl (fun acc p => writeBytes acc p.1 p.2) mem

/-- BAR_UPDATE (R182): ARR and SECT grow by the given amounts modulo 2^32; when both are 0 the phase advances and both are reset to
their initial values, and the other fields stay. -/
def barrierStep (b b' : BitVec 128) (da ds : BitVec 32) : Prop :=
  let arr := b.extractLsb' 32 32 + da
  let sect := b.extractLsb' 64 32 + ds
  b'.extractLsb' 4 28 = b.extractLsb' 4 28 ∧ b'.extractLsb' 96 32 = b.extractLsb' 96 32 ∧
  ((arr = 0 ∧ sect = 0) → b'.toNat % 16 = (b.toNat + 1) % 16 ∧ (b'.extractLsb' 32 32).toNat = (b.extractLsb' 96 16).toNat ∧
    (b'.extractLsb' 64 32).toNat = (b.extractLsb' 112 16).toNat) ∧
  (¬ (arr = 0 ∧ sect = 0) → b'.toNat % 16 = b.toNat % 16 ∧ b'.extractLsb' 32 32 = arr ∧ b'.extractLsb' 64 32 = sect)

/-- What the arrival of the bytes `bs` does to a destination (R67, R172, R173): `c` before and `d` after. -/
def delivered (c d : Ctx) (id : Nat) (bs : List Byte) : Dest → Prop
  | .vec r n => d.busy = c.busy.filter (fun q => q ≠ .v r) ∧ (∀ y, y ≠ r → rget y d.regs.v = rget y c.regs.v) ∧
      ∀ j < 4096, el 8 (rget r d.regs.v) j = if j < 4 * n then bs.getD j 0 else el 8 (rget r c.regs.v) j
  | .mask r => d.busy = c.busy.filter (fun q => q ≠ .m r) ∧ (∀ y, y ≠ r → rget y d.regs.m = rget y c.regs.m) ∧
      ∀ j < 128, el 8 (rget r d.regs.m) j = bs.getD j 0
  | .scal r sgn => d.busy = c.busy.filter (fun q => q ≠ .g r) ∧ ∀ n : BitVec 6, d.regs.rg n =
      if n = BitVec.ofNat 6 r ∧ n ≠ 0 then
        (if sgn then BitVec.ofInt 64 (Int.bmod (leNat bs) (2 ^ (8 * bs.length))) else BitVec.ofNat 64 (leNat bs))
      else c.regs.rg n
  | .tile r f t => d.busy = c.busy.filter (fun q => q ≠ .v r) ∧ (∀ y, y ≠ r → rget y d.regs.v = rget y c.regs.v) ∧
      ∀ i j, i < 32 → j < 32 →
        (let p := if t then tilePos j i else tilePos i j
         (el 32 (rget r d.regs.v) (tilePos i j)).toNat = widenElem f (bs.getD (tileSize f + p / 16) 0) (payloadElem f bs p) % 2 ^ 32)
  | .scale => d.regs = c.regs ∧ d.replay.length = c.replay.length ∧ ∀ (j : Nat) (e : Replay), c.replay[j]? = some e →
      (e.src ≠ some id → d.replay[j]? = some e) ∧
      (e.src = some id → ∃ f : Replay, d.replay[j]? = some f ∧ f = { e with data := f.data, src := none } ∧
        ∀ i < 16, el 8 f.data i = (if bs.length = 1 then List.replicate 128 (bs.headD 0) else bs).getD (e.byte.toNat + i) 0)
  | _ => d.regs = c.regs ∧ d.replay = c.replay

/-- The one global operation of that number, which waits for no other operation and has not left for its home. -/
def gopAt (m : Mach) (id : Nat) (g : GOp) : Prop := g ∈ m.gops ∧ g.id = id ∧ (∀ h ∈ m.gops, h.id = id → h = g) ∧ g.needs = [] ∧ g.sent = false

/-- The machine without the global operation `id`. -/
def gone (m : Mach) (id : Nat) : Mach := { m with gops := m.gops.filter (fun g => g.id ≠ id) }

/-- The requests of run `rid` that the L2 slices of the addresses `pas` have served are counted (R363). -/
def servedBy (m : Mach) (rid : Nat) (pas : List Nat) : Mach :=
  let more := fun (l : KMap Nat) => (pas.filter hbmPopulated).foldl (fun acc pa => kput (pa / 2 ^ 33) (kgetD 0 (pa / 2 ^ 33) acc + 1) acc) l
  { m with runs := m.runs.map (fun r => if r.id == rid then { r with served := more r.served } else r) }

/-- No V or QC operation of that number is to begin, and no X or M operation of it waits. -/
def noEngineHas (m : Mach) (id : Nat) : Prop :=
  (∀ p ∈ m.ctxs, m.headV p.2.vq id = false ∧ m.headV p.2.qq id = false ∧ ∀ q ∈ p.2.xq, q.id = id → q.begun = true) ∧
    ∀ p ∈ m.cores, ∀ q ∈ p.2.mq, q.id ≠ id

/-- `o` is the next operation of the X queue of context `x` to begin: those before it are sends that have begun, what it waits for is over
(R245, R271), and of a commit point the second checkpoint holds it (R37, R277). -/
def nextX (m : Mach) (x : Nat) (o : EngOp) (before after : List EngOp) : Prop :=
  (m.ctx x).xq = before ++ o :: after ∧ o.ctx = x ∧ o.begun = false ∧ (∀ q ∈ before ++ after, q.id ≠ o.id) ∧
    (x, m.ctx x) ∈ m.ctxs ∧ (∀ p ∈ m.ctxs, p = (x, m.ctx x) ∨ ∀ q ∈ p.2.xq, q.id ≠ o.id) ∧
    (∀ p ∈ m.ctxs, m.headV p.2.vq o.id = false ∧ m.headV p.2.qq o.id = false) ∧
    (∀ q ∈ before, q.begun = true ∧ isSend q.ins = true) ∧ needsMet m o.needs ∧ (m.leavesTeam o = true → m.keptFor o = true)

/-- `o` is the next operation of core `k`'s M queue to begin (R216, R245). -/
def nextM (m : Mach) (k : Nat) (o : EngOp) (before after : List EngOp) : Prop :=
  (m.core k).mq = before ++ o :: after ∧ (∀ q ∈ before, q.begun = true) ∧ o.begun = false ∧ (∀ q ∈ before ++ after, q.id ≠ o.id) ∧
    (k, m.core k) ∈ m.cores ∧ (∀ p ∈ m.cores, p = (k, m.core k) ∨ ∀ q ∈ p.2.mq, q.id ≠ o.id) ∧ needsMet m o.needs ∧
    ∀ p ∈ m.ctxs, m.headV p.2.vq o.id = false ∧ m.headV p.2.qq o.id = false ∧ ∀ q ∈ p.2.xq, q.id = o.id → q.begun = true

/-- `g` is the first LG operation of its context that waits, and what it waits for is over (R245). -/
def nextG (m : Mach) (g : GOp) : Prop :=
  ∃ pre post, m.gops = pre ++ g :: post ∧ g.needs ≠ [] ∧ g.isFeed = false ∧ (∀ h ∈ pre ++ post, h.id ≠ g.id) ∧
    (∀ h ∈ pre, h.ctx = g.ctx → h.needs = [] ∨ h.isFeed = true) ∧ needsMet m g.needs ∧ noEngineHas m g.id

/-- The header of R258, field by field. -/
def headerWord (b : Box) (cnt end_ : Nat) (c : List Nat) (tid : BitVec 12) : BitVec 128 :=
  BitVec.ofNat 128 (b.stream.toNat * 2 ^ 112 + b.fmt * 2 ^ 108 + (b.dim - 1) * 2 ^ 106 + cnt * 2 ^ 100 + end_ * 2 ^ 99 +
    c.getD 3 0 * 2 ^ 76 + c.getD 2 0 * 2 ^ 56 + c.getD 1 0 * 2 ^ 36 + c.getD 0 0 * 2 ^ 16 + tid.toNat * 2 ^ 4)

/-- A packet of the send `o` to its member `j` (R258, R279): the members' transfer numbers follow each other. -/
def packetOf (m : Mach) (o : EngOp) (j cnt end_ : Nat) (c : List Nat) (bs : List Byte) : LandPkt :=
  { src := m.pkg.chip, core := BitVec.ofNat 8 (coreOf o.ctx), tenant := m.tenantOf o.rid, tail := destTail (o.dests.getD j 0)
    hdr := headerWord o.box cnt end_ c ((o.word 6).extractLsb' 0 12 + BitVec.ofNat 12 j), payload := bs }

/-- The messages of the send `o` to its member `j`, in the order of R259: a data packet, or a contribution (R280), for each run of its box
that it reads, then the end marker with their number and, where it has met a byte in error (R276), the cause. -/
def sentTo (m : Mach) (o : EngOp) (j : Nat) : List Sent :=
  let d := o.dests.getD j 0
  let chip : BitVec 12 := BitVec.ofNat 12 (d.toNat / 2 ^ 16)
  let all := if o.box.empty then [] else o.box.runs
  let cause := if o.goodRuns.length = all.length then 0 else 0x23
  o.goodRuns.map (fun r =>
    let p := packetOf m o j (r.2 - 1) 0 (o.box.coords r) (packElems o.box.fmt ((List.range r.2).map (fun i =>
      readElem m.mem o.box.fmt ((o.word 5).toNat) (o.box.pos r.1 + i))))
    match xredOp o.ins with
    | some op => .xred chip { pkt := p, op := op, nc := BitVec.ofNat 6 (d.toNat / 2 ^ 56), rank := BitVec.ofNat 6 (d.toNat / 2 ^ 50),
                              gen := BitVec.ofNat 4 (d.toNat / 2 ^ 46) }
    | none => .land chip p) ++
  [.land chip (packetOf m o j 0 1 o.box.org (lowBytes 4 o.goodRuns.length ++ lowBytes 4 cause))]

/-- The machine after `m` has sent a list of messages, each to the package that it names. -/
def sentAll (m : Mach) (l : List Sent) : Mach :=
  l.foldl (fun acc p => match p with
    | .land c _ | .xred c _ => acc.post c p
    | _ => acc) m

end Sys2Proof.Claims

/-- R55, R110, R190, R205, R216, R245: the operation at the head of a V or QC queue begins once what it waits for is over; one that has
begun completes: it writes the destinations computed at its issue, they are no longer pending, and its flags wait for the group
boundary. An M operation begins, and the read of its feed with it; it completes with its whole effect on its core. An LG operation that
waits begins with all that its issue made; a store then enters the team store buffer, and its token is complete. -/
def Sys2Proof.Claims.EngineOperationsBeginAndComplete : Prop :=
  ∀ (s : State) (x k : Nat) (o : VOp) (e : EngOp) (g : GOp), awake s →
    (let c := s.m.ctx x
     let core := s.m.core k
     (∀ rest, kget x s.m.ctxs = some c → (∀ p ∈ s.m.ctxs, s.m.headV p.2.vq o.id = true → p = (x, c)) →
       c.vq = o :: rest → o.begun = false → needsMet s.m o.needs → (∀ q ∈ rest, q.id ≠ o.id) → (x, c) ∈ s.m.ctxs →
       happens (.engineBegin o.id) s (s.m.setCtx x { c with vq := { o with begun := true } :: rest })) ∧
     (∀ rest, kget x s.m.ctxs = some c → (∀ p ∈ s.m.ctxs, s.m.headV p.2.vq o.id = false) →
       (∀ p ∈ s.m.ctxs, s.m.headV p.2.qq o.id = true → p = (x, c)) → c.qq = o :: rest → o.begun = false → needsMet s.m o.needs →
       (∀ q ∈ rest, q.id ≠ o.id) → (x, c) ∈ s.m.ctxs →
       happens (.engineBegin o.id) s (s.m.setCtx x { c with qq := { o with begun := true } :: rest })) ∧
     (∀ before after, nextM s.m k e before after → ∃ m : Mach, happens (.engineBegin e.id) s m ∧
       (m.core k).mq = before ++ { e with begun := true } :: after ∧ (∀ j, j ≠ k → m.core j = s.m.core j) ∧ m.mem = s.m.mem ∧
       m.ctxs = s.m.ctxs ∧ m.ops = s.m.ops ∧ (∀ h ∈ m.gops, h.act = .read (.feed e.id) → h.needs = []) ∧
       ((∀ h ∈ s.m.gops, h.act ≠ .read (.feed e.id)) → m.gops = s.m.gops)) ∧
     (nextG s.m g → ∃ m : Mach, happens (.engineBegin g.id) s m ∧ m.mem = s.m.mem ∧
       (∀ h ∈ m.gops, h.id = g.id → h.needs = [] ∧ h.act = g.act ∧ h.segs = g.segs) ∧
       (∀ bs, g.act = .store bs → m.ops = s.m.ops.filter (fun i => i ≠ g.id)) ∧
       (∀ op ws, g.act = .red op ws → m.ops = s.m.ops.filter (fun i => i ≠ g.id))) ∧
     (∀ rest, c.vq = o :: rest → o.begun = true → happens (.vOpComplete x) s (opOver (s.m.setCtx x { c with
       regs := written c.regs o, busy := c.busy.filter (fun q => q ∉ writtenIds o), vq := rest, xfV := c.xfV ||| o.flags,
       late := owedTo c 1 o.id o.flags }) o.id)) ∧
     (∀ rest, c.vq = o :: rest → o.begun = false → happens (.vOpComplete x) s s.m) ∧
     (∀ rest, c.qq = o :: rest → o.begun = true → happens (.qcOpComplete x) s (opOver (s.m.setCtx x { c with
       regs := written c.regs o, busy := c.busy.filter (fun q => q ∉ writtenIds o), qq := rest, xfQ := c.xfQ ||| o.flags,
       late := owedTo c 2 o.id o.flags }) o.id)) ∧
     (∀ rest, core.mq = e :: rest → e.begun = true → e.fed = true → e.ins ≠ .nop → ∃ m : Mach, happens (.mOpComplete k) s m ∧
       (let out := core.perform e (e.gather s.m.mem)
        m.core k = { out.1 with mq := rest } ∧ (∀ j, j ≠ k → m.core j = s.m.core j) ∧ m.mem = s.m.mem ∧
        (m.ctx e.ctx).regs.v = out.2.1.foldl (fun acc p => rput p.1 p.2 acc) (s.m.ctx e.ctx).regs.v ∧
        (m.ctx e.ctx).xfM = (s.m.ctx e.ctx).xfM ||| out.2.2 ∧ (∀ y, y ≠ e.ctx → m.ctx y = s.m.ctx y) ∧
        m.ops = s.m.ops.filter (fun i => i ≠ e.id))) ∧
     (∀ rest, core.mq = e :: rest → e.begun = false → happens (.mOpComplete k) s s.m))

/-- R245, R258, R259, R267, R271, R276, R277, R279, R280, R282, R284: the next operation of an X queue begins. A send with room in its
Headrace reads its source and sends, to each destination, a packet for each run of its box in the order of R259, then the end marker
with their number; its transfers wait for their acknowledgements. A map operation goes to its Tailrace. `strays` takes the oldest entry of
its run's tenant, or zeros. `lnmsg` pushes its word while its pair has room. -/
def Sys2Proof.Claims.XOperationsBegin : Prop :=
  ∀ (s : State) (x : Nat) (o : EngOp) (before after : List EngOp), awake s → nextX s.m x o before after →
    (let k := coreOf x
     let core := s.m.core k
     let ten := s.m.tenantOf o.rid
     let loc := (o.word 0).toNat
     let over_ := fun (m : Mach) => (m.ctx x).xq = before ++ after ∧ m.ops = s.m.ops.filter (fun i => i ≠ o.id)
     (isSend o.ins = true → (core.xfers.filter (fun f => !f.done)).length + o.dests.length ≤ 256 → ∃ m : Mach,
       happens (.engineBegin o.id) s m ∧
       (let out := sentAll s.m ((List.range o.dests.length).flatMap (sentTo s.m o))
        m.net = out.net ∧ m.out = out.out ∧ m.mem = s.m.mem ∧
        (m.ctx x).xq = before ++ { o with begun := true, reads := [] } :: after ∧ (∀ y, y ≠ x → m.ctx y = s.m.ctx y) ∧
        (m.core k).xfers = core.xfers ++ (List.range o.dests.length).map (fun j =>
          { tid := (o.word 6).extractLsb' 0 12 + BitVec.ofNat 12 j, op := o.id, ctx := x, rid := o.rid, member := j,
            dest := o.dests.getD j 0, done := false, ok := false }))) ∧
     (isSend o.ins = true → 256 < (core.xfers.filter (fun f => !f.done)).length + o.dests.length → happens (.engineBegin o.id) s s.m) ∧
     (∀ t : BitVec 1, ((∃ j a, o.ins = .ldmap j a t) ∨ (∃ i j, o.ins = .swapmap i j t) ∨ ∃ j, o.ins = .retiremap j t) → ∃ m : Mach,
       happens (.engineBegin o.id) s m ∧ m.mem = s.m.mem ∧ m.tail (tailOf x t) = { s.m.tail (tailOf x t) with
         ops := (s.m.tail (tailOf x t)).ops ++ [{ ins := o.ins, ctx := x, rid := o.rid, id := o.id, loc := loc }] } ∧
       ∃ o' : EngOp, (m.ctx x).xq = before ++ o' :: after ∧ o'.begun = true ∧ o'.id = o.id) ∧
     (∀ (a : BitVec 6) (t : BitVec 1), o.ins = .strays a t →
       (let q := s.m.tail (tailOf x t)
        (∀ pre e post, q.strays = pre ++ e :: post → e.tenant = ten → (∀ f ∈ pre, f.tenant ≠ ten) → ∃ m : Mach,
          happens (.engineBegin o.id) s m ∧ over_ m ∧ m.mem = writeBytes s.m.mem loc e.bytes ∧
          m.tail (tailOf x t) = { q with strays := pre ++ post }) ∧
        ((∀ f ∈ q.strays, f.tenant ≠ ten) → ∃ m : Mach, happens (.engineBegin o.id) s m ∧ over_ m ∧
          m.mem = writeBytes s.m.mem loc (List.replicate 288 0) ∧ m.tails = s.m.tails))) ∧
     (∀ (n : BitVec 3) (a : BitVec 6), o.ins = .lnmsg n a → before = [] →
       (let l := core.link n.toNat
        (l.outb.length < 16 → l.bind.toNat / 256 % 4 = 0 → ∃ m : Mach, happens (.engineBegin o.id) s m ∧ over_ m ∧
          (m.core k).link n.toNat = { l with outb := l.outb ++ [(o.word 0, 4 * o.no + x % 4, l.bind)] } ∧ m.mem = s.m.mem) ∧
        (16 ≤ l.outb.length → happens (.engineBegin o.id) s s.m))))

/-- R38, R67, R172 to R174, R176, R182, R212, R233 to R238: a local access at the head of its queues performs: a load takes the bytes as they
stand, a store writes its bytes once the LG load or atomic of its issue has performed, an atomic reads and writes in one step, a barrier is
updated as R182 says; no register changes until the data return, which writes the destination and ends its wait. A line that run code
stores to has its old bytes logged before the first store since the checkpoint that changes it (that a store which changes nothing makes no
record is the model's reading, log 16). -/
def Sys2Proof.Claims.LocalAccessesPerformAndReturn : Prop :=
  ∀ (s : State) (o : LocalOp) (r : Ret), awake s →
    (let ops := s.m.ops.filter (fun k => k ≠ o.id)
     let ret := fun (bs : List Byte) => ({ id := o.id, ctx := o.ctx, slot := o.slot, dest := o.dest, bytes := bs } : Ret)
     (∀ segs, firstLocal s.m o → o.act = .load segs → o.dest ≠ .none → ∃ m : Mach, happens (.localPerform o.id) s m ∧
       localDone s.m m o [] s.m.ops (s.m.rets ++ [ret (segs.flatMap (fun p => readBytes s.m.mem p.1 p.2))])) ∧
     (∀ w, firstLocal s.m o → o.act = .store w → lgReadDue s.m o.ctx o.no → happens (.localPerform o.id) s s.m) ∧
     (∀ w, firstLocal s.m o → o.act = .store w → ¬ lgReadDue s.m o.ctx o.no → ∃ m : Mach, happens (.localPerform o.id) s m ∧ localDone s.m m o w ops s.m.rets) ∧
     (∀ loc bs t, firstLocal s.m o → o.act = .store [(loc, bs)] → ¬ lgReadDue s.m o.ctx o.no → (s.m.ctx o.ctx).trp.handler = false →
       s.m.team? (s.m.ctx o.ctx).rid (clusterOf o.ctx) = some t → ∃ (m : Mach) (u : Team), happens (.localPerform o.id) s m ∧
       m.team? (s.m.ctx o.ctx).rid (clusterOf o.ctx) = some u ∧ (∀ p ∈ t.undo, p ∈ u.undo) ∧
       ∀ l ∈ linesOf loc bs.length, readBytes m.mem (64 * l) 64 ≠ readBytes s.m.mem (64 * l) 64 → (∃ k old, .line k (64 * l) old ∈ u.undo) ∧
         ((∀ k old, .line k (64 * l) old ∉ t.undo) → .line (coreOf o.ctx) (64 * l) (readBytes s.m.mem (64 * l) 64) ∈ u.undo)) ∧
     (∀ op loc b c, firstLocal s.m o → o.act = .amo op loc b c → o.dest ≠ .none → ∃ m : Mach, happens (.localPerform o.id) s m ∧
       localDone s.m m o (amoWrites s.m.mem op loc b c) s.m.ops (s.m.rets ++ [ret (lowBytes 8 (readLE s.m.mem loc 8))])) ∧
     (∀ loc da ds, firstLocal s.m o → o.act = .bar loc da ds → ∃ (m : Mach) (b : BitVec 128), happens (.localPerform o.id) s m ∧
       localDone s.m m o [(loc, lowBytes 16 b.toNat)] ops s.m.rets ∧
       barrierStep (BitVec.ofNat 128 (readLE s.m.mem loc 16)) b da ds) ∧
     ((∃ before after, s.m.locq = before ++ o :: after ∧ (∀ p ∈ before, p.id ≠ o.id) ∧ ∃ p ∈ before, p.ctx = o.ctx) →
       happens (.localPerform o.id) s s.m) ∧
     (s.m.rets.find? (fun q => q.id == r.id) = some r → (∀ op, r.dest ≠ .feed op) → ∃ m : Mach, happens (.loadDataReturn r.id) s m ∧
       m.rets = s.m.rets.filter (fun q => q.id ≠ r.id) ∧ m.ops = s.m.ops.filter (fun i => i ≠ r.id) ∧ m.mem = s.m.mem ∧
       (∀ y, y ≠ r.ctx → m.ctx y = s.m.ctx y) ∧ delivered (s.m.ctx r.ctx) (m.ctx r.ctx) r.id r.bytes r.dest) ∧
     (∀ op, s.m.rets.find? (fun q => q.id == r.id) = some r → r.dest = .feed op → ∃ m : Mach, happens (.loadDataReturn r.id) s m ∧
       m.rets = s.m.rets.filter (fun q => q.id ≠ r.id) ∧ m.ctxs = s.m.ctxs ∧
       ∀ q ∈ (m.core (coreOf r.ctx)).mq, q.id = op → q.came.map (fun p => p.1) = q.feed.map (fun p => p.1)))

/-- R55, R110, R190, R205, R216, R245, R258, R259, R267, R271, R276, R277, R279, R280, R282, R284, R38, R67, R172, R174, R176, R182, R212,
R233, R238. Its parts: `EngineOperationsBeginAndComplete`; `XOperationsBegin`; `LocalAccessesPerformAndReturn`. What rests on log entry 16
is the model's choice: each part names the clause. -/
def Obligations.EnginesAndLocalAccessesPerform : Prop :=
  Claims.EngineOperationsBeginAndComplete ∧ Claims.XOperationsBegin ∧ Claims.LocalAccessesPerformAndReturn

/-- R153, R158, R159, R162 to R165, R187, R239 to R243, R245, R363: at their homes a committed store at the head of its channels writes its
bytes, a read that need not wait takes the bytes of memory under those of its team's stores, an atomic reads and writes in one step; a
`drain` ends when its tokens are complete and what else it waited for is gone, or, of a read, has begun; a walk that ends well is cached for its cluster and its core; a compressed block is expanded,
or its checksum fault reported against the operation's issue. -/
def Obligations.GlobalOperationsPerform : Prop :=
  ∀ (s : State) (g : GOp) (q : Seg) (x k : Nat) (root va : W64), awake s →
    (let id := g.id
     let local_ := gopAt s.m id g ∧ g.segs = [q] ∧ q.chip = none
     let here := gopAt s.m id g ∧ (∀ p ∈ g.segs, p.chip = none) ∧ (g.segs.map (fun p => p.off)).Nodup
     let covering := fun (t : TlbEnt) => t.root = root ∧ va.toNat / t.size = t.va.toNat / t.size
     let micro := fun (t : TlbEnt) => ({ s.m.core k with utlb := ((s.m.core k).utlb ++ [t]).drop ((s.m.core k).utlb.length + 1 - 64) } : Core)
     (∀ bs, local_ → g.act = .store bs → g.committed = true → s.m.entryWaits g = false →
       happens (.homePerform id) s (gone (servedBy (s.m.store q.pa bs) g.rid [q.pa]) id)) ∧
     (∀ bs, local_ → g.act = .store bs → g.committed = false → happens (.homePerform id) s s.m) ∧
     (∀ bs, local_ → g.act = .store bs → s.m.entryWaits g = true → happens (.homePerform id) s s.m) ∧
     (∀ op ws, local_ → g.act = .red op ws → g.committed = true → s.m.entryWaits g = false → ∃ (m : Mach) (p : RedPkt),
       happens (.homePerform id) s m ∧ m.net = s.m.net ++ [.red s.m.pkg.chip p] ∧ m.mem = s.m.mem ∧ p.op = op ∧ p.line = q.pa / 64 ∧
       p.words.map (fun w => w.2) = ws ∧ p.tag = id) ∧
     (∀ d, here → g.act = .read d → d ≠ .none → (∀ op, d ≠ .feed op) → g.got = [] → s.m.readWaits g = false → ∃ m : Mach,
       happens (.lgReadPerform id) s m ∧ m.mem = s.m.mem ∧ (∀ h ∈ m.gops, h.id ≠ id) ∧
       m.rets = s.m.rets ++ [{ id := id, ctx := g.ctx, slot := 10, dest := d, bytes := g.segs.flatMap (fun p => (List.range p.len).map (fun i =>
         (kget (p.off + i) g.own).getD (readByte s.m.mem (p.pa + i)))) }]) ∧
     (here → g.act = .read .none → g.got = [] → s.m.readWaits g = false → ∃ m : Mach, happens (.lgReadPerform id) s m ∧ m.mem = s.m.mem ∧
       m.rets = s.m.rets ∧ (∀ h ∈ m.gops, h.id ≠ id) ∧ m.ops = s.m.ops.filter (fun i => i ≠ id)) ∧
     (∀ d, here → g.act = .read d → s.m.readWaits g = true → happens (.lgReadPerform id) s s.m) ∧
     (∀ op b c rd, local_ → g.act = .amo op b c rd → s.m.amoWaits g = false → ∃ m : Mach, happens (.lgAtomicPerform id) s m ∧
       m.mem = afterAmo s.m.mem op q.pa b c ∧ (∀ h ∈ m.gops, h.id ≠ id) ∧ m.ops = s.m.ops.filter (fun i => i ≠ id) ∧
       m.rets = s.m.rets ++ [{ id := id, ctx := g.ctx, slot := 10, dest := .scal rd false, bytes := lowBytes 8 (readLE s.m.mem q.pa 8) }]) ∧
     (∀ op b c rd, local_ → g.act = .amo op b c rd → s.m.amoWaits g = true → happens (.lgAtomicPerform id) s s.m) ∧
     (∀ n b rest, (s.m.ctx x).drains = (n, b) :: rest → (∀ p ∈ rest, p.2 = true → p.1 ∉ s.m.ops) →
       (∀ p ∈ rest, p.2 = false → ∀ h ∈ s.m.gops, h.id = p.1 → (∃ d, h.act = .read d) ∧ h.needs = []) →
       happens (.drainComplete x) s (opOver (s.m.setCtx x { s.m.ctx x with drains := [] }) n)) ∧
     (∀ n b rest i, (s.m.ctx x).drains = (n, b) :: rest →
       ((i, true) ∈ rest ∧ i ∈ s.m.ops) ∨ ((i, false) ∈ rest ∧ ∃ h ∈ s.m.gops, h.id = i ∧ ((∀ d, h.act ≠ .read d) ∨ h.needs ≠ [])) →
       happens (.drainComplete x) s s.m) ∧
     (∀ e sz, k < 256 → va.toNat < 2 ^ 57 → s.m.walk root va.toNat = .ok (e, sz) → (∀ t ∈ (s.m.core k).utlb, ¬ covering t) →
       (∀ t ∈ s.m.pkg.tlb, t.cluster ≠ k / 8 ∨ ¬ covering t) → (s.m.pkg.tlb.filter (fun t => t.cluster == k / 8)).length < 4096 →
       (let t : TlbEnt := { cluster := k / 8, root := root, va := BitVec.ofNat 64 (va.toNat / sz * sz), size := sz, leaf := e }
        happens (.pageWalkComplete k root va) s { s.m with
          pkg := { s.m.pkg with tlb := s.m.pkg.tlb ++ [t] }, cores := kput k (micro t) s.m.cores })) ∧
     (∀ t, k < 256 → va.toNat < 2 ^ 57 → s.m.clusterEntry (k / 8) root va.toNat = some t → (∀ u ∈ (s.m.core k).utlb, ¬ covering u) →
       happens (.pageWalkComplete k root va) s { s.m with cores := kput k (micro t) s.m.cores }) ∧
     (∀ lvl, s.m.walk root va.toNat = .error lvl → s.m.clusterEntry (k / 8) root va.toNat = none →
       happens (.pageWalkComplete k root va) s s.m) ∧
     (∀ (o : EngOp) (rest : List EngOp) (a : W64) (more : List W64) (bs out : List Byte), (s.m.core k).mq = o :: rest →
       o.blocks = a :: more → o.came.find? (fun p => p.1 == a) = some (a, bs) → expandSlot bs = some out → (∀ p ∈ rest, p.id ≠ o.id) →
       ∃ (m : Mach) (o' : EngOp), happens (.bolterBlockVerify k) s m ∧ (m.core k).mq = o' :: rest ∧ o'.blocks = more ∧
         o'.came.find? (fun p => p.1 == a) = some (a, out) ∧ m.mem = s.m.mem ∧ m.ctxs = s.m.ctxs) ∧
     (∀ (o : EngOp) (rest : List EngOp) (a : W64) (more : List W64) (bs : List Byte) (t : Team), (s.m.core k).mq = o :: rest →
       o.blocks = a :: more → o.came.find? (fun p => p.1 == a) = some (a, bs) → expandSlot bs = none → (s.m.ctx o.ctx).rid = o.rid →
       s.m.team? o.rid (clusterOf o.ctx) = some t → (∀ r ∈ t.reports, r.ctx ≠ o.ctx ∨ r.no ≠ o.no) → t.serving = none →
       s.m.runStopped o.rid = false → (s.m.ctx o.ctx).trp.handler = false →
       happens (.bolterBlockVerify k) s { s.m with teams := s.m.teams.map (fun u => if u.rid == o.rid && u.cluster == clusterOf o.ctx then
         { u with reports := if u.serving.isSome then u.reports else u.reports ++
           [{ ctx := o.ctx, no := o.no, pc := o.pc, cause := BitVec.ofNat 64 (0x13 + 65536 * 4), addr := a }] } else u) }))

namespace Sys2Proof.Claims

/-- A number under a block scale (R103): NaN under 0xFF, else its value times 2^(`sc` − 127). -/
def underScale (sc : Byte) (n : Machine.Num) : Machine.Num :=
  if sc = 0xFF then .nan
  else match n with
    | .fin neg m e => .fin neg m (e + ((sc.toNat : Int) - 127))
    | q => q

/-- Element `i` of K block `k` of column `n` of a B image (R220), with the scale byte of its block where the form has scales (R103). -/
def imageNum (i : Instr) (b : List Byte) (n k j : Nat) : Option Machine.Num :=
  let at_ := 256 * n + 16 * k + j
  let scale := fun (elements : Nat) => b.getD (elements + 16 * n + k) 0
  match i with
  | .ldbBf16 _ _ => some (fmtBf16.decode (leNat ((b.drop (2 * at_)).take 2)))
  | .ldbE4m3 _ _ => some (underScale (scale 65536) (fmtE4m3.decode (b.getD at_ 0).toNat))
  | .ldbE5m2 _ _ => some (underScale (scale 65536) (fmtE5m2.decode (b.getD at_ 0).toNat))
  | .ldbE2m1 _ _ => some (underScale (scale 32768) (fmtE2m1.decode ((b.getD (at_ / 2) 0).toNat / 16 ^ (at_ % 2) % 16)))
  | _ => none

/-- Bytes of the image, and the stone that the form fills (R220). -/
def imageForm : Instr → Option (Nat × Nat)
  | .ldbS8 k _ => some (65536, k.toNat)
  | .ldbBf16 k _ => some (131072, k.toNat)
  | .ldbE4m3 k _ | .ldbE5m2 k _ => some (69632, k.toNat)
  | .ldbE2m1 k _ => some (36864, k.toNat)
  | _ => none

/-- A K block of a column of a stone as R114 fills it from 16 values: the cells, the exponent, the mark. -/
def blockFrom (x : Nat → Machine.Num) (cell : Nat → Int) (e : Int) (marked : Bool) : Prop :=
  ((∃ j < 16, (x j).isFin = false) → marked = true) ∧
  ((∀ j < 16, (x j).isFin = true) → marked = false) ∧
  ((∀ j < 16, (x j).isFin = true ∧ realOf (x j) = 0) → e = 0 ∧ ∀ j < 16, cell j = 0) ∧
  (∀ top : Int, (∀ j < 16, (x j).isFin = true ∧ |realOf (x j)| < (2 : ℝ) ^ (top + 1)) → (∃ j < 16, (2 : ℝ) ^ top ≤ |realOf (x j)|) →
    e = top - 10 ∧ ∀ j < 16, ∀ neg m q, x j = .fin neg m q → ∃ r : Int,
      isNearest (if neg then -(m : Int) else m) (q + 10 - top) r ∧ cell j = (BitVec.ofInt 12 r).toInt)

/-- The number of branch map nibble `16 s + kb`: the branch of K block `kb` of stone `s` (R121, R225). -/
def groupBranch (bm : BitVec 256) (s kb : Nat) : Nat := (bm.extractLsb' (4 * (16 * s + kb)) 4).toNat

/-- The branch is present for the selected stones (R226). -/
def isPresent (bm : BitVec 256) (stones : List Nat) (b : Nat) : Prop := b < 16 ∧ ∃ s ∈ stones, ∃ kb < 16, groupBranch bm s kb = b

/-- The row and the column of every selected stone, for row `m` and column `n` (R121). -/
def lineup (f : MForm) (rows : List FeedRow) (cols : List (List StoneCol)) (m n : Nat) : List (Nat × FeedRow × StoneCol) :=
  List.zip f.stones (List.zip ((rows.drop (m * f.segs)).take f.segs) (cols.filterMap (fun c => (c.drop n).head?)))

/-- The outputs and taps of the present branches for row `m` and column `n` (R122, R227). -/
def branchOuts (f : MForm) (bm : BitVec 256) (cvs : List (BitVec 6144)) (rows : List FeedRow) (cols : List (List StoneCol)) (m n : Nat) :
    List (W32 × W32) :=
  (presentBranches bm f.stones).map (fun b => curveAt (cvs.getD (b % 4) 0) (branchSum bm b (lineup f rows cols m n)))

/-- What arrives at column 16 b + i of row `m * S + j` of the tile of a `dmmr`, from stone number `j` of the mask, `grads` being the gradients
(R228): the exact sum over the 256 columns of the stone, NaN where a block of it is marked. -/
def reverseArrival (f : MForm) (bm : BitVec 256) (tap : Tile) (cols : List (List StoneCol)) (grads : List (List Machine.Num)) (m j kb i : Nat) :
    (Int × Int) × Bool :=
  let present := presentBranches bm f.stones
  let b := groupBranch bm (f.stones.getD j 0) kb
  let row := m * present.length + (present.filter (fun c => c < b)).length
  let h := alignRow ((List.range 256).map (fun n =>
    if row < 32 then scaledGrad ((grads.getD m []).getD n .nan) (el 32 (rget row tap.mant) n) else .nan))
  let col := cols.getD j []
  (sumExact ((List.range 256).map (fun n => match (col.drop n).head? with
    | some c => (h.a.flatten.getD n 0 * (c.c.getD kb []).getD i 0, h.e.getD (n / 16) 0 + c.e.getD kb 0)
    | none => (0, 0))), h.nan.any id || col.any (fun c => c.nan.getD kb false))

end Sys2Proof.Claims

/-- R114, R220, R225: a performed `ldb` replaces its stone whole: `ldb.s8` by sign-extended bytes at exponent 0, a floating-point form by blocks
aligned as R114 says, marked NaN where a value or its scale is not finite. A performed `ldcv` replaces its curve table and `ldbm` its branch
map by the bytes of the image. No other stone, table or map changes, and nothing else of the core. -/
def Sys2Proof.Claims.StonesAndTablesAreFilled : Prop :=
  ∀ (c : Core) (o : EngOp) (b : List Byte),
    (∀ n k, imageForm o.ins = some (n, k) → b.length = n → ∃ st : Stone,
      c.perform o [b] = ({ c with stones := kput k st c.stones }, [], 0) ∧
      ∀ (col kb : Nat), col < 256 → kb < 16 →
        (let x := st.column col
         let cell := fun (j : Nat) => (x.c.getD kb []).getD j 0
         ((∃ a d, o.ins = .ldbS8 a d) → x.e.getD kb 1 = 0 ∧ x.nan.getD kb true = false ∧
           ∀ j < 16, cell j = (b.getD (256 * col + 16 * kb + j) 0).toInt) ∧
         (∀ v : Nat → Machine.Num, (∀ j < 16, imageNum o.ins b col kb j = some (v j)) →
           blockFrom v cell (x.e.getD kb 0) (x.nan.getD kb false)))) ∧
    (∀ (k : BitVec 2) (d : BitVec 3), o.ins = .ldcv k d → b.length = 768 → ∃ t : BitVec 6144,
      c.perform o [b] = ({ c with cv := rput k.toNat t c.cv }, [], 0) ∧ ∀ j < 768, el 8 t j = b.getD j 0) ∧
    (∀ (k : BitVec 2) (d : BitVec 3), o.ins = .ldbm k d → b.length = 32 → ∃ t : BitVec 256,
      c.perform o [b] = ({ c with bm := rput k.toNat t c.bm }, [], 0) ∧ ∀ g < 64, (t.extractLsb' (4 * g) 4).toNat =
        (b.getD (g / 2) 0).toNat / 16 ^ (g % 2) % 16)

/-- R121 to R123, R226: a branch is present where the map gives it a row group of a selected stone. A branch sum is the exact sum of its
groups' block products rounded once, NaN where one of them is marked. A curve takes the last segment whose START is not above the sum, the
first where there is none, and gives the slope times the sum plus the offset, rounded once, with the slope as its tap. The second-level sum
adds the outputs in ascending order of the branches. -/
def Sys2Proof.Claims.BranchSumsAndCurves : Prop :=
  (∀ (bm : BitVec 256) (stones : List Nat), (presentBranches bm stones).Pairwise (fun a b => a < b) ∧
    ((∀ s ∈ stones, s < 4) → ∀ b, b ∈ presentBranches bm stones ↔ isPresent bm stones b)) ∧
  (∀ (bm : BitVec 256) (b : Nat) (l : List (Nat × FeedRow × StoneCol)),
    (∀ p ∈ l, p.1 < 4 ∧ p.2.1.a.length = 16 ∧ p.2.1.e.length = 16 ∧ p.2.1.nan.length = 16 ∧ p.2.2.c.length = 16 ∧ p.2.2.e.length = 16 ∧
      p.2.2.nan.length = 16) →
    (let marked := ∃ p ∈ l, ∃ kb < 16, groupBranch bm p.1 kb = b ∧ (p.2.1.nan.getD kb false = true ∨ p.2.2.nan.getD kb false = true)
     let product : Nat × FeedRow × StoneCol → Nat → Int := fun p kb =>
       (List.zipWith (fun (x y : Int) => x * y) (p.2.1.a.getD kb []) (p.2.2.c.getD kb [])).sum
     (marked → branchSum bm b l = BitVec.ofNat 32 fmtF32.nan) ∧
     (¬ marked → ∃ v e : Int, branchSum bm b l = BitVec.ofNat 32 (fmtF32.round false .rne (decide (v < 0)) v.natAbs e).1 ∧
       (v : ℝ) * (2 : ℝ) ^ e = (l.map (fun p => ((List.range 16).map (fun kb =>
         if groupBranch bm p.1 kb = b then (product p kb : ℝ) * (2 : ℝ) ^ (p.2.1.e.getD kb 0 + p.2.2.e.getD kb 0) else 0)).sum)).sum))) ∧
  (∀ (cv : BitVec 6144) (x : W32),
    (let field := fun (i k : Nat) => (cv.extractLsb' (96 * i + 32 * k) 32 : W32)
     let starts := fun (i : Nat) => leNum (numF32 (field i 0)) (numF32 x) = true
     let bad : W32 := BitVec.ofNat 32 fmtF32.nan
     (numF32 x = .nan → curveAt cv x = (bad, bad)) ∧
     (∀ i < 64, numF32 x ≠ .nan → (starts i ∨ i = 0) → (∀ j < 64, i < j → ¬ starts j) → curveAt cv x =
       (BitVec.ofNat 32 (fop fmtF32 .fma .rne (field i 1).toNat x.toNat (field i 2).toNat).1,
         if numF32 (field i 1) = .nan then bad else field i 1)))) ∧
  (secondLevel [] = 0 ∧ (∀ y, secondLevel [y] = y) ∧ ∀ (l : List W32) (z : W32), l ≠ [] →
    secondLevel (l ++ [z]) = BitVec.ofNat 32 (fop fmtF32 .add .rne (secondLevel l).toNat z.toNat 0).1)

/-- R226 to R228: a performed `dmm` adds to each block of its first M rows the second-level sums of 16 columns as one arrival, after
clearing the tile where it clears, and with TAP writes the taps of the present branches, in ascending order, to the rows of the tap tile
below row 32, whose exponents become 0; every other row keeps its contents. A performed `dmmr` adds to each block of row m × S + j what the
gradients, scaled by the taps, give the K-rows of stone number j of the mask. -/
def Sys2Proof.Claims.DendriticFormsPerform : Prop :=
  (∀ (c : Core) (o : EngOp) (bs : List (List Byte)) (t : BitVec 3) (m : BitVec 4) (d : BitVec 3) (b : BitVec 2) (l : BitVec 5)
      (a cl : BitVec 1), bs ≠ [] →
    (let w : W32 := BitVec.ofNat 32 (o.words.headD 0).toNat
     let tt := w.toNat / 2 ^ 23 % 8
     let bm : BitVec 256 := rget b.toNat c.bm
     let curves := (List.range 4).map (fun j => rget (w.toNat / 2 ^ (15 + 2 * j) % 4) c.cv)
     (o.ins = .dmm t m d b l a cl →
       (let f := dmmForm false t m w cl
        let rows := bs.mapIdx (fun i x => f.row o.vec i x)
        let out := f.dendritic (c.tile t.toNat) (c.tile tt) (a == 1) bm curves (c.columns f.stones 256) rows
        let one := kput t.toNat out.1 c.tiles
        c.perform o bs = ({ c with tiles := if a = 1 then kput tt out.2.1 one else one }, [], out.2.2))) ∧
     (o.ins = .dmmr t m d b l a cl →
       (let f := dmmForm true t m w cl
        let out := f.reverse (c.tile t.toNat) (c.tile tt) bm (c.columns f.stones 256) (bs.map bf16Nums)
        c.perform o bs = ({ c with tiles := kput t.toNat out.1 c.tiles }, [], out.2))))) ∧
  (∀ (f : MForm) (t tap : Tile) (on : Bool) (bm : BitVec 256) (cvs : List (BitVec 6144)) (cols : List (List StoneCol)) (rows : List FeedRow),
    f.segs = f.stones.length → cols.length = f.segs → rows.length = f.rows * f.segs → (∀ c ∈ cols, c.length = 256) →
    (let out := f.dendritic t tap on bm cvs cols rows
     let start := if f.clr then Tile.zero else t
     let n := (presentBranches bm f.stones).length
     (∀ m b, b < 16 → out.1.blk m b = if m < f.rows
       then takes (start.blk m b) ((List.range 16).map (fun i =>
         wordArrival (secondLevel ((branchOuts f bm cvs rows cols m (16 * b + i)).map (fun p => p.1)))))
       else start.blk m b) ∧
     (on = false → out.2.1 = tap) ∧
     (on = true → ∀ row, row < 32 →
       (∀ m j, m < f.rows → j < n → row = m * n + j → rget row out.2.1.exps = 0 ∧ ∀ k < 256,
         some (el 32 (rget row out.2.1.mant) k) = (branchOuts f bm cvs rows cols m k)[j]?.map (fun p => p.2)) ∧
       (f.rows * n ≤ row → rget row out.2.1.mant = rget row tap.mant ∧ rget row out.2.1.exps = rget row tap.exps)))) ∧
  (∀ (f : MForm) (t tap : Tile) (bm : BitVec 256) (cols : List (List StoneCol)) (grads : List (List Machine.Num)), grads.length = f.rows →
    cols.length = f.stones.length → (∀ c ∈ cols, c.length = 256) → (∀ g ∈ grads, g.length = 256) → (∀ s ∈ f.stones, s < 4) →
    (let out := f.reverse t tap bm cols grads
     let start := if f.clr then Tile.zero else t
     (∀ m j b, m < f.rows → j < f.stones.length → b < 16 → out.1.blk (m * f.stones.length + j) b =
       takes (start.blk (m * f.stones.length + j) b) ((List.range 16).map (fun i => reverseArrival f bm tap cols grads m j b i))) ∧
     ∀ r b, b < 16 → f.rows * f.stones.length ≤ r → out.1.blk r b = start.blk r b))

/-- R66, R145, R168, R212, R218, R220, R225, R114, R121, R123, R226, R228. Its parts: `ScaleLoadsAndStoresAreQueued`;
`StoneLoadsAndFeedOffsets`; `StonesAndTablesAreFilled`; `BranchSumsAndCurves`; `DendriticFormsPerform`. -/
def Obligations.ScalesStonesAndFeedOffsets : Prop :=
  Claims.ScaleLoadsAndStoresAreQueued ∧ Claims.StoneLoadsAndFeedOffsets ∧ Claims.StonesAndTablesAreFilled ∧ Claims.BranchSumsAndCurves ∧ Claims.DendriticFormsPerform

namespace Sys2Proof.Claims

/-- The message `x` has come to this package, and `m1` is the machine without it: it was under way inside the package, or another
package `src` sent it and this one takes it: it has attested (R298, R368). -/
def came (m m1 : Mach) (src : BitVec 12) (x : Sent) : Prop :=
  (∃ a b, m.net = a ++ x :: b ∧ x ∉ a ∧ m1 = { m with net := a ++ b }) ∨
    (x ∉ m.net ∧ src ≠ m.pkg.chip ∧ m.pkg.attested = true ∧ m1 = m)

/-- The message has not come: nothing of it is under way, and it would be this package's own. -/
def absent (m : Mach) (src : BitVec 12) (x : Sent) : Prop := x ∉ m.net ∧ src = m.pkg.chip

/-- Registers, control state, status and pending causes of every context are as they were. -/
def contextsKept (m m' : Mach) : Prop :=
  ∀ x, (m'.ctx x).regs = (m.ctx x).regs ∧ (m'.ctx x).ctl = (m.ctx x).ctl ∧ (m'.ctx x).status = (m.ctx x).status ∧
    (m'.ctx x).trp = (m.ctx x).trp ∧ (m'.ctx x).pend = (m.ctx x).pend

/-- A map takes a packet (R263): STREAM, FMT, DIM and tenant agree, its state takes the transfer, and every element of the run lies in
the box. -/
def suits (sl : MapSlot) (p : LandPkt) : Prop :=
  imgStream sl.image = hdrStream p.hdr ∧ imgFmt sl.image = hdrFmt p.hdr ∧ imgDim sl.image = hdrDim p.hdr ∧ sl.tenant = p.tenant ∧
    (sl.state = .live ∨ sl.state = .retiring ∨ (sl.state = .closing ∧ landXfer p ∈ sl.open_)) ∧
    ∀ d < hdrDim p.hdr, imgLo sl.image d ≤ hdrCoord p.hdr d ∧
      hdrCoord p.hdr d + (if d = 0 then hdrCnt p.hdr - 1 else 0) ≤ imgHi sl.image d

/-- The map that takes it (R263): the first LIVE one that suits; where no LIVE one does, the first of the others. -/
def takenBy (slots : KMap MapSlot) (p : LandPkt) (k : Nat) (sl : MapSlot) : Prop :=
  suits sl p ∧ ∃ a b, slots = a ++ (k, sl) :: b ∧
    ((sl.state = .live ∧ ∀ q ∈ a, q.2.state = .live → ¬ suits q.2 p) ∨
     (sl.state ≠ .live ∧ (∀ q ∈ slots, q.2.state = .live → ¬ suits q.2 p) ∧ ∀ q ∈ a, ¬ suits q.2 p))

/-- The maps of a Tailrace that are not of retired runs (R268). -/
def mapsOf (m : Mach) (t : Nat) : KMap MapSlot := (m.tail t).slots.filter (fun q => (m.run? q.2.rid).isSome)

/-- What becomes of element `j` of a packet at a map (R265): its place. -/
def placeOf (sl : MapSlot) (p : LandPkt) (j : Nat) (mem : Memory) : Place :=
  sl.place mem ((List.range 4).map (fun d => hdrCoord p.hdr d - imgLo sl.image d + (if d = 0 then j else 0)))

/-- Memory after it has landed (R265): the bits of its position, no other element's. -/
def landedMem (sl : MapSlot) (p : LandPkt) (j : Nat) (mem : Memory) : Memory :=
  match placeOf sl p j mem with
  | .at_ q => (elemWrites mem (imgFmt sl.image) ((sl.base + imgBase sl.image : Nat) : Int) q (payloadElem (hdrFmt p.hdr) p.payload j)).foldl
      (fun acc w => writeBytes acc w.1 [w.2]) mem
  | _ => mem

/-- A Tailrace's record of a transfer (R266). -/
def recordOf (t : Tail) (x : XferId) : Acct := (t.acct.find? (fun a => a.xfer == x)).getD { xfer := x, count := 0, strays := 0, slot := none }

/-- The stray buffer entry of a data packet (R269). -/
def packetEntry (p : LandPkt) (kind : Nat) : Stray := { tenant := p.tenant, bytes := landEntry p kind }

/-- A map operation at the head of a Tailrace has been applied: the operation is over, and other contexts are as they were. -/
def mapOpOver (m m' : Mach) (t : Nat) (o : MapOp) : Prop :=
  (m'.tail t).ops = (m.tail t).ops.drop 1 ∧ m'.ops = m.ops.filter (fun i => i ≠ o.id) ∧ m'.mem = m.mem ∧
    (∀ x, x ≠ o.ctx → m'.ctx x = m.ctx x) ∧ (m'.ctx o.ctx).xq = (m.ctx o.ctx).xq.filter (fun e => e.id ≠ o.id) ∧
    (m'.ctx o.ctx).regs = (m.ctx o.ctx).regs

/-- It is refused (R267, R269): a map-error entry. -/
def mapRefused (m m' : Mach) (t : Nat) (o : MapOp) (slot opk : Nat) : Prop :=
  mapOpOver m m' t o ∧ (m'.tail t).slots = mapsOf m t ∧
    (m'.tail t).strays = (m.tail t).strays ++ [{ tenant := m.tenantOf o.rid, bytes := strayEntry 3 0 0 slot opk 0 [] }]

/-- An operation at the head of a Tailrace that has room. -/
def mapOpAt (s : State) (t : Nat) (o : MapOp) : Prop :=
  t < 288 ∧ (s.m.tail t).landing = none ∧ (s.m.tail t).stop = false ∧ (s.m.tail t).strays.length < Config.strayPlaces ∧ ∃ rest, (s.m.tail t).ops = o :: rest

end Sys2Proof.Claims

/-- R234, R263 to R266, R269: a data packet is taken by the first map that takes it, where its transfer opens, and lands by that map one
element at a time, in any order (the model's choice: log 103), each element at the position that the map's form gives it; after the last one it counts on the map's barrier, which
records a landing fault, and in its transfer's account. One that no map takes is a stray, or is counted where the Tailrace has other tenants'
maps only. An end marker waits for its packets. While a packet lands, no other packet or marker is taken. A packet that is not there changes
nothing. -/
def Sys2Proof.Claims.DataPacketsLand : Prop :=
  ∀ (s : State) (p : LandPkt) (m1 : Mach), awake s → p.tail < 288 →
    (let t := p.tail
     let x := landXfer p
     let before := recordOf (s.m.tail t) x
     let counted := fun (m : Mach) (strays : Nat) (slot : Option Nat) => recordOf (m.tail t) x =
       { xfer := x, count := before.count + 1, strays := before.strays + strays, slot := slot <|> before.slot }
     let outside := fun (m : Mach) (net : List Sent) => contextsKept s.m m ∧ m.cores = s.m.cores ∧ m.streams = s.m.streams ∧
       m.runs = s.m.runs ∧ m.net = net ∧ ∀ j, j ≠ t → m.tail j = s.m.tail j
     ((s.m.tail t).landing = none → (s.m.tail t).stop = false → (s.m.tail t).strays.length < Config.strayPlaces →
       came s.m m1 p.src (.land s.m.pkg.chip p) →
       (hdrEnd p.hdr = true → ∃ m : Mach, happens (.endMarkerArrive p) s m ∧ outside m m1.net ∧ m.mem = s.m.mem ∧
         m.tail t = { s.m.tail t with slots := mapsOf s.m t, ends := (s.m.tail t).ends ++ [p] }) ∧
       (hdrEnd p.hdr = true → happens (.dataPacketArrive p) s s.m) ∧
       (hdrEnd p.hdr = false → happens (.endMarkerArrive p) s s.m) ∧
       (∀ k sl, hdrEnd p.hdr = false → takenBy (mapsOf s.m t) p k sl → ∃ m : Mach, happens (.dataPacketArrive p) s m ∧ outside m m1.net ∧
         m.mem = s.m.mem ∧ (m.tail t).landing = some { pkt := p, slot := k, left := List.range (hdrCnt p.hdr), bad := false, merged := none } ∧
         (k, { sl with open_ := if x ∈ sl.open_ then sl.open_ else sl.open_ ++ [x] }) ∈ (m.tail t).slots ∧
         (m.tail t).acct = (s.m.tail t).acct ∧ (m.tail t).strays = (s.m.tail t).strays) ∧
       (hdrEnd p.hdr = false → (∀ q ∈ mapsOf s.m t, ¬ suits q.2 p) →
         (mapsOf s.m t = [] ∨ ∃ q ∈ mapsOf s.m t, q.2.tenant = p.tenant) → ∃ m : Mach, happens (.dataPacketArrive p) s m ∧
           outside m m1.net ∧ counted m 1 none ∧ m.mem = s.m.mem ∧ (m.tail t).strays = (s.m.tail t).strays ++ [packetEntry p 1]) ∧
       (hdrEnd p.hdr = false → mapsOf s.m t ≠ [] → (∀ q ∈ mapsOf s.m t, q.2.tenant ≠ p.tenant) → ∃ m : Mach,
         happens (.dataPacketArrive p) s m ∧ outside m m1.net ∧ counted m 0 none ∧ m.mem = s.m.mem ∧
           (m.tail t).strays = (s.m.tail t).strays ∧ rget t m.pkg.cnts = rget t s.m.pkg.cnts + 1)) ∧
     ((s.m.tail t).landing = none → absent s.m p.src (.land s.m.pkg.chip p) →
       happens (.dataPacketArrive p) s s.m ∧ happens (.endMarkerArrive p) s s.m) ∧
     (∀ (l : Landing) (sl : MapSlot), (s.m.tail t).landing = some l → l.pkt = p → l.merged = none → kget l.slot (s.m.tail t).slots = some sl →
       (l.left ≠ [] → ∃ (j : Nat) (m : Mach), j ∈ l.left ∧ happens (.dataPacketArrive p) s m ∧ outside m s.m.net ∧
         m.mem = landedMem sl p j s.m.mem ∧
         m.tail t = { s.m.tail t with landing := some { l with left := l.left.erase j, bad := l.bad || placeOf sl p j s.m.mem == .fault } }) ∧
       (l.left = [] → ∃ m : Mach, happens (.dataPacketArrive p) s m ∧ outside m s.m.net ∧ (m.tail t).landing = none ∧
         counted m 0 (some l.slot) ∧ (m.tail t).slots = (s.m.tail t).slots ∧ (m.tail t).strays = (s.m.tail t).strays ∧
         (imgBarv sl.image = false → m.mem = s.m.mem) ∧
         (imgBarv sl.image = true → ∃ c : BitVec 128,
           barrierStep (BitVec.ofNat 128 (readLE s.m.mem (sl.base + imgBar sl.image) 16)) c 0
             (BitVec.ofInt 32 (-(sectorsOf (runBytes (hdrFmt p.hdr) (hdrCnt p.hdr)) : Int))) ∧
           m.mem = writeBytes s.m.mem (sl.base + imgBar sl.image) (lowBytes 16 (if l.bad then barFault c 0x20 else c).toNat)))) ∧
     (∀ l : Landing, (s.m.tail t).landing = some l → happens (.endMarkerArrive p) s s.m ∧
       (l.pkt ≠ p → happens (.dataPacketArrive p) s s.m)))

/-- R247, R263, R266, R278, R279: a marker whose packets are all accounted for is applied: the map that took its packets, or, where none has
landed, the one that would take them, counts the arrival on its barrier if it counts arrivals, the transfer closes, and its sender is
acknowledged; where no map would, or the map that took its last packet is empty by now, the marker is a stray. An acknowledgement completes the transfer, and with its last transfer the
operation, whose token then reads complete; a multicast with strays sets the pending transfer fault. -/
def Sys2Proof.Claims.TransfersClose : Prop :=
  ∀ (s : State), awake s →
    (∀ (t k : Nat) (p : LandPkt) (sl : MapSlot) (a b : List LandPkt),
      (let q := s.m.tail t
       let x := landXfer p
       let ready := fun (e : LandPkt) => (recordOf q (landXfer e)).count = endCount e
       let closed := fun (m : Mach) => (m.tail t).ends = a ++ b ∧ (∀ c ∈ (m.tail t).acct, c.xfer ≠ x) ∧
         (∀ y ∈ (m.tail t).slots, x ∉ y.2.open_) ∧ (p.src = s.m.pkg.chip → m.net = s.m.net ++ [.ack p.src p.core (hdrTid p.hdr) (recordOf q x).strays])
       let applied := ∃ m : Mach, happens (.endMarkerApply t) s m ∧ closed m ∧ m.streams = s.m.streams ∧
         (imgBarv sl.image = false ∨ (imgArv sl.image = false ∧ endCause p = 0) → m.mem = s.m.mem) ∧
         (imgBarv sl.image = true → (imgArv sl.image = true ∨ endCause p ≠ 0) → ∃ c : BitVec 128,
           (imgArv sl.image = true →
             barrierStep (BitVec.ofNat 128 (readLE s.m.mem (sl.base + imgBar sl.image) 16)) c (BitVec.allOnes 32) 0) ∧
           (imgArv sl.image = false → c = BitVec.ofNat 128 (readLE s.m.mem (sl.base + imgBar sl.image) 16)) ∧
           m.mem = writeBytes s.m.mem (sl.base + imgBar sl.image)
             (lowBytes 16 (if endCause p = 0 then c else barFault c (endCause p)).toNat))
       let may := fun (y : MapSlot) => y.kind p = true ∧ (y.state = .live ∨ y.state = .retiring ∨ (y.state = .closing ∧ x ∈ y.open_))
       t < 288 → q.landing = none → q.stop = false → q.strays.length < Config.strayPlaces → q.ends = a ++ p :: b → p ∉ a →
       (∀ e ∈ a, ¬ ready e) → ready p →
       ((recordOf q x).slot = some k → kget k (mapsOf s.m t) = some sl → x ∈ sl.open_ → applied) ∧
       ((recordOf q x).slot = some k → (∀ y, kget k (mapsOf s.m t) = some y → x ∉ y.open_) → ∃ m : Mach, happens (.endMarkerApply t) s m ∧
         closed m ∧ m.mem = s.m.mem ∧ (m.tail t).strays = q.strays ++ [packetEntry p 2]) ∧
       (∀ pre post, (recordOf q x).slot = none → mapsOf s.m t = pre ++ (k, sl) :: post → may sl →
         ((sl.state = .live ∧ ∀ y ∈ pre, y.2.state = .live → ¬ may y.2) ∨
           (sl.state ≠ .live ∧ (∀ y ∈ mapsOf s.m t, y.2.state = .live → ¬ may y.2) ∧ ∀ y ∈ pre, ¬ may y.2)) → applied) ∧
       ((recordOf q x).slot = none → (∀ y ∈ mapsOf s.m t, ¬ may y.2) → ∃ m : Mach, happens (.endMarkerApply t) s m ∧ closed m ∧
         m.mem = s.m.mem ∧ (m.tail t).strays = q.strays ++ [packetEntry p 2]))) ∧
    (∀ t, (s.m.tail t).landing ≠ none → happens (.endMarkerApply t) s s.m) ∧
    (∀ t, (∀ e ∈ (s.m.tail t).ends, (recordOf (s.m.tail t) (landXfer e)).count ≠ endCount e) → happens (.endMarkerApply t) s s.m) ∧
    (∀ (c n : Nat) (tid : BitVec 12) (f : Xfer) (m1 : Mach), (s.m.core c).xfers.find? (fun f => f.tid == tid && !f.done) = some f →
      came s.m m1 (destChip f.dest) (.ack s.m.pkg.chip (BitVec.ofNat 8 c) tid n) → coreOf f.ctx = c →
      (let multi := ∃ o ∈ (s.m.ctx f.ctx).xq, o.id = f.op ∧ isMulticast o.ins = true
       let closedAt := fun (m : Mach) => (∀ g ∈ (m.core c).xfers, g.op ≠ f.op) ∧ m.ops = s.m.ops.filter (fun i => i ≠ f.op) ∧ m.mem = s.m.mem ∧
         (m.ctx f.ctx).xq = (s.m.ctx f.ctx).xq.filter (fun o => o.id ≠ f.op) ∧ (m.ctx f.ctx).regs = (s.m.ctx f.ctx).regs
       ((∀ g ∈ (s.m.core c).xfers, g.op = f.op → g = f) → ¬ multi → ∃ m : Mach, happens (.transferAck c tid n) s m ∧ closedAt m ∧
         (m.ctx f.ctx).pend = (s.m.ctx f.ctx).pend) ∧
       ((∀ g ∈ (s.m.core c).xfers, g.op = f.op → g = f) → multi → n ≠ 0 → (s.m.ctx f.ctx).pend.ptf = false → ∃ m : Mach,
         happens (.transferAck c tid n) s m ∧ closedAt m ∧
         (m.ctx f.ctx).pend = { (s.m.ctx f.ctx).pend with ptf := true, ptfC := 0x21, ptfV := 0 }) ∧
       ((∃ g ∈ (s.m.core c).xfers, g.op = f.op ∧ g.tid ≠ tid ∧ g.done = false) → ∃ m : Mach, happens (.transferAck c tid n) s m ∧
         m.ops = s.m.ops ∧ m.ctxs = s.m.ctxs ∧ (m.core c).xfers = (s.m.core c).xfers.map (fun g =>
           if g.tid = tid ∧ g.done = false then { g with done := true, ok := !(s.m.ctx f.ctx).xq.any (fun o => o.id == f.op && isMulticast o.ins) || n == 0 }
           else g)))) ∧
    (∀ c n tid, (∀ f ∈ (s.m.core c).xfers, f.tid = tid → f.done = true) → happens (.transferAck c tid n) s s.m)

/-- R260, R262, R267 to R269: at its Tailrace a valid image is installed in an empty slot, STAGED or LIVE; a swap makes the staged map
LIVE and the live one RETIRING; a retired STAGED map is empty at once, another closes; every other case is refused with a map-error
entry, that of a swap with its new slot (the model's choice: log 107). -/
def Sys2Proof.Claims.MapOperationsAreApplied : Prop :=
  ∀ (s : State) (t : Nat) (o : MapOp), awake s → mapOpAt s t o →
    (let slots := mapsOf s.m t
     let win := s.m.tailWindow t o.ctx
     (∀ k a b, o.ins = .ldmap k a b →
       (let img := readBytes s.m.mem o.loc 96
        (kget k.toNat slots = none ∧ imageOk img win.2 = true → ∃ m : Mach, happens (.mapInstall t) s m ∧ mapOpOver s.m m t o ∧
          (m.tail t).strays = (s.m.tail t).strays ∧ (m.tail t).slots = kput k.toNat
            { state := if imgStg img then .staged else .live, image := img, rid := o.rid, tenant := s.m.tenantOf o.rid, base := win.1,
              bytes := win.2, open_ := [], waiter := none } slots) ∧
        (¬ (kget k.toNat slots = none ∧ imageOk img win.2 = true) → ∃ m : Mach, happens (.mapInstall t) s m ∧
          mapRefused s.m m t o k.toNat 1) ∧ happens (.mapSwap t) s s.m ∧ happens (.mapRetire t) s s.m)) ∧
     (∀ n k b, o.ins = .swapmap n k b →
       (let good := fun (x y : MapSlot) => x.state = .staged ∧ y.state = .live ∧ x.rid = o.rid ∧ y.rid = o.rid
        (∀ x y, n ≠ k → kget n.toNat slots = some x → kget k.toNat slots = some y → good x y → ∃ m : Mach, happens (.mapSwap t) s m ∧
          mapOpOver s.m m t o ∧ (m.tail t).strays = (s.m.tail t).strays ∧
          kget n.toNat (m.tail t).slots = some { x with state := .live } ∧ kget k.toNat (m.tail t).slots = some { y with state := .retiring } ∧
          ∀ j, j ≠ n.toNat → j ≠ k.toNat → kget j (m.tail t).slots = kget j slots) ∧
        ((∀ x y, kget n.toNat slots = some x → kget k.toNat slots = some y → ¬ good x y) → ∃ m : Mach, happens (.mapSwap t) s m ∧
          mapRefused s.m m t o n.toNat 2) ∧ happens (.mapInstall t) s s.m)) ∧
     (∀ k b, o.ins = .retiremap k b →
       (let good := fun (x : MapSlot) => x.rid = o.rid ∧ x.state ≠ .closing
        (∀ x, kget k.toNat slots = some x → good x → x.state = .staged → ∃ m : Mach, happens (.mapRetire t) s m ∧ mapOpOver s.m m t o ∧
          (m.tail t).slots = kdel k.toNat slots) ∧
        (∀ x, kget k.toNat slots = some x → good x → x.state ≠ .staged → x.open_ ≠ [] → (∀ y ∈ slots, y.2.state ≠ .closing) → ∃ m : Mach,
          happens (.mapRetire t) s m ∧ m.ops = s.m.ops ∧ m.ctxs = s.m.ctxs ∧
          kget k.toNat (m.tail t).slots = some { x with state := .closing, waiter := some o.id }) ∧
        ((∀ x, kget k.toNat slots = some x → ¬ good x) → ∃ m : Mach, happens (.mapRetire t) s m ∧ mapRefused s.m m t o k.toNat 3) ∧
        happens (.mapInstall t) s s.m)))

/-- R234, R263, R266, R269, R247, R278, R279, R260, R262, R267. Its parts: `DataPacketsLand`; `TransfersClose`; `MapOperationsAreApplied`.
What rests on log entries 103, 107 is the model's choice: each part names the clause. -/
def Obligations.DataLandsTransfersCloseAndMapsApply : Prop :=
  Claims.DataPacketsLand ∧ Claims.TransfersClose ∧ Claims.MapOperationsAreApplied

namespace Sys2Proof.Claims

/-- The request with tag `tag` and generation `gen` that an operation of `core` has outstanding (R297): of operation `g`, the request `q`. -/
def outstanding (m : Mach) (core : BitVec 8) (tag : Nat) (gen : BitVec 4) (g : GOp) (q : Req) : Prop :=
  ∃ a b c d, m.gops = a ++ g :: b ∧ g.reqs = c ++ q :: d ∧ coreOf g.ctx = core.toNat ∧ q.tag = tag ∧ q.gen = gen ∧
    (∀ r ∈ c, r.tag ≠ tag ∨ r.gen ≠ gen) ∧ (∀ h ∈ a, coreOf h.ctx = core.toNat → ∀ r ∈ h.reqs, r.tag ≠ tag ∨ r.gen ≠ gen) ∧
    (∀ h ∈ a ++ b, h.id ≠ g.id) ∧ q ∉ c ++ d

/-- No operation of the core has such a request outstanding. -/
def unmatched (m : Mach) (core : BitVec 8) (tag : Nat) (gen : BitVec 4) : Prop :=
  ∀ g ∈ m.gops, coreOf g.ctx = core.toNat → ∀ r ∈ g.reqs, r.tag ≠ tag ∨ r.gen ≠ gen

/-- The piece of the operation that the request serves; `lastPiece`: every other one has been answered. -/
def pieceFor (g : GOp) (q : Req) (p : Seg) : Prop := ∃ c d, g.segs = c ++ p :: d ∧ p.off = q.off ∧ ∀ o ∈ c, o.off ≠ q.off
def lastPiece (g : GOp) (q : Req) : Prop := ∀ o ∈ g.segs, o.off ≠ q.off → (kget o.off g.got).isSome = true

/-- What the homes of an operation have answered, with `data` for the piece `p`. -/
def gotWith (g : GOp) (p : Seg) (data : List Byte) : KMap (List Byte) := kput p.off ((data ++ zeroBytes p.len).take p.len) g.got

/-- A context with a pending transfer fault for a remote access (R278, R297): only the first is kept. -/
def remoteFault (c : Ctx) (va : W64) : Ctx :=
  if c.pend.ptf = true then c else { c with pend := { c.pend with ptf := true, ptfC := 0x24, ptfV := va } }

/-- The return of a read whose last piece `p` its home has answered with `data` (R240, R297): bytes of its team's stores stand before the
homes'. -/
def readReturn (g : GOp) (d : Dest) (p : Seg) (data : List Byte) : Ret :=
  { id := g.id
    ctx := g.ctx
    slot := if g.isFeed then 4 else 10
    dest := d
    bytes := g.segs.flatMap (fun o => (List.range o.len).map (fun i =>
      (kget (o.off + i) g.own).getD (((kget o.off (gotWith g p data)).getD []).getD i 0))) }

/-- An earlier read of its context shares a byte of another package with the read `g` and has not delivered its data (R240). -/
def behindRead (m : Mach) (g : GOp) : Prop := ∃ h ∈ m.beforeGop g.id, h.ctx = g.ctx ∧ h.isRead = true ∧ h.sharesAway g = true

/-- The read `g`, as its home has answered its last piece `p` with `data`. -/
def wholeRead (g : GOp) (p : Seg) (data : List Byte) : GOp := { g with got := gotWith g p data }

/-- A read has got other bytes of another package than an earlier read of its context that it shares them with (R240). -/
def differs (g : GOp) : Prop := ∃ e ∈ g.prior, ∃ b, g.awayByte e.1 = some b ∧ b ≠ e.2

/-- The read `h` after the read `g` has delivered its data (R240): a later read of the context that shares bytes of another package with it
knows them, and nothing else of it has changed. -/
def learnsFrom (g h h' : GOp) : Prop :=
  h' = { h with prior := h'.prior } ∧ ∀ (i : Nat) (b : Byte), (i, b) ∈ h'.prior ↔ (i, b) ∈ h.prior ∨
    (h.ctx = g.ctx ∧ h.isRead = true ∧ g.id < h.id ∧ ∃ q ∈ h.segs, ∃ p ∈ g.segs, q.chip.isSome = true ∧ q.meets p = true ∧ ∃ j < q.len, i = q.off + j ∧
      p.pa ≤ q.pa + j ∧ q.pa + j < p.pa + p.len ∧ g.awayByte (p.off + (q.pa + j - p.pa)) = some b)

/-- The read asks again for the pieces that its homes have answered (R240). -/
def askedAgain (g : GOp) (q : Req) (p : Seg) (data : List Byte) : GOp :=
  { g with
    reqs := g.reqs.filter (fun r => r ≠ q)
    prior := []
    got := (gotWith g p data).filter (fun e => !g.segs.any (fun o => o.off == e.1 && g.away o)) }

/-- One more in counter `k` of R42 of the run `rid`. -/
def runCounted (m : Mach) (rid k : Nat) : Mach :=
  { m with runs := m.runs.map (fun r => if r.id = rid then { r with cnt := rput k (rget k r.cnt + 1) r.cnt } else r) }

/-- What an answer with a STATUS for the piece `p` does to the operation `g` (R297), where STATUS 0 answers its last piece: `m0` is the
machine before it and `m` after it. A prefetch that fails has no effect but its PFDROP (R175). -/
def answerEffect (m0 m : Mach) (g : GOp) (p : Seg) (status : Nat) (data : List Byte) : Prop :=
  let rest := m0.gops.filter (fun h => h.id ≠ g.id)
  match g.act with
  | .read .none => m.gops = rest ∧ m.mem = m0.mem ∧ m.rets = m0.rets ∧ m.ops = m0.ops.filter (fun i => i ≠ g.id) ∧ m.ctxs = m0.ctxs ∧
      m.runs = (if status = 0 then m0.runs else (runCounted m0 g.rid 1).runs)
  | .read d =>
      if status = 0 then m.gops.length = rest.length ∧
        (∀ (k : Nat) (h : GOp), rest[k]? = some h → ∃ h', m.gops[k]? = some h' ∧ learnsFrom (wholeRead g p data) h h') ∧ m.mem = m0.mem ∧ m.ops = m0.ops ∧ m.rets = m0.rets ++ [readReturn g d p data]
      else m = (opOver (gone m0 g.id) g.id).report g.ctx g.no g.pc (tcause 0x14 0 (if g.isFeed then 4 else 10) status 0 false) p.va
  | .amo _ _ _ rd => m.gops = rest ∧ m.mem = m0.mem ∧ m.ops = m0.ops.filter (fun i => i ≠ g.id) ∧
      m.rets = m0.rets ++ [{ id := g.id, ctx := g.ctx, slot := 10, dest := .scal rd false, bytes := if status = 0 then (data ++ zeroBytes 8).take 8 else zeroBytes 8 }] ∧
      m.ctx g.ctx = (if status = 0 then m0.ctx g.ctx else remoteFault (m0.ctx g.ctx) p.va)
  | .causal .. => m.gops = rest ∧ m.mem = m0.mem ∧ m.ops = m0.ops.filter (fun i => i ≠ g.id) ∧ m.rets = m0.rets ∧
      m.ctx g.ctx = (if status = 0 then m0.ctx g.ctx else expired (m0.ctx g.ctx) p.va)
  | _ => m.gops = rest ∧ m.mem = m0.mem ∧ m.ops = m0.ops ∧ m.rets = m0.rets ∧
      m.ctx g.ctx = (if status = 0 then m0.ctx g.ctx else remoteFault (m0.ctx g.ctx) p.va)

/-- What STATUS 0 does for a piece of a read that waits for others (R240): its bytes are kept and its request is over. -/
def pieceEffect (m : Mach) (g : GOp) (q : Req) (p : Seg) (data : List Byte) : Mach :=
  { m with gops := m.gops.map (fun h => if h.id = g.id then { h with reqs := g.reqs.filter (fun r => r ≠ q), got := gotWith g p data } else h) }

/-- STATUS, bytes returned and machine after an access at a home (R155, R176, R297). -/
def served (m : Mach) (pa : Nat) : RemKind → Nat × List Byte × Mach
  | .load n => if populated pa = true ∧ populated (pa + n - 1) = true then (0, readBytes m.mem pa n, m) else (1, [], m)
  | .store bs => if populated pa = true ∧ populated (pa + bs.length - 1) = true then (0, [], m.store pa bs) else (1, [], m)
  | .amo op b c =>
    if populated pa = true ∧ populated (pa + 8 - 1) = true then
      (0, lowBytes 8 (readLE m.mem pa 8), (amoWrites m.mem op pa b c).foldl (fun acc p => acc.store p.1 p.2) m)
    else (1, [], m)

/-- The machine with link `k` of a core replaced. -/
def linkWith (m : Mach) (core k : Nat) (l : Link) : Mach :=
  { m with cores := kput core { m.core core with links := kput k l (m.core core).links } m.cores }

/-- A status word (R295). -/
def statusOf (st : Nat) (tag gen : Nat) : W64 := BitVec.ofNat 64 (st % 16 * 2 ^ 60 + tag % 4096 * 2 ^ 48 + gen % 16 * 2 ^ 44)

/-- The words popped from link `k` of a core that a rollback would put back: the FIFO keeps their places (R37). -/
def placesKept (m : Mach) (core k : Nat) : Nat :=
  (m.teams.map (fun t => (t.undo.filter (fun u => match u with
    | .popped c n _ => decide (c = core ∧ n = k)
    | _ => false)).length)).sum

/-- The message has come: it was under way inside the package, or another package has sent it to this one, which has attested (R298). -/
def heard (m m1 : Mach) (x : Sent) : Prop :=
  (∃ a b, m.net = a ++ x :: b ∧ x ∉ a ∧ m1 = { m with net := a ++ b }) ∨ (x ∉ m.net ∧ m.pkg.attested = true ∧ m1 = m)

/-- A reply of two words at a pair (R296): delivered when it matches an outstanding request, counted as stale otherwise; it waits for room. -/
def replyTaken (i : Instr) (s : State) (m0 : Mach) (core k : Nat) (tag gen : Nat) (status data : W64) : Prop :=
  let l := (m0.core core).link k
  let good := (∃ due, kget tag l.out_ = some due) ∧ (rget tag l.gen).toNat = gen
  (good → l.inb.length + placesKept m0 core k + 2 ≤ Config.linkWords →
    happens i s (linkWith m0 core k { l with inb := l.inb ++ [status, data], out_ := kdel tag l.out_ })) ∧
  (good → Config.linkWords < l.inb.length + placesKept m0 core k + 2 → happens i s s.m) ∧
  (¬ good → ∀ r, l.holder = some r → happens i s (runCounted m0 r 2)) ∧
  (¬ good → l.holder = none → happens i s m0)

/-- No message of the same pair came before it and is still under way; `behind`: another one did. -/
def firstOfPair (m : Mach) (same : Sent → Bool) (x : Sent) : Prop := m.net.find? same = none ∨ m.net.find? same = some x
def behind (m : Mach) (same : Sent → Bool) (x : Sent) : Prop := ∃ y, m.net.find? same = some y ∧ y ≠ x

/-- A word pushed under `mark` waits (R37, R244): an entry that its team committed before, or an earlier atomic or causal store of its
context, has not performed, or the checkpoint behind the push has not been made. -/
def pushBlocked (m : Mach) (core k mark : Nat) : Prop :=
  let c := m.ctx (4 * core + mark % 4)
  (∃ g ∈ m.gops, g.no < mark / 4 ∧ ((g.isEntry = true ∧ g.rid = c.rid ∧ g.cluster = clusterOf (4 * core + mark % 4)) ∨
    (g.ctx = 4 * core + mark % 4 ∧ (g.isAmo = true ∨ g.isCausal = true)))) ∨
  ∃ t, m.team? c.rid (clusterOf (4 * core + mark % 4)) = some t ∧ t.cut ≤ mark / 4 ∧ ∃ asm tag, .pushed core k asm tag ∈ t.undo

/-- Words after the header of a MODE 1 request (R294): an address, an operand for OP 0x2 to 0xA, a compare word for OP 0xA. -/
def wordsAfter (op : Nat) : Nat := if op = 1 then 1 else if op = 10 then 3 else 2

end Sys2Proof.Claims

/-- R155, R176, R295, R297: a remote request is served at its home and answered, and one that comes to a package that has not attested is
answered as undeliverable (R298, R368); an answer ends the operation whose request it matches, with the effect that R297's table gives it
(a read of several pieces ends with its last one, or with the first that fails), and is stale otherwise; a read that shares bytes of another
package with an earlier read of its context delivers its data after that one, and asks again where what it has got differs (R240; the homes
may serve the two in either order: log 51); a request whose deadline has passed
is answered with a timeout, a causal-token store with its entry (R255). The model's choice: STALEREP is counted for the run of the core's
lowest context (log 52), and deadlines are times of fabric time (log 82). -/
def Sys2Proof.Claims.RemoteAccessesAreServedAndAnswered : Prop :=
  ∀ (s : State), awake s →
    (∀ (r : RemReq) (m1 : Mach), came s.m m1 r.src (.remote s.m.pkg.chip r) →
      (let o := served m1 r.pa r.kind
       happens (.remoteRequestArrive r) s (Mach.post o.2.2 r.src (.reply r.src r.core r.tag r.gen (BitVec.ofNat 4 o.1) o.2.1)))) ∧
    (∀ (r : RemReq), absent s.m r.src (.remote s.m.pkg.chip r) → happens (.remoteRequestArrive r) s s.m) ∧
    (∀ (r : RemReq), Sent.remote s.m.pkg.chip r ∉ s.m.net → r.src ≠ s.m.pkg.chip → s.m.pkg.attested = false →
      happens (.remoteRequestArrive r) s (Mach.post s.m r.src (.undeliverable r.src (.access r.core r.tag r.gen)))) ∧
    (∀ (core : BitVec 8) (tag : Nat) (gen st : BitVec 4) (data : List Byte) (m1 : Mach),
      heard s.m m1 (.reply s.m.pkg.chip core tag gen st data) →
      (∀ g q p, outstanding s.m core tag gen g q → pieceFor g q p →
        (st = 0 → lastPiece g q ∧ (∀ d, g.act = .read d → d ≠ .none → ¬ behindRead s.m g ∧ ¬ differs (wholeRead g p data))) →
        ∃ m : Mach, happens (.remoteReplyArrive core tag gen st data) s m ∧ answerEffect m1 m g p st.toNat data) ∧
      (∀ g q p d, outstanding s.m core tag gen g q → pieceFor g q p → g.act = .read d → d ≠ .none → st = 0 → lastPiece g q →
        (behindRead s.m g → happens (.remoteReplyArrive core tag gen st data) s (pieceEffect m1 g q p data)) ∧
        (¬ behindRead s.m g → differs (wholeRead g p data) → happens (.remoteReplyArrive core tag gen st data) s
          { m1 with gops := m1.gops.map (fun h => if h.id = g.id then askedAgain g q p data else h) })) ∧
      (∀ g q p d, outstanding s.m core tag gen g q → pieceFor g q p → g.act = .read d → st = 0 → ¬ lastPiece g q →
        happens (.remoteReplyArrive core tag gen st data) s (pieceEffect m1 g q p data)) ∧
      (unmatched s.m core tag gen → happens (.remoteReplyArrive core tag gen st data) s (runCounted m1 (s.m.runOn core.toNat) 2))) ∧
    (∀ (g : GOp) (d : Dest), (∃ a b, s.m.gops = a ++ g :: b ∧ ∀ h ∈ a ++ b, h.id ≠ g.id) → g.needs = [] → g.sent = true → g.reqs = [] →
      g.act = .read d → d ≠ .none → (∀ o ∈ g.segs, (kget o.off g.got).isSome = true) →
      (behindRead s.m g → happens (.lgReadPerform g.id) s s.m) ∧
      (¬ behindRead s.m g → ¬ differs g → ∃ m : Mach, happens (.lgReadPerform g.id) s m ∧ (∀ h ∈ m.gops, h.id ≠ g.id) ∧ m.mem = s.m.mem ∧
        m.ops = s.m.ops ∧ m.rets = s.m.rets ++ [{ id := g.id, ctx := g.ctx, slot := if g.isFeed then 4 else 10, dest := d
                                                  bytes := g.segs.flatMap (fun o => (List.range o.len).map (fun i =>
                                                    (kget (o.off + i) g.own).getD (((kget o.off g.got).getD []).getD i 0))) }])) ∧
    (∀ (core : BitVec 8) (tag : Nat) (gen st : BitVec 4) (data : List Byte), Sent.reply s.m.pkg.chip core tag gen st data ∉ s.m.net →
      s.m.pkg.attested = false → happens (.remoteReplyArrive core tag gen st data) s s.m) ∧
    (∀ (core : BitVec 8) (tag : Nat) (gen : BitVec 4) (g : GOp) (q : Req) (p : Seg), outstanding s.m core tag gen g q → pieceFor g q p →
      (∀ h ∈ s.m.gops, coreOf h.ctx = core.toNat → ∀ r ∈ h.reqs, r.tag = tag → h = g ∧ r = q) →
      (q.due ≤ s.m.pkg.ftime → (∀ n l d bs, g.act ≠ .causal (some n) l d bs) → ∃ m : Mach, happens (.remoteRequestTimeout core tag) s m ∧
        answerEffect s.m m g p 2 []) ∧
      (∀ n l d bs, g.act = .causal (some n) l d bs → happens (.remoteRequestTimeout core tag) s s.m) ∧
      (s.m.pkg.ftime < q.due → happens (.remoteRequestTimeout core tag) s s.m))

/-- R37, R244, R292 to R296: a word at the head of a MODE 0 pair leaves when what it waits for has performed; a whole request of a MODE 1
pair leaves, whatever its OP, and its timeout starts unless its tag has been used again; an arriving word enters the FIFO of the pair it is
bound to, waits for room and for its turn, or is counted; a request is served in its turn at its home and answered with two words, which
its pair takes in their turn if they match; a timeout is answered with STATUS 2. The model's choice: deadlines are times of fabric time
(log 82). -/
def Sys2Proof.Claims.LinkPairsCarryWordsAndRequests : Prop :=
  ∀ (s : State) (core : Nat) (k : BitVec 3), awake s →
    (let l := (s.m.core core).link k.toNat
     let expiryTime := s.m.pkg.ftime + 1000 * s.m.pkg.expiry.toNat
     let blocked := pushBlocked s.m core k.toNat
     (∀ w mark bind rest, l.outb = (w, mark, bind) :: rest → linkMode bind = 0 →
       (¬ blocked mark → happens (.linkPushDepart core k) s (Mach.post (linkWith s.m core k.toNat { l with outb := rest }) (linkChip bind)
         (.linkWord (linkChip bind) { src := s.m.pkg.chip, srcCore := BitVec.ofNat 8 core, core := bind.extractLsb' 0 8, link := k, word := w }))) ∧
       (blocked mark → happens (.linkPushDepart core k) s s.m)) ∧
     (∀ (w : W64) (mark : Nat) (bind : W64) (a : W64 × Nat × W64) (args rest : List (W64 × Nat × W64)),
       l.outb = (w, mark, bind) :: a :: (args ++ rest) → linkMode bind ≠ 0 →
       (let op := w.toNat / 2 ^ 60
        let tag := w.extractLsb' 48 12
        let gen := w.extractLsb' 44 4
        1 ≤ op → op ≤ 10 → args.length + 1 = wordsAfter op →
        ((∀ p ∈ (w, mark, bind) :: a :: args, ¬ blocked p.2.1) →
          happens (.linkPushDepart core k) s (Mach.post (linkWith s.m core k.toNat { l with
            outb := rest
            out_ := if (kget tag.toNat l.out_).isSome = true ∧ rget tag.toNat l.gen = gen then kput tag.toNat expiryTime l.out_ else l.out_ })
            (linkChip bind) (.linkReq (linkChip bind)
              { src := s.m.pkg.chip, core := BitVec.ofNat 8 core, link := k, op := BitVec.ofNat 4 op, tag := tag, gen := gen, pa := a.1.toNat,
                opnd := (args.map (fun p => p.1)).getD 0 0, cmp := (args.map (fun p => p.1)).getD 1 0 }))) ∧
        ((∃ p ∈ (w, mark, bind) :: a :: args, blocked p.2.1) → happens (.linkPushDepart core k) s s.m))) ∧
     (∀ w mark bind args, l.outb = (w, mark, bind) :: args → linkMode bind ≠ 0 → args.length < wordsAfter (w.toNat / 2 ^ 60) →
       happens (.linkPushDepart core k) s s.m) ∧
     (l.outb = [] → happens (.linkPushDepart core k) s s.m) ∧
     (∀ (w : LinkWord), w.core.toNat = core → w.link = k →
       (let x := Sent.linkWord s.m.pkg.chip w
        let same := fun (y : Sent) => match y with
          | .linkWord _ v => v.srcCore == w.srcCore && v.link == w.link && v.core == w.core
          | _ => false
        let partner := (∃ r, l.holder = some r) ∧ linkMode l.bind = 0 ∧ linkChip l.bind = w.src ∧ l.bind.extractLsb' 0 8 = w.srcCore
        (∀ m1, came s.m m1 w.src x → firstOfPair s.m same x →
          (partner → l.inb.length + placesKept s.m core k.toNat < Config.linkWords →
            happens (.linkWordArrive w) s (linkWith m1 core k.toNat { l with inb := l.inb ++ [w.word] })) ∧
          (partner → Config.linkWords ≤ l.inb.length + placesKept s.m core k.toNat → happens (.linkWordArrive w) s s.m) ∧
          (¬ partner → happens (.linkWordArrive w) s { m1 with pkg := { m1.pkg with cnts := rput core (rget core m1.pkg.cnts + 1) m1.pkg.cnts } })) ∧
        (w.src = s.m.pkg.chip → behind s.m same x → happens (.linkWordArrive w) s s.m))) ∧
     (∀ (r : LinkReq) (kind : RemKind),
       (r.op = 1 ∧ kind = .load 8) ∨ (r.op = 2 ∧ kind = .store (lowBytes 8 r.opnd.toNat)) ∨
         (∃ op, kind = .amo op r.opnd (if r.op = 10 then r.cmp else 0) ∧ (r.op, op) ∈ [((3 : BitVec 4), AmoOp.add), (4, .min), (5, .max), (6, .and),
           (7, .or), (8, .xor), (9, .swp), (10, .cas)]) →
       (let x := Sent.linkReq s.m.pkg.chip r
        let same := fun (y : Sent) => match y with
          | .linkReq _ v => v.core == r.core && v.link == r.link
          | _ => false
        (∀ m1, came s.m m1 r.src x → firstOfPair s.m same x →
          (let o := served m1 r.pa kind
           happens (.linkRequestServe r) s (Mach.post o.2.2 r.src (.linkReply r.src r.core r.link
             (statusOf o.1 r.tag.toNat r.gen.toNat) (BitVec.ofNat 64 (leNat o.2.1)))))) ∧
        (r.src = s.m.pkg.chip → behind s.m same x → happens (.linkRequestServe r) s s.m))) ∧
     (∀ (st tag gen : Nat) (data : W64), core < 256 → st < 16 → tag < 4096 → gen < 16 →
       (let x := Sent.linkReply s.m.pkg.chip (BitVec.ofNat 8 core) k (statusOf st tag gen) data
        let same := fun (y : Sent) => match y with
          | .linkReply _ c n _ _ => decide (c.toNat = core ∧ n = k)
          | _ => false
        let i := Instr.linkReplyArrive core k (statusOf st tag gen) data
        (∀ m1, heard s.m m1 x → firstOfPair s.m same x → replyTaken i s m1 core k.toNat tag gen (statusOf st tag gen) data) ∧
        (∀ st' data' chip, s.m.net.find? same = some (.linkReply chip (BitVec.ofNat 8 core) k st' data') →
          st' ≠ statusOf st tag gen ∨ data' ≠ data → happens i s s.m) ∧
        (s.m.net.find? same = none → s.m.pkg.attested = false → happens i s s.m))) ∧
     (∀ (tag : BitVec 12) (due : Nat), kget tag.toNat l.out_ = some due →
       (due ≠ 0 → due ≤ s.m.pkg.ftime → l.inb.length + placesKept s.m core k.toNat + 2 ≤ Config.linkWords →
         happens (.linkRequestTimeout core k tag) s (linkWith s.m core k.toNat { l with
           inb := l.inb ++ [statusOf 2 tag.toNat (rget tag.toNat l.gen).toNat, 0], out_ := kdel tag.toNat l.out_ })) ∧
       (due ≠ 0 → due ≤ s.m.pkg.ftime → Config.linkWords < l.inb.length + placesKept s.m core k.toNat + 2 →
         happens (.linkRequestTimeout core k tag) s s.m) ∧
       (due = 0 ∨ s.m.pkg.ftime < due → happens (.linkRequestTimeout core k tag) s s.m)))

/-- R290, R298, R361: an undeliverable notice that comes fails what it names: a transfer ends without success, an access (a causal-token
store among them) and a link request fail as after a failure of their kind, units of power return, with no cap (the model's choice: log 113);
a notice that matches nothing outstanding is stale. None comes from another package before this one has attested. -/
def Sys2Proof.Claims.UndeliverableNoticesFailTheirSender : Prop :=
  ∀ (s : State), awake s →
    (∀ (n : Notice) (m1 : Mach), heard s.m m1 (.undeliverable s.m.pkg.chip n) →
      (let i := Instr.undeliverableNotice n
       (∀ (core : BitVec 8) (tid : BitVec 12) (f : Xfer), n = .transfer core tid →
         (s.m.core core.toNat).xfers.find? (fun f => f.tid == tid && !f.done) = some f →
         coreOf f.ctx = core.toNat → (∀ g ∈ (s.m.core core.toNat).xfers, g.op = f.op → g = f) →
         (∀ o ∈ (s.m.ctx f.ctx).xq, o.id = f.op → isMulticast o.ins = false) → (s.m.ctx f.ctx).pend.ptf = false → ∃ m : Mach,
           happens i s m ∧ m.ops = s.m.ops.filter (fun i => i ≠ f.op) ∧ m.mem = s.m.mem ∧ m.net = m1.net ∧
           (m.ctx f.ctx).pend = { (s.m.ctx f.ctx).pend with ptf := true, ptfC := 0x22, ptfV := f.dest }) ∧
       (∀ core tid, n = .transfer core tid → (∀ f ∈ (s.m.core core.toNat).xfers, f.tid = tid → f.done = true) → happens i s m1) ∧
       (∀ (core : BitVec 8) (tag : Nat) (gen : BitVec 4) (g : GOp) (q : Req) (p : Seg), n = .access core tag gen →
         outstanding s.m core tag gen g q → pieceFor g q p → ∃ m : Mach, happens i s m ∧ answerEffect m1 m g p 3 []) ∧
       (∀ (core : BitVec 8) (tag : Nat) (gen : BitVec 4), n = .access core tag gen → unmatched s.m core tag gen →
         happens i s (runCounted m1 (s.m.runOn core.toNat) 2)) ∧
       (∀ (core : BitVec 8) (k : BitVec 3) (tag : BitVec 12) (gen : BitVec 4), n = .link core k tag gen →
         replyTaken i s m1 core.toNat k.toNat tag.toNat gen.toNat (statusOf 3 tag.toNat gen.toNat) 0) ∧
       (∀ k, n = .units k → happens i s { m1 with pkg := { m1.pkg with p := m1.pkg.p + k } }) ∧
       (∀ c, n = .packet c → happens i s m1))) ∧
    (∀ n : Notice, Sent.undeliverable s.m.pkg.chip n ∉ s.m.net → s.m.pkg.attested = false → happens (.undeliverableNotice n) s s.m)

/-- R155, R176, R295, R297, R290, R298, R361. Its parts: `RemoteAccessesAreServedAndAnswered`; `UndeliverableNoticesFailTheirSender`. What
rests on log entries 51, 52, 82, 113 is the model's choice: each part names the clause. -/
def Obligations.RemoteAccessesAndUndeliverableNotices : Prop :=
  Claims.RemoteAccessesAreServedAndAnswered ∧ Claims.UndeliverableNoticesFailTheirSender

namespace Sys2Proof.Claims

/-- Port `k` of the machine replaced. -/
def portWith (m : Mach) (k : Nat) (q : Port) : Mach := { m with pkg := { m.pkg with ports := kput k q m.pkg.ports } }

/-- One more link error of port `k` (R290, R373). -/
def linkErrorOf (m : Mach) (k : Nat) : Mach :=
  { m with pkg := { m.pkg with cnts := rput (289 + k) (rget (289 + k) m.pkg.cnts + 1) m.pkg.cnts } }

/-- The 12 bytes of the nonce for counter `ctr` of a port: its epoch, then the counter (R289; the byte order is the model's choice, log 8). -/
def nonceFor (p : Port) (ctr : Nat) : List Byte := beBytes 12 (p.epoch.toNat * 2 ^ 64 + ctr % 2 ^ 64)

/-- The tag of a flit: the first 64 bits of that of AES-256-GCM over its header and its encrypted payload (R7, R289). -/
def tagFor (key : BitVec 256) (nonce : List Byte) (f : Flit) : BitVec 64 :=
  BitVec.ofNat 64 (leNat ((aesGcmTag (bytesOf 32 key) nonce (bytesOf 8 f.hdr) (bytesOf 256 f.payload)).take 8))

/-- The payload of a flit under the key stream of AES-256-GCM (R7, R289). -/
def underKey (key : BitVec 256) (nonce : List Byte) (x : BitVec 2048) : BitVec 2048 :=
  x ^^^ BitVec.ofNat 2048 (leNat (aesGcmStream (bytesOf 32 key) nonce 256))

/-- Whether the flit that comes next by a port has the tag it should have, and the flit in clear (R289): the nonce has the next counter.
Before attestation there is no key. -/
def tagGood (p : Port) (f : Flit) : Prop := p.attested = false ∨ f.tag = tagFor p.keyRx (nonceFor p p.rx) f
def inClear (p : Port) (f : Flit) : Flit :=
  if p.attested = true then { f with payload := underKey p.keyRx (nonceFor p p.rx) f.payload, tag := 0 } else f

/-- A flit in clear as it goes on the link under counter `ctr` (R289). -/
def onLink (p : Port) (ctr : Nat) (f : Flit) : Flit :=
  if p.attested = true then
    let g : Flit := { f with payload := underKey p.keyTx (nonceFor p ctr) f.payload }
    { g with tag := tagFor p.keyTx (nonceFor p ctr) g }
  else f

/-- Flit header fields (R288). -/
def classIn (f : Flit) : Nat := f.hdr.toNat / 2 ^ 61
def destIn (f : Flit) : BitVec 12 := BitVec.ofNat 12 (f.hdr.toNat / 2 ^ 47)
def srcIn (f : Flit) : BitVec 12 := BitVec.ofNat 12 (f.hdr.toNat / 2 ^ 35)

/-- What the notice for a packet says, by its first flit (R298). -/
def noticeIn (f : Flit) : Notice := (Config.packetNotice (BitVec.ofNat 3 (classIn f)) f.payload).getD (.packet (BitVec.ofNat 3 (classIn f)))

/-- The source of the packet that the flit begins is told (R298); a later flit of it tells no more. -/
def sourceTold (m : Mach) (f : Flit) : Mach :=
  if f.hdr.getLsbD 60 = true then m.post (srcIn f) (.undeliverable (srcIn f) (noticeIn f)) else m

/-- The packets of a port by class after the flit `f`: the one it ends is gone, the one it begins is there. -/
def marked {α : Type} (l : KMap α) (f : Flit) (v : α) : KMap α :=
  if f.hdr.getLsbD 59 = true then kdel (classIn f) l else if f.hdr.getLsbD 60 = true then kput (classIn f) v l else l

/-- The packet that the kept flit `e` begins has been sent whole, and its last flit has a counter from `ctr` on (R290): the far side may not
have it. -/
def underWay (l : List KeptFlit) (ctr : Nat) (e : KeptFlit) : Prop :=
  ∃ a b z c, l = a ++ b ++ z :: c ∧ (b ++ [z]).head? = some e ∧ e.flit.hdr.getLsbD 60 = true ∧ z.flit.hdr.getLsbD 59 = true ∧
    classIn z.flit = classIn e.flit ∧ ctr ≤ z.ctr ∧ (∀ y ∈ b, classIn y.flit = classIn e.flit → y.flit.hdr.getLsbD 59 = false) ∧
    ∀ y ∈ (b ++ [z]).tail, classIn y.flit = classIn e.flit → y.flit.hdr.getLsbD 60 = false

/-- The source of the packet that the flit `f` begins has been told (R298): the notice waits in this package or to leave it. -/
def toldOf (s : State) (m : Mach) (f : Flit) : Prop :=
  (srcIn f = s.m.pkg.chip → .undeliverable s.m.pkg.chip (noticeIn f) ∈ m.net) ∧
    (srcIn f ≠ s.m.pkg.chip → m.pkg.reaches 5 (srcIn f) = true → .undeliverable (srcIn f) (noticeIn f) ∈ m.out)

/-- Nothing is under way, waits or is partial at port `k` of `m` any more, the source of every packet so discarded has been told (R290, R298),
and no more than that has changed. `ctr` is the first counter whose flit the far side may not have. -/
def cleared (s : State) (k ctr : Nat) (m : Mach) : Prop :=
  let p := s.m.pkg.port k
  (m.pkg.port k).kept = [] ∧ (m.pkg.port k).partial_ = [] ∧ (m.pkg.port k).crossing = [] ∧ (m.pkg.port k).sending = [] ∧
    (∀ j n f, Sent.transit j n f ∈ m.net → n.toNat ≠ k) ∧ m.mem = s.m.mem ∧ m.ctxs = s.m.ctxs ∧ m.cores = s.m.cores ∧
    (∀ x ∈ s.m.out, s.m.pkg.portOf x = some k → ∀ n, noticeOf x = some n → .undeliverable s.m.pkg.chip n ∈ m.net) ∧
    (∀ x ∈ s.m.out, s.m.pkg.portOf x ≠ some k → x ∈ m.out) ∧
    (∀ e, underWay p.kept ctr e → match e.own with
      | none => toldOf s m e.flit
      | some none => True
      | some (some n) => .undeliverable s.m.pkg.chip n ∈ m.net) ∧
    (∀ f, (∃ c, (c, f) ∈ p.partial_ ∨ (c, f) ∈ p.crossing ∨ ∃ j, (c, j, f) ∈ p.sending) ∨
        (f.hdr.getLsbD 60 = true ∧ ∃ j n, n.toNat = k ∧ Sent.transit j n f ∈ s.m.net) → toldOf s m f) ∧
    ∀ j, j ≠ k → { m.pkg.port j with sending := (s.m.pkg.port j).sending } = s.m.pkg.port j

/-- Port `k` has locked in both directions (R290): every packet that it has discarded has been reported to its source. -/
def locks (i : Instr) (s : State) (k ctr : Nat) : Prop :=
  ∃ m : Mach, happens i s m ∧ (m.pkg.port k).locked = true ∧ (m.pkg.port k).attested = false ∧ cleared s k ctr m

/-- The counter of the first flit that may still be in flight at port `k` (R290): how many are is free (log 104). -/
def firstInFlight (s : State) (k : Nat) : Nat := (s.m.pkg.port k).tx - Config.inFlight k s.m.tick

/-- Port `k` may send a flit of a class (R288, R298, R368, R369). -/
def mayLeave (p : Port) (cls : Nat) : Prop := p.locked = false ∧ p.away = false ∧ p.training = false ∧ (p.attested = true ∨ cls = 5)

/-- The flit of a packet in transit that came by port `j` may leave next: a packet's flits of a class are consecutive (R288). -/
def nextToLeave (p : Port) (j : BitVec 3) (f : Flit) : Prop :=
  mayLeave p (classIn f) ∧ match kget (classIn f) p.sending with
    | some (i, _) => i = j ∧ f.hdr.getLsbD 60 = false
    | none => f.hdr.getLsbD 60 = true

/-- The machine after port `k` has sent a flit (R288 to R290): CRED and SEQ are filled in, it takes the direction's next counter, and the
last 512 are kept. `own` is what to tell the sender of a packet of this package if it is lost (none: a packet in transit). -/
def flitSent (m : Mach) (k : BitVec 3) (own : Option (Option Notice)) (f : Flit) : Mach :=
  let p := m.pkg.port k.toNat
  let g : Flit := { f with
    hdr := BitVec.ofNat 64 (f.hdr.toNat / 2 ^ 27 * 2 ^ 27 + (Config.credits k.toNat p.tx).toNat * 2 ^ 16 + p.tx % 2 ^ 16) }
  { m with
    wire := m.wire ++ [(k, onLink p p.tx g)]
    pkg := { m.pkg with
      flits := m.pkg.flits + 1
      ports := kput k.toNat { p with tx := p.tx + 1, kept := (p.kept ++ [({ ctr := p.tx, flit := g, own := own } : KeptFlit)]).drop (p.kept.length - 511) } m.pkg.ports } }

/-- The flits of a packet of `bs` bytes (R288): 256 bytes each, LEN their number less one, SOP in the first and EOP in the last. -/
def flitsFor (cls : Nat) (dest src : BitVec 12) (bs : List Byte) : List Flit :=
  let n := if bs.length = 0 then 1 else (bs.length + 255) / 256
  (List.range n).map (fun i =>
    let part := (bs.drop (256 * i)).take 256
    { hdr := BitVec.ofNat 64 (cls * 2 ^ 61 + (if i = 0 then 2 ^ 60 else 0) + (if i + 1 = n then 2 ^ 59 else 0) + dest.toNat * 2 ^ 47 +
        src.toNat * 2 ^ 35 + (part.length - 1) * 2 ^ 27)
      payload := BitVec.ofNat 2048 (leNat part), tag := 0 })

/-- The runs after run `r` has originated `n` flits (R363). -/
def originated (m : Mach) (r : Option Nat) (n : Nat) : List Run :=
  m.runs.map (fun q => if r = some q.id then { q with flits := q.flits + n } else q)

/-- The Ed25519 and the ML-DSA-65 signature of a report both verify (R7, R368). -/
def reportGood (r : AttReport) : Prop :=
  ed25519Verify (bytesOf 32 (Config.identityEd25519 r.chip)) (Config.reportMessage r.chip r.life r.digest) (bytesOf 64 r.sigs.ed) = true ∧
    mlDsa65Verify (Config.identityMlDsa65 r.chip) (Config.reportMessage r.chip r.life r.digest) r.sigs.ml = true

/-- ML-KEM-768 at tick `n` (R7): a far encapsulation key is answered with a ciphertext; a far ciphertext is opened with the key pair that
this package's share is of. `share` is what this package sends and `kem` the secret. Which end encapsulates is the model's choice (log 8). -/
def kemDone (n : Nat) (far share kem : List Byte) : Prop :=
  (mlKem768KeyOk far = true ∧ mlKem768Encaps far (bytesOf 32 (Config.kemMessage n)) = (kem, share)) ∨
    (mlKem768KeyOk far = false ∧ far.length = 1088 ∧ share = mlKem768Public (bytesOf 32 (Config.kemSeedD n)) ∧
      kem = mlKem768Decaps (bytesOf 32 (Config.kemSeedD n)) (bytesOf 32 (Config.kemSeedZ n)) far)

/-- The key of a direction (R7, R289): HKDF with SHA-384 over the two joined secrets, that of X25519 first. -/
def directionKey (n : Nat) (r : AttReport) (kem : List Byte) (up : Bool) : BitVec 256 :=
  BitVec.ofNat 256 (leNat (hkdfSha384 Config.hkdfSalt (x25519 (bytesOf 32 (Config.x25519Scalar n)) (bytesOf 32 r.x25519) ++ kem)
    (Config.hkdfInfo up) 32))

/-- This package's own report, signed at tick `n` with the identity key pairs `id` (R368). -/
def ownReport (p : Pkg) (id n : Nat) (share : List Byte) : AttReport :=
  let msg := Config.reportMessage p.chip p.life (Config.digest p.flash.image)
  { chip := p.chip
    life := p.life
    digest := Config.digest p.flash.image
    sigs := {
      ed := BitVec.ofNat 512 (leNat (ed25519Sign (bytesOf 32 (Config.edSeed id)) msg))
      ml := mlDsa65Sign (bytesOf 32 (Config.dsaSeed id)) msg (bytesOf 32 (Config.dsaRandom n)) }
    x25519 := BitVec.ofNat 256 (leNat (x25519 (bytesOf 32 (Config.x25519Scalar n)) x25519Base))
    mlKem := share }

end Sys2Proof.Claims

/-- R287 to R290, R298, R368, R372: the next flit of a port whose tag matches moves the counter and is taken: one with a reserved class, or
with a DEST that no route brings to this port, is discarded and counted, and the source of a packet that cannot go on is told; a flit for
another package goes on and a packet for this one is gathered; before attestation only control is carried. A bad tag asks for replay once,
what does not match is discarded until the replay, and the second time the port locks: what is in flight, waits or is partial there is
reported to its source, and so is what still comes by it. What the far side asks for is sent again. The model's choices: flits in clear before
attestation (log 99), a second request for a counter as the sign of a second failure (log 110); how many flits are in flight at a lock and
when the far router is in reset are free (log 104). -/
def Sys2Proof.Claims.PortsReceiveAndReplay : Prop :=
  ∀ (s : State) (k : BitVec 3) (f : Flit), awake s →
    (let n := k.toNat
     let p := s.m.pkg.port n
     let g := inClear p f
     let cls := classIn g
     let route := s.m.pkg.route (destIn g)
     let moved : Port := { p with rx := p.rx + 1, retry := none }
     let m1 := portWith s.m n moved
     let i := Instr.flitReceive k f
     let taken := n < 6 ∧ p.away = false ∧ p.locked = false ∧ (p.retry = none ∨ f.hdr.toNat % 2 ^ 16 = p.rx % 2 ^ 16) ∧ tagGood p f
     let open_ := p.attested = true ∨ cls = 5
     let turned := fun (j : Nat) => j = n ∨ j / 2 < n / 2
     let known := cls < 6 ∧ s.m.pkg.names (destIn g) = true
     (taken → open_ → 6 ≤ cls → happens i s (linkErrorOf m1 n)) ∧
     (taken → open_ → cls < 6 → s.m.pkg.names (destIn g) = false → happens i s (sourceTold (linkErrorOf m1 n) g)) ∧
     (∀ j, taken → open_ → known → route = some j → turned j → happens i s (sourceTold (linkErrorOf m1 n) g)) ∧
     (∀ j, taken → open_ → known → route = some j → ¬ turned j →
       (s.m.pkg.reaches cls (destIn g) = false → happens i s (sourceTold (portWith s.m n { moved with crossing := kdel cls p.crossing }) g)) ∧
       (s.m.pkg.reaches cls (destIn g) = true → (g.hdr.getLsbD 60 = true ∨ (kget cls p.crossing).isSome = true) →
         happens i s { portWith s.m n { moved with crossing := marked p.crossing g g } with
           net := s.m.net ++ [.transit k (BitVec.ofNat 3 j) g] }) ∧
       (s.m.pkg.reaches cls (destIn g) = true → g.hdr.getLsbD 60 = false → kget cls p.crossing = none → happens i s m1)) ∧
     (taken → open_ → known → route = none → happens i s (portWith s.m n { moved with partial_ := marked p.partial_ g g })) ∧
     (taken → ¬ open_ → happens i s (sourceTold m1 g)) ∧
     (n < 6 → p.away = false → p.locked = false → ¬ tagGood p f → p.retry = none →
       happens i s (let m := linkErrorOf (portWith s.m n { p with retry := some p.rx }) n
         { m with out := s.m.out ++ [.replayRequest k p.rx] })) ∧
     (n < 6 → p.away = false → p.locked = false → ¬ tagGood p f → p.retry.isSome = true → f.hdr.toNat % 2 ^ 16 = p.rx % 2 ^ 16 →
       locks i s n (firstInFlight s n)) ∧
     (n < 6 → p.away = false → p.locked = false → p.retry.isSome = true → f.hdr.toNat % 2 ^ 16 ≠ p.rx % 2 ^ 16 → happens i s s.m) ∧
     (n < 6 → p.away = false → p.locked = true → happens i s (sourceTold s.m f)) ∧
     (6 ≤ n ∨ p.away = true → happens i s s.m) ∧
     (∀ c, n < 6 → p.locked = false →
       (p.asked ≠ some c → happens (.linkReplayRequest k c) s (let m := portWith s.m n { p with asked := some c }
          { m with wire := s.m.wire ++ (p.kept.filter (fun e => decide (c ≤ e.ctr))).map (fun e => (k, onLink p e.ctr e.flit)) })) ∧
       (p.asked = some c → locks (.linkReplayRequest k c) s n c)))

/-- R287 to R291, R363, R368, R369: a port sends the first flit in transit that may leave by it, or all flits of the first of this
package's own packets that may, counted for the run that originated it. An attestation report whose two signatures verify opens the
port under the next epoch, with counters at 0 and keys derived from the agreement, this package sends its own report, and fabric time counts.
Retraining ends. The model's choice: a report that is not accepted, or that meets a package without identity keys, leaves the port as it is
(log 109). -/
def Sys2Proof.Claims.PortsSendAndAttest : Prop :=
  ∀ (s : State) (k : BitVec 3) (r : AttReport), awake s →
    (let n := k.toNat
     let p := s.m.pkg.port n
     let free := fun (x : Sent) => s.m.pkg.portOf x = some n ∧ mayLeave p (classOf x) ∧ kget (classOf x) p.sending = none
     (∀ a b j f, n < 6 → s.m.net = a ++ .transit j k f :: b → nextToLeave p j f →
       (∀ i g, Sent.transit i k g ∈ a → ¬ nextToLeave p i g) →
       happens (.packetForward (k, false)) s (flitSent { portWith s.m n { p with sending := marked p.sending f (j, f) } with net := a ++ b } k none f)) ∧
     ((∀ i g, Sent.transit i k g ∈ s.m.net → ¬ nextToLeave p i g) → happens (.packetForward (k, false)) s s.m) ∧
     (∀ a b x, n < 6 → s.m.out = a ++ x :: b → free x → (∀ y ∈ a, ¬ free y) →
       (let fs := flitsFor (classOf x) (s.m.pkg.destOf x) s.m.pkg.chip (Config.packetBytes x)
        happens (.packetForward (k, true)) s (fs.foldl (fun acc f => flitSent acc k (some (noticeOf x)) f)
          { s.m with out := a ++ b, runs := originated s.m (s.m.originOf x) fs.length }))) ∧
     ((∀ y ∈ s.m.out, ¬ free y) → happens (.packetForward (k, true)) s s.m) ∧
     (∀ id share kem, n < 6 → s.m.pkg.identity = some id → reportGood r → kemDone s.m.tick r.mlKem share kem →
       happens (.linkAttestation k r) s { s.m with
         tick := s.m.tick + 1
         out := s.m.out ++ [.attest k (ownReport s.m.pkg id s.m.tick share)]
         pkg := { s.m.pkg with
           counting := true
           ports := kput n { p with
             locked := false, attested := true, epoch := p.epoch + 1, rx := 0, tx := 0, retry := none, asked := none, kept := []
             keyTx := directionKey s.m.tick r kem (decide (s.m.pkg.chip.toNat < r.chip.toNat))
             keyRx := directionKey s.m.tick r kem (decide (r.chip.toNat < s.m.pkg.chip.toNat)) } s.m.pkg.ports } }) ∧
     (n < 6 → s.m.pkg.identity = none ∨ ¬ reportGood r ∨ (∀ share kem, ¬ kemDone s.m.tick r.mlKem share kem) →
       happens (.linkAttestation k r) s s.m) ∧
     (p.training = true → happens (.linkRetrainDone k) s (portWith s.m n { p with training := false })) ∧
     (p.training = false → happens (.linkRetrainDone k) s s.m))

/-- R37, R244, R292, R296, R287, R290, R298, R368, R372, R291, R363, R369. Its parts: `LinkPairsCarryWordsAndRequests`;
`PortsReceiveAndReplay`; `PortsSendAndAttest`. What rests on log entries 82, 99, 104, 109, 110 is the model's choice: each part names the
clause. -/
def Obligations.LinksAndPortsCarryWords : Prop :=
  Claims.LinkPairsCarryWordsAndRequests ∧ Claims.PortsReceiveAndReplay ∧ Claims.PortsSendAndAttest

namespace Sys2Proof.Claims

/-- The operation of the `st.lg.c` that has token `n` (R251). -/
def tokenOp (g : GOp) (n : BitVec 16) : Prop := ∃ l d bs, g.act = .causal (some n) l d bs

/-- A token of this package lands (R252, R254): its entry is freed once those that wait are answered, its store is outstanding no longer. -/
def landsHere (m m' : Mach) (n : BitVec 16) : Prop :=
  match kget n.toNat m.pkg.own with
  | some e =>
    if e.state = .pending then
      kget n.toNat m'.pkg.own = none ∧ (∀ j, j ≠ n.toNat → kget j m'.pkg.own = kget j m.pkg.own) ∧
        (e.waiting = [m.pkg.chip] → m'.net = m.net ++ [.answer m.pkg.chip n true]) ∧ (e.waiting = [] → m'.net = m.net ∧ m'.out = m.out) ∧
        (∀ a g b, m.gops = a ++ g :: b → tokenOp g n → (∀ h ∈ a, ¬ tokenOp h n) →
          m'.gops = m.gops.filter (fun h => h.id ≠ g.id) ∧ m'.ops = m.ops.filter (fun i => i ≠ g.id)) ∧
        ((∀ g ∈ m.gops, ¬ tokenOp g n) → m'.gops = m.gops ∧ m'.ops = m.ops) ∧ m'.mem = m.mem ∧ m'.ctxs = m.ctxs
    else m' = m
  | none => m' = m

/-- A causal store performs at its home (R155, R254): its bytes are written, and its issuer learns of it. -/
def performsHere (m m' : Mach) (p : CausalPkt) : Prop :=
  let w : Mach := if p.src = m.pkg.chip then servedBy (m.store p.pa p.bytes) (m.ctx p.ctx).rid [p.pa] else m.store p.pa p.bytes
  let reply := fun (st : BitVec 4) => Sent.reply p.src (BitVec.ofNat 8 (coreOf p.ctx)) p.tag p.gen st []
  let there := populated p.pa = true ∧ populated (p.pa + p.bytes.length - 1) = true
  (¬ there → m' = m.post p.src (reply 1)) ∧
  (∀ n, there → p.seq = some n → p.src = m.pkg.chip → landsHere w m' n) ∧
  (∀ n, there → p.seq = some n → p.src ≠ m.pkg.chip →
    m' = (if m.pkg.own.length + m.pkg.landed.length < Config.tokenPlaces then
        { w with pkg := { w.pkg with landed := m.pkg.landed ++ [{ chip := p.src, seq := n, deadline := p.deadline }] } } else w).post p.src
      (.notice p.src n)) ∧
  (there → p.seq = none → p.src = m.pkg.chip → m' = opOver (gone w p.tag) p.tag) ∧
  (there → p.seq = none → p.src ≠ m.pkg.chip → m' = w.post p.src (reply 0))

/-- The tokens that a carrier brings and no landed record satisfies (R254). -/
def unsettled (m : Mach) (p : CausalPkt) : List (BitVec 16) :=
  p.carries.filter (fun n => !m.pkg.landed.any (fun l => l.chip == p.src && l.seq == n))

/-- A carrier that must be held (R254): it enters the Sluice and one query goes out for each token, or it waits for room. -/
def heldHere (m m' : Mach) (p : CausalPkt) : Prop :=
  (m.pkg.sluice.length < Config.sluicePlaces → (m'.pkg.sluice = m.pkg.sluice ++ [{ pkt := p, unsat := unsettled m p }] ∧ m'.mem = m.mem ∧
    m'.ctxs = m.ctxs ∧ (p.src = m.pkg.chip → m'.net = m.net ++ (unsettled m p).map (fun n => Sent.query p.src n)) ∧
    (p.src ≠ m.pkg.chip → m.pkg.reaches 5 p.src = true → m'.out = m.out ++ (unsettled m p).map (fun n => Sent.query p.src n)))) ∧
  (Config.sluicePlaces ≤ m.pkg.sluice.length → m' = { m with pkg := { m.pkg with jam := m.pkg.jam ++ [p] } })

/-- What an expiry does to the contexts (R255): the pending expiry of the context is set if it is resident. -/
def expiresIn (m m' : Mach) (x : Nat) (va : W64) (lost : List (BitVec 16)) : Prop :=
  (∀ y, y ≠ x → m'.ctx y = m.ctx y) ∧
  ((m.ctx x).status = .absent → m'.ctx x = m.ctx x) ∧
  ((m.ctx x).status ≠ .absent → (m'.ctx x).pend = { (m.ctx x).pend with
    pex := true
    pexN := if (m.ctx x).pend.pexN.toNat = 65535 then (m.ctx x).pend.pexN else (m.ctx x).pend.pexN + 1
    pexA := if (m.ctx x).pend.pex = true then (m.ctx x).pend.pexA else va
    lost := (m.ctx x).pend.lost ++ lost } ∧ (m'.ctx x).regs = (m.ctx x).regs ∧ (m'.ctx x).status = (m.ctx x).status)

end Sys2Proof.Claims

/-- R155, R251, R252, R254: a causal store that arrives in time and carries nothing performs, a carrier performs when every token it
carries is satisfied and is held otherwise, and what comes after its deadline is dropped with an expiry notice; the first carrier that
waits enters the Sluice when it has room; an answer LANDED satisfies the token and releases what waited for it alone, an answer LOST drops
the carriers that wait, the deadline drops the one it passes. The model's choice: a store that comes at its deadline is in time (log 47), and
a landed record is not kept while the token table is full (log 63). -/
def Sys2Proof.Claims.CausalStoresPerformOrAreHeld : Prop :=
  ∀ (s : State), awake s →
    (∀ (p : CausalPkt) (m1 : Mach), came s.m m1 p.src (.causal s.m.pkg.chip p) →
      (let drop := m1.post p.src (.expiry p.src p.ctx p.va p.tag p.gen)
       (p.carries = [] → s.m.pkg.ftime ≤ p.deadline → ∃ m : Mach, happens (.causalStorePerform p) s m ∧ performsHere m1 m p) ∧
       (p.carries = [] → p.deadline < s.m.pkg.ftime → happens (.causalStorePerform p) s drop) ∧
       (p.carries ≠ [] → happens (.causalStorePerform p) s s.m) ∧
       (p.seq = none → s.m.pkg.ftime ≤ p.deadline → unsettled s.m p = [] → ∃ m : Mach, happens (.carrierArrive p) s m ∧ performsHere m1 m p) ∧
       (p.seq = none → s.m.pkg.ftime ≤ p.deadline → unsettled s.m p ≠ [] → ∃ m : Mach, happens (.carrierArrive p) s m ∧ heldHere m1 m p) ∧
       (p.seq = none → p.deadline < s.m.pkg.ftime → happens (.carrierArrive p) s drop))) ∧
    (∀ p, Sent.causal s.m.pkg.chip p ∉ s.m.net → p.src ≠ s.m.pkg.chip → s.m.pkg.attested = false →
      (let told := s.m.post p.src (.undeliverable p.src (.access (BitVec.ofNat 8 (coreOf p.ctx)) p.tag p.gen))
       (p.carries = [] → happens (.causalStorePerform p) s told) ∧ (p.seq = none → happens (.carrierArrive p) s told))) ∧
    (∀ p rest, s.m.pkg.jam = p :: rest →
      (let m1 : Mach := { s.m with pkg := { s.m.pkg with jam := rest } }
       (s.m.pkg.sluice.length < Config.sluicePlaces → unsettled s.m p ≠ [] → ∃ m : Mach, happens .carrierEnterSluice s m ∧ heldHere m1 m p) ∧
       (s.m.pkg.sluice.length < Config.sluicePlaces → unsettled s.m p = [] → ∃ m : Mach, happens .carrierEnterSluice s m ∧ performsHere m1 m p) ∧
       (Config.sluicePlaces ≤ s.m.pkg.sluice.length → happens .carrierEnterSluice s s.m))) ∧
    (s.m.pkg.jam = [] → happens .carrierEnterSluice s s.m) ∧
    (∀ (chip : BitVec 12) (seq : BitVec 16) (m1 : Mach) (a b : List Held) (h : Held), came s.m m1 chip (.answer s.m.pkg.chip seq true) →
      s.m.pkg.sluice = a ++ h :: b → h.pkt.src = chip →
      (∀ g ∈ a ++ b, g.unsat ≠ [] ∧ (g.pkt.src ≠ chip ∨ seq ∉ g.unsat)) →
      (h.unsat = [seq] → ∃ m : Mach, happens (.answerLanded chip seq) s m ∧
        performsHere { m1 with pkg := { m1.pkg with sluice := a ++ b } } m h.pkt) ∧
      (∀ n, n ≠ seq → h.unsat = [seq, n] → happens (.answerLanded chip seq) s
        { m1 with pkg := { m1.pkg with sluice := a ++ { h with unsat := [n] } :: b } })) ∧
    (∀ (chip : BitVec 12) (seq : BitVec 16) (m1 : Mach) (a b : List Held) (h : Held), came s.m m1 chip (.answer s.m.pkg.chip seq false) →
      s.m.pkg.sluice = a ++ h :: b → h.pkt.src = chip → seq ∈ h.unsat → (∀ g ∈ a ++ b, g.pkt.src ≠ chip ∨ seq ∉ g.unsat) →
      happens (.answerLost chip seq) s
        (Mach.post { m1 with pkg := { m1.pkg with sluice := a ++ b } } chip (.expiry chip h.pkt.ctx h.pkt.va h.pkt.tag h.pkt.gen))) ∧
    (∀ (n : Nat) (a b : List Held) (h : Held), s.m.pkg.sluice = a ++ h :: b → a.length = n →
      (h.pkt.deadline ≤ s.m.pkg.ftime → happens (.carrierDeadline n) s
        (Mach.post { s.m with pkg := { s.m.pkg with sluice := a ++ b } } h.pkt.src (.expiry h.pkt.src h.pkt.ctx h.pkt.va h.pkt.tag h.pkt.gen))) ∧
      (s.m.pkg.ftime < h.pkt.deadline → happens (.carrierDeadline n) s s.m)) ∧
    (∀ (n : Nat) (a b : List CausalPkt) (p : CausalPkt), s.m.pkg.jam = a ++ p :: b → s.m.pkg.sluice.length + a.length = n →
      (p.deadline ≤ s.m.pkg.ftime → happens (.carrierDeadline n) s
        (Mach.post { s.m with pkg := { s.m.pkg with jam := a ++ b } } p.src (.expiry p.src p.ctx p.va p.tag p.gen))) ∧
      (s.m.pkg.ftime < p.deadline → happens (.carrierDeadline n) s s.m))

/-- R252, R254, R255, R298, R318, R368: of another package's notices none reaches a package that has not attested; a landing notice lands a PENDING token and changes nothing of another; a query is answered at once unless the
token is PENDING, which then waits; at its deadline a PENDING entry is LOST, its waiters are answered so and its context's pending
expiry is set, as an expiry notice sets it; a landed record goes at its deadline. The model's choice: a store that is lost and dropped
counts at each (log 47). -/
def Sys2Proof.Claims.TokensLandExpireAndAreAnswered : Prop :=
  ∀ (s : State) (n : BitVec 16), awake s →
    (∀ m1, heard s.m m1 (.notice s.m.pkg.chip n) → ∃ m : Mach, happens (.landingNotice n) s m ∧ landsHere m1 m n) ∧
    (Sent.notice s.m.pkg.chip n ∉ s.m.net → s.m.pkg.attested = false → happens (.landingNotice n) s s.m) ∧
    (∀ chip m1, came s.m m1 chip (.query s.m.pkg.chip n) →
      (kget n.toNat s.m.pkg.own = none → happens (.causalQuery chip n) s (m1.post chip (.answer chip n true))) ∧
      (∀ e, kget n.toNat s.m.pkg.own = some e → e.state = .landed → happens (.causalQuery chip n) s (m1.post chip (.answer chip n true))) ∧
      (∀ e, kget n.toNat s.m.pkg.own = some e → e.state = .lost → happens (.causalQuery chip n) s (m1.post chip (.answer chip n false))) ∧
      (∀ e, kget n.toNat s.m.pkg.own = some e → e.state = .pending → chip ∉ e.waiting → happens (.causalQuery chip n) s
        { m1 with pkg := { m1.pkg with own := kput n.toNat { e with waiting := e.waiting ++ [chip] } m1.pkg.own } })) ∧
    (∀ e, kget n.toNat s.m.pkg.own = some e → e.state = .pending → e.deadline ≤ s.m.pkg.ftime → e.waiting = [] → ∃ m : Mach,
      happens (.ownEntryDeadline n) s m ∧ kget n.toNat m.pkg.own = some { e with state := .lost } ∧ expiresIn s.m m e.ctx e.va [n] ∧
      m.mem = s.m.mem ∧ (∀ a g b, s.m.gops = a ++ g :: b → tokenOp g n → (∀ h ∈ a, ¬ tokenOp h n) →
        m.gops = s.m.gops.filter (fun h => h.id ≠ g.id) ∧ m.ops = s.m.ops.filter (fun i => i ≠ g.id))) ∧
    (∀ e chip, kget n.toNat s.m.pkg.own = some e → e.state = .pending → e.deadline ≤ s.m.pkg.ftime → e.waiting = [chip] → ∃ m : Mach,
      happens (.ownEntryDeadline n) s m ∧ kget n.toNat m.pkg.own = some { e with state := .lost, waiting := [] } ∧
      expiresIn s.m m e.ctx e.va [n] ∧ (chip = s.m.pkg.chip → m.net = s.m.net ++ [.answer chip n false])) ∧
    (∀ e, kget n.toNat s.m.pkg.own = some e → s.m.pkg.ftime < e.deadline ∨ e.state ≠ .pending → happens (.ownEntryDeadline n) s s.m) ∧
    (∀ (x : Nat) (va : W64) (tag : Nat) (gen : BitVec 4),
      (let i := Instr.expiryNotice (x, va) (tag, gen)
       let over_ := fun (m : Mach) (id : Nat) => m.gops = s.m.gops.filter (fun h => h.id ≠ id) ∧ m.ops = s.m.ops.filter (fun j => j ≠ id)
       let core : BitVec 8 := BitVec.ofNat 8 (coreOf x)
       (Sent.expiry s.m.pkg.chip x va tag gen ∈ s.m.net → ∃ m : Mach, happens i s m ∧ expiresIn s.m m x va [] ∧ m.mem = s.m.mem ∧
         over_ m tag) ∧
       (Sent.expiry s.m.pkg.chip x va tag gen ∉ s.m.net → s.m.pkg.attested = false → happens i s s.m) ∧
       (Sent.expiry s.m.pkg.chip x va tag gen ∉ s.m.net → s.m.pkg.attested = true →
         (∀ g q, outstanding s.m core tag gen g q → g.isCausal = true → ∃ m : Mach, happens i s m ∧ expiresIn s.m m x va [] ∧ m.mem = s.m.mem ∧
           over_ m g.id) ∧
         (unmatched s.m core tag gen → ∃ m : Mach, happens i s m ∧ expiresIn s.m m x va [] ∧ m.mem = s.m.mem ∧ m.gops = s.m.gops ∧
           m.ops = s.m.ops)))) ∧
    (∀ chip, (let due := fun (l : Landed) => l.chip = chip ∧ l.seq = n ∧ l.deadline ≤ s.m.pkg.ftime
      ((∃ l ∈ s.m.pkg.landed, due l) → ∃ m : Mach, happens (.landedRecordExpiry chip n) s m ∧
        (∀ l, l ∈ m.pkg.landed ↔ l ∈ s.m.pkg.landed ∧ ¬ due l) ∧ m.pkg.own = s.m.pkg.own ∧ m.mem = s.m.mem) ∧
      ((∀ l ∈ s.m.pkg.landed, ¬ due l) → happens (.landedRecordExpiry chip n) s s.m)))

/-- R155, R251, R252, R254, R255, R298, R318, R368. Its parts: `CausalStoresPerformOrAreHeld`; `TokensLandExpireAndAreAnswered`. What rests
on log entries 47, 63 is the model's choice: each part names the clause. -/
def Obligations.CausalStoresAndTokens : Prop := Claims.CausalStoresPerformOrAreHeld ∧ Claims.TokensLandExpireAndAreAnswered

namespace Sys2Proof.Claims

/-- Two words of a reduction combined (R178, R280, R300). -/
def redResult (op : RedOp) (a b : Nat) : Nat :=
  match op with
  | .addS32 => (a + b) % 2 ^ 32
  | .maxS32 => if (BitVec.ofNat 32 a).toInt < (BitVec.ofNat 32 b).toInt then b else a
  | .minS32 => if (BitVec.ofNat 32 b).toInt < (BitVec.ofNat 32 a).toInt then b else a
  | .addF32 => (fop fmtF32 .add .rne a b 0).1
  | .addBf16 => (fop fmtBf16 .add .rne a b 0).1
  | .maxF32 => if fmtF32.decode a = .nan ∨ fmtF32.decode b = .nan then fmtF32.nan else (fop fmtF32 .max .rne a b 0).1
  | .minF32 =>
    if fmtF32.decode a = .nan ∧ fmtF32.decode b = .nan then fmtF32.nan
    else if fmtF32.decode a = .nan then b else if fmtF32.decode b = .nan then a else (fop fmtF32 .min .rne a b 0).1

/-- A slot serves a contribution (R299): the same line, operation and tenant. -/
def serves (u : RedSlot) (p : RedPkt) : Prop := u.line = p.line ∧ u.op = p.op ∧ u.tenant = p.tenant

/-- The slot after a contribution (R299): each of its words is combined with the slot's, or is the slot's first. -/
def joined (u u' : RedSlot) (p : RedPkt) : Prop :=
  u'.line = u.line ∧ u'.op = u.op ∧ u'.tenant = u.tenant ∧ u'.from_ = u.from_ ++ [(p.src, p.core, p.tag, p.gen)] ∧
  ∀ k, kget k u'.words = match kget k u.words, kget k p.words with
    | some v, some w => some (BitVec.ofNat 32 (redResult p.op v.toNat w.toNat))
    | none, some w => some w
    | o, none => o

/-- Router slots in use (R302). -/
def slotsInUse (m : Mach) : Nat := m.pkg.redSlots.length + m.pkg.xredSlots.length

/-- A contribution at the router (R299, R302): it joins its slot, opens one, or waits for one. -/
def contributes (m m' : Mach) (p : RedPkt) : Prop :=
  (∀ a u b, m.pkg.redSlots = a ++ u :: b → serves u p → (∀ v ∈ a ++ b, ¬ serves v p) →
    ∃ u', joined u u' p ∧ m' = { m with pkg := { m.pkg with redSlots := a ++ u' :: b } }) ∧
  ((∀ v ∈ m.pkg.redSlots, ¬ serves v p) → slotsInUse m < Config.reductionSlots →
    ∃ u', joined { tenant := p.tenant, op := p.op, line := p.line, words := [], nan := false, from_ := [] } u' p ∧
      m' = { m with pkg := { m.pkg with redSlots := m.pkg.redSlots ++ [u'] } }) ∧
  ((∀ v ∈ m.pkg.redSlots, ¬ serves v p) → Config.reductionSlots ≤ slotsInUse m →
    m' = { m with pkg := { m.pkg with redJam := m.pkg.redJam ++ [p] } })

/-- The two keys differ at most in their generation (R304). -/
def sameButGen (a b : XredKey) : Prop := a = { b with gen := a.gen }

/-- A contribution is late (R304): its generation is the kept one of its key, or one of the 7 before it modulo 16. -/
def isLate (m : Mach) (k : XredKey) : Prop := ∃ q ∈ m.pkg.kept, sameButGen q k ∧ ((q.gen.toNat : Int) - k.gen.toNat) % 16 < 8

/-- The contribution of rank `r` has come to a slot. -/
def hasRank (u : XredSlot) (r : Nat) : Prop := ∃ p, kget r u.got = some p

/-- The elements of a collective's merged run (R301): those of the lowest rank, each further rank combined in ascending order. The model's
choice: contributions of different operations under one key give free values (log 45). -/
def mergedElems (ps : List XredPkt) : List Nat :=
  match ps with
  | [] => []
  | p :: rest =>
    if rest.all (fun q => decide (q.op = p.op)) = true then
      (List.range (hdrCnt p.pkt.hdr)).map (fun j =>
        rest.foldl (fun acc q => redResult p.op acc (payloadElem (hdrFmt q.pkt.hdr) q.pkt.payload j)) (payloadElem (hdrFmt p.pkt.hdr) p.pkt.payload j))
    else Config.mixedRun ps

/-- The merged run as a packet (R301), `p` being the contribution of the lowest rank: its header with a TID of zero. The model's choice: source
and core are its as well (log 45). -/
def mergedRun (p : XredPkt) (ps : List XredPkt) : LandPkt :=
  { p.pkt with
    hdr := BitVec.ofNat 128 (p.pkt.hdr.toNat / 2 ^ 16 * 2 ^ 16 + p.pkt.hdr.toNat % 16)
    payload := packElems (hdrFmt p.pkt.hdr) (mergedElems ps) }

/-- An element is a NaN of a reduction's format (R300). -/
def nanOf (op : RedOp) (a : Nat) : Prop :=
  ((op = .addF32 ∨ op = .maxF32 ∨ op = .minF32) ∧ fmtF32.decode a = .nan) ∨ (op = .addBf16 ∧ fmtBf16.decode a = .nan)

/-- The reduction record of a slot with the contributions `got` (R300, R303), if there is one: for an incomplete run, and for one that has
seen a NaN. -/
def recordFor (got : KMap XredPkt) (hdr : BitVec 128) (complete : Bool) (rec : Option (List Byte)) : Prop :=
  let seen := ∃ q ∈ got, ∃ j < hdrCnt q.2.pkt.hdr, nanOf q.2.op (payloadElem (hdrFmt q.2.pkt.hdr) q.2.pkt.payload j)
  (complete = false ∨ seen → ∃ b, rec = some b) ∧
  (complete = true → (∀ q ∈ got, q.2.op = .addS32 ∨ q.2.op = .maxS32 ∨ q.2.op = .minS32) → rec = none) ∧
  ∀ b, rec = some b → b.length = 288 ∧ b.getD 0 0 = 4 ∧ leNat ((b.drop 16).take 16) = hdr.toNat ∧
    (∀ r < 64, (leNat ((b.drop 32).take 8)).testBit r = true ↔ ∃ p, (r, p) ∈ got) ∧
    ((b.getD 40 0).getLsbD 0 = true ↔ complete = false) ∧ (seen → (b.getD 40 0).getLsbD 1 = true)

/-- A collective's slot with the key `k` and the contributions `got`, in rising rank, closes (R301, R303, R304): it is freed and its generation
is kept; the map that takes its merged run begins to land it, or the run is a stray and its record follows. -/
def closes (m m' : Mach) (k : XredKey) (got : KMap XredPkt) (complete : Bool) : Prop :=
  (∀ w ∈ m'.pkg.xredSlots, w.key ≠ k) ∧ (∀ w ∈ m.pkg.xredSlots, w.key ≠ k → w ∈ m'.pkg.xredSlots) ∧ m'.pkg.kept.head? = some k ∧
  m'.mem = m.mem ∧
  ∀ r p rest, got = (r, p) :: rest →
    (let ps := got.map (fun q => q.2)
     let run := mergedRun p ps
     ∃ rec, recordFor got run.hdr complete rec ∧
       (∀ j sl, takenBy (mapsOf m k.tail) run j sl → sl.state ≠ .closing →
         (m'.tail k.tail).landing = some { pkt := run, slot := j, left := List.range (hdrCnt run.hdr), bad := false, merged := some (ps.map (fun q => q.pkt), rec) }) ∧
       ((∀ q ∈ mapsOf m k.tail, q.2.state ≠ .closing → ¬ suits q.2 run) →
         (mapsOf m k.tail = [] ∨ ∃ q ∈ mapsOf m k.tail, q.2.tenant = run.tenant) →
         (m'.tail k.tail).strays = (m.tail k.tail).strays ++
           (packetEntry run 1 :: rec.toList.map (fun b => ({ tenant := run.tenant, bytes := b } : Stray)))))

/-- A collective's contribution may come to its Tailrace: it is landing nothing, and has room for a stray and a record. -/
def mayCome (s : State) (t : Nat) : Prop :=
  t < 288 ∧ (s.m.tail t).landing = none ∧ (s.m.tail t).stop = false ∧ (s.m.tail t).strays.length + 2 ≤ Config.strayPlaces

/-- The one slot of a key. -/
def slotOf (m : Mach) (k : XredKey) (u : XredSlot) : Prop := u ∈ m.pkg.xredSlots ∧ u.key = k ∧ ∀ w ∈ m.pkg.xredSlots, w.key = k → w = u

/-- A contribution of this package is counted among the requests of its run (R363). -/
def countedRed (m : Mach) (p : RedPkt) : Mach :=
  match m.gops.find? (fun g => decide (p.src = m.pkg.chip ∧ g.id = p.tag)) with
  | some g => servedBy m g.rid [64 * p.line]
  | none => m

/-- Memory and the global operations after a slot has been applied (R178, R240, R256): word by word, each read, combined and written. -/
def applied (m : Mach) (u : RedSlot) : Memory × List GOp :=
  u.words.foldl (fun acc p =>
    let loc := 64 * u.line + 4 * p.1
    (writeBytes acc.1 loc (lowBytes 4 (redResult u.op (readLE acc.1 loc 4) p.2.toNat)), acc.2.map (fun g => g.overtaken acc.1 loc 4)))
    (m.mem, m.gops)

/-- A collective's contribution at the router (R301, R302, R304), as event `i`: it joins the slot of its key, opens one, waits for one, or is
late; with the last rank its slot closes. -/
def collected (i : Instr) (s : State) (m0 : Mach) (p : XredPkt) : Prop :=
  let k := keyOf p
  let t := p.pkt.tail
  let x := landXfer p.pkt
  let rank := p.rank.toNat
  let full := fun (u : XredSlot) => ∀ r ≤ p.nc.toNat, r = rank ∨ hasRank u r
  let fresh := ∀ u ∈ m0.pkg.xredSlots, u.key ≠ k
  let room := slotsInUse m0 < Config.reductionSlots
  let late := fun (m : Mach) => m.mem = m0.mem ∧ m.pkg.xredSlots = m0.pkg.xredSlots ∧ rget 288 m.pkg.cnts = rget 288 m0.pkg.cnts + 1 ∧
    (recordOf (m.tail t) x).count = (recordOf (m0.tail t) x).count + 1
  (∀ u, slotOf m0 k u → hasRank u rank → ∃ m : Mach, happens i s m ∧ late m) ∧
  (fresh → isLate m0 k → ∃ m : Mach, happens i s m ∧ late m) ∧
  (∀ u, slotOf m0 k u → ¬ hasRank u rank → ¬ full u → ∃ m : Mach, happens i s m ∧ m.mem = m0.mem ∧
    m.pkg.xredSlots = m0.pkg.xredSlots.map (fun w => if w = u then { u with got := kput rank p u.got } else w)) ∧
  (fresh → ¬ isLate m0 k → room → ¬ (p.nc = 0 ∧ p.rank = 0) → ∃ m : Mach, happens i s m ∧ m.mem = m0.mem ∧
    m.pkg.xredSlots = m0.pkg.xredSlots ++ [{ key := k, got := [(rank, p)], deadline := s.m.pkg.ftime + 1000 * s.m.pkg.expiry.toNat }]) ∧
  (fresh → ¬ isLate m0 k → room → p.nc = 0 → p.rank = 0 → ∃ m : Mach, happens i s m ∧ closes m0 m k [(0, p)] true) ∧
  (fresh → ¬ isLate m0 k → ¬ room → ∃ m : Mach, happens i s m ∧ m.pkg.xredJam = m0.pkg.xredJam ++ [p] ∧ m.mem = m0.mem) ∧
  (∀ u, slotOf m0 k u → ¬ hasRank u rank → full u → (∀ q ∈ u.got, keyOf q.2 = k) → ∃ m : Mach, happens i s m ∧
    closes m0 m k (kput rank p u.got) true)

end Sys2Proof.Claims

/-- R155, R256, R299, R300, R302: a contribution of a memory reduction joins the slot of its line, operation and tenant, opens one, or waits
for one; a slot is applied in one step, word by word, and its issuers learn of it; a contribution that waited takes a freed slot. -/
def Sys2Proof.Claims.ReductionsMergeAndApply : Prop :=
  ∀ (s : State), awake s →
    (∀ (p : RedPkt) (m1 : Mach), came s.m m1 p.src (.red s.m.pkg.chip p) → (p.words.map (fun w => w.1)).Nodup →
      (populated (64 * p.line) = true → ∃ m : Mach, happens (.reductionContributionArrive p) s m ∧ contributes (countedRed m1 p) m p) ∧
      (populated (64 * p.line) = false → happens (.reductionContributionArrive p) s
        (m1.post p.src (.reply p.src p.core p.tag p.gen 1 [])))) ∧
    (∀ p, absent s.m p.src (.red s.m.pkg.chip p) → happens (.reductionContributionArrive p) s s.m) ∧
    (∀ (n : Nat) (a b : List RedSlot) (u : RedSlot), s.m.pkg.redSlots = a ++ u :: b → a.length = n → ∃ m : Mach,
      happens (.reductionSlotApply n) s m ∧ m.pkg.redSlots = a ++ b ∧
      m.mem = (applied s.m u).1 ∧
      ((∀ r ∈ u.from_, r.1 = s.m.pkg.chip) →
        m.gops = (applied s.m u).2.filter (fun g => g.id ∉ u.from_.map (fun r => r.2.2.1)) ∧ m.net = s.m.net) ∧
      (∀ src core tag gen, u.from_ = [(src, core, tag, gen)] → src ≠ s.m.pkg.chip → s.m.pkg.reaches 1 src = true →
        m.out = s.m.out ++ [.reply src core tag gen 0 []] ∧ m.gops = (applied s.m u).2)) ∧
    (∀ n, s.m.pkg.redSlots.length ≤ n → happens (.reductionSlotApply n) s s.m) ∧
    (∀ p rest, s.m.pkg.redJam = p :: rest → (p.words.map (fun w => w.1)).Nodup →
      (slotsInUse s.m < Config.reductionSlots → ∃ m : Mach, happens .reductionSlotAdmit s m ∧
        contributes { s.m with pkg := { s.m.pkg with redJam := rest } } m p) ∧
      (Config.reductionSlots ≤ slotsInUse s.m → happens .reductionSlotAdmit s s.m))

/-- R266, R280, R301 to R304: a collective's contribution joins the slot of its key, opens one, waits for one, or is late; a slot closes
when every rank has come, at once where it needs one alone, or at its deadline; a merged run lands one element at a time, counts on its
map's barrier and in the account of each contribution, and an incomplete run, or one that saw a NaN, leaves a record. A contribution that
waited takes a freed slot. The model's choice: memory reductions are admitted first (log 61); the elements of a run land in any order (log 103); a merged run has the header, the source and
the core of its lowest rank (log 45). -/
def Sys2Proof.Claims.CollectivesMergeAndClose : Prop :=
  ∀ (s : State), awake s →
    (∀ (p : XredPkt) (m1 : Mach), came s.m m1 p.pkt.src (.xred s.m.pkg.chip p) → hdrEnd p.pkt.hdr = false → mayCome s p.pkt.tail →
      collected (.xredContributionArrive p) s m1 p) ∧
    (∀ p, absent s.m p.pkt.src (.xred s.m.pkg.chip p) → happens (.xredContributionArrive p) s s.m) ∧
    (∀ p rest, s.m.pkg.redJam = [] → s.m.pkg.xredJam = p :: rest → slotsInUse s.m < Config.reductionSlots → mayCome s p.pkt.tail →
      collected .reductionSlotAdmit s { s.m with pkg := { s.m.pkg with xredJam := rest } } p) ∧
    (∀ (n : Nat) (u : XredSlot), s.m.pkg.xredSlots[n]? = some u → mayCome s u.key.tail → u.got ≠ [] → (∀ q ∈ u.got, keyOf q.2 = u.key ∧ q.1 < 64) →
      (u.deadline ≤ s.m.pkg.ftime → ∃ m : Mach, happens (.xredSlotDeadline n) s m ∧ closes s.m m u.key u.got false) ∧
      (s.m.pkg.ftime < u.deadline → happens (.xredSlotDeadline n) s s.m)) ∧
    (∀ n, s.m.pkg.xredSlots.length ≤ n → happens (.xredSlotDeadline n) s s.m) ∧
    (∀ (t : Nat) (l : Landing) (sl : MapSlot) (ps : List LandPkt) (rec : Option (List Byte)), (s.m.tail t).landing = some l → l.pkt.tail = t →
      l.merged = some (ps, rec) → kget l.slot (s.m.tail t).slots = some sl → (∀ c ∈ ps, c.tail = t) →
      (l.left ≠ [] → ∃ (j : Nat) (m : Mach), j ∈ l.left ∧ happens (.dataPacketArrive l.pkt) s m ∧ m.mem = landedMem sl l.pkt j s.m.mem ∧
        contextsKept s.m m ∧ (m.tail t).landing = some { l with left := l.left.erase j
                                                                bad := l.bad || placeOf sl l.pkt j s.m.mem == .fault }) ∧
      (l.left = [] → (s.m.tail t).strays.length < Config.strayPlaces → ∃ m : Mach, happens (.dataPacketArrive l.pkt) s m ∧
        (m.tail t).landing = none ∧ (imgBarv sl.image = false → m.mem = s.m.mem) ∧
        (m.tail t).strays = (s.m.tail t).strays ++ rec.toList.map (fun b => ({ tenant := l.pkt.tenant, bytes := b } : Stray)) ∧
        ∀ x, (recordOf (m.tail t) x).count = (recordOf (s.m.tail t) x).count + (ps.filter (fun c => decide (landXfer c = x))).length))

/-- R155, R256, R299, R300, R302, R266, R280, R301, R304. Its parts: `ReductionsMergeAndApply`; `CollectivesMergeAndClose`. What rests on
log entries 45, 61, 103 is the model's choice: each part names the clause. -/
def Obligations.ReductionsAndCollectives : Prop := Claims.ReductionsMergeAndApply ∧ Claims.CollectivesMergeAndClose

namespace Sys2Proof.Claims

/-- The own limit of a Governor (R359, R360), without its group's clock: the least of the request, the power limit and the thermal limit,
from 1 to 76 steps. -/
def ownLimit (g : Gov) : Nat := max 1 (min 76 (min (if g.req = 0 then 76 else g.req) (min g.power g.thermal)))

/-- The Governor at the least of its limits (R359). -/
def settledGov (g : Gov) : Gov := { g with clock := ((g.gclock).map (fun c => min (ownLimit g) c.steps)).getD (ownLimit g) }

/-- The group clock that a Governor goes on with, where `changed` says whether one of its own limits has changed: a quarter keeps the clock of a
group that it has left until then (R360). -/
def clockAfter (g : Gov) (changed : Prop) [Decidable changed] : Option GroupClock :=
  match g.gclock with
  | some c => if changed ∧ g.group ≠ some c.group then none else some c
  | none => none

/-- The Governor that makes the change of its group `n` to `c` steps at time `t` now (R360): a change of an earlier time that is still to be made
is behind it, and one of a later time that has been made stands. -/
def switched (g : Gov) (n : BitVec 16) (t c : Nat) : Gov :=
  settledGov { g with
    gclock := match g.gclock with
      | some d => if d.group = n ∧ t < d.at_ then some d else some { group := n, steps := c, at_ := t }
      | none => some { group := n, steps := c, at_ := t }
    changes := g.changes.filter (fun d => decide (t < d.1)) }

/-- The machine with the Governor of quarter `q` replaced. -/
def govIs (m : Mach) (q : Nat) (g : Gov) : Mach := { m with pkg := { m.pkg with govs := kput q g m.pkg.govs } }

/-- A free value of the model as a limit: 1 to 76 steps. -/
def stepLimit (n : Nat) : Nat := max 1 (min 76 n)

/-- The power counter of the package and everything else. -/
def powerIs (m : Mach) (p : Nat) : Mach := { m with pkg := { m.pkg with p := p } }

/-- The units that a package gives of the `n` that it is asked for (R361): no more than it can spare above F and above its draw. -/
def spared (m : Mach) (n : Nat) : Nat :=
  min n (min (m.pkg.p - m.pkg.f) (m.pkg.p - (Config.draw m.tick 0 + Config.draw m.tick 1 + Config.draw m.tick 2 + Config.draw m.tick 3)))

/-- The package that leads step group `n` as this one sees it (R360). -/
def leaderOf (m : Mach) (n : BitVec 16) : BitVec 12 :=
  if (Config.otherMember n m.tick).toNat < m.pkg.chip.toNat then Config.otherMember n m.tick else m.pkg.chip

/-- A quarter of this package is in step group `n`. -/
def inGroup (m : Mach) (n : BitVec 16) : Prop := ∃ q < 4, (m.pkg.gov q).group = some n

/-- What each quarter gets of P (R362), in quarters of a unit, where `low` are those that get a quarter of F: the others share the rest in
proportion to their demand. -/
def shareBy (m : Mach) (low : List Nat) (q : Nat) : Nat :=
  let rest := (List.range 4).filter (fun i => decide (i ∉ low))
  let total := (rest.map (Config.draw m.tick)).sum
  if q ∈ low then m.pkg.f
  else if total = 0 then (4 * m.pkg.p - low.length * m.pkg.f) / rest.length
  else (4 * m.pkg.p - low.length * m.pkg.f) * Config.draw m.tick q / total

/-- The highest clock whose draw stays within a share (R362): 1 step, where none does. -/
def highestClock (tick q share n : Nat) : Prop :=
  let fits := fun (s : Nat) => 1 ≤ s ∧ s ≤ 76 ∧ 4 * Config.drawAt tick q s ≤ share
  (fits n ∧ ∀ s, fits s → s ≤ n) ∨ (n = 1 ∧ ∀ s, ¬ fits s)

/-- Requests of a run served in the period by the slices of partition `n` (R363). -/
def servedIn (m : Mach) (n : Nat) (r : Run) : Nat := ((r.served.filter (fun e => decide (kget e.1 m.pkg.part = some n))).map (fun e => e.2)).sum

/-- The energy of a period that is charged to a run (R363): of each of its cores by its entries of the 64, of the slices of its partition with
their channels by its requests among those served, of links and routers by its flits among those sent. -/
def chargeOf (m : Mach) (r : Run) : Nat :=
  let step := Config.energyStep m.tick
  (r.recs.map (fun e => step (8 * e.cluster + e.core) * m.runShares r (8 * e.cluster + e.core) / 64)).sum +
    (((m.pkg.part.filter (fun e => decide (e.2 = r.part))).map (fun e => step (1024 + e.1))).sum * servedIn m r.part r /
      (m.runs.map (servedIn m r.part)).sum + step 1088 * r.flits / m.pkg.flits)

end Sys2Proof.Claims

/-- R298, R358 to R361, R368: fabric time is moved forward by one towards the master's; a quarter runs at the least of its limits; it keeps the
clock of a group that it has left until one of its own limits changes, and in a group it reports its own limit to the leader. The leader
announces the least limit of its members and the time of the switch, which each makes at that time, or at once with a miss counted; changes
apply in the order of their times. Units of power keep their sum, and those that could not be delivered come back. Of another package's
messages none reaches a package that has not attested. The model's choice: a counter is moved by one nanosecond, and one that lies ahead is
left (log 53); a limit of 0 steps says that a quarter has left its group (log 54); units that come back are added without a cap (log 113). -/
def Sys2Proof.Claims.TimeClocksAndGrants : Prop :=
  ∀ (s : State), awake s →
    (let p := s.m.pkg
     (∀ master : W64, p.counting = true → p.chip ≠ 0 → p.ftime < master.toNat →
       happens (.ftimeAdjust master) s { s.m with pkg := { p with ftime := p.ftime + 1 } }) ∧
     (∀ master : W64, p.counting = false ∨ p.chip = 0 ∨ master.toNat ≤ p.ftime → happens (.ftimeAdjust master) s s.m) ∧
     (∀ q, q < 4 →
       (let new := stepLimit (Config.thermalLimit s.m.tick q)
        let c := fun (n : BitVec 16) => leaderOf { s.m with tick := s.m.tick + 1 } n
        ((p.gov q).group = none → happens (.clockLimitChange q) s (govIs { s.m with tick := s.m.tick + 1 } q (settledGov
          { p.gov q with thermal := new, gclock := clockAfter (p.gov q) (new ≠ (p.gov q).thermal) }))) ∧
        (∀ n, (p.gov q).group = some n →
          (let g := settledGov { p.gov q with thermal := new, gclock := clockAfter (p.gov q) (new ≠ (p.gov q).thermal) }
           ∃ m : Mach, happens (.clockLimitChange q) s m ∧ m.pkg.gov q = { g with told := some (c n, ownLimit g) } ∧
             ((p.gov q).told = some (c n, ownLimit g) → m.net = s.m.net ∧ m.out = s.m.out) ∧
             (c n = p.chip → (p.gov q).told = none → m.net = s.m.net ++ [.limit p.chip n q (ownLimit g)]))))) ∧
     (∀ q, 4 ≤ q → happens (.clockLimitChange q) s s.m) ∧
     (∀ (n : BitVec 16) (chip : BitVec 12) (q c : Nat) (m1 : Mach), came s.m m1 chip (.limit p.chip n q c) →
       (¬ inGroup s.m n → happens (.groupLimitReport n chip q c) s m1) ∧
       (inGroup s.m n → ∃ m : Mach, happens (.groupLimitReport n chip q c) s m ∧
         (let rest := (kgetD [] n.toNat p.groups).filter (fun r => decide (r.1 ≠ chip ∨ r.2.1 ≠ q))
          let ms := if c = 0 then rest else rest ++ [(chip, q, c)]
          m.pkg.groups = kput n.toNat ms p.groups ∧ ∃ g t, (∀ e ∈ ms, g ≤ e.2.2) ∧ g ≤ 76 ∧ ((∃ e ∈ ms, g = e.2.2) ∨ g = 76) ∧
            t % 1000 = 0 ∧ p.ftime + 4000 ≤ t ∧ t < p.ftime + 5000 ∧
            ∀ r ∈ ms, (r.1 = p.chip → Sent.groupClock p.chip n r.2.1 g t ∈ m.net) ∧
              (r.1 ≠ p.chip → p.reaches 5 r.1 = true → Sent.groupClock r.1 n r.2.1 g t ∈ m.out)))) ∧
     (∀ n q c t, q < 4 → Sent.groupClock p.chip n q c t ∉ s.m.net → p.attested = false → happens (.groupClockAnnounce (n, q) c t) s s.m) ∧
     (∀ n q c t m1, q < 4 → heard s.m m1 (.groupClock p.chip n q c t) →
       ((p.gov q).group ≠ some n → happens (.groupClockAnnounce (n, q) c t) s m1) ∧
       ((p.gov q).group = some n → p.ftime ≤ t → ∃ m : Mach, happens (.groupClockAnnounce (n, q) c t) s m ∧ (m.pkg.gov q).clock = (p.gov q).clock ∧
         (∀ d, d ∈ (m.pkg.gov q).changes ↔ d = (t, stepLimit c) ∨ d ∈ (p.gov q).changes) ∧
         ((p.gov q).changes.Pairwise (fun a b => a.1 ≤ b.1) → (m.pkg.gov q).changes.Pairwise (fun a b => a.1 ≤ b.1))) ∧
       ((p.gov q).group = some n → t < p.ftime → ∃ m : Mach, happens (.groupClockAnnounce (n, q) c t) s m ∧
         m.pkg.gov q = switched (p.gov q) n t (stepLimit c) ∧ rget (297 + q) m.pkg.cnts = rget (297 + q) p.cnts + 1)) ∧
     (∀ q n t c rest, (p.gov q).group = some n → (p.gov q).changes = (t, c) :: rest →
       (t ≤ p.ftime → happens (.groupClockSwitch q) s (govIs s.m q (settledGov
         { p.gov q with gclock := some { group := n, steps := c, at_ := t }, changes := rest }))) ∧
       (p.ftime < t → happens (.groupClockSwitch q) s s.m)) ∧
     (∀ q, (p.gov q).group = none ∨ (p.gov q).changes = [] → happens (.groupClockSwitch q) s s.m) ∧
     (∀ (chip : BitVec 12) (n : Nat) (m1 : Mach), came s.m m1 chip (.give p.chip n) →
       (p.p + n ≤ 4800 → happens (.grantUnitsArrive chip n) s (powerIs m1 (p.p + n))) ∧
       (4800 < p.p + n → p.p ≤ 4800 → happens (.grantUnitsArrive chip n) s ((powerIs m1 4800).post chip (.give chip (p.p + n - 4800))))) ∧
     (∀ (chip : BitVec 12) (n : Nat) (m1 : Mach), came s.m m1 chip (.ask p.chip n) →
       (let m2 : Mach := { m1 with tick := m1.tick + 1 }
        (0 < spared s.m n → happens (.powerAskArrive chip n) s ((powerIs m2 (p.p - spared s.m n)).post chip (.give chip (spared s.m n)))) ∧
        (spared s.m n = 0 → happens (.powerAskArrive chip n) s m2))) ∧
     (∀ n m1, heard s.m m1 (.undeliverable p.chip (.units n)) → happens (.grantUnitsReturned n) s (powerIs m1 (p.p + n))) ∧
     (∀ n, Sent.undeliverable p.chip (.units n) ∉ s.m.net → p.attested = false → happens (.grantUnitsReturned n) s s.m))

/-- R362, R363: each power period divides P among the quarters in proportion to their demand and never below a quarter of F each, and gives
each the highest clock whose draw stays within its share; each energy period charges every run on the device for its cores, its partition's
slices and its flits, and begins a new count of requests and flits. The model's choice: the periods happen whenever the agenda names them
(log 56); the quarters below their floor get a quarter of F, and the others divide what is left (log 55). -/
def Sys2Proof.Claims.PowerIsDividedAndEnergyCharged : Prop :=
  ∀ (s : State), awake s →
    (let p := s.m.pkg
     (∃ m : Mach, happens .powerPeriod s m ∧ m.pkg.p = p.p ∧ m.pkg.f = p.f ∧ m.mem = s.m.mem ∧ m.ctxs = s.m.ctxs ∧
       (∃ low : List Nat, low.Nodup ∧ (∀ q ∈ low, q < 4) ∧ ((∀ q < 4, p.f ≤ shareBy s.m [] q) → low = []) ∧
         ∀ q < 4, (m.pkg.gov q).share = shareBy s.m low q ∧ p.f ≤ (m.pkg.gov q).share) ∧
       ∀ q < 4, highestClock s.m.tick q (m.pkg.gov q).share (m.pkg.gov q).power ∧ (m.pkg.gov q).clock = (settledGov (m.pkg.gov q)).clock ∧
         (m.pkg.gov q).req = (p.gov q).req ∧ (m.pkg.gov q).thermal = (p.gov q).thermal ∧
         (m.pkg.gov q).gclock = clockAfter (p.gov q) ((m.pkg.gov q).power ≠ (p.gov q).power)) ∧
     (∃ m : Mach, happens .energyPeriod s m ∧ m.mem = s.m.mem ∧ m.ctxs = s.m.ctxs ∧ m.pkg.flits = 0 ∧
       m.runs = s.m.runs.map (fun r => if r.placed = true then { r with energy := r.energy + chargeOf s.m r, served := [], flits := 0 } else r)))

/-- R298, R358, R361, R368, R362, R363. Its parts: `TimeClocksAndGrants`; `PowerIsDividedAndEnergyCharged`. What rests on log entries 53,
54, 55, 56, 113 is the model's choice: each part names the clause. -/
def Obligations.PowerTimeAndEnergy : Prop := Claims.TimeClocksAndGrants ∧ Claims.PowerIsDividedAndEnergyCharged

namespace Sys2Proof.Claims

/-- Memory after a wipe (R167): every byte of it but those of the CXL expanders is zero. -/
def wiped (mem mem' : Memory) : Prop := ∀ a, readByte mem' a = if cxlRange a = true then readByte mem a else 0

/-- The Ed25519 and the ML-DSA-65 signature of a message both verify under the keys fused at manufacture (R7, R367). -/
def fusedGood (msg : List Byte) (g : Signatures) : Prop :=
  ed25519Verify (bytesOf 32 Config.fusedEd25519) msg (bytesOf 64 g.ed) = true ∧ mlDsa65Verify Config.fusedMlDsa65 msg g.ml = true

/-- The package after a test of a resource is no longer due. -/
def testDone (m : Mach) (r : Resource) (u : Nat) : Mach :=
  { m with tick := m.tick + 1, pkg := { m.pkg with tests := m.pkg.tests.filter (fun t => t ≠ (r, u)) } }

/-- The machine after an error of a resource has been counted (R369, R373): a test of it is due. -/
def erred (m : Mach) (r : Resource) (u : Nat) (corrected : Bool) : Mach :=
  let k := if corrected = true then 295 else 296
  { m with pkg := { m.pkg with
      cnts := rput k (rget k m.pkg.cnts + 1) m.pkg.cnts
      errs := kput (errKey r u) (kgetD 0 (errKey r u) m.pkg.errs + 1) m.pkg.errs
      tests := if (r, u) ∈ m.pkg.tests then m.pkg.tests else m.pkg.tests ++ [(r, u)] } }

/-- SUB and TADDR of an uncorrectable error (R320): the bundle, for a register file, a tile, a stone, a table and a fetch. -/
def subOf : Resource → Nat
  | .scratchCore => 1 | .scratchCluster => 2 | .hbmRow => 3 | .cxl => 4 | .registers => 5 | .tile => 6 | .stone => 7 | .curve => 8
  | .fetch => 9 | .lane => 0

/-- The error reported against an issue of context `x` (R317, R320). -/
def errorReported (m : Mach) (r : Resource) (x no : Nat) (pc a : W64) (slot : Nat) : Mach :=
  m.report x no pc (BitVec.ofNat 64 (0x12 + slot * 2 ^ 16 + subOf r * 2 ^ 32)) (if 5 ≤ subOf r then pc else a)

/-- No run holds the core, its scratchpad or its registers (R369). -/
def coreFree (m : Mach) (k : Nat) : Prop := ∀ r ∈ m.runs, r.placed = true → ∀ e ∈ r.recs, 8 * e.cluster + e.core ≠ k

/-- The core that a resource is a part of, by its number on the package (R369). -/
def partOfCore (r : Resource) (u k : Nat) : Prop :=
  ((r = .scratchCore ∨ r = .fetch) ∧ k = u) ∨ ((r = .registers ∨ r = .stone) ∧ k = u / 4) ∨ ((r = .tile ∨ r = .curve) ∧ k = u / 8)

/-- An entry of a run's record on a core holds a resource of that core (R18): its contexts, tiles, stones, curve tables and branch maps are
counted one by one. -/
def entryHolds (e : Entry) (r : Resource) (u : Nat) : Prop :=
  match r with
  | .registers => e.ctxMask.getLsbD (u % 4) = true
  | .tile => e.tiles.getLsbD (u % 8) = true
  | .stone => e.stones.getLsbD (u % 4) = true
  | .curve => if u % 8 < 4 then e.curves.getLsbD (u % 8) = true else e.maps.getLsbD (u % 8 - 4) = true
  | _ => True

/-- No run holds the part `u` of core `k` (R369). -/
def partFree (m : Mach) (r : Resource) (u k : Nat) : Prop :=
  ∀ q ∈ m.runs, q.placed = true → ∀ e ∈ q.recs, 8 * e.cluster + e.core = k → ¬ entryHolds e r u

/-- A run holds a part of cluster `cl`. -/
def holdsCluster (q : Run) (cl : Nat) : Prop := q.placed = true ∧ ∃ e ∈ q.recs, e.cluster = cl

/-- Cluster `cl` has been retired (R369): no stream may name it, the host is told, and every run that holds a part of it has stopped. -/
def clusterRetired (m m' : Mach) (cl : Nat) : Prop :=
  (∃ more, m'.irqs = m.irqs ++ m.pkg.vectors.extractLsb' 24 8 :: more ∧ ((∀ q ∈ m.runs, ¬ holdsCluster q cl) → more = [])) ∧
    (∀ j < 16, ∀ b < 64, (m'.stream j).cfg.getLsbD b = (if b = 20 + cl then false else (m.stream j).cfg.getLsbD b)) ∧
    (∀ q ∈ m.runs, holdsCluster q cl → ∃ q' ∈ m'.runs, q'.id = q.id ∧ q'.stopped = true) ∧
    ∀ x, (∀ q ∈ m.runs, holdsCluster q cl → (m.ctx x).rid ≠ q.id) → m'.ctx x = m.ctx x

end Sys2Proof.Claims

/-- R149, R167, R366 to R368: a reset loads the firmware, wipes every memory but the expanders and takes the registers to their reset values;
the image runs only when both its signatures verify, otherwise the package stays in reset and reports it. A signed command moves the life
cycle on by one state and wipes, and provisioning creates the identity keys; a wipe ends. The model's choice: what a reset keeps (log 59),
what a change of the life cycle keeps (log 58), and the reset value of the quarters' shares (log 5). -/
def Sys2Proof.Claims.ResetAndLifeCycle : Prop :=
  (∀ (s : State) (fw : Firmware), (s.m.cores.map (fun p => p.1)).Nodup → ∃ m : Mach,
    exec (.deviceReset fw) s = .next { s with m := m, iss := Issue.none } ∧
    wiped s.m.mem m.mem ∧ m.ctxs = [] ∧ m.runs = [] ∧ m.teams = [] ∧ m.streams = [] ∧ m.tails = [] ∧ m.gops = [] ∧ m.locq = [] ∧ m.net = [] ∧
    (∀ k, m.core k = { Core.zero with dead := (s.m.core k).dead }) ∧ m.pkg.part = [] ∧ m.pkg.ftime = 0 ∧ m.pkg.counting = false ∧ m.pkg.wiping = true ∧
    m.pkg.life = s.m.pkg.life ∧ m.pkg.identity = s.m.pkg.identity ∧ m.pkg.repairs = [] ∧ (∀ q < 4, (m.pkg.gov q).share = 4800) ∧ m.pkg.flash = fw ∧ m.pkg.spareCores = s.m.pkg.spareCores ∧ m.pkg.spareRows = s.m.pkg.spareRows ∧
    (fusedGood fw.image fw.sigs → m.pkg.stuck = false ∧ m.out = s.m.out.filter isRecord) ∧
    (¬ fusedGood fw.image fw.sigs → m.pkg.stuck = true ∧ m.out = s.m.out.filter isRecord ++ [.report s.m.pkg.life])) ∧
  ∀ (s : State), awake s →
    (let steps := [(LifeCycle.blank, LifeCycle.provisioned), (.provisioned, .deployed), (.deployed, .returned)]
     (∀ l g, fusedGood (Config.commandMessage l) g → (s.m.pkg.life, l) ∈ steps → ∃ m : Mach, happens (.lifeCycleChange l g) s m ∧
       m.pkg.life = l ∧ m.pkg.identity = (if l = .provisioned then some s.m.tick else s.m.pkg.identity) ∧ m.pkg.repairs = [] ∧ wiped s.m.mem m.mem ∧ m.ctxs = [] ∧ m.runs = [] ∧ m.tails = [] ∧ m.pkg.part = [] ∧ m.pkg.tlb = [] ∧ m.pkg.own = [] ∧
       m.pkg.wiping = true) ∧
     (∀ l g, ¬ fusedGood (Config.commandMessage l) g ∨ (s.m.pkg.life, l) ∉ steps → happens (.lifeCycleChange l g) s s.m)) ∧
    (s.m.pkg.wiping = true → happens .wipeFinish s
      { s.m with comps := s.m.comps ++ s.m.pkg.owed, pkg := { s.m.pkg with wiping := false, owed := [] } }) ∧
    (s.m.pkg.wiping = false → happens .wipeFinish s s.m)

/-- R175, R177, R276, R295, R297, R317, R320: an error is counted against its resource, of which a test is then due. One that cannot be corrected is
reported against what reads the data: the next issue of a context, a local or a global operation, an M operation, a V operation that reads a
tile, an `ldmap`, which it does not strike before the second checkpoint of an atomic of its team; a prefetch is dropped, a byte of a send's
source is marked, a request from another package is answered with STATUS 4, and a reduction's slot is freed, its contributions dropped. -/
def Sys2Proof.Claims.ErrorsStrikeTheirReaders : Prop :=
  ∀ (s : State) (r : Resource) (u : Nat) (a : W64), awake s →
    (let e := erred s.m r u false
     let struck := fun (rd : Reader) => Instr.memoryError r u false (some rd) a
     let ends := fun (id : Nat) => opOver (gone e id) id
     (∀ corrected reader, reader = none ∨ corrected = true ∨ r = .lane →
       happens (.memoryError r u corrected reader a) s (erred s.m r u corrected)) ∧
     (r ≠ .lane →
       (∀ x slot, s.m.mayIssue x = true → subOf r ∈ [1, 2, 3, 5, 9] → slot < 16 →
         happens (struck (.issue x slot)) s (errorReported e r x s.m.nextId (s.m.ctx x).ctl.pc a slot)) ∧
       (∀ x slot, s.m.mayIssue x = false ∨ subOf r ∉ [1, 2, 3, 5, 9] ∨ 16 ≤ slot → happens (struck (.issue x slot)) s s.m) ∧
       (∀ o : LocalOp, s.m.locq.find? (fun q => q.id == o.id) = some o → (∀ w, o.act ≠ .store w) →
         happens (struck (.op o.id)) s
           (errorReported (opOver { e with locq := s.m.locq.filter (fun q => q.id ≠ o.id) } o.id) r o.ctx o.no o.pc a o.slot)) ∧
       (∀ g : GOp, (∀ q ∈ s.m.locq, q.id ≠ g.id) → s.m.gops.find? (fun q => q.id == g.id) = some g →
         (g.act = .read .none → happens (struck (.op g.id)) s (runCounted (ends g.id) g.rid 1)) ∧
         (∀ d, g.act = .read d → d ≠ .none → happens (struck (.op g.id)) s
           (errorReported (ends g.id) r g.ctx g.no g.pc a (if g.isFeed = true then 4 else 10))) ∧
         (∀ op b c rd, g.act = .amo op b c rd → happens (struck (.op g.id)) s (errorReported (ends g.id) r g.ctx g.no g.pc a 10)) ∧
         (∀ bs, g.act = .store bs → g.committed = false → happens (struck (.op g.id)) s (errorReported e r g.ctx g.no g.pc a 10)) ∧
         (∀ bs, g.act = .store bs → g.committed = true → happens (struck (.op g.id)) s s.m)) ∧
       (∀ id, (∀ q ∈ s.m.locq, q.id ≠ id) → (∀ q ∈ s.m.gops, q.id ≠ id) →
         (∀ k o, (k, s.m.core k) ∈ s.m.cores → o ∈ (s.m.core k).mq → o.id = id → (∀ p ∈ s.m.cores, ∀ q ∈ p.2.mq, q.id = id → q = o) →
           happens (struck (.op id)) s (errorReported e r o.ctx o.no o.pc a 4)) ∧
         ((∀ p ∈ s.m.cores, ∀ q ∈ p.2.mq, q.id ≠ id) →
           (∀ x o, (x, s.m.ctx x) ∈ s.m.ctxs → o ∈ (s.m.ctx x).vq → o.id = id → o.tile.isSome = true →
             (∀ p ∈ s.m.ctxs, ∀ q ∈ p.2.vq, q.id = id → p = (x, s.m.ctx x) ∧ q = o) →
             happens (struck (.op id)) s (errorReported e r x o.no o.pc a 3)) ∧
           (∀ x o, (x, s.m.ctx x) ∈ s.m.ctxs → o ∈ (s.m.ctx x).xq → o.id = id → o.ctx = x →
             (∀ p ∈ s.m.ctxs, (∀ q ∈ p.2.vq, q.id ≠ id) ∧ ∀ q ∈ p.2.xq, q.id = id → p = (x, s.m.ctx x) ∧ q = o) →
             ((∃ n b t, o.ins = .ldmap n b t) →
               ((∀ t, s.m.team? o.rid (clusterOf x) = some t → t.full = false) →
                 happens (struck (.op id)) s (errorReported e r x o.no o.pc a 11)) ∧
               (∀ t, s.m.team? o.rid (clusterOf x) = some t → t.full = true → happens (struck (.op id)) s s.m)) ∧
             (isSend o.ins = true → o.begun = false → happens (struck (.op id)) s (e.setCtx x { s.m.ctx x with
               xq := (s.m.ctx x).xq.map (fun q => if q.id = id then { q with blocks := q.blocks ++ [a] } else q) }))))) ∧
       (∀ (q : RemReq) (m1 : Mach), came e m1 q.src (.remote e.pkg.chip q) →
         (∀ n, q.kind = .load n → populated q.pa = true → populated (q.pa + n - 1) = true →
           happens (struck (.remote q)) s (m1.post q.src (.reply q.src q.core q.tag q.gen 4 []))) ∧
         (∀ op b c, q.kind = .amo op b c → populated q.pa = true →
           happens (struck (.remote q)) s (m1.post q.src (.reply q.src q.core q.tag q.gen 4 []))) ∧
         (∀ bs, q.kind = .store bs → happens (struck (.remote q)) s s.m)) ∧
       (∀ (q : LinkReq) (m1 : Mach), came e m1 q.src (.linkReq e.pkg.chip q) →
         firstOfPair s.m (fun y => match y with
           | .linkReq _ v => v.core == q.core && v.link == q.link
           | _ => false) (.linkReq s.m.pkg.chip q) →
         (q.op = 1 → populated q.pa = true → populated (q.pa + 7) = true → happens (struck (.link q)) s
           (m1.post q.src (.linkReply q.src q.core q.link (statusOf 4 q.tag.toNat q.gen.toNat) 0))) ∧
         (3 ≤ q.op.toNat → q.op.toNat ≤ 10 → populated q.pa = true → happens (struck (.link q)) s
           (m1.post q.src (.linkReply q.src q.core q.link (statusOf 4 q.tag.toNat q.gen.toNat) 0)))) ∧
       (∀ (a b : List RedSlot) (v : RedSlot), s.m.pkg.redSlots = a ++ v :: b → ∃ m : Mach, happens (struck (.red a.length)) s m ∧
         m.pkg.redSlots = a ++ b ∧ m.mem = s.m.mem ∧
         (∀ src core tag gen, v.from_ = [(src, core, tag, gen)] → src ≠ s.m.pkg.chip → s.m.pkg.reaches 1 src = true →
           m.out = s.m.out ++ [.reply src core tag gen 4 []] ∧ m.gops = s.m.gops ∧ m.ctxs = s.m.ctxs) ∧
         (∀ core gen g p op ws, v.from_ = [(s.m.pkg.chip, core, g.id, gen)] → s.m.gops.find? (fun h => h.id == g.id) = some g → g.segs = [p] →
           g.act = .red op ws → m.gops = s.m.gops.filter (fun h => h.id ≠ g.id) ∧ m.ctx g.ctx = remoteFault (s.m.ctx g.ctx) p.va)) ∧
       (∀ n, s.m.pkg.redSlots.length ≤ n → happens (struck (.red n)) s s.m)))

/-- R2, R6, R315, R369: a test that is due is made while no run holds its resource. A soft error leaves all as it is; a lasting fault is
repaired: a row of a stone by one of its 8 spare rows, any other part of a core by one of the 4 spare cores of its quarter, which takes the
core's place when no run holds it and changes no result, or, with none left, by retiring the core and its cluster, which stops the runs that
hold it; a lane by one of 2 spare lanes of its direction, and the link retrains. The model's
choice: a stone with no spare row left takes a spare core, a cluster's scratchpad retires its cluster, a lane beyond the spares is left
(log 60); whether a fault lasts is a free value (log 7). -/
def Sys2Proof.Claims.TestsRepairOrRetire : Prop :=
  ∀ (s : State) (r : Resource) (u : Nat), awake s →
    (let i := Instr.targetedSelfTest r u
     let m1 := testDone s.m r u
     let lasting := Config.lastingFault s.m.tick = true
     (∀ k, (r, u) ∈ s.m.pkg.tests → partOfCore r u k → partFree s.m r u k →
       (let used := kgetD 0 (k / 64) s.m.pkg.spareCores
        let core := r ≠ .stone ∨ 8 ≤ kgetD 0 u s.m.pkg.spareRows
        (¬ lasting ∨ (s.m.core k).dead = true → happens i s m1) ∧
        (lasting → (s.m.core k).dead = false → core → k ∈ s.m.pkg.repairs → happens i s m1) ∧
        (lasting → (s.m.core k).dead = false → core → k ∉ s.m.pkg.repairs → used < 4 →
          (let m2 : Mach := { m1 with pkg := { m1.pkg with spareCores := kput (k / 64) (used + 1) m1.pkg.spareCores } }
           (coreFree s.m k → happens i s m2) ∧
           (¬ coreFree s.m k → happens i s { m2 with pkg := { m2.pkg with repairs := s.m.pkg.repairs ++ [k] } }))) ∧
        (lasting → (s.m.core k).dead = false → core → k ∉ s.m.pkg.repairs → 4 ≤ used → ∃ m : Mach, happens i s m ∧ (m.core k).dead = true ∧
          (∀ j, j ≠ k → m.core j = s.m.core j) ∧ m.mem = s.m.mem ∧ clusterRetired s.m m (k / 8)) ∧
        (lasting → (s.m.core k).dead = false → r = .stone → kgetD 0 u s.m.pkg.spareRows < 8 →
          happens i s { m1 with pkg := { m1.pkg with spareRows := kput u (kgetD 0 u s.m.pkg.spareRows + 1) m1.pkg.spareRows } }))) ∧
     ((r, u) ∈ s.m.pkg.tests → r = .scratchCluster → (∀ q ∈ s.m.runs, q.placed = true → ∀ e ∈ q.recs, e.cluster ≠ u) →
       (¬ lasting → happens i s m1) ∧
       (lasting → ∃ m : Mach, happens i s m ∧ m.mem = s.m.mem ∧ m.ctxs = s.m.ctxs ∧ m.cores = s.m.cores ∧ clusterRetired s.m m u)) ∧
     ((r, u) ∈ s.m.pkg.tests → r = .lane →
       (let p := s.m.pkg.port (u / 2)
        (¬ lasting → happens i s m1) ∧
        (lasting → u % 2 = 0 → p.spareTx < 2 → happens i s (portWith m1 (u / 2) { p with spareTx := p.spareTx + 1, training := true })) ∧
        (lasting → u % 2 = 1 → p.spareRx < 2 → happens i s (portWith m1 (u / 2) { p with spareRx := p.spareRx + 1, training := true })) ∧
        (lasting → (if u % 2 = 0 then p.spareTx else p.spareRx) ≥ 2 → happens i s m1))) ∧
     ((r, u) ∈ s.m.pkg.tests → r = .hbmRow → (∀ q ∈ s.m.runs, q.placed = true → kget u s.m.pkg.part ≠ some q.part) → happens i s m1) ∧
     ((r, u) ∈ s.m.pkg.tests → r = .cxl → happens i s m1) ∧
     ((r, u) ∉ s.m.pkg.tests → happens i s s.m) ∧
     (∀ k, partOfCore r u k → ¬ partFree s.m r u k → happens i s s.m))

/-- R149, R167, R366, R368, R175, R177, R276, R295, R297, R317, R320, R2, R6, R315, R369. Its parts: `ResetAndLifeCycle`;
`ErrorsStrikeTheirReaders`; `TestsRepairOrRetire`. What rests on log entries 5, 7, 58, 59, 60 is the model's choice: each part names the
clause. -/
def Obligations.ResetLifeCycleErrorsAndTests : Prop :=
  Claims.ResetAndLifeCycle ∧ Claims.ErrorsStrikeTheirReaders ∧ Claims.TestsRepairOrRetire

namespace Sys2Proof.Claims

/-- The formats of the V slot (R124). -/
def vectorFmts : List Fmt := [fmtF32, fmtBf16, fmtF16]

/-- A finite operand of value `x`. -/
def isFinite (f : Fmt) (v : Nat) (x : ℝ) : Prop := ∃ s m e, f.decode v = .fin s m e ∧ x = valueR s m e

end Sys2Proof.Claims

/-- R106, R108, R109, R110: a nonzero exact value is rounded by choosing between its two neighbours as the mode says; beyond the largest
finite magnitude it overflows or saturates; the inexact flag says whether the value changed, underflow only a tiny inexact one. -/
def Obligations.RoundingChoosesANeighbour : Prop :=
  ∀ f ∈ [fmtF32, fmtBf16, fmtF16, fmtE4m3, fmtE5m2, fmtE2m1], ∀ (sat : Bool) (r : Round) (neg : Bool) (m : Nat) (e : Int), m ≠ 0 →
    f.inf = true ∨ sat = true → roundsTo f sat r (valueR neg m e) (f.round sat r neg m e)

/-- R106, R124: addition, subtraction, multiplication, the fused multiply-add, division and the square root of finite operands give the
exact result, when it is not zero, rounded once to the element format. -/
def Obligations.ArithmeticRoundsTheExactResult : Prop :=
  ∀ f ∈ vectorFmts, ∀ (r : Round) (x y z : Nat) (a b c : ℝ), isFinite f x a → isFinite f y b → isFinite f z c →
    (a + b ≠ 0 → roundsTo f false r (a + b) (fop f .add r x y z)) ∧
    (a - b ≠ 0 → roundsTo f false r (a - b) (fop f .sub r x y z)) ∧
    (a * b ≠ 0 → roundsTo f false r (a * b) (fop f .mul r x y z)) ∧
    (a * b + c ≠ 0 → roundsTo f false r (a * b + c) (fop f .fma r x y z)) ∧
    (a ≠ 0 → b ≠ 0 → roundsTo f false r (a / b) (fop f .div r x y z)) ∧
    (0 < a → roundsTo f false r (Real.sqrt a) (fop f .sqrt r x y z))

/-- R101, R109, R110, R124, R193: a NaN operand gives the canonical NaN and no flag, in `fma` an addend too, but not where the product is
0 × ∞; infinities, zeros and invalid operations give what IEEE 754-2019 gives: ∞ − ∞, 0 × ∞, 0 / 0, ∞ / ∞ and the root of a negative value
are invalid, a division by zero has its own flag, an infinity with another operand is the infinity of the result's sign, a zero product or
quotient has the sign of its operands, and an exact zero sum is +0 except under RD, unless both terms are zeros of one sign; of two numbers
the minimum is the lesser and the maximum the greater operand, −0 below +0. -/
def Obligations.SpecialOperandsGiveTheirResults : Prop :=
  ∀ f ∈ vectorFmts, ∀ (r : Round) (x y z : Nat),
    (let a := f.decode x
     let b := f.decode y
     let zero := fun (n : Machine.Num) => ∃ s e, n = .fin s 0 e
     let minus := fun (n : Machine.Num) => Machine.Num.neg n
     (a = .nan ∨ b = .nan → ∀ op ∈ [FOp.add, .sub, .mul, .fma, .min, .max, .div], fop f op r x y z = (f.nan, 0)) ∧
     (a = .nan → ∀ op ∈ [FOp.sqrt, .abs, .neg], fop f op r x y z = (f.nan, 0)) ∧
     (∀ s t, a = .inf s → b = .inf t → fop f .add r x y z = (if s = t then (f.infBits s, 0) else (f.nan, xfInvalid)) ∧
       fop f .sub r x y z = (if s = t then (f.nan, xfInvalid) else (f.infBits s, 0)) ∧ fop f .div r x y z = (f.nan, xfInvalid) ∧
       fop f .mul r x y z = (f.infBits (s != t), 0)) ∧
     (∀ s, a = .inf s → zero b → fop f .mul r x y z = (f.nan, xfInvalid) ∧ fop f .mul r y x z = (f.nan, xfInvalid) ∧
       fop f .div r x y z = (f.infBits (s != minus b), 0) ∧ fop f .div r y x z = (f.signBit (s != minus b), 0)) ∧
     (zero a → zero b → fop f .div r x y z = (f.nan, xfInvalid) ∧
       fop f .add r x y z = (f.signBit (if minus a = minus b then minus a else r = .rd), 0)) ∧
     (∀ s m e, a = .fin s m e → m ≠ 0 → zero b → fop f .div r x y z = (f.infBits (s != minus b), xfDivZero) ∧
       fop f .div r y x z = (f.signBit (s != minus b), 0)) ∧
     (∀ s m e, a = .fin s m e → m ≠ 0 → b = a → fop f .sub r x y z = (f.signBit (r = .rd), 0)) ∧
     (∀ m e, a = .fin true m e → m ≠ 0 → fop f .sqrt r x y z = (f.nan, xfInvalid)) ∧ (a = .inf true → fop f .sqrt r x y z = (f.nan, xfInvalid)) ∧
     (zero a → fop f .sqrt r x y z = (f.signBit (minus a), 0)) ∧
     (a ≠ .nan → b ≠ .nan →
       (valueOf a < valueOf b → fop f .max r x y z = (y, 0) ∧ fop f .min r x y z = (x, 0)) ∧
       (valueOf b < valueOf a → fop f .max r x y z = (x, 0) ∧ fop f .min r x y z = (y, 0)) ∧
       (valueOf a = valueOf b → minus a = true → minus b = false → fop f .max r x y z = (y, 0) ∧ fop f .min r x y z = (x, 0)) ∧
       (valueOf a = valueOf b → minus a = false → minus b = true → fop f .max r x y z = (x, 0) ∧ fop f .min r x y z = (y, 0)) ∧
       (valueOf a = valueOf b → minus a = minus b →
         ∀ op ∈ [FOp.max, .min], fop f op r x y z = (x, 0) ∨ fop f op r x y z = (y, 0))) ∧
     (∀ s t n d, a = .inf s → b = .fin t n d →
       fop f .add r x y z = (f.infBits s, 0) ∧ fop f .add r y x z = (f.infBits s, 0) ∧
       fop f .sub r x y z = (f.infBits s, 0) ∧ fop f .sub r y x z = (f.infBits (!s), 0) ∧
       (n ≠ 0 → fop f .mul r x y z = (f.infBits (s != t), 0) ∧ fop f .mul r y x z = (f.infBits (s != t), 0)) ∧
       fop f .div r x y z = (f.infBits (s != t), 0) ∧ fop f .div r y x z = (f.signBit (s != t), 0)) ∧
     (a = .inf false → fop f .sqrt r x y z = (f.infBits false, 0)) ∧
     (∀ s m e t n d, a = .fin s m e → b = .fin t n d →
       (m = 0 ∨ n = 0 → fop f .mul r x y z = (f.signBit (s != t), 0)) ∧
       (valueR s m e + valueR t n d = 0 → fop f .add r x y z = (f.signBit (if s = t then s else r = .rd), 0)) ∧
       (valueR s m e - valueR t n d = 0 → fop f .sub r x y z = (f.signBit (if s = t then r = .rd else s), 0))) ∧
     (let c := f.decode z
      (∀ s, a = .inf s → zero b → fop f .fma r x y z = (f.nan, xfInvalid) ∧ fop f .fma r y x z = (f.nan, xfInvalid)) ∧
      (∀ s, a = .inf s → b ≠ .nan → ¬ zero b → c = .nan → fop f .fma r x y z = (f.nan, 0) ∧ fop f .fma r y x z = (f.nan, 0)) ∧
      (∀ s, a = .inf s → b ≠ .nan → ¬ zero b →
        (∀ u, c = .inf u → fop f .fma r x y z = (if (s != minus b) = u then (f.infBits u, 0) else (f.nan, xfInvalid)) ∧
          fop f .fma r y x z = (if (s != minus b) = u then (f.infBits u, 0) else (f.nan, xfInvalid))) ∧
        (∀ u k q, c = .fin u k q → fop f .fma r x y z = (f.infBits (s != minus b), 0) ∧
          fop f .fma r y x z = (f.infBits (s != minus b), 0))) ∧
      (∀ s m e t n d, a = .fin s m e → b = .fin t n d →
        (c = .nan → fop f .fma r x y z = (f.nan, 0)) ∧ (∀ u, c = .inf u → fop f .fma r x y z = (f.infBits u, 0)) ∧
        (∀ u k q, c = .fin u k q → valueR s m e * valueR t n d + valueR u k q = 0 →
          fop f .fma r x y z = (f.signBit (if (s != t) = u then u else r = .rd), 0)))))

namespace Sys2Proof.Claims

/-- What an issue finds before its words act: the bundle `b` at the context's pc with its words read, no check of R99 failing, nothing that
holds it (R26, R70), and no checkpoint due first (R37). -/
structure Issues (s : State) (x : Nat) (ws : List W32) (b : Bundle) (l : List Cur) (lb : RMap 64) : Prop where
  ready : s.m.mayIssue x = true
  fetched : (s.begin x).fetchWords = .ok ws
  bundle : decodeBundle ws = .ok b
  words : readWords b.words = .ok l
  check3 : firstFail (((s.begin x).withBundle b).current l) (fun u => ((s.begin x).withBundle b).check3 u.w.ins) = none
  bodies : ((s.begin x).withBundle b).refill = .ok lb

/-- The current words of the issue, and those of them that issue (R48, R50). -/
noncomputable def currentOf (s : State) (x : Nat) (b : Bundle) (l : List Cur) : List Cur := ((s.begin x).withBundle b).current l
noncomputable def issuedOf (s : State) (x : Nat) (b : Bundle) (l : List Cur) : List Cur :=
  (currentOf s x b l).filter (((s.begin x).withBundle b).issues (((s.begin x).withBundle b).leafOf (currentOf s x b l)))

/-- Nothing stops the words `on` of the issue, of which `cur` are current (R26, R54, R70, R99), and they act in `t`: the state as the issue finds
it, or, where the issue is a commit point, with the forced checkpoint taken before it (R37). -/
def unhindered (s : State) (x : Nat) (b : Bundle) (cur on : List Cur) (t : State) : Prop :=
  let u := (s.begin x).withBundle b
  u.pendingRegs cur on = false ∧ u.contextFail cur on = none ∧ u.dependent cur on = false ∧ u.stalls on = false ∧
    ((u.forces on = false ∧ t = u) ∨ (u.forces on = true ∧ u.parkedBy on = none ∧ u.forceFirst = some t))

/-- Where in memory the words `ws` of the bundle of context `x` are fetched from: each page's part is one request to its slice, and what the
instruction buffer holds in a loop is not fetched (R47, R65, R145). -/
def codeFrom (s : State) (x : Nat) (ws : List W32) : List Nat :=
  let c := s.m.ctx x
  if c.ctl.nlev ≠ 0 ∧ (kget c.ctl.pc.toNat c.ibuf).isSome = true then []
  else match s.m.access x .fetch c.ctl.pc (4 * ws.length) 4 with
    | .ok segs => (segs.filter (fun g => g.chip.isNone)).map (fun g => g.pa)
    | .error _ => []

/-- A cycle ends (R21, R27, R28, R298, R358): time passes, a slot table that has been built is taken over before its entry 0, a command that
stands at the head of its stream has reached it, and each port sees whether the router at its far side is in reset (free: log 104), which
clears the port. -/
def cycleEnds (m m' : Mach) : Prop :=
  m'.cyc = m.cyc + 1 ∧ m'.turn = 0 ∧ m'.first = none ∧ m'.mem = m.mem ∧ m'.ctxs = m.ctxs ∧ m'.runs = m.runs ∧
  m'.pkg.ftime = m.pkg.ftime + (if m.pkg.counting = true then Config.timeStep m.tick else 0) ∧
  (∀ k t, (m.cyc + 1) % 64 = 0 → (m.core k).next = some t → m'.core k = { m.core k with table := t, next := none }) ∧
  (∀ k, (m.cyc + 1) % 64 ≠ 0 ∨ (m.core k).next = none → m'.core k = m.core k) ∧
  (∀ j, m'.stream j =
    if (m.stream j).since = none ∧ (m.stream j).await = none ∧ (m.stream j).head ≠ (m.stream j).end_ then { m.stream j with since := some m.cyc }
    else m.stream j) ∧
  ∀ k < 6, (∃ n, (m'.pkg.port k).away = Config.farReset k n) ∧
    ((m.pkg.port k).away = false → (m'.pkg.port k).away = true → (m'.pkg.port k).kept = [] ∧ (m'.pkg.port k).partial_ = [] ∧
      (m'.pkg.port k).crossing = [] ∧ (m'.pkg.port k).sending = [] ∧
      ∀ x ∈ m.out, m.pkg.portOf x = some k → ∀ n, noticeOf x = some n → .undeliverable m.pkg.chip n ∈ m'.net)

/-- Words act in slot order, each by the meaning of the instruction that it decodes to, and none traps (R50, R310): from `s` to `t`. -/
def actIn : List Cur → State → State → Prop
  | [], s, t => t = s
  | u :: rest, s, t => ∃ s1, exec u.w.ins (s.atWord u) = .next s1 ∧ s1.iss.trapped = false ∧ actIn rest s1 t

/-- The memory that the machine holds, and the memory that its open issue reads, are in canonical form. -/
def canonicalMemory (s : State) : Prop := Memory.wf s.m.mem = true ∧ Memory.wf s.old.mem = true

/-- The slot words that a map holds: well-formed operations of the map with the path tags of R44. -/
def goodWord (sm : SlotMap) (w : Slot) : Prop :=
  w.ins ≠ .nop ∧ w.ins.wf = true ∧ w.ins.inMap sm = true ∧ w.pt.toNat ≤ 5 ∧ (sm = .c → w.pt = 0)

end Sys2Proof.Claims

/-- R21, R27, R28, R37, R43 to R51, R72, R99, R298, R310, R358, R363: a step that takes an event runs that event's meaning; a step that lets a
context issue a bundle, with nothing against it, runs the meanings of the instructions that its issued words decode to, in slot order, and
then commits the issue; where one of them traps or parks the context, the words after it do not act and the issue does not commit. The fetch
counts among its run's requests. A step that executes a command runs the meaning of its C word; one in which nothing can issue ends the cycle.
The model's choice: an empty agenda takes the first event that can happen in a fixed order (log 1), and a fetch takes what memory holds at its
step (log 105). -/
def Obligations.StepRunsTheDecodedInstruction : Prop :=
  ∀ (s : State) (rest : List (Option Instr)),
    (∀ ev, s.agenda = some ev :: rest → Machine.Instr.isEvent ev = true → step s = exec ev { s with agenda := rest }) ∧
    (∀ ev, s.agenda = [] → s.m.due = some ev → step s = exec ev s) ∧
    (∀ (x k : Nat) (ws : List W32) (b : Bundle) (l : List Cur) (lb : RMap 64) (on : List Cur) (s1 t : State) (later : List Nat)
       (cores : List Nat),
      (let s0 : State := { s with agenda := rest }
       s.agenda = none :: rest → s0.nextCommand = none → s.m.first = none → s.m.coresLeft = k :: cores → s.m.order k = x :: later →
       Issues s0 x ws b l lb → issuedOf s0 x b l = on → unhindered s0 x b (currentOf s0 x b l) on s1 →
       (let after := fun (v : State) => step s = .next { v with m := { servedBy v.m (s.m.ctx x).rid (codeFrom s x ws) with
          turn := k, first := some (x, occupied (currentOf s0 x b l)) } }
        (actIn on s1.open_ t → s1.open_.iss.trapped = false → after (t.commit (currentOf s0 x b l) on b ws lb)) ∧
        (∀ pre u post s2, on = pre ++ u :: post → s1.open_.iss.trapped = false → actIn pre s1.open_ s2 → exec u.w.ins (s2.atWord u) = .next t →
          t.iss.trapped = true → (∃ p, t.nc.status = .parked p) ∨ s1.oc.mayTrap = true → after t)))) ∧
    (let s0 : State := { s with agenda := rest }
     s.agenda = none :: rest → s0.nextCommand = none → s0.issueNext = none → ∃ m : Mach, step s = .next { s0 with m := m } ∧ cycleEnds s.m m) ∧
    (∀ (k : Nat) (t : State) (h : Header) (w : Slot) (pool : List W32) (hw cw : W32) (bs : List Byte),
      (let s0 : State := { s with agenda := rest }
       let q := s.m.stream k
       s.agenda = none :: rest → s.m.streams.map (fun p => p.1) = [k] → s.m.pkg.stuck = false → s.m.pkg.wiping = false → q.await = none →
       q.late = [] → q.state ≠ 4 → q.logOk = true → 4 ≤ (q.end_ - q.head).toNat → h.bytes ≤ (q.end_ - q.head).toNat →
       s.m.ringRead q q.head 4 = some (bytesLE hw) → s.m.ringRead q q.head h.bytes = some bs → wordsLE bs = hw :: cw :: pool →
       decodeHeader hw = .ok h → h.p = 0x800 → h.rep = 0 → decodeSlot .c cw = .ok w → w.fi = false → w.li = false →
       commandOp w.ins.op.toNat = true → exec w.ins (s0.atCommand k h pool) = .next t → step s = .next t))

/-- R83 to R98: encoding and decoding agree: every well-formed operation of a slot map, with every path tag and iteration bit that the slot
allows, is what its own word decodes to, and a word that decodes is the word of what it decodes to. -/
def Obligations.DecodeAndEncodeAgree : Prop :=
  ∀ (sm : SlotMap),
    (∀ w : Slot, goodWord sm w → decodeSlot sm (encodeSlot w) = .ok w) ∧
    (∀ (v : W32) (w : Slot), decodeSlot sm v = .ok w → encodeSlot w = v ∧ (w.ins = .nop ∨ goodWord sm w))

/-- R43, R45, R46: a bundle's words are read back: the header, the words it presents in slot order, its literal pool. -/
def Obligations.BundlesAreReadBack : Prop :=
  ∀ (h : Header) (ws pool more : List W32), ws.length = h.slots.length → pool.length = h.lits.toNat →
    decodeBundle (encodeHeader h :: (ws ++ pool ++ more)) = .ok { hdr := h, words := h.slots.zip ws, pool := pool } ∧
    (∀ l : List W32, wordsLE (l.flatMap bytesLE) = l) ∧
    (∀ w : W32, w.toNat % 256 ≠ 0 → decodeBundle (w :: (ws ++ pool)) = .error .header) ∧
    (0 < h.tailWords → decodeBundle (encodeHeader h :: (ws ++ pool).drop 1) = .error .short)

/-- R44, R84 to R98: words that the spec writes out, or that are put together from its tables, decode to the instructions that they stand
for, and the near misses that it lists are refused: a sanity check. -/
def Obligations.WordsOfTheEncodingTables : Prop :=
  (let is := fun (sm : SlotMap) (w : W32) (i : Instr) => decodeSlot sm w = .ok { pt := 0, fi := false, li := false, ins := i }
   is .c 0x01280400 (.step 8 0 1024) ∧ is .c 0x01005002 (.loop 0 10 2) ∧ is .c 0x00440000 (.br 1 0) ∧ is .c 0x01518000 (.waitF 0x1800) ∧
   is .c 0x01A00000 .tbar ∧ is .c 0x01E00000 .endCtx ∧ is .c 0x04221000 (.trap 0x21) ∧ is .c 0x06000000 (.launch 0) ∧ is .c 0 .nop ∧
   is .s 0x00C04000 (.liS64 1 0) ∧ is .s 0x00808240 (.addS64Imm 2 2 64) ∧ is .s 0x02000420 (.cmpLtS64 0 1 2) ∧ is .s 0x00D18000 (.li64 6 0) ∧
   is (.mem .ll) 0x00100200 (.ld .ll 0 1 0) ∧ is (.mem .lk) 0x00200400 (.st .lk 0 2 0) ∧ is (.mem .ll) 0x03024000 (.barWait .ll 9 0 0) ∧
   is (.mem .lg) 0x03600000 .drain ∧ is .v 0x00118440 (.vaddF32 3 1 2 0 0) ∧ is .v 0x0421C000 (.vsetvl 7) ∧ is .v 0x04052000 (.vrandZ32 10 1) ∧
   is .qm 0x00838000 (.qmvsc 3 1) ∧ is .qc 0x01000000 .qrot ∧ is .sc 0x00120C01 (.ldsc 2 3 1) ∧ is .m 0x03002000 (.mvfo 0 4) ∧
   is .m 0x00100000 (.ldbS8 0 0) ∧ is .m 0x01802428 (.mmBp8 0 1 1 2 1) ∧ is .m 0x02008000 (.ardF32 1 0 0) ∧ is .m 0x01B02406 (.dmm 0 1 1 0 0 1 1) ∧
   is .x 0x00101800 (.mvsh 0 6) ∧ is .x 0x01000900 (.xsend 0 1 8)) ∧
  decodeSlot .s 0x20C0C003 = .ok { pt := 1, fi := false, li := false, ins := .liS64 3 3 } ∧
  decodeSlot (.mem .ll) 0x41210502 = .ok { pt := 2, fi := false, li := false, ins := .stsZ32 .ll 4 5 2 } ∧
  decodeSlot .s 0x10810064 = .ok { pt := 0, fi := true, li := false, ins := .addS64Imm 4 0 100 } ∧
  decodeSlot .s 0x0881860A = .ok { pt := 0, fi := false, li := true, ins := .addS64Imm 6 6 10 } ∧
  decodeSlot .s 0xC0C0C003 = .error .pathTag ∧ decodeSlot (.mem .ll) 0x00000001 = .error .nopBits ∧
  decodeSlot (.mem .ll) 0x00500000 = .error .illFormed ∧ decodeSlot .m 0x01802688 = .error .illFormed ∧
  decodeHeader 0xC0802400 = .ok { p := 0xC08, rep := 0, stop := true, lits := 4 } ∧ decodeHeader 0xC0802401 = .error .header

/-- The canonical form of memory (rising locations, nothing listed that reads as zero anyway; the form is the model's, log 3) is kept by
every step that answers a next state. -/
def Obligations.StepKeepsMemoryCanonical : Prop :=
  ∀ s t : State, canonicalMemory s → step s = .next t → canonicalMemory t

/-- After reset memory is in its canonical form. -/
def Obligations.ResetMemoryIsCanonical : Prop := canonicalMemory State.reset

/-- R13, R26, R149, R167, R358, R361, R368, R370: after reset nothing is placed, every stream is idle at sequence number 1, every memory and
register reads zero, no slice is in a partition, fabric time stands at 0, F is 1,200 units, no port has attested and the interrupts have
their vectors. The model's choice: every Governor's clock is 76 steps and its share a quarter of P, for R359 and R362 give them no reset
value (log 5). -/
def Obligations.ResetLeavesTheMachine : Prop :=
  (let m := State.reset.m
   m.runs = [] ∧ m.teams = [] ∧ (∀ x, (m.ctx x).status = .absent) ∧ (∀ a, readByte m.mem a = 0) ∧ m.gops = [] ∧ m.locq = [] ∧ m.net = [] ∧
   (∀ k, (m.stream k).seq = 1 ∧ (m.stream k).head = 0 ∧ (m.stream k).end_ = 0 ∧ stateOf (m.stream k) = 0 ∧ (m.stream k).await = none) ∧
   (∀ x (r : BitVec 6), (m.ctx x).regs.rg r = 0) ∧ (∀ x k, rget k (m.ctx x).regs.v = 0 ∧ rget k (m.ctx x).regs.m = 0) ∧
   (∀ s, kget s m.pkg.part = none) ∧ m.pkg.ftime = 0 ∧ m.pkg.counting = false ∧ m.pkg.f = 1200 ∧ m.pkg.vectors = 0xF3F2F1F0 ∧ m.pkg.tlb = [] ∧
   m.pkg.own = [] ∧ (∀ k, (m.core k).mq = [] ∧ (m.core k).tiles = [] ∧ (m.core k).stones = [] ∧ (m.core k).dead = false) ∧
   (∀ t, (m.tail t).slots = [] ∧ (m.tail t).strays = []) ∧ (∀ q, (m.pkg.gov q).req = 0 ∧ (m.pkg.gov q).clock = 76 ∧ (m.pkg.gov q).share = m.pkg.p) ∧
   (∀ k, (m.pkg.port k).attested = false ∧ (m.pkg.port k).away = false) ∧ m.pkg.identity = none ∧ (∀ t, (m.tail t).landing = none))
end

