-- ==== Sys2Proof/Laws/Fields.lean ====
section
/-! SUPPORT. Fields of an operand word: a field put together from parts is read back from its place, and the bits that a format fixes are as
it fixes them (R83 to R96). One lemma for each layout of the tables. -/

namespace Sys2Proof.Laws

/-- A field above the last part. -/
theorem exT {v w start len : Nat} {x : BitVec v} {y : BitVec w} (h : w ≤ start) :
    (x ++ y).extractLsb' start len = x.extractLsb' (start - w) len := BitVec.extractLsb'_append_eq_of_le h

/-- The last part. -/
theorem exB {v w : Nat} {x : BitVec v} {y : BitVec w} : (x ++ y).extractLsb' 0 w = y := by
  rw [BitVec.extractLsb'_append_eq_of_add_le (by omega)]
  simp

/-- The whole. -/
theorem exS {v : Nat} {x : BitVec v} : x.extractLsb' 0 v = x := by simp

theorem shape1 (F : BitVec 20 → Instr) (x0 : BitVec 20) :
    let w := x0
    (Except.ok (F (w.extractLsb' 0 20)) : Except Reject Instr) = .ok (F x0) := by
  intro w
  have e0 : w.extractLsb' 0 20 = x0 := exS
  rw [e0]

theorem shape2 (F : BitVec 6 → Instr) (x0 : BitVec 6) :
    let w := x0 ++ 0#14
    zeros w 0x3FFF 0x0 (F (w.extractLsb' 14 6)) = .ok (F x0) := by
  intro w
  have e0 : w.extractLsb' 14 6 = x0 := (exT (by decide)).trans <| exS
  have z : w &&& (0#6 ++ 16383#14) = 0#6 ++ 0#14 := by
    simp only [w, BitVec.and_append, BitVec.and_zero]; rfl
  rw [e0]
  exact if_pos z

theorem shape3 (F : BitVec 2 → BitVec 5 → Instr) (x0 : BitVec 2) (x1 : BitVec 5) :
    let w := x0 ++ x1 ++ 0#13
    zeros w 0x1FFF 0x0 (F (w.extractLsb' 18 2) (w.extractLsb' 13 5)) = .ok (F x0 x1) := by
  intro w
  have e0 : w.extractLsb' 18 2 = x0 := (exT (by decide)).trans <| (exT (by decide)).trans <| exS
  have e1 : w.extractLsb' 13 5 = x1 := (exT (by decide)).trans <| exB
  have z : w &&& (0#2 ++ 0#5 ++ 8191#13) = 0#2 ++ 0#5 ++ 0#13 := by
    simp only [w, BitVec.and_append, BitVec.and_zero]; rfl
  rw [e0, e1]
  exact if_pos z

theorem shape5 (F : BitVec 3 → BitVec 6 → BitVec 8 → Instr) (x0 : BitVec 3) (x1 : BitVec 6) (x2 : BitVec 8) :
    let w := x0 ++ x1 ++ 0#3 ++ x2
    zeros w 0x700 0x0 (F (w.extractLsb' 17 3) (w.extractLsb' 11 6) (w.extractLsb' 0 8)) = .ok (F x0 x1 x2) := by
  intro w
  have e0 : w.extractLsb' 17 3 = x0 := (exT (by decide)).trans <| (exT (by decide)).trans <| (exT (by decide)).trans <| exS
  have e1 : w.extractLsb' 11 6 = x1 := (exT (by decide)).trans <| (exT (by decide)).trans <| exB
  have e2 : w.extractLsb' 0 8 = x2 := exB
  have z : w &&& (0#3 ++ 0#6 ++ 7#3 ++ 0#8) = 0#3 ++ 0#6 ++ 0#3 ++ 0#8 := by
    simp only [w, BitVec.and_append, BitVec.and_zero]; rfl
  rw [e0, e1, e2]
  exact if_pos z

theorem shape6 (F : BitVec 3 → BitVec 9 → BitVec 8 → Instr) (x0 : BitVec 3) (x1 : BitVec 9) (x2 : BitVec 8) :
    let w := x0 ++ x1 ++ x2
    (Except.ok (F (w.extractLsb' 17 3) (w.extractLsb' 8 9) (w.extractLsb' 0 8)) : Except Reject Instr) = .ok (F x0 x1 x2) := by
  intro w
  have e0 : w.extractLsb' 17 3 = x0 := (exT (by decide)).trans <| (exT (by decide)).trans <| exS
  have e1 : w.extractLsb' 8 9 = x1 := (exT (by decide)).trans <| exB
  have e2 : w.extractLsb' 0 8 = x2 := exB
  rw [e0, e1, e2]

theorem shape7 (F : BitVec 4 → BitVec 3 → BitVec 13 → Instr) (x0 : BitVec 4) (x1 : BitVec 3) (x2 : BitVec 13) :
    let w := x0 ++ x1 ++ x2
    (Except.ok (F (w.extractLsb' 16 4) (w.extractLsb' 13 3) (w.extractLsb' 0 13)) : Except Reject Instr) = .ok (F x0 x1 x2) := by
  intro w
  have e0 : w.extractLsb' 16 4 = x0 := (exT (by decide)).trans <| (exT (by decide)).trans <| exS
  have e1 : w.extractLsb' 13 3 = x1 := (exT (by decide)).trans <| exB
  have e2 : w.extractLsb' 0 13 = x2 := exB
  rw [e0, e1, e2]

theorem shape8 (F : BitVec 4 → BitVec 3 → BitVec 6 → Instr) (x0 : BitVec 4) (x1 : BitVec 3) (x2 : BitVec 6) :
    let w := x0 ++ x1 ++ x2 ++ 0#7
    zeros w 0x7F 0x0 (F (w.extractLsb' 16 4) (w.extractLsb' 13 3) (w.extractLsb' 7 6)) = .ok (F x0 x1 x2) := by
  intro w
  have e0 : w.extractLsb' 16 4 = x0 := (exT (by decide)).trans <| (exT (by decide)).trans <| (exT (by decide)).trans <| exS
  have e1 : w.extractLsb' 13 3 = x1 := (exT (by decide)).trans <| (exT (by decide)).trans <| exB
  have e2 : w.extractLsb' 7 6 = x2 := (exT (by decide)).trans <| exB
  have z : w &&& (0#4 ++ 0#3 ++ 0#6 ++ 127#7) = 0#4 ++ 0#3 ++ 0#6 ++ 0#7 := by
    simp only [w, BitVec.and_append, BitVec.and_zero]; rfl
  rw [e0, e1, e2]
  exact if_pos z

theorem shape9 (F : BitVec 4 → BitVec 5 → Instr) (x0 : BitVec 4) (x1 : BitVec 5) :
    let w := x0 ++ 0#11 ++ x1
    zeros w 0xFFE0 0x0 (F (w.extractLsb' 16 4) (w.extractLsb' 0 5)) = .ok (F x0 x1) := by
  intro w
  have e0 : w.extractLsb' 16 4 = x0 := (exT (by decide)).trans <| (exT (by decide)).trans <| exS
  have e1 : w.extractLsb' 0 5 = x1 := exB
  have z : w &&& (0#4 ++ 2047#11 ++ 0#5) = 0#4 ++ 0#11 ++ 0#5 := by
    simp only [w, BitVec.and_append, BitVec.and_zero]; rfl
  rw [e0, e1]
  exact if_pos z

theorem shape10 (F : BitVec 16 → Instr) (x0 : BitVec 16) :
    let w := x0 ++ 0#4
    zeros w 0xF 0x0 (F (w.extractLsb' 4 16)) = .ok (F x0) := by
  intro w
  have e0 : w.extractLsb' 4 16 = x0 := (exT (by decide)).trans <| exS
  have z : w &&& (0#16 ++ 15#4) = 0#16 ++ 0#4 := by
    simp only [w, BitVec.and_append, BitVec.and_zero]; rfl
  rw [e0]
  exact if_pos z

theorem shape11 (F : BitVec 6 → BitVec 6 → Instr) (x0 : BitVec 6) (x1 : BitVec 6) :
    let w := x0 ++ x1 ++ 0#8
    zeros w 0xFF 0x0 (F (w.extractLsb' 14 6) (w.extractLsb' 8 6)) = .ok (F x0 x1) := by
  intro w
  have e0 : w.extractLsb' 14 6 = x0 := (exT (by decide)).trans <| (exT (by decide)).trans <| exS
  have e1 : w.extractLsb' 8 6 = x1 := (exT (by decide)).trans <| exB
  have z : w &&& (0#6 ++ 0#6 ++ 255#8) = 0#6 ++ 0#6 ++ 0#8 := by
    simp only [w, BitVec.and_append, BitVec.and_zero]; rfl
  rw [e0, e1]
  exact if_pos z

theorem shape12 (F : BitVec 6 → BitVec 10 → Instr) (x0 : BitVec 6) (x1 : BitVec 10) :
    let w := x0 ++ x1 ++ 0#4
    zeros w 0xF 0x0 (F (w.extractLsb' 14 6) (w.extractLsb' 4 10)) = .ok (F x0 x1) := by
  intro w
  have e0 : w.extractLsb' 14 6 = x0 := (exT (by decide)).trans <| (exT (by decide)).trans <| exS
  have e1 : w.extractLsb' 4 10 = x1 := (exT (by decide)).trans <| exB
  have z : w &&& (0#6 ++ 0#10 ++ 15#4) = 0#6 ++ 0#10 ++ 0#4 := by
    simp only [w, BitVec.and_append, BitVec.and_zero]; rfl
  rw [e0, e1]
  exact if_pos z

theorem shape13 (F : BitVec 8 → Instr) (x0 : BitVec 8) :
    let w := x0 ++ 0#12
    zeros w 0xFFF 0x0 (F (w.extractLsb' 12 8)) = .ok (F x0) := by
  intro w
  have e0 : w.extractLsb' 12 8 = x0 := (exT (by decide)).trans <| exS
  have z : w &&& (0#8 ++ 4095#12) = 0#8 ++ 0#12 := by
    simp only [w, BitVec.and_append, BitVec.and_zero]; rfl
  rw [e0]
  exact if_pos z

theorem shape14 (F : BitVec 6 → BitVec 2 → Instr) (x0 : BitVec 6) (x1 : BitVec 2) :
    let w := x0 ++ x1 ++ 0#12
    zeros w 0xFFF 0x0 (F (w.extractLsb' 14 6) (w.extractLsb' 12 2)) = .ok (F x0 x1) := by
  intro w
  have e0 : w.extractLsb' 14 6 = x0 := (exT (by decide)).trans <| (exT (by decide)).trans <| exS
  have e1 : w.extractLsb' 12 2 = x1 := (exT (by decide)).trans <| exB
  have z : w &&& (0#6 ++ 0#2 ++ 4095#12) = 0#6 ++ 0#2 ++ 0#12 := by
    simp only [w, BitVec.and_append, BitVec.and_zero]; rfl
  rw [e0, e1]
  exact if_pos z

theorem shape15 (F : BitVec 5 → Instr) (x0 : BitVec 5) :
    let w := 0#15 ++ x0
    zeros w 0xFFFE0 0x0 (F (w.extractLsb' 0 5)) = .ok (F x0) := by
  intro w
  have e0 : w.extractLsb' 0 5 = x0 := exB
  have z : w &&& (32767#15 ++ 0#5) = 0#15 ++ 0#5 := by
    simp only [w, BitVec.and_append, BitVec.and_zero]; rfl
  rw [e0]
  exact if_pos z

theorem shape16 (F : BitVec 8 → BitVec 1 → BitVec 5 → Instr) (x0 : BitVec 8) (x1 : BitVec 1) (x2 : BitVec 5) :
    let w := 0#4 ++ x0 ++ 0#2 ++ x1 ++ x2
    zeros w 0xF00C0 0x0 (F (w.extractLsb' 8 8) (w.extractLsb' 5 1) (w.extractLsb' 0 5)) = .ok (F x0 x1 x2) := by
  intro w
  have e0 : w.extractLsb' 8 8 = x0 := (exT (by decide)).trans <| (exT (by decide)).trans <| (exT (by decide)).trans <| exB
  have e1 : w.extractLsb' 5 1 = x1 := (exT (by decide)).trans <| exB
  have e2 : w.extractLsb' 0 5 = x2 := exB
  have z : w &&& (15#4 ++ 0#8 ++ 3#2 ++ 0#1 ++ 0#5) = 0#4 ++ 0#8 ++ 0#2 ++ 0#1 ++ 0#5 := by
    simp only [w, BitVec.and_append, BitVec.and_zero]; rfl
  rw [e0, e1, e2]
  exact if_pos z

theorem shape17 (F : BitVec 6 → BitVec 6 → BitVec 6 → Instr) (x0 : BitVec 6) (x1 : BitVec 6) (x2 : BitVec 6) :
    let w := x0 ++ x1 ++ x2 ++ 0#2
    zeros w 0x3 0x0 (F (w.extractLsb' 14 6) (w.extractLsb' 8 6) (w.extractLsb' 2 6)) = .ok (F x0 x1 x2) := by
  intro w
  have e0 : w.extractLsb' 14 6 = x0 := (exT (by decide)).trans <| (exT (by decide)).trans <| (exT (by decide)).trans <| exS
  have e1 : w.extractLsb' 8 6 = x1 := (exT (by decide)).trans <| (exT (by decide)).trans <| exB
  have e2 : w.extractLsb' 2 6 = x2 := (exT (by decide)).trans <| exB
  have z : w &&& (0#6 ++ 0#6 ++ 0#6 ++ 3#2) = 0#6 ++ 0#6 ++ 0#6 ++ 0#2 := by
    simp only [w, BitVec.and_append, BitVec.and_zero]; rfl
  rw [e0, e1, e2]
  exact if_pos z

theorem shape18 (F : BitVec 6 → BitVec 6 → BitVec 8 → Instr) (x0 : BitVec 6) (x1 : BitVec 6) (x2 : BitVec 8) :
    let w := x0 ++ x1 ++ x2
    (Except.ok (F (w.extractLsb' 14 6) (w.extractLsb' 8 6) (w.extractLsb' 0 8)) : Except Reject Instr) = .ok (F x0 x1 x2) := by
  intro w
  have e0 : w.extractLsb' 14 6 = x0 := (exT (by decide)).trans <| (exT (by decide)).trans <| exS
  have e1 : w.extractLsb' 8 6 = x1 := (exT (by decide)).trans <| exB
  have e2 : w.extractLsb' 0 8 = x2 := exB
  rw [e0, e1, e2]

theorem shape19 (F : BitVec 6 → BitVec 5 → Instr) (x0 : BitVec 6) (x1 : BitVec 5) :
    let w := x0 ++ 0#9 ++ x1
    zeros w 0x3FE0 0x0 (F (w.extractLsb' 14 6) (w.extractLsb' 0 5)) = .ok (F x0 x1) := by
  intro w
  have e0 : w.extractLsb' 14 6 = x0 := (exT (by decide)).trans <| (exT (by decide)).trans <| exS
  have e1 : w.extractLsb' 0 5 = x1 := exB
  have z : w &&& (0#6 ++ 511#9 ++ 0#5) = 0#6 ++ 0#9 ++ 0#5 := by
    simp only [w, BitVec.and_append, BitVec.and_zero]; rfl
  rw [e0, e1]
  exact if_pos z

theorem shape20 (F : BitVec 6 → BitVec 6 → BitVec 6 → Instr) (x0 : BitVec 6) (x1 : BitVec 6) (x2 : BitVec 6) :
    let w := x0 ++ x1 ++ 0#2 ++ x2
    zeros w 0xC0 0x0 (F (w.extractLsb' 14 6) (w.extractLsb' 8 6) (w.extractLsb' 0 6)) = .ok (F x0 x1 x2) := by
  intro w
  have e0 : w.extractLsb' 14 6 = x0 := (exT (by decide)).trans <| (exT (by decide)).trans <| (exT (by decide)).trans <| exS
  have e1 : w.extractLsb' 8 6 = x1 := (exT (by decide)).trans <| (exT (by decide)).trans <| exB
  have e2 : w.extractLsb' 0 6 = x2 := exB
  have z : w &&& (0#6 ++ 0#6 ++ 3#2 ++ 0#6) = 0#6 ++ 0#6 ++ 0#2 ++ 0#6 := by
    simp only [w, BitVec.and_append, BitVec.and_zero]; rfl
  rw [e0, e1, e2]
  exact if_pos z

theorem shape21 (F : BitVec 6 → BitVec 6 → BitVec 5 → Instr) (x0 : BitVec 6) (x1 : BitVec 6) (x2 : BitVec 5) :
    let w := x0 ++ x1 ++ 0#3 ++ x2
    zeros w 0xE0 0x0 (F (w.extractLsb' 14 6) (w.extractLsb' 8 6) (w.extractLsb' 0 5)) = .ok (F x0 x1 x2) := by
  intro w
  have e0 : w.extractLsb' 14 6 = x0 := (exT (by decide)).trans <| (exT (by decide)).trans <| (exT (by decide)).trans <| exS
  have e1 : w.extractLsb' 8 6 = x1 := (exT (by decide)).trans <| (exT (by decide)).trans <| exB
  have e2 : w.extractLsb' 0 5 = x2 := exB
  have z : w &&& (0#6 ++ 0#6 ++ 7#3 ++ 0#5) = 0#6 ++ 0#6 ++ 0#3 ++ 0#5 := by
    simp only [w, BitVec.and_append, BitVec.and_zero]; rfl
  rw [e0, e1, e2]
  exact if_pos z

theorem shape22 (F : BitVec 4 → BitVec 6 → BitVec 6 → Instr) (x0 : BitVec 4) (x1 : BitVec 6) (x2 : BitVec 6) :
    let w := x0 ++ x1 ++ x2 ++ 0#4
    zeros w 0xF 0x0 (F (w.extractLsb' 16 4) (w.extractLsb' 10 6) (w.extractLsb' 4 6)) = .ok (F x0 x1 x2) := by
  intro w
  have e0 : w.extractLsb' 16 4 = x0 := (exT (by decide)).trans <| (exT (by decide)).trans <| (exT (by decide)).trans <| exS
  have e1 : w.extractLsb' 10 6 = x1 := (exT (by decide)).trans <| (exT (by decide)).trans <| exB
  have e2 : w.extractLsb' 4 6 = x2 := (exT (by decide)).trans <| exB
  have z : w &&& (0#4 ++ 0#6 ++ 0#6 ++ 15#4) = 0#4 ++ 0#6 ++ 0#6 ++ 0#4 := by
    simp only [w, BitVec.and_append, BitVec.and_zero]; rfl
  rw [e0, e1, e2]
  exact if_pos z

theorem shape23 (F : BitVec 4 → BitVec 6 → BitVec 10 → Instr) (x0 : BitVec 4) (x1 : BitVec 6) (x2 : BitVec 10) :
    let w := x0 ++ x1 ++ x2
    (Except.ok (F (w.extractLsb' 16 4) (w.extractLsb' 10 6) (w.extractLsb' 0 10)) : Except Reject Instr) = .ok (F x0 x1 x2) := by
  intro w
  have e0 : w.extractLsb' 16 4 = x0 := (exT (by decide)).trans <| (exT (by decide)).trans <| exS
  have e1 : w.extractLsb' 10 6 = x1 := (exT (by decide)).trans <| exB
  have e2 : w.extractLsb' 0 10 = x2 := exB
  rw [e0, e1, e2]

theorem shape24 (F : BitVec 4 → BitVec 4 → BitVec 4 → Instr) (x0 : BitVec 4) (x1 : BitVec 4) (x2 : BitVec 4) :
    let w := x0 ++ x1 ++ x2 ++ 0#8
    zeros w 0xFF 0x0 (F (w.extractLsb' 16 4) (w.extractLsb' 12 4) (w.extractLsb' 8 4)) = .ok (F x0 x1 x2) := by
  intro w
  have e0 : w.extractLsb' 16 4 = x0 := (exT (by decide)).trans <| (exT (by decide)).trans <| (exT (by decide)).trans <| exS
  have e1 : w.extractLsb' 12 4 = x1 := (exT (by decide)).trans <| (exT (by decide)).trans <| exB
  have e2 : w.extractLsb' 8 4 = x2 := (exT (by decide)).trans <| exB
  have z : w &&& (0#4 ++ 0#4 ++ 0#4 ++ 255#8) = 0#4 ++ 0#4 ++ 0#4 ++ 0#8 := by
    simp only [w, BitVec.and_append, BitVec.and_zero]; rfl
  rw [e0, e1, e2]
  exact if_pos z

theorem shape25 (F : BitVec 4 → Instr) (x0 : BitVec 4) :
    let w := x0 ++ 0#16
    zeros w 0xFFFF 0x0 (F (w.extractLsb' 16 4)) = .ok (F x0) := by
  intro w
  have e0 : w.extractLsb' 16 4 = x0 := (exT (by decide)).trans <| exS
  have z : w &&& (0#4 ++ 65535#16) = 0#4 ++ 0#16 := by
    simp only [w, BitVec.and_append, BitVec.and_zero]; rfl
  rw [e0]
  exact if_pos z

theorem shape26 (F : BitVec 6 → BitVec 3 → Instr) (x0 : BitVec 6) (x1 : BitVec 3) :
    let w := x0 ++ 0#11 ++ x1
    zeros w 0x3FF8 0x0 (F (w.extractLsb' 14 6) (w.extractLsb' 0 3)) = .ok (F x0 x1) := by
  intro w
  have e0 : w.extractLsb' 14 6 = x0 := (exT (by decide)).trans <| (exT (by decide)).trans <| exS
  have e1 : w.extractLsb' 0 3 = x1 := exB
  have z : w &&& (0#6 ++ 2047#11 ++ 0#3) = 0#6 ++ 0#11 ++ 0#3 := by
    simp only [w, BitVec.and_append, BitVec.and_zero]; rfl
  rw [e0, e1]
  exact if_pos z

theorem shape27 (F : BitVec 6 → BitVec 6 → BitVec 3 → Instr) (x0 : BitVec 6) (x1 : BitVec 6) (x2 : BitVec 3) :
    let w := x0 ++ x1 ++ x2 ++ 0#5
    zeros w 0x1F 0x0 (F (w.extractLsb' 14 6) (w.extractLsb' 8 6) (w.extractLsb' 5 3)) = .ok (F x0 x1 x2) := by
  intro w
  have e0 : w.extractLsb' 14 6 = x0 := (exT (by decide)).trans <| (exT (by decide)).trans <| (exT (by decide)).trans <| exS
  have e1 : w.extractLsb' 8 6 = x1 := (exT (by decide)).trans <| (exT (by decide)).trans <| exB
  have e2 : w.extractLsb' 5 3 = x2 := (exT (by decide)).trans <| exB
  have z : w &&& (0#6 ++ 0#6 ++ 0#3 ++ 31#5) = 0#6 ++ 0#6 ++ 0#3 ++ 0#5 := by
    simp only [w, BitVec.and_append, BitVec.and_zero]; rfl
  rw [e0, e1, e2]
  exact if_pos z

theorem shape28 (F : BitVec 5 → BitVec 6 → BitVec 9 → Instr) (x0 : BitVec 5) (x1 : BitVec 6) (x2 : BitVec 9) :
    let w := x0 ++ x1 ++ x2
    (Except.ok (F (w.extractLsb' 15 5) (w.extractLsb' 9 6) (w.extractLsb' 0 9)) : Except Reject Instr) = .ok (F x0 x1 x2) := by
  intro w
  have e0 : w.extractLsb' 15 5 = x0 := (exT (by decide)).trans <| (exT (by decide)).trans <| exS
  have e1 : w.extractLsb' 9 6 = x1 := (exT (by decide)).trans <| exB
  have e2 : w.extractLsb' 0 9 = x2 := exB
  rw [e0, e1, e2]

theorem shape29 (F : BitVec 3 → BitVec 6 → BitVec 9 → Instr) (x0 : BitVec 3) (x1 : BitVec 6) (x2 : BitVec 9) :
    let w := 0#2 ++ x0 ++ x1 ++ x2
    zeros w 0xC0000 0x0 (F (w.extractLsb' 15 3) (w.extractLsb' 9 6) (w.extractLsb' 0 9)) = .ok (F x0 x1 x2) := by
  intro w
  have e0 : w.extractLsb' 15 3 = x0 := (exT (by decide)).trans <| (exT (by decide)).trans <| exB
  have e1 : w.extractLsb' 9 6 = x1 := (exT (by decide)).trans <| exB
  have e2 : w.extractLsb' 0 9 = x2 := exB
  have z : w &&& (3#2 ++ 0#3 ++ 0#6 ++ 0#9) = 0#2 ++ 0#3 ++ 0#6 ++ 0#9 := by
    simp only [w, BitVec.and_append, BitVec.and_zero]; rfl
  rw [e0, e1, e2]
  exact if_pos z

theorem shape30 (F : BitVec 6 → BitVec 9 → Instr) (x0 : BitVec 6) (x1 : BitVec 9) :
    let w := 0#5 ++ x0 ++ x1
    zeros w 0xF8000 0x0 (F (w.extractLsb' 9 6) (w.extractLsb' 0 9)) = .ok (F x0 x1) := by
  intro w
  have e0 : w.extractLsb' 9 6 = x0 := (exT (by decide)).trans <| exB
  have e1 : w.extractLsb' 0 9 = x1 := exB
  have z : w &&& (31#5 ++ 0#6 ++ 0#9) = 0#5 ++ 0#6 ++ 0#9 := by
    simp only [w, BitVec.and_append, BitVec.and_zero]; rfl
  rw [e0, e1]
  exact if_pos z

theorem shape31 (F : BitVec 5 → BitVec 6 → BitVec 6 → Instr) (x0 : BitVec 5) (x1 : BitVec 6) (x2 : BitVec 6) :
    let w := x0 ++ x1 ++ x2 ++ 0#3
    zeros w 0x7 0x0 (F (w.extractLsb' 15 5) (w.extractLsb' 9 6) (w.extractLsb' 3 6)) = .ok (F x0 x1 x2) := by
  intro w
  have e0 : w.extractLsb' 15 5 = x0 := (exT (by decide)).trans <| (exT (by decide)).trans <| (exT (by decide)).trans <| exS
  have e1 : w.extractLsb' 9 6 = x1 := (exT (by decide)).trans <| (exT (by decide)).trans <| exB
  have e2 : w.extractLsb' 3 6 = x2 := (exT (by decide)).trans <| exB
  have z : w &&& (0#5 ++ 0#6 ++ 0#6 ++ 7#3) = 0#5 ++ 0#6 ++ 0#6 ++ 0#3 := by
    simp only [w, BitVec.and_append, BitVec.and_zero]; rfl
  rw [e0, e1, e2]
  exact if_pos z

theorem shape32 (F : BitVec 5 → BitVec 6 → BitVec 3 → Instr) (x0 : BitVec 5) (x1 : BitVec 6) (x2 : BitVec 3) :
    let w := x0 ++ x1 ++ x2 ++ 0#6
    zeros w 0x3F 0x0 (F (w.extractLsb' 15 5) (w.extractLsb' 9 6) (w.extractLsb' 6 3)) = .ok (F x0 x1 x2) := by
  intro w
  have e0 : w.extractLsb' 15 5 = x0 := (exT (by decide)).trans <| (exT (by decide)).trans <| (exT (by decide)).trans <| exS
  have e1 : w.extractLsb' 9 6 = x1 := (exT (by decide)).trans <| (exT (by decide)).trans <| exB
  have e2 : w.extractLsb' 6 3 = x2 := (exT (by decide)).trans <| exB
  have z : w &&& (0#5 ++ 0#6 ++ 0#3 ++ 63#6) = 0#5 ++ 0#6 ++ 0#3 ++ 0#6 := by
    simp only [w, BitVec.and_append, BitVec.and_zero]; rfl
  rw [e0, e1, e2]
  exact if_pos z

theorem shape33 (F : BitVec 5 → BitVec 6 → BitVec 3 → BitVec 3 → Instr) (x0 : BitVec 5) (x1 : BitVec 6) (x2 : BitVec 3) (x3 : BitVec 3) :
    let w := x0 ++ x1 ++ x2 ++ x3 ++ 0#3
    zeros w 0x7 0x0 (F (w.extractLsb' 15 5) (w.extractLsb' 9 6) (w.extractLsb' 6 3) (w.extractLsb' 3 3)) = .ok (F x0 x1 x2 x3) := by
  intro w
  have e0 : w.extractLsb' 15 5 = x0 := (exT (by decide)).trans <| (exT (by decide)).trans <| (exT (by decide)).trans <| (exT (by decide)).trans <| exS
  have e1 : w.extractLsb' 9 6 = x1 := (exT (by decide)).trans <| (exT (by decide)).trans <| (exT (by decide)).trans <| exB
  have e2 : w.extractLsb' 6 3 = x2 := (exT (by decide)).trans <| (exT (by decide)).trans <| exB
  have e3 : w.extractLsb' 3 3 = x3 := (exT (by decide)).trans <| exB
  have z : w &&& (0#5 ++ 0#6 ++ 0#3 ++ 0#3 ++ 7#3) = 0#5 ++ 0#6 ++ 0#3 ++ 0#3 ++ 0#3 := by
    simp only [w, BitVec.and_append, BitVec.and_zero]; rfl
  rw [e0, e1, e2, e3]
  exact if_pos z

theorem shape34 (F : BitVec 6 → BitVec 9 → BitVec 4 → Instr) (x0 : BitVec 6) (x1 : BitVec 9) (x2 : BitVec 4) :
    let w := x0 ++ x1 ++ x2 ++ 0#1
    zeros w 0x1 0x0 (F (w.extractLsb' 14 6) (w.extractLsb' 5 9) (w.extractLsb' 1 4)) = .ok (F x0 x1 x2) := by
  intro w
  have e0 : w.extractLsb' 14 6 = x0 := (exT (by decide)).trans <| (exT (by decide)).trans <| (exT (by decide)).trans <| exS
  have e1 : w.extractLsb' 5 9 = x1 := (exT (by decide)).trans <| (exT (by decide)).trans <| exB
  have e2 : w.extractLsb' 1 4 = x2 := (exT (by decide)).trans <| exB
  have z : w &&& (0#6 ++ 0#9 ++ 0#4 ++ 1#1) = 0#6 ++ 0#9 ++ 0#4 ++ 0#1 := by
    simp only [w, BitVec.and_append, BitVec.and_zero]; rfl
  rw [e0, e1, e2]
  exact if_pos z

theorem shape35 (F : BitVec 6 → BitVec 9 → Instr) (x0 : BitVec 6) (x1 : BitVec 9) :
    let w := x0 ++ x1 ++ 0#5
    zeros w 0x1F 0x0 (F (w.extractLsb' 14 6) (w.extractLsb' 5 9)) = .ok (F x0 x1) := by
  intro w
  have e0 : w.extractLsb' 14 6 = x0 := (exT (by decide)).trans <| (exT (by decide)).trans <| exS
  have e1 : w.extractLsb' 5 9 = x1 := (exT (by decide)).trans <| exB
  have z : w &&& (0#6 ++ 0#9 ++ 31#5) = 0#6 ++ 0#9 ++ 0#5 := by
    simp only [w, BitVec.and_append, BitVec.and_zero]; rfl
  rw [e0, e1]
  exact if_pos z

theorem shape36 (F : BitVec 6 → BitVec 9 → BitVec 5 → Instr) (x0 : BitVec 6) (x1 : BitVec 9) (x2 : BitVec 5) :
    let w := x0 ++ x1 ++ x2
    (Except.ok (F (w.extractLsb' 14 6) (w.extractLsb' 5 9) (w.extractLsb' 0 5)) : Except Reject Instr) = .ok (F x0 x1 x2) := by
  intro w
  have e0 : w.extractLsb' 14 6 = x0 := (exT (by decide)).trans <| (exT (by decide)).trans <| exS
  have e1 : w.extractLsb' 5 9 = x1 := (exT (by decide)).trans <| exB
  have e2 : w.extractLsb' 0 5 = x2 := exB
  rw [e0, e1, e2]

theorem shape37 (F : BitVec 5 → BitVec 5 → BitVec 5 → BitVec 3 → BitVec 1 → Instr) (x0 : BitVec 5) (x1 : BitVec 5) (x2 : BitVec 5) (x3 : BitVec 3) (x4 : BitVec 1) :
    let w := x0 ++ x1 ++ x2 ++ x3 ++ x4 ++ 0#1
    zeros w 0x1 0x0 (F (w.extractLsb' 15 5) (w.extractLsb' 10 5) (w.extractLsb' 5 5) (w.extractLsb' 2 3) (w.extractLsb' 1 1)) = .ok (F x0 x1 x2 x3 x4) := by
  intro w
  have e0 : w.extractLsb' 15 5 = x0 := (exT (by decide)).trans <| (exT (by decide)).trans <| (exT (by decide)).trans <| (exT (by decide)).trans <| (exT (by decide)).trans <| exS
  have e1 : w.extractLsb' 10 5 = x1 := (exT (by decide)).trans <| (exT (by decide)).trans <| (exT (by decide)).trans <| (exT (by decide)).trans <| exB
  have e2 : w.extractLsb' 5 5 = x2 := (exT (by decide)).trans <| (exT (by decide)).trans <| (exT (by decide)).trans <| exB
  have e3 : w.extractLsb' 2 3 = x3 := (exT (by decide)).trans <| (exT (by decide)).trans <| exB
  have e4 : w.extractLsb' 1 1 = x4 := (exT (by decide)).trans <| exB
  have z : w &&& (0#5 ++ 0#5 ++ 0#5 ++ 0#3 ++ 0#1 ++ 1#1) = 0#5 ++ 0#5 ++ 0#5 ++ 0#3 ++ 0#1 ++ 0#1 := by
    simp only [w, BitVec.and_append, BitVec.and_zero]; rfl
  rw [e0, e1, e2, e3, e4]
  exact if_pos z

theorem shape38 (F : BitVec 5 → BitVec 5 → BitVec 3 → BitVec 1 → Instr) (x0 : BitVec 5) (x1 : BitVec 5) (x2 : BitVec 3) (x3 : BitVec 1) :
    let w := x0 ++ x1 ++ 0#5 ++ x2 ++ x3 ++ 0#1
    zeros w 0x3E1 0x0 (F (w.extractLsb' 15 5) (w.extractLsb' 10 5) (w.extractLsb' 2 3) (w.extractLsb' 1 1)) = .ok (F x0 x1 x2 x3) := by
  intro w
  have e0 : w.extractLsb' 15 5 = x0 := (exT (by decide)).trans <| (exT (by decide)).trans <| (exT (by decide)).trans <| (exT (by decide)).trans <| (exT (by decide)).trans <| exS
  have e1 : w.extractLsb' 10 5 = x1 := (exT (by decide)).trans <| (exT (by decide)).trans <| (exT (by decide)).trans <| (exT (by decide)).trans <| exB
  have e2 : w.extractLsb' 2 3 = x2 := (exT (by decide)).trans <| (exT (by decide)).trans <| exB
  have e3 : w.extractLsb' 1 1 = x3 := (exT (by decide)).trans <| exB
  have z : w &&& (0#5 ++ 0#5 ++ 31#5 ++ 0#3 ++ 0#1 ++ 1#1) = 0#5 ++ 0#5 ++ 0#5 ++ 0#3 ++ 0#1 ++ 0#1 := by
    simp only [w, BitVec.and_append, BitVec.and_zero]; rfl
  rw [e0, e1, e2, e3]
  exact if_pos z

theorem shape39 (F : BitVec 3 → BitVec 5 → BitVec 5 → BitVec 3 → BitVec 1 → Instr) (x0 : BitVec 3) (x1 : BitVec 5) (x2 : BitVec 5) (x3 : BitVec 3) (x4 : BitVec 1) :
    let w := x0 ++ x1 ++ x2 ++ x3 ++ x4 ++ 0#3
    zeros w 0x7 0x0 (F (w.extractLsb' 17 3) (w.extractLsb' 12 5) (w.extractLsb' 7 5) (w.extractLsb' 4 3) (w.extractLsb' 3 1)) = .ok (F x0 x1 x2 x3 x4) := by
  intro w
  have e0 : w.extractLsb' 17 3 = x0 := (exT (by decide)).trans <| (exT (by decide)).trans <| (exT (by decide)).trans <| (exT (by decide)).trans <| (exT (by decide)).trans <| exS
  have e1 : w.extractLsb' 12 5 = x1 := (exT (by decide)).trans <| (exT (by decide)).trans <| (exT (by decide)).trans <| (exT (by decide)).trans <| exB
  have e2 : w.extractLsb' 7 5 = x2 := (exT (by decide)).trans <| (exT (by decide)).trans <| (exT (by decide)).trans <| exB
  have e3 : w.extractLsb' 4 3 = x3 := (exT (by decide)).trans <| (exT (by decide)).trans <| exB
  have e4 : w.extractLsb' 3 1 = x4 := (exT (by decide)).trans <| exB
  have z : w &&& (0#3 ++ 0#5 ++ 0#5 ++ 0#3 ++ 0#1 ++ 7#3) = 0#3 ++ 0#5 ++ 0#5 ++ 0#3 ++ 0#1 ++ 0#3 := by
    simp only [w, BitVec.and_append, BitVec.and_zero]; rfl
  rw [e0, e1, e2, e3, e4]
  exact if_pos z

theorem shape40 (F : BitVec 3 → BitVec 3 → BitVec 3 → Instr) (x0 : BitVec 3) (x1 : BitVec 3) (x2 : BitVec 3) :
    let w := x0 ++ x1 ++ x2 ++ 0#11
    zeros w 0x7FF 0x0 (F (w.extractLsb' 17 3) (w.extractLsb' 14 3) (w.extractLsb' 11 3)) = .ok (F x0 x1 x2) := by
  intro w
  have e0 : w.extractLsb' 17 3 = x0 := (exT (by decide)).trans <| (exT (by decide)).trans <| (exT (by decide)).trans <| exS
  have e1 : w.extractLsb' 14 3 = x1 := (exT (by decide)).trans <| (exT (by decide)).trans <| exB
  have e2 : w.extractLsb' 11 3 = x2 := (exT (by decide)).trans <| exB
  have z : w &&& (0#3 ++ 0#3 ++ 0#3 ++ 2047#11) = 0#3 ++ 0#3 ++ 0#3 ++ 0#11 := by
    simp only [w, BitVec.and_append, BitVec.and_zero]; rfl
  rw [e0, e1, e2]
  exact if_pos z

theorem shape41 (F : BitVec 3 → BitVec 3 → Instr) (x0 : BitVec 3) (x1 : BitVec 3) :
    let w := x0 ++ x1 ++ 0#14
    zeros w 0x3FFF 0x0 (F (w.extractLsb' 17 3) (w.extractLsb' 14 3)) = .ok (F x0 x1) := by
  intro w
  have e0 : w.extractLsb' 17 3 = x0 := (exT (by decide)).trans <| (exT (by decide)).trans <| exS
  have e1 : w.extractLsb' 14 3 = x1 := (exT (by decide)).trans <| exB
  have z : w &&& (0#3 ++ 0#3 ++ 16383#14) = 0#3 ++ 0#3 ++ 0#14 := by
    simp only [w, BitVec.and_append, BitVec.and_zero]; rfl
  rw [e0, e1]
  exact if_pos z

theorem shape42 (F : BitVec 5 → BitVec 5 → BitVec 5 → BitVec 3 → Instr) (x0 : BitVec 5) (x1 : BitVec 5) (x2 : BitVec 5) (x3 : BitVec 3) :
    let w := x0 ++ x1 ++ x2 ++ x3 ++ 2#2
    zeros w 0x3 0x2 (F (w.extractLsb' 15 5) (w.extractLsb' 10 5) (w.extractLsb' 5 5) (w.extractLsb' 2 3)) = .ok (F x0 x1 x2 x3) := by
  intro w
  have e0 : w.extractLsb' 15 5 = x0 := (exT (by decide)).trans <| (exT (by decide)).trans <| (exT (by decide)).trans <| (exT (by decide)).trans <| exS
  have e1 : w.extractLsb' 10 5 = x1 := (exT (by decide)).trans <| (exT (by decide)).trans <| (exT (by decide)).trans <| exB
  have e2 : w.extractLsb' 5 5 = x2 := (exT (by decide)).trans <| (exT (by decide)).trans <| exB
  have e3 : w.extractLsb' 2 3 = x3 := (exT (by decide)).trans <| exB
  have z : w &&& (0#5 ++ 0#5 ++ 0#5 ++ 0#3 ++ 3#2) = 0#5 ++ 0#5 ++ 0#5 ++ 0#3 ++ 2#2 := by
    simp only [w, BitVec.and_append, BitVec.and_zero]; rfl
  rw [e0, e1, e2, e3]
  exact if_pos z

theorem shape43 (F : BitVec 5 → BitVec 6 → Instr) (x0 : BitVec 5) (x1 : BitVec 6) :
    let w := x0 ++ x1 ++ 0#9
    zeros w 0x1FF 0x0 (F (w.extractLsb' 15 5) (w.extractLsb' 9 6)) = .ok (F x0 x1) := by
  intro w
  have e0 : w.extractLsb' 15 5 = x0 := (exT (by decide)).trans <| (exT (by decide)).trans <| exS
  have e1 : w.extractLsb' 9 6 = x1 := (exT (by decide)).trans <| exB
  have z : w &&& (0#5 ++ 0#6 ++ 511#9) = 0#5 ++ 0#6 ++ 0#9 := by
    simp only [w, BitVec.and_append, BitVec.and_zero]; rfl
  rw [e0, e1]
  exact if_pos z

theorem shape44 (F : BitVec 6 → BitVec 5 → BitVec 6 → Instr) (x0 : BitVec 6) (x1 : BitVec 5) (x2 : BitVec 6) :
    let w := x0 ++ x1 ++ x2 ++ 0#3
    zeros w 0x7 0x0 (F (w.extractLsb' 14 6) (w.extractLsb' 9 5) (w.extractLsb' 3 6)) = .ok (F x0 x1 x2) := by
  intro w
  have e0 : w.extractLsb' 14 6 = x0 := (exT (by decide)).trans <| (exT (by decide)).trans <| (exT (by decide)).trans <| exS
  have e1 : w.extractLsb' 9 5 = x1 := (exT (by decide)).trans <| (exT (by decide)).trans <| exB
  have e2 : w.extractLsb' 3 6 = x2 := (exT (by decide)).trans <| exB
  have z : w &&& (0#6 ++ 0#5 ++ 0#6 ++ 7#3) = 0#6 ++ 0#5 ++ 0#6 ++ 0#3 := by
    simp only [w, BitVec.and_append, BitVec.and_zero]; rfl
  rw [e0, e1, e2]
  exact if_pos z

theorem shape45 (F : BitVec 5 → BitVec 5 → Instr) (x0 : BitVec 5) (x1 : BitVec 5) :
    let w := x0 ++ x1 ++ 0#10
    zeros w 0x3FF 0x0 (F (w.extractLsb' 15 5) (w.extractLsb' 10 5)) = .ok (F x0 x1) := by
  intro w
  have e0 : w.extractLsb' 15 5 = x0 := (exT (by decide)).trans <| (exT (by decide)).trans <| exS
  have e1 : w.extractLsb' 10 5 = x1 := (exT (by decide)).trans <| exB
  have z : w &&& (0#5 ++ 0#5 ++ 1023#10) = 0#5 ++ 0#5 ++ 0#10 := by
    simp only [w, BitVec.and_append, BitVec.and_zero]; rfl
  rw [e0, e1]
  exact if_pos z

theorem shape46 (F : BitVec 5 → BitVec 2 → Instr) (x0 : BitVec 5) (x1 : BitVec 2) :
    let w := x0 ++ x1 ++ 0#13
    zeros w 0x1FFF 0x0 (F (w.extractLsb' 15 5) (w.extractLsb' 13 2)) = .ok (F x0 x1) := by
  intro w
  have e0 : w.extractLsb' 15 5 = x0 := (exT (by decide)).trans <| (exT (by decide)).trans <| exS
  have e1 : w.extractLsb' 13 2 = x1 := (exT (by decide)).trans <| exB
  have z : w &&& (0#5 ++ 0#2 ++ 8191#13) = 0#5 ++ 0#2 ++ 0#13 := by
    simp only [w, BitVec.and_append, BitVec.and_zero]; rfl
  rw [e0, e1]
  exact if_pos z

theorem shape47 (F : BitVec 5 → BitVec 3 → BitVec 5 → Instr) (x0 : BitVec 5) (x1 : BitVec 3) (x2 : BitVec 5) :
    let w := x0 ++ x1 ++ x2 ++ 0#7
    zeros w 0x7F 0x0 (F (w.extractLsb' 15 5) (w.extractLsb' 12 3) (w.extractLsb' 7 5)) = .ok (F x0 x1 x2) := by
  intro w
  have e0 : w.extractLsb' 15 5 = x0 := (exT (by decide)).trans <| (exT (by decide)).trans <| (exT (by decide)).trans <| exS
  have e1 : w.extractLsb' 12 3 = x1 := (exT (by decide)).trans <| (exT (by decide)).trans <| exB
  have e2 : w.extractLsb' 7 5 = x2 := (exT (by decide)).trans <| exB
  have z : w &&& (0#5 ++ 0#3 ++ 0#5 ++ 127#7) = 0#5 ++ 0#3 ++ 0#5 ++ 0#7 := by
    simp only [w, BitVec.and_append, BitVec.and_zero]; rfl
  rw [e0, e1, e2]
  exact if_pos z

theorem shape48 (F : BitVec 5 → BitVec 4 → Instr) (x0 : BitVec 5) (x1 : BitVec 4) :
    let w := x0 ++ x1 ++ 0#11
    zeros w 0x7FF 0x0 (F (w.extractLsb' 15 5) (w.extractLsb' 11 4)) = .ok (F x0 x1) := by
  intro w
  have e0 : w.extractLsb' 15 5 = x0 := (exT (by decide)).trans <| (exT (by decide)).trans <| exS
  have e1 : w.extractLsb' 11 4 = x1 := (exT (by decide)).trans <| exB
  have z : w &&& (0#5 ++ 0#4 ++ 2047#11) = 0#5 ++ 0#4 ++ 0#11 := by
    simp only [w, BitVec.and_append, BitVec.and_zero]; rfl
  rw [e0, e1]
  exact if_pos z

theorem shape49 (F : BitVec 4 → BitVec 1 → Instr) (x0 : BitVec 4) (x1 : BitVec 1) :
    let w := x0 ++ x1 ++ 0#15
    zeros w 0x7FFF 0x0 (F (w.extractLsb' 16 4) (w.extractLsb' 15 1)) = .ok (F x0 x1) := by
  intro w
  have e0 : w.extractLsb' 16 4 = x0 := (exT (by decide)).trans <| (exT (by decide)).trans <| exS
  have e1 : w.extractLsb' 15 1 = x1 := (exT (by decide)).trans <| exB
  have z : w &&& (0#4 ++ 0#1 ++ 32767#15) = 0#4 ++ 0#1 ++ 0#15 := by
    simp only [w, BitVec.and_append, BitVec.and_zero]; rfl
  rw [e0, e1]
  exact if_pos z

theorem shape50 (F : BitVec 3 → BitVec 5 → BitVec 3 → BitVec 2 → BitVec 1 → BitVec 4 → BitVec 1 → Instr) (x0 : BitVec 3) (x1 : BitVec 5) (x2 : BitVec 3) (x3 : BitVec 2) (x4 : BitVec 1) (x5 : BitVec 4) (x6 : BitVec 1) :
    let w := x0 ++ x1 ++ x2 ++ x3 ++ x4 ++ x5 ++ x6 ++ 0#1
    zeros w 0x1 0x0 (F (w.extractLsb' 17 3) (w.extractLsb' 12 5) (w.extractLsb' 9 3) (w.extractLsb' 7 2) (w.extractLsb' 6 1) (w.extractLsb' 2 4) (w.extractLsb' 1 1)) = .ok (F x0 x1 x2 x3 x4 x5 x6) := by
  intro w
  have e0 : w.extractLsb' 17 3 = x0 := (exT (by decide)).trans <| (exT (by decide)).trans <| (exT (by decide)).trans <| (exT (by decide)).trans <| (exT (by decide)).trans <| (exT (by decide)).trans <| (exT (by decide)).trans <| exS
  have e1 : w.extractLsb' 12 5 = x1 := (exT (by decide)).trans <| (exT (by decide)).trans <| (exT (by decide)).trans <| (exT (by decide)).trans <| (exT (by decide)).trans <| (exT (by decide)).trans <| exB
  have e2 : w.extractLsb' 9 3 = x2 := (exT (by decide)).trans <| (exT (by decide)).trans <| (exT (by decide)).trans <| (exT (by decide)).trans <| (exT (by decide)).trans <| exB
  have e3 : w.extractLsb' 7 2 = x3 := (exT (by decide)).trans <| (exT (by decide)).trans <| (exT (by decide)).trans <| (exT (by decide)).trans <| exB
  have e4 : w.extractLsb' 6 1 = x4 := (exT (by decide)).trans <| (exT (by decide)).trans <| (exT (by decide)).trans <| exB
  have e5 : w.extractLsb' 2 4 = x5 := (exT (by decide)).trans <| (exT (by decide)).trans <| exB
  have e6 : w.extractLsb' 1 1 = x6 := (exT (by decide)).trans <| exB
  have z : w &&& (0#3 ++ 0#5 ++ 0#3 ++ 0#2 ++ 0#1 ++ 0#4 ++ 0#1 ++ 1#1) = 0#3 ++ 0#5 ++ 0#3 ++ 0#2 ++ 0#1 ++ 0#4 ++ 0#1 ++ 0#1 := by
    simp only [w, BitVec.and_append, BitVec.and_zero]; rfl
  rw [e0, e1, e2, e3, e4, e5, e6]
  exact if_pos z

theorem shape51 (F : BitVec 3 → BitVec 5 → Instr) (x0 : BitVec 3) (x1 : BitVec 5) :
    let w := x0 ++ x1 ++ 0#12
    zeros w 0xFFF 0x0 (F (w.extractLsb' 17 3) (w.extractLsb' 12 5)) = .ok (F x0 x1) := by
  intro w
  have e0 : w.extractLsb' 17 3 = x0 := (exT (by decide)).trans <| (exT (by decide)).trans <| exS
  have e1 : w.extractLsb' 12 5 = x1 := (exT (by decide)).trans <| exB
  have z : w &&& (0#3 ++ 0#5 ++ 4095#12) = 0#3 ++ 0#5 ++ 0#12 := by
    simp only [w, BitVec.and_append, BitVec.and_zero]; rfl
  rw [e0, e1]
  exact if_pos z

theorem shape52 (F : BitVec 5 → BitVec 5 → BitVec 3 → BitVec 2 → Instr) (x0 : BitVec 5) (x1 : BitVec 5) (x2 : BitVec 3) (x3 : BitVec 2) :
    let w := x0 ++ x1 ++ x2 ++ x3 ++ 0#5
    zeros w 0x1F 0x0 (F (w.extractLsb' 15 5) (w.extractLsb' 10 5) (w.extractLsb' 7 3) (w.extractLsb' 5 2)) = .ok (F x0 x1 x2 x3) := by
  intro w
  have e0 : w.extractLsb' 15 5 = x0 := (exT (by decide)).trans <| (exT (by decide)).trans <| (exT (by decide)).trans <| (exT (by decide)).trans <| exS
  have e1 : w.extractLsb' 10 5 = x1 := (exT (by decide)).trans <| (exT (by decide)).trans <| (exT (by decide)).trans <| exB
  have e2 : w.extractLsb' 7 3 = x2 := (exT (by decide)).trans <| (exT (by decide)).trans <| exB
  have e3 : w.extractLsb' 5 2 = x3 := (exT (by decide)).trans <| exB
  have z : w &&& (0#5 ++ 0#5 ++ 0#3 ++ 0#2 ++ 31#5) = 0#5 ++ 0#5 ++ 0#3 ++ 0#2 ++ 0#5 := by
    simp only [w, BitVec.and_append, BitVec.and_zero]; rfl
  rw [e0, e1, e2, e3]
  exact if_pos z

theorem shape53 (F : BitVec 2 → BitVec 3 → Instr) (x0 : BitVec 2) (x1 : BitVec 3) :
    let w := x0 ++ x1 ++ 0#15
    zeros w 0x7FFF 0x0 (F (w.extractLsb' 18 2) (w.extractLsb' 15 3)) = .ok (F x0 x1) := by
  intro w
  have e0 : w.extractLsb' 18 2 = x0 := (exT (by decide)).trans <| (exT (by decide)).trans <| exS
  have e1 : w.extractLsb' 15 3 = x1 := (exT (by decide)).trans <| exB
  have z : w &&& (0#2 ++ 0#3 ++ 32767#15) = 0#2 ++ 0#3 ++ 0#15 := by
    simp only [w, BitVec.and_append, BitVec.and_zero]; rfl
  rw [e0, e1]
  exact if_pos z

theorem shape54 (F : BitVec 3 → BitVec 4 → BitVec 3 → BitVec 6 → BitVec 1 → Instr) (x0 : BitVec 3) (x1 : BitVec 4) (x2 : BitVec 3) (x3 : BitVec 6) (x4 : BitVec 1) :
    let w := x0 ++ x1 ++ x2 ++ x3 ++ x4 ++ 0#3
    zeros w 0x7 0x0 (F (w.extractLsb' 17 3) (w.extractLsb' 13 4) (w.extractLsb' 10 3) (w.extractLsb' 4 6) (w.extractLsb' 3 1)) = .ok (F x0 x1 x2 x3 x4) := by
  intro w
  have e0 : w.extractLsb' 17 3 = x0 := (exT (by decide)).trans <| (exT (by decide)).trans <| (exT (by decide)).trans <| (exT (by decide)).trans <| (exT (by decide)).trans <| exS
  have e1 : w.extractLsb' 13 4 = x1 := (exT (by decide)).trans <| (exT (by decide)).trans <| (exT (by decide)).trans <| (exT (by decide)).trans <| exB
  have e2 : w.extractLsb' 10 3 = x2 := (exT (by decide)).trans <| (exT (by decide)).trans <| (exT (by decide)).trans <| exB
  have e3 : w.extractLsb' 4 6 = x3 := (exT (by decide)).trans <| (exT (by decide)).trans <| exB
  have e4 : w.extractLsb' 3 1 = x4 := (exT (by decide)).trans <| exB
  have z : w &&& (0#3 ++ 0#4 ++ 0#3 ++ 0#6 ++ 0#1 ++ 7#3) = 0#3 ++ 0#4 ++ 0#3 ++ 0#6 ++ 0#1 ++ 0#3 := by
    simp only [w, BitVec.and_append, BitVec.and_zero]; rfl
  rw [e0, e1, e2, e3, e4]
  exact if_pos z

theorem shape55 (F : BitVec 3 → BitVec 4 → BitVec 3 → BitVec 5 → BitVec 1 → Instr) (x0 : BitVec 3) (x1 : BitVec 4) (x2 : BitVec 3) (x3 : BitVec 5) (x4 : BitVec 1) :
    let w := x0 ++ x1 ++ x2 ++ x3 ++ x4 ++ 0#4
    zeros w 0xF 0x0 (F (w.extractLsb' 17 3) (w.extractLsb' 13 4) (w.extractLsb' 10 3) (w.extractLsb' 5 5) (w.extractLsb' 4 1)) = .ok (F x0 x1 x2 x3 x4) := by
  intro w
  have e0 : w.extractLsb' 17 3 = x0 := (exT (by decide)).trans <| (exT (by decide)).trans <| (exT (by decide)).trans <| (exT (by decide)).trans <| (exT (by decide)).trans <| exS
  have e1 : w.extractLsb' 13 4 = x1 := (exT (by decide)).trans <| (exT (by decide)).trans <| (exT (by decide)).trans <| (exT (by decide)).trans <| exB
  have e2 : w.extractLsb' 10 3 = x2 := (exT (by decide)).trans <| (exT (by decide)).trans <| (exT (by decide)).trans <| exB
  have e3 : w.extractLsb' 5 5 = x3 := (exT (by decide)).trans <| (exT (by decide)).trans <| exB
  have e4 : w.extractLsb' 4 1 = x4 := (exT (by decide)).trans <| exB
  have z : w &&& (0#3 ++ 0#4 ++ 0#3 ++ 0#5 ++ 0#1 ++ 15#4) = 0#3 ++ 0#4 ++ 0#3 ++ 0#5 ++ 0#1 ++ 0#4 := by
    simp only [w, BitVec.and_append, BitVec.and_zero]; rfl
  rw [e0, e1, e2, e3, e4]
  exact if_pos z

theorem shape56 (F : BitVec 3 → BitVec 4 → BitVec 3 → BitVec 2 → BitVec 5 → BitVec 1 → BitVec 1 → Instr) (x0 : BitVec 3) (x1 : BitVec 4) (x2 : BitVec 3) (x3 : BitVec 2) (x4 : BitVec 5) (x5 : BitVec 1) (x6 : BitVec 1) :
    let w := x0 ++ x1 ++ x2 ++ x3 ++ x4 ++ x5 ++ x6 ++ 0#1
    zeros w 0x1 0x0 (F (w.extractLsb' 17 3) (w.extractLsb' 13 4) (w.extractLsb' 10 3) (w.extractLsb' 8 2) (w.extractLsb' 3 5) (w.extractLsb' 2 1) (w.extractLsb' 1 1)) = .ok (F x0 x1 x2 x3 x4 x5 x6) := by
  intro w
  have e0 : w.extractLsb' 17 3 = x0 := (exT (by decide)).trans <| (exT (by decide)).trans <| (exT (by decide)).trans <| (exT (by decide)).trans <| (exT (by decide)).trans <| (exT (by decide)).trans <| (exT (by decide)).trans <| exS
  have e1 : w.extractLsb' 13 4 = x1 := (exT (by decide)).trans <| (exT (by decide)).trans <| (exT (by decide)).trans <| (exT (by decide)).trans <| (exT (by decide)).trans <| (exT (by decide)).trans <| exB
  have e2 : w.extractLsb' 10 3 = x2 := (exT (by decide)).trans <| (exT (by decide)).trans <| (exT (by decide)).trans <| (exT (by decide)).trans <| (exT (by decide)).trans <| exB
  have e3 : w.extractLsb' 8 2 = x3 := (exT (by decide)).trans <| (exT (by decide)).trans <| (exT (by decide)).trans <| (exT (by decide)).trans <| exB
  have e4 : w.extractLsb' 3 5 = x4 := (exT (by decide)).trans <| (exT (by decide)).trans <| (exT (by decide)).trans <| exB
  have e5 : w.extractLsb' 2 1 = x5 := (exT (by decide)).trans <| (exT (by decide)).trans <| exB
  have e6 : w.extractLsb' 1 1 = x6 := (exT (by decide)).trans <| exB
  have z : w &&& (0#3 ++ 0#4 ++ 0#3 ++ 0#2 ++ 0#5 ++ 0#1 ++ 0#1 ++ 1#1) = 0#3 ++ 0#4 ++ 0#3 ++ 0#2 ++ 0#5 ++ 0#1 ++ 0#1 ++ 0#1 := by
    simp only [w, BitVec.and_append, BitVec.and_zero]; rfl
  rw [e0, e1, e2, e3, e4, e5, e6]
  exact if_pos z

theorem shape57 (F : BitVec 3 → Instr) (x0 : BitVec 3) :
    let w := x0 ++ 0#17
    zeros w 0x1FFFF 0x0 (F (w.extractLsb' 17 3)) = .ok (F x0) := by
  intro w
  have e0 : w.extractLsb' 17 3 = x0 := (exT (by decide)).trans <| exS
  have z : w &&& (0#3 ++ 131071#17) = 0#3 ++ 0#17 := by
    simp only [w, BitVec.and_append, BitVec.and_zero]; rfl
  rw [e0]
  exact if_pos z

theorem shape58 (F : BitVec 3 → BitVec 6 → Instr) (x0 : BitVec 3) (x1 : BitVec 6) :
    let w := x0 ++ x1 ++ 0#11
    zeros w 0x7FF 0x0 (F (w.extractLsb' 17 3) (w.extractLsb' 11 6)) = .ok (F x0 x1) := by
  intro w
  have e0 : w.extractLsb' 17 3 = x0 := (exT (by decide)).trans <| (exT (by decide)).trans <| exS
  have e1 : w.extractLsb' 11 6 = x1 := (exT (by decide)).trans <| exB
  have z : w &&& (0#3 ++ 0#6 ++ 2047#11) = 0#3 ++ 0#6 ++ 0#11 := by
    simp only [w, BitVec.and_append, BitVec.and_zero]; rfl
  rw [e0, e1]
  exact if_pos z

theorem shape59 (F : BitVec 4 → BitVec 6 → Instr) (x0 : BitVec 4) (x1 : BitVec 6) :
    let w := x0 ++ x1 ++ 0#10
    zeros w 0x3FF 0x0 (F (w.extractLsb' 16 4) (w.extractLsb' 10 6)) = .ok (F x0 x1) := by
  intro w
  have e0 : w.extractLsb' 16 4 = x0 := (exT (by decide)).trans <| (exT (by decide)).trans <| exS
  have e1 : w.extractLsb' 10 6 = x1 := (exT (by decide)).trans <| exB
  have z : w &&& (0#4 ++ 0#6 ++ 1023#10) = 0#4 ++ 0#6 ++ 0#10 := by
    simp only [w, BitVec.and_append, BitVec.and_zero]; rfl
  rw [e0, e1]
  exact if_pos z

theorem shape60 (F : BitVec 4 → BitVec 5 → BitVec 6 → Instr) (x0 : BitVec 4) (x1 : BitVec 5) (x2 : BitVec 6) :
    let w := x0 ++ x1 ++ x2 ++ 0#5
    zeros w 0x1F 0x0 (F (w.extractLsb' 16 4) (w.extractLsb' 11 5) (w.extractLsb' 5 6)) = .ok (F x0 x1 x2) := by
  intro w
  have e0 : w.extractLsb' 16 4 = x0 := (exT (by decide)).trans <| (exT (by decide)).trans <| (exT (by decide)).trans <| exS
  have e1 : w.extractLsb' 11 5 = x1 := (exT (by decide)).trans <| (exT (by decide)).trans <| exB
  have e2 : w.extractLsb' 5 6 = x2 := (exT (by decide)).trans <| exB
  have z : w &&& (0#4 ++ 0#5 ++ 0#6 ++ 31#5) = 0#4 ++ 0#5 ++ 0#6 ++ 0#5 := by
    simp only [w, BitVec.and_append, BitVec.and_zero]; rfl
  rw [e0, e1, e2]
  exact if_pos z

theorem shape61 (F : BitVec 4 → BitVec 6 → BitVec 1 → Instr) (x0 : BitVec 4) (x1 : BitVec 6) (x2 : BitVec 1) :
    let w := x0 ++ x1 ++ x2 ++ 0#9
    zeros w 0x1FF 0x0 (F (w.extractLsb' 16 4) (w.extractLsb' 10 6) (w.extractLsb' 9 1)) = .ok (F x0 x1 x2) := by
  intro w
  have e0 : w.extractLsb' 16 4 = x0 := (exT (by decide)).trans <| (exT (by decide)).trans <| (exT (by decide)).trans <| exS
  have e1 : w.extractLsb' 10 6 = x1 := (exT (by decide)).trans <| (exT (by decide)).trans <| exB
  have e2 : w.extractLsb' 9 1 = x2 := (exT (by decide)).trans <| exB
  have z : w &&& (0#4 ++ 0#6 ++ 0#1 ++ 511#9) = 0#4 ++ 0#6 ++ 0#1 ++ 0#9 := by
    simp only [w, BitVec.and_append, BitVec.and_zero]; rfl
  rw [e0, e1, e2]
  exact if_pos z

theorem shape62 (F : BitVec 4 → BitVec 4 → BitVec 1 → Instr) (x0 : BitVec 4) (x1 : BitVec 4) (x2 : BitVec 1) :
    let w := x0 ++ x1 ++ 0#2 ++ x2 ++ 0#9
    zeros w 0xDFF 0x0 (F (w.extractLsb' 16 4) (w.extractLsb' 12 4) (w.extractLsb' 9 1)) = .ok (F x0 x1 x2) := by
  intro w
  have e0 : w.extractLsb' 16 4 = x0 := (exT (by decide)).trans <| (exT (by decide)).trans <| (exT (by decide)).trans <| (exT (by decide)).trans <| exS
  have e1 : w.extractLsb' 12 4 = x1 := (exT (by decide)).trans <| (exT (by decide)).trans <| (exT (by decide)).trans <| exB
  have e2 : w.extractLsb' 9 1 = x2 := (exT (by decide)).trans <| exB
  have z : w &&& (0#4 ++ 0#4 ++ 3#2 ++ 0#1 ++ 511#9) = 0#4 ++ 0#4 ++ 0#2 ++ 0#1 ++ 0#9 := by
    simp only [w, BitVec.and_append, BitVec.and_zero]; rfl
  rw [e0, e1, e2]
  exact if_pos z

theorem shape63 (F : BitVec 4 → BitVec 1 → Instr) (x0 : BitVec 4) (x1 : BitVec 1) :
    let w := x0 ++ 0#6 ++ x1 ++ 0#9
    zeros w 0xFDFF 0x0 (F (w.extractLsb' 16 4) (w.extractLsb' 9 1)) = .ok (F x0 x1) := by
  intro w
  have e0 : w.extractLsb' 16 4 = x0 := (exT (by decide)).trans <| (exT (by decide)).trans <| (exT (by decide)).trans <| exS
  have e1 : w.extractLsb' 9 1 = x1 := (exT (by decide)).trans <| exB
  have z : w &&& (0#4 ++ 63#6 ++ 0#1 ++ 511#9) = 0#4 ++ 0#6 ++ 0#1 ++ 0#9 := by
    simp only [w, BitVec.and_append, BitVec.and_zero]; rfl
  rw [e0, e1]
  exact if_pos z

theorem shape64 (F : BitVec 6 → BitVec 1 → Instr) (x0 : BitVec 6) (x1 : BitVec 1) :
    let w := 0#4 ++ x0 ++ x1 ++ 0#9
    zeros w 0xF01FF 0x0 (F (w.extractLsb' 10 6) (w.extractLsb' 9 1)) = .ok (F x0 x1) := by
  intro w
  have e0 : w.extractLsb' 10 6 = x0 := (exT (by decide)).trans <| (exT (by decide)).trans <| exB
  have e1 : w.extractLsb' 9 1 = x1 := (exT (by decide)).trans <| exB
  have z : w &&& (15#4 ++ 0#6 ++ 0#1 ++ 511#9) = 0#4 ++ 0#6 ++ 0#1 ++ 0#9 := by
    simp only [w, BitVec.and_append, BitVec.and_zero]; rfl
  rw [e0, e1]
  exact if_pos z

end Sys2Proof.Laws
end

