-- ==== Sys2Proof/Laws/Maps.lean ====
section
/-! SUPPORT. Sparse files and memory: what a read after a write gives, and that every write keeps the canonical form. -/

namespace Sys2Proof.Machine

/-! ### Maps by key -/

@[simp] theorem kget_kdel_same {α : Type} (k : Nat) (m : KMap α) : kget k (kdel k m) = none := by
  induction m with
  | nil => rfl
  | cons p r ih =>
    obtain ⟨j, a⟩ := p
    by_cases h : j = k
    · simpa [kdel, h] using ih
    · simp only [kdel, List.filter_cons, bne_iff_ne, ne_eq, h, not_false_eq_true, if_true, kget, if_false]
      exact ih

theorem kget_kdel_other {α : Type} {j k : Nat} (h : j ≠ k) (m : KMap α) : kget j (kdel k m) = kget j m := by
  induction m with
  | nil => rfl
  | cons p r ih =>
    obtain ⟨i, a⟩ := p
    by_cases hi : i = k
    · subst hi
      simp only [kdel, List.filter_cons, bne_self_eq_false, Bool.false_eq_true, if_false, kget, Ne.symm h]
      exact ih
    · simp only [kdel, List.filter_cons, bne_iff_ne, ne_eq, hi, not_false_eq_true, if_true, kget]
      by_cases hj : i = j
      · simp [hj]
      · simp only [hj, if_false]
        exact ih

theorem kget_kins_same {α : Type} (k : Nat) (a : α) (m : KMap α) (h : kget k m = none) : kget k (kins k a m) = some a := by
  induction m with
  | nil => simp [kins, kget]
  | cons p r ih =>
    obtain ⟨j, b⟩ := p
    by_cases hj : j = k
    · simp [kget, hj] at h
    · simp only [kget, hj, if_false] at h
      by_cases hk : k < j
      · simp [kins, hk, kget]
      · simp [kins, hk, kget, hj, ih h]

theorem kget_kins_other {α : Type} {j k : Nat} (h : j ≠ k) (a : α) (m : KMap α) : kget j (kins k a m) = kget j m := by
  induction m with
  | nil => simp [kins, kget, Ne.symm h]
  | cons p r ih =>
    obtain ⟨i, b⟩ := p
    by_cases hk : k < i
    · simp [kins, hk, kget, Ne.symm h]
    · by_cases hi : i = j
      · subst hi; simp [kins, hk, kget]
      · simp [kins, hk, kget, hi, ih]

/-- Reading the key just put. -/
@[simp] theorem kget_kput_same {α : Type} (k : Nat) (a : α) (m : KMap α) : kget k (kput k a m) = some a :=
  kget_kins_same k a _ (kget_kdel_same k m)

/-- Reading another key than the one put. -/
theorem kget_kput_other {α : Type} {j k : Nat} (h : j ≠ k) (a : α) (m : KMap α) : kget j (kput k a m) = kget j m := by
  rw [kput, kget_kins_other h, kget_kdel_other h]

@[simp] theorem kgetD_kput_same {α : Type} (d : α) (k : Nat) (a : α) (m : KMap α) : kgetD d k (kput k a m) = a := by
  simp [kgetD]

theorem kgetD_kput_other {α : Type} (d : α) {j k : Nat} (h : j ≠ k) (a : α) (m : KMap α) :
    kgetD d j (kput k a m) = kgetD d j m := by
  simp [kgetD, kget_kput_other h]

/-- Reading the register just written. -/
@[simp] theorem rget_rput_same {w : Nat} (k : Nat) (v : BitVec w) (m : RMap w) : rget k (rput k v m) = v := by
  unfold rput rget kgetD
  split
  · rename_i h
    simp [h]
  · simp

/-- Reading another register than the one written. -/
theorem rget_rput_other {w : Nat} {j k : Nat} (h : j ≠ k) (v : BitVec w) (m : RMap w) : rget j (rput k v m) = rget j m := by
  unfold rput rget kgetD
  split
  · simp [kget_kdel_other h]
  · simp [kget_kput_other h]

/-! ### The canonical form -/

/-- Keys strictly rising. -/
def Rising {α : Type} (m : KMap α) : Prop := m.Pairwise (fun p q => p.1 < q.1)

theorem rwf_iff {w : Nat} (m : RMap w) : rwf m = true ↔ Rising m ∧ ∀ p ∈ m, p.2 ≠ 0 := by
  simp [rwf, Rising]

theorem rising_filter {α : Type} (f : Nat × α → Bool) {m : KMap α} (h : Rising m) : Rising (m.filter f) :=
  List.Pairwise.filter f h

theorem mem_kins {α : Type} {k : Nat} {a : α} {m : KMap α} {p : Nat × α} : p ∈ kins k a m → p = (k, a) ∨ p ∈ m := by
  induction m with
  | nil => simp [kins]
  | cons q r ih =>
    obtain ⟨j, b⟩ := q
    by_cases hk : k < j
    · simp [kins, hk]
    · simp only [kins, hk, if_false, List.mem_cons]
      rintro (h | h)
      · exact Or.inr (Or.inl h)
      · rcases ih h with h | h
        · exact Or.inl h
        · exact Or.inr (Or.inr h)

theorem rising_kins {α : Type} {k : Nat} {a : α} {m : KMap α} (h : Rising m) (hk : ∀ p ∈ m, p.1 ≠ k) : Rising (kins k a m) := by
  induction m with
  | nil => simp [kins, Rising]
  | cons q r ih =>
    obtain ⟨j, b⟩ := q
    have hr := List.pairwise_cons.mp h
    by_cases hlt : k < j
    · simp only [kins, hlt, if_true]
      refine List.pairwise_cons.mpr ⟨?_, h⟩
      intro p hp
      rcases List.mem_cons.mp hp with rfl | hp
      · exact hlt
      · exact lt_trans hlt (hr.1 p hp)
    · have hne : j ≠ k := hk (j, b) (by simp)
      simp only [kins, hlt, if_false]
      refine List.pairwise_cons.mpr ⟨?_, ih hr.2 (fun p hp => hk p (List.mem_cons_of_mem _ hp))⟩
      intro p hp
      rcases mem_kins hp with rfl | hp
      · simp only; omega
      · exact hr.1 p hp

theorem rising_kput {α : Type} {k : Nat} {a : α} {m : KMap α} (h : Rising m) : Rising (kput k a m) := by
  refine rising_kins (rising_filter _ h) ?_
  intro p hp
  simpa using (List.mem_filter.mp hp).2

/-- A register write keeps the canonical form. -/
theorem rwf_rput {w : Nat} {k : Nat} {v : BitVec w} {m : RMap w} (h : rwf m = true) : rwf (rput k v m) = true := by
  rw [rwf_iff] at h ⊢
  by_cases h0 : v = 0
  · simp only [rput, h0, if_true]
    exact ⟨rising_filter _ h.1, fun p hp => h.2 p (List.mem_filter.mp hp).1⟩
  · simp only [rput, h0, if_false]
    refine ⟨rising_kput h.1, fun p hp => ?_⟩
    rcases mem_kins hp with rfl | hp
    · exact h0
    · exact h.2 p (List.mem_filter.mp hp).1

/-! ### Memory -/

theorem mem_cellsFrom {a : Nat} {bs : List Byte} {c : Host.Cell} (h : c ∈ cellsFrom a bs) :
    a ≤ c.1 ∧ c.1 < a + bs.length ∧ c.2 ≠ 0 := by
  induction bs generalizing a with
  | nil => simp [cellsFrom] at h
  | cons b bs ih =>
    by_cases hb : b = 0
    · simp only [cellsFrom, hb, if_true] at h
      have := ih h
      simp only [List.length_cons]
      exact ⟨by omega, by omega, this.2.2⟩
    · simp only [cellsFrom, hb, if_false, List.mem_cons] at h
      rcases h with rfl | h
      · exact ⟨Nat.le_refl _, by simp, hb⟩
      · have := ih h
        simp only [List.length_cons]
        exact ⟨by omega, by omega, this.2.2⟩

theorem rising_cellsFrom (a : Nat) (bs : List Byte) : Rising (cellsFrom a bs) := by
  induction bs generalizing a with
  | nil => simp [cellsFrom, Rising]
  | cons b bs ih =>
    by_cases hb : b = 0
    · simpa [cellsFrom, hb] using ih (a + 1)
    · simp only [cellsFrom, hb, if_false]
      refine List.pairwise_cons.mpr ⟨?_, ih (a + 1)⟩
      intro c hc
      have := mem_cellsFrom hc
      simp only
      omega

/-- Every write of memory keeps its canonical form. -/
theorem wf_writeBytes {m : Memory} (a : Nat) (bs : List Byte) (h : Memory.wf m = true) : Memory.wf (writeBytes m a bs) = true := by
  rw [Memory.wf, rwf_iff] at h ⊢
  refine ⟨?_, ?_⟩
  · simp only [writeBytes, Rising]
    rw [List.pairwise_append, List.pairwise_append]
    refine ⟨⟨rising_filter _ h.1, rising_cellsFrom a bs, ?_⟩, rising_filter _ h.1, ?_⟩
    · intro p hp q hq
      have h1 := (List.mem_filter.mp hp).2
      have h2 := mem_cellsFrom hq
      simp only [decide_eq_true_eq] at h1
      omega
    · intro p hp q hq
      have h1 := (List.mem_filter.mp hq).2
      simp only [decide_eq_true_eq] at h1
      rcases List.mem_append.mp hp with hp | hp
      · have h2 := (List.mem_filter.mp hp).2
        simp only [decide_eq_true_eq] at h2
        omega
      · have h2 := mem_cellsFrom hp
        omega
  · intro p hp
    simp only [writeBytes, List.mem_append] at hp
    rcases hp with (hp | hp) | hp
    · exact h.2 p (List.mem_filter.mp hp).1
    · exact (mem_cellsFrom hp).2.2
    · exact h.2 p (List.mem_filter.mp hp).1

/-! ### Reading memory -/

theorem readByte_of_not_mem {m : Memory} {a : Nat} (h : ∀ c ∈ m, c.1 ≠ a) : readByte m a = 0 := by
  induction m with
  | nil => rfl
  | cons c r ih =>
    obtain ⟨j, b⟩ := c
    have hj : j ≠ a := h (j, b) (by simp)
    have := ih (fun c hc => h c (List.mem_cons_of_mem _ hc))
    simpa [readByte, rget, kgetD, kget, hj] using this

theorem readByte_append {m n : Memory} {a : Nat} (h : ∀ c ∈ m, c.1 ≠ a) : readByte (m ++ n) a = readByte n a := by
  induction m with
  | nil => rfl
  | cons c r ih =>
    obtain ⟨j, b⟩ := c
    have hj : j ≠ a := h (j, b) (by simp)
    have := ih (fun c hc => h c (List.mem_cons_of_mem _ hc))
    simpa [readByte, rget, kgetD, kget, hj] using this

theorem readByte_append_left {m n : Memory} {a : Nat} (h : ∀ c ∈ n, c.1 ≠ a) : readByte (m ++ n) a = readByte m a := by
  induction m with
  | nil => exact readByte_of_not_mem h
  | cons c r ih =>
    obtain ⟨j, b⟩ := c
    by_cases hj : j = a
    · simp [readByte, rget, kgetD, kget, hj]
    · simpa [readByte, rget, kgetD, kget, hj] using ih

theorem readByte_filter {m : Memory} {a : Nat} (f : Host.Cell → Bool) (h : ∀ b, f (a, b) = true) :
    readByte (m.filter f) a = readByte m a := by
  induction m with
  | nil => rfl
  | cons c r ih =>
    obtain ⟨j, b⟩ := c
    by_cases hj : j = a
    · subst hj
      simp [h, readByte, rget, kgetD, kget]
    · by_cases hf : f (j, b) = true
      · simpa [hf, readByte, rget, kgetD, kget, hj] using ih
      · simpa [hf, readByte, rget, kgetD, kget, hj] using ih

theorem readByte_cellsFrom (a : Nat) (bs : List Byte) (i : Nat) (hi : i < bs.length) : readByte (cellsFrom a bs) (a + i) = bs.getD i 0 := by
  induction bs generalizing a i with
  | nil => simp at hi
  | cons b bs ih =>
    have next : ∀ j, j < bs.length → readByte (cellsFrom (a + 1) bs) (a + (j + 1)) = bs.getD j 0 := by
      intro j hj
      have := ih (a + 1) j hj
      rwa [show a + 1 + j = a + (j + 1) by omega] at this
    have low : readByte (cellsFrom (a + 1) bs) a = 0 :=
      readByte_of_not_mem (fun c hc => by have := mem_cellsFrom hc; omega)
    cases i with
    | zero =>
      by_cases hb : b = 0
      · simpa [cellsFrom, hb] using low
      · rw [cellsFrom, if_neg hb]
        simp [readByte, rget, kgetD, kget]
    | succ j =>
      have hj : j < bs.length := by simpa using hi
      by_cases hb : b = 0
      · simpa [cellsFrom, hb] using next j hj
      · have := next j hj
        rw [cellsFrom, if_neg hb]
        simpa [readByte, rget, kgetD, kget] using this

/-- A byte read where bytes have just been written. -/
theorem readByte_writeBytes_same (m : Memory) (a : Nat) (bs : List Byte) (i : Nat) (hi : i < bs.length) :
    readByte (writeBytes m a bs) (a + i) = bs.getD i 0 := by
  rw [writeBytes, readByte_append_left, readByte_append, readByte_cellsFrom a bs i hi]
  · intro c hc
    have := (List.mem_filter.mp hc).2
    simp only [decide_eq_true_eq] at this
    omega
  · intro c hc
    have := (List.mem_filter.mp hc).2
    simp only [decide_eq_true_eq] at this
    omega

/-- A byte read outside the bytes just written. -/
theorem readByte_writeBytes_other (m : Memory) (a : Nat) (bs : List Byte) (b : Nat) (hb : b < a ∨ a + bs.length ≤ b) :
    readByte (writeBytes m a bs) b = readByte m b := by
  rcases hb with hb | hb
  · rw [writeBytes, readByte_append_left, readByte_append_left]
    · exact readByte_filter _ (fun _ => by simpa using hb)
    · intro c hc
      have := mem_cellsFrom hc
      omega
    · intro c hc
      have := (List.mem_filter.mp hc).2
      simp only [decide_eq_true_eq] at this
      omega
  · rw [writeBytes, readByte_append]
    · exact readByte_filter _ (fun _ => by simpa using hb)
    · intro c hc
      rcases List.mem_append.mp hc with hc | hc
      · have := (List.mem_filter.mp hc).2
        simp only [decide_eq_true_eq] at this
        omega
      · have := mem_cellsFrom hc
        omega

end Sys2Proof.Machine
end

