-- ==== Sys2Proof/Laws/State.lean ====
section
/-! SUPPORT. What each update of the machine and of the state leaves in each field: one lemma for a field and an update, true by
unfolding, so that later proofs rewrite and never open a record update. -/

namespace Sys2Proof.Machine

/-! ### Updates of the machine -/

@[simp] theorem Mach.setCtx_ctxs (m : Mach) (x : Nat) (c : Ctx) : (m.setCtx x c).ctxs = kput x c m.ctxs := rfl
@[simp] theorem Mach.setCtx_cores (m : Mach) (x : Nat) (c : Ctx) : (m.setCtx x c).cores = m.cores := rfl
@[simp] theorem Mach.setCtx_tails (m : Mach) (x : Nat) (c : Ctx) : (m.setCtx x c).tails = m.tails := rfl
@[simp] theorem Mach.setCtx_mem (m : Mach) (x : Nat) (c : Ctx) : (m.setCtx x c).mem = m.mem := rfl
@[simp] theorem Mach.setCtx_streams (m : Mach) (x : Nat) (c : Ctx) : (m.setCtx x c).streams = m.streams := rfl
@[simp] theorem Mach.setCtx_runs (m : Mach) (x : Nat) (c : Ctx) : (m.setCtx x c).runs = m.runs := rfl
@[simp] theorem Mach.setCtx_teams (m : Mach) (x : Nat) (c : Ctx) : (m.setCtx x c).teams = m.teams := rfl
@[simp] theorem Mach.setCtx_pkg (m : Mach) (x : Nat) (c : Ctx) : (m.setCtx x c).pkg = m.pkg := rfl
@[simp] theorem Mach.setCtx_locq (m : Mach) (x : Nat) (c : Ctx) : (m.setCtx x c).locq = m.locq := rfl
@[simp] theorem Mach.setCtx_rets (m : Mach) (x : Nat) (c : Ctx) : (m.setCtx x c).rets = m.rets := rfl
@[simp] theorem Mach.setCtx_gops (m : Mach) (x : Nat) (c : Ctx) : (m.setCtx x c).gops = m.gops := rfl
@[simp] theorem Mach.setCtx_ops (m : Mach) (x : Nat) (c : Ctx) : (m.setCtx x c).ops = m.ops := rfl
@[simp] theorem Mach.setCtx_net (m : Mach) (x : Nat) (c : Ctx) : (m.setCtx x c).net = m.net := rfl
@[simp] theorem Mach.setCtx_out (m : Mach) (x : Nat) (c : Ctx) : (m.setCtx x c).out = m.out := rfl
@[simp] theorem Mach.setCtx_wire (m : Mach) (x : Nat) (c : Ctx) : (m.setCtx x c).wire = m.wire := rfl
@[simp] theorem Mach.setCtx_irqs (m : Mach) (x : Nat) (c : Ctx) : (m.setCtx x c).irqs = m.irqs := rfl
@[simp] theorem Mach.setCtx_comps (m : Mach) (x : Nat) (c : Ctx) : (m.setCtx x c).comps = m.comps := rfl
@[simp] theorem Mach.setCtx_cyc (m : Mach) (x : Nat) (c : Ctx) : (m.setCtx x c).cyc = m.cyc := rfl
@[simp] theorem Mach.setCtx_turn (m : Mach) (x : Nat) (c : Ctx) : (m.setCtx x c).turn = m.turn := rfl
@[simp] theorem Mach.setCtx_first (m : Mach) (x : Nat) (c : Ctx) : (m.setCtx x c).first = m.first := rfl
@[simp] theorem Mach.setCtx_nextId (m : Mach) (x : Nat) (c : Ctx) : (m.setCtx x c).nextId = m.nextId := rfl
@[simp] theorem Mach.setCtx_tick (m : Mach) (x : Nat) (c : Ctx) : (m.setCtx x c).tick = m.tick := rfl

@[simp] theorem Mach.modCtx_ctxs (m : Mach) (x : Nat) (f : Ctx → Ctx) : (m.modCtx x f).ctxs = kput x (f (m.ctx x)) m.ctxs := rfl
@[simp] theorem Mach.modCtx_cores (m : Mach) (x : Nat) (f : Ctx → Ctx) : (m.modCtx x f).cores = m.cores := rfl
@[simp] theorem Mach.modCtx_tails (m : Mach) (x : Nat) (f : Ctx → Ctx) : (m.modCtx x f).tails = m.tails := rfl
@[simp] theorem Mach.modCtx_mem (m : Mach) (x : Nat) (f : Ctx → Ctx) : (m.modCtx x f).mem = m.mem := rfl
@[simp] theorem Mach.modCtx_streams (m : Mach) (x : Nat) (f : Ctx → Ctx) : (m.modCtx x f).streams = m.streams := rfl
@[simp] theorem Mach.modCtx_runs (m : Mach) (x : Nat) (f : Ctx → Ctx) : (m.modCtx x f).runs = m.runs := rfl
@[simp] theorem Mach.modCtx_teams (m : Mach) (x : Nat) (f : Ctx → Ctx) : (m.modCtx x f).teams = m.teams := rfl
@[simp] theorem Mach.modCtx_pkg (m : Mach) (x : Nat) (f : Ctx → Ctx) : (m.modCtx x f).pkg = m.pkg := rfl
@[simp] theorem Mach.modCtx_locq (m : Mach) (x : Nat) (f : Ctx → Ctx) : (m.modCtx x f).locq = m.locq := rfl
@[simp] theorem Mach.modCtx_rets (m : Mach) (x : Nat) (f : Ctx → Ctx) : (m.modCtx x f).rets = m.rets := rfl
@[simp] theorem Mach.modCtx_gops (m : Mach) (x : Nat) (f : Ctx → Ctx) : (m.modCtx x f).gops = m.gops := rfl
@[simp] theorem Mach.modCtx_ops (m : Mach) (x : Nat) (f : Ctx → Ctx) : (m.modCtx x f).ops = m.ops := rfl
@[simp] theorem Mach.modCtx_net (m : Mach) (x : Nat) (f : Ctx → Ctx) : (m.modCtx x f).net = m.net := rfl
@[simp] theorem Mach.modCtx_out (m : Mach) (x : Nat) (f : Ctx → Ctx) : (m.modCtx x f).out = m.out := rfl
@[simp] theorem Mach.modCtx_wire (m : Mach) (x : Nat) (f : Ctx → Ctx) : (m.modCtx x f).wire = m.wire := rfl
@[simp] theorem Mach.modCtx_irqs (m : Mach) (x : Nat) (f : Ctx → Ctx) : (m.modCtx x f).irqs = m.irqs := rfl
@[simp] theorem Mach.modCtx_comps (m : Mach) (x : Nat) (f : Ctx → Ctx) : (m.modCtx x f).comps = m.comps := rfl
@[simp] theorem Mach.modCtx_cyc (m : Mach) (x : Nat) (f : Ctx → Ctx) : (m.modCtx x f).cyc = m.cyc := rfl
@[simp] theorem Mach.modCtx_turn (m : Mach) (x : Nat) (f : Ctx → Ctx) : (m.modCtx x f).turn = m.turn := rfl
@[simp] theorem Mach.modCtx_first (m : Mach) (x : Nat) (f : Ctx → Ctx) : (m.modCtx x f).first = m.first := rfl
@[simp] theorem Mach.modCtx_nextId (m : Mach) (x : Nat) (f : Ctx → Ctx) : (m.modCtx x f).nextId = m.nextId := rfl
@[simp] theorem Mach.modCtx_tick (m : Mach) (x : Nat) (f : Ctx → Ctx) : (m.modCtx x f).tick = m.tick := rfl

@[simp] theorem Mach.modCore_ctxs (m : Mach) (k : Nat) (f : Core → Core) : (m.modCore k f).ctxs = m.ctxs := rfl
@[simp] theorem Mach.modCore_cores (m : Mach) (k : Nat) (f : Core → Core) : (m.modCore k f).cores = kput k (f (m.core k)) m.cores := rfl
@[simp] theorem Mach.modCore_tails (m : Mach) (k : Nat) (f : Core → Core) : (m.modCore k f).tails = m.tails := rfl
@[simp] theorem Mach.modCore_mem (m : Mach) (k : Nat) (f : Core → Core) : (m.modCore k f).mem = m.mem := rfl
@[simp] theorem Mach.modCore_streams (m : Mach) (k : Nat) (f : Core → Core) : (m.modCore k f).streams = m.streams := rfl
@[simp] theorem Mach.modCore_runs (m : Mach) (k : Nat) (f : Core → Core) : (m.modCore k f).runs = m.runs := rfl
@[simp] theorem Mach.modCore_teams (m : Mach) (k : Nat) (f : Core → Core) : (m.modCore k f).teams = m.teams := rfl
@[simp] theorem Mach.modCore_pkg (m : Mach) (k : Nat) (f : Core → Core) : (m.modCore k f).pkg = m.pkg := rfl
@[simp] theorem Mach.modCore_locq (m : Mach) (k : Nat) (f : Core → Core) : (m.modCore k f).locq = m.locq := rfl
@[simp] theorem Mach.modCore_rets (m : Mach) (k : Nat) (f : Core → Core) : (m.modCore k f).rets = m.rets := rfl
@[simp] theorem Mach.modCore_gops (m : Mach) (k : Nat) (f : Core → Core) : (m.modCore k f).gops = m.gops := rfl
@[simp] theorem Mach.modCore_ops (m : Mach) (k : Nat) (f : Core → Core) : (m.modCore k f).ops = m.ops := rfl
@[simp] theorem Mach.modCore_net (m : Mach) (k : Nat) (f : Core → Core) : (m.modCore k f).net = m.net := rfl
@[simp] theorem Mach.modCore_out (m : Mach) (k : Nat) (f : Core → Core) : (m.modCore k f).out = m.out := rfl
@[simp] theorem Mach.modCore_wire (m : Mach) (k : Nat) (f : Core → Core) : (m.modCore k f).wire = m.wire := rfl
@[simp] theorem Mach.modCore_irqs (m : Mach) (k : Nat) (f : Core → Core) : (m.modCore k f).irqs = m.irqs := rfl
@[simp] theorem Mach.modCore_comps (m : Mach) (k : Nat) (f : Core → Core) : (m.modCore k f).comps = m.comps := rfl
@[simp] theorem Mach.modCore_cyc (m : Mach) (k : Nat) (f : Core → Core) : (m.modCore k f).cyc = m.cyc := rfl
@[simp] theorem Mach.modCore_turn (m : Mach) (k : Nat) (f : Core → Core) : (m.modCore k f).turn = m.turn := rfl
@[simp] theorem Mach.modCore_first (m : Mach) (k : Nat) (f : Core → Core) : (m.modCore k f).first = m.first := rfl
@[simp] theorem Mach.modCore_nextId (m : Mach) (k : Nat) (f : Core → Core) : (m.modCore k f).nextId = m.nextId := rfl
@[simp] theorem Mach.modCore_tick (m : Mach) (k : Nat) (f : Core → Core) : (m.modCore k f).tick = m.tick := rfl

@[simp] theorem Mach.modTail_ctxs (m : Mach) (t : Nat) (f : Tail → Tail) : (m.modTail t f).ctxs = m.ctxs := rfl
@[simp] theorem Mach.modTail_cores (m : Mach) (t : Nat) (f : Tail → Tail) : (m.modTail t f).cores = m.cores := rfl
@[simp] theorem Mach.modTail_tails (m : Mach) (t : Nat) (f : Tail → Tail) : (m.modTail t f).tails = kput t (f (m.tail t)) m.tails := rfl
@[simp] theorem Mach.modTail_mem (m : Mach) (t : Nat) (f : Tail → Tail) : (m.modTail t f).mem = m.mem := rfl
@[simp] theorem Mach.modTail_streams (m : Mach) (t : Nat) (f : Tail → Tail) : (m.modTail t f).streams = m.streams := rfl
@[simp] theorem Mach.modTail_runs (m : Mach) (t : Nat) (f : Tail → Tail) : (m.modTail t f).runs = m.runs := rfl
@[simp] theorem Mach.modTail_teams (m : Mach) (t : Nat) (f : Tail → Tail) : (m.modTail t f).teams = m.teams := rfl
@[simp] theorem Mach.modTail_pkg (m : Mach) (t : Nat) (f : Tail → Tail) : (m.modTail t f).pkg = m.pkg := rfl
@[simp] theorem Mach.modTail_locq (m : Mach) (t : Nat) (f : Tail → Tail) : (m.modTail t f).locq = m.locq := rfl
@[simp] theorem Mach.modTail_rets (m : Mach) (t : Nat) (f : Tail → Tail) : (m.modTail t f).rets = m.rets := rfl
@[simp] theorem Mach.modTail_gops (m : Mach) (t : Nat) (f : Tail → Tail) : (m.modTail t f).gops = m.gops := rfl
@[simp] theorem Mach.modTail_ops (m : Mach) (t : Nat) (f : Tail → Tail) : (m.modTail t f).ops = m.ops := rfl
@[simp] theorem Mach.modTail_net (m : Mach) (t : Nat) (f : Tail → Tail) : (m.modTail t f).net = m.net := rfl
@[simp] theorem Mach.modTail_out (m : Mach) (t : Nat) (f : Tail → Tail) : (m.modTail t f).out = m.out := rfl
@[simp] theorem Mach.modTail_wire (m : Mach) (t : Nat) (f : Tail → Tail) : (m.modTail t f).wire = m.wire := rfl
@[simp] theorem Mach.modTail_irqs (m : Mach) (t : Nat) (f : Tail → Tail) : (m.modTail t f).irqs = m.irqs := rfl
@[simp] theorem Mach.modTail_comps (m : Mach) (t : Nat) (f : Tail → Tail) : (m.modTail t f).comps = m.comps := rfl
@[simp] theorem Mach.modTail_cyc (m : Mach) (t : Nat) (f : Tail → Tail) : (m.modTail t f).cyc = m.cyc := rfl
@[simp] theorem Mach.modTail_turn (m : Mach) (t : Nat) (f : Tail → Tail) : (m.modTail t f).turn = m.turn := rfl
@[simp] theorem Mach.modTail_first (m : Mach) (t : Nat) (f : Tail → Tail) : (m.modTail t f).first = m.first := rfl
@[simp] theorem Mach.modTail_nextId (m : Mach) (t : Nat) (f : Tail → Tail) : (m.modTail t f).nextId = m.nextId := rfl
@[simp] theorem Mach.modTail_tick (m : Mach) (t : Nat) (f : Tail → Tail) : (m.modTail t f).tick = m.tick := rfl

@[simp] theorem Mach.modStream_ctxs (m : Mach) (k : Nat) (f : Stream → Stream) : (m.modStream k f).ctxs = m.ctxs := rfl
@[simp] theorem Mach.modStream_cores (m : Mach) (k : Nat) (f : Stream → Stream) : (m.modStream k f).cores = m.cores := rfl
@[simp] theorem Mach.modStream_tails (m : Mach) (k : Nat) (f : Stream → Stream) : (m.modStream k f).tails = m.tails := rfl
@[simp] theorem Mach.modStream_mem (m : Mach) (k : Nat) (f : Stream → Stream) : (m.modStream k f).mem = m.mem := rfl
@[simp] theorem Mach.modStream_streams (m : Mach) (k : Nat) (f : Stream → Stream) : (m.modStream k f).streams = kput k (f (m.stream k)) m.streams := rfl
@[simp] theorem Mach.modStream_runs (m : Mach) (k : Nat) (f : Stream → Stream) : (m.modStream k f).runs = m.runs := rfl
@[simp] theorem Mach.modStream_teams (m : Mach) (k : Nat) (f : Stream → Stream) : (m.modStream k f).teams = m.teams := rfl
@[simp] theorem Mach.modStream_pkg (m : Mach) (k : Nat) (f : Stream → Stream) : (m.modStream k f).pkg = m.pkg := rfl
@[simp] theorem Mach.modStream_locq (m : Mach) (k : Nat) (f : Stream → Stream) : (m.modStream k f).locq = m.locq := rfl
@[simp] theorem Mach.modStream_rets (m : Mach) (k : Nat) (f : Stream → Stream) : (m.modStream k f).rets = m.rets := rfl
@[simp] theorem Mach.modStream_gops (m : Mach) (k : Nat) (f : Stream → Stream) : (m.modStream k f).gops = m.gops := rfl
@[simp] theorem Mach.modStream_ops (m : Mach) (k : Nat) (f : Stream → Stream) : (m.modStream k f).ops = m.ops := rfl
@[simp] theorem Mach.modStream_net (m : Mach) (k : Nat) (f : Stream → Stream) : (m.modStream k f).net = m.net := rfl
@[simp] theorem Mach.modStream_out (m : Mach) (k : Nat) (f : Stream → Stream) : (m.modStream k f).out = m.out := rfl
@[simp] theorem Mach.modStream_wire (m : Mach) (k : Nat) (f : Stream → Stream) : (m.modStream k f).wire = m.wire := rfl
@[simp] theorem Mach.modStream_irqs (m : Mach) (k : Nat) (f : Stream → Stream) : (m.modStream k f).irqs = m.irqs := rfl
@[simp] theorem Mach.modStream_comps (m : Mach) (k : Nat) (f : Stream → Stream) : (m.modStream k f).comps = m.comps := rfl
@[simp] theorem Mach.modStream_cyc (m : Mach) (k : Nat) (f : Stream → Stream) : (m.modStream k f).cyc = m.cyc := rfl
@[simp] theorem Mach.modStream_turn (m : Mach) (k : Nat) (f : Stream → Stream) : (m.modStream k f).turn = m.turn := rfl
@[simp] theorem Mach.modStream_first (m : Mach) (k : Nat) (f : Stream → Stream) : (m.modStream k f).first = m.first := rfl
@[simp] theorem Mach.modStream_nextId (m : Mach) (k : Nat) (f : Stream → Stream) : (m.modStream k f).nextId = m.nextId := rfl
@[simp] theorem Mach.modStream_tick (m : Mach) (k : Nat) (f : Stream → Stream) : (m.modStream k f).tick = m.tick := rfl

@[simp] theorem Mach.modRun_ctxs (m : Mach) (r : Nat) (f : Run → Run) : (m.modRun r f).ctxs = m.ctxs := rfl
@[simp] theorem Mach.modRun_cores (m : Mach) (r : Nat) (f : Run → Run) : (m.modRun r f).cores = m.cores := rfl
@[simp] theorem Mach.modRun_tails (m : Mach) (r : Nat) (f : Run → Run) : (m.modRun r f).tails = m.tails := rfl
@[simp] theorem Mach.modRun_mem (m : Mach) (r : Nat) (f : Run → Run) : (m.modRun r f).mem = m.mem := rfl
@[simp] theorem Mach.modRun_streams (m : Mach) (r : Nat) (f : Run → Run) : (m.modRun r f).streams = m.streams := rfl
@[simp] theorem Mach.modRun_runs (m : Mach) (r : Nat) (f : Run → Run) : (m.modRun r f).runs = modWhere (fun q => q.id == r) f m.runs := rfl
@[simp] theorem Mach.modRun_teams (m : Mach) (r : Nat) (f : Run → Run) : (m.modRun r f).teams = m.teams := rfl
@[simp] theorem Mach.modRun_pkg (m : Mach) (r : Nat) (f : Run → Run) : (m.modRun r f).pkg = m.pkg := rfl
@[simp] theorem Mach.modRun_locq (m : Mach) (r : Nat) (f : Run → Run) : (m.modRun r f).locq = m.locq := rfl
@[simp] theorem Mach.modRun_rets (m : Mach) (r : Nat) (f : Run → Run) : (m.modRun r f).rets = m.rets := rfl
@[simp] theorem Mach.modRun_gops (m : Mach) (r : Nat) (f : Run → Run) : (m.modRun r f).gops = m.gops := rfl
@[simp] theorem Mach.modRun_ops (m : Mach) (r : Nat) (f : Run → Run) : (m.modRun r f).ops = m.ops := rfl
@[simp] theorem Mach.modRun_net (m : Mach) (r : Nat) (f : Run → Run) : (m.modRun r f).net = m.net := rfl
@[simp] theorem Mach.modRun_out (m : Mach) (r : Nat) (f : Run → Run) : (m.modRun r f).out = m.out := rfl
@[simp] theorem Mach.modRun_wire (m : Mach) (r : Nat) (f : Run → Run) : (m.modRun r f).wire = m.wire := rfl
@[simp] theorem Mach.modRun_irqs (m : Mach) (r : Nat) (f : Run → Run) : (m.modRun r f).irqs = m.irqs := rfl
@[simp] theorem Mach.modRun_comps (m : Mach) (r : Nat) (f : Run → Run) : (m.modRun r f).comps = m.comps := rfl
@[simp] theorem Mach.modRun_cyc (m : Mach) (r : Nat) (f : Run → Run) : (m.modRun r f).cyc = m.cyc := rfl
@[simp] theorem Mach.modRun_turn (m : Mach) (r : Nat) (f : Run → Run) : (m.modRun r f).turn = m.turn := rfl
@[simp] theorem Mach.modRun_first (m : Mach) (r : Nat) (f : Run → Run) : (m.modRun r f).first = m.first := rfl
@[simp] theorem Mach.modRun_nextId (m : Mach) (r : Nat) (f : Run → Run) : (m.modRun r f).nextId = m.nextId := rfl
@[simp] theorem Mach.modRun_tick (m : Mach) (r : Nat) (f : Run → Run) : (m.modRun r f).tick = m.tick := rfl

@[simp] theorem Mach.modTeam_ctxs (m : Mach) (r cl : Nat) (f : Team → Team) : (m.modTeam r cl f).ctxs = m.ctxs := rfl
@[simp] theorem Mach.modTeam_cores (m : Mach) (r cl : Nat) (f : Team → Team) : (m.modTeam r cl f).cores = m.cores := rfl
@[simp] theorem Mach.modTeam_tails (m : Mach) (r cl : Nat) (f : Team → Team) : (m.modTeam r cl f).tails = m.tails := rfl
@[simp] theorem Mach.modTeam_mem (m : Mach) (r cl : Nat) (f : Team → Team) : (m.modTeam r cl f).mem = m.mem := rfl
@[simp] theorem Mach.modTeam_streams (m : Mach) (r cl : Nat) (f : Team → Team) : (m.modTeam r cl f).streams = m.streams := rfl
@[simp] theorem Mach.modTeam_runs (m : Mach) (r cl : Nat) (f : Team → Team) : (m.modTeam r cl f).runs = m.runs := rfl
@[simp] theorem Mach.modTeam_teams (m : Mach) (r cl : Nat) (f : Team → Team) : (m.modTeam r cl f).teams = modWhere (fun t => t.rid == r && t.cluster == cl) f m.teams := rfl
@[simp] theorem Mach.modTeam_pkg (m : Mach) (r cl : Nat) (f : Team → Team) : (m.modTeam r cl f).pkg = m.pkg := rfl
@[simp] theorem Mach.modTeam_locq (m : Mach) (r cl : Nat) (f : Team → Team) : (m.modTeam r cl f).locq = m.locq := rfl
@[simp] theorem Mach.modTeam_rets (m : Mach) (r cl : Nat) (f : Team → Team) : (m.modTeam r cl f).rets = m.rets := rfl
@[simp] theorem Mach.modTeam_gops (m : Mach) (r cl : Nat) (f : Team → Team) : (m.modTeam r cl f).gops = m.gops := rfl
@[simp] theorem Mach.modTeam_ops (m : Mach) (r cl : Nat) (f : Team → Team) : (m.modTeam r cl f).ops = m.ops := rfl
@[simp] theorem Mach.modTeam_net (m : Mach) (r cl : Nat) (f : Team → Team) : (m.modTeam r cl f).net = m.net := rfl
@[simp] theorem Mach.modTeam_out (m : Mach) (r cl : Nat) (f : Team → Team) : (m.modTeam r cl f).out = m.out := rfl
@[simp] theorem Mach.modTeam_wire (m : Mach) (r cl : Nat) (f : Team → Team) : (m.modTeam r cl f).wire = m.wire := rfl
@[simp] theorem Mach.modTeam_irqs (m : Mach) (r cl : Nat) (f : Team → Team) : (m.modTeam r cl f).irqs = m.irqs := rfl
@[simp] theorem Mach.modTeam_comps (m : Mach) (r cl : Nat) (f : Team → Team) : (m.modTeam r cl f).comps = m.comps := rfl
@[simp] theorem Mach.modTeam_cyc (m : Mach) (r cl : Nat) (f : Team → Team) : (m.modTeam r cl f).cyc = m.cyc := rfl
@[simp] theorem Mach.modTeam_turn (m : Mach) (r cl : Nat) (f : Team → Team) : (m.modTeam r cl f).turn = m.turn := rfl
@[simp] theorem Mach.modTeam_first (m : Mach) (r cl : Nat) (f : Team → Team) : (m.modTeam r cl f).first = m.first := rfl
@[simp] theorem Mach.modTeam_nextId (m : Mach) (r cl : Nat) (f : Team → Team) : (m.modTeam r cl f).nextId = m.nextId := rfl
@[simp] theorem Mach.modTeam_tick (m : Mach) (r cl : Nat) (f : Team → Team) : (m.modTeam r cl f).tick = m.tick := rfl

@[simp] theorem Mach.modPkg_ctxs (m : Mach) (f : Pkg → Pkg) : (m.modPkg f).ctxs = m.ctxs := rfl
@[simp] theorem Mach.modPkg_cores (m : Mach) (f : Pkg → Pkg) : (m.modPkg f).cores = m.cores := rfl
@[simp] theorem Mach.modPkg_tails (m : Mach) (f : Pkg → Pkg) : (m.modPkg f).tails = m.tails := rfl
@[simp] theorem Mach.modPkg_mem (m : Mach) (f : Pkg → Pkg) : (m.modPkg f).mem = m.mem := rfl
@[simp] theorem Mach.modPkg_streams (m : Mach) (f : Pkg → Pkg) : (m.modPkg f).streams = m.streams := rfl
@[simp] theorem Mach.modPkg_runs (m : Mach) (f : Pkg → Pkg) : (m.modPkg f).runs = m.runs := rfl
@[simp] theorem Mach.modPkg_teams (m : Mach) (f : Pkg → Pkg) : (m.modPkg f).teams = m.teams := rfl
@[simp] theorem Mach.modPkg_pkg (m : Mach) (f : Pkg → Pkg) : (m.modPkg f).pkg = f m.pkg := rfl
@[simp] theorem Mach.modPkg_locq (m : Mach) (f : Pkg → Pkg) : (m.modPkg f).locq = m.locq := rfl
@[simp] theorem Mach.modPkg_rets (m : Mach) (f : Pkg → Pkg) : (m.modPkg f).rets = m.rets := rfl
@[simp] theorem Mach.modPkg_gops (m : Mach) (f : Pkg → Pkg) : (m.modPkg f).gops = m.gops := rfl
@[simp] theorem Mach.modPkg_ops (m : Mach) (f : Pkg → Pkg) : (m.modPkg f).ops = m.ops := rfl
@[simp] theorem Mach.modPkg_net (m : Mach) (f : Pkg → Pkg) : (m.modPkg f).net = m.net := rfl
@[simp] theorem Mach.modPkg_out (m : Mach) (f : Pkg → Pkg) : (m.modPkg f).out = m.out := rfl
@[simp] theorem Mach.modPkg_wire (m : Mach) (f : Pkg → Pkg) : (m.modPkg f).wire = m.wire := rfl
@[simp] theorem Mach.modPkg_irqs (m : Mach) (f : Pkg → Pkg) : (m.modPkg f).irqs = m.irqs := rfl
@[simp] theorem Mach.modPkg_comps (m : Mach) (f : Pkg → Pkg) : (m.modPkg f).comps = m.comps := rfl
@[simp] theorem Mach.modPkg_cyc (m : Mach) (f : Pkg → Pkg) : (m.modPkg f).cyc = m.cyc := rfl
@[simp] theorem Mach.modPkg_turn (m : Mach) (f : Pkg → Pkg) : (m.modPkg f).turn = m.turn := rfl
@[simp] theorem Mach.modPkg_first (m : Mach) (f : Pkg → Pkg) : (m.modPkg f).first = m.first := rfl
@[simp] theorem Mach.modPkg_nextId (m : Mach) (f : Pkg → Pkg) : (m.modPkg f).nextId = m.nextId := rfl
@[simp] theorem Mach.modPkg_tick (m : Mach) (f : Pkg → Pkg) : (m.modPkg f).tick = m.tick := rfl

@[simp] theorem Mach.count_ctxs (m : Mach) (r k n : Nat) : (m.count r k n).ctxs = m.ctxs := rfl
@[simp] theorem Mach.count_cores (m : Mach) (r k n : Nat) : (m.count r k n).cores = m.cores := rfl
@[simp] theorem Mach.count_tails (m : Mach) (r k n : Nat) : (m.count r k n).tails = m.tails := rfl
@[simp] theorem Mach.count_mem (m : Mach) (r k n : Nat) : (m.count r k n).mem = m.mem := rfl
@[simp] theorem Mach.count_streams (m : Mach) (r k n : Nat) : (m.count r k n).streams = m.streams := rfl
@[simp] theorem Mach.count_teams (m : Mach) (r k n : Nat) : (m.count r k n).teams = m.teams := rfl
@[simp] theorem Mach.count_pkg (m : Mach) (r k n : Nat) : (m.count r k n).pkg = m.pkg := rfl
@[simp] theorem Mach.count_locq (m : Mach) (r k n : Nat) : (m.count r k n).locq = m.locq := rfl
@[simp] theorem Mach.count_rets (m : Mach) (r k n : Nat) : (m.count r k n).rets = m.rets := rfl
@[simp] theorem Mach.count_gops (m : Mach) (r k n : Nat) : (m.count r k n).gops = m.gops := rfl
@[simp] theorem Mach.count_ops (m : Mach) (r k n : Nat) : (m.count r k n).ops = m.ops := rfl
@[simp] theorem Mach.count_net (m : Mach) (r k n : Nat) : (m.count r k n).net = m.net := rfl
@[simp] theorem Mach.count_out (m : Mach) (r k n : Nat) : (m.count r k n).out = m.out := rfl
@[simp] theorem Mach.count_wire (m : Mach) (r k n : Nat) : (m.count r k n).wire = m.wire := rfl
@[simp] theorem Mach.count_irqs (m : Mach) (r k n : Nat) : (m.count r k n).irqs = m.irqs := rfl
@[simp] theorem Mach.count_comps (m : Mach) (r k n : Nat) : (m.count r k n).comps = m.comps := rfl
@[simp] theorem Mach.count_cyc (m : Mach) (r k n : Nat) : (m.count r k n).cyc = m.cyc := rfl
@[simp] theorem Mach.count_turn (m : Mach) (r k n : Nat) : (m.count r k n).turn = m.turn := rfl
@[simp] theorem Mach.count_first (m : Mach) (r k n : Nat) : (m.count r k n).first = m.first := rfl
@[simp] theorem Mach.count_nextId (m : Mach) (r k n : Nat) : (m.count r k n).nextId = m.nextId := rfl
@[simp] theorem Mach.count_tick (m : Mach) (r k n : Nat) : (m.count r k n).tick = m.tick := rfl

@[simp] theorem Mach.raiseIrq_ctxs (m : Mach) (v : BitVec 8) : (m.raiseIrq v).ctxs = m.ctxs := rfl
@[simp] theorem Mach.raiseIrq_cores (m : Mach) (v : BitVec 8) : (m.raiseIrq v).cores = m.cores := rfl
@[simp] theorem Mach.raiseIrq_tails (m : Mach) (v : BitVec 8) : (m.raiseIrq v).tails = m.tails := rfl
@[simp] theorem Mach.raiseIrq_mem (m : Mach) (v : BitVec 8) : (m.raiseIrq v).mem = m.mem := rfl
@[simp] theorem Mach.raiseIrq_streams (m : Mach) (v : BitVec 8) : (m.raiseIrq v).streams = m.streams := rfl
@[simp] theorem Mach.raiseIrq_runs (m : Mach) (v : BitVec 8) : (m.raiseIrq v).runs = m.runs := rfl
@[simp] theorem Mach.raiseIrq_teams (m : Mach) (v : BitVec 8) : (m.raiseIrq v).teams = m.teams := rfl
@[simp] theorem Mach.raiseIrq_pkg (m : Mach) (v : BitVec 8) : (m.raiseIrq v).pkg = m.pkg := rfl
@[simp] theorem Mach.raiseIrq_locq (m : Mach) (v : BitVec 8) : (m.raiseIrq v).locq = m.locq := rfl
@[simp] theorem Mach.raiseIrq_rets (m : Mach) (v : BitVec 8) : (m.raiseIrq v).rets = m.rets := rfl
@[simp] theorem Mach.raiseIrq_gops (m : Mach) (v : BitVec 8) : (m.raiseIrq v).gops = m.gops := rfl
@[simp] theorem Mach.raiseIrq_ops (m : Mach) (v : BitVec 8) : (m.raiseIrq v).ops = m.ops := rfl
@[simp] theorem Mach.raiseIrq_net (m : Mach) (v : BitVec 8) : (m.raiseIrq v).net = m.net := rfl
@[simp] theorem Mach.raiseIrq_out (m : Mach) (v : BitVec 8) : (m.raiseIrq v).out = m.out := rfl
@[simp] theorem Mach.raiseIrq_wire (m : Mach) (v : BitVec 8) : (m.raiseIrq v).wire = m.wire := rfl
@[simp] theorem Mach.raiseIrq_irqs (m : Mach) (v : BitVec 8) : (m.raiseIrq v).irqs = m.irqs ++ [v] := rfl
@[simp] theorem Mach.raiseIrq_comps (m : Mach) (v : BitVec 8) : (m.raiseIrq v).comps = m.comps := rfl
@[simp] theorem Mach.raiseIrq_cyc (m : Mach) (v : BitVec 8) : (m.raiseIrq v).cyc = m.cyc := rfl
@[simp] theorem Mach.raiseIrq_turn (m : Mach) (v : BitVec 8) : (m.raiseIrq v).turn = m.turn := rfl
@[simp] theorem Mach.raiseIrq_first (m : Mach) (v : BitVec 8) : (m.raiseIrq v).first = m.first := rfl
@[simp] theorem Mach.raiseIrq_nextId (m : Mach) (v : BitVec 8) : (m.raiseIrq v).nextId = m.nextId := rfl
@[simp] theorem Mach.raiseIrq_tick (m : Mach) (v : BitVec 8) : (m.raiseIrq v).tick = m.tick := rfl

@[simp] theorem Mach.finish_ctxs (m : Mach) (id : Nat) : (m.finish id).ctxs = m.ctxs := rfl
@[simp] theorem Mach.finish_cores (m : Mach) (id : Nat) : (m.finish id).cores = m.cores := rfl
@[simp] theorem Mach.finish_tails (m : Mach) (id : Nat) : (m.finish id).tails = m.tails := rfl
@[simp] theorem Mach.finish_mem (m : Mach) (id : Nat) : (m.finish id).mem = m.mem := rfl
@[simp] theorem Mach.finish_streams (m : Mach) (id : Nat) : (m.finish id).streams = m.streams := rfl
@[simp] theorem Mach.finish_runs (m : Mach) (id : Nat) : (m.finish id).runs = m.runs := rfl
@[simp] theorem Mach.finish_teams (m : Mach) (id : Nat) : (m.finish id).teams = m.teams := rfl
@[simp] theorem Mach.finish_pkg (m : Mach) (id : Nat) : (m.finish id).pkg = m.pkg := rfl
@[simp] theorem Mach.finish_locq (m : Mach) (id : Nat) : (m.finish id).locq = m.locq := rfl
@[simp] theorem Mach.finish_rets (m : Mach) (id : Nat) : (m.finish id).rets = m.rets := rfl
@[simp] theorem Mach.finish_gops (m : Mach) (id : Nat) : (m.finish id).gops = m.gops := rfl
@[simp] theorem Mach.finish_ops (m : Mach) (id : Nat) : (m.finish id).ops = m.ops.filter (fun k => k != id) := rfl
@[simp] theorem Mach.finish_net (m : Mach) (id : Nat) : (m.finish id).net = m.net := rfl
@[simp] theorem Mach.finish_out (m : Mach) (id : Nat) : (m.finish id).out = m.out := rfl
@[simp] theorem Mach.finish_wire (m : Mach) (id : Nat) : (m.finish id).wire = m.wire := rfl
@[simp] theorem Mach.finish_irqs (m : Mach) (id : Nat) : (m.finish id).irqs = m.irqs := rfl
@[simp] theorem Mach.finish_comps (m : Mach) (id : Nat) : (m.finish id).comps = m.comps := rfl
@[simp] theorem Mach.finish_cyc (m : Mach) (id : Nat) : (m.finish id).cyc = m.cyc := rfl
@[simp] theorem Mach.finish_turn (m : Mach) (id : Nat) : (m.finish id).turn = m.turn := rfl
@[simp] theorem Mach.finish_first (m : Mach) (id : Nat) : (m.finish id).first = m.first := rfl
@[simp] theorem Mach.finish_nextId (m : Mach) (id : Nat) : (m.finish id).nextId = m.nextId := rfl
@[simp] theorem Mach.finish_tick (m : Mach) (id : Nat) : (m.finish id).tick = m.tick := rfl

@[simp] theorem Mach.notify_ctxs (m : Mach) (ls : List Nat) : (m.notify ls).ctxs = m.ctxs.map (fun p => (p.1, p.2.notice ls)) := rfl
@[simp] theorem Mach.notify_cores (m : Mach) (ls : List Nat) : (m.notify ls).cores = m.cores := rfl
@[simp] theorem Mach.notify_tails (m : Mach) (ls : List Nat) : (m.notify ls).tails = m.tails := rfl
@[simp] theorem Mach.notify_mem (m : Mach) (ls : List Nat) : (m.notify ls).mem = m.mem := rfl
@[simp] theorem Mach.notify_streams (m : Mach) (ls : List Nat) : (m.notify ls).streams = m.streams := rfl
@[simp] theorem Mach.notify_runs (m : Mach) (ls : List Nat) : (m.notify ls).runs = m.runs := rfl
@[simp] theorem Mach.notify_teams (m : Mach) (ls : List Nat) : (m.notify ls).teams = m.teams := rfl
@[simp] theorem Mach.notify_pkg (m : Mach) (ls : List Nat) : (m.notify ls).pkg = m.pkg := rfl
@[simp] theorem Mach.notify_locq (m : Mach) (ls : List Nat) : (m.notify ls).locq = m.locq := rfl
@[simp] theorem Mach.notify_rets (m : Mach) (ls : List Nat) : (m.notify ls).rets = m.rets := rfl
@[simp] theorem Mach.notify_gops (m : Mach) (ls : List Nat) : (m.notify ls).gops = m.gops := rfl
@[simp] theorem Mach.notify_ops (m : Mach) (ls : List Nat) : (m.notify ls).ops = m.ops := rfl
@[simp] theorem Mach.notify_net (m : Mach) (ls : List Nat) : (m.notify ls).net = m.net := rfl
@[simp] theorem Mach.notify_out (m : Mach) (ls : List Nat) : (m.notify ls).out = m.out := rfl
@[simp] theorem Mach.notify_wire (m : Mach) (ls : List Nat) : (m.notify ls).wire = m.wire := rfl
@[simp] theorem Mach.notify_irqs (m : Mach) (ls : List Nat) : (m.notify ls).irqs = m.irqs := rfl
@[simp] theorem Mach.notify_comps (m : Mach) (ls : List Nat) : (m.notify ls).comps = m.comps := rfl
@[simp] theorem Mach.notify_cyc (m : Mach) (ls : List Nat) : (m.notify ls).cyc = m.cyc := rfl
@[simp] theorem Mach.notify_turn (m : Mach) (ls : List Nat) : (m.notify ls).turn = m.turn := rfl
@[simp] theorem Mach.notify_first (m : Mach) (ls : List Nat) : (m.notify ls).first = m.first := rfl
@[simp] theorem Mach.notify_nextId (m : Mach) (ls : List Nat) : (m.notify ls).nextId = m.nextId := rfl
@[simp] theorem Mach.notify_tick (m : Mach) (ls : List Nat) : (m.notify ls).tick = m.tick := rfl

@[simp] theorem Mach.boundary_cores (m : Mach) (x : Nat) : (m.boundary x).cores = m.cores := rfl
@[simp] theorem Mach.boundary_tails (m : Mach) (x : Nat) : (m.boundary x).tails = m.tails := rfl
@[simp] theorem Mach.boundary_mem (m : Mach) (x : Nat) : (m.boundary x).mem = m.mem := rfl
@[simp] theorem Mach.boundary_streams (m : Mach) (x : Nat) : (m.boundary x).streams = m.streams := rfl
@[simp] theorem Mach.boundary_runs (m : Mach) (x : Nat) : (m.boundary x).runs = m.runs := rfl
@[simp] theorem Mach.boundary_teams (m : Mach) (x : Nat) : (m.boundary x).teams = m.teams := rfl
@[simp] theorem Mach.boundary_pkg (m : Mach) (x : Nat) : (m.boundary x).pkg = m.pkg := rfl
@[simp] theorem Mach.boundary_locq (m : Mach) (x : Nat) : (m.boundary x).locq = m.locq := rfl
@[simp] theorem Mach.boundary_rets (m : Mach) (x : Nat) : (m.boundary x).rets = m.rets := rfl
@[simp] theorem Mach.boundary_gops (m : Mach) (x : Nat) : (m.boundary x).gops = m.gops := rfl
@[simp] theorem Mach.boundary_ops (m : Mach) (x : Nat) : (m.boundary x).ops = m.ops := rfl
@[simp] theorem Mach.boundary_net (m : Mach) (x : Nat) : (m.boundary x).net = m.net := rfl
@[simp] theorem Mach.boundary_out (m : Mach) (x : Nat) : (m.boundary x).out = m.out := rfl
@[simp] theorem Mach.boundary_wire (m : Mach) (x : Nat) : (m.boundary x).wire = m.wire := rfl
@[simp] theorem Mach.boundary_irqs (m : Mach) (x : Nat) : (m.boundary x).irqs = m.irqs := rfl
@[simp] theorem Mach.boundary_comps (m : Mach) (x : Nat) : (m.boundary x).comps = m.comps := rfl
@[simp] theorem Mach.boundary_cyc (m : Mach) (x : Nat) : (m.boundary x).cyc = m.cyc := rfl
@[simp] theorem Mach.boundary_turn (m : Mach) (x : Nat) : (m.boundary x).turn = m.turn := rfl
@[simp] theorem Mach.boundary_first (m : Mach) (x : Nat) : (m.boundary x).first = m.first := rfl
@[simp] theorem Mach.boundary_nextId (m : Mach) (x : Nat) : (m.boundary x).nextId = m.nextId := rfl
@[simp] theorem Mach.boundary_tick (m : Mach) (x : Nat) : (m.boundary x).tick = m.tick := rfl

@[simp] theorem Mach.rebuild_ctxs (m : Mach) (k : Nat) : (m.rebuild k).ctxs = m.ctxs := rfl
@[simp] theorem Mach.rebuild_tails (m : Mach) (k : Nat) : (m.rebuild k).tails = m.tails := rfl
@[simp] theorem Mach.rebuild_mem (m : Mach) (k : Nat) : (m.rebuild k).mem = m.mem := rfl
@[simp] theorem Mach.rebuild_streams (m : Mach) (k : Nat) : (m.rebuild k).streams = m.streams := rfl
@[simp] theorem Mach.rebuild_runs (m : Mach) (k : Nat) : (m.rebuild k).runs = m.runs := rfl
@[simp] theorem Mach.rebuild_teams (m : Mach) (k : Nat) : (m.rebuild k).teams = m.teams := rfl
@[simp] theorem Mach.rebuild_pkg (m : Mach) (k : Nat) : (m.rebuild k).pkg = m.pkg := rfl
@[simp] theorem Mach.rebuild_locq (m : Mach) (k : Nat) : (m.rebuild k).locq = m.locq := rfl
@[simp] theorem Mach.rebuild_rets (m : Mach) (k : Nat) : (m.rebuild k).rets = m.rets := rfl
@[simp] theorem Mach.rebuild_gops (m : Mach) (k : Nat) : (m.rebuild k).gops = m.gops := rfl
@[simp] theorem Mach.rebuild_ops (m : Mach) (k : Nat) : (m.rebuild k).ops = m.ops := rfl
@[simp] theorem Mach.rebuild_net (m : Mach) (k : Nat) : (m.rebuild k).net = m.net := rfl
@[simp] theorem Mach.rebuild_out (m : Mach) (k : Nat) : (m.rebuild k).out = m.out := rfl
@[simp] theorem Mach.rebuild_wire (m : Mach) (k : Nat) : (m.rebuild k).wire = m.wire := rfl
@[simp] theorem Mach.rebuild_irqs (m : Mach) (k : Nat) : (m.rebuild k).irqs = m.irqs := rfl
@[simp] theorem Mach.rebuild_comps (m : Mach) (k : Nat) : (m.rebuild k).comps = m.comps := rfl
@[simp] theorem Mach.rebuild_cyc (m : Mach) (k : Nat) : (m.rebuild k).cyc = m.cyc := rfl
@[simp] theorem Mach.rebuild_turn (m : Mach) (k : Nat) : (m.rebuild k).turn = m.turn := rfl
@[simp] theorem Mach.rebuild_first (m : Mach) (k : Nat) : (m.rebuild k).first = m.first := rfl
@[simp] theorem Mach.rebuild_nextId (m : Mach) (k : Nat) : (m.rebuild k).nextId = m.nextId := rfl
@[simp] theorem Mach.rebuild_tick (m : Mach) (k : Nat) : (m.rebuild k).tick = m.tick := rfl

@[simp] theorem Mach.begin_fst (m : Mach) : m.begin_.1 = m.nextId := rfl
@[simp] theorem Mach.begin_ctxs (m : Mach) : m.begin_.2.ctxs = m.ctxs := rfl
@[simp] theorem Mach.begin_cores (m : Mach) : m.begin_.2.cores = m.cores := rfl
@[simp] theorem Mach.begin_tails (m : Mach) : m.begin_.2.tails = m.tails := rfl
@[simp] theorem Mach.begin_mem (m : Mach) : m.begin_.2.mem = m.mem := rfl
@[simp] theorem Mach.begin_streams (m : Mach) : m.begin_.2.streams = m.streams := rfl
@[simp] theorem Mach.begin_runs (m : Mach) : m.begin_.2.runs = m.runs := rfl
@[simp] theorem Mach.begin_teams (m : Mach) : m.begin_.2.teams = m.teams := rfl
@[simp] theorem Mach.begin_pkg (m : Mach) : m.begin_.2.pkg = m.pkg := rfl
@[simp] theorem Mach.begin_locq (m : Mach) : m.begin_.2.locq = m.locq := rfl
@[simp] theorem Mach.begin_rets (m : Mach) : m.begin_.2.rets = m.rets := rfl
@[simp] theorem Mach.begin_gops (m : Mach) : m.begin_.2.gops = m.gops := rfl
@[simp] theorem Mach.begin_ops (m : Mach) : m.begin_.2.ops = m.ops ++ [m.nextId] := rfl
@[simp] theorem Mach.begin_net (m : Mach) : m.begin_.2.net = m.net := rfl
@[simp] theorem Mach.begin_out (m : Mach) : m.begin_.2.out = m.out := rfl
@[simp] theorem Mach.begin_wire (m : Mach) : m.begin_.2.wire = m.wire := rfl
@[simp] theorem Mach.begin_irqs (m : Mach) : m.begin_.2.irqs = m.irqs := rfl
@[simp] theorem Mach.begin_comps (m : Mach) : m.begin_.2.comps = m.comps := rfl
@[simp] theorem Mach.begin_cyc (m : Mach) : m.begin_.2.cyc = m.cyc := rfl
@[simp] theorem Mach.begin_turn (m : Mach) : m.begin_.2.turn = m.turn := rfl
@[simp] theorem Mach.begin_first (m : Mach) : m.begin_.2.first = m.first := rfl
@[simp] theorem Mach.begin_nextId (m : Mach) : m.begin_.2.nextId = m.nextId + 1 := rfl
@[simp] theorem Mach.begin_tick (m : Mach) : m.begin_.2.tick = m.tick := rfl

@[simp] theorem Mach.fresh_fst (m : Mach) : m.fresh.1 = m.nextId := rfl
@[simp] theorem Mach.fresh_ctxs (m : Mach) : m.fresh.2.ctxs = m.ctxs := rfl
@[simp] theorem Mach.fresh_cores (m : Mach) : m.fresh.2.cores = m.cores := rfl
@[simp] theorem Mach.fresh_tails (m : Mach) : m.fresh.2.tails = m.tails := rfl
@[simp] theorem Mach.fresh_mem (m : Mach) : m.fresh.2.mem = m.mem := rfl
@[simp] theorem Mach.fresh_streams (m : Mach) : m.fresh.2.streams = m.streams := rfl
@[simp] theorem Mach.fresh_runs (m : Mach) : m.fresh.2.runs = m.runs := rfl
@[simp] theorem Mach.fresh_teams (m : Mach) : m.fresh.2.teams = m.teams := rfl
@[simp] theorem Mach.fresh_pkg (m : Mach) : m.fresh.2.pkg = m.pkg := rfl
@[simp] theorem Mach.fresh_locq (m : Mach) : m.fresh.2.locq = m.locq := rfl
@[simp] theorem Mach.fresh_rets (m : Mach) : m.fresh.2.rets = m.rets := rfl
@[simp] theorem Mach.fresh_gops (m : Mach) : m.fresh.2.gops = m.gops := rfl
@[simp] theorem Mach.fresh_ops (m : Mach) : m.fresh.2.ops = m.ops := rfl
@[simp] theorem Mach.fresh_net (m : Mach) : m.fresh.2.net = m.net := rfl
@[simp] theorem Mach.fresh_out (m : Mach) : m.fresh.2.out = m.out := rfl
@[simp] theorem Mach.fresh_wire (m : Mach) : m.fresh.2.wire = m.wire := rfl
@[simp] theorem Mach.fresh_irqs (m : Mach) : m.fresh.2.irqs = m.irqs := rfl
@[simp] theorem Mach.fresh_comps (m : Mach) : m.fresh.2.comps = m.comps := rfl
@[simp] theorem Mach.fresh_cyc (m : Mach) : m.fresh.2.cyc = m.cyc := rfl
@[simp] theorem Mach.fresh_turn (m : Mach) : m.fresh.2.turn = m.turn := rfl
@[simp] theorem Mach.fresh_first (m : Mach) : m.fresh.2.first = m.first := rfl
@[simp] theorem Mach.fresh_nextId (m : Mach) : m.fresh.2.nextId = m.nextId + 1 := rfl
@[simp] theorem Mach.fresh_tick (m : Mach) : m.fresh.2.tick = m.tick := rfl

/-! ### A store: memory and the contexts that watch it -/

@[simp] theorem Mach.store_cores (m : Mach) (loc : Nat) (bs : List Byte) : (m.store loc bs).cores = m.cores := rfl
@[simp] theorem Mach.store_tails (m : Mach) (loc : Nat) (bs : List Byte) : (m.store loc bs).tails = m.tails := rfl
@[simp] theorem Mach.store_mem (m : Mach) (loc : Nat) (bs : List Byte) : (m.store loc bs).mem = writeBytes m.mem loc bs := rfl
@[simp] theorem Mach.store_streams (m : Mach) (loc : Nat) (bs : List Byte) : (m.store loc bs).streams = m.streams := rfl
@[simp] theorem Mach.store_runs (m : Mach) (loc : Nat) (bs : List Byte) : (m.store loc bs).runs = m.runs := rfl
@[simp] theorem Mach.store_teams (m : Mach) (loc : Nat) (bs : List Byte) : (m.store loc bs).teams = m.teams := rfl
@[simp] theorem Mach.store_pkg (m : Mach) (loc : Nat) (bs : List Byte) : (m.store loc bs).pkg = m.pkg := rfl
@[simp] theorem Mach.store_locq (m : Mach) (loc : Nat) (bs : List Byte) : (m.store loc bs).locq = m.locq := rfl
@[simp] theorem Mach.store_rets (m : Mach) (loc : Nat) (bs : List Byte) : (m.store loc bs).rets = m.rets := rfl
@[simp] theorem Mach.store_gops (m : Mach) (loc : Nat) (bs : List Byte) : (m.store loc bs).gops = m.gops.map (fun (g : GOp) => g.overtaken m.mem loc bs.length) := rfl
@[simp] theorem Mach.store_ops (m : Mach) (loc : Nat) (bs : List Byte) : (m.store loc bs).ops = m.ops := rfl
@[simp] theorem Mach.store_net (m : Mach) (loc : Nat) (bs : List Byte) : (m.store loc bs).net = m.net := rfl
@[simp] theorem Mach.store_out (m : Mach) (loc : Nat) (bs : List Byte) : (m.store loc bs).out = m.out := rfl
@[simp] theorem Mach.store_wire (m : Mach) (loc : Nat) (bs : List Byte) : (m.store loc bs).wire = m.wire := rfl
@[simp] theorem Mach.store_irqs (m : Mach) (loc : Nat) (bs : List Byte) : (m.store loc bs).irqs = m.irqs := rfl
@[simp] theorem Mach.store_comps (m : Mach) (loc : Nat) (bs : List Byte) : (m.store loc bs).comps = m.comps := rfl
@[simp] theorem Mach.store_cyc (m : Mach) (loc : Nat) (bs : List Byte) : (m.store loc bs).cyc = m.cyc := rfl
@[simp] theorem Mach.store_turn (m : Mach) (loc : Nat) (bs : List Byte) : (m.store loc bs).turn = m.turn := rfl
@[simp] theorem Mach.store_first (m : Mach) (loc : Nat) (bs : List Byte) : (m.store loc bs).first = m.first := rfl
@[simp] theorem Mach.store_nextId (m : Mach) (loc : Nat) (bs : List Byte) : (m.store loc bs).nextId = m.nextId := rfl
@[simp] theorem Mach.store_tick (m : Mach) (loc : Nat) (bs : List Byte) : (m.store loc bs).tick = m.tick := rfl

/-! ### Updates of the state -/

@[simp] theorem State.mapM_m (s : State) (f : Mach → Mach) : (s.mapM f).m = f s.m := rfl
@[simp] theorem State.mapM_old (s : State) (f : Mach → Mach) : (s.mapM f).old = s.old := rfl
@[simp] theorem State.mapM_iss (s : State) (f : Mach → Mach) : (s.mapM f).iss = s.iss := rfl
@[simp] theorem State.mapM_agenda (s : State) (f : Mach → Mach) : (s.mapM f).agenda = s.agenda := rfl
@[simp] theorem State.mapM_cx (s : State) (f : Mach → Mach) : (s.mapM f).cx = s.cx := rfl
@[simp] theorem State.mapM_oc (s : State) (f : Mach → Mach) : (s.mapM f).oc = s.oc := rfl
@[simp] theorem State.mapM_regs (s : State) (f : Mach → Mach) : (s.mapM f).regs = s.regs := rfl
@[simp] theorem State.mapM_no (s : State) (f : Mach → Mach) : (s.mapM f).no = s.no := rfl

@[simp] theorem State.modC_m (s : State) (f : Ctx → Ctx) : (s.modC f).m = s.m.modCtx s.cx f := rfl
@[simp] theorem State.modC_old (s : State) (f : Ctx → Ctx) : (s.modC f).old = s.old := rfl
@[simp] theorem State.modC_iss (s : State) (f : Ctx → Ctx) : (s.modC f).iss = s.iss := rfl
@[simp] theorem State.modC_agenda (s : State) (f : Ctx → Ctx) : (s.modC f).agenda = s.agenda := rfl
@[simp] theorem State.modC_cx (s : State) (f : Ctx → Ctx) : (s.modC f).cx = s.cx := rfl
@[simp] theorem State.modC_oc (s : State) (f : Ctx → Ctx) : (s.modC f).oc = s.oc := rfl
@[simp] theorem State.modC_regs (s : State) (f : Ctx → Ctx) : (s.modC f).regs = s.regs := rfl
@[simp] theorem State.modC_no (s : State) (f : Ctx → Ctx) : (s.modC f).no = s.no := rfl

@[simp] theorem State.modR_m (s : State) (f : Regs → Regs) : (s.modR f).m = s.m.modCtx s.cx (fun c => { c with regs := f c.regs }) := rfl
@[simp] theorem State.modR_old (s : State) (f : Regs → Regs) : (s.modR f).old = s.old := rfl
@[simp] theorem State.modR_iss (s : State) (f : Regs → Regs) : (s.modR f).iss = s.iss := rfl
@[simp] theorem State.modR_agenda (s : State) (f : Regs → Regs) : (s.modR f).agenda = s.agenda := rfl
@[simp] theorem State.modR_cx (s : State) (f : Regs → Regs) : (s.modR f).cx = s.cx := rfl
@[simp] theorem State.modR_oc (s : State) (f : Regs → Regs) : (s.modR f).oc = s.oc := rfl
@[simp] theorem State.modR_regs (s : State) (f : Regs → Regs) : (s.modR f).regs = s.regs := rfl
@[simp] theorem State.modR_no (s : State) (f : Regs → Regs) : (s.modR f).no = s.no := rfl

@[simp] theorem State.modCtl_m (s : State) (f : Ctl → Ctl) : (s.modCtl f).m = s.m.modCtx s.cx (fun c => { c with ctl := f c.ctl }) := rfl
@[simp] theorem State.modCtl_old (s : State) (f : Ctl → Ctl) : (s.modCtl f).old = s.old := rfl
@[simp] theorem State.modCtl_iss (s : State) (f : Ctl → Ctl) : (s.modCtl f).iss = s.iss := rfl
@[simp] theorem State.modCtl_agenda (s : State) (f : Ctl → Ctl) : (s.modCtl f).agenda = s.agenda := rfl
@[simp] theorem State.modCtl_cx (s : State) (f : Ctl → Ctl) : (s.modCtl f).cx = s.cx := rfl
@[simp] theorem State.modCtl_oc (s : State) (f : Ctl → Ctl) : (s.modCtl f).oc = s.oc := rfl
@[simp] theorem State.modCtl_regs (s : State) (f : Ctl → Ctl) : (s.modCtl f).regs = s.regs := rfl
@[simp] theorem State.modCtl_no (s : State) (f : Ctl → Ctl) : (s.modCtl f).no = s.no := rfl

@[simp] theorem State.wg_m (s : State) (n : BitVec 6) (v : W64) : (s.wg n v).m = s.m.modCtx s.cx (fun c => { c with regs := c.regs.wg n v }) := rfl
@[simp] theorem State.wg_old (s : State) (n : BitVec 6) (v : W64) : (s.wg n v).old = s.old := rfl
@[simp] theorem State.wg_iss (s : State) (n : BitVec 6) (v : W64) : (s.wg n v).iss = s.iss := rfl
@[simp] theorem State.wg_agenda (s : State) (n : BitVec 6) (v : W64) : (s.wg n v).agenda = s.agenda := rfl
@[simp] theorem State.wg_cx (s : State) (n : BitVec 6) (v : W64) : (s.wg n v).cx = s.cx := rfl
@[simp] theorem State.wg_oc (s : State) (n : BitVec 6) (v : W64) : (s.wg n v).oc = s.oc := rfl
@[simp] theorem State.wg_regs (s : State) (n : BitVec 6) (v : W64) : (s.wg n v).regs = s.regs := rfl
@[simp] theorem State.wg_no (s : State) (n : BitVec 6) (v : W64) : (s.wg n v).no = s.no := rfl

@[simp] theorem State.wf_m (s : State) (n : BitVec 4) (b : Bool) : (s.wf n b).m = s.m.modCtx s.cx (fun c => { c with regs := { c.regs with f := setField c.regs.f n.toNat 1 (BitVec.ofBool b) } }) := rfl
@[simp] theorem State.wf_old (s : State) (n : BitVec 4) (b : Bool) : (s.wf n b).old = s.old := rfl
@[simp] theorem State.wf_iss (s : State) (n : BitVec 4) (b : Bool) : (s.wf n b).iss = s.iss := rfl
@[simp] theorem State.wf_agenda (s : State) (n : BitVec 4) (b : Bool) : (s.wf n b).agenda = s.agenda := rfl
@[simp] theorem State.wf_cx (s : State) (n : BitVec 4) (b : Bool) : (s.wf n b).cx = s.cx := rfl
@[simp] theorem State.wf_oc (s : State) (n : BitVec 4) (b : Bool) : (s.wf n b).oc = s.oc := rfl
@[simp] theorem State.wf_regs (s : State) (n : BitVec 4) (b : Bool) : (s.wf n b).regs = s.regs := rfl
@[simp] theorem State.wf_no (s : State) (n : BitVec 4) (b : Bool) : (s.wf n b).no = s.no := rfl

@[simp] theorem State.setAddr_old (s : State) (a : W64) : (s.setAddr a).old = s.old := rfl
@[simp] theorem State.setAddr_iss (s : State) (a : W64) : (s.setAddr a).iss = s.iss := rfl
@[simp] theorem State.setAddr_agenda (s : State) (a : W64) : (s.setAddr a).agenda = s.agenda := rfl
@[simp] theorem State.setAddr_cx (s : State) (a : W64) : (s.setAddr a).cx = s.cx := rfl
@[simp] theorem State.setAddr_oc (s : State) (a : W64) : (s.setAddr a).oc = s.oc := rfl
@[simp] theorem State.setAddr_regs (s : State) (a : W64) : (s.setAddr a).regs = s.regs := rfl
@[simp] theorem State.setAddr_no (s : State) (a : W64) : (s.setAddr a).no = s.no := rfl

@[simp] theorem State.pending_m (s : State) (r : RegId) : (s.pending r).m = s.m.modCtx s.cx (fun c => { c with busy := c.busy ++ [r] }) := rfl
@[simp] theorem State.pending_old (s : State) (r : RegId) : (s.pending r).old = s.old := rfl
@[simp] theorem State.pending_iss (s : State) (r : RegId) : (s.pending r).iss = s.iss := rfl
@[simp] theorem State.pending_agenda (s : State) (r : RegId) : (s.pending r).agenda = s.agenda := rfl
@[simp] theorem State.pending_cx (s : State) (r : RegId) : (s.pending r).cx = s.cx := rfl
@[simp] theorem State.pending_oc (s : State) (r : RegId) : (s.pending r).oc = s.oc := rfl
@[simp] theorem State.pending_regs (s : State) (r : RegId) : (s.pending r).regs = s.regs := rfl
@[simp] theorem State.pending_no (s : State) (r : RegId) : (s.pending r).no = s.no := rfl

@[simp] theorem State.pendAll_m (s : State) (rs : List RegId) : (s.pendAll rs).m = s.m.modCtx s.cx (fun c => { c with busy := c.busy ++ rs }) := rfl
@[simp] theorem State.pendAll_old (s : State) (rs : List RegId) : (s.pendAll rs).old = s.old := rfl
@[simp] theorem State.pendAll_iss (s : State) (rs : List RegId) : (s.pendAll rs).iss = s.iss := rfl
@[simp] theorem State.pendAll_agenda (s : State) (rs : List RegId) : (s.pendAll rs).agenda = s.agenda := rfl
@[simp] theorem State.pendAll_cx (s : State) (rs : List RegId) : (s.pendAll rs).cx = s.cx := rfl
@[simp] theorem State.pendAll_oc (s : State) (rs : List RegId) : (s.pendAll rs).oc = s.oc := rfl
@[simp] theorem State.pendAll_regs (s : State) (rs : List RegId) : (s.pendAll rs).regs = s.regs := rfl
@[simp] theorem State.pendAll_no (s : State) (rs : List RegId) : (s.pendAll rs).no = s.no := rfl

@[simp] theorem State.expose_m (s : State) (es : List Replay) : (s.expose es).m = s.m.modCtx s.cx (fun c => { c with replay := c.replay ++ es }) := rfl
@[simp] theorem State.expose_old (s : State) (es : List Replay) : (s.expose es).old = s.old := rfl
@[simp] theorem State.expose_iss (s : State) (es : List Replay) : (s.expose es).iss = s.iss := rfl
@[simp] theorem State.expose_agenda (s : State) (es : List Replay) : (s.expose es).agenda = s.agenda := rfl
@[simp] theorem State.expose_cx (s : State) (es : List Replay) : (s.expose es).cx = s.cx := rfl
@[simp] theorem State.expose_oc (s : State) (es : List Replay) : (s.expose es).oc = s.oc := rfl
@[simp] theorem State.expose_regs (s : State) (es : List Replay) : (s.expose es).regs = s.regs := rfl
@[simp] theorem State.expose_no (s : State) (es : List Replay) : (s.expose es).no = s.no := rfl

@[simp] theorem State.addGop_m (s : State) (g : GOp) : (s.addGop g).m = { s.m with gops := s.m.gops ++ [g] } := rfl
@[simp] theorem State.addGop_old (s : State) (g : GOp) : (s.addGop g).old = s.old := rfl
@[simp] theorem State.addGop_iss (s : State) (g : GOp) : (s.addGop g).iss = s.iss := rfl
@[simp] theorem State.addGop_agenda (s : State) (g : GOp) : (s.addGop g).agenda = s.agenda := rfl
@[simp] theorem State.addGop_cx (s : State) (g : GOp) : (s.addGop g).cx = s.cx := rfl
@[simp] theorem State.addGop_oc (s : State) (g : GOp) : (s.addGop g).oc = s.oc := rfl
@[simp] theorem State.addGop_regs (s : State) (g : GOp) : (s.addGop g).regs = s.regs := rfl
@[simp] theorem State.addGop_no (s : State) (g : GOp) : (s.addGop g).no = s.no := rfl

@[simp] theorem State.setStride_old (s : State) (k : BitVec 4) (v : BitVec 3) (x : W32) : (s.setStride k v x).old = s.old := rfl
@[simp] theorem State.setStride_iss (s : State) (k : BitVec 4) (v : BitVec 3) (x : W32) : (s.setStride k v x).iss = s.iss := rfl
@[simp] theorem State.setStride_agenda (s : State) (k : BitVec 4) (v : BitVec 3) (x : W32) : (s.setStride k v x).agenda = s.agenda := rfl
@[simp] theorem State.setStride_cx (s : State) (k : BitVec 4) (v : BitVec 3) (x : W32) : (s.setStride k v x).cx = s.cx := rfl
@[simp] theorem State.setStride_oc (s : State) (k : BitVec 4) (v : BitVec 3) (x : W32) : (s.setStride k v x).oc = s.oc := rfl
@[simp] theorem State.setStride_regs (s : State) (k : BitVec 4) (v : BitVec 3) (x : W32) : (s.setStride k v x).regs = s.regs := rfl
@[simp] theorem State.setStride_no (s : State) (k : BitVec 4) (v : BitVec 3) (x : W32) : (s.setStride k v x).no = s.no := rfl

@[simp] theorem State.putQ_old (s : State) (q : BitVec 3) (v : BitVec 8704) : (s.putQ q v).old = s.old := rfl
@[simp] theorem State.putQ_iss (s : State) (q : BitVec 3) (v : BitVec 8704) : (s.putQ q v).iss = s.iss := rfl
@[simp] theorem State.putQ_agenda (s : State) (q : BitVec 3) (v : BitVec 8704) : (s.putQ q v).agenda = s.agenda := rfl
@[simp] theorem State.putQ_cx (s : State) (q : BitVec 3) (v : BitVec 8704) : (s.putQ q v).cx = s.cx := rfl
@[simp] theorem State.putQ_oc (s : State) (q : BitVec 3) (v : BitVec 8704) : (s.putQ q v).oc = s.oc := rfl
@[simp] theorem State.putQ_regs (s : State) (q : BitVec 3) (v : BitVec 8704) : (s.putQ q v).regs = s.regs := rfl
@[simp] theorem State.putQ_no (s : State) (q : BitVec 3) (v : BitVec 8704) : (s.putQ q v).no = s.no := rfl

@[simp] theorem State.setFo_old (s : State) (o : BitVec 3) (v : W32) : (s.setFo o v).old = s.old := rfl
@[simp] theorem State.setFo_iss (s : State) (o : BitVec 3) (v : W32) : (s.setFo o v).iss = s.iss := rfl
@[simp] theorem State.setFo_agenda (s : State) (o : BitVec 3) (v : W32) : (s.setFo o v).agenda = s.agenda := rfl
@[simp] theorem State.setFo_cx (s : State) (o : BitVec 3) (v : W32) : (s.setFo o v).cx = s.cx := rfl
@[simp] theorem State.setFo_oc (s : State) (o : BitVec 3) (v : W32) : (s.setFo o v).oc = s.oc := rfl
@[simp] theorem State.setFo_regs (s : State) (o : BitVec 3) (v : W32) : (s.setFo o v).regs = s.regs := rfl
@[simp] theorem State.setFo_no (s : State) (o : BitVec 3) (v : W32) : (s.setFo o v).no = s.no := rfl

@[simp] theorem State.callDue_old (s : State) : (s.callDue).old = s.old := rfl
@[simp] theorem State.callDue_iss (s : State) : (s.callDue).iss = s.iss := rfl
@[simp] theorem State.callDue_agenda (s : State) : (s.callDue).agenda = s.agenda := rfl
@[simp] theorem State.callDue_cx (s : State) : (s.callDue).cx = s.cx := rfl
@[simp] theorem State.callDue_oc (s : State) : (s.callDue).oc = s.oc := rfl
@[simp] theorem State.callDue_regs (s : State) : (s.callDue).regs = s.regs := rfl
@[simp] theorem State.callDue_no (s : State) : (s.callDue).no = s.no := rfl

end Sys2Proof.Machine
end

