-- ==== Sys2Proof/Laws/Ops.lean ====
section
/-! SUPPORT. What each shared operation can do, said once: the units read after an update, stores, the checks of an access, taking
an exception and returning from one, and what a load or a store word hands on. -/

namespace Sys2Proof.Machine

/-! ### Units read after an update -/

@[simp] theorem Mach.ctx_setCtx_same (m : Mach) (x : Nat) (c : Ctx) : (m.setCtx x c).ctx x = c := by simp [Mach.ctx, Mach.setCtx]

theorem Mach.ctx_setCtx_other {x y : Nat} (h : y ≠ x) (m : Mach) (c : Ctx) : (m.setCtx x c).ctx y = m.ctx y := by
  simp [Mach.ctx, Mach.setCtx, kgetD_kput_other _ h]

@[simp] theorem Mach.ctx_modCtx_same (m : Mach) (x : Nat) (f : Ctx → Ctx) : (m.modCtx x f).ctx x = f (m.ctx x) := by simp [Mach.modCtx]

theorem Mach.ctx_modCtx_other {x y : Nat} (h : y ≠ x) (m : Mach) (f : Ctx → Ctx) : (m.modCtx x f).ctx y = m.ctx y :=
  Mach.ctx_setCtx_other h m _

@[simp] theorem Mach.core_modCore_same (m : Mach) (k : Nat) (f : Core → Core) : (m.modCore k f).core k = f (m.core k) := by
  simp [Mach.core, Mach.modCore]

theorem Mach.core_modCore_other {j k : Nat} (h : j ≠ k) (m : Mach) (f : Core → Core) : (m.modCore k f).core j = m.core j := by
  simp [Mach.core, Mach.modCore, kgetD_kput_other _ h]

@[simp] theorem Mach.tail_modTail_same (m : Mach) (t : Nat) (f : Tail → Tail) : (m.modTail t f).tail t = f (m.tail t) := by
  simp [Mach.tail, Mach.modTail]

theorem Mach.tail_modTail_other {j t : Nat} (h : j ≠ t) (m : Mach) (f : Tail → Tail) : (m.modTail t f).tail j = m.tail j := by
  simp [Mach.tail, Mach.modTail, kgetD_kput_other _ h]

@[simp] theorem Mach.stream_modStream_same (m : Mach) (k : Nat) (f : Stream → Stream) : (m.modStream k f).stream k = f (m.stream k) := by
  simp [Mach.stream, Mach.modStream]

theorem Mach.stream_modStream_other {j k : Nat} (h : j ≠ k) (m : Mach) (f : Stream → Stream) : (m.modStream k f).stream j = m.stream j := by
  simp [Mach.stream, Mach.modStream, kgetD_kput_other _ h]

/-- Reading `g0` gives zero (R74). -/
@[simp] theorem Regs.rg_zero (r : Regs) : r.rg 0 = 0 := rfl

/-- A write to `g0` is discarded (R74). -/
@[simp] theorem Regs.wg_zero (r : Regs) (v : W64) : r.wg 0 v = r := rfl

@[simp] theorem Regs.rg_wg_same {n : BitVec 6} (h : n ≠ 0) (r : Regs) (v : W64) : (r.wg n v).rg n = v := by
  rw [Regs.rg, if_neg h, Regs.wg, if_neg h, rget_rput_same]

theorem Regs.rg_wg_other {j n : BitVec 6} (h : j ≠ n) (r : Regs) (v : W64) : (r.wg n v).rg j = r.rg j := by
  have hj : j.toNat ≠ n.toNat := fun e => h (BitVec.eq_of_toNat_eq e)
  by_cases hn : n = 0
  · rw [Regs.wg, if_pos hn]
  · rw [Regs.wg, if_neg hn, Regs.rg, Regs.rg, rget_rput_other hj]

/-! ### Memory -/

/-- Keeping some of the cells keeps the canonical form. -/
theorem wf_filter {m : Memory} (f : Host.Cell → Bool) (h : Memory.wf m = true) : Memory.wf (m.filter f) = true := by
  rw [Memory.wf, rwf_iff] at h ⊢
  exact ⟨rising_filter f h.1, fun p hp => h.2 p (List.mem_filter.mp hp).1⟩

/-- The clearing of a range keeps the canonical form. -/
theorem wf_clear {m : Memory} (a n : Nat) (h : Memory.wf m = true) : Memory.wf (Memory.clear m a n) = true := wf_filter _ h

/-- What a device reset leaves of memory is in the canonical form. -/
theorem wf_kept {m : Memory} (h : Memory.wf m = true) : Memory.wf (Memory.kept m) = true := wf_filter _ h

/-- A cleared byte reads zero, and every other byte reads as before. -/
theorem readByte_clear (m : Memory) (a n b : Nat) :
    readByte (Memory.clear m a n) b = if a ≤ b ∧ b < a + n then 0 else readByte m b := by
  split
  · rename_i hb
    refine readByte_of_not_mem (fun c hc => ?_)
    have := (List.mem_filter.mp hc).2
    simp only [Bool.or_eq_true, decide_eq_true_eq] at this
    omega
  · rename_i hb
    refine readByte_filter _ (fun _ => ?_)
    simp only [Bool.or_eq_true, decide_eq_true_eq]
    omega

/-- A store keeps the canonical form. -/
theorem wf_store {m : Mach} (loc : Nat) (bs : List Byte) (h : Memory.wf m.mem = true) : Memory.wf (m.store loc bs).mem = true :=
  wf_writeBytes loc bs h

/-- Stores to pieces keep the canonical form. -/
theorem wf_storeSegs (segs : List Seg) {m : Mach} (bs : List Byte) (h : Memory.wf m.mem = true) :
    Memory.wf (m.storeSegs segs bs).mem = true := by
  induction segs generalizing m bs with
  | nil => exact h
  | cons g rest ih => exact ih (bs.drop g.len) (wf_store g.pa (bs.take g.len) h)

/-- An undo entry applied keeps the canonical form. -/
theorem wf_undo {m : Mach} (u : Undo) (h : Memory.wf m.mem = true) : Memory.wf (m.undo u).mem = true := by
  cases u with
  | line cl loc old => exact wf_store loc old h
  | row k t r mant exps => exact h
  | child r => exact h
  | popped k n w => exact h
  | pushed k n asm tag => exact h

/-- A write that no rollback undoes keeps the canonical form (R313). -/
theorem wf_keptStore {m : Mach} (loc : Nat) (bs : List Byte) (h : Memory.wf m.mem = true) : Memory.wf (m.keptStore loc bs).mem = true :=
  wf_store loc bs h

/-- Undo entries applied one after another keep the canonical form. -/
theorem wf_undos (l : List Undo) {m : Mach} (h : Memory.wf m.mem = true) : Memory.wf (l.foldl Mach.undo m).mem = true := by
  induction l generalizing m with
  | nil => exact h
  | cons u rest ih => exact ih (wf_undo u h)

/-- A byte outside every piece reads as before. -/
theorem readByte_storeSegs_other (segs : List Seg) (m : Mach) (bs : List Byte) (b : Nat) (h : ∀ g ∈ segs, b < g.pa ∨ g.pa + g.len ≤ b) :
    readByte (m.storeSegs segs bs).mem b = readByte m.mem b := by
  induction segs generalizing m bs with
  | nil => rfl
  | cons g rest ih =>
    have hg := h g (List.mem_cons_self ..)
    rw [Mach.storeSegs, ih _ _ (fun q hq => h q (List.mem_cons_of_mem _ hq))]
    refine readByte_writeBytes_other m.mem g.pa (bs.take g.len) b ?_
    have : (bs.take g.len).length ≤ g.len := List.length_take_le ..
    omega

/-- A store writes no register: of each context only the mark that a watched line was stored to may change (R32, R185). -/
theorem Mach.notice_regs (c : Ctx) (ls : List Nat) : (c.notice ls).regs = c.regs ∧ (c.notice ls).ctl = c.ctl ∧
    (c.notice ls).status = c.status ∧ (c.notice ls).trp = c.trp ∧ (c.notice ls).pend = c.pend := ⟨rfl, rfl, rfl, rfl, rfl⟩

/-! ### The checks of an access -/

/-- A local access that is answered lies in its window, is aligned, and starts at the window's base plus its offset (R145). -/
theorem Mach.local_ok {m : Mach} {x : Nat} {sp : Space} {o : W64} {n align loc : Nat} (h : m.local_ x sp o n align = .ok loc) :
    o.toNat + n ≤ (m.window x sp).2 ∧ o.toNat % align = 0 ∧ loc = (m.window x sp).1 + o.toNat := by
  simp only [Mach.local_] at h
  split at h
  · cases h
  · rename_i hw
    split at h
    · cases h
    · rename_i ha
      cases h
      simp only [inWindow, Bool.not_eq_true', decide_eq_false_iff_not, Decidable.not_not] at hw
      simp only [bne_iff_ne, ne_eq, Decidable.not_not] at ha
      exact ⟨hw, ha, rfl⟩

/-- A local access that is refused is refused for its window first and for its alignment then (R145). -/
theorem Mach.local_error {m : Mach} {x : Nat} {sp : Space} {o : W64} {n align : Nat} {c : Cause} (h : m.local_ x sp o n align = .error c) :
    (¬ o.toNat + n ≤ (m.window x sp).2 ∧ c = { code := 0x11, sub := 1, addr := o }) ∨
    (o.toNat + n ≤ (m.window x sp).2 ∧ o.toNat % align ≠ 0 ∧ c = { code := 0x03, sub := 0, addr := o }) := by
  simp only [Mach.local_] at h
  split at h
  · rename_i hw
    cases h
    exact .inl ⟨by simpa [inWindow] using hw, rfl⟩
  · rename_i hw
    split at h
    · rename_i ha
      cases h
      exact .inr ⟨by simpa [inWindow] using hw, by simpa using ha, rfl⟩
    · cases h

/-- Pieces that pass fail no check of their page (R155). -/
theorem checkPieces_ok {m : Mach} {k : AccKind} {part : Nat} {segs : List Seg} (h : checkPieces m k part segs = .ok ()) :
    ∀ g ∈ segs, pageCheck m k part g.leaf g.pa g.len = none := by
  induction segs with
  | nil => intro g hg; cases hg
  | cons p rest ih =>
    simp only [checkPieces] at h
    split at h
    · cases h
    · rename_i hp
      intro g hg
      rcases List.mem_cons.mp hg with rfl | hg
      · exact hp
      · exact ih h g hg

/-- A page that passes permits the access (R155). -/
theorem pageCheck_none {m : Mach} {k : AccKind} {part : Nat} {e : W64} {pa len : Nat} (h : pageCheck m k part e pa len = none) :
    permitted k e = true := by
  by_cases hp : permitted k e = true
  · exact hp
  · simp [pageCheck, hp] at h

/-- The pieces of ranges that are answered are those of each range, one after another (R169). -/
theorem rangePieces_cons {m : Mach} {core : Nat} {root : W64} {off n al : Nat} {va : W64} {rest : List Range} {segs : List Seg}
    (h : rangePieces m core root off ((va, n, al) :: rest) = .ok segs) :
    ∃ a b, pieces m core root 5 off va.toNat n = .ok a ∧ rangePieces m core root (off + n) rest = .ok b ∧ segs = a ++ b := by
  simp only [rangePieces] at h
  split at h
  · cases h
  rename_i a ha
  split at h
  · cases h
  rename_i b hb
  cases h
  exact ⟨a, b, ha, hb, rfl⟩

/-- A global access that is answered is canonical and aligned in each of its ranges, every page it touches permits it, and a causal store
has one piece (R145, R155). -/
theorem Mach.resolveAll_ok {m : Mach} {k : AccKind} {core : Nat} {root : W64} {part : Nat} {rs : List Range} {segs : List Seg}
    (h : m.resolveAll k core root part rs = .ok segs) :
    (∀ r ∈ rs, r.1.toNat + r.2.1 ≤ 2 ^ 57 ∧ r.1.toNat < 2 ^ 57 ∧ r.1.toNat % r.2.2 = 0) ∧ rangePieces m core root 0 rs = .ok segs ∧
      (k = .causal → segs.length ≤ 1) ∧ ∀ g ∈ segs, pageCheck m k part g.leaf g.pa g.len = none := by
  simp only [Mach.resolveAll] at h
  split at h
  · cases h
  rename_i hc
  split at h
  · cases h
  rename_i ha
  split at h
  · cases h
  rename_i l hl
  split at h
  · cases h
  rename_i hk
  split at h
  · cases h
  rename_i u hu
  cases h
  refine ⟨fun r hr => ?_, hl, ?_, checkPieces_ok (by simpa using hu)⟩
  · have h1 := List.find?_eq_none.mp hc r hr
    have h2 := List.find?_eq_none.mp ha r hr
    simp only [Bool.or_eq_true, decide_eq_true_eq, not_or, Nat.not_lt, Nat.not_le, bne_iff_ne, ne_eq, Decidable.not_not] at h1 h2
    exact ⟨h1.1, h1.2, h2⟩
  · rintro rfl
    simpa using hk

/-- The same of one range. -/
theorem Mach.resolve_ok {m : Mach} {k : AccKind} {core : Nat} {root : W64} {part : Nat} {va : W64} {n align : Nat} {segs : List Seg}
    (h : m.resolve k core root part va n align = .ok segs) :
    va.toNat + n ≤ 2 ^ 57 ∧ va.toNat < 2 ^ 57 ∧ va.toNat % align = 0 ∧ pieces m core root 5 0 va.toNat n = .ok segs ∧
      (k = .causal → segs.length ≤ 1) ∧ ∀ g ∈ segs, pageCheck m k part g.leaf g.pa g.len = none := by
  obtain ⟨h1, h2, h3, h4⟩ := Mach.resolveAll_ok h
  obtain ⟨a, b, ha, hb, rfl⟩ := rangePieces_cons h2
  cases hb
  obtain ⟨hc, hd, he⟩ := h1 _ (List.mem_cons_self ..)
  exact ⟨hc, hd, he, by simpa using ha, by simpa using h3, by simpa using h4⟩

/-- An access of a context that is answered is that of its run's root and partition (R154, R155). -/
theorem Mach.access_ok {m : Mach} {x : Nat} {k : AccKind} {va : W64} {n align : Nat} {segs : List Seg}
    (h : m.access x k va n align = .ok segs) :
    ∃ r, m.run? (m.ctx x).rid = some r ∧ m.resolve k (coreOf x) r.root r.part va n align = .ok segs := by
  simp only [Mach.access, Mach.accessAll] at h
  split at h
  · cases h
  · rename_i r hr
    exact ⟨r, hr, h⟩

/-- The pages of a record are local HBM that may be read and written (R312). -/
theorem Mach.plainArea_some {m : Mach} {x : Nat} {va : W64} {n : Nat} {segs : List Seg} (h : m.plainArea x va n = some segs) :
    va.toNat % 4096 = 0 ∧ m.access x .load va n 4096 = .ok segs ∧ ∀ g ∈ segs, leafWR g.leaf = true ∧ leafREM g.leaf = false ∧
      leafCXL g.leaf = false ∧ leafTSO g.leaf = false ∧ leafCMP g.leaf = false ∧ leafRDW g.leaf = false ∧ leafCAU g.leaf = false := by
  simp only [Mach.plainArea] at h
  split at h
  · cases h
  rename_i ha
  split at h
  · cases h
  rename_i l hl
  split at h
  · rename_i hall
    cases h
    refine ⟨by simpa using ha, hl, fun g hg => ?_⟩
    have := (List.all_eq_true.mp hall) g hg
    simp only [Bool.and_eq_true, Bool.not_eq_true'] at this
    obtain ⟨⟨⟨⟨⟨⟨h1, h2⟩, h3⟩, h4⟩, h5⟩, h6⟩, h7⟩ := this
    exact ⟨h1, h2, h3, h4, h5, h6, h7⟩
  · cases h

/-! ### Taking an exception and returning from one -/

@[simp] theorem Mach.stopRun_cores (m : Mach) (r : Nat) (k : Option Nat) : (m.stopRun r k).cores = m.cores := by
  cases h : m.runStopped r <;> simp [Mach.stopRun, h]
@[simp] theorem Mach.stopRun_tails (m : Mach) (r : Nat) (k : Option Nat) : (m.stopRun r k).tails = m.tails := by
  cases h : m.runStopped r <;> simp [Mach.stopRun, h]
@[simp] theorem Mach.stopRun_mem (m : Mach) (r : Nat) (k : Option Nat) : (m.stopRun r k).mem = m.mem := by
  cases h : m.runStopped r <;> simp [Mach.stopRun, h]
@[simp] theorem Mach.stopRun_streams (m : Mach) (r : Nat) (k : Option Nat) : (m.stopRun r k).streams = m.streams := by
  cases h : m.runStopped r <;> simp [Mach.stopRun, h]
@[simp] theorem Mach.stopRun_teams (m : Mach) (r : Nat) (k : Option Nat) : (m.stopRun r k).teams = m.teams := by
  cases h : m.runStopped r <;> simp [Mach.stopRun, h]
@[simp] theorem Mach.stopRun_pkg (m : Mach) (r : Nat) (k : Option Nat) : (m.stopRun r k).pkg = m.pkg := by
  cases h : m.runStopped r <;> simp [Mach.stopRun, h]
@[simp] theorem Mach.stopRun_locq (m : Mach) (r : Nat) (k : Option Nat) : (m.stopRun r k).locq = m.locq := by
  cases h : m.runStopped r <;> simp [Mach.stopRun, h]
@[simp] theorem Mach.stopRun_rets (m : Mach) (r : Nat) (k : Option Nat) : (m.stopRun r k).rets = m.rets := by
  cases h : m.runStopped r <;> simp [Mach.stopRun, h]
@[simp] theorem Mach.stopRun_gops (m : Mach) (r : Nat) (k : Option Nat) : (m.stopRun r k).gops = m.gops := by
  cases h : m.runStopped r <;> simp [Mach.stopRun, h]
@[simp] theorem Mach.stopRun_ops (m : Mach) (r : Nat) (k : Option Nat) : (m.stopRun r k).ops = m.ops := by
  cases h : m.runStopped r <;> simp [Mach.stopRun, h]
@[simp] theorem Mach.stopRun_net (m : Mach) (r : Nat) (k : Option Nat) : (m.stopRun r k).net = m.net := by
  cases h : m.runStopped r <;> simp [Mach.stopRun, h]
@[simp] theorem Mach.stopRun_out (m : Mach) (r : Nat) (k : Option Nat) : (m.stopRun r k).out = m.out := by
  cases h : m.runStopped r <;> simp [Mach.stopRun, h]
@[simp] theorem Mach.stopRun_wire (m : Mach) (r : Nat) (k : Option Nat) : (m.stopRun r k).wire = m.wire := by
  cases h : m.runStopped r <;> simp [Mach.stopRun, h]
@[simp] theorem Mach.stopRun_comps (m : Mach) (r : Nat) (k : Option Nat) : (m.stopRun r k).comps = m.comps := by
  cases h : m.runStopped r <;> simp [Mach.stopRun, h]
@[simp] theorem Mach.stopRun_cyc (m : Mach) (r : Nat) (k : Option Nat) : (m.stopRun r k).cyc = m.cyc := by
  cases h : m.runStopped r <;> simp [Mach.stopRun, h]
@[simp] theorem Mach.stopRun_turn (m : Mach) (r : Nat) (k : Option Nat) : (m.stopRun r k).turn = m.turn := by
  cases h : m.runStopped r <;> simp [Mach.stopRun, h]
@[simp] theorem Mach.stopRun_first (m : Mach) (r : Nat) (k : Option Nat) : (m.stopRun r k).first = m.first := by
  cases h : m.runStopped r <;> simp [Mach.stopRun, h]
@[simp] theorem Mach.stopRun_nextId (m : Mach) (r : Nat) (k : Option Nat) : (m.stopRun r k).nextId = m.nextId := by
  cases h : m.runStopped r <;> simp [Mach.stopRun, h]
@[simp] theorem Mach.stopRun_tick (m : Mach) (r : Nat) (k : Option Nat) : (m.stopRun r k).tick = m.tick := by
  cases h : m.runStopped r <;> simp [Mach.stopRun, h]

@[simp] theorem Mach.doubleFault_cores (m : Mach) (x : Nat) : (m.doubleFault x).cores = m.cores := by simp [Mach.doubleFault]
@[simp] theorem Mach.doubleFault_tails (m : Mach) (x : Nat) : (m.doubleFault x).tails = m.tails := by simp [Mach.doubleFault]
@[simp] theorem Mach.doubleFault_mem (m : Mach) (x : Nat) : (m.doubleFault x).mem = m.mem := by simp [Mach.doubleFault]
@[simp] theorem Mach.doubleFault_streams (m : Mach) (x : Nat) : (m.doubleFault x).streams = m.streams := by simp [Mach.doubleFault]
@[simp] theorem Mach.doubleFault_teams (m : Mach) (x : Nat) : (m.doubleFault x).teams = m.teams := by simp [Mach.doubleFault]
@[simp] theorem Mach.doubleFault_pkg (m : Mach) (x : Nat) : (m.doubleFault x).pkg = m.pkg := by simp [Mach.doubleFault]
@[simp] theorem Mach.doubleFault_locq (m : Mach) (x : Nat) : (m.doubleFault x).locq = m.locq := by simp [Mach.doubleFault]
@[simp] theorem Mach.doubleFault_rets (m : Mach) (x : Nat) : (m.doubleFault x).rets = m.rets := by simp [Mach.doubleFault]
@[simp] theorem Mach.doubleFault_gops (m : Mach) (x : Nat) : (m.doubleFault x).gops = m.gops := by simp [Mach.doubleFault]
@[simp] theorem Mach.doubleFault_ops (m : Mach) (x : Nat) : (m.doubleFault x).ops = m.ops := by simp [Mach.doubleFault]
@[simp] theorem Mach.doubleFault_net (m : Mach) (x : Nat) : (m.doubleFault x).net = m.net := by simp [Mach.doubleFault]
@[simp] theorem Mach.doubleFault_out (m : Mach) (x : Nat) : (m.doubleFault x).out = m.out := by simp [Mach.doubleFault]
@[simp] theorem Mach.doubleFault_wire (m : Mach) (x : Nat) : (m.doubleFault x).wire = m.wire := by simp [Mach.doubleFault]
@[simp] theorem Mach.doubleFault_comps (m : Mach) (x : Nat) : (m.doubleFault x).comps = m.comps := by simp [Mach.doubleFault]
@[simp] theorem Mach.doubleFault_cyc (m : Mach) (x : Nat) : (m.doubleFault x).cyc = m.cyc := by simp [Mach.doubleFault]
@[simp] theorem Mach.doubleFault_turn (m : Mach) (x : Nat) : (m.doubleFault x).turn = m.turn := by simp [Mach.doubleFault]
@[simp] theorem Mach.doubleFault_first (m : Mach) (x : Nat) : (m.doubleFault x).first = m.first := by simp [Mach.doubleFault]
@[simp] theorem Mach.doubleFault_nextId (m : Mach) (x : Nat) : (m.doubleFault x).nextId = m.nextId := by simp [Mach.doubleFault]
@[simp] theorem Mach.doubleFault_tick (m : Mach) (x : Nat) : (m.doubleFault x).tick = m.tick := by simp [Mach.doubleFault]

/-- A run that has stopped keeps its state (R315). -/
theorem Mach.doubleFault_stopped {m : Mach} {x : Nat} (h : m.runStopped (m.ctx x).rid = true) : m.doubleFault x = m := by
  simp [Mach.doubleFault, Mach.stopRun, h]

/-- Any other double fault interrupts the host (R315). -/
theorem Mach.doubleFault_irqs {m : Mach} {x : Nat} (h : m.runStopped (m.ctx x).rid = false) :
    (m.doubleFault x).irqs = m.irqs ++ [m.pkg.vector 1] := by
  simp [Mach.doubleFault, Mach.stopRun, h]

/-- Taking an exception is a double fault, or it writes the record and begins the handler (R311, R315). -/
theorem Mach.enter_cases (m : Mach) (x : Nat) (fpc tc ta : W64) :
    (((m.ctx x).trp.handler = true ∨ m.plainArea x (m.ctx x).trp.trec 4096 = none) ∧ m.enter x fpc tc ta = m.doubleFault x) ∨
    (∃ segs, (m.ctx x).trp.handler = false ∧ m.plainArea x (m.ctx x).trp.trec 4096 = some segs ∧ m.enter x fpc tc ta =
      ((m.storeSegs segs (m.recordBytes (m.ctx x) fpc tc ta)).modCtx x (fun d => d.inHandler m.nextId tc ta)).boundary x) := by
  unfold Mach.enter
  by_cases hh : (m.ctx x).trp.handler = true
  · exact .inl ⟨.inl hh, by simp [hh]⟩
  · cases hp : m.plainArea x (m.ctx x).trp.trec 4096 with
    | none => exact .inl ⟨.inr rfl, by simp [hh, hp]⟩
    | some segs => exact .inr ⟨segs, by simpa using hh, rfl, by simp [hh, hp]⟩

/-- Taking an exception keeps memory's canonical form. -/
theorem wf_enter {m : Mach} (x : Nat) (fpc tc ta : W64) (h : Memory.wf m.mem = true) : Memory.wf (m.enter x fpc tc ta).mem = true := by
  obtain ⟨-, e⟩ | ⟨segs, -, -, e⟩ := m.enter_cases x fpc tc ta
  · rw [e]; exact (m.doubleFault_mem x).symm ▸ h
  · rw [e]; exact wf_storeSegs segs _ h

/-- A fault at an issue is a double fault in a handler; else it is reported, and delivered where the context has a team (R315 to R317). -/
theorem Mach.faultAt_cases (m : Mach) (x no : Nat) (pc cause addr : W64) :
    ((m.ctx x).trp.handler = true ∧ m.faultAt x no pc cause addr = m.doubleFault x) ∨
    ((m.ctx x).trp.handler = false ∧ (m.report x no pc cause addr).team? (m.ctx x).rid (clusterOf x) = none ∧
      m.faultAt x no pc cause addr = m) ∨
    (∃ t, (m.ctx x).trp.handler = false ∧ (m.report x no pc cause addr).team? (m.ctx x).rid (clusterOf x) = some t ∧
      m.faultAt x no pc cause addr = (m.report x no pc cause addr).deliver t) := by
  unfold Mach.faultAt
  by_cases hh : (m.ctx x).trp.handler = true
  · exact .inl ⟨hh, by simp [hh]⟩
  · cases ht : (m.report x no pc cause addr).team? (m.ctx x).rid (clusterOf x) with
    | none => exact .inr (.inl ⟨by simpa using hh, rfl, by simp [hh, ht]⟩)
    | some t => exact .inr (.inr ⟨t, by simpa using hh, rfl, by simp [hh, ht]⟩)

/-- Trap return is a double fault, or the context takes its state from the record (R314, R315). -/
theorem Mach.trapReturn_ctx (m : Mach) (x : Nat) :
    ((m.plainArea x (m.ctx x).trp.trec 4096 = none ∨ ∃ segs, m.plainArea x (m.ctx x).trp.trec 4096 = some segs ∧
        ctlValid (m.segBytes segs) = false) ∧ m.trapReturn x = m.doubleFault x) ∨
    (∃ segs, m.plainArea x (m.ctx x).trp.trec 4096 = some segs ∧ ctlValid (m.segBytes segs) = true ∧
      ∃ t, m.trapReturn x = t ∧ t.mem = m.mem) := by
  have hb : ∀ (l : List Nat) (a : Mach), (l.foldl (fun (acc : Mach) y => acc.boundary y) a).mem = a.mem := by
    intro l
    induction l with
    | nil => intro a; rfl
    | cons y r ih => intro a; exact ih (a.boundary y)
  cases hp : m.plainArea x (m.ctx x).trp.trec 4096 with
  | none => exact .inl ⟨.inl rfl, by simp [Mach.trapReturn, hp]⟩
  | some segs =>
    by_cases hv : ctlValid (m.segBytes segs) = true
    · refine .inr ⟨segs, rfl, hv, _, rfl, ?_⟩
      simp only [Mach.trapReturn, hp, hv, if_true]
      cases ht : m.team? (m.ctx x).rid (clusterOf x) with
      | none => rfl
      | some t =>
        by_cases hs : (t.serving == some x) = true
        · simp only [hs, if_true]
          exact hb t.ctxs _
        · simp [hs]
    · exact .inl ⟨.inr ⟨segs, rfl, by simpa using hv⟩, by simp [Mach.trapReturn, hp, hv]⟩

/-! ### The words of the memory slots -/

/-- A trap or a fault that a word finds answers a next state: that of `fail`. -/
theorem State.raise_next (s : State) (c : Cause) : s.raise c = .next (s.fail c s.iss.slot 0) := rfl

@[simp] theorem State.fail_old (s : State) (c : Cause) (slot check : Nat) : (s.fail c slot check).old = s.old := rfl
@[simp] theorem State.fail_agenda (s : State) (c : Cause) (slot check : Nat) : (s.fail c slot check).agenda = s.agenda := rfl
@[simp] theorem State.fail_trapped (s : State) (c : Cause) (slot check : Nat) : (s.fail c slot check).iss.trapped = true := rfl

@[simp] theorem State.produce_mem (s : State) (id : Nat) : (s.produce id).m.mem = s.m.mem := by
  unfold State.produce
  split <;> rfl

/-- A fresh operation changes no memory. -/
@[simp] theorem State.operation_mem (s : State) : s.operation.2.m.mem = s.m.mem := State.produce_mem _ _

/-- A local access that issues changes no memory: it joins the queue of its team. -/
@[simp] theorem State.localOp_mem (s : State) (act : LocalAct) (dest : Dest) : (s.localOp act dest).m.mem = s.m.mem := s.operation_mem

/-- An LG read that issues changes no memory: it joins the operations in flight. -/
@[simp] theorem State.lgRead_mem (s : State) (segs : List Seg) (dest : Dest) : (s.lgRead segs dest).m.mem = s.m.mem := s.operation_mem

/-- What a load word does: nothing to read, a trap or a fault, a global read, a local read (R168, R172). -/
theorem State.loadWord_next {s t : State} {sp : Space} {i : Instr} {n align : Nat} {dest : Dest} {busy : List RegId}
    (h : s.loadWord sp i n align dest busy = .next t) :
    (n = 0 ∧ t = s.nullOp) ∨ (n ≠ 0 ∧ ∃ c, t = s.fail c s.iss.slot 0) ∨
    (n ≠ 0 ∧ sp = .lg ∧ ∃ segs, s.old.access s.cx .load (s.wordAddr i) n align = .ok segs ∧ t = (s.lgRead segs dest).pendAll busy) ∨
    (n ≠ 0 ∧ sp ≠ .lg ∧ ∃ loc, s.old.local_ s.cx sp (s.wordAddr i) n align = .ok loc ∧
      t = (s.localOp (.load [(loc, n)]) dest).pendAll busy) := by
  simp only [State.loadWord] at h
  split at h
  · rename_i hn
    cases h; exact .inl ⟨hn, rfl⟩
  rename_i hn
  split at h
  · rename_i hsp
    split at h
    · cases h; exact .inr (.inl ⟨hn, _, rfl⟩)
    · rename_i segs hs
      cases h; exact .inr (.inr (.inl ⟨hn, hsp, segs, hs, rfl⟩))
  · rename_i hsp
    split at h
    · cases h; exact .inr (.inl ⟨hn, _, rfl⟩)
    · rename_i loc hl
      cases h; exact .inr (.inr (.inr ⟨hn, hsp, loc, hl, rfl⟩))

/-- What a store word does: nothing to write, a trap or a fault, global stores, a local store (R168, R173). -/
theorem State.storeWord_next {s t : State} {sp : Space} {i : Instr} {bs : List Byte} {align : Nat}
    (h : s.storeWord sp i bs align = .next t) :
    (bs = [] ∧ t = s.nullOp) ∨ (bs ≠ [] ∧ ∃ c, t = s.fail c s.iss.slot 0) ∨
    (bs ≠ [] ∧ sp = .lg ∧ ∃ segs, s.old.access s.cx .store (s.wordAddr i) bs.length align = .ok segs ∧ t = s.lgStore (storeParts bs segs)) ∨
    (bs ≠ [] ∧ sp ≠ .lg ∧ ∃ loc, s.old.local_ s.cx sp (s.wordAddr i) bs.length align = .ok loc ∧
      t = s.localOp (.store [(loc, bs)]) .none) := by
  simp only [State.storeWord] at h
  split at h
  · rename_i hn
    cases h; exact .inl ⟨by simpa using hn, rfl⟩
  rename_i hn
  have hn' : bs ≠ [] := by simpa using hn
  split at h
  · rename_i hsp
    split at h
    · cases h; exact .inr (.inl ⟨hn', _, rfl⟩)
    · rename_i segs hs
      cases h; exact .inr (.inr (.inl ⟨hn', hsp, segs, hs, rfl⟩))
  · rename_i hsp
    split at h
    · cases h; exact .inr (.inl ⟨hn', _, rfl⟩)
    · rename_i loc hl
      cases h; exact .inr (.inr (.inr ⟨hn', hsp, loc, hl, rfl⟩))

end Sys2Proof.Machine
end

