-- ==== Sys2Proof/Laws/PerInstr.lean ====
section
/-! SUPPORT. One lemma for each instruction: its opcode and operand field, put together as the tables say, decode to it in every slot map
that holds it (R83 to R96). An event is in no map. -/

namespace Sys2Proof.Laws.F

set_option Elab.async false

/-- In each slot map that holds it, an instruction other than the NOP is what its opcode and operand field decode to. -/
def Statement (i : Instr) : Prop := ∀ sm : SlotMap, i.inMap sm = true → i ≠ .nop → decodeOp sm i.op i.operand = .ok i

theorem addS64 (y0 : BitVec 6) (y1 : BitVec 6) (y2 : BitVec 6) : Statement (.addS64 y0 y1 y2) := fun sm h _ => by
  obtain rfl : sm = .s := eq_of_beq h
  exact shape17 .addS64 y0 y1 y2
theorem subS64 (y0 : BitVec 6) (y1 : BitVec 6) (y2 : BitVec 6) : Statement (.subS64 y0 y1 y2) := fun sm h _ => by
  obtain rfl : sm = .s := eq_of_beq h
  exact shape17 .subS64 y0 y1 y2
theorem mulS64 (y0 : BitVec 6) (y1 : BitVec 6) (y2 : BitVec 6) : Statement (.mulS64 y0 y1 y2) := fun sm h _ => by
  obtain rfl : sm = .s := eq_of_beq h
  exact shape17 .mulS64 y0 y1 y2
theorem mulhS64 (y0 : BitVec 6) (y1 : BitVec 6) (y2 : BitVec 6) : Statement (.mulhS64 y0 y1 y2) := fun sm h _ => by
  obtain rfl : sm = .s := eq_of_beq h
  exact shape17 .mulhS64 y0 y1 y2
theorem mulhZ64 (y0 : BitVec 6) (y1 : BitVec 6) (y2 : BitVec 6) : Statement (.mulhZ64 y0 y1 y2) := fun sm h _ => by
  obtain rfl : sm = .s := eq_of_beq h
  exact shape17 .mulhZ64 y0 y1 y2
theorem andZ64 (y0 : BitVec 6) (y1 : BitVec 6) (y2 : BitVec 6) : Statement (.andZ64 y0 y1 y2) := fun sm h _ => by
  obtain rfl : sm = .s := eq_of_beq h
  exact shape17 .andZ64 y0 y1 y2
theorem orZ64 (y0 : BitVec 6) (y1 : BitVec 6) (y2 : BitVec 6) : Statement (.orZ64 y0 y1 y2) := fun sm h _ => by
  obtain rfl : sm = .s := eq_of_beq h
  exact shape17 .orZ64 y0 y1 y2
theorem addS64Imm (y0 : BitVec 6) (y1 : BitVec 6) (y2 : BitVec 8) : Statement (.addS64Imm y0 y1 y2) := fun sm h _ => by
  obtain rfl : sm = .s := eq_of_beq h
  exact shape18 .addS64Imm y0 y1 y2
theorem andZ64Imm (y0 : BitVec 6) (y1 : BitVec 6) (y2 : BitVec 8) : Statement (.andZ64Imm y0 y1 y2) := fun sm h _ => by
  obtain rfl : sm = .s := eq_of_beq h
  exact shape18 .andZ64Imm y0 y1 y2
theorem orZ64Imm (y0 : BitVec 6) (y1 : BitVec 6) (y2 : BitVec 8) : Statement (.orZ64Imm y0 y1 y2) := fun sm h _ => by
  obtain rfl : sm = .s := eq_of_beq h
  exact shape18 .orZ64Imm y0 y1 y2
theorem xorZ64Imm (y0 : BitVec 6) (y1 : BitVec 6) (y2 : BitVec 8) : Statement (.xorZ64Imm y0 y1 y2) := fun sm h _ => by
  obtain rfl : sm = .s := eq_of_beq h
  exact shape18 .xorZ64Imm y0 y1 y2
theorem liS64 (y0 : BitVec 6) (y1 : BitVec 5) : Statement (.liS64 y0 y1) := fun sm h _ => by
  obtain rfl : sm = .s := eq_of_beq h
  exact shape19 .liS64 y0 y1
theorem li64 (y0 : BitVec 6) (y1 : BitVec 5) : Statement (.li64 y0 y1) := fun sm h _ => by
  obtain rfl : sm = .s := eq_of_beq h
  exact shape19 .li64 y0 y1
theorem xorZ64 (y0 : BitVec 6) (y1 : BitVec 6) (y2 : BitVec 6) : Statement (.xorZ64 y0 y1 y2) := fun sm h _ => by
  obtain rfl : sm = .s := eq_of_beq h
  exact shape17 .xorZ64 y0 y1 y2
theorem shlZ64Imm (y0 : BitVec 6) (y1 : BitVec 6) (y2 : BitVec 6) : Statement (.shlZ64Imm y0 y1 y2) := fun sm h _ => by
  obtain rfl : sm = .s := eq_of_beq h
  exact shape20 .shlZ64Imm y0 y1 y2
theorem shrZ64Imm (y0 : BitVec 6) (y1 : BitVec 6) (y2 : BitVec 6) : Statement (.shrZ64Imm y0 y1 y2) := fun sm h _ => by
  obtain rfl : sm = .s := eq_of_beq h
  exact shape20 .shrZ64Imm y0 y1 y2
theorem asrS64Imm (y0 : BitVec 6) (y1 : BitVec 6) (y2 : BitVec 6) : Statement (.asrS64Imm y0 y1 y2) := fun sm h _ => by
  obtain rfl : sm = .s := eq_of_beq h
  exact shape20 .asrS64Imm y0 y1 y2
theorem shlZ64 (y0 : BitVec 6) (y1 : BitVec 6) (y2 : BitVec 6) : Statement (.shlZ64 y0 y1 y2) := fun sm h _ => by
  obtain rfl : sm = .s := eq_of_beq h
  exact shape17 .shlZ64 y0 y1 y2
theorem shrZ64 (y0 : BitVec 6) (y1 : BitVec 6) (y2 : BitVec 6) : Statement (.shrZ64 y0 y1 y2) := fun sm h _ => by
  obtain rfl : sm = .s := eq_of_beq h
  exact shape17 .shrZ64 y0 y1 y2
theorem asrS64 (y0 : BitVec 6) (y1 : BitVec 6) (y2 : BitVec 6) : Statement (.asrS64 y0 y1 y2) := fun sm h _ => by
  obtain rfl : sm = .s := eq_of_beq h
  exact shape17 .asrS64 y0 y1 y2
theorem minS64 (y0 : BitVec 6) (y1 : BitVec 6) (y2 : BitVec 6) : Statement (.minS64 y0 y1 y2) := fun sm h _ => by
  obtain rfl : sm = .s := eq_of_beq h
  exact shape17 .minS64 y0 y1 y2
theorem maxS64 (y0 : BitVec 6) (y1 : BitVec 6) (y2 : BitVec 6) : Statement (.maxS64 y0 y1 y2) := fun sm h _ => by
  obtain rfl : sm = .s := eq_of_beq h
  exact shape17 .maxS64 y0 y1 y2
theorem minZ64 (y0 : BitVec 6) (y1 : BitVec 6) (y2 : BitVec 6) : Statement (.minZ64 y0 y1 y2) := fun sm h _ => by
  obtain rfl : sm = .s := eq_of_beq h
  exact shape17 .minZ64 y0 y1 y2
theorem maxZ64 (y0 : BitVec 6) (y1 : BitVec 6) (y2 : BitVec 6) : Statement (.maxZ64 y0 y1 y2) := fun sm h _ => by
  obtain rfl : sm = .s := eq_of_beq h
  exact shape17 .maxZ64 y0 y1 y2
theorem divS64 (y0 : BitVec 6) (y1 : BitVec 6) (y2 : BitVec 6) : Statement (.divS64 y0 y1 y2) := fun sm h _ => by
  obtain rfl : sm = .s := eq_of_beq h
  exact shape17 .divS64 y0 y1 y2
theorem divZ64 (y0 : BitVec 6) (y1 : BitVec 6) (y2 : BitVec 6) : Statement (.divZ64 y0 y1 y2) := fun sm h _ => by
  obtain rfl : sm = .s := eq_of_beq h
  exact shape17 .divZ64 y0 y1 y2
theorem remS64 (y0 : BitVec 6) (y1 : BitVec 6) (y2 : BitVec 6) : Statement (.remS64 y0 y1 y2) := fun sm h _ => by
  obtain rfl : sm = .s := eq_of_beq h
  exact shape17 .remS64 y0 y1 y2
theorem remZ64 (y0 : BitVec 6) (y1 : BitVec 6) (y2 : BitVec 6) : Statement (.remZ64 y0 y1 y2) := fun sm h _ => by
  obtain rfl : sm = .s := eq_of_beq h
  exact shape17 .remZ64 y0 y1 y2
theorem bfxZ64 (y0 : BitVec 6) (y1 : BitVec 6) (y2 : BitVec 5) : Statement (.bfxZ64 y0 y1 y2) := fun sm h _ => by
  obtain rfl : sm = .s := eq_of_beq h
  exact shape21 .bfxZ64 y0 y1 y2
theorem bfxS64 (y0 : BitVec 6) (y1 : BitVec 6) (y2 : BitVec 5) : Statement (.bfxS64 y0 y1 y2) := fun sm h _ => by
  obtain rfl : sm = .s := eq_of_beq h
  exact shape21 .bfxS64 y0 y1 y2
theorem cmpLtS64 (y0 : BitVec 4) (y1 : BitVec 6) (y2 : BitVec 6) : Statement (.cmpLtS64 y0 y1 y2) := fun sm h _ => by
  obtain rfl : sm = .s := eq_of_beq h
  exact shape22 .cmpLtS64 y0 y1 y2
theorem cmpEqS64 (y0 : BitVec 4) (y1 : BitVec 6) (y2 : BitVec 6) : Statement (.cmpEqS64 y0 y1 y2) := fun sm h _ => by
  obtain rfl : sm = .s := eq_of_beq h
  exact shape22 .cmpEqS64 y0 y1 y2
theorem cmpLeS64 (y0 : BitVec 4) (y1 : BitVec 6) (y2 : BitVec 6) : Statement (.cmpLeS64 y0 y1 y2) := fun sm h _ => by
  obtain rfl : sm = .s := eq_of_beq h
  exact shape22 .cmpLeS64 y0 y1 y2
theorem cmpNeS64 (y0 : BitVec 4) (y1 : BitVec 6) (y2 : BitVec 6) : Statement (.cmpNeS64 y0 y1 y2) := fun sm h _ => by
  obtain rfl : sm = .s := eq_of_beq h
  exact shape22 .cmpNeS64 y0 y1 y2
theorem cmpLtZ64 (y0 : BitVec 4) (y1 : BitVec 6) (y2 : BitVec 6) : Statement (.cmpLtZ64 y0 y1 y2) := fun sm h _ => by
  obtain rfl : sm = .s := eq_of_beq h
  exact shape22 .cmpLtZ64 y0 y1 y2
theorem cmpLeZ64 (y0 : BitVec 4) (y1 : BitVec 6) (y2 : BitVec 6) : Statement (.cmpLeZ64 y0 y1 y2) := fun sm h _ => by
  obtain rfl : sm = .s := eq_of_beq h
  exact shape22 .cmpLeZ64 y0 y1 y2
theorem bfiZ64 (y0 : BitVec 6) (y1 : BitVec 6) (y2 : BitVec 5) : Statement (.bfiZ64 y0 y1 y2) := fun sm h _ => by
  obtain rfl : sm = .s := eq_of_beq h
  exact shape21 .bfiZ64 y0 y1 y2
theorem cmpLtS64Imm (y0 : BitVec 4) (y1 : BitVec 6) (y2 : BitVec 10) : Statement (.cmpLtS64Imm y0 y1 y2) := fun sm h _ => by
  obtain rfl : sm = .s := eq_of_beq h
  exact shape23 .cmpLtS64Imm y0 y1 y2
theorem cmpEqS64Imm (y0 : BitVec 4) (y1 : BitVec 6) (y2 : BitVec 10) : Statement (.cmpEqS64Imm y0 y1 y2) := fun sm h _ => by
  obtain rfl : sm = .s := eq_of_beq h
  exact shape23 .cmpEqS64Imm y0 y1 y2
theorem cmpLeS64Imm (y0 : BitVec 4) (y1 : BitVec 6) (y2 : BitVec 10) : Statement (.cmpLeS64Imm y0 y1 y2) := fun sm h _ => by
  obtain rfl : sm = .s := eq_of_beq h
  exact shape23 .cmpLeS64Imm y0 y1 y2
theorem cmpNeS64Imm (y0 : BitVec 4) (y1 : BitVec 6) (y2 : BitVec 10) : Statement (.cmpNeS64Imm y0 y1 y2) := fun sm h _ => by
  obtain rfl : sm = .s := eq_of_beq h
  exact shape23 .cmpNeS64Imm y0 y1 y2
theorem cmpLtZ64Imm (y0 : BitVec 4) (y1 : BitVec 6) (y2 : BitVec 10) : Statement (.cmpLtZ64Imm y0 y1 y2) := fun sm h _ => by
  obtain rfl : sm = .s := eq_of_beq h
  exact shape23 .cmpLtZ64Imm y0 y1 y2
theorem cmpLeZ64Imm (y0 : BitVec 4) (y1 : BitVec 6) (y2 : BitVec 10) : Statement (.cmpLeZ64Imm y0 y1 y2) := fun sm h _ => by
  obtain rfl : sm = .s := eq_of_beq h
  exact shape23 .cmpLeZ64Imm y0 y1 y2
theorem fand (y0 : BitVec 4) (y1 : BitVec 4) (y2 : BitVec 4) : Statement (.fand y0 y1 y2) := fun sm h _ => by
  obtain rfl : sm = .s := eq_of_beq h
  exact shape24 .fand y0 y1 y2
theorem fior (y0 : BitVec 4) (y1 : BitVec 4) (y2 : BitVec 4) : Statement (.fior y0 y1 y2) := fun sm h _ => by
  obtain rfl : sm = .s := eq_of_beq h
  exact shape24 .fior y0 y1 y2
theorem fxor (y0 : BitVec 4) (y1 : BitVec 4) (y2 : BitVec 4) : Statement (.fxor y0 y1 y2) := fun sm h _ => by
  obtain rfl : sm = .s := eq_of_beq h
  exact shape24 .fxor y0 y1 y2
theorem fandn (y0 : BitVec 4) (y1 : BitVec 4) (y2 : BitVec 4) : Statement (.fandn y0 y1 y2) := fun sm h _ => by
  obtain rfl : sm = .s := eq_of_beq h
  exact shape24 .fandn y0 y1 y2
theorem fset (y0 : BitVec 4) : Statement (.fset y0) := fun sm h _ => by
  obtain rfl : sm = .s := eq_of_beq h
  exact shape25 .fset y0
theorem fclr (y0 : BitVec 4) : Statement (.fclr y0) := fun sm h _ => by
  obtain rfl : sm = .s := eq_of_beq h
  exact shape25 .fclr y0
theorem movS64Pop (y0 : BitVec 6) (y1 : BitVec 3) : Statement (.movS64Pop y0 y1) := fun sm h _ => by
  obtain rfl : sm = .s := eq_of_beq h
  exact shape26 .movS64Pop y0 y1
theorem movS64Push (y0 : BitVec 6) (y1 : BitVec 3) : Statement (.movS64Push y0 y1) := fun sm h _ => by
  obtain rfl : sm = .s := eq_of_beq h
  exact shape26 .movS64Push y0 y1
theorem popcZ64 (y0 : BitVec 6) (y1 : BitVec 6) : Statement (.popcZ64 y0 y1) := fun sm h _ => by
  obtain rfl : sm = .s := eq_of_beq h
  exact shape11 .popcZ64 y0 y1
theorem clzZ64 (y0 : BitVec 6) (y1 : BitVec 6) : Statement (.clzZ64 y0 y1) := fun sm h _ => by
  obtain rfl : sm = .s := eq_of_beq h
  exact shape11 .clzZ64 y0 y1
theorem ctzZ64 (y0 : BitVec 6) (y1 : BitVec 6) : Statement (.ctzZ64 y0 y1) := fun sm h _ => by
  obtain rfl : sm = .s := eq_of_beq h
  exact shape11 .ctzZ64 y0 y1
theorem cvtF32S64 (y0 : BitVec 6) (y1 : BitVec 6) (y2 : BitVec 3) : Statement (.cvtF32S64 y0 y1 y2) := fun sm h _ => by
  obtain rfl : sm = .s := eq_of_beq h
  exact shape27 .cvtF32S64 y0 y1 y2
theorem cvtS64F32 (y0 : BitVec 6) (y1 : BitVec 6) (y2 : BitVec 3) : Statement (.cvtS64F32 y0 y1 y2) := fun sm h _ => by
  obtain rfl : sm = .s := eq_of_beq h
  exact shape27 .cvtS64F32 y0 y1 y2
theorem cvtF32Z64 (y0 : BitVec 6) (y1 : BitVec 6) (y2 : BitVec 3) : Statement (.cvtF32Z64 y0 y1 y2) := fun sm h _ => by
  obtain rfl : sm = .s := eq_of_beq h
  exact shape27 .cvtF32Z64 y0 y1 y2
theorem cvtZ64F32 (y0 : BitVec 6) (y1 : BitVec 6) (y2 : BitVec 3) : Statement (.cvtZ64F32 y0 y1 y2) := fun sm h _ => by
  obtain rfl : sm = .s := eq_of_beq h
  exact shape27 .cvtZ64F32 y0 y1 y2
theorem ld (y0 : Space) (y1 : BitVec 5) (y2 : BitVec 6) (y3 : BitVec 9) : Statement (.ld y0 y1 y2 y3) := fun sm h _ => by
  obtain rfl : sm = .mem y0 := eq_of_beq h
  exact shape28 (.ld y0) y1 y2 y3
theorem st (y0 : Space) (y1 : BitVec 5) (y2 : BitVec 6) (y3 : BitVec 9) : Statement (.st y0 y1 y2 y3) := fun sm h _ => by
  obtain rfl : sm = .mem y0 := eq_of_beq h
  exact shape28 (.st y0) y1 y2 y3
theorem ldm (y0 : Space) (y1 : BitVec 3) (y2 : BitVec 6) (y3 : BitVec 9) : Statement (.ldm y0 y1 y2 y3) := fun sm h _ => by
  obtain rfl : sm = .mem y0 := eq_of_beq h
  exact shape29 (.ldm y0) y1 y2 y3
theorem stm (y0 : Space) (y1 : BitVec 3) (y2 : BitVec 6) (y3 : BitVec 9) : Statement (.stm y0 y1 y2 y3) := fun sm h _ => by
  obtain rfl : sm = .mem y0 := eq_of_beq h
  exact shape29 (.stm y0) y1 y2 y3
theorem pfLg (y0 : BitVec 6) (y1 : BitVec 9) : Statement (.pfLg y0 y1) := fun sm h _ => by
  obtain rfl : sm = .mem .lg := eq_of_beq h
  exact shape30 .pfLg y0 y1
theorem ldt (y0 : Space) (y1 : BitVec 5) (y2 : BitVec 6) (y3 : BitVec 6) : Statement (.ldt y0 y1 y2 y3) := fun sm h _ => by
  obtain rfl : sm = .mem y0 := eq_of_beq h
  exact shape31 (.ldt y0) y1 y2 y3
theorem stt (y0 : Space) (y1 : BitVec 5) (y2 : BitVec 6) (y3 : BitVec 6) : Statement (.stt y0 y1 y2 y3) := fun sm h _ => by
  obtain rfl : sm = .mem y0 := eq_of_beq h
  exact shape31 (.stt y0) y1 y2 y3
theorem ldsS8 (y0 : Space) (y1 : BitVec 6) (y2 : BitVec 6) (y3 : BitVec 8) : Statement (.ldsS8 y0 y1 y2 y3) := fun sm h _ => by
  obtain rfl : sm = .mem y0 := eq_of_beq h
  exact shape18 (.ldsS8 y0) y1 y2 y3
theorem ldsZ8 (y0 : Space) (y1 : BitVec 6) (y2 : BitVec 6) (y3 : BitVec 8) : Statement (.ldsZ8 y0 y1 y2 y3) := fun sm h _ => by
  obtain rfl : sm = .mem y0 := eq_of_beq h
  exact shape18 (.ldsZ8 y0) y1 y2 y3
theorem ldsS16 (y0 : Space) (y1 : BitVec 6) (y2 : BitVec 6) (y3 : BitVec 8) : Statement (.ldsS16 y0 y1 y2 y3) := fun sm h _ => by
  obtain rfl : sm = .mem y0 := eq_of_beq h
  exact shape18 (.ldsS16 y0) y1 y2 y3
theorem ldsZ16 (y0 : Space) (y1 : BitVec 6) (y2 : BitVec 6) (y3 : BitVec 8) : Statement (.ldsZ16 y0 y1 y2 y3) := fun sm h _ => by
  obtain rfl : sm = .mem y0 := eq_of_beq h
  exact shape18 (.ldsZ16 y0) y1 y2 y3
theorem ldsS32 (y0 : Space) (y1 : BitVec 6) (y2 : BitVec 6) (y3 : BitVec 8) : Statement (.ldsS32 y0 y1 y2 y3) := fun sm h _ => by
  obtain rfl : sm = .mem y0 := eq_of_beq h
  exact shape18 (.ldsS32 y0) y1 y2 y3
theorem ldsZ32 (y0 : Space) (y1 : BitVec 6) (y2 : BitVec 6) (y3 : BitVec 8) : Statement (.ldsZ32 y0 y1 y2 y3) := fun sm h _ => by
  obtain rfl : sm = .mem y0 := eq_of_beq h
  exact shape18 (.ldsZ32 y0) y1 y2 y3
theorem ldsS64 (y0 : Space) (y1 : BitVec 6) (y2 : BitVec 6) (y3 : BitVec 8) : Statement (.ldsS64 y0 y1 y2 y3) := fun sm h _ => by
  obtain rfl : sm = .mem y0 := eq_of_beq h
  exact shape18 (.ldsS64 y0) y1 y2 y3
theorem stsZ8 (y0 : Space) (y1 : BitVec 6) (y2 : BitVec 6) (y3 : BitVec 8) : Statement (.stsZ8 y0 y1 y2 y3) := fun sm h _ => by
  obtain rfl : sm = .mem y0 := eq_of_beq h
  exact shape18 (.stsZ8 y0) y1 y2 y3
theorem stsZ16 (y0 : Space) (y1 : BitVec 6) (y2 : BitVec 6) (y3 : BitVec 8) : Statement (.stsZ16 y0 y1 y2 y3) := fun sm h _ => by
  obtain rfl : sm = .mem y0 := eq_of_beq h
  exact shape18 (.stsZ16 y0) y1 y2 y3
theorem stsZ32 (y0 : Space) (y1 : BitVec 6) (y2 : BitVec 6) (y3 : BitVec 8) : Statement (.stsZ32 y0 y1 y2 y3) := fun sm h _ => by
  obtain rfl : sm = .mem y0 := eq_of_beq h
  exact shape18 (.stsZ32 y0) y1 y2 y3
theorem stsZ64 (y0 : Space) (y1 : BitVec 6) (y2 : BitVec 6) (y3 : BitVec 8) : Statement (.stsZ64 y0 y1 y2 y3) := fun sm h _ => by
  obtain rfl : sm = .mem y0 := eq_of_beq h
  exact shape18 (.stsZ64 y0) y1 y2 y3
theorem aaddS64 (y0 : Space) (y1 : BitVec 6) (y2 : BitVec 6) (y3 : BitVec 6) : Statement (.aaddS64 y0 y1 y2 y3) := fun sm h _ => by
  obtain rfl : sm = .mem y0 := eq_of_beq h
  exact shape17 (.aaddS64 y0) y1 y2 y3
theorem aminS64 (y0 : Space) (y1 : BitVec 6) (y2 : BitVec 6) (y3 : BitVec 6) : Statement (.aminS64 y0 y1 y2 y3) := fun sm h _ => by
  obtain rfl : sm = .mem y0 := eq_of_beq h
  exact shape17 (.aminS64 y0) y1 y2 y3
theorem amaxS64 (y0 : Space) (y1 : BitVec 6) (y2 : BitVec 6) (y3 : BitVec 6) : Statement (.amaxS64 y0 y1 y2 y3) := fun sm h _ => by
  obtain rfl : sm = .mem y0 := eq_of_beq h
  exact shape17 (.amaxS64 y0) y1 y2 y3
theorem aandZ64 (y0 : Space) (y1 : BitVec 6) (y2 : BitVec 6) (y3 : BitVec 6) : Statement (.aandZ64 y0 y1 y2 y3) := fun sm h _ => by
  obtain rfl : sm = .mem y0 := eq_of_beq h
  exact shape17 (.aandZ64 y0) y1 y2 y3
theorem aorZ64 (y0 : Space) (y1 : BitVec 6) (y2 : BitVec 6) (y3 : BitVec 6) : Statement (.aorZ64 y0 y1 y2 y3) := fun sm h _ => by
  obtain rfl : sm = .mem y0 := eq_of_beq h
  exact shape17 (.aorZ64 y0) y1 y2 y3
theorem axorZ64 (y0 : Space) (y1 : BitVec 6) (y2 : BitVec 6) (y3 : BitVec 6) : Statement (.axorZ64 y0 y1 y2 y3) := fun sm h _ => by
  obtain rfl : sm = .mem y0 := eq_of_beq h
  exact shape17 (.axorZ64 y0) y1 y2 y3
theorem aswpZ64 (y0 : Space) (y1 : BitVec 6) (y2 : BitVec 6) (y3 : BitVec 6) : Statement (.aswpZ64 y0 y1 y2 y3) := fun sm h _ => by
  obtain rfl : sm = .mem y0 := eq_of_beq h
  exact shape17 (.aswpZ64 y0) y1 y2 y3
theorem acasZ64 (y0 : Space) (y1 : BitVec 6) (y2 : BitVec 6) (y3 : BitVec 6) : Statement (.acasZ64 y0 y1 y2 y3) := fun sm h _ => by
  obtain rfl : sm = .mem y0 := eq_of_beq h
  exact shape17 (.acasZ64 y0) y1 y2 y3
theorem redAddF32 (y0 : BitVec 5) (y1 : BitVec 6) (y2 : BitVec 9) : Statement (.redAddF32 y0 y1 y2) := fun sm h _ => by
  obtain rfl : sm = .mem .lg := eq_of_beq h
  exact shape28 .redAddF32 y0 y1 y2
theorem redMaxF32 (y0 : BitVec 5) (y1 : BitVec 6) (y2 : BitVec 9) : Statement (.redMaxF32 y0 y1 y2) := fun sm h _ => by
  obtain rfl : sm = .mem .lg := eq_of_beq h
  exact shape28 .redMaxF32 y0 y1 y2
theorem redMinF32 (y0 : BitVec 5) (y1 : BitVec 6) (y2 : BitVec 9) : Statement (.redMinF32 y0 y1 y2) := fun sm h _ => by
  obtain rfl : sm = .mem .lg := eq_of_beq h
  exact shape28 .redMinF32 y0 y1 y2
theorem redAddS32 (y0 : BitVec 5) (y1 : BitVec 6) (y2 : BitVec 9) : Statement (.redAddS32 y0 y1 y2) := fun sm h _ => by
  obtain rfl : sm = .mem .lg := eq_of_beq h
  exact shape28 .redAddS32 y0 y1 y2
theorem redMaxS32 (y0 : BitVec 5) (y1 : BitVec 6) (y2 : BitVec 9) : Statement (.redMaxS32 y0 y1 y2) := fun sm h _ => by
  obtain rfl : sm = .mem .lg := eq_of_beq h
  exact shape28 .redMaxS32 y0 y1 y2
theorem redMinS32 (y0 : BitVec 5) (y1 : BitVec 6) (y2 : BitVec 9) : Statement (.redMinS32 y0 y1 y2) := fun sm h _ => by
  obtain rfl : sm = .mem .lg := eq_of_beq h
  exact shape28 .redMinS32 y0 y1 y2
theorem stLgC (y0 : BitVec 5) (y1 : BitVec 6) (y2 : BitVec 3) : Statement (.stLgC y0 y1 y2) := fun sm h _ => by
  obtain rfl : sm = .mem .lg := eq_of_beq h
  exact shape32 .stLgC y0 y1 y2
theorem stLgK (y0 : BitVec 5) (y1 : BitVec 6) (y2 : BitVec 3) (y3 : BitVec 3) : Statement (.stLgK y0 y1 y2 y3) := fun sm h _ => by
  obtain rfl : sm = .mem .lg := eq_of_beq h
  exact shape33 .stLgK y0 y1 y2 y3
theorem barWait (y0 : Space) (y1 : BitVec 6) (y2 : BitVec 9) (y3 : BitVec 4) : Statement (.barWait y0 y1 y2 y3) := fun sm h _ => by
  obtain rfl : sm = .mem y0 := eq_of_beq h
  exact shape34 (.barWait y0) y1 y2 y3
theorem barArrive (y0 : Space) (y1 : BitVec 6) (y2 : BitVec 9) : Statement (.barArrive y0 y1 y2) := fun sm h _ => by
  obtain rfl : sm = .mem y0 := eq_of_beq h
  exact shape35 (.barArrive y0) y1 y2
theorem barInit (y0 : Space) (y1 : BitVec 6) (y2 : BitVec 9) (y3 : BitVec 5) : Statement (.barInit y0 y1 y2 y3) := fun sm h _ => by
  obtain rfl : sm = .mem y0 := eq_of_beq h
  exact shape36 (.barInit y0) y1 y2 y3
theorem barExp (y0 : Space) (y1 : BitVec 6) (y2 : BitVec 9) (y3 : BitVec 5) : Statement (.barExp y0 y1 y2 y3) := fun sm h _ => by
  obtain rfl : sm = .mem y0 := eq_of_beq h
  exact shape36 (.barExp y0) y1 y2 y3
theorem waitany (y0 : Space) (y1 : BitVec 6) (y2 : BitVec 6) (y3 : BitVec 8) : Statement (.waitany y0 y1 y2 y3) := fun sm h _ => by
  obtain rfl : sm = .mem y0 := eq_of_beq h
  exact shape18 (.waitany y0) y1 y2 y3
theorem waita (y0 : Space) (y1 : BitVec 6) (y2 : BitVec 6) (y3 : BitVec 8) : Statement (.waita y0 y1 y2 y3) := fun sm h _ => by
  obtain rfl : sm = .mem y0 := eq_of_beq h
  exact shape18 (.waita y0) y1 y2 y3
theorem drain : Statement .drain := fun sm h _ => by
  obtain rfl : sm = .mem .lg := eq_of_beq h
  exact rfl
theorem vaddF32 (y0 : BitVec 5) (y1 : BitVec 5) (y2 : BitVec 5) (y3 : BitVec 3) (y4 : BitVec 1) : Statement (.vaddF32 y0 y1 y2 y3 y4) := fun sm h _ => by
  obtain rfl : sm = .v := eq_of_beq h
  exact shape37 .vaddF32 y0 y1 y2 y3 y4
theorem vsubF32 (y0 : BitVec 5) (y1 : BitVec 5) (y2 : BitVec 5) (y3 : BitVec 3) (y4 : BitVec 1) : Statement (.vsubF32 y0 y1 y2 y3 y4) := fun sm h _ => by
  obtain rfl : sm = .v := eq_of_beq h
  exact shape37 .vsubF32 y0 y1 y2 y3 y4
theorem vmulF32 (y0 : BitVec 5) (y1 : BitVec 5) (y2 : BitVec 5) (y3 : BitVec 3) (y4 : BitVec 1) : Statement (.vmulF32 y0 y1 y2 y3 y4) := fun sm h _ => by
  obtain rfl : sm = .v := eq_of_beq h
  exact shape37 .vmulF32 y0 y1 y2 y3 y4
theorem vfmaF32 (y0 : BitVec 5) (y1 : BitVec 5) (y2 : BitVec 5) (y3 : BitVec 3) (y4 : BitVec 1) : Statement (.vfmaF32 y0 y1 y2 y3 y4) := fun sm h _ => by
  obtain rfl : sm = .v := eq_of_beq h
  exact shape37 .vfmaF32 y0 y1 y2 y3 y4
theorem vminF32 (y0 : BitVec 5) (y1 : BitVec 5) (y2 : BitVec 5) (y3 : BitVec 3) (y4 : BitVec 1) : Statement (.vminF32 y0 y1 y2 y3 y4) := fun sm h _ => by
  obtain rfl : sm = .v := eq_of_beq h
  exact shape37 .vminF32 y0 y1 y2 y3 y4
theorem vmaxF32 (y0 : BitVec 5) (y1 : BitVec 5) (y2 : BitVec 5) (y3 : BitVec 3) (y4 : BitVec 1) : Statement (.vmaxF32 y0 y1 y2 y3 y4) := fun sm h _ => by
  obtain rfl : sm = .v := eq_of_beq h
  exact shape37 .vmaxF32 y0 y1 y2 y3 y4
theorem vaddBf16 (y0 : BitVec 5) (y1 : BitVec 5) (y2 : BitVec 5) (y3 : BitVec 3) (y4 : BitVec 1) : Statement (.vaddBf16 y0 y1 y2 y3 y4) := fun sm h _ => by
  obtain rfl : sm = .v := eq_of_beq h
  exact shape37 .vaddBf16 y0 y1 y2 y3 y4
theorem vsubBf16 (y0 : BitVec 5) (y1 : BitVec 5) (y2 : BitVec 5) (y3 : BitVec 3) (y4 : BitVec 1) : Statement (.vsubBf16 y0 y1 y2 y3 y4) := fun sm h _ => by
  obtain rfl : sm = .v := eq_of_beq h
  exact shape37 .vsubBf16 y0 y1 y2 y3 y4
theorem vmulBf16 (y0 : BitVec 5) (y1 : BitVec 5) (y2 : BitVec 5) (y3 : BitVec 3) (y4 : BitVec 1) : Statement (.vmulBf16 y0 y1 y2 y3 y4) := fun sm h _ => by
  obtain rfl : sm = .v := eq_of_beq h
  exact shape37 .vmulBf16 y0 y1 y2 y3 y4
theorem vfmaBf16 (y0 : BitVec 5) (y1 : BitVec 5) (y2 : BitVec 5) (y3 : BitVec 3) (y4 : BitVec 1) : Statement (.vfmaBf16 y0 y1 y2 y3 y4) := fun sm h _ => by
  obtain rfl : sm = .v := eq_of_beq h
  exact shape37 .vfmaBf16 y0 y1 y2 y3 y4
theorem vminBf16 (y0 : BitVec 5) (y1 : BitVec 5) (y2 : BitVec 5) (y3 : BitVec 3) (y4 : BitVec 1) : Statement (.vminBf16 y0 y1 y2 y3 y4) := fun sm h _ => by
  obtain rfl : sm = .v := eq_of_beq h
  exact shape37 .vminBf16 y0 y1 y2 y3 y4
theorem vmaxBf16 (y0 : BitVec 5) (y1 : BitVec 5) (y2 : BitVec 5) (y3 : BitVec 3) (y4 : BitVec 1) : Statement (.vmaxBf16 y0 y1 y2 y3 y4) := fun sm h _ => by
  obtain rfl : sm = .v := eq_of_beq h
  exact shape37 .vmaxBf16 y0 y1 y2 y3 y4
theorem vaddF16 (y0 : BitVec 5) (y1 : BitVec 5) (y2 : BitVec 5) (y3 : BitVec 3) (y4 : BitVec 1) : Statement (.vaddF16 y0 y1 y2 y3 y4) := fun sm h _ => by
  obtain rfl : sm = .v := eq_of_beq h
  exact shape37 .vaddF16 y0 y1 y2 y3 y4
theorem vsubF16 (y0 : BitVec 5) (y1 : BitVec 5) (y2 : BitVec 5) (y3 : BitVec 3) (y4 : BitVec 1) : Statement (.vsubF16 y0 y1 y2 y3 y4) := fun sm h _ => by
  obtain rfl : sm = .v := eq_of_beq h
  exact shape37 .vsubF16 y0 y1 y2 y3 y4
theorem vmulF16 (y0 : BitVec 5) (y1 : BitVec 5) (y2 : BitVec 5) (y3 : BitVec 3) (y4 : BitVec 1) : Statement (.vmulF16 y0 y1 y2 y3 y4) := fun sm h _ => by
  obtain rfl : sm = .v := eq_of_beq h
  exact shape37 .vmulF16 y0 y1 y2 y3 y4
theorem vfmaF16 (y0 : BitVec 5) (y1 : BitVec 5) (y2 : BitVec 5) (y3 : BitVec 3) (y4 : BitVec 1) : Statement (.vfmaF16 y0 y1 y2 y3 y4) := fun sm h _ => by
  obtain rfl : sm = .v := eq_of_beq h
  exact shape37 .vfmaF16 y0 y1 y2 y3 y4
theorem vminF16 (y0 : BitVec 5) (y1 : BitVec 5) (y2 : BitVec 5) (y3 : BitVec 3) (y4 : BitVec 1) : Statement (.vminF16 y0 y1 y2 y3 y4) := fun sm h _ => by
  obtain rfl : sm = .v := eq_of_beq h
  exact shape37 .vminF16 y0 y1 y2 y3 y4
theorem vmaxF16 (y0 : BitVec 5) (y1 : BitVec 5) (y2 : BitVec 5) (y3 : BitVec 3) (y4 : BitVec 1) : Statement (.vmaxF16 y0 y1 y2 y3 y4) := fun sm h _ => by
  obtain rfl : sm = .v := eq_of_beq h
  exact shape37 .vmaxF16 y0 y1 y2 y3 y4
theorem vdivF32 (y0 : BitVec 5) (y1 : BitVec 5) (y2 : BitVec 5) (y3 : BitVec 3) (y4 : BitVec 1) : Statement (.vdivF32 y0 y1 y2 y3 y4) := fun sm h _ => by
  obtain rfl : sm = .v := eq_of_beq h
  exact shape37 .vdivF32 y0 y1 y2 y3 y4
theorem vsqrtF32 (y0 : BitVec 5) (y1 : BitVec 5) (y2 : BitVec 3) (y3 : BitVec 1) : Statement (.vsqrtF32 y0 y1 y2 y3) := fun sm h _ => by
  obtain rfl : sm = .v := eq_of_beq h
  exact shape38 .vsqrtF32 y0 y1 y2 y3
theorem vabsF32 (y0 : BitVec 5) (y1 : BitVec 5) (y2 : BitVec 3) (y3 : BitVec 1) : Statement (.vabsF32 y0 y1 y2 y3) := fun sm h _ => by
  obtain rfl : sm = .v := eq_of_beq h
  exact shape38 .vabsF32 y0 y1 y2 y3
theorem vnegF32 (y0 : BitVec 5) (y1 : BitVec 5) (y2 : BitVec 3) (y3 : BitVec 1) : Statement (.vnegF32 y0 y1 y2 y3) := fun sm h _ => by
  obtain rfl : sm = .v := eq_of_beq h
  exact shape38 .vnegF32 y0 y1 y2 y3
theorem vaddS32 (y0 : BitVec 5) (y1 : BitVec 5) (y2 : BitVec 5) (y3 : BitVec 3) (y4 : BitVec 1) : Statement (.vaddS32 y0 y1 y2 y3 y4) := fun sm h _ => by
  obtain rfl : sm = .v := eq_of_beq h
  exact shape37 .vaddS32 y0 y1 y2 y3 y4
theorem vsubS32 (y0 : BitVec 5) (y1 : BitVec 5) (y2 : BitVec 5) (y3 : BitVec 3) (y4 : BitVec 1) : Statement (.vsubS32 y0 y1 y2 y3 y4) := fun sm h _ => by
  obtain rfl : sm = .v := eq_of_beq h
  exact shape37 .vsubS32 y0 y1 y2 y3 y4
theorem vmulS32 (y0 : BitVec 5) (y1 : BitVec 5) (y2 : BitVec 5) (y3 : BitVec 3) (y4 : BitVec 1) : Statement (.vmulS32 y0 y1 y2 y3 y4) := fun sm h _ => by
  obtain rfl : sm = .v := eq_of_beq h
  exact shape37 .vmulS32 y0 y1 y2 y3 y4
theorem vmulhS32 (y0 : BitVec 5) (y1 : BitVec 5) (y2 : BitVec 5) (y3 : BitVec 3) (y4 : BitVec 1) : Statement (.vmulhS32 y0 y1 y2 y3 y4) := fun sm h _ => by
  obtain rfl : sm = .v := eq_of_beq h
  exact shape37 .vmulhS32 y0 y1 y2 y3 y4
theorem vminS32 (y0 : BitVec 5) (y1 : BitVec 5) (y2 : BitVec 5) (y3 : BitVec 3) (y4 : BitVec 1) : Statement (.vminS32 y0 y1 y2 y3 y4) := fun sm h _ => by
  obtain rfl : sm = .v := eq_of_beq h
  exact shape37 .vminS32 y0 y1 y2 y3 y4
theorem vmaxS32 (y0 : BitVec 5) (y1 : BitVec 5) (y2 : BitVec 5) (y3 : BitVec 3) (y4 : BitVec 1) : Statement (.vmaxS32 y0 y1 y2 y3 y4) := fun sm h _ => by
  obtain rfl : sm = .v := eq_of_beq h
  exact shape37 .vmaxS32 y0 y1 y2 y3 y4
theorem vminZ32 (y0 : BitVec 5) (y1 : BitVec 5) (y2 : BitVec 5) (y3 : BitVec 3) (y4 : BitVec 1) : Statement (.vminZ32 y0 y1 y2 y3 y4) := fun sm h _ => by
  obtain rfl : sm = .v := eq_of_beq h
  exact shape37 .vminZ32 y0 y1 y2 y3 y4
theorem vmaxZ32 (y0 : BitVec 5) (y1 : BitVec 5) (y2 : BitVec 5) (y3 : BitVec 3) (y4 : BitVec 1) : Statement (.vmaxZ32 y0 y1 y2 y3 y4) := fun sm h _ => by
  obtain rfl : sm = .v := eq_of_beq h
  exact shape37 .vmaxZ32 y0 y1 y2 y3 y4
theorem vandZ32 (y0 : BitVec 5) (y1 : BitVec 5) (y2 : BitVec 5) (y3 : BitVec 3) (y4 : BitVec 1) : Statement (.vandZ32 y0 y1 y2 y3 y4) := fun sm h _ => by
  obtain rfl : sm = .v := eq_of_beq h
  exact shape37 .vandZ32 y0 y1 y2 y3 y4
theorem vorZ32 (y0 : BitVec 5) (y1 : BitVec 5) (y2 : BitVec 5) (y3 : BitVec 3) (y4 : BitVec 1) : Statement (.vorZ32 y0 y1 y2 y3 y4) := fun sm h _ => by
  obtain rfl : sm = .v := eq_of_beq h
  exact shape37 .vorZ32 y0 y1 y2 y3 y4
theorem vxorZ32 (y0 : BitVec 5) (y1 : BitVec 5) (y2 : BitVec 5) (y3 : BitVec 3) (y4 : BitVec 1) : Statement (.vxorZ32 y0 y1 y2 y3 y4) := fun sm h _ => by
  obtain rfl : sm = .v := eq_of_beq h
  exact shape37 .vxorZ32 y0 y1 y2 y3 y4
theorem vshlZ32 (y0 : BitVec 5) (y1 : BitVec 5) (y2 : BitVec 5) (y3 : BitVec 3) (y4 : BitVec 1) : Statement (.vshlZ32 y0 y1 y2 y3 y4) := fun sm h _ => by
  obtain rfl : sm = .v := eq_of_beq h
  exact shape37 .vshlZ32 y0 y1 y2 y3 y4
theorem vshrZ32 (y0 : BitVec 5) (y1 : BitVec 5) (y2 : BitVec 5) (y3 : BitVec 3) (y4 : BitVec 1) : Statement (.vshrZ32 y0 y1 y2 y3 y4) := fun sm h _ => by
  obtain rfl : sm = .v := eq_of_beq h
  exact shape37 .vshrZ32 y0 y1 y2 y3 y4
theorem vasrS32 (y0 : BitVec 5) (y1 : BitVec 5) (y2 : BitVec 5) (y3 : BitVec 3) (y4 : BitVec 1) : Statement (.vasrS32 y0 y1 y2 y3 y4) := fun sm h _ => by
  obtain rfl : sm = .v := eq_of_beq h
  exact shape37 .vasrS32 y0 y1 y2 y3 y4
theorem vnotZ32 (y0 : BitVec 5) (y1 : BitVec 5) (y2 : BitVec 3) (y3 : BitVec 1) : Statement (.vnotZ32 y0 y1 y2 y3) := fun sm h _ => by
  obtain rfl : sm = .v := eq_of_beq h
  exact shape38 .vnotZ32 y0 y1 y2 y3
theorem vcmpLtF32 (y0 : BitVec 3) (y1 : BitVec 5) (y2 : BitVec 5) (y3 : BitVec 3) (y4 : BitVec 1) : Statement (.vcmpLtF32 y0 y1 y2 y3 y4) := fun sm h _ => by
  obtain rfl : sm = .v := eq_of_beq h
  exact shape39 .vcmpLtF32 y0 y1 y2 y3 y4
theorem vcmpLeF32 (y0 : BitVec 3) (y1 : BitVec 5) (y2 : BitVec 5) (y3 : BitVec 3) (y4 : BitVec 1) : Statement (.vcmpLeF32 y0 y1 y2 y3 y4) := fun sm h _ => by
  obtain rfl : sm = .v := eq_of_beq h
  exact shape39 .vcmpLeF32 y0 y1 y2 y3 y4
theorem vcmpEqF32 (y0 : BitVec 3) (y1 : BitVec 5) (y2 : BitVec 5) (y3 : BitVec 3) (y4 : BitVec 1) : Statement (.vcmpEqF32 y0 y1 y2 y3 y4) := fun sm h _ => by
  obtain rfl : sm = .v := eq_of_beq h
  exact shape39 .vcmpEqF32 y0 y1 y2 y3 y4
theorem vcmpLtS32 (y0 : BitVec 3) (y1 : BitVec 5) (y2 : BitVec 5) (y3 : BitVec 3) (y4 : BitVec 1) : Statement (.vcmpLtS32 y0 y1 y2 y3 y4) := fun sm h _ => by
  obtain rfl : sm = .v := eq_of_beq h
  exact shape39 .vcmpLtS32 y0 y1 y2 y3 y4
theorem vcmpEqS32 (y0 : BitVec 3) (y1 : BitVec 5) (y2 : BitVec 5) (y3 : BitVec 3) (y4 : BitVec 1) : Statement (.vcmpEqS32 y0 y1 y2 y3 y4) := fun sm h _ => by
  obtain rfl : sm = .v := eq_of_beq h
  exact shape39 .vcmpEqS32 y0 y1 y2 y3 y4
theorem vcmpLtZ32 (y0 : BitVec 3) (y1 : BitVec 5) (y2 : BitVec 5) (y3 : BitVec 3) (y4 : BitVec 1) : Statement (.vcmpLtZ32 y0 y1 y2 y3 y4) := fun sm h _ => by
  obtain rfl : sm = .v := eq_of_beq h
  exact shape39 .vcmpLtZ32 y0 y1 y2 y3 y4
theorem vmand (y0 : BitVec 3) (y1 : BitVec 3) (y2 : BitVec 3) : Statement (.vmand y0 y1 y2) := fun sm h _ => by
  obtain rfl : sm = .v := eq_of_beq h
  exact shape40 .vmand y0 y1 y2
theorem vmor (y0 : BitVec 3) (y1 : BitVec 3) (y2 : BitVec 3) : Statement (.vmor y0 y1 y2) := fun sm h _ => by
  obtain rfl : sm = .v := eq_of_beq h
  exact shape40 .vmor y0 y1 y2
theorem vmxor (y0 : BitVec 3) (y1 : BitVec 3) (y2 : BitVec 3) : Statement (.vmxor y0 y1 y2) := fun sm h _ => by
  obtain rfl : sm = .v := eq_of_beq h
  exact shape40 .vmxor y0 y1 y2
theorem vmnot (y0 : BitVec 3) (y1 : BitVec 3) : Statement (.vmnot y0 y1) := fun sm h _ => by
  obtain rfl : sm = .v := eq_of_beq h
  exact shape41 .vmnot y0 y1
theorem vsel (y0 : BitVec 5) (y1 : BitVec 5) (y2 : BitVec 5) (y3 : BitVec 3) : Statement (.vsel y0 y1 y2 y3) := fun sm h _ => by
  obtain rfl : sm = .v := eq_of_beq h
  exact shape42 .vsel y0 y1 y2 y3
theorem vperm (y0 : BitVec 5) (y1 : BitVec 5) (y2 : BitVec 5) (y3 : BitVec 3) (y4 : BitVec 1) : Statement (.vperm y0 y1 y2 y3 y4) := fun sm h _ => by
  obtain rfl : sm = .v := eq_of_beq h
  exact shape37 .vperm y0 y1 y2 y3 y4
theorem vbcast (y0 : BitVec 5) (y1 : BitVec 6) : Statement (.vbcast y0 y1) := fun sm h _ => by
  obtain rfl : sm = .v := eq_of_beq h
  exact shape43 .vbcast y0 y1
theorem vext (y0 : BitVec 6) (y1 : BitVec 5) (y2 : BitVec 6) : Statement (.vext y0 y1 y2) := fun sm h _ => by
  obtain rfl : sm = .v := eq_of_beq h
  exact shape44 .vext y0 y1 y2
theorem vins (y0 : BitVec 5) (y1 : BitVec 6) (y2 : BitVec 6) : Statement (.vins y0 y1 y2) := fun sm h _ => by
  obtain rfl : sm = .v := eq_of_beq h
  exact shape31 .vins y0 y1 y2
theorem vtr32 (y0 : BitVec 5) (y1 : BitVec 5) : Statement (.vtr32 y0 y1) := fun sm h _ => by
  obtain rfl : sm = .v := eq_of_beq h
  exact shape45 .vtr32 y0 y1
theorem vzord (y0 : BitVec 5) (y1 : BitVec 5) : Statement (.vzord y0 y1) := fun sm h _ => by
  obtain rfl : sm = .v := eq_of_beq h
  exact shape45 .vzord y0 y1
theorem vrowm (y0 : BitVec 5) (y1 : BitVec 5) : Statement (.vrowm y0 y1) := fun sm h _ => by
  obtain rfl : sm = .v := eq_of_beq h
  exact shape45 .vrowm y0 y1
theorem vrsumF32 (y0 : BitVec 5) (y1 : BitVec 5) (y2 : BitVec 3) (y3 : BitVec 1) : Statement (.vrsumF32 y0 y1 y2 y3) := fun sm h _ => by
  obtain rfl : sm = .v := eq_of_beq h
  exact shape38 .vrsumF32 y0 y1 y2 y3
theorem vrmaxF32 (y0 : BitVec 5) (y1 : BitVec 5) (y2 : BitVec 3) (y3 : BitVec 1) : Statement (.vrmaxF32 y0 y1 y2 y3) := fun sm h _ => by
  obtain rfl : sm = .v := eq_of_beq h
  exact shape38 .vrmaxF32 y0 y1 y2 y3
theorem vrminF32 (y0 : BitVec 5) (y1 : BitVec 5) (y2 : BitVec 3) (y3 : BitVec 1) : Statement (.vrminF32 y0 y1 y2 y3) := fun sm h _ => by
  obtain rfl : sm = .v := eq_of_beq h
  exact shape38 .vrminF32 y0 y1 y2 y3
theorem vrsumS32 (y0 : BitVec 5) (y1 : BitVec 5) (y2 : BitVec 3) (y3 : BitVec 1) : Statement (.vrsumS32 y0 y1 y2 y3) := fun sm h _ => by
  obtain rfl : sm = .v := eq_of_beq h
  exact shape38 .vrsumS32 y0 y1 y2 y3
theorem vrandZ32 (y0 : BitVec 5) (y1 : BitVec 2) : Statement (.vrandZ32 y0 y1) := fun sm h _ => by
  obtain rfl : sm = .v := eq_of_beq h
  exact shape46 .vrandZ32 y0 y1
theorem vsetvl (y0 : BitVec 6) : Statement (.vsetvl y0) := fun sm h _ => by
  obtain rfl : sm = .v := eq_of_beq h
  exact shape2 .vsetvl y0
theorem vmov (y0 : BitVec 5) (y1 : BitVec 5) (y2 : BitVec 3) (y3 : BitVec 1) : Statement (.vmov y0 y1 y2 y3) := fun sm h _ => by
  obtain rfl : sm = .v := eq_of_beq h
  exact shape38 .vmov y0 y1 y2 y3
theorem vaccF32 (y0 : BitVec 5) (y1 : BitVec 3) (y2 : BitVec 5) : Statement (.vaccF32 y0 y1 y2) := fun sm h _ => by
  obtain rfl : sm = .v := eq_of_beq h
  exact shape47 .vaccF32 y0 y1 y2
theorem qmaxF32 (y0 : BitVec 5) (y1 : BitVec 4) : Statement (.qmaxF32 y0 y1) := fun sm h _ => by
  obtain rfl : sm = .qm := eq_of_beq h
  exact shape48 .qmaxF32 y0 y1
theorem qmaxBf16 (y0 : BitVec 5) (y1 : BitVec 4) : Statement (.qmaxBf16 y0 y1) := fun sm h _ => by
  obtain rfl : sm = .qm := eq_of_beq h
  exact shape48 .qmaxBf16 y0 y1
theorem qmaxF16 (y0 : BitVec 5) (y1 : BitVec 4) : Statement (.qmaxF16 y0 y1) := fun sm h _ => by
  obtain rfl : sm = .qm := eq_of_beq h
  exact shape48 .qmaxF16 y0 y1
theorem qmvsc (y0 : BitVec 4) (y1 : BitVec 1) : Statement (.qmvsc y0 y1) := fun sm h _ => by
  obtain rfl : sm = .qm := eq_of_beq h
  exact shape49 .qmvsc y0 y1
theorem qcvtE4m3 (y0 : BitVec 3) (y1 : BitVec 5) (y2 : BitVec 3) (y3 : BitVec 2) (y4 : BitVec 1) (y5 : BitVec 4) (y6 : BitVec 1) : Statement (.qcvtE4m3 y0 y1 y2 y3 y4 y5 y6) := fun sm h _ => by
  obtain rfl : sm = .qc := eq_of_beq h
  exact shape50 .qcvtE4m3 y0 y1 y2 y3 y4 y5 y6
theorem qcvtE5m2 (y0 : BitVec 3) (y1 : BitVec 5) (y2 : BitVec 3) (y3 : BitVec 2) (y4 : BitVec 1) (y5 : BitVec 4) (y6 : BitVec 1) : Statement (.qcvtE5m2 y0 y1 y2 y3 y4 y5 y6) := fun sm h _ => by
  obtain rfl : sm = .qc := eq_of_beq h
  exact shape50 .qcvtE5m2 y0 y1 y2 y3 y4 y5 y6
theorem qcvtE2m1 (y0 : BitVec 3) (y1 : BitVec 5) (y2 : BitVec 3) (y3 : BitVec 2) (y4 : BitVec 1) (y5 : BitVec 4) (y6 : BitVec 1) : Statement (.qcvtE2m1 y0 y1 y2 y3 y4 y5 y6) := fun sm h _ => by
  obtain rfl : sm = .qc := eq_of_beq h
  exact shape50 .qcvtE2m1 y0 y1 y2 y3 y4 y5 y6
theorem qcvtS8 (y0 : BitVec 3) (y1 : BitVec 5) (y2 : BitVec 3) (y3 : BitVec 2) (y4 : BitVec 1) (y5 : BitVec 4) (y6 : BitVec 1) : Statement (.qcvtS8 y0 y1 y2 y3 y4 y5 y6) := fun sm h _ => by
  obtain rfl : sm = .qc := eq_of_beq h
  exact shape50 .qcvtS8 y0 y1 y2 y3 y4 y5 y6
theorem qcvtBp8 (y0 : BitVec 3) (y1 : BitVec 5) (y2 : BitVec 3) (y3 : BitVec 2) (y4 : BitVec 1) (y5 : BitVec 4) (y6 : BitVec 1) : Statement (.qcvtBp8 y0 y1 y2 y3 y4 y5 y6) := fun sm h _ => by
  obtain rfl : sm = .qc := eq_of_beq h
  exact shape50 .qcvtBp8 y0 y1 y2 y3 y4 y5 y6
theorem qdqE4m3 (y0 : BitVec 3) (y1 : BitVec 5) (y2 : BitVec 3) (y3 : BitVec 2) (y4 : BitVec 1) (y5 : BitVec 4) (y6 : BitVec 1) : Statement (.qdqE4m3 y0 y1 y2 y3 y4 y5 y6) := fun sm h _ => by
  obtain rfl : sm = .qc := eq_of_beq h
  exact shape50 .qdqE4m3 y0 y1 y2 y3 y4 y5 y6
theorem qdqE5m2 (y0 : BitVec 3) (y1 : BitVec 5) (y2 : BitVec 3) (y3 : BitVec 2) (y4 : BitVec 1) (y5 : BitVec 4) (y6 : BitVec 1) : Statement (.qdqE5m2 y0 y1 y2 y3 y4 y5 y6) := fun sm h _ => by
  obtain rfl : sm = .qc := eq_of_beq h
  exact shape50 .qdqE5m2 y0 y1 y2 y3 y4 y5 y6
theorem qdqE2m1 (y0 : BitVec 3) (y1 : BitVec 5) (y2 : BitVec 3) (y3 : BitVec 2) (y4 : BitVec 1) (y5 : BitVec 4) (y6 : BitVec 1) : Statement (.qdqE2m1 y0 y1 y2 y3 y4 y5 y6) := fun sm h _ => by
  obtain rfl : sm = .qc := eq_of_beq h
  exact shape50 .qdqE2m1 y0 y1 y2 y3 y4 y5 y6
theorem qdqS8 (y0 : BitVec 3) (y1 : BitVec 5) (y2 : BitVec 3) (y3 : BitVec 2) (y4 : BitVec 1) (y5 : BitVec 4) (y6 : BitVec 1) : Statement (.qdqS8 y0 y1 y2 y3 y4 y5 y6) := fun sm h _ => by
  obtain rfl : sm = .qc := eq_of_beq h
  exact shape50 .qdqS8 y0 y1 y2 y3 y4 y5 y6
theorem qdqBp8 (y0 : BitVec 3) (y1 : BitVec 5) (y2 : BitVec 3) (y3 : BitVec 2) (y4 : BitVec 1) (y5 : BitVec 4) (y6 : BitVec 1) : Statement (.qdqBp8 y0 y1 y2 y3 y4 y5 y6) := fun sm h _ => by
  obtain rfl : sm = .qc := eq_of_beq h
  exact shape50 .qdqBp8 y0 y1 y2 y3 y4 y5 y6
theorem qrot : Statement .qrot := fun sm h _ => by
  obtain rfl : sm = .qc := eq_of_beq h
  exact rfl
theorem qin (y0 : BitVec 3) (y1 : BitVec 5) : Statement (.qin y0 y1) := fun sm h _ => by
  obtain rfl : sm = .qc := eq_of_beq h
  exact shape51 .qin y0 y1
theorem qout (y0 : BitVec 3) (y1 : BitVec 5) : Statement (.qout y0 y1) := fun sm h _ => by
  obtain rfl : sm = .qc := eq_of_beq h
  exact shape51 .qout y0 y1
theorem cvtBf16F32 (y0 : BitVec 5) (y1 : BitVec 5) (y2 : BitVec 3) (y3 : BitVec 2) : Statement (.cvtBf16F32 y0 y1 y2 y3) := fun sm h _ => by
  obtain rfl : sm = .qc := eq_of_beq h
  exact shape52 .cvtBf16F32 y0 y1 y2 y3
theorem cvtF16F32 (y0 : BitVec 5) (y1 : BitVec 5) (y2 : BitVec 3) (y3 : BitVec 2) : Statement (.cvtF16F32 y0 y1 y2 y3) := fun sm h _ => by
  obtain rfl : sm = .qc := eq_of_beq h
  exact shape52 .cvtF16F32 y0 y1 y2 y3
theorem cvtF32Bf16 (y0 : BitVec 5) (y1 : BitVec 5) : Statement (.cvtF32Bf16 y0 y1) := fun sm h _ => by
  obtain rfl : sm = .qc := eq_of_beq h
  exact shape45 .cvtF32Bf16 y0 y1
theorem cvtF32F16 (y0 : BitVec 5) (y1 : BitVec 5) : Statement (.cvtF32F16 y0 y1) := fun sm h _ => by
  obtain rfl : sm = .qc := eq_of_beq h
  exact shape45 .cvtF32F16 y0 y1
theorem cvtF32S32 (y0 : BitVec 5) (y1 : BitVec 5) (y2 : BitVec 3) (y3 : BitVec 2) : Statement (.cvtF32S32 y0 y1 y2 y3) := fun sm h _ => by
  obtain rfl : sm = .qc := eq_of_beq h
  exact shape52 .cvtF32S32 y0 y1 y2 y3
theorem cvtS32F32 (y0 : BitVec 5) (y1 : BitVec 5) (y2 : BitVec 3) (y3 : BitVec 2) : Statement (.cvtS32F32 y0 y1 y2 y3) := fun sm h _ => by
  obtain rfl : sm = .qc := eq_of_beq h
  exact shape52 .cvtS32F32 y0 y1 y2 y3
theorem ldsc (y0 : BitVec 4) (y1 : BitVec 6) (y2 : BitVec 10) : Statement (.ldsc y0 y1 y2) := fun sm h _ => by
  obtain rfl : sm = .sc := eq_of_beq h
  exact shape23 .ldsc y0 y1 y2
theorem ldscB (y0 : BitVec 4) (y1 : BitVec 6) (y2 : BitVec 10) : Statement (.ldscB y0 y1 y2) := fun sm h _ => by
  obtain rfl : sm = .sc := eq_of_beq h
  exact shape23 .ldscB y0 y1 y2
theorem stsc (y0 : BitVec 4) (y1 : BitVec 6) (y2 : BitVec 10) : Statement (.stsc y0 y1 y2) := fun sm h _ => by
  obtain rfl : sm = .sc := eq_of_beq h
  exact shape23 .stsc y0 y1 y2
theorem ldbS8 (y0 : BitVec 2) (y1 : BitVec 3) : Statement (.ldbS8 y0 y1) := fun sm h _ => by
  obtain rfl : sm = .m := eq_of_beq h
  exact shape53 .ldbS8 y0 y1
theorem ldbBf16 (y0 : BitVec 2) (y1 : BitVec 3) : Statement (.ldbBf16 y0 y1) := fun sm h _ => by
  obtain rfl : sm = .m := eq_of_beq h
  exact shape53 .ldbBf16 y0 y1
theorem ldbE4m3 (y0 : BitVec 2) (y1 : BitVec 3) : Statement (.ldbE4m3 y0 y1) := fun sm h _ => by
  obtain rfl : sm = .m := eq_of_beq h
  exact shape53 .ldbE4m3 y0 y1
theorem ldbE5m2 (y0 : BitVec 2) (y1 : BitVec 3) : Statement (.ldbE5m2 y0 y1) := fun sm h _ => by
  obtain rfl : sm = .m := eq_of_beq h
  exact shape53 .ldbE5m2 y0 y1
theorem ldbE2m1 (y0 : BitVec 2) (y1 : BitVec 3) : Statement (.ldbE2m1 y0 y1) := fun sm h _ => by
  obtain rfl : sm = .m := eq_of_beq h
  exact shape53 .ldbE2m1 y0 y1
theorem mmBp2 (y0 : BitVec 3) (y1 : BitVec 4) (y2 : BitVec 3) (y3 : BitVec 6) (y4 : BitVec 1) : Statement (.mmBp2 y0 y1 y2 y3 y4) := fun sm h _ => by
  obtain rfl : sm = .m := eq_of_beq h
  exact shape54 .mmBp2 y0 y1 y2 y3 y4
theorem mmBp3 (y0 : BitVec 3) (y1 : BitVec 4) (y2 : BitVec 3) (y3 : BitVec 6) (y4 : BitVec 1) : Statement (.mmBp3 y0 y1 y2 y3 y4) := fun sm h _ => by
  obtain rfl : sm = .m := eq_of_beq h
  exact shape54 .mmBp3 y0 y1 y2 y3 y4
theorem mmBp4 (y0 : BitVec 3) (y1 : BitVec 4) (y2 : BitVec 3) (y3 : BitVec 6) (y4 : BitVec 1) : Statement (.mmBp4 y0 y1 y2 y3 y4) := fun sm h _ => by
  obtain rfl : sm = .m := eq_of_beq h
  exact shape54 .mmBp4 y0 y1 y2 y3 y4
theorem mmBp5 (y0 : BitVec 3) (y1 : BitVec 4) (y2 : BitVec 3) (y3 : BitVec 6) (y4 : BitVec 1) : Statement (.mmBp5 y0 y1 y2 y3 y4) := fun sm h _ => by
  obtain rfl : sm = .m := eq_of_beq h
  exact shape54 .mmBp5 y0 y1 y2 y3 y4
theorem mmBp6 (y0 : BitVec 3) (y1 : BitVec 4) (y2 : BitVec 3) (y3 : BitVec 6) (y4 : BitVec 1) : Statement (.mmBp6 y0 y1 y2 y3 y4) := fun sm h _ => by
  obtain rfl : sm = .m := eq_of_beq h
  exact shape54 .mmBp6 y0 y1 y2 y3 y4
theorem mmBp7 (y0 : BitVec 3) (y1 : BitVec 4) (y2 : BitVec 3) (y3 : BitVec 6) (y4 : BitVec 1) : Statement (.mmBp7 y0 y1 y2 y3 y4) := fun sm h _ => by
  obtain rfl : sm = .m := eq_of_beq h
  exact shape54 .mmBp7 y0 y1 y2 y3 y4
theorem mmBp8 (y0 : BitVec 3) (y1 : BitVec 4) (y2 : BitVec 3) (y3 : BitVec 6) (y4 : BitVec 1) : Statement (.mmBp8 y0 y1 y2 y3 y4) := fun sm h _ => by
  obtain rfl : sm = .m := eq_of_beq h
  exact shape54 .mmBp8 y0 y1 y2 y3 y4
theorem mmBf16 (y0 : BitVec 3) (y1 : BitVec 4) (y2 : BitVec 3) (y3 : BitVec 6) (y4 : BitVec 1) : Statement (.mmBf16 y0 y1 y2 y3 y4) := fun sm h _ => by
  obtain rfl : sm = .m := eq_of_beq h
  exact shape54 .mmBf16 y0 y1 y2 y3 y4
theorem mmx (y0 : BitVec 3) (y1 : BitVec 4) (y2 : BitVec 3) (y3 : BitVec 5) (y4 : BitVec 1) : Statement (.mmx y0 y1 y2 y3 y4) := fun sm h _ => by
  obtain rfl : sm = .m := eq_of_beq h
  exact shape55 .mmx y0 y1 y2 y3 y4
theorem dmm (y0 : BitVec 3) (y1 : BitVec 4) (y2 : BitVec 3) (y3 : BitVec 2) (y4 : BitVec 5) (y5 : BitVec 1) (y6 : BitVec 1) : Statement (.dmm y0 y1 y2 y3 y4 y5 y6) := fun sm h _ => by
  obtain rfl : sm = .m := eq_of_beq h
  exact shape56 .dmm y0 y1 y2 y3 y4 y5 y6
theorem dmmr (y0 : BitVec 3) (y1 : BitVec 4) (y2 : BitVec 3) (y3 : BitVec 2) (y4 : BitVec 5) (y5 : BitVec 1) (y6 : BitVec 1) : Statement (.dmmr y0 y1 y2 y3 y4 y5 y6) := fun sm h _ => by
  obtain rfl : sm = .m := eq_of_beq h
  exact shape56 .dmmr y0 y1 y2 y3 y4 y5 y6
theorem dtap (y0 : BitVec 5) (y1 : BitVec 3) (y2 : BitVec 5) : Statement (.dtap y0 y1 y2) := fun sm h _ => by
  obtain rfl : sm = .m := eq_of_beq h
  exact shape47 .dtap y0 y1 y2
theorem ardF32 (y0 : BitVec 5) (y1 : BitVec 3) (y2 : BitVec 5) : Statement (.ardF32 y0 y1 y2) := fun sm h _ => by
  obtain rfl : sm = .m := eq_of_beq h
  exact shape47 .ardF32 y0 y1 y2
theorem ardS32 (y0 : BitVec 5) (y1 : BitVec 3) (y2 : BitVec 5) : Statement (.ardS32 y0 y1 y2) := fun sm h _ => by
  obtain rfl : sm = .m := eq_of_beq h
  exact shape47 .ardS32 y0 y1 y2
theorem awrF32 (y0 : BitVec 5) (y1 : BitVec 3) (y2 : BitVec 5) : Statement (.awrF32 y0 y1 y2) := fun sm h _ => by
  obtain rfl : sm = .m := eq_of_beq h
  exact shape47 .awrF32 y0 y1 y2
theorem awrS32 (y0 : BitVec 5) (y1 : BitVec 3) (y2 : BitVec 5) : Statement (.awrS32 y0 y1 y2) := fun sm h _ => by
  obtain rfl : sm = .m := eq_of_beq h
  exact shape47 .awrS32 y0 y1 y2
theorem aclr (y0 : BitVec 3) : Statement (.aclr y0) := fun sm h _ => by
  obtain rfl : sm = .m := eq_of_beq h
  exact shape57 .aclr y0
theorem aexp (y0 : BitVec 5) (y1 : BitVec 3) (y2 : BitVec 5) : Statement (.aexp y0 y1 y2) := fun sm h _ => by
  obtain rfl : sm = .m := eq_of_beq h
  exact shape47 .aexp y0 y1 y2
theorem ldcv (y0 : BitVec 2) (y1 : BitVec 3) : Statement (.ldcv y0 y1) := fun sm h _ => by
  obtain rfl : sm = .m := eq_of_beq h
  exact shape53 .ldcv y0 y1
theorem ldbm (y0 : BitVec 2) (y1 : BitVec 3) : Statement (.ldbm y0 y1) := fun sm h _ => by
  obtain rfl : sm = .m := eq_of_beq h
  exact shape53 .ldbm y0 y1
theorem mvfo (y0 : BitVec 3) (y1 : BitVec 6) : Statement (.mvfo y0 y1) := fun sm h _ => by
  obtain rfl : sm = .m := eq_of_beq h
  exact shape58 .mvfo y0 y1
theorem addfo (y0 : BitVec 3) (y1 : BitVec 6) : Statement (.addfo y0 y1) := fun sm h _ => by
  obtain rfl : sm = .m := eq_of_beq h
  exact shape58 .addfo y0 y1
theorem mvsh (y0 : BitVec 4) (y1 : BitVec 6) : Statement (.mvsh y0 y1) := fun sm h _ => by
  obtain rfl : sm = .x := eq_of_beq h
  exact shape59 .mvsh y0 y1
theorem shadd (y0 : BitVec 4) (y1 : BitVec 6) : Statement (.shadd y0 y1) := fun sm h _ => by
  obtain rfl : sm = .x := eq_of_beq h
  exact shape59 .shadd y0 y1
theorem lish (y0 : BitVec 4) (y1 : BitVec 5) : Statement (.lish y0 y1) := fun sm h _ => by
  obtain rfl : sm = .x := eq_of_beq h
  exact shape9 .lish y0 y1
theorem xsend (y0 : BitVec 4) (y1 : BitVec 5) (y2 : BitVec 6) : Statement (.xsend y0 y1 y2) := fun sm h _ => by
  obtain rfl : sm = .x := eq_of_beq h
  exact shape60 .xsend y0 y1 y2
theorem xsendLk (y0 : BitVec 4) (y1 : BitVec 5) (y2 : BitVec 6) : Statement (.xsendLk y0 y1 y2) := fun sm h _ => by
  obtain rfl : sm = .x := eq_of_beq h
  exact shape60 .xsendLk y0 y1 y2
theorem xmcast (y0 : BitVec 4) (y1 : BitVec 5) (y2 : BitVec 6) : Statement (.xmcast y0 y1 y2) := fun sm h _ => by
  obtain rfl : sm = .x := eq_of_beq h
  exact shape60 .xmcast y0 y1 y2
theorem xmcastLk (y0 : BitVec 4) (y1 : BitVec 5) (y2 : BitVec 6) : Statement (.xmcastLk y0 y1 y2) := fun sm h _ => by
  obtain rfl : sm = .x := eq_of_beq h
  exact shape60 .xmcastLk y0 y1 y2
theorem xredAddF32 (y0 : BitVec 4) (y1 : BitVec 5) (y2 : BitVec 6) : Statement (.xredAddF32 y0 y1 y2) := fun sm h _ => by
  obtain rfl : sm = .x := eq_of_beq h
  exact shape60 .xredAddF32 y0 y1 y2
theorem xredMaxF32 (y0 : BitVec 4) (y1 : BitVec 5) (y2 : BitVec 6) : Statement (.xredMaxF32 y0 y1 y2) := fun sm h _ => by
  obtain rfl : sm = .x := eq_of_beq h
  exact shape60 .xredMaxF32 y0 y1 y2
theorem xredMinF32 (y0 : BitVec 4) (y1 : BitVec 5) (y2 : BitVec 6) : Statement (.xredMinF32 y0 y1 y2) := fun sm h _ => by
  obtain rfl : sm = .x := eq_of_beq h
  exact shape60 .xredMinF32 y0 y1 y2
theorem xredAddBf16 (y0 : BitVec 4) (y1 : BitVec 5) (y2 : BitVec 6) : Statement (.xredAddBf16 y0 y1 y2) := fun sm h _ => by
  obtain rfl : sm = .x := eq_of_beq h
  exact shape60 .xredAddBf16 y0 y1 y2
theorem xredAddS32 (y0 : BitVec 4) (y1 : BitVec 5) (y2 : BitVec 6) : Statement (.xredAddS32 y0 y1 y2) := fun sm h _ => by
  obtain rfl : sm = .x := eq_of_beq h
  exact shape60 .xredAddS32 y0 y1 y2
theorem xredMaxS32 (y0 : BitVec 4) (y1 : BitVec 5) (y2 : BitVec 6) : Statement (.xredMaxS32 y0 y1 y2) := fun sm h _ => by
  obtain rfl : sm = .x := eq_of_beq h
  exact shape60 .xredMaxS32 y0 y1 y2
theorem ldmap (y0 : BitVec 4) (y1 : BitVec 6) (y2 : BitVec 1) : Statement (.ldmap y0 y1 y2) := fun sm h _ => by
  obtain rfl : sm = .x := eq_of_beq h
  exact shape61 .ldmap y0 y1 y2
theorem swapmap (y0 : BitVec 4) (y1 : BitVec 4) (y2 : BitVec 1) : Statement (.swapmap y0 y1 y2) := fun sm h _ => by
  obtain rfl : sm = .x := eq_of_beq h
  exact shape62 .swapmap y0 y1 y2
theorem retiremap (y0 : BitVec 4) (y1 : BitVec 1) : Statement (.retiremap y0 y1) := fun sm h _ => by
  obtain rfl : sm = .x := eq_of_beq h
  exact shape63 .retiremap y0 y1
theorem strays (y0 : BitVec 6) (y1 : BitVec 1) : Statement (.strays y0 y1) := fun sm h _ => by
  obtain rfl : sm = .x := eq_of_beq h
  exact shape64 .strays y0 y1
theorem lnbind (y0 : BitVec 3) (y1 : BitVec 6) : Statement (.lnbind y0 y1) := fun sm h _ => by
  obtain rfl : sm = .x := eq_of_beq h
  exact shape58 .lnbind y0 y1
theorem lnfree (y0 : BitVec 3) : Statement (.lnfree y0) := fun sm h _ => by
  obtain rfl : sm = .x := eq_of_beq h
  exact shape57 .lnfree y0
theorem lnmsg (y0 : BitVec 3) (y1 : BitVec 6) : Statement (.lnmsg y0 y1) := fun sm h _ => by
  obtain rfl : sm = .x := eq_of_beq h
  exact shape58 .lnmsg y0 y1
theorem ctset (y0 : BitVec 3) (y1 : BitVec 6) : Statement (.ctset y0 y1) := fun sm h _ => by
  obtain rfl : sm = .x := eq_of_beq h
  exact shape58 .ctset y0 y1
theorem ctclr (y0 : BitVec 3) : Statement (.ctclr y0) := fun sm h _ => by
  obtain rfl : sm = .x := eq_of_beq h
  exact shape57 .ctclr y0
theorem nop : Statement .nop := fun _ _ h => absurd rfl h
theorem jmp (y0 : BitVec 20) : Statement (.jmp y0) := fun sm h _ => by
  obtain rfl : sm = .c := eq_of_beq h
  exact shape1 .jmp y0
theorem call (y0 : BitVec 20) : Statement (.call y0) := fun sm h _ => by
  obtain rfl : sm = .c := eq_of_beq h
  exact shape1 .call y0
theorem jmpr (y0 : BitVec 6) : Statement (.jmpr y0) := fun sm h _ => by
  obtain rfl : sm = .c := eq_of_beq h
  exact shape2 .jmpr y0
theorem br (y0 : BitVec 2) (y1 : BitVec 5) : Statement (.br y0 y1) := fun sm h _ => by
  obtain rfl : sm = .c := eq_of_beq h
  exact shape3 .br y0 y1
theorem callr (y0 : BitVec 6) : Statement (.callr y0) := fun sm h _ => by
  obtain rfl : sm = .c := eq_of_beq h
  exact shape2 .callr y0
theorem ret : Statement .ret := fun sm h _ => by
  obtain rfl : sm = .c := eq_of_beq h
  exact rfl
theorem loop (y0 : BitVec 3) (y1 : BitVec 6) (y2 : BitVec 8) : Statement (.loop y0 y1 y2) := fun sm h _ => by
  obtain rfl : sm = .c := eq_of_beq h
  exact shape5 .loop y0 y1 y2
theorem loopi (y0 : BitVec 3) (y1 : BitVec 9) (y2 : BitVec 8) : Statement (.loopi y0 y1 y2) := fun sm h _ => by
  obtain rfl : sm = .c := eq_of_beq h
  exact shape6 .loopi y0 y1 y2
theorem step (y0 : BitVec 4) (y1 : BitVec 3) (y2 : BitVec 13) : Statement (.step y0 y1 y2) := fun sm h _ => by
  obtain rfl : sm = .c := eq_of_beq h
  exact shape7 .step y0 y1 y2
theorem stepr (y0 : BitVec 4) (y1 : BitVec 3) (y2 : BitVec 6) : Statement (.stepr y0 y1 y2) := fun sm h _ => by
  obtain rfl : sm = .c := eq_of_beq h
  exact shape8 .stepr y0 y1 y2
theorem ord (y0 : BitVec 4) (y1 : BitVec 5) : Statement (.ord y0 y1) := fun sm h _ => by
  obtain rfl : sm = .c := eq_of_beq h
  exact shape9 .ord y0 y1
theorem waitF (y0 : BitVec 16) : Statement (.waitF y0) := fun sm h _ => by
  obtain rfl : sm = .c := eq_of_beq h
  exact shape10 .waitF y0
theorem tbar : Statement .tbar := fun sm h _ => by
  obtain rfl : sm = .c := eq_of_beq h
  exact rfl
theorem tail (y0 : BitVec 6) (y1 : BitVec 6) : Statement (.tail y0 y1) := fun sm h _ => by
  obtain rfl : sm = .c := eq_of_beq h
  exact shape11 .tail y0 y1
theorem endCtx : Statement .endCtx := fun sm h _ => by
  obtain rfl : sm = .c := eq_of_beq h
  exact rfl
theorem mfs (y0 : BitVec 6) (y1 : BitVec 10) : Statement (.mfs y0 y1) := fun sm h _ => by
  obtain rfl : sm = .c := eq_of_beq h
  exact shape12 .mfs y0 y1
theorem mts (y0 : BitVec 6) (y1 : BitVec 10) : Statement (.mts y0 y1) := fun sm h _ => by
  obtain rfl : sm = .c := eq_of_beq h
  exact shape12 .mts y0 y1
theorem trap (y0 : BitVec 8) : Statement (.trap y0) := fun sm h _ => by
  obtain rfl : sm = .c := eq_of_beq h
  exact shape13 .trap y0
theorem tret : Statement .tret := fun sm h _ => by
  obtain rfl : sm = .c := eq_of_beq h
  exact rfl
theorem csave (y0 : BitVec 6) : Statement (.csave y0) := fun sm h _ => by
  obtain rfl : sm = .c := eq_of_beq h
  exact shape2 .csave y0
theorem crest (y0 : BitVec 6) : Statement (.crest y0) := fun sm h _ => by
  obtain rfl : sm = .c := eq_of_beq h
  exact shape2 .crest y0
theorem ckptg (y0 : BitVec 6) : Statement (.ckptg y0) := fun sm h _ => by
  obtain rfl : sm = .c := eq_of_beq h
  exact shape2 .ckptg y0
theorem replayg (y0 : BitVec 6) : Statement (.replayg y0) := fun sm h _ => by
  obtain rfl : sm = .c := eq_of_beq h
  exact shape2 .replayg y0
theorem tlbinv (y0 : BitVec 6) : Statement (.tlbinv y0) := fun sm h _ => by
  obtain rfl : sm = .c := eq_of_beq h
  exact shape2 .tlbinv y0
theorem tlbinva : Statement .tlbinva := fun sm h _ => by
  obtain rfl : sm = .c := eq_of_beq h
  exact rfl
theorem enrd (y0 : BitVec 6) (y1 : BitVec 2) : Statement (.enrd y0 y1) := fun sm h _ => by
  obtain rfl : sm = .c := eq_of_beq h
  exact shape14 .enrd y0 y1
theorem clkreq (y0 : BitVec 6) : Statement (.clkreq y0) := fun sm h _ => by
  obtain rfl : sm = .c := eq_of_beq h
  exact shape2 .clkreq y0
theorem sgjoin (y0 : BitVec 6) : Statement (.sgjoin y0) := fun sm h _ => by
  obtain rfl : sm = .c := eq_of_beq h
  exact shape2 .sgjoin y0
theorem sgleave : Statement .sgleave := fun sm h _ => by
  obtain rfl : sm = .c := eq_of_beq h
  exact rfl
theorem selftest (y0 : BitVec 6) : Statement (.selftest y0) := fun sm h _ => by
  obtain rfl : sm = .c := eq_of_beq h
  exact shape2 .selftest y0
theorem irq (y0 : BitVec 8) : Statement (.irq y0) := fun sm h _ => by
  obtain rfl : sm = .c := eq_of_beq h
  exact shape13 .irq y0
theorem brk : Statement .brk := fun sm h _ => by
  obtain rfl : sm = .c := eq_of_beq h
  exact rfl
theorem pwrgive (y0 : BitVec 6) : Statement (.pwrgive y0) := fun sm h _ => by
  obtain rfl : sm = .c := eq_of_beq h
  exact shape2 .pwrgive y0
theorem pwrask (y0 : BitVec 6) : Statement (.pwrask y0) := fun sm h _ => by
  obtain rfl : sm = .c := eq_of_beq h
  exact shape2 .pwrask y0
theorem launch (y0 : BitVec 5) : Statement (.launch y0) := fun sm h _ => by
  obtain rfl : sm = .c := eq_of_beq h
  exact shape15 .launch y0
theorem waitrun (y0 : BitVec 4) (y1 : BitVec 5) : Statement (.waitrun y0 y1) := fun sm h _ => by
  obtain rfl : sm = .c := eq_of_beq h
  exact shape9 .waitrun y0 y1
theorem signal (y0 : BitVec 8) (y1 : BitVec 1) (y2 : BitVec 5) : Statement (.signal y0 y1 y2) := fun sm h _ => by
  obtain rfl : sm = .c := eq_of_beq h
  exact shape16 .signal y0 y1 y2
theorem fence : Statement .fence := fun sm h _ => by
  obtain rfl : sm = .c := eq_of_beq h
  exact rfl
theorem append (y0 : BitVec 4) (y1 : W64) : Statement (.append y0 y1) := fun _ h => nomatch h
theorem windowLoad (y0 : W64) (y1 : Nat) : Statement (.windowLoad y0 y1) := fun _ h => nomatch h
theorem windowStore (y0 : W64) (y1 : List Byte) : Statement (.windowStore y0 y1) := fun _ h => nomatch h
theorem registerWrite (y0 : W64) (y1 : W64) : Statement (.registerWrite y0 y1) := fun _ h => nomatch h
theorem sstatWrite (y0 : BitVec 4) (y1 : W64) : Statement (.sstatWrite y0 y1) := fun _ h => nomatch h
theorem sheadWrite (y0 : BitVec 4) (y1 : W64) : Statement (.sheadWrite y0 y1) := fun _ h => nomatch h
theorem sseqWrite (y0 : BitVec 4) (y1 : W64) : Statement (.sseqWrite y0 y1) := fun _ h => nomatch h
theorem sendWrite (y0 : BitVec 4) (y1 : W64) : Statement (.sendWrite y0 y1) := fun _ h => nomatch h
theorem partitionWrite (y0 : BitVec 6) (y1 : Byte) : Statement (.partitionWrite y0 y1) := fun _ h => nomatch h
theorem configurationWrite (y0 : BitVec 6) (y1 : W64) : Statement (.configurationWrite y0 y1) := fun _ h => nomatch h
theorem counterClear (y0 : BitVec 16) (y1 : W64) : Statement (.counterClear y0 y1) := fun _ h => nomatch h
theorem grantWrite (y0 : BitVec 6) (y1 : W64) : Statement (.grantWrite y0 y1) := fun _ h => nomatch h
theorem endRun (y0 : BitVec 4) (y1 : W64) : Statement (.endRun y0 y1) := fun _ h => nomatch h
theorem shareWindowWrite (y0 : BitVec 10) (y1 : Byte) : Statement (.shareWindowWrite y0 y1) := fun _ h => nomatch h
theorem scratchpadClaim (y0 : W64) : Statement (.scratchpadClaim y0) := fun _ h => nomatch h
theorem interruptVectorWrite (y0 : W64) : Statement (.interruptVectorWrite y0) := fun _ h => nomatch h
theorem strayFree (y0 : Nat) : Statement (.strayFree y0) := fun _ h => nomatch h
theorem runPlacement (y0 : Nat) : Statement (.runPlacement y0) := fun _ h => nomatch h
theorem runStart (y0 : Nat) : Statement (.runStart y0) := fun _ h => nomatch h
theorem waitrunDone (y0 : BitVec 4) : Statement (.waitrunDone y0) := fun _ h => nomatch h
theorem fenceDone (y0 : BitVec 4) : Statement (.fenceDone y0) := fun _ h => nomatch h
theorem signalStorePerformed (y0 : BitVec 4) : Statement (.signalStorePerformed y0) := fun _ h => nomatch h
theorem runRetire (y0 : Nat) : Statement (.runRetire y0) := fun _ h => nomatch h
theorem deferredStreamFault (y0 : BitVec 4) : Statement (.deferredStreamFault y0) := fun _ h => nomatch h
theorem retiredMapsEmpty (y0 : Nat) : Statement (.retiredMapsEmpty y0) := fun _ h => nomatch h
theorem preempt (y0 : Nat) : Statement (.preempt y0) := fun _ h => nomatch h
theorem contextResume (y0 : Nat) : Statement (.contextResume y0) := fun _ h => nomatch h
theorem spinWake (y0 : Nat) : Statement (.spinWake y0) := fun _ h => nomatch h
theorem barWaitWake (y0 : Nat) : Statement (.barWaitWake y0) := fun _ h => nomatch h
theorem waitanyWake (y0 : Nat) : Statement (.waitanyWake y0) := fun _ h => nomatch h
theorem waitaWake (y0 : Nat) : Statement (.waitaWake y0) := fun _ h => nomatch h
theorem waitWake (y0 : Nat) : Statement (.waitWake y0) := fun _ h => nomatch h
theorem tbarRelease (y0 y1 : Nat) : Statement (.tbarRelease y0 y1) := fun _ h => nomatch h
theorem bufferFullCheckpoint (y0 y1 : Nat) : Statement (.bufferFullCheckpoint y0 y1) := fun _ h => nomatch h
theorem generatorBarrierRelease (y0 y1 : Nat) : Statement (.generatorBarrierRelease y0 y1) := fun _ h => nomatch h
theorem faultDelivery (y0 y1 : Nat) : Statement (.faultDelivery y0 y1) := fun _ h => nomatch h
theorem loadDataReturn (y0 : Nat) : Statement (.loadDataReturn y0) := fun _ h => nomatch h
theorem engineBegin (y0 : Nat) : Statement (.engineBegin y0) := fun _ h => nomatch h
theorem vOpComplete (y0 : Nat) : Statement (.vOpComplete y0) := fun _ h => nomatch h
theorem qcOpComplete (y0 : Nat) : Statement (.qcOpComplete y0) := fun _ h => nomatch h
theorem mOpComplete (y0 : Nat) : Statement (.mOpComplete y0) := fun _ h => nomatch h
theorem localPerform (y0 : Nat) : Statement (.localPerform y0) := fun _ h => nomatch h
theorem homePerform (y0 : Nat) : Statement (.homePerform y0) := fun _ h => nomatch h
theorem lgReadPerform (y0 : Nat) : Statement (.lgReadPerform y0) := fun _ h => nomatch h
theorem lgAtomicPerform (y0 : Nat) : Statement (.lgAtomicPerform y0) := fun _ h => nomatch h
theorem drainComplete (y0 : Nat) : Statement (.drainComplete y0) := fun _ h => nomatch h
theorem pageWalkComplete (y0 : Nat) (y1 : W64) (y2 : W64) : Statement (.pageWalkComplete y0 y1 y2) := fun _ h => nomatch h
theorem bolterBlockVerify (y0 : Nat) : Statement (.bolterBlockVerify y0) := fun _ h => nomatch h
theorem dataPacketArrive (y0 : LandPkt) : Statement (.dataPacketArrive y0) := fun _ h => nomatch h
theorem endMarkerArrive (y0 : LandPkt) : Statement (.endMarkerArrive y0) := fun _ h => nomatch h
theorem endMarkerApply (y0 : Nat) : Statement (.endMarkerApply y0) := fun _ h => nomatch h
theorem transferAck (y0 : Nat) (y1 : BitVec 12) (y2 : Nat) : Statement (.transferAck y0 y1 y2) := fun _ h => nomatch h
theorem mapInstall (y0 : Nat) : Statement (.mapInstall y0) := fun _ h => nomatch h
theorem mapSwap (y0 : Nat) : Statement (.mapSwap y0) := fun _ h => nomatch h
theorem mapRetire (y0 : Nat) : Statement (.mapRetire y0) := fun _ h => nomatch h
theorem undeliverableNotice (y0 : Notice) : Statement (.undeliverableNotice y0) := fun _ h => nomatch h
theorem flitReceive (y0 : BitVec 3) (y1 : Flit) : Statement (.flitReceive y0 y1) := fun _ h => nomatch h
theorem linkReplayRequest (y0 : BitVec 3) (y1 : Nat) : Statement (.linkReplayRequest y0 y1) := fun _ h => nomatch h
theorem packetForward (y0 : BitVec 3 × Bool) : Statement (.packetForward y0) := fun _ h => nomatch h
theorem remoteRequestArrive (y0 : RemReq) : Statement (.remoteRequestArrive y0) := fun _ h => nomatch h
theorem remoteReplyArrive (y0 : BitVec 8) (y1 : Nat) (y2 : BitVec 4) (y3 : BitVec 4) (y4 : List Byte) : Statement (.remoteReplyArrive y0 y1 y2 y3 y4) := fun _ h => nomatch h
theorem remoteRequestTimeout (y0 : BitVec 8) (y1 : Nat) : Statement (.remoteRequestTimeout y0 y1) := fun _ h => nomatch h
theorem linkPushDepart (y0 : Nat) (y1 : BitVec 3) : Statement (.linkPushDepart y0 y1) := fun _ h => nomatch h
theorem linkWordArrive (y0 : LinkWord) : Statement (.linkWordArrive y0) := fun _ h => nomatch h
theorem linkRequestServe (y0 : LinkReq) : Statement (.linkRequestServe y0) := fun _ h => nomatch h
theorem linkReplyArrive (y0 : Nat) (y1 : BitVec 3) (y2 y3 : W64) : Statement (.linkReplyArrive y0 y1 y2 y3) := fun _ h => nomatch h
theorem linkRequestTimeout (y0 : Nat) (y1 : BitVec 3) (y2 : BitVec 12) : Statement (.linkRequestTimeout y0 y1 y2) := fun _ h => nomatch h
theorem causalStorePerform (y0 : CausalPkt) : Statement (.causalStorePerform y0) := fun _ h => nomatch h
theorem landingNotice (y0 : BitVec 16) : Statement (.landingNotice y0) := fun _ h => nomatch h
theorem carrierArrive (y0 : CausalPkt) : Statement (.carrierArrive y0) := fun _ h => nomatch h
theorem carrierEnterSluice : Statement .carrierEnterSluice := fun _ h => nomatch h
theorem causalQuery (y0 : BitVec 12) (y1 : BitVec 16) : Statement (.causalQuery y0 y1) := fun _ h => nomatch h
theorem answerLanded (y0 : BitVec 12) (y1 : BitVec 16) : Statement (.answerLanded y0 y1) := fun _ h => nomatch h
theorem answerLost (y0 : BitVec 12) (y1 : BitVec 16) : Statement (.answerLost y0 y1) := fun _ h => nomatch h
theorem carrierDeadline (y0 : Nat) : Statement (.carrierDeadline y0) := fun _ h => nomatch h
theorem ownEntryDeadline (y0 : BitVec 16) : Statement (.ownEntryDeadline y0) := fun _ h => nomatch h
theorem expiryNotice (y0 : Nat × W64) (y1 : Nat × BitVec 4) : Statement (.expiryNotice y0 y1) := fun _ h => nomatch h
theorem landedRecordExpiry (y0 : BitVec 12) (y1 : BitVec 16) : Statement (.landedRecordExpiry y0 y1) := fun _ h => nomatch h
theorem reductionContributionArrive (y0 : RedPkt) : Statement (.reductionContributionArrive y0) := fun _ h => nomatch h
theorem reductionSlotApply (y0 : Nat) : Statement (.reductionSlotApply y0) := fun _ h => nomatch h
theorem xredContributionArrive (y0 : XredPkt) : Statement (.xredContributionArrive y0) := fun _ h => nomatch h
theorem xredSlotDeadline (y0 : Nat) : Statement (.xredSlotDeadline y0) := fun _ h => nomatch h
theorem reductionSlotAdmit : Statement .reductionSlotAdmit := fun _ h => nomatch h
theorem ftimeAdjust (y0 : W64) : Statement (.ftimeAdjust y0) := fun _ h => nomatch h
theorem clockLimitChange (y0 : Nat) : Statement (.clockLimitChange y0) := fun _ h => nomatch h
theorem groupLimitReport (y0 : BitVec 16) (y1 : BitVec 12) (y2 : Nat) (y3 : Nat) : Statement (.groupLimitReport y0 y1 y2 y3) := fun _ h => nomatch h
theorem groupClockAnnounce (y0 : BitVec 16 × Nat) (y1 : Nat) (y2 : Nat) : Statement (.groupClockAnnounce y0 y1 y2) := fun _ h => nomatch h
theorem groupClockSwitch (y0 : Nat) : Statement (.groupClockSwitch y0) := fun _ h => nomatch h
theorem grantUnitsArrive (y0 : BitVec 12) (y1 : Nat) : Statement (.grantUnitsArrive y0 y1) := fun _ h => nomatch h
theorem powerAskArrive (y0 : BitVec 12) (y1 : Nat) : Statement (.powerAskArrive y0 y1) := fun _ h => nomatch h
theorem grantUnitsReturned (y0 : Nat) : Statement (.grantUnitsReturned y0) := fun _ h => nomatch h
theorem powerPeriod : Statement .powerPeriod := fun _ h => nomatch h
theorem energyPeriod : Statement .energyPeriod := fun _ h => nomatch h
theorem deviceReset (y0 : Firmware) : Statement (.deviceReset y0) := fun _ h => nomatch h
theorem lifeCycleChange (y0 : LifeCycle) (y1 : Signatures) : Statement (.lifeCycleChange y0 y1) := fun _ h => nomatch h
theorem linkAttestation (y0 : BitVec 3) (y1 : AttReport) : Statement (.linkAttestation y0 y1) := fun _ h => nomatch h
theorem memoryError (y0 : Resource) (y1 : Nat) (y2 : Bool) (y3 : Option Reader) (y4 : W64) : Statement (.memoryError y0 y1 y2 y3 y4) := fun _ h => nomatch h
theorem targetedSelfTest (y0 : Resource) (y1 : Nat) : Statement (.targetedSelfTest y0 y1) := fun _ h => nomatch h
theorem wipeFinish : Statement .wipeFinish := fun _ h => nomatch h
theorem linkRetrainDone (y0 : BitVec 3) : Statement (.linkRetrainDone y0) := fun _ h => nomatch h

end Sys2Proof.Laws.F
end

