-- ==== Sys2Proof/Safety.lean ====
section
/-! DEFINITION. What counts as a safe run: no step of it ends in a fault or a refusal, and memory keeps its canonical form. -/

namespace Sys2Proof.Machine

/-- The step at `s` gives a next state. -/
def State.Goes (s : State) : Prop := ∃ t, step s = .next t

/-- `n` steps from `s` lead to `t`. -/
inductive Steps : Nat → State → State → Prop where
  | done (s : State) : Steps 0 s s
  | more (n : Nat) (s t u : State) : step s = .next t → Steps n t u → Steps (n + 1) s u

/-- A run from `s` is safe: every state that it reaches goes on, with its memory in the canonical form. -/
def State.Safe (s : State) : Prop := ∀ n t, Steps n s t → t.Goes ∧ Memory.wf t.m.mem = true

end Sys2Proof.Machine
end

