-- ==== Sys2Proof/Tests/Slice0.lean ====
section
/-! SUPPORT. Tests: ill-formed terms that WellFormed refuses, a word of the spec's encoding for every instruction, and states that meet
the hypotheses of the statements. Each result comes from the spec's tables and worked examples. -/

namespace Sys2Proof.Tests

open Sys2Proof Sys2Proof.Machine Sys2Proof.Claims

set_option Elab.async false

/-- The first context of a placed run, at an issue of slot `k` whose bundle holds the literals `pool`. -/
def bench (k : Nat) (pool : List W32) : State :=
  let m := Mach.reset.standWord 1 0
  { m := m, old := m, agenda := []
    iss := { Issue.none with agent := .ctx 0, slot := k, addr := 0x10000, next := 0x10020, fresh := true, pool := pool
                             hdr := { p := 0, rep := 0, stop := false, lits := BitVec.ofNat 5 pool.length } } }

/-- The bench with its machine changed before the issue. -/
def benchM (k : Nat) (pool : List W32) (f : Mach → Mach) : State :=
  let m := f (bench k pool).m
  { bench k pool with m := m, old := m }

/-- The bench with its context changed before the issue. -/
def benchC (k : Nat) (pool : List W32) (f : Ctx → Ctx) : State := benchM k pool (fun m => m.modCtx 0 f)

/-- The bench with general registers set before the issue. -/
def benchG (k : Nat) (pool : List W32) (gs : List (BitVec 6 × W64)) : State :=
  benchC k pool (fun c => { c with regs := gs.foldl (fun r p => r.wg p.1 p.2) c.regs })

/-- The bench in handler mode. -/
def benchH (k : Nat) (gs : List (BitVec 6 × W64)) : State :=
  benchC k [] (fun c => { c with trp := { c.trp with handler := true }, regs := gs.foldl (fun r p => r.wg p.1 p.2) c.regs })

/-- What holds of the next state that a meaning answers. -/
def next (i : Instr) (s : State) (p : State → Bool) : Bool :=
  match exec i s with
  | .next t => p t
  | _ => false


/-- The word decodes in the slot map to the instruction, with no path tag and no iteration bit. -/
noncomputable def reads (p : SlotMap × W32 × Instr) : Bool := decide (decodeSlot p.1 p.2.1 = .ok { pt := 0, fi := false, li := false, ins := p.2.2 })

theorem test_words_control_1 : [
    (.c, 0x001B1C6E, .jmp 0xB1C6E),
    (.c, 0x002B1C6E, .call 0xB1C6E),
    (.c, 0x00394000, .jmpr 0x25),
    (.c, 0x00594000, .callr 0x25),
    (.c, 0x00600000, .ret),
    (.c, 0x010AD0A6, .loop 5 0x1A 0xA6),
    (.c, 0x011AB3A6, .loopi 5 0xB3 0xA6),
    (.c, 0x0129BA53, .step 9 5 0x1A53),
    (.c, 0x0139B980, .stepr 9 5 0x33),
    (.c, 0x014A0015, .ord 0xA 0x15),
    (.c, 0x015A35C0, .waitF 0xA35C),
    (.c, 0x01A00000, .tbar),
    (.c, 0x01C95A00, .tail 0x25 0x1A),
    (.c, 0x01E00000, .endCtx),
    (.c, 0x04094130, .mfs 0x25 0x13),
    (.c, 0x04194420, .mts 0x25 0x42),
    (.c, 0x042A6000, .trap 0xA6),
    (.c, 0x04300000, .tret),
    (.c, 0x04494000, .csave 0x25),
    (.c, 0x04594000, .crest 0x25),
    (.c, 0x04694000, .ckptg 0x25),
    (.c, 0x04794000, .replayg 0x25),
    (.c, 0x04894000, .tlbinv 0x25),
    (.c, 0x04900000, .tlbinva)].all reads = true := by decide

theorem test_words_control_2 : [
    (.c, 0x04A96000, .enrd 0x25 2),
    (.c, 0x04B94000, .clkreq 0x25),
    (.c, 0x04C94000, .sgjoin 0x25),
    (.c, 0x04D00000, .sgleave),
    (.c, 0x04E94000, .selftest 0x25),
    (.c, 0x04FA6000, .irq 0xA6),
    (.c, 0x05000000, .brk),
    (.c, 0x05194000, .pwrgive 0x25),
    (.c, 0x05294000, .pwrask 0x25),
    (.c, 0x0049A000, .br 2 13),
    (.c, 0x06000009, .launch 9),
    (.c, 0x061A0011, .waitrun 10 17),
    (.c, 0x0620A72B, .signal 0xA7 1 11),
    (.c, 0x06300000, .fence),
    (.c, 0x00000000, .nop)].all reads = true := by decide

theorem test_words_scalar_1 : [
    (.s, 0x00195ACC, .addS64 0x25 0x1A 0x33),
    (.s, 0x00295ACC, .subS64 0x25 0x1A 0x33),
    (.s, 0x00395ACC, .mulS64 0x25 0x1A 0x33),
    (.s, 0x00495ACC, .mulhS64 0x25 0x1A 0x33),
    (.s, 0x00595ACC, .mulhZ64 0x25 0x1A 0x33),
    (.s, 0x00695ACC, .andZ64 0x25 0x1A 0x33),
    (.s, 0x00795ACC, .orZ64 0x25 0x1A 0x33),
    (.s, 0x00895AA6, .addS64Imm 0x25 0x1A 0xA6),
    (.s, 0x00995AA6, .andZ64Imm 0x25 0x1A 0xA6),
    (.s, 0x00A95AA6, .orZ64Imm 0x25 0x1A 0xA6),
    (.s, 0x00B95AA6, .xorZ64Imm 0x25 0x1A 0xA6),
    (.s, 0x00C9401A, .liS64 0x25 0x1A),
    (.s, 0x00D9401A, .li64 0x25 0x1A),
    (.s, 0x00E95ACC, .xorZ64 0x25 0x1A 0x33),
    (.s, 0x01095A33, .shlZ64Imm 0x25 0x1A 0x33),
    (.s, 0x01195A33, .shrZ64Imm 0x25 0x1A 0x33),
    (.s, 0x01295A33, .asrS64Imm 0x25 0x1A 0x33),
    (.s, 0x01395ACC, .shlZ64 0x25 0x1A 0x33),
    (.s, 0x01495ACC, .shrZ64 0x25 0x1A 0x33),
    (.s, 0x01595ACC, .asrS64 0x25 0x1A 0x33),
    (.s, 0x01695ACC, .minS64 0x25 0x1A 0x33),
    (.s, 0x01795ACC, .maxS64 0x25 0x1A 0x33),
    (.s, 0x01895ACC, .minZ64 0x25 0x1A 0x33),
    (.s, 0x01995ACC, .maxZ64 0x25 0x1A 0x33)].all reads = true := by decide

theorem test_words_scalar_2 : [
    (.s, 0x01A95ACC, .divS64 0x25 0x1A 0x33),
    (.s, 0x01B95ACC, .divZ64 0x25 0x1A 0x33),
    (.s, 0x01C95ACC, .remS64 0x25 0x1A 0x33),
    (.s, 0x01D95ACC, .remZ64 0x25 0x1A 0x33),
    (.s, 0x01E95A1A, .bfxZ64 0x25 0x1A 0x1A),
    (.s, 0x01F95A1A, .bfxS64 0x25 0x1A 0x1A),
    (.s, 0x02066B30, .cmpLtS64 6 0x1A 0x33),
    (.s, 0x02166B30, .cmpEqS64 6 0x1A 0x33),
    (.s, 0x02266B30, .cmpLeS64 6 0x1A 0x33),
    (.s, 0x02366B30, .cmpNeS64 6 0x1A 0x33),
    (.s, 0x02466B30, .cmpLtZ64 6 0x1A 0x33),
    (.s, 0x02566B30, .cmpLeZ64 6 0x1A 0x33),
    (.s, 0x02695A1A, .bfiZ64 0x25 0x1A 0x1A),
    (.s, 0x02866AB5, .cmpLtS64Imm 6 0x1A 0x2B5),
    (.s, 0x02966AB5, .cmpEqS64Imm 6 0x1A 0x2B5),
    (.s, 0x02A66AB5, .cmpLeS64Imm 6 0x1A 0x2B5),
    (.s, 0x02B66AB5, .cmpNeS64Imm 6 0x1A 0x2B5),
    (.s, 0x02C66AB5, .cmpLtZ64Imm 6 0x1A 0x2B5),
    (.s, 0x02D66AB5, .cmpLeZ64Imm 6 0x1A 0x2B5),
    (.s, 0x03066500, .fand 6 6 5),
    (.s, 0x03166500, .fior 6 6 5),
    (.s, 0x03266500, .fxor 6 6 5),
    (.s, 0x03366500, .fandn 6 6 5),
    (.s, 0x03460000, .fset 6)].all reads = true := by decide

theorem test_words_scalar_3 : [
    (.s, 0x03560000, .fclr 6),
    (.s, 0x03894005, .movS64Pop 0x25 5),
    (.s, 0x03994005, .movS64Push 0x25 5),
    (.s, 0x03A95A00, .popcZ64 0x25 0x1A),
    (.s, 0x03B95A00, .clzZ64 0x25 0x1A),
    (.s, 0x03C95A00, .ctzZ64 0x25 0x1A),
    (.s, 0x04095A80, .cvtF32S64 0x25 0x1A 4),
    (.s, 0x04195A80, .cvtS64F32 0x25 0x1A 4),
    (.s, 0x04295A80, .cvtF32Z64 0x25 0x1A 4),
    (.s, 0x04395A80, .cvtZ64F32 0x25 0x1A 4)].all reads = true := by decide

theorem test_words_memory_1 : [
    ((.mem .ll), 0x0019B52D, .ld .ll 0x13 0x1A 0x12D),
    ((.mem .lk), 0x0029B52D, .st .lk 0x13 0x1A 0x12D),
    ((.mem .lg), 0x0032B52D, .ldm .lg 5 0x1A 0x12D),
    ((.mem .ll), 0x0042B52D, .stm .ll 5 0x1A 0x12D),
    ((.mem .lg), 0x0050352D, .pfLg 0x1A 0x12D),
    ((.mem .lk), 0x0069B598, .ldt .lk 0x13 0x1A 0x33),
    ((.mem .lk), 0x0079B598, .stt .lk 0x13 0x1A 0x33),
    ((.mem .lk), 0x00895AA6, .ldsS8 .lk 0x25 0x1A 0xA6),
    ((.mem .lg), 0x00995AA6, .ldsZ8 .lg 0x25 0x1A 0xA6),
    ((.mem .ll), 0x00A95AA6, .ldsS16 .ll 0x25 0x1A 0xA6),
    ((.mem .lk), 0x00B95AA6, .ldsZ16 .lk 0x25 0x1A 0xA6),
    ((.mem .lg), 0x00C95AA6, .ldsS32 .lg 0x25 0x1A 0xA6),
    ((.mem .ll), 0x00D95AA6, .ldsZ32 .ll 0x25 0x1A 0xA6),
    ((.mem .lk), 0x00E95AA6, .ldsS64 .lk 0x25 0x1A 0xA6),
    ((.mem .lg), 0x01095AA6, .stsZ8 .lg 0x25 0x1A 0xA6),
    ((.mem .ll), 0x01195AA6, .stsZ16 .ll 0x25 0x1A 0xA6),
    ((.mem .lk), 0x01295AA6, .stsZ32 .lk 0x25 0x1A 0xA6),
    ((.mem .lg), 0x01395AA6, .stsZ64 .lg 0x25 0x1A 0xA6),
    ((.mem .ll), 0x01895ACC, .aaddS64 .ll 0x25 0x1A 0x33),
    ((.mem .lk), 0x01995ACC, .aminS64 .lk 0x25 0x1A 0x33),
    ((.mem .lg), 0x01A95ACC, .amaxS64 .lg 0x25 0x1A 0x33),
    ((.mem .ll), 0x01B95ACC, .aandZ64 .ll 0x25 0x1A 0x33),
    ((.mem .lk), 0x01C95ACC, .aorZ64 .lk 0x25 0x1A 0x33),
    ((.mem .lg), 0x01D95ACC, .axorZ64 .lg 0x25 0x1A 0x33)].all reads = true := by decide

theorem test_words_memory_2 : [
    ((.mem .ll), 0x01E95ACC, .aswpZ64 .ll 0x25 0x1A 0x33),
    ((.mem .lk), 0x01F95ACC, .acasZ64 .lk 0x25 0x1A 0x33),
    ((.mem .lg), 0x0209B52D, .redAddF32 0x13 0x1A 0x12D),
    ((.mem .lg), 0x0219B52D, .redMaxF32 0x13 0x1A 0x12D),
    ((.mem .lg), 0x0229B52D, .redMinF32 0x13 0x1A 0x12D),
    ((.mem .lg), 0x0239B52D, .redAddS32 0x13 0x1A 0x12D),
    ((.mem .lg), 0x0249B52D, .redMaxS32 0x13 0x1A 0x12D),
    ((.mem .lg), 0x0259B52D, .redMinS32 0x13 0x1A 0x12D),
    ((.mem .lg), 0x0289B4C0, .stLgC 0x13 0x1A 3),
    ((.mem .lg), 0x0299B4E8, .stLgK 0x13 0x1A 3 5),
    ((.mem .ll), 0x0309566A, .barWait .ll 0x25 0xB3 5),
    ((.mem .lk), 0x03195660, .barArrive .lk 0x25 0xB3),
    ((.mem .ll), 0x0329567A, .barInit .ll 0x25 0xB3 0x1A),
    ((.mem .lk), 0x0339567A, .barExp .lk 0x25 0xB3 0x1A),
    ((.mem .ll), 0x03495AA6, .waitany .ll 0x25 0x1A 0xA6),
    ((.mem .lg), 0x03595AA6, .waita .lg 0x25 0x1A 0xA6),
    ((.mem .lg), 0x03600000, .drain)].all reads = true := by decide

theorem test_words_vector_1 : [
    (.v, 0x0019AF56, .vaddF32 0x13 0xB 0x1A 5 1),
    (.v, 0x0029AF56, .vsubF32 0x13 0xB 0x1A 5 1),
    (.v, 0x0039AF56, .vmulF32 0x13 0xB 0x1A 5 1),
    (.v, 0x0049AF56, .vfmaF32 0x13 0xB 0x1A 5 1),
    (.v, 0x0059AF56, .vminF32 0x13 0xB 0x1A 5 1),
    (.v, 0x0069AF56, .vmaxF32 0x13 0xB 0x1A 5 1),
    (.v, 0x0079AF56, .vaddBf16 0x13 0xB 0x1A 5 1),
    (.v, 0x0089AF56, .vsubBf16 0x13 0xB 0x1A 5 1),
    (.v, 0x0099AF56, .vmulBf16 0x13 0xB 0x1A 5 1),
    (.v, 0x00A9AF56, .vfmaBf16 0x13 0xB 0x1A 5 1),
    (.v, 0x00B9AF56, .vminBf16 0x13 0xB 0x1A 5 1),
    (.v, 0x00C9AF56, .vmaxBf16 0x13 0xB 0x1A 5 1),
    (.v, 0x00D9AF56, .vaddF16 0x13 0xB 0x1A 5 1),
    (.v, 0x00E9AF56, .vsubF16 0x13 0xB 0x1A 5 1),
    (.v, 0x00F9AF56, .vmulF16 0x13 0xB 0x1A 5 1),
    (.v, 0x0109AF56, .vfmaF16 0x13 0xB 0x1A 5 1),
    (.v, 0x0119AF56, .vminF16 0x13 0xB 0x1A 5 1),
    (.v, 0x0129AF56, .vmaxF16 0x13 0xB 0x1A 5 1),
    (.v, 0x0139AF56, .vdivF32 0x13 0xB 0x1A 5 1),
    (.v, 0x0149AC16, .vsqrtF32 0x13 0xB 5 1),
    (.v, 0x0159AC16, .vabsF32 0x13 0xB 5 1),
    (.v, 0x0169AC16, .vnegF32 0x13 0xB 5 1),
    (.v, 0x0189AF56, .vaddS32 0x13 0xB 0x1A 5 1),
    (.v, 0x0199AF56, .vsubS32 0x13 0xB 0x1A 5 1)].all reads = true := by decide

theorem test_words_vector_2 : [
    (.v, 0x01A9AF56, .vmulS32 0x13 0xB 0x1A 5 1),
    (.v, 0x01B9AF56, .vmulhS32 0x13 0xB 0x1A 5 1),
    (.v, 0x01C9AF56, .vminS32 0x13 0xB 0x1A 5 1),
    (.v, 0x01D9AF56, .vmaxS32 0x13 0xB 0x1A 5 1),
    (.v, 0x01E9AF56, .vminZ32 0x13 0xB 0x1A 5 1),
    (.v, 0x01F9AF56, .vmaxZ32 0x13 0xB 0x1A 5 1),
    (.v, 0x0209AF56, .vandZ32 0x13 0xB 0x1A 5 1),
    (.v, 0x0219AF56, .vorZ32 0x13 0xB 0x1A 5 1),
    (.v, 0x0229AF56, .vxorZ32 0x13 0xB 0x1A 5 1),
    (.v, 0x0239AF56, .vshlZ32 0x13 0xB 0x1A 5 1),
    (.v, 0x0249AF56, .vshrZ32 0x13 0xB 0x1A 5 1),
    (.v, 0x0259AF56, .vasrS32 0x13 0xB 0x1A 5 1),
    (.v, 0x0269AC16, .vnotZ32 0x13 0xB 5 1),
    (.v, 0x028ABD58, .vcmpLtF32 5 0xB 0x1A 5 1),
    (.v, 0x029ABD58, .vcmpLeF32 5 0xB 0x1A 5 1),
    (.v, 0x02AABD58, .vcmpEqF32 5 0xB 0x1A 5 1),
    (.v, 0x02BABD58, .vcmpLtS32 5 0xB 0x1A 5 1),
    (.v, 0x02CABD58, .vcmpEqS32 5 0xB 0x1A 5 1),
    (.v, 0x02DABD58, .vcmpLtZ32 5 0xB 0x1A 5 1),
    (.v, 0x02EB9800, .vmand 5 6 3),
    (.v, 0x02FB9800, .vmor 5 6 3),
    (.v, 0x030B9800, .vmxor 5 6 3),
    (.v, 0x031B8000, .vmnot 5 6),
    (.v, 0x0329AF56, .vsel 0x13 0xB 0x1A 5)].all reads = true := by decide

theorem test_words_vector_3 : [
    (.v, 0x0339AF56, .vperm 0x13 0xB 0x1A 5 1),
    (.v, 0x0349B400, .vbcast 0x13 0x1A),
    (.v, 0x03595798, .vext 0x25 0xB 0x33),
    (.v, 0x0369B598, .vins 0x13 0x1A 0x33),
    (.v, 0x0389AC00, .vtr32 0x13 0xB),
    (.v, 0x0399AC00, .vzord 0x13 0xB),
    (.v, 0x03A9AC00, .vrowm 0x13 0xB),
    (.v, 0x03C9AC16, .vrsumF32 0x13 0xB 5 1),
    (.v, 0x03D9AC16, .vrmaxF32 0x13 0xB 5 1),
    (.v, 0x03E9AC16, .vrminF32 0x13 0xB 5 1),
    (.v, 0x03F9AC16, .vrsumS32 0x13 0xB 5 1),
    (.v, 0x0409A000, .vrandZ32 0x13 1),
    (.v, 0x04294000, .vsetvl 0x25),
    (.v, 0x0439AC16, .vmov 0x13 0xB 5 1),
    (.v, 0x0449EA00, .vaccF32 0x13 6 0x14)].all reads = true := by decide

theorem test_words_quantise_slot : [
    (.qm, 0x0019B000, .qmaxF32 0x13 6),
    (.qm, 0x0029B000, .qmaxBf16 0x13 6),
    (.qm, 0x0039B000, .qmaxF16 0x13 6),
    (.qm, 0x00898000, .qmvsc 9 1)].all reads = true := by decide

theorem test_words_convert_slot : [
    (.qc, 0x001AB8F6, .qcvtE4m3 5 0xB 4 1 1 0xD 1),
    (.qc, 0x002AB8F6, .qcvtE5m2 5 0xB 4 1 1 0xD 1),
    (.qc, 0x003AB8F6, .qcvtE2m1 5 0xB 4 1 1 0xD 1),
    (.qc, 0x004AB8F6, .qcvtS8 5 0xB 4 1 1 0xD 1),
    (.qc, 0x005AB8F6, .qcvtBp8 5 0xB 4 1 1 0xD 1),
    (.qc, 0x008AB8F6, .qdqE4m3 5 0xB 4 1 1 0xD 1),
    (.qc, 0x009AB8F6, .qdqE5m2 5 0xB 4 1 1 0xD 1),
    (.qc, 0x00AAB8F6, .qdqE2m1 5 0xB 4 1 1 0xD 1),
    (.qc, 0x00BAB8F6, .qdqS8 5 0xB 4 1 1 0xD 1),
    (.qc, 0x00CAB8F6, .qdqBp8 5 0xB 4 1 1 0xD 1),
    (.qc, 0x01000000, .qrot),
    (.qc, 0x011AB000, .qin 5 0xB),
    (.qc, 0x012AB000, .qout 5 0xB),
    (.qc, 0x0189AE20, .cvtBf16F32 0x13 0xB 4 1),
    (.qc, 0x0199AE20, .cvtF16F32 0x13 0xB 4 1),
    (.qc, 0x01A9AC00, .cvtF32Bf16 0x13 0xB),
    (.qc, 0x01B9AC00, .cvtF32F16 0x13 0xB),
    (.qc, 0x01C9AE20, .cvtF32S32 0x13 0xB 4 1),
    (.qc, 0x01D9AE20, .cvtS32F32 0x13 0xB 4 1)].all reads = true := by decide

theorem test_words_scale_slot : [
    (.sc, 0x00196AB5, .ldsc 9 0x1A 0x2B5),
    (.sc, 0x00296AB5, .ldscB 9 0x1A 0x2B5),
    (.sc, 0x00396AB5, .stsc 9 0x1A 0x2B5)].all reads = true := by decide

theorem test_words_stone_1 : [
    (.m, 0x001B0000, .ldbS8 2 6),
    (.m, 0x002B0000, .ldbBf16 2 6),
    (.m, 0x003B0000, .ldbE4m3 2 6),
    (.m, 0x004B0000, .ldbE5m2 2 6),
    (.m, 0x005B0000, .ldbE2m1 2 6),
    (.m, 0x012ACDA8, .mmBp2 5 6 3 0x1A 1),
    (.m, 0x013ACDA8, .mmBp3 5 6 3 0x1A 1),
    (.m, 0x014ACDA8, .mmBp4 5 6 3 0x1A 1),
    (.m, 0x015ACDA8, .mmBp5 5 6 3 0x1A 1),
    (.m, 0x016ACDA8, .mmBp6 5 6 3 0x1A 1),
    (.m, 0x017ACDA8, .mmBp7 5 6 3 0x1A 1),
    (.m, 0x018ACDA8, .mmBp8 5 6 3 0x1A 1),
    (.m, 0x019ACDA8, .mmBf16 5 6 3 0x1A 1),
    (.m, 0x01AACDB0, .mmx 5 6 3 0xD 1),
    (.m, 0x01BACD9E, .dmm 5 6 3 1 0x13 1 1),
    (.m, 0x01CACD9A, .dmmr 5 6 3 1 0x13 0 1),
    (.m, 0x01D9EA00, .dtap 0x13 6 0x14),
    (.m, 0x0209EA00, .ardF32 0x13 6 0x14),
    (.m, 0x0219EA00, .ardS32 0x13 6 0x14),
    (.m, 0x0229EA00, .awrF32 0x13 6 0x14),
    (.m, 0x0239EA00, .awrS32 0x13 6 0x14),
    (.m, 0x024A0000, .aclr 5),
    (.m, 0x0259EA00, .aexp 0x13 6 0x14),
    (.m, 0x028B0000, .ldcv 2 6)].all reads = true := by decide

theorem test_words_stone_2 : [
    (.m, 0x029B0000, .ldbm 2 6),
    (.m, 0x030AD000, .mvfo 5 0x1A),
    (.m, 0x031AD000, .addfo 5 0x1A)].all reads = true := by decide

theorem test_words_transfer : [
    (.x, 0x00196800, .mvsh 9 0x1A),
    (.x, 0x00296800, .shadd 9 0x1A),
    (.x, 0x0039000B, .lish 9 0xB),
    (.x, 0x010E5E60, .xsend 0xE 0xB 0x33),
    (.x, 0x011E5E60, .xsendLk 0xE 0xB 0x33),
    (.x, 0x012E5E60, .xmcast 0xE 0xB 0x33),
    (.x, 0x013E5E60, .xmcastLk 0xE 0xB 0x33),
    (.x, 0x014E5E60, .xredAddF32 0xE 0xB 0x33),
    (.x, 0x015E5E60, .xredMaxF32 0xE 0xB 0x33),
    (.x, 0x016E5E60, .xredMinF32 0xE 0xB 0x33),
    (.x, 0x017E5E60, .xredAddBf16 0xE 0xB 0x33),
    (.x, 0x018E5E60, .xredAddS32 0xE 0xB 0x33),
    (.x, 0x019E5E60, .xredMaxS32 0xE 0xB 0x33),
    (.x, 0x02096A00, .ldmap 9 0x1A 1),
    (.x, 0x02196200, .swapmap 9 6 1),
    (.x, 0x02290200, .retiremap 9 1),
    (.x, 0x02306A00, .strays 0x1A 1),
    (.x, 0x028AD000, .lnbind 5 0x1A),
    (.x, 0x029A0000, .lnfree 5),
    (.x, 0x02AAD000, .lnmsg 5 0x1A),
    (.x, 0x030AD000, .ctset 5 0x1A),
    (.x, 0x031A0000, .ctclr 5)].all reads = true := by decide


/-! ### Ill-formed terms (R79 to R95) -/

theorem test_wf_refuses : ([.loop 6 1 0, .loopi 7 0 0, .step 12 0 0, .stepr 0 6 1, .ord 0 0, .ord 5 0, .mfs 1 0x003, .mts 1 0x044, .cmpLtS64 8 1 2,
    .cmpLeZ64Imm 15 1 0, .fand 8 0 0, .fset 9, .movS64Pop 1 6, .lnbind 7 1, .cvtF32S64 1 2 5, .ldt .ll 0 0 0, .stt .ll 0 0 0, .barWait .lg 0 0 0,
    .waitany .lg 0 0 1, .waitany .ll 0 0 0, .vaddF32 0 0 0 1 0, .vcmpLtF32 0 0 0 7 0, .vaccF32 0 0 3, .ardF32 0 0 30, .qmaxF32 0 0,
    .qmaxF16 0 12, .qcvtE4m3 0 0 5 0 0 0 0, .qcvtS8 0 0 0 1 0 0 0, .qdqBp8 0 0 0 0 0 1 0, .qdqS8 0 0 0 0 0 0 1, .cvtS32F32 0 0 3 2, .mmBp2 0 0 0 1 0,
    .mmBf16 0 1 0 33 0, .mmx 0 0 0 0 0, .dmm 0 0 0 0 0 0 0, .dmmr 0 1 0 0 0 1 0, .xsend 15 0 0, .xredAddF32 15 0 0, .swapmap 3 3 0] : List Instr).all
    (fun i => !i.wf) = true := by decide

theorem test_wf_accepts_the_bounds : ([.loop 5 1 0, .step 11 5 0, .ord 11 0, .mts 1 0x043, .cmpLtS64 7 1 2, .movS64Pop 1 5, .cvtF32S64 1 2 4,
    .vaddF32 0 0 0 7 1, .ardF32 0 0 28, .qcvtS8 0 0 4 3 1 15 1, .mmBp2 0 1 0 32 0, .mmBp2 0 1 0 0 0, .dmmr 0 1 0 0 0 0 1, .xsend 14 0 0] : List Instr).all
    (fun i => i.wf) = true := by decide

/-! ### The scalar slots -/

theorem witness_ScalarIntegersCompareAndCompute :
    scalarValue (benchG 1 [] [(1, 5), (2, 7)]) (.addS64 3 1 2) = some (3, 12) ∧
    flagValue (benchG 1 [] [(4, 1)]) (.cmpLtZ64Imm 3 4 0x3FF) = some (3, true) := by decide +kernel

theorem witness_ScalarLiteralFormsAndConversions :
    holdsLits (bench 1 [7]) 0 1 ∧ ¬ holdsLits (bench 1 []) 0 1 ∧ holdsLits (bench 1 [7, 1]) 0 2 ∧ ¬ holdsLits (bench 1 [7]) 0 2 ∧
    (holdsLits (bench 1 [0xFC0]) 0 1 ∧ fieldFits ((bench 1 [0xFC0]).lit 0)) ∧ ¬ (holdsLits (bench 1 [0xFC1]) 0 1 ∧ fieldFits ((bench 1 [0xFC1]).lit 0)) ∧
    (conversion (bench 1 []) (.cvtS64F32 1 2 4)).isSome = true := by
  unfold holdsLits fieldFits; decide +kernel

/-- Link pair 0 of the bench's core is bound in MODE `mode`, with a word waiting and `asm` in assembly. -/
def benchL (mode : W64) (asm : List W64) : State :=
  benchM 1 [] (fun m => m.modCore 0 (fun c => c.modLink 0 (fun l => { l with holder := some (m.ctx 0).rid, bind := mode * 256, inb := [9], asm := asm })))

theorem witness_LinkMovesPopAndPush :
    (bound (benchL 0 []) 0 ∧ (linkNow (benchL 0 []) 0).inb = [9]) ∧ ¬ bound (bench 1 []) 0 ∧ bound (benchL 1 []) 0 ∧
    (linkNow (benchL 1 [0x1000000000000000]) 0).asm = [0x1000000000000000] := by
  unfold bound; decide +kernel

theorem test_div_min : next (.divS64 5 6 7) (benchG 1 [] [(6, 0x8000000000000000), (7, -1)]) (fun t => t.nc.regs.rg 5 == 0x8000000000000000) = true := by
  decide +kernel
theorem test_rem_sign : next (.remS64 5 6 7) (benchG 1 [] [(6, -7), (7, 2)]) (fun t => t.nc.regs.rg 5 == -1) = true := by decide +kernel
theorem test_mulh : next (.mulhS64 5 6 7) (benchG 1 [] [(6, -1), (7, 1)]) (fun t => t.nc.regs.rg 5 == -1) = true := by decide +kernel
theorem test_mulh_unsigned : next (.mulhZ64 5 6 7) (benchG 1 [] [(6, -1), (7, 2)]) (fun t => t.nc.regs.rg 5 == 1) = true := by decide +kernel
theorem test_g0_is_not_written : next (.addS64Imm 0 0 5) (bench 1 []) (fun t => t.nc.regs.rg 0 == 0) = true := by decide +kernel
theorem test_cvt_rd : next (.cvtS64F32 5 6 2) (benchG 1 [] [(6, 0xC0200000)])
    (fun t => t.nc.regs.rg 5 == -3 && t.nc.regs.xf == 1) = true := by decide +kernel
theorem test_cvt_unsigned_of_negative : next (.cvtZ64F32 5 6 1) (benchG 1 [] [(6, 0xC0200000)])
    (fun t => t.nc.regs.rg 5 == 0 && t.nc.regs.xf == 16) = true := by decide +kernel
theorem test_bfx_of_the_top_bit : next (.bfxS64 5 6 0) (benchG 1 [63] [(6, 0x8000000000000000)]) (fun t => t.nc.regs.rg 5 == -1) = true := by decide +kernel

/-! ### The C slot -/

theorem witness_TransfersAreTaken : plainIssue (bench 0 []) ∧ ((benchG 0 [] [(1, 0x20004)]).rg 1).toNat % 4 = 0 ∧
    ((benchG 0 [] [(62, 8)]).rg 62).toNat % 4 = 0 ∧ ((benchG 0 [] [(1, 6)]).rg 1).toNat % 4 ≠ 0 := by
  unfold plainIssue; decide +kernel

/-- R60's tree `br f0 T, fall`: one test, two leaves. -/
def benchTree : State := bench 0 [0x00, 0x00000009, 0x00000000]

theorem witness_BranchTreesAndLoops :
    (plainIssue benchTree ∧ holdsLits benchTree 0 3 ∧ treeOk benchTree.lit 0 0 = true ∧ selectsLeaf benchTree 0 0 2) ∧
    (benchC 0 [] (fun c => { c with ctl := { c.ctl with nlev := 1 } })).oc.ctl.nlev ≠ 0 := by
  refine ⟨⟨?_, ?_, by decide +kernel, Or.inr ⟨by decide, ?_⟩⟩, by decide +kernel⟩
  · unfold plainIssue; decide +kernel
  · unfold holdsLits; decide +kernel
  · unfold testHolds; decide +kernel

theorem witness_loop_opens : ((bench 0 []).openLoop 0 0).isOk = true ∧ plainIssue (bench 0 []) := by unfold plainIssue; decide +kernel

theorem test_br_taken : next (.br 0 0) (benchC 0 [0x00, 0x00000009, 0x00000000] (fun c => { c with regs := { c.regs with f := 1 } }))
    (fun t => t.nc.ctl.tgt == 0x10008 && t.nc.ctl.dly == 2) = true := by decide +kernel
theorem test_loop_of_count_zero_is_skipped : next (.loop 0 1 0) (bench 0 []) (fun t => t.iss.skip.isSome && t.nc.ctl.nlev == 0) = true := by
  decide +kernel

theorem witness_StridesWaitsBarriersAndEnds :
    (holdsLits (bench 0 [0x00100000]) 0 1 ∧ ordOk 3 ((bench 0 [0x00100000]).lit 0) = true) ∧
    (∃ k < 16, (0x0001 : BitVec 16).getLsbD k = true ∧ (bench 0 []).regs.flag k = false) ∧
    (∀ k < 16, (0x0100 : BitVec 16).getLsbD k = true → (bench 0 []).regs.flag k = true) ∧
    ((bench 0 []).oc.trp.handler = false ∧ nothingPending (bench 0 [])) ∧
    (bench 0 []).run?.any (fun r => r.child.isNone) = true ∧
    (benchM 0 [] (fun m => m.modRun (m.ctx 0).rid (fun r => { r with child := some (4, 0) }))).run?.any (fun r => r.child.isSome) = true := by
  unfold holdsLits nothingPending; decide +kernel

theorem witness_barriers : (∀ t, (bench 0 []).team? = some t → t.ctxs = [0]) ∧ sameBarrier (bench 0 []) 1 ∧ sameBarrier (bench 0 []) 2 := by
  have h : (bench 0 []).team?.map (fun t => t.ctxs) = some [0] := by decide +kernel
  have hb : ((bench 0 []).old.ctx 0).status.barrier = 0 := by decide +kernel
  have h1 : ∀ t, (bench 0 []).team? = some t → t.ctxs = [0] := by
    intro t ht
    rw [ht] at h
    simpa using h
  refine ⟨h1, ?_, ?_⟩ <;>
  · intro t ht x hx
    rw [h1 t ht] at hx
    simp only [List.mem_singleton] at hx
    subst hx
    exact .inl hb

/-! ### System words and traps -/

theorem witness_SystemRegistersAreReadAndWritten :
    (0x020 ∈ sysNumbers ∧ 0x020 ∉ hiddenNumbers) ∧ ((benchH 0 []).oc.trp.handler = true ∧ 0x043 ∈ sysNumbers) ∧
    ((benchH 0 [(1, 64)]).rg 1).toNat ≤ 64 ∧ (benchH 0 [(1, 64)]).old.otherShares 0 0 + 64 ≤ 64 ∧ ¬ ((benchH 0 [(1, 65)]).rg 1).toNat ≤ 64 ∧
    (bench 0 []).oc.trp.handler = false := by decide +kernel

theorem test_mts_vrm_of_5_is_refused : next (.mts 1 0x001) (benchG 0 [] [(1, 5)])
    (fun t => t.iss.trapped && t.nc.trp.tcause == 0x0000000000000401) = true := by decide +kernel
theorem test_mfs_ctxid : next (.mfs 1 0x011) (bench 0 []) (fun t => t.nc.regs.rg 1 == 0) = true := by decide +kernel

theorem witness_HandlerWordsAndMisplacedWordsAreRefused :
    (handlerWord (.csave 1) = true ∧ (bench 0 []).oc.trp.handler = false ∧ plainIssue (bench 0 [])) ∧
    (onceOnly .tbar = true ∧ literalsHeld (bench 0 []) .tbar) ∧ (notInDelay .ret = true ∧ literalsHeld (bench 0 []) .ret) ∧
    (benchC 0 [] (fun c => { c with ctl := { c.ctl with dly := 1 } })).oc.ctl.dly ≠ 0 ∧ (benchH 0 []).oc.trp.handler = true := by
  refine ⟨⟨rfl, by decide +kernel, ?_⟩, ⟨rfl, trivial⟩, ⟨rfl, trivial⟩, by decide +kernel, by decide +kernel⟩
  unfold plainIssue; decide +kernel

/-- The bench with its trap record at 0x30000 and its handler at 0x31000. -/
def benchT (k : Nat) (gs : List (BitVec 6 × W64)) : State :=
  benchC k [] (fun c => { c with trp := { c.trp with trec := 0x30000, tvec := 0x31000 }, regs := gs.foldl (fun r p => r.wg p.1 p.2) c.regs })

/-- The same in handler mode. -/
def benchTH (k : Nat) (gs : List (BitVec 6 × W64)) : State :=
  benchC k [] (fun c => { c with trp := { c.trp with trec := 0x30000, tvec := 0x31000, handler := true }
                                 regs := gs.foldl (fun r p => r.wg p.1 p.2) c.regs })

/-- The record area as one piece. -/
def areaOf (s : State) (a : W64) (n : Nat) : Option (List (Nat × Nat)) := (s.old.plainArea s.cx a n).map (fun l => l.map (fun g => (g.pa, g.len)))

theorem witness_TrapEntrySavesTheProgram : (benchT 0 []).oc.trp.handler = false ∧ areaOf (benchT 0 []) 0x30000 4096 = some [(0x30000, 4096)] ∧
    (benchT 0 []).oc.ctl.nlev ≤ 6 := by decide +kernel

theorem witness_SoftwareTrapsAndDoubleFaults : (benchT 0 []).iss.slot = 0 ∧ (benchT 0 []).oc.trp.handler = false ∧
    (areaOf (benchT 0 []) 0x30000 4096).isSome = true ∧ ((benchTH 0 []).old.ctx 0).trp.handler = true ∧
    ((bench 0 []).old.plainArea 0 0x8000000000000000 4096).isNone = true := by decide +kernel

theorem witness_TrapReturnLoadsTheRecord : (benchTH 0 []).oc.trp.handler = true ∧ plainIssue (benchTH 0 []) ∧
    areaOf (benchTH 0 []) 0x30000 4096 = some [(0x30000, 4096)] ∧
    ctlValid ((benchTH 0 []).old.segBytes (((benchTH 0 []).old.plainArea 0 0x30000 4096).getD [])) = true := by
  unfold plainIssue; decide +kernel

theorem witness_TrapThenReturnRestoresTheProgram :
    (let m := (benchT 0 []).old
     (m.ctx 0).trp.handler = false ∧ (m.ctx 0).ctl.nlev ≤ 6 ∧ (m.ctx 0).replay = [] ∧
     ((m.enter 0 0x10000 6 0x10000).plainArea 0 0x30000 4096).map (fun l => l.map (fun g => (g.pa, g.len))) = some [(0x30000, 4096)] ∧
     ctlValid (m.recordBytes (m.ctx 0) 0x10000 6 0x10000) = true) := by decide +kernel

theorem witness_SaveAreaIsWrittenAndRestored : (benchTH 0 [(1, 0x40000)]).oc.trp.handler = true ∧ (benchTH 0 []).iss.hdr.rep = 0 ∧
    areaOf (benchTH 0 []) 0x30000 4096 = some [(0x30000, 4096)] ∧ areaOf (benchTH 0 []) 0x40000 163840 = some [(0x40000, 163840)] ∧
    (areaOf (benchH 0 [(1, 0x8000000000000000)]) 0x8000000000000000 163840).isNone = true := by decide +kernel

theorem test_trap_cause : next (.trap 0x21) (benchT 0 []) (fun t => t.nc.trp.tcause == 0x0000002100000006 && t.nc.ctl.pc == 0x31000) = true := by
  decide +kernel
theorem test_brk_cause : next .brk (benchT 0 []) (fun t => t.nc.trp.tcause == 7 && t.nc.trp.handler) = true := by decide +kernel
theorem test_tret_outside_a_handler : next .tret (benchT 0 []) (fun t => t.nc.trp.tcause == 2) = true := by decide +kernel

theorem witness_GeneratorBarriersAndMaintenanceWords :
    (let w := ((bench 0 []).old.window 0 .lk).2
     w = 65536 ∧ ((benchG 0 [] [(1, 65408)]).rg 1).toNat + 128 * (benchG 0 [] []).oc.size ≤ w ∧ (65408 : Nat) % 32 = 0 ∧
     ¬ ((benchG 0 [] [(1, 65440)]).rg 1).toNat + 128 * (benchG 0 [] []).oc.size ≤ w ∧ ((benchG 0 [] [(1, 4)]).rg 1).toNat % 32 ≠ 0) ∧
    ((benchH 0 [(1, 3600)]).m.pkg.f + 3600 ≤ (benchH 0 []).m.pkg.p ∧ (benchH 0 []).m.pkg.p < (benchH 0 []).m.pkg.f + 3601) := by decide +kernel

/-! ### Commands -/

/-- Stream 0's sequencer at a command with the literals `pool`. -/
def benchQ (pool : List W32) : State :=
  let m := Mach.reset.standCommand 0x06000000
  { m := m, old := m, agenda := []
    iss := { Issue.none with agent := .seq 0, pool := pool, hdr := { p := 0x800, rep := 0, stop := false, lits := BitVec.ofNat 5 pool.length } } }

theorem witness_CommandsAct : bySequencer (benchQ [0, 0, 0, 0]) 0 ∧ holdsLits (benchQ [0, 0, 0, 0]) 0 4 ∧
    ((benchQ []).m.readRecord ((benchQ []).m.stream 0) 0x20000).isOk = false ∧ ((benchQ [1, 0]).lit2 0 ≠ 0 ∧ ((benchQ []).m.stream 0).seq.toNat ≤ 1) ∧
    (benchQ [0, 0]).lit2 0 = 0 ∧
    ((benchQ []).m.seqPieces ((benchQ []).m.stream 0) true 0x5000 8).map (fun l => l.map (fun g => g.pa)) = some [0x5000] ∧
    (4 : Nat) % 8 ≠ 0 ∧ (bench 0 []).iss.agent = .ctx 0 := by
  unfold bySequencer holdsLits; decide +kernel

theorem test_launch_in_a_context_is_refused : next (.launch 0) (bench 0 []) (fun t => t.nc.trp.tcause == 0x0000000000000201) = true := by decide +kernel

/-! ### Memory -/

theorem witness_RunningAddressIsFormedOrStepped : formedAddress (benchG 8 [] [(2, 256)]) (.ld .ll 1 2 0x1FF) = some 192 ∧
    (bench 8 []).iss.fresh = true ∧ ({ bench 8 [] with iss := { (bench 8 []).iss with fresh := false } } : State).iss.fresh = false := by decide +kernel

/-- The bench with 64 elements active and g2 set. -/
def benchV (k : Nat) (pool : List W32) (a b : W64) : State :=
  benchC k pool (fun c => { c with regs := { (c.regs.wg 2 a).wg 3 b with vl := 64 } })

theorem witness_ScratchpadLoadsAndStores :
    (loadOf (benchV 8 [] 64 0) (.ld .ll 1 2 0)).isSome = true ∧
    (inside (benchV 8 [] 64 0) .ll ((benchV 8 [] 64 0).wordAddr (.ld .ll 1 2 0)) 256 64 ∧
     inside (benchG 8 [] [(2, 131071)]) .ll ((benchG 8 [] [(2, 131071)]).wordAddr (.ldsS8 .ll 1 2 0)) 1 1) ∧
    (4 * (benchC 8 [] (fun c => { c with regs := { c.regs with vl := 0 } })).vl = 0) ∧
    ((bench 8 []).old.window 0 .ll).2 < ((benchV 8 [] 131072 0).wordAddr (.ld .ll 1 2 0)).toNat + 256 ∧
    ((benchV 8 [] 32 0).wordAddr (.ld .ll 1 2 0)).toNat % 64 ≠ 0 ∧
    (storeOf (benchV 8 [] 64 0) (.st .ll 1 2 0)).isSome = true := by
  unfold inside; decide +kernel

theorem witness_TilesAtomicsAndBarriersInScratchpads :
    (layoutGood true 0 ∧ layoutGood false 0x10 ∧ ¬ layoutGood true 0x20 ∧ ¬ layoutGood false 1 ∧ ¬ scaledTile 0 ∧ scaledTile 8) ∧
    inside (benchV 9 [] 4096 0) .lk ((benchV 9 [] 4096 0).wordAddr (.ldt .lk 1 2 3)) 4096 4096 ∧
    (inside (benchV 9 [] 512 0x4008) .lk ((benchV 9 [] 512 0).wordAddr (.ldt .lk 1 2 3)) 512 512 ∧ scaledTile ((0x4008 : W64).toNat % 16) ∧
      inside (benchV 9 [] 512 0) .lk (scalesAt 512 0x4008) 64 64) ∧
    inside (benchV 8 [1] 65528 0) .ll ((benchV 8 [] 65528 0).wordAddr (.aaddS64 .ll 1 2 3)) 8 8 ∧ ((benchV 8 [] 4 0).wordAddr (.aaddS64 .ll 1 2 3)).toNat % 8 ≠ 0 ∧
    (inside (benchV 8 [1] 16 0) .ll ((benchV 8 [1] 16 0).wordAddr (.barInit .ll 2 0 0)) 16 16 ∧ holdsLits (benchV 8 [1] 16 0) 0 1) := by
  unfold inside layoutGood scaledTile holdsLits; decide +kernel

theorem test_load_queues_its_place : next (.ldsZ16 .ll 5 2 3) (benchG 8 [] [(2, 0x100)])
    (fun t => t.m.locq.map (fun o => o.act) == [.load [(Claims.place (bench 8 []) .ll 0x106, 2)]] && t.nc.busy == [.g 5]) = true := by decide +kernel
theorem test_misaligned_load : next (.ldsZ16 .ll 5 2 0) (benchG 8 [] [(2, 0x101)])
    (fun t => t.nc.trp.tcause == 0x0000000000080003 && t.nc.trp.taddr == 0x101) = true := by decide +kernel
theorem test_load_outside_the_window : next (.ldsZ8 .ll 5 2 0) (benchG 8 [] [(2, 0x20000)])
    (fun t => t.nc.trp.tcause == 0x0000000100088011 && t.nc.trp.taddr == 0x20000) = true := by decide +kernel
theorem test_ldt_of_a_reserved_layout : next (.ldt .lk 1 2 3) (benchG 9 [] [(3, 0x20)]) (fun t => t.nc.trp.tcause == 0x0000000000090401) = true := by
  decide +kernel

/-- The barrier at offset 0 of the core scratchpad window as the 32-bit word `w`. -/
def benchB (w : W32) (g : W64) : State :=
  benchM 8 [] (fun m => (m.modCtx 0 (fun c => { c with regs := c.regs.wg 3 g })).store (m.window 0 .ll).1 (bytesLE w))

theorem witness_MemoryWaitsAndDrain :
    inside (benchB 0 0) .ll ((benchB 0 0).wordAddr (.barWait .ll 2 0 0)) 16 16 ∧
    ((benchB 0 0).old.barrier (Claims.place (benchB 0 0) .ll 0)).getLsbD 4 = false ∧
    ((benchB 0x10 0).old.barrier (Claims.place (benchB 0x10 0) .ll 0)).getLsbD 4 = true ∧
    ((benchB 3 0).old.barrier (Claims.place (benchB 3 0) .ll 0)).toNat % 16 ≠ 0 ∧
    inside (benchB 0 0) .ll ((benchB 0 0).wordAddr (.waitany .ll 2 3 0xFF)) 128 16 ∧
    (benchB 5 0).old.load (Claims.place (benchB 5 0) .ll 0) 8 ≠ ((benchB 5 0).rg 3).toNat ∧
    (benchB 5 5).old.load (Claims.place (benchB 5 5) .ll 0) 8 = ((benchB 5 5).rg 3).toNat ∧ (benchB 5 5).oc.hit = false ∧
    nothingPending (bench 10 []) ∧
    ¬ nothingPending (benchC 10 [] (fun c => { c with pend := { c.pend with pex := true, pexN := 2, pexA := 0x5000 } })) ∧
    ¬ nothingPending (benchC 10 [] (fun c => { c with pend := { c.pend with ptf := true, ptfC := 0x21 } })) := by
  unfold inside nothingPending; decide +kernel

theorem test_bar_wait_parks : next (.barWait .ll 2 0 0) (benchB 0 0) (fun t => t.iss.trapped && t.nc.status == .parked (.bar ((bench 8 []).old.window 0 .ll).1)) = true := by
  decide +kernel
theorem test_waitany_serves_the_changed_barrier : next (.waitany .ll 2 3 1) (benchB 6 0)
    (fun t => t.nc.regs.rg 3 == 6 && t.nc.regs.rs == 1) = true := by decide +kernel

/-! ### Global memory -/

/-- The one piece of an access, or the cause it meets: code, SUB and address. -/
def looks (s : State) (k : AccKind) (a : W64) (n al : Nat) : List Nat :=
  match resolved s k a n al with
  | .ok l => l.flatMap (fun g => [g.pa, g.len])
  | .error c => [c.code, c.sub, c.addr.toNat]

theorem witness_WalkFollowsTheTables : (bench 10 []).m.walk 0x40010000 0x5000 = .ok (0xC00000000000E000, 0x40000000) := by decide +kernel

theorem witness_GlobalAccessesAreCheckedInOrder : ((bench 10 []).old.run? (bench 10 []).oc.rid).isSome = true ∧
    looks (bench 10 []) .load 0x5000 64 64 = [0x5000, 64] ∧
    looks (bench 10 []) .load 0x0200000000000000 64 64 = [0x10, 0, 0x0200000000000000] ∧
    looks (bench 10 []) .load 0x5004 64 64 = [0x03, 0, 0x5004] ∧
    looks (bench 10 []) .load 0x40000000 64 64 = [0x10, 2, 0x40000000] ∧
    looks (bench 10 []) .causal 0x5000 64 64 = [0x11, 8, 0x5000] ∧
    looks (bench 10 []) .red 0x5000 64 64 = [0x11, 7, 0x5000] := by decide +kernel

theorem witness_GlobalLoadsAndStores :
    (loadOf (benchV 10 [] 0x5000 0) (.ld .lg 1 2 0)).isSome = true ∧ looks (benchV 10 [] 0x5000 0) .load 0x5000 256 64 = [0x5000, 256] ∧
    looks (bench 10 []) .load 0x5000 4096 64 = [0x5000, 4096] ∧ (storeOf (benchV 10 [] 0x5000 0) (.st .lg 1 2 0)).isSome = true ∧
    (layoutGood true 0 ∧ layoutGood false 0) ∧ looks (bench 10 []) .store 0x5100 4096 4096 = [0x03, 0, 0x5100] ∧
    looks (bench 10 []) .store 0x6000 4096 4096 = [0x6000, 4096] ∧ (reductionOf (.redAddS32 1 2 0)).isSome = true := by
  unfold layoutGood; decide +kernel

/-- The machine with the first GiB mapped by the leaf `e`. -/
def withLeaf (e : Nat) (m : Mach) : Mach := { m with mem := writeBytes m.mem 0x40020000 (natLE 8 e) }

theorem witness_GlobalAtomicsAndCausalStoresAreSent :
    atomicOf (.acasZ64 .lg 4 5 6) = some (.lg, .cas, 4, 6) ∧ looks (bench 10 []) .atomic 0x5000 8 8 = [0x5000, 8] ∧
    looks (benchM 10 [] (withLeaf 0xC00100000000F000)) .causal 0x5000 64 64 = [0x5000, 64] ∧
    namedTokens (benchC 10 [] (fun c => { c with regs := { c.regs with ct := [(1, 7), (2, 7)] } })) 1 2 = [7] ∧
    looks (bench 10 []) .load 0x5000 8 8 = [0x5000, 8] := by decide +kernel

theorem test_global_store_waits_in_the_buffer : next (.stsZ64 .lg 3 2 0) (benchG 10 [] [(2, 0x5000), (3, 9)])
    (fun t => t.m.gops.length == 1 && (readByte t.m.mem 0x5000 == 0)) = true := by decide +kernel
theorem test_causal_store_needs_a_remote_page : next (.stLgC 1 2 0) (benchG 10 [] [(2, 0x5000)])
    (fun t => t.nc.trp.tcause == 0x00000008000A8011) = true := by decide +kernel

/-! ### The V slot -/

theorem witness_VectorIntegersComparesAndMasks : (laneForm (.vshlZ32 3 1 2 0 0)).isSome = true ∧ (compareForm (.vcmpLtF32 1 2 3 7 1)).isSome = true ∧
    (laneForm (.vmov 3 1 7 1)).isSome = true := ⟨rfl, rfl, rfl⟩

theorem witness_VectorFloatElements : floatForm (.vdivF32 3 1 2 0 0) = some (fmtF32, 32, .div, 3, 1, 2, 0, 0) ∧
    floatForm (.vfmaF16 3 1 2 7 1) = some (fmtF16, 16, .fma, 3, 1, 2, 7, 1) := ⟨rfl, rfl⟩

theorem witness_VectorReductionsFollowTheTree : (reduceForm (benchV 3 [] 0 0) (.vrmaxF32 8 9 0 0)).isSome = true ∧ (benchV 3 [] 0 0).vl ≤ 1024 := by
  refine ⟨rfl, ?_⟩; decide +kernel

theorem witness_VectorMovesDrawsLengthAndAccumulate : accepts (bench 3 []) (.vaccF32 1 7 28) ∧
    (benchM 3 [] (fun m => m.modRun (m.ctx 0).rid (fun r => { r with recs := r.recs.map (fun e => { e with tiles := 0x7F }) }))).place.tiles.getLsbD 7
      = false := by
  unfold accepts; decide +kernel

/-- The bench with the vectors v1 = `a` and v2 = `b` in every lane that `vl` = 2 admits. -/
def bench2 (k : Nat) (a b : VReg) : State := benchC k [] (fun c => { c with regs := { c.regs with vl := 2, v := [(1, a), (2, b)] } })

theorem test_vadd_wraps : next (.vaddS32 3 1 2 0 0) (bench2 3 0x00000001FFFFFFFF 0x0000000200000001)
    (fun t => t.nc.vq.map (fun o => o.vW) == [[(3, 0x0000000300000000)]]) = true := by decide +kernel
theorem test_vadd_keeps_the_lanes_past_vl : next (.vaddS32 1 1 2 0 0) (bench2 3 0x0000000700000001FFFFFFFF 0x0000000200000001)
    (fun t => t.nc.vq.map (fun o => o.vW) == [[(1, 0x000000070000000300000000)]]) = true := by decide +kernel
theorem test_vcmp_of_a_nan : next (.vcmpEqF32 1 1 1 0 0) (bench2 3 0x7FC000003F800000 0)
    (fun t => t.nc.vq.map (fun o => (o.mW, o.flags)) == [([(1, 1)], 0)]) = true := by decide +kernel
theorem test_vsetvl_is_held_to_1024 : next (.vsetvl 1) (benchG 3 [] [(1, 5000)]) (fun t => t.nc.regs.vl == 1024) = true := by decide +kernel

/-! ### The QM, QC and SC slots -/

theorem witness_BlockScalesAreFormedAndKept : (qmaxForm (.qmaxBf16 2 4)).isSome = true := rfl

theorem witness_QuantisedBlocksAreFormedAndRead : (quantForm (.qcvtBp8 1 2 4 3 1 15 1)).isSome = true ∧ (dequantForm (.qdqE2m1 1 2 0 0 0 0 0)).isSome = true ∧
    (elementForm (.cvtF16F32 1 2 4 1)).isSome = true := ⟨rfl, rfl, rfl⟩

theorem test_qrot_turns_the_base : next .qrot (benchC 6 [] (fun c => { c with regs := { c.regs with rb := 7 } })) (fun t => t.nc.regs.rb == 0) = true := by
  decide +kernel
theorem test_qmvsc_writes_one_half : next (.qmvsc 3 1) (benchC 5 [] (fun c => { c with regs := { c.regs with byp := 0xA5 } }))
    (fun t => rget 3 t.nc.regs.sc == 0xA5 <<< 512) = true := by decide +kernel

theorem witness_ScalesStonesAndFeedOffsets :
    inside (benchG 7 [] [(2, 130944)]) .ll ((benchG 7 [] [(2, 130944)]).wordAddr (.ldsc 1 2 0)) 128 64 ∧
    inside (benchG 7 [] [(2, 131071)]) .ll ((benchG 7 [] [(2, 131071)]).wordAddr (.ldscB 1 2 0)) 1 1 ∧
    ((bench 7 []).old.window 0 .ll).2 < ((benchG 7 [] [(2, 131072)]).wordAddr (.stsc 1 2 0)).toNat + 128 ∧
    ((benchG 7 [] [(2, 32)]).wordAddr (.ldsc 1 2 0)).toNat % 64 ≠ 0 ∧
    ((installForm (.ldbS8 1 2)).isSome = true ∧ accepts (bench 4 []) (.ldbS8 1 2) ∧ inside (bench 4 []) .ll 0 65536 64) ∧
    heldBy { (bench 4 []).place with stones := 0 } (bench 4 []).lit (.ldbS8 1 2) = false := by
  unfold inside accepts; decide +kernel

/-! ### The M slot -/

theorem witness_MatrixWordsAndRowMoves :
    (matrixForm (bench 4 []) (.mmBp8 0 1 1 2 1)).isSome = true ∧ ((matrixForm (bench 4 []) (.mmBp8 0 1 1 2 1)).bind (fun p => mForm p.2 (.mmBp8 0 1 1 2 1))).isSome = true ∧
    accepts (bench 4 []) (.mmBp8 0 1 1 2 1) ∧ accepts (bench 4 [0x00444138]) (.mmx 1 3 2 0 0) ∧
    ((matrixForm (bench 4 []) (.mmBp8 0 1 1 0 1)).bind (fun p => mForm p.2 (.mmBp8 0 1 1 0 1))).any (fun f => f.pieces.isEmpty) = true ∧
    ((matrixForm (bench 4 []) (.mmBp8 0 1 1 2 1)).bind (fun p => mForm p.2 (.mmBp8 0 1 1 2 1))).any (fun f => !f.pieces.isEmpty && f.ga == 0) = true ∧
    (mForm 0x04444138 (.mmx 1 3 2 0 0)).any (fun f => !f.pieces.isEmpty && f.ga == 1) = true ∧
    (moveForm (bench 4 []) (.dtap 6 1 4)).isSome = true ∧ heldBy (bench 4 []).place (bench 4 []).lit (.dtap 6 1 4) = true := by
  unfold accepts; decide +kernel

theorem witness_AccumulatorAddsAnArrival : sumsAt 0 (List.replicate 16 1) (List.replicate 16 (1, 0)) 0 (List.replicate 16 2) ∧ fits (List.replicate 16 2) := by
  refine ⟨⟨rfl, ?_⟩, ?_⟩
  · intro j hj
    refine ⟨1, 1, ?_, ?_, ?_⟩ <;> interval_cases j <;> simp [isNearest]
  · intro j hj
    interval_cases j <;> decide

theorem test_accumulator_adds : accAdd { x := some 0, m := List.replicate 16 1 } (List.replicate 16 (1, 0)) false =
    ({ x := some 0, m := List.replicate 16 2 }, 0) := by decide +kernel
theorem test_accumulator_grows : accAdd { x := some 0, m := List.replicate 16 (2 ^ 31 - 1) } (List.replicate 16 (1, 0)) false =
    ({ x := some 1, m := List.replicate 16 (2 ^ 30) }, 0) := by decide +kernel
theorem test_accumulator_takes_a_nan : accAdd Blk.clear (List.replicate 16 (1, 0)) true = (Blk.bad, 0) := by decide +kernel

/-- A row of 16 feed blocks of the elements `a` under the exponent `e`, and a column like it. -/
def feedRow (a : List Int) (e : Int) : FeedRow := { a := List.replicate 16 a, e := List.replicate 16 e, nan := List.replicate 16 false }
def stoneCol (c : List Int) (e : Int) : StoneCol := { c := List.replicate 16 c, e := List.replicate 16 e, nan := List.replicate 16 false }

theorem witness_PartialSumsAreExact : (feedRow [1] 0).a.length = 16 ∧ (stoneCol [2] 0).c.length = 16 ∧
    partialSum (feedRow [1, 2] 1) (stoneCol [3, 4] (-3)) 2 = ((22, -2), false) := by decide +kernel

theorem witness_MatrixFormsAddInStoneOrder : (mForm 0x00444138 (.mmx 1 3 2 0 0)).any (fun f => decide (f.rows ≤ 32 ∧ f.nb ≤ 16 ∧ f.rows = 4 ∧ f.nb = 8)) = true := by
  decide +kernel

theorem test_addfo_wraps_its_field : next (.addfo 2 7) (benchC 4 [] (fun c => { c with regs := { (c.regs.wg 7 1) with fo := [(2, 0x003FFFFF)] } }))
    (fun t => rget 2 t.nc.regs.fo == 0x00200000) = true := by decide +kernel

/-! ### The X slot -/

/-- A send's shape: 4 elements of .f32 in one dimension at LL offset 0. -/
def benchX (sh : List (Nat × W64)) (d : W64) : State := benchC 11 [] (fun c => { c with regs := { (c.regs.wg 8 d) with sh := sh } })

theorem test_mvsh_is_exposed : next (.mvsh 0 6) (benchG 11 [] [(6, 9)]) (fun t => t.nc.replay.map (fun e => (e.kind, e.reg, e.k, e.data)) == [(2, 0, 3, 9)]) = true := by
  decide +kernel

theorem witness_ShapesMapsTokensAndLinks :
    holdsLits (bench 11 [1, 2]) 0 2 ∧ ¬ holdsLits (bench 11 [1]) 0 2 ∧
    inside (benchG 11 [] [(2, 0x100)]) .ll ((benchG 11 [] [(2, 0x100)]).rg 2) 288 32 ∧ ((benchG 11 [] [(2, 0x110)]).rg 2).toNat % 32 ≠ 0 ∧
    bindOk 0x0 = true ∧ bindOk 0xFFFFFFFFFFFFFFFF = false ∧ bound (benchL 0 []) 0 ∧ ¬ bound (bench 11 []) 0 ∧
    (benchM 11 [] (fun m => m.modCore 0 (fun c => c.modLink 0 (fun l => { l with holder := some 999 })))).oc.rid ≠ 999 := by
  unfold holdsLits inside bound; decide +kernel

/-- A shape group of `e` elements of .f32 in one dimension, read from offset `src`. -/
def shapeOf (e src : W64) : List (Nat × W64) := [(0, 0x0001000000000000), (1, 0x0001000000000000 + e * 0x100000000 + src)]

theorem box_of_four_lies_within : boxWithin (benchX (shapeOf 4 16) 0) .ll (boxOf (benchX (shapeOf 4 16) 0).regs 0) := by
  rintro u ⟨hl, hu⟩
  have hw : ((benchX (shapeOf 4 16) 0).old.window (benchX (shapeOf 4 16) 0).cx .ll).2 = 131072 := by decide +kernel
  have hs : (boxOf (benchX (shapeOf 4 16) 0).regs 0).size = [4, 1, 1, 1] := by decide +kernel
  have hf : ∀ a < 4, (elemBits (boxOf (benchX (shapeOf 4 16) 0).regs 0).fmt (boxOf (benchX (shapeOf 4 16) 0).regs 0).src
      ((boxOf (benchX (shapeOf 4 16) 0).regs 0).pos [a, 0, 0, 0])).all (fun p => decide (0 ≤ p.1 ∧ p.1 < (131072 : Nat))) = true := by
    decide +kernel
  obtain ⟨a, b, c, d, rfl⟩ : ∃ a b c d, u = [a, b, c, d] := by
    match u, hl with
    | [a, b, c, d], _ => exact ⟨a, b, c, d, rfl⟩
  rw [hs] at hu
  have h0 := hu 0 (by omega)
  have h1 := hu 1 (by omega)
  have h2 := hu 2 (by omega)
  have h3 := hu 3 (by omega)
  simp only [List.getD_cons_zero, List.getD_cons_succ, Nat.lt_one_iff] at h0 h1 h2 h3
  subst h1 h2 h3
  have := hf a h0
  rw [List.all_eq_true] at this
  intro p hp
  rw [hw]
  simpa using this p hp

theorem witness_SendsAreQueued : sendForm (.xredMaxF32 0 1 8) = some (.ll, 0, 1, 8) ∧ castForm (.xmcastLk 0 1 8) = some (.lk, 0, 1, 8) ∧
    (benchX (shapeOf 4 16) 0).valuesOk (.xsend 0 1 8) = true ∧ (benchX (shapeOf 4 16) 4).valuesOk (.xsend 0 1 8) = true ∧
    (benchX (shapeOf 4 16) 0x108).valuesOk (.xsend 0 1 8) = true ∧ (benchX (shapeOf 4 16) 0x101).valuesOk (.xsend 0 1 8) = false ∧
    noElement (boxOf (benchX (shapeOf 0 16) 0).regs 0) ∧ ¬ noElement (boxOf (benchX (shapeOf 4 16) 0).regs 0) ∧
    (boxOf (benchX (shapeOf 4 16) 0).regs 0).src % sourceAlign (boxOf (benchX (shapeOf 4 16) 0).regs 0) = 0 ∧
    (boxOf (benchX (shapeOf 4 18) 0).regs 0).src % sourceAlign (boxOf (benchX (shapeOf 4 18) 0).regs 0) ≠ 0 ∧
    inside (benchX (shapeOf 4 16) 8) .ll 8 8 8 ∧ sendDestOk 0 = true := by
  refine ⟨rfl, rfl, ?_⟩
  unfold noElement sourceAlign inside; decide +kernel

theorem test_xsend_outside_the_window : next (.xsend 0 1 8) (benchX (shapeOf 4 131064) 0)
    (fun t => t.nc.trp.tcause == 0x00000001000B8011 && t.nc.trp.taddr == 131064) = true := by decide +kernel
theorem test_xsend_takes_a_transfer_number : next (.xsend 0 1 8) (benchX (shapeOf 4 16) 0)
    (fun t => (t.m.core 0).tid == (t.old.core 0).tid + 1 && t.nc.xq.length == 1 && kget 1 t.nc.regs.ot == some t.old.nextId) = true := by decide +kernel

/-! ### Events -/

/-- The machine of the bench. -/
def benchE (f : Mach → Mach) : State := benchM 0 [] f

/-- Stream 0 with `f` applied. -/
def benchS (f : Stream → Stream) : State := benchE (fun m => { m with streams := kput 0 (f (m.stream 0)) m.streams })

theorem witness_WindowAccessesByTheHost : open_ (benchE id) ∧ (stateOf ((benchE id).m.stream 0) = 0 ∧ ((benchE id).m.stream 0).open_ = []) ∧
    kget 0 (benchE id).m.pkg.lastPart ≠ some 3 ∧ ((benchE id).m.pkg.f ≤ 4800 ∧ (benchE id).m.pkg.f = 1200) ∧
    ((benchE id).m.ctx 0).status ≠ .absent ∧ (benchE id).m.heldShares 0 - ((benchE id).m.ctx 0).share + 64 ≤ 64 ∧ ¬ noRunPlaced (benchE id) ∧
    noRunPlaced (benchE (fun m => { m with runs := [] })) ∧ (benchE id).m.pkg.names 0 = true ∧
    (claimOk 0x1028181000 ∧ ∀ g ∈ claimed 0x1028181000, (benchE id).m.granuleHeld g = false) ∧ ¬ claimOk 0 ∧
    ((benchS (fun t => { t with root := 0x40010000 })).m.device 0x5000 8 false).isSome = true ∧ ((benchS (fun t => { t with root := 0x40010000 })).m.device 0x5000 8 true).isSome = true ∧
    ((benchS (fun t => { t with root := 0x40010000 })).m.device (2 ^ 50) 8 false).isNone = true ∧ ((benchE id).m.scratch 0x40020000 8).isSome = true ∧
    ((benchE id).m.runs.find? (fun q => q.placed && q.stream == 0 && q.pos == 1)).isSome = true := by
  unfold open_ awake stateOf noRunPlaced claimOk; decide +kernel

theorem test_end_run_needs_a_placed_run : next (.endRun 0 0) (benchE id) (fun t => t.m.comps == [{ ok := false, bytes := [] }]) = true := by decide +kernel
theorem test_partition_8_is_refused : next (.partitionWrite 0 8) (benchE id) (fun t => t.m.comps == [{ ok := false, bytes := [] }]) = true := by decide +kernel

/-- The bench's run as it waits for its placement, nothing placed. -/
def benchW : State := benchE (fun m => { m with runs := m.runs.map (fun r => { r with placed := false, begun := false }), ctxs := [], teams := [] })

theorem witness_StreamsAndRunsAdvance : awake (benchS id) ∧ (0 ≤ 4 ∧ (4 : Nat) % 4 = 0 ∧ ((4 : W64) - 0).toNat ≤ 2 ^ (12 % 32)) ∧
    (benchS (fun t => { t with await := some (.position 0 1), ret := [1] })).m.stream 0 = { (benchS id).m.stream 0 with await := some (.position 0 1), ret := [1] } ∧
    ((benchS (fun t => { t with await := some .all })).m.stream 0).open_ = [] ∧
    ((benchS (fun t => { t with await := some (.store 0x5000 1 none) })).m.stream 0).await = some (.store 0x5000 1 none) ∧
    ((benchS (fun t => { t with late := [(3, 2), (4, 5)] })).m.stream 0).late = [(3, 2), (4, 5)] ∧
    (benchE id).m.runs.map (fun r => (r.placed, r.begun, r.stopped)) = [(true, true, false)] ∧
    (benchW.m.runs.map (fun r => r.placed) = [false] ∧ benchW.m.pkg.wiping = false) := by
  unfold awake; decide +kernel

theorem waiting_run_is_free : ∃ r, benchW.m.run? ((benchE id).m.ctx 0).rid = some r ∧ free benchW r ∧ r.placed = false := by
  have hr : benchW.m.runs.length = 1 := by decide +kernel
  obtain ⟨r, hr⟩ : ∃ r, benchW.m.runs = [r] := List.length_eq_one_iff.mp hr
  have hf : benchW.m.runs.all (fun r => decide (r.placed = false ∧ r.clash r = r.clash r ∧ r.before r = false ∧
    r.id = ((benchE id).m.ctx 0).rid ∧ ∀ e ∈ r.recs, (benchW.m.core (8 * e.cluster + e.core)).dead = false ∧
      8 * e.cluster + e.core ∉ benchW.m.pkg.repairs ∧
      benchW.m.heldShares (8 * e.cluster + e.core) + 0 + e.share ≤ 64)) = true := by decide +kernel
  rw [hr] at hf
  simp only [List.all_cons, List.all_nil, Bool.and_true, decide_eq_true_eq] at hf
  obtain ⟨hp, -, hb, hid, he⟩ := hf
  refine ⟨r, ?_, ⟨?_, ?_, ?_⟩, hp⟩
  · unfold Mach.run?
    rw [hr]
    simp [hid]
  · intro q hq hq'
    rw [hr] at hq
    simp only [List.mem_singleton] at hq
    subst hq
    simp [hp] at hq'
  · intro q hq _ hbq
    rw [hr] at hq
    simp only [List.mem_singleton] at hq
    subst hq
    simp [hb] at hbq
  · intro e hem
    refine ⟨(he e hem).1, (he e hem).2.1, ?_⟩
    rw [hr]
    simpa [hp, hb] using (he e hem).2.2

/-- The bench's context in a status, with a share. -/
def benchP (st : Status) (share : Nat) (pre hit : Bool) : State :=
  benchC 0 [] (fun c => { c with status := st, share := share, preempt := pre, hit := hit, regs := { c.regs with fs := 0xFF } })

theorem witness_ContextsWakeMeetAndAreReleased : awake (benchP .run 0 false false) ∧
    (((benchP .run 0 false false).m.ctx 0).status ≠ .absent ∧ ((benchP .run 0 false false).m.ctx 0).share = 0) ∧
    ((benchP .run 5 true false).m.ctx 0).preempt = true ∧
    (((benchP (.parked (.spin [])) 5 false true).m.ctx 0).hit = true ∧ ¬ flagsMoved (benchP (.parked (.spin [])) 5 false false) 0) ∧
    flagsMoved (benchC 0 [] (fun c => { c with status := .parked (.flags 1), regs := { c.regs with fs := 0 } })) 0 ∧
    ((benchP (.parked .tbar) 5 false false).m.teams.map (fun t => t.ctxs) = [[0]]) ∧
    ((benchP (.parked .tbar) 5 false false).m.teams.map (fun t => (benchP (.parked .tbar) 5 false false).m.quiet t) = [true]) := by
  unfold awake flagsMoved; decide +kernel

theorem team_at_its_barrier_settles : ∃ t, (benchP (.parked .tbar) 5 false false).m.team? ((benchE id).m.ctx 0).rid 0 = some t ∧
    teamSettled (benchP (.parked .tbar) 5 false false) t ∧ t.ctxs = [0] := by
  have h : ((benchP (.parked .tbar) 5 false false).m.team? ((benchE id).m.ctx 0).rid 0).any (fun t =>
      (benchP (.parked .tbar) 5 false false).m.quiet t && t.reports.isEmpty && t.serving.isNone && t.gate.isNone && t.ctxs == [0]) = true := by
    decide +kernel
  rw [Option.any_eq_true] at h
  obtain ⟨t, ht, hb⟩ := h
  simp only [Bool.and_eq_true, List.isEmpty_iff, Option.isNone_iff_eq_none, beq_iff_eq] at hb
  exact ⟨t, ht, ⟨hb.1.1.1.1, hb.1.1.1.2, hb.1.1.2, hb.1.2⟩, hb.2⟩

theorem test_wait_wakes_only_for_a_change : next (.waitWake 0) (benchP (.parked (.flags 1)) 5 false true)
    (fun t => (t.m.ctx 0).status == .parked (.flags 1)) = true := by decide +kernel

/-! ### Engines, accesses and packets under way -/

/-- A firmware image with its signatures. -/
def someFirmware : Firmware := { image := [], sigs := { ed := 0, ml := [] } }

/-- A V operation that writes `v` to v3. -/
def someVOp (begun : Bool) : VOp := { id := 900, no := 0, pc := 0, needs := [], begun := begun, vW := [(3, 7)], mW := [], gW := [], flags := 1, tile := none, srcs := [] }

/-- The bench with a V operation at the head of its context's queue. -/
def benchO (begun : Bool) : State := benchC 0 [] (fun c => { c with vq := [someVOp begun], busy := [.v 3] })

/-- An M operation that clears accumulator tile 0. -/
def someMOp (begun : Bool) : EngOp :=
  { id := 901, ctx := 0, pc := 0, rid := (bench 0 []).oc.rid, no := 0, ins := .aclr 0, needs := [], begun := begun, words := [], vec := 0, reads := [],
    feed := [], came := [], blocks := [] }

theorem witness_EnginesAndLocalAccessesPerform :
    awake (benchO true) ∧ ((benchO true).m.ctx 0).vq = [someVOp true] ∧ ((benchO false).m.ctx 0).vq = [someVOp false] ∧
    needsMet (benchO false).m (someVOp false).needs ∧ kget 0 (benchO false).m.ctxs = some ((benchO false).m.ctx 0) ∧
    (benchO false).m.ctxs.map (fun p => p.1) = [0] ∧
    ((benchE (fun m => m.modCore 0 (fun c => { c with mq := [someMOp true] }))).m.core 0).mq = [someMOp true] ∧ (someMOp true).fed = true := by
  unfold awake needsMet; decide +kernel

theorem test_v_operation_completes : next (.vOpComplete 0) (benchO true)
    (fun t => rget 3 (t.m.ctx 0).regs.v == 7 && (t.m.ctx 0).busy == [] && (t.m.ctx 0).xfV == 1) = true := by decide +kernel
theorem test_v_operation_not_begun_stays : next (.vOpComplete 0) (benchO false) (fun t => (t.m.ctx 0).vq == [someVOp false]) = true := by decide +kernel

/-- A queued access of the core scratchpad at location `loc`. -/
def someLocal (act : LocalAct) (d : Dest) : LocalOp := { id := 902, ctx := 0, pc := 0, slot := 8, no := 0, act := act, dest := d }
def benchLocal (act : LocalAct) (d : Dest) : State := benchE (fun m => { m with locq := [someLocal act d], ops := [902] })

theorem witness_local_head : firstLocal (benchLocal (.store [(llLoc 0 0, [5])]) .none).m (someLocal (.store [(llLoc 0 0, [5])]) .none) :=
  ⟨[], [], rfl, by simp⟩

theorem test_local_store_performs : next (.localPerform 902) (benchLocal (.store [(llLoc 0 0, [5])]) .none)
    (fun t => readByte t.m.mem (llLoc 0 0) == 5 && t.m.locq == [] && t.m.ops == []) = true := by decide +kernel
theorem test_atomic_answers_the_old_value : next (.localPerform 902) (benchLocal (.amo .swp (llLoc 0 0) 5 0) (.scal 4 false))
    (fun t => t.m.rets.map (fun r => r.bytes) == [[0, 0, 0, 0, 0, 0, 0, 0]] && readByte t.m.mem (llLoc 0 0) == 5) = true := by decide +kernel

/-- A byte of local memory that an access names, and a committed store of it. -/
def somePiece : Seg := { off := 0, len := 1, va := 0x5000, pa := 0x5000, chip := none, leaf := 0xC00000000000E000 }
def someGOp (act : GAct) (committed : Bool) : GOp :=
  { id := 903, ctx := 0, pc := 0, rid := (bench 0 []).oc.rid, cluster := 0, no := 0, needs := [], act := act,
    segs := [somePiece], committed := committed, batch := 0,
    direct := false, sent := false, reqs := [], own := [], got := [], passed := [], seen := [], prior := [] }
def benchGlobal (act : GAct) (committed : Bool) : State := benchE (fun m => { m with gops := [someGOp act committed], ops := [903] })

theorem witness_GlobalOperationsPerform : awake (benchGlobal (.store [5]) true) ∧ gopAt (benchGlobal (.store [5]) true).m 903 (someGOp (.store [5]) true) ∧
    (benchGlobal (.store [5]) true).m.entryWaits (someGOp (.store [5]) true) = false ∧
    (benchGlobal (.read (.scal 4 false)) true).m.readWaits (someGOp (.read (.scal 4 false)) true) = false ∧
    (benchC 0 [] (fun c => { c with drains := [(903, false), (904, false)] })).m.gops = [] ∧
    (benchE id).m.walk 0x40010000 0x40000000 = .error 2 := by
  refine ⟨?_, ⟨?_, ?_, ?_, rfl, rfl⟩, ?_⟩
  · unfold awake; decide +kernel
  · decide +kernel
  · rfl
  · intro h hh _
    have : (benchGlobal (.store [5]) true).m.gops = [someGOp (.store [5]) true] := by decide +kernel
    rw [this] at hh
    simpa using hh
  · decide +kernel

theorem test_store_performs_at_home : next (.homePerform 903) (benchGlobal (.store [5]) true) (fun t => readByte t.m.mem 0x5000 == 5 && t.m.gops == []) = true := by
  decide +kernel
theorem test_store_waits_for_its_commit : next (.homePerform 903) (benchGlobal (.store [5]) false) (fun t => readByte t.m.mem 0x5000 == 0) = true := by
  decide +kernel

/-- A data packet for core Tailrace 0: STREAM 1, .f32, one dimension, one element. -/
def somePkt (h : BitVec 128) : LandPkt := { src := 0, core := 0, tenant := 0, tail := 0, hdr := h, payload := [1, 2, 3, 4] }

theorem witness_DataLandsTransfersCloseAndMapsApply :
    (let p := somePkt 0
     let s := benchE (fun m => { m with net := [.land m.pkg.chip p] })
     awake s ∧ p.tail < 288 ∧ (s.m.tail 0).landing = none ∧ (s.m.tail 0).stop = false ∧ (s.m.tail 0).strays.length < Config.strayPlaces ∧
       mapsOf s.m 0 = [] ∧ s.m.net = [] ++ Sent.land s.m.pkg.chip p :: []) ∧
    mapOpAt (benchE (fun m => m.modTail 0 (fun t => { t with ops := [{ ins := .retiremap 3 0, ctx := 0, rid := 0, id := 905, loc := 0 }] }))) 0
      { ins := .retiremap 3 0, ctx := 0, rid := 0, id := 905, loc := 0 } := by
  refine ⟨?_, ?_, ?_, ?_, ?_, [], ?_⟩
  · unfold awake; decide +kernel
  all_goals decide +kernel

theorem test_packet_without_a_map_is_a_stray : next (.dataPacketArrive (somePkt 0)) (benchE (fun m => { m with net := [.land m.pkg.chip (somePkt 0)] }))
    (fun t => (t.m.tail 0).strays.length == 1 && t.m.net == []) = true := by decide +kernel
theorem test_retire_of_an_empty_slot_is_refused : next (.mapRetire 0)
    (benchE (fun m => m.modTail 0 (fun t => { t with ops := [{ ins := .retiremap 3 0, ctx := 0, rid := 0, id := 905, loc := 0 }] })))
    (fun t => (t.m.tail 0).strays.length == 1 && (t.m.tail 0).ops == []) = true := by decide +kernel

/-- An end marker of no packets. -/
def someEnd : LandPkt := { somePkt (1#128 <<< 99) with payload := zeroBytes 8 }
/-- A LIVE map in slot 2 of Tailrace 0 and the marker, whose transfer is open there or not. -/
def benchEnd (held : Bool) : State := benchE (fun m => m.modTail 0 (fun t => { t with
  slots := [(2, { state := .live, image := zeroBytes 96, rid := (bench 0 []).oc.rid, tenant := 0, base := 0, bytes := 0,
                  open_ := if held then [(0, 0, 0)] else [], waiter := none })]
  ends := [someEnd], acct := [{ xfer := (0, 0, 0), count := 0, strays := 0, slot := some 2 }] }))

theorem witness_end_marker_of_an_open_transfer : recordOf ((benchEnd true).m.tail 0) (landXfer someEnd) = { xfer := (0, 0, 0), count := 0, strays := 0, slot := some 2 } ∧
    ((benchEnd true).m.tail 0).stop = false ∧ ((benchEnd true).m.tail 0).strays = [] ∧ endCount someEnd = 0 ∧
    ((kget 2 (mapsOf (benchEnd true).m 0)).map (fun y => y.open_)) = some [landXfer someEnd] ∧
    ((kget 2 (mapsOf (benchEnd false).m 0)).map (fun y => y.open_)) = some [] := by decide +kernel
theorem test_end_marker_closes_its_transfer : next (.endMarkerApply 0) (benchEnd true) (fun t => (t.m.tail 0).ends == [] && (t.m.tail 0).acct == [] &&
    (t.m.tail 0).slots.map (fun y => y.2.open_) == [[]] && t.m.net == [.ack 0 0 0 0]) = true := by decide +kernel
theorem test_resume_asks_again_for_flags : next (.contextResume 0) (benchP (.parked (.flags 3)) 5 true false)
    (fun t => (t.m.ctx 0).status == .run && (t.m.ctx 0).preempt == false) = true := by decide +kernel

/-- A read of one piece whose request with tag 7 and generation 1 is outstanding, due at 5. -/
def someReq (tag due : Nat) : Req := { off := 0, tag := tag, gen := 1, due := due }
def remoteRead : GOp := { someGOp (.read (.scal 4 false)) true with reqs := [someReq 7 5] }
/-- One of two pieces, neither answered. -/
def remotePair : GOp := { remoteRead with
  segs := [somePiece, { somePiece with off := 1, va := 0x6000, pa := 0x6000 }] }
def benchRemote (g : GOp) (now : Nat) : State := benchE (fun m => { m with gops := [g], pkg := { m.pkg with ftime := now } })

theorem witness_RemoteAccessesAreServedAndAnswered :
    (awake (benchRemote remoteRead 5) ∧ outstanding (benchRemote remoteRead 5).m 0 7 1 remoteRead (someReq 7 5) ∧
      pieceFor remoteRead (someReq 7 5) somePiece ∧ lastPiece remoteRead (someReq 7 5) ∧ ¬ lastPiece remotePair (someReq 7 5) ∧
      pieceFor remotePair (someReq 7 5) somePiece ∧ (benchRemote remoteRead 5).m.pkg.ftime = (someReq 7 5).due) ∧
    unmatched (benchRemote remoteRead 5).m 0 7 2 ∧ (benchE id).m.pkg.attested = false ∧ (∀ x n, Sent.undeliverable x n ∉ (benchE id).m.net) := by
  have hn : (benchE id).m.net = [] := by decide +kernel
  have hg : (benchRemote remoteRead 5).m.gops = [remoteRead] := by decide +kernel
  refine ⟨⟨?_, ⟨[], [], [], [], hg, rfl, by decide +kernel, rfl, rfl, by simp, by simp, by simp, by simp⟩, ⟨[], [], rfl, rfl, by simp⟩, ?_, ?_,
    ⟨[], _, rfl, rfl, by simp⟩, by decide +kernel⟩, ?_, by decide +kernel, by simp [hn]⟩
  · unfold awake; decide +kernel
  · intro o ho hne
    have : o = somePiece := by simpa [remoteRead, someGOp] using ho
    exact absurd (by rw [this]; rfl) hne
  · intro h
    exact absurd (h { somePiece with off := 1, va := 0x6000, pa := 0x6000 } (by simp [remotePair]) (by simp [someReq])) (by decide)
  · unfold unmatched
    rw [hg]
    simp [remoteRead, someReq]

theorem witness_LinksAndPortsCarryWords :
    ((benchE (fun m => m.modCore 0 (fun c => c.modLink 0 (fun l => { l with outb := [(9, 0, 0)] })))).m.core 0).link 0 =
      { ((benchE id).m.core 0).link 0 with outb := [(9, 0, 0)] } ∧ linkMode 0 = 0 ∧ linkMode 0x100 ≠ 0 ∧
    (((benchE id).m.pkg.port 0).rx = 0 ∧ ((benchE (fun m => m.modPkg (fun p => { p with ports := [(0, { Port.zero with locked := false })] }))).m.pkg.port 0).locked = false) ∧
    (benchE (fun m => m.modCore 0 (fun c => c.modLink 0 (fun l => { l with outb := [(9, 0, 0)] })))).m.gops = [] := by decide +kernel

/-- A causal store that another place of this package sent. -/
def someCausal (seq : Option (BitVec 16)) (carries : List (BitVec 16)) (deadline : Nat) : CausalPkt :=
  { src := 0, ctx := 0, tag := 906, gen := 0, seq := seq, carries := carries, deadline := deadline, va := 0x5000, pa := 0x5000, bytes := [5] }
def benchCausal (p : CausalPkt) : State := benchE (fun m => { m with net := [.causal m.pkg.chip p], pkg := { m.pkg with ftime := 10 } })

theorem witness_CausalStoresAndTokens :
    (let p := someCausal (some 1) [] 10
     let s := benchCausal p
     awake s ∧ s.m.net = [] ++ Sent.causal s.m.pkg.chip p :: [] ∧ s.m.pkg.ftime ≤ p.deadline ∧ populated p.pa = true) ∧
    ((someCausal none [1] 9).deadline < (benchCausal (someCausal none [1] 9)).m.pkg.ftime ∧ unsettled (benchCausal (someCausal none [1] 9)).m (someCausal none [1] 9) = [1]) ∧
    (benchE id).m.pkg.sluice.length < Config.sluicePlaces ∧ kget 1 (benchE id).m.pkg.own = none := by
  unfold awake; decide +kernel

theorem test_causal_store_performs : next (.causalStorePerform (someCausal none [] 10)) (benchCausal (someCausal none [] 10))
    (fun t => readByte t.m.mem 0x5000 == 5 && t.m.net == []) = true := by decide +kernel
theorem test_late_causal_store_is_dropped : next (.causalStorePerform (someCausal none [] 9)) (benchCausal (someCausal none [] 9))
    (fun t => readByte t.m.mem 0x5000 == 0 && t.m.net == [.expiry 0 0 0x5000 906 0]) = true := by decide +kernel
theorem test_carrier_is_held : next (.carrierArrive (someCausal none [1] 10)) (benchCausal (someCausal none [1] 10))
    (fun t => t.m.pkg.sluice.length == 1 && readByte t.m.mem 0x5000 == 0 && t.m.net == [.query 0 1]) = true := by decide +kernel

/-- A contribution to word 2 of the line at 0x5000. -/
def someRed (v : W32) : RedPkt := { src := 0, core := 0, tag := 907, gen := 0, tenant := 0, op := .addS32, line := 0x5000 / 64, words := [(2, v)] }

theorem witness_ReductionsAndCollectives :
    (let s := benchE (fun m => { m with net := [.red m.pkg.chip (someRed 5)] })
     awake s ∧ s.m.net = [] ++ Sent.red s.m.pkg.chip (someRed 5) :: [] ∧ ((someRed 5).words.map (fun w => w.1)).Nodup ∧
       populated (64 * (someRed 5).line) = true ∧ s.m.pkg.redSlots = [] ∧ slotsInUse s.m < Config.reductionSlots) ∧
    mayCome (benchE id) 0 := by
  refine ⟨⟨?_, ?_⟩, ?_⟩
  · unfold awake; decide +kernel
  · unfold slotsInUse; decide +kernel
  · unfold mayCome; decide +kernel

/-- A reduction slot that holds 5 for word 2 of that line. -/
def someSlot : RedSlot := { tenant := 0, op := .addS32, line := 0x5000 / 64, words := [(2, 5)], nan := false, from_ := [] }

theorem test_reduction_slot_adds : next (.reductionSlotApply 0)
    (benchE (fun m => { m with mem := writeBytes m.mem 0x5008 [3], pkg := { m.pkg with redSlots := [someSlot] } }))
    (fun t => readByte t.m.mem 0x5008 == 8 && t.m.pkg.redSlots == []) = true := by decide +kernel

theorem witness_PowerTimeAndEnergy :
    (let s := benchE (fun m => m.modPkg (fun p => { p with chip := 1, nx := 2, counting := true }))
     awake s ∧ s.m.pkg.chip ≠ 0 ∧ s.m.pkg.ftime < (1 : W64).toNat) ∧ ((benchE id).m.pkg.gov 0).group = none ∧
    (benchE id).m.pkg.p + 0 ≤ 4800 ∧ 4800 < (benchE id).m.pkg.p + 1 ∧ (benchE id).m.net = [] ∧
    ((benchE (fun m => m.modPkg (fun p => p.modGov 0 (fun g => { g with group := some 5, changes := [(0, 9)] })))).m.pkg.gov 0).changes = [(0, 9)] := by
  unfold awake; decide +kernel

theorem test_fabric_time_moves_by_one : next (.ftimeAdjust 100) (benchE (fun m => m.modPkg (fun p => { p with chip := 1, counting := true })))
    (fun t => t.m.pkg.ftime == 1) = true := by decide +kernel

theorem witness_ResetLifeCycleErrorsAndTests :
    (((benchE id).m.cores.map (fun p => p.1)).Nodup ∧ awake (benchE id) ∧ (benchE id).m.pkg.life = .blank) ∧
    (benchE (fun m => m.modPkg (fun p => { p with wiping := true }))).m.pkg.wiping = true ∧
    (((benchE id).m.ctx 0).status ≠ .absent ∧ ((benchE id).m.ctx 0).trp.handler = false) ∧
    (coreFree (benchE id).m 5 ∧ ((benchE id).m.core 5).dead = false ∧ ¬ coreFree (benchE id).m 0) := by
  unfold awake coreFree; decide +kernel

theorem test_reset_wipes : next (.deviceReset someFirmware) (benchE id) (fun t => readByte t.m.mem 0x40010000 == 0 && t.m.ctxs == [] && t.m.pkg.wiping) = true := by
  decide +kernel
theorem test_uncorrectable_error_of_a_read : next (.memoryError .registers 0 false (some (.issue 0 15)) 0) (benchE id)
    (fun t => t.m.teams.map (fun q => q.reports.map (fun r => r.cause)) == [[0x00000005000F0012]]) = true := by decide +kernel

/-! ### Numbers -/

theorem witness_RoundingChoosesANeighbour : fmtE2m1 ∈ [fmtF32, fmtBf16, fmtF16, fmtE4m3, fmtE5m2, fmtE2m1] ∧ fmtF32.inf = true := by
  exact ⟨by simp, rfl⟩

theorem witness_ArithmeticRoundsTheExactResult : fmtF32 ∈ vectorFmts ∧ isFinite fmtF32 0x3F800000 (valueR false (2 ^ 23) (-23)) := by
  refine ⟨by simp [vectorFmts], false, 2 ^ 23, -23, ?_, rfl⟩
  decide +kernel

theorem witness_SpecialOperandsGiveTheirResults : fmtF32.decode 0x7FC00000 = .nan ∧ fmtF32.decode 0x7F800000 = .inf false ∧
    fmtF32.decode 0xFF800000 = .inf true ∧ fmtF32.decode 0x80000000 = .fin true 0 (-149) ∧ fmtF32.decode 0xBF800000 = .fin true (2 ^ 23) (-23) := by
  decide +kernel

theorem test_tie_goes_to_even : fop fmtF32 .add .rne 0x3F800000 0x33800000 0 = (0x3F800000, 1) := by decide +kernel
theorem test_overflow_to_infinity : fop fmtF32 .mul .rne 0x7F7FFFFF 0x40000000 0 = (0x7F800000, 5) := by decide +kernel
theorem test_division_by_zero : fop fmtF32 .div .rne 0x3F800000 0x80000000 0 = (0xFF800000, xfDivZero) := by decide +kernel
theorem test_invalid_difference : fop fmtF32 .sub .rne 0x7F800000 0x7F800000 0 = (0x7FC00000, xfInvalid) := by decide +kernel


/-! ### Boundary values of the window's words -/

/-- When SHEAD and SSEQ are written, as the statement says it. -/
def headFree (t : Stream) (w : W64) : Prop :=
  (stateOf t = 4 ∨ (stateOf t = 0 ∧ t.head = t.end_)) ∧ w.toNat % 4 = 0 ∧ w.toNat ≤ t.end_.toNat ∧ t.end_.toNat ≤ w.toNat + 2 ^ (t.size.toNat % 32)
def seqFree (t : Stream) (w : W64) : Prop := (stateOf t = 0 ∨ stateOf t = 4) ∧ t.open_ = [] ∧ t.seq.toNat ≤ w.toNat
def someStream (stat end_ : W64) (open_ : List W64) : Stream := { Stream.zero with stat := stat, end_ := end_, seq := 9, open_ := open_ }

theorem witness_WindowWritesStreamWords :
    (headFree (someStream 4 0x1000 []) 0 ∧ headFree (someStream 4 0x1000 []) 0x1000 ∧ headFree { someStream 0 0x1000 [] with head := 0x1000 } 0x1000) ∧
    (¬ headFree (someStream 4 0x1004 []) 0 ∧ ¬ headFree (someStream 4 0x1000 []) 0x1004 ∧ ¬ headFree (someStream 4 0x1000 []) 2 ∧
      ¬ headFree (someStream 1 0x1000 []) 0x1000 ∧ ¬ headFree (someStream 0 0x1000 []) 0x1000) ∧
    (seqFree (someStream 0 0 []) 9 ∧ seqFree (someStream 4 0 []) 9 ∧ ¬ seqFree (someStream 0 0 []) 8 ∧ ¬ seqFree (someStream 1 0 []) 9 ∧
      ¬ seqFree (someStream 0 0 [8]) 9) ∧
    ((0xFFFF00000001FF07 : W64).toNat / 2 ^ 17 % 2 ^ 15 = 0 ∧ (0xFFFF00000001FF07 : W64).toNat / 8 % 32 = 0 ∧
      (0x20000 : W64).toNat / 2 ^ 17 % 2 ^ 15 ≠ 0 ∧ (8 : W64).toNat / 8 % 32 ≠ 0) ∧
    ((31 : W64).toNat / 32 = 0 ∧ (32 : W64).toNat / 32 ≠ 0 ∧ ((11 : W64).toNat % 32 < 12 ∧ ¬ (12 : W64).toNat % 32 < 12) ∧
      (30 < (31 : W64).toNat % 32 ∧ ¬ 30 < (30 : W64).toNat % 32)) ∧
    ((0x7FFFFFFFFFF000 : W64).toNat / 2 ^ 55 = 0 ∧ (0x7FFFFFFFFFF000 : W64).toNat % 2 ^ 12 = 0 ∧ (0x80000000000000 : W64).toNat / 2 ^ 55 ≠ 0 ∧
      (0x800 : W64).toNat % 2 ^ 12 ≠ 0) := by
  unfold headFree seqFree stateOf
  refine ⟨?_, ?_, ?_, ?_, ?_, ?_⟩ <;> decide +kernel

/-- Claims of scratchpad granules: 24 from granule 0 of a core's, 25 of them, one from granule 23, one from granule 24, 128 of a
cluster's, one from its granule 127, one from 128, one of cluster 31, of cluster 32, of core 255 for tenant 7, for tenant 8, and none. -/
theorem witness_claims : claimOk 0xC000 ∧ ¬ claimOk 0xC800 ∧ claimOk 0xB80800 ∧ ¬ claimOk 0xC00800 ∧ claimOk 0x800040000 ∧ claimOk 0x803F80800 ∧
    ¬ claimOk 0x804000800 ∧ claimOk 0x8F8000800 ∧ ¬ claimOk 0x900000800 ∧ claimOk 0x77F8000800 ∧ ¬ claimOk 0x8000000800 ∧ ¬ claimOk 0x0 := by
  unfold claimOk
  refine ⟨?_, ?_, ?_, ?_, ?_, ?_, ?_, ?_, ?_, ?_, ?_, ?_⟩ <;> decide +kernel

/-- Slice 3 as it last served partition 2. -/
def benchPart : State := benchE (fun m => { m with pkg := { m.pkg with lastPart := [(3, 2)], p := 1200, nx := 2 } })

theorem witness_WindowWritesPackageWords : open_ benchPart ∧
    ((7 : Byte).toNat ≤ 7 ∧ kget 3 benchPart.m.pkg.lastPart ≠ some (7 : Byte).toNat ∧ kget 3 benchPart.m.pkg.lastPart = some (2 : Byte).toNat ∧
      8 ≤ (8 : Byte).toNat ∧ (8 : Byte) ≠ 0xFF ∧ (8 : Nat) ≤ (0xFE : Byte).toNat) ∧
    (benchPart.m.pkg.f ≤ (1200 : W64).toNat ∧ (4800 : W64).toNat ≤ 4800 ∧ (1199 : W64).toNat < benchPart.m.pkg.f ∧ 4800 < (4801 : W64).toNat) ∧
    ((1200 : W64).toNat ≤ benchPart.m.pkg.p ∧ benchPart.m.pkg.p < (1201 : W64).toNat) ∧ (317 < 318 ∧ (0xFFFFFFFF : W64).toNat / 2 ^ 32 = 0 ∧
      (0x100000000 : W64).toNat / 2 ^ 32 ≠ 0) ∧
    (let s := benchE (fun m => { m with runs := [], pkg := { m.pkg with nx := 2 } })
     noRunPlaced s ∧ s.m.pkg.names s.m.pkg.chip = true ∧ s.m.pkg.names 0x100 = true ∧ (0x100 : W64) ≠ s.m.pkg.chip.zeroExtend 64 ∧ (0x100 : W64).toNat < 2 ^ 12) ∧
    ((benchPart.m.ctx 0).share ≤ benchPart.m.heldShares 0 ∧ benchPart.m.heldShares (coreOf 0) - (benchPart.m.ctx 0).share + 64 ≤ 64 ∧
      64 < (65 : Byte).toNat ∧ (benchPart.m.ctx 1).status = .absent) ∧
    (∀ g ∈ claimed 0x8FBF80800, benchPart.m.granuleHeld g = false) ∧ 287 < 288 := by
  refine ⟨?_, by decide +kernel, by decide +kernel, by decide +kernel, by decide +kernel, ?_, by decide +kernel, by decide +kernel, by decide⟩
  · unfold open_ awake; decide +kernel
  · unfold noRunPlaced; decide +kernel

/-- The first and the last bytes of the window's memory, and what lies outside. -/
theorem witness_WindowAccessesMemoryAndEndsRuns :
    (let m := (benchS (fun t => { t with root := 0x40010000 })).m
     2 ^ 32 ≤ (0x100000000 : W64).toNat ∧ (m.device (0x100000000 - 2 ^ 32) 8 false).isSome = true ∧ (m.device (0x100000000 - 2 ^ 32) 1 true).isSome = true ∧
     (m.device (2 ^ 50) 1 false).isNone = true ∧ (m.device (2 ^ 50) 1 true).isNone = true ∧
     0x40000000 ≤ (0x40000000 : W64).toNat ∧ (0x6FFFFFFF : W64).toNat < 0x70000000 ∧ (m.scratch 0x40200000 8).isSome = true ∧
     (m.scratch 0x4037FFF8 8).isSome = true ∧ (m.scratch 0x4037FFF9 8).isNone = true ∧ (m.scratch 0x40000000 8).isNone = true ∧
     (m.scratch 0x6FFFFFF8 8).isSome = true ∧ (m.scratch 0x6FFFFFF9 8).isNone = true ∧ (m.scratch 0x61FFFFFC 8).isSome = true) ∧
    ((benchE id).m.runs.find? (fun q => q.placed && q.stream == (0 : BitVec 4).toNat && q.pos == 1)).isSome = true ∧
    (benchE id).m.runs.find? (fun q => q.placed && q.stream == (1 : BitVec 4).toNat && q.pos == 1) = none := by
  decide +kernel

/-! ### Streams, runs and teams -/

theorem witness_StreamEvents :
    ((0 : W64).toNat ≤ (4096 : W64).toNat ∧ (4096 : W64).toNat % 4 = 0 ∧ ((4096 : W64) - 0).toNat ≤ 2 ^ ((12 : W64).toNat % 32) ∧
      ¬ ((4100 : W64) - 0).toNat ≤ 2 ^ ((12 : W64).toNat % 32) ∧ (4094 : W64).toNat % 4 ≠ 0) ∧
    (let t := (benchS (fun t => { t with await := some (.position 0 7), ret := [7], late := [(3, 2), (4, 5)] })).m.stream 0
     t.await = some (.position 0 7) ∧ (7 : W64) ∈ t.ret ∧ (8 : W64) ∉ t.ret ∧ t.late = [(3, 2), (4, 5)]) ∧
    ((benchS (fun t => { t with await := some .all, open_ := [] })).m.stream 0).open_ = [] ∧
    ((benchS (fun t => { t with await := some .all, open_ := [3] })).m.stream 0).open_ ≠ [] ∧
    (benchS (fun t => { t with await := some (.placement 1) })).m.pkg.wiping = false ∧
    (benchE (fun m => m.modPkg (fun p => { p with wiping := true }))).m.pkg.wiping = true ∧
    ((benchS (fun t => { t with late := [(3, 2), (4, 5)] })).m.stream 0).await = none := by decide +kernel

theorem test_signal_stores_and_raises : next (.signalStorePerformed 0) (benchS (fun t => { t with await := some (.store 0x5000 7 (some 9)) }))
    (fun t => readByte t.m.mem 0x5000 == 7 && t.m.irqs == [9] && (t.m.stream 0).await == none) = true := by decide +kernel
theorem test_append_fault_abandons_the_wait : next (.append 0 2) (benchS (fun t => { t with await := some .all }))
    (fun t => (t.m.stream 0).await == none && (t.m.stream 0).stat.toNat % 65536 == 0x704) = true := by decide +kernel

/-- A run header and a record of one entry (R18): core 0 of cluster 0, context 0, 4 shares, a granule of each scratchpad. -/
def someRecord : List Byte :=
  bytesLE 0x314B4952 ++ [1, 0, 1, 0] ++ zeroBytes 56 ++ [0, 0, 1, 0, 0, 0, 4, 0, 0, 1, 0, 0, 0, 1, 0, 0]

/-- The bench with its context ended, the run having a child or not, and a lost store that nobody took. -/
def benchOver (child : Option (W64 × W64)) : State :=
  benchE (fun m => { m with
    runs := m.runs.map (fun r => { r with child := child })
    mem := writeBytes m.mem 0x30000 someRecord
    streams := [(0, { Stream.zero with cfg := 0x00000000FFF01000, root := 0x40010000 })]
    ctxs := m.ctxs.map (fun p => (p.1, { p.2 with status := .ended, pend := { p.2.pend with pex := true, pexN := 1 } })) })

/-- Whether a run is over can be decided. -/
def overDecidable (s : State) (r : Run) : Decidable (over_ s r) := by
  unfold over_ idle
  infer_instance

theorem ended_run_is_over : ∃ r, (benchOver none).m.run? ((benchE id).m.ctx 0).rid = some r ∧ over_ (benchOver none) r ∧ r.child = none ∧
    ∃ x ∈ r.ctxs, ((benchOver none).m.ctx x).pend.pex = true ∧ ((benchOver none).m.ctx x).pend.pexN ≠ 0 := by
  have h : ((benchOver none).m.run? ((benchE id).m.ctx 0).rid).any (fun r => @decide (over_ (benchOver none) r) (overDecidable _ r) && decide (r.child = none) &&
      decide (∃ x ∈ r.ctxs, ((benchOver none).m.ctx x).pend.pex = true ∧ ((benchOver none).m.ctx x).pend.pexN ≠ 0)) = true := by
    decide +kernel
  rw [Option.any_eq_true] at h
  obtain ⟨r, hr, hb⟩ := h
  simp only [Bool.and_eq_true, decide_eq_true_eq] at hb
  exact ⟨r, hr, hb.1.1, hb.1.2, hb.2⟩

/-- A map that a run which is gone has left. -/
def retiredMap : MapSlot := { state := .live, image := [], rid := 77, tenant := 0, base := 0, bytes := 0, open_ := [], waiter := none }

/-- A child whose record is read, whose record is refused, and whose record cannot be read. -/
theorem witness_RunEvents_child : ([0x30000, 0x30010, 2 ^ 50].map (fun bin =>
      match (benchOver none).m.readRecord ((benchOver none).m.stream 0) bin with
      | .ok _ => (0 : BitVec 8)
      | .error c => c)) = [0, 3, 4] ∧
    (benchOver (some (0x30000, 5))).m.runs.map (fun r => r.child) = [some (0x30000, 5)] := by decide +kernel
theorem test_child_waits_for_placement : next (.runRetire ((benchE id).m.ctx 0).rid) (benchOver (some (0x30000, 5)))
    (fun t => t.m.runs.map (fun r => (r.placed, r.args, r.bin, r.pos)) == [(false, 5, 0x30000, 1)] && (t.m.stream 0).ret == []) = true := by decide +kernel

theorem witness_RunEvents :
    ((benchE id).m.runs.map (fun r => (r.placed, r.begun)) = [(true, true)] ∧ (∃ x, ((benchE id).m.ctx x).status ≠ .ended)) ∧
    (benchE (fun m => m.modPkg (fun p => { p with wiping := true }))).m.pkg.wiping = true ∧
    (let s := benchE (fun m => m.modTail 0 (fun t => { t with slots := [(2, retiredMap)] }))
     (∃ q ∈ (s.m.tail 0).slots, s.m.run? q.2.rid = none) ∧ (s.m.tail 0).landing = none) := by
  refine ⟨⟨by decide +kernel, 0, by decide +kernel⟩, by decide +kernel, by decide +kernel⟩

theorem test_retired_run_reports_a_lost_store : next (.runRetire ((benchE id).m.ctx 0).rid) (benchOver none)
    (fun t => t.m.runs == [] && t.m.ctxs.all (fun p => p.2.status == .absent) && (t.m.stream 0).stat.getLsbD 16 && t.m.irqs == [0xF2]) = true := by
  decide +kernel

/-- The bench's team with `f` applied. -/
def benchTeam (f : Team → Team) : State := benchE (fun m => { m with teams := m.teams.map f })

/-- Two reports, and an undo log that holds a line of the context's scratchpad and a row of tile 0. -/
def someReport (no : Nat) : Report := { ctx := 0, no := no, pc := 0x10000, cause := 0x12, addr := 0 }
def someLog : List Undo := [.row 0 0 3 5 6, .line 0 (llLoc 0 0) (zeroBytes 63 ++ [9])]

/-- What a rollback needs of its team. -/
def rollsBack (s : State) (p : Team → Bool) : Bool :=
  (s.m.team? (s.m.ctx 0).rid 0).any (fun t => p t && decide ((t.ckpt.map (fun p => p.1)).Nodup) && t.rid == (s.m.ctx 0).rid && t.cluster == 0)

theorem witness_FaultDelivery : rollsBack (benchTeam (fun t => { t with reports := [someReport 4, someReport 3] })) (fun t =>
    t.reports.all (fun q => q == someReport 3 || (3 : Nat) < q.no) && t.serving == none) = true ∧
    (benchTeam id).m.runStopped ((benchE id).m.ctx 0).rid = false ∧ rollsBack (benchTeam (fun t => { t with serving := some 0 })) (fun t => t.serving == some 0) = true := by
  decide +kernel
theorem witness_RollbackRestoresTheTeam : rollsBack (benchTeam (fun t => { t with undo := someLog })) (fun t => t.undo == someLog && t.ckpt.map (fun p => p.1) == [0]) = true ∧
    oldByte someLog (llLoc 0 0 + 63) = some 9 ∧ oldByte someLog (llLoc 0 0 + 64) = none ∧ oldRow someLog 0 0 3 = some (5, 6) := by decide +kernel
theorem witness_TeamBarrierAndForcedCheckpoint : rollsBack (benchTeam (fun t => { t with full := true })) (fun t => t.full && t.reports.isEmpty &&
    t.gate.isNone && (benchTeam id).m.quiet t) = true ∧ rollsBack (benchTeam (fun t => { t with gate := some [903] })) (fun t => t.gate == some [903] && decide (t.ctxs.Nodup)) = true ∧
    (benchTeam id).m.gops = [] := by decide +kernel

theorem test_rollback_puts_the_line_back : next (.faultDelivery ((benchE id).m.ctx 0).rid 0) (benchTeam (fun t => { t with undo := someLog, reports := [someReport 3] }))
    (fun t => readByte t.m.mem (llLoc 0 0 + 63) == 9 && (t.m.ctx 0).trp.handler && (t.m.ctx 0).trp.tcause == 0x8012) = true := by decide +kernel

/-- The bench's context at a generator barrier, with generator 1 keyed 7. -/
def benchGen (restore : Bool) : State := benchC 0 [] (fun c => { c with status := .parked (.gen restore 0 Ctl.zero), regs := { c.regs with genK := [(1, 7)] } })

theorem witness_GeneratorBarrierRelease : ∃ t, (benchGen false).m.team? ((benchE id).m.ctx 0).rid 0 = some t ∧ t.ctxs = [0] ∧ t.serving = none ∧
    t.reports = [] ∧ (benchGen false).m.locq = [] ∧ snapshotBase (benchGen false) t false ((benchGen false).m.window 0 .lk).1 ∧
    (∀ x ∈ t.ctxs, ∃ off c, ((benchGen false).m.ctx x).status = .parked (.gen false off c)) := by
  have h : ((benchGen false).m.team? ((benchE id).m.ctx 0).rid 0).any (fun t => t.ctxs == [0] && t.serving.isNone && t.reports.isEmpty) = true := by decide +kernel
  rw [Option.any_eq_true] at h
  obtain ⟨t, ht, hb⟩ := h
  simp only [Bool.and_eq_true, List.isEmpty_iff, Option.isNone_iff_eq_none, beq_iff_eq] at hb
  have hs : ((benchGen false).m.ctx 0).status = .parked (.gen false 0 Ctl.zero) := by decide +kernel
  refine ⟨t, ht, hb.1.1, hb.1.2, hb.2, by decide +kernel, ⟨0, 0, 0, Ctl.zero, by rw [hb.1.1]; rfl, hs, by simp, by simp⟩, ?_⟩
  intro x hx
  rw [hb.1.1, List.mem_singleton] at hx
  exact ⟨0, Ctl.zero, hx ▸ hs⟩

theorem test_generator_barrier_writes_the_snapshot : next (.generatorBarrierRelease ((benchE id).m.ctx 0).rid 0) (benchGen false)
    (fun t => readByte t.m.mem ((t.m.window 0 .lk).1 + 48) == 7 && (t.m.ctx 0).status == .run) = true := by decide +kernel

/-! ### A compressed block that expands -/

theorem crc_below : ∀ (l : List Nat) (c : Nat), c < 2 ^ 32 →
    l.foldl (fun c _ => if c % 2 = 1 then (c / 2) ^^^ 0x82F63B78 else c / 2) c < 2 ^ 32
  | [], _, h => h
  | _ :: l, c, h => crc_below l _ (by
      show (if c % 2 = 1 then c / 2 ^^^ 0x82F63B78 else c / 2) < 2 ^ 32
      split
      · exact Nat.xor_lt_two_pow (by omega) (by decide)
      · omega)

theorem crc_fold_below : ∀ (bs : List Byte) (c : Nat), c < 2 ^ 32 → bs.foldl crcByte c < 2 ^ 32
  | [], _, h => h
  | b :: bs, c, h => crc_fold_below bs _ (crc_below _ _ (Nat.xor_lt_two_pow h (by have := b.isLt; omega)))

theorem crc_small (bs : List Byte) : crc32c bs < 2 ^ 32 := Nat.xor_lt_two_pow (crc_fold_below bs _ (by decide)) (by decide)

theorem rice_of_zero_bits : ∀ n : Nat, riceBytes 0 n (List.replicate n false) = some (List.replicate n 0)
  | 0 => rfl
  | n + 1 => by simp [riceBytes, riceCode, List.replicate_succ, rice_of_zero_bits n]

theorem bits_of_zero_bytes : ∀ n : Nat, bitsMsb (List.replicate n 0) = List.replicate (8 * n) false
  | 0 => rfl
  | n + 1 => by
    have h : bitsMsb (List.replicate (n + 1) 0) = List.replicate 8 false ++ bitsMsb (List.replicate n 0) := by
      simp [bitsMsb, List.replicate_succ]
    rw [h, bits_of_zero_bytes n, List.replicate_append_replicate]
    congr 1
    omega

/-- A slot with 512 bytes of codes, k 0 (R162, R163), and the slot of a block of 4,096 zero bytes. -/
def slotWith (c : Nat) (body : List Byte) : List Byte := [0, 2, 0, 0] ++ natLE 4 c ++ zeroBytes 8 ++ body
def zeroSlot : List Byte := slotWith (crc32c (List.replicate 4096 0)) (List.replicate 512 0)

theorem slot_expands (c : Nat) (body out : List Byte) (hc : c < 2 ^ 32) (hl : body.length = 512)
    (ho : riceBytes 0 4096 (bitsMsb body) = some out) (hk : crc32c out = c) : expandSlot (slotWith c body) = some out := by
  have hf : fieldAt (slotWith c body) 4 4 = c := by
    simp [slotWith, natLE, zeroBytes, fieldAt, leNat]
    omega
  have h0 : fieldAt (slotWith c body) 0 2 = 512 := by simp [slotWith, natLE, fieldAt, leNat]
  have hd : (slotWith c body).drop 16 = body := rfl
  have h2 : byteAt (slotWith c body) 2 = 0 := rfl
  have h3 : byteAt (slotWith c body) 3 = 0 := rfl
  have h8 : zeroAt (slotWith c body) 8 8 = true := rfl
  have ht : body.take 512 = body := by rw [← hl, List.take_length]
  unfold expandSlot
  simp [h0, hd, h2, h3, h8, hf, ht, ho, hk]

theorem zero_slot_expands : expandSlot zeroSlot = some (List.replicate 4096 0) :=
  slot_expands _ _ _ (crc_small _) List.length_replicate
    (by rw [bits_of_zero_bytes, show 8 * 512 = 4096 from rfl, rice_of_zero_bits]) rfl

/-! ### Operations that begin, and accesses at their homes -/

/-- An operation of the X queue of the bench's context. -/
def someXOp (i : Instr) (words : List W64) : EngOp := { someMOp false with id := 906, ins := i, words := words }
def benchXq (o : EngOp) : State := benchC 0 [] (fun c => { c with xq := [o] })

/-- A send of one element of format f32 at location 0x5000, to core Tailrace 1 of this package: STREAM 3, one dimension, ORG 5. -/
def someSend : EngOp := someXOp (.xsend 0 1 8) [0x0003000000000005, 0x0001000100000000, 0, 0, 0, 0x5000, 0, 1]
/-- Two transfers that wait for their acknowledgements. -/
def manyXfers (n : Nat) : List Xfer := List.replicate n { tid := 9, op := 800, ctx := 0, rid := (bench 0 []).oc.rid, member := 0, dest := 0, done := false, ok := false }

theorem nextX_of (o : EngOp) (hc : o.ctx = 0) (hb : o.begun = false) (hn : o.needs = [])
    (h : (decide (((benchXq o).m.ctx 0).xq = [o]) && decide ((benchXq o).m.ctxs = [(0, (benchXq o).m.ctx 0)]) &&
      decide ((benchXq o).m.ctxs.all (fun p => !(benchXq o).m.headV p.2.vq o.id && !(benchXq o).m.headV p.2.qq o.id)) &&
      (!(benchXq o).m.leavesTeam o || (benchXq o).m.keptFor o)) = true) : nextX (benchXq o).m 0 o [] [] := by
  simp only [Bool.and_eq_true, decide_eq_true_eq, Bool.or_eq_true, Bool.not_eq_true'] at h
  obtain ⟨⟨⟨hq, hx⟩, hv⟩, hk⟩ := h
  rw [hx] at hv
  simp only [List.all_cons, List.all_nil, Bool.and_true, Bool.and_eq_true, Bool.not_eq_true'] at hv
  refine ⟨by rw [hq]; rfl, hc, hb, by simp, by rw [hx]; simp, ?_, ?_, by simp, by simp [needsMet, hn], ?_⟩
  · rw [hx]
    simp
  · rw [hx]
    simpa using hv
  · intro hl
    simpa [hl] using hk

theorem witness_XOperationsBegin : nextX (benchXq someSend).m 0 someSend [] [] ∧ nextX (benchXq (someXOp (.ldmap 3 0 1) [0x5000])).m 0 (someXOp (.ldmap 3 0 1) [0x5000]) [] [] ∧
    nextX (benchXq (someXOp (.strays 0 1) [0x5000])).m 0 (someXOp (.strays 0 1) [0x5000]) [] [] ∧
    nextX (benchXq (someXOp (.lnmsg 0 4) [7])).m 0 (someXOp (.lnmsg 0 4) [7]) [] [] := by
  refine ⟨?_, ?_, ?_, ?_⟩ <;> exact nextX_of _ rfl rfl rfl (by decide +kernel)

theorem witness_XOperationsBegin_room : isSend someSend.ins = true ∧ ((manyXfers 255).filter (fun f => !f.done)).length + someSend.dests.length ≤ 256 ∧
    256 < ((manyXfers 256).filter (fun f => !f.done)).length + someSend.dests.length ∧ ((benchE id).m.core 0).xfers = [] ∧
    ((benchE id).m.tail (tailOf 0 1)).strays = [] ∧ (((benchE id).m.core 0).link 0).outb = [] := by decide +kernel

theorem test_send_emits_a_packet_and_its_marker : next (.engineBegin 906) { benchXq someSend with m := { (benchXq someSend).m with mem := writeBytes (benchXq someSend).m.mem 0x5000 [1, 2, 3, 4] } }
    (fun t => t.m.net == [.land 0 { src := 0, core := 0, tenant := 0, tail := 1, hdr := 0x00030000000000000000000000050000, payload := [1, 2, 3, 4] },
      .land 0 { src := 0, core := 0, tenant := 0, tail := 1, hdr := 0x00030008000000000000000000050000, payload := [1, 0, 0, 0, 0, 0, 0, 0] }]) = true := by
  decide +kernel

theorem witness_EngineOperationsBegin :
    (let s := benchC 0 [] (fun c => { c with qq := [someVOp false] })
     (s.m.ctx 0).qq = [someVOp false] ∧ s.m.headV (s.m.ctx 0).qq 900 = true ∧ s.m.headV (s.m.ctx 0).vq 900 = false ∧ s.m.ctxs.map (fun p => p.1) = [0]) ∧
    (let s := benchE (fun m => m.modCore 0 (fun c => { c with mq := [someMOp false] }))
     nextM s.m 0 (someMOp false) [] []) ∧
    (let g : GOp := { someGOp (.store [5]) false with needs := [77] }
     nextG (benchE (fun m => { m with gops := [g], ops := [903] })).m g) := by
  refine ⟨by decide +kernel, ⟨by decide +kernel, by decide +kernel, rfl, by decide +kernel, by decide +kernel, by decide +kernel, ?_, ?_⟩,
    ⟨[], [], rfl, by decide, by decide, by simp, by simp, ?_, ?_⟩⟩
  · intro k hk
    simp [someMOp] at hk
  · decide +kernel
  · intro k hk
    simp at hk
    subst hk
    decide +kernel
  · unfold noEngineHas; decide +kernel

theorem witness_LocalAccessesPerformAndReturn :
    (∃ t, (benchLocal (.store [(llLoc 0 0, [5])]) .none).m.team? ((benchE id).m.ctx 0).rid 0 = some t ∧ t.undo = []) ∧ linesOf (llLoc 0 63) 2 = [llLoc 0 0 / 64, llLoc 0 64 / 64] ∧
    (let r : Ret := { id := 9, ctx := 0, slot := 8, dest := .vec 3 4, bytes := zeroBytes 16 }
     (benchE (fun m => { m with rets := [r] })).m.rets.find? (fun q => q.id == r.id) = some r) := by
  have h : ((benchLocal (.store [(llLoc 0 0, [5])]) .none).m.team? ((benchE id).m.ctx 0).rid 0).any (fun t => t.undo == []) = true := by decide +kernel
  rw [Option.any_eq_true] at h
  obtain ⟨t, ht, hu⟩ := h
  exact ⟨⟨t, ht, by simpa using hu⟩, by decide +kernel, by decide +kernel⟩

/-! ### Each case of an access at its home -/

/-- The bench with the operations `gs` in flight. -/
def benchGops (gs : List GOp) : State := benchE (fun m => { m with gops := gs, ops := gs.map (fun g => g.id) })
def olderStore : GOp := { someGOp (.store [6]) true with id := 902 }
def olderAmo : GOp := { someGOp (.amo .add 1 0 5) true with id := 902, segs := [{ somePiece with len := 8 }] }
def theAmo : GOp := { olderAmo with id := 903 }
/-- A read of two pieces, of which a store of its team holds a byte. -/
def theRead : GOp := { someGOp (.read (.vec 3 1)) true with segs := [somePiece, { somePiece with off := 1, len := 3, va := 0x6000, pa := 0x6000 }], own := [(1, 9)] }

theorem gopAt_only (s : State) (g : GOp) (pre : List GOp) (h : s.m.gops = pre ++ [g]) (hi : ∀ p ∈ pre, p.id ≠ g.id) (hn : g.needs = []) (hs : g.sent = false) :
    gopAt s.m g.id g := by
  refine ⟨by rw [h]; simp, rfl, ?_, hn, hs⟩
  intro p hp he
  rw [h] at hp
  rcases List.mem_append.mp hp with q | q
  · exact absurd he (hi p q)
  · simpa using q

theorem witness_GlobalOperationsPerform_stores :
    gopAt (benchGops [someGOp (.store [5]) true]).m 903 (someGOp (.store [5]) true) ∧ (benchGops [someGOp (.store [5]) true]).m.entryWaits (someGOp (.store [5]) true) = false ∧
    gopAt (benchGops [olderStore, someGOp (.store [5]) true]).m 903 (someGOp (.store [5]) true) ∧
    (benchGops [olderStore, someGOp (.store [5]) true]).m.entryWaits (someGOp (.store [5]) true) = true ∧
    gopAt (benchGops [someGOp (.red .addS32 [5]) true]).m 903 (someGOp (.red .addS32 [5]) true) ∧
    (benchGops [someGOp (.red .addS32 [5]) true]).m.entryWaits (someGOp (.red .addS32 [5]) true) = false := by
  refine ⟨gopAt_only _ _ [] rfl (by simp) rfl rfl, by decide +kernel, gopAt_only _ _ [olderStore] rfl (by decide) rfl rfl, by decide +kernel,
    gopAt_only _ _ [] rfl (by simp) rfl rfl, by decide +kernel⟩

theorem witness_GlobalOperationsPerform_reads :
    gopAt (benchGops [theRead]).m 903 theRead ∧ (∀ p ∈ theRead.segs, p.chip = none) ∧ (theRead.segs.map (fun p => p.off)).Nodup ∧ theRead.got = [] ∧
    (benchGops [theRead]).m.readWaits theRead = false ∧ (benchGops [olderAmo, theRead]).m.readWaits theRead = true ∧
    (benchGops [someGOp (.read .none) true]).m.readWaits (someGOp (.read .none) true) = false ∧
    gopAt (benchGops [theAmo]).m 903 theAmo ∧ (benchGops [theAmo]).m.amoWaits theAmo = false ∧ (benchGops [olderStore, theAmo]).m.amoWaits theAmo = true := by
  refine ⟨gopAt_only _ _ [] rfl (by simp) rfl rfl, by decide, by decide, rfl, by decide +kernel, by decide +kernel, by decide +kernel,
    gopAt_only _ _ [] rfl (by simp) rfl rfl, by decide +kernel, by decide +kernel⟩

theorem test_read_takes_its_teams_byte : next (.lgReadPerform 903) (benchGops [theRead])
    (fun t => t.m.rets.map (fun r => r.bytes) == [[0, 9, 0, 0]] && t.m.gops == []) = true := by decide +kernel

/-- A `drain` that waits for a prefetch alone, and for a store. -/
theorem witness_GlobalOperationsPerform_drains :
    (let s := benchC 0 [] (fun c => { c with drains := [904, 903] })
     (s.m.ctx 0).drains = 904 :: [903] ∧ s.m.gops = [] ∧ 903 ∉ s.m.ops) ∧
    (let g := someGOp (.read .none) true
     g.id = 903 ∧ g.act = .read .none ∧ g.needs = [] ∧ ((someGOp (.store [5]) false).act ≠ .read .none)) := by decide +kernel

/-- A translation that cluster 31 holds. -/
def someTlb (va : W64) : TlbEnt := { cluster := 31, root := 0x40010000, va := va, size := 2 ^ 30, leaf := 0xC00000000000E000 }
def benchTlb (n : Nat) (l : List TlbEnt) : State := benchE (fun m => m.modPkg (fun p => { p with tlb := List.replicate n (someTlb 0x40000000) ++ l }))

theorem witness_GlobalOperationsPerform_walks :
    (255 < 256 ∧ (0x3FFFFFFF : W64).toNat < 2 ^ 57 ∧ (benchE id).m.walk 0x40010000 0x3FFFFFFF = .ok (0xC00000000000E000, 2 ^ 30) ∧ ((benchE id).m.core 255).utlb = [] ∧
      (benchE id).m.walk 0x40010000 0x40000000 = .error 2 ∧ (benchTlb 0 [someTlb 0]).m.clusterEntry 31 0x40010000 0x3FFFFFFF = some (someTlb 0)) ∧
    ((benchTlb 4095 []).m.pkg.tlb.filter (fun t => t.cluster == 31)).length < 4096 ∧
    (∀ t ∈ (benchTlb 4095 []).m.pkg.tlb, t.cluster ≠ 31 ∨ ¬ (t.root = 0x40010000 ∧ (0x3FFFFFFF : W64).toNat / t.size = t.va.toNat / t.size)) := by
  have h : (benchTlb 4095 []).m.pkg.tlb = List.replicate 4095 (someTlb 0x40000000) ++ [] := rfl
  rw [h, List.append_nil]
  refine ⟨by decide +kernel, ?_, ?_⟩
  · refine Nat.lt_of_le_of_lt (List.length_filter_le ..) ?_
    rw [List.length_replicate]
    decide
  · intro t ht
    rw [List.eq_of_mem_replicate ht]
    decide

/-- An `ldb.bf16` whose compressed block at 0x5000 has come. -/
def someBlocks (bs : List Byte) : EngOp := { someMOp true with ins := .ldbBf16 0 1, feed := [(0x5000, 4096)], came := [(0x5000, bs)], blocks := [0x5000] }
def benchBlocks (bs : List Byte) : State := benchE (fun m => m.modCore 0 (fun c => { c with mq := [someBlocks bs] }))

theorem witness_GlobalOperationsPerform_blocks :
    ((benchBlocks zeroSlot).m.core 0).mq = [someBlocks zeroSlot] ∧ (someBlocks zeroSlot).came.find? (fun p => p.1 == 0x5000) = some (0x5000, zeroSlot) ∧
    expandSlot zeroSlot = some (List.replicate 4096 0) ∧ expandSlot [] = none ∧ ((benchBlocks []).m.ctx 0).rid = (someBlocks []).rid ∧
    (((benchBlocks []).m.team? (someBlocks []).rid 0).any (fun t => t.reports.isEmpty && t.serving.isNone)) = true ∧
    (benchBlocks []).m.runStopped (someBlocks []).rid = false ∧ ((benchBlocks []).m.ctx 0).trp.handler = false := by
  refine ⟨rfl, rfl, zero_slot_expands, by decide +kernel, by decide +kernel, by decide +kernel, by decide +kernel, by decide +kernel⟩

theorem test_block_fault_is_reported : next (.bolterBlockVerify 0) (benchBlocks [])
    (fun t => t.m.teams.map (fun q => q.reports.map (fun r => (r.cause, r.addr))) == [[(0x40013, 0x5000)]]) = true := by decide +kernel

/-! ### Stones, tables and dendritic forms -/

theorem witness_StonesAndTablesAreFilled :
    (imageForm (.ldbS8 3 1) = some (65536, 3) ∧ imageForm (.ldbBf16 0 1) = some (131072, 0) ∧ imageForm (.ldbE4m3 1 1) = some (69632, 1) ∧
      imageForm (.ldbE2m1 2 1) = some (36864, 2)) ∧
    (∃ x, imageNum (.ldbBf16 0 1) (List.replicate 131072 0) 255 15 15 = some x) ∧
    (List.replicate 768 (0 : Byte)).length = 768 ∧ (List.replicate 32 (0x21 : Byte)).length = 32 := by
  exact ⟨by decide, ⟨_, rfl⟩, List.length_replicate, List.length_replicate⟩

/-- A branch map that gives K blocks 0 and 1 of stone 0 the branches 5 and 3, and a row and a column. -/
def someMap : BitVec 256 := 0x35
def someRow : FeedRow := { a := List.replicate 16 (List.replicate 16 1), e := List.replicate 16 0, nan := List.replicate 16 false }
def someCol : StoneCol := { c := List.replicate 16 (List.replicate 16 2), e := List.replicate 16 0, nan := List.replicate 16 false }

theorem witness_BranchSumsAndCurves : isPresent someMap [0] 5 ∧ isPresent someMap [0] 3 ∧ isPresent someMap [0] 0 ∧ ¬ isPresent someMap [0] 15 ∧
    someRow.a.length = 16 ∧ someCol.c.length = 16 ∧ numF32 0x3F800000 ≠ .nan ∧ numF32 0x7FC00000 = .nan ∧ ([0x3F800000] : List W32) ≠ [] := by
  refine ⟨⟨by decide, 0, by simp, 0, by decide, by decide +kernel⟩, ⟨by decide, 0, by simp, 1, by decide, by decide +kernel⟩,
    ⟨by decide, 0, by simp, 2, by decide, by decide +kernel⟩, ?_, by decide, by decide, by decide +kernel, by decide +kernel, by simp⟩
  rintro ⟨-, s, hs, kb, hk, h⟩
  simp at hs
  subst hs
  revert h
  have : ∀ kb < 16, groupBranch someMap 0 kb ≠ 15 := by decide +kernel
  exact this kb hk

theorem test_branch_sum_of_a_block : branchSum someMap 5 [(0, someRow, someCol)] = 0x42000000 := by decide +kernel
theorem test_second_level_adds_in_order : secondLevel [0x3F800000, 0x40000000] = 0x40400000 := by decide +kernel

theorem witness_DendriticFormsPerform :
    (let f := dmmForm false 0 1 (BitVec.ofNat 32 0) 1
     f.segs = f.stones.length) ∧ ([zeroBytes 512] : List (List Byte)) ≠ [] ∧ (∀ s ∈ ([0, 3] : List Nat), s < 4) ∧ (31 < 32 ∧ ¬ 32 < 32) := by
  refine ⟨by decide +kernel, by simp, by decide, by decide⟩

/-! ### Packets that maps take -/

/-- A map of STREAM 0, format f32, one dimension, whose box is element 0 alone, with a barrier at 16 that counts arrivals, or none. -/
def someImage (flags : Byte) : List Byte := zeroBytes 3 ++ [flags] ++ zeroBytes 8 ++ [if flags = 0 then 0 else 16] ++ zeroBytes 83
def someSlotMap (st : MapState) (flags : Byte) : MapSlot :=
  { state := st, image := someImage flags, rid := (bench 0 []).oc.rid, tenant := 0, base := llLoc 0 0, bytes := 65536, open_ := [], waiter := none }
def benchMap (sl : MapSlot) (l : Option Landing) (net : List Sent) : State :=
  benchE (fun m => { m.modTail 0 (fun t => { t with slots := [(2, sl)], landing := l }) with net := net })
def someLanding (left : List Nat) : Landing := { pkt := somePkt 0, slot := 2, left := left, bad := false, merged := none }

theorem suits_someMap (st : MapState) (h : st = .live ∨ st = .retiring) : suits (someSlotMap st 0x18) (somePkt 0) := by
  have hi : (someSlotMap st 0x18).image = someImage 0x18 := rfl
  rw [suits, hi]
  refine ⟨by decide, by decide, by decide, rfl, ?_, ?_⟩
  · rcases h with rfl | rfl
    · exact .inl rfl
    · exact .inr (.inl rfl)
  · intro d hd
    have : hdrDim (somePkt 0).hdr = 1 := by decide
    have : d = 0 := by omega
    subst this
    decide

theorem witness_DataPacketsLand :
    (let s := benchMap (someSlotMap .live 0x18) none [.land 0 (somePkt 0)]
     awake s ∧ (somePkt 0).tail < 288 ∧ (s.m.tail 0).landing = none ∧ came s.m { s.m with net := [] } 0 (.land s.m.pkg.chip (somePkt 0)) ∧
       mapsOf s.m 0 = [(2, someSlotMap .live 0x18)] ∧ takenBy (mapsOf s.m 0) (somePkt 0) 2 (someSlotMap .live 0x18) ∧ hdrEnd (somePkt 0).hdr = false ∧
       hdrEnd someEnd.hdr = true) ∧
    takenBy [(2, someSlotMap .retiring 0x18)] (somePkt 0) 2 (someSlotMap .retiring 0x18) ∧
    ((someLanding [0]).left ≠ [] ∧ (someLanding []).left = [] ∧
      kget (someLanding []).slot ((benchMap (someSlotMap .live 0x18) (some (someLanding [])) []).m.tail 0).slots = some (someSlotMap .live 0x18)) ∧
    (¬ suits { someSlotMap .live 0x18 with tenant := 3 } (somePkt 0)) := by
  have hm : mapsOf (benchMap (someSlotMap .live 0x18) none [.land 0 (somePkt 0)]).m 0 = [(2, someSlotMap .live 0x18)] := by unfold mapsOf; decide +kernel
  refine ⟨⟨?_, by decide, by decide +kernel, .inl ⟨[], [], by decide +kernel, by simp, rfl⟩, hm, ?_, by decide, by decide⟩, ?_, by decide +kernel, ?_⟩
  · unfold awake; decide +kernel
  · rw [hm]
    exact ⟨suits_someMap _ (.inl rfl), [], [], rfl, .inl ⟨rfl, by simp⟩⟩
  · exact ⟨suits_someMap _ (.inr rfl), [], [], rfl, .inr ⟨by decide, by simp [someSlotMap], by simp⟩⟩
  · rintro ⟨-, -, -, h, -⟩
    exact absurd h (by decide)

theorem test_packet_begins_to_land : next (.dataPacketArrive (somePkt 0)) (benchMap (someSlotMap .live 0x18) none [.land 0 (somePkt 0)])
    (fun t => (t.m.tail 0).landing == some (someLanding [0]) && readByte t.m.mem (llLoc 0 0) == 0 && t.m.net == []) = true := by decide +kernel
theorem test_element_lands_at_its_place : next (.dataPacketArrive (somePkt 0)) (benchMap (someSlotMap .live 0x18) (some (someLanding [0])) [])
    (fun t => (t.m.tail 0).landing == some (someLanding []) && readBytes t.m.mem (llLoc 0 0) 4 == [1, 2, 3, 4]) = true := by decide +kernel

theorem witness_TransfersClose :
    (let q := (benchEnd true).m.tail 0
     q.landing = none ∧ q.ends = [someEnd] ∧ (recordOf q (landXfer someEnd)).count = endCount someEnd) ∧
    (let f : Xfer := { tid := 9, op := 800, ctx := 0, rid := 0, member := 0, dest := 0, done := false, ok := false }
     let s := benchE (fun m => { m.modCore 0 (fun c => { c with xfers := [f] }) with net := [.ack 0 0 9 0] })
     (s.m.core 0).xfers.find? (fun f => f.tid == 9 && !f.done) = some f ∧ destChip f.dest = s.m.pkg.chip ∧ coreOf f.ctx = 0 ∧
       s.m.net = [] ++ Sent.ack s.m.pkg.chip (BitVec.ofNat 8 0) 9 0 :: []) := by decide +kernel

/-- A map operation at the head of Tailrace 0. -/
def someMapOp (i : Instr) : MapOp := { ins := i, ctx := 0, rid := (bench 0 []).oc.rid, id := 905, loc := 0x5000 }
def benchMapOp (i : Instr) (slots : KMap MapSlot) : State :=
  benchE (fun m => { m.modTail 0 (fun t => { t with ops := [someMapOp i], slots := slots }) with mem := writeBytes m.mem 0x5000 (someImage 0x18) })

theorem witness_MapOperationsAreApplied :
    (let s := benchMapOp (.ldmap 3 0 0) []
     mapOpAt s 0 (someMapOp (.ldmap 3 0 0)) ∧ kget 3 (mapsOf s.m 0) = none ∧ imageOk (readBytes s.m.mem 0x5000 96) (s.m.tailWindow 0 0).2 = true ∧
       imageOk (zeroBytes 2 ++ [1] ++ zeroBytes 93) (s.m.tailWindow 0 0).2 = false) ∧
    (let s := benchMapOp (.swapmap 1 2 0) [(1, someSlotMap .staged 0), (2, someSlotMap .live 0)]
     mapOpAt s 0 (someMapOp (.swapmap 1 2 0)) ∧ kget 1 (mapsOf s.m 0) = some (someSlotMap .staged 0) ∧ kget 2 (mapsOf s.m 0) = some (someSlotMap .live 0)) ∧
    (let s := benchMapOp (.retiremap 2 0) [(2, { someSlotMap .live 0 with open_ := [(0, 0, 0)] })]
     kget 2 (mapsOf s.m 0) = some { someSlotMap .live 0 with open_ := [(0, 0, 0)] } ∧ (∀ y ∈ mapsOf s.m 0, y.2.state ≠ .closing)) := by
  have at_ : ∀ i l, mapOpAt (benchMapOp i l) 0 (someMapOp i) := fun i l => ⟨by decide, rfl, rfl, (by decide : 0 < Config.strayPlaces), [], rfl⟩
  refine ⟨⟨at_ _ _, ?_⟩, ⟨at_ _ _, ?_⟩, ?_⟩ <;> unfold mapsOf <;> decide +kernel

theorem test_map_is_installed : next (.mapInstall 0) (benchMapOp (.ldmap 3 0 0) []) (fun t => (t.m.tail 0).slots.map (fun y => (y.1, y.2.state, y.2.image)) ==
    [(3, .live, someImage 0x18)] && (t.m.tail 0).ops == []) = true := by decide +kernel

/-! ### Links and ports -/

def benchLink (f : Link → Link) : State := benchE (fun m => m.modCore 0 (fun c => c.modLink 0 f))
def pushed (l : List W64) (bind : W64) : List (W64 × Nat × W64) := l.map (fun w => (w, 8, bind))

/-- The operands of a request of OP 1, of OP 9 and of OP 10: one, two and three words after the header. -/
theorem witness_link_requests :
    (1 ≤ (0x1002300000000000 : W64).toNat / 2 ^ 60 ∧ ([] : List W64).length + 1 = wordsAfter 1 ∧ ([7] : List W64).length + 1 = wordsAfter 9 ∧
      ([7, 8] : List W64).length + 1 = wordsAfter 10 ∧ (0xA002300000000000 : W64).toNat / 2 ^ 60 ≤ 10 ∧ ([0x40] : List W64).length < wordsAfter 2) ∧
    ((benchLink (fun l => { l with outb := pushed [0x1002300000000000, 0x40] 0x100 })).m.core 0).link 0 =
      { ((benchE id).m.core 0).link 0 with outb := pushed [0x1002300000000000, 0x40] 0x100 } ∧ linkMode 0x100 ≠ 0 := by decide +kernel

theorem witness_link_waits :
    (¬ pushBlocked (benchE id).m 0 0 8) ∧ pushBlocked (benchE (fun m => { m with gops := [someGOp (.amo .add 1 0 5) true] })).m 0 0 8 := by
  refine ⟨?_, .inl ⟨someGOp (.amo .add 1 0 5) true, by decide +kernel, by decide, .inr ⟨rfl, .inl rfl⟩⟩⟩
  rintro (⟨g, hg, -⟩ | ⟨t, ht, -, asm, tag, hu⟩)
  · have : (benchE id).m.gops = [] := by decide +kernel
    rw [this] at hg
    simp at hg
  · have h : (((benchE id).m.team? ((benchE id).m.ctx (4 * 0 + 8 % 4)).rid (clusterOf (4 * 0 + 8 % 4))).any (fun t => t.undo == [])) = true := by decide +kernel
    rw [ht] at h
    simp only [Option.any_some, beq_iff_eq] at h
    rw [h] at hu
    simp at hu

/-- The receive FIFO one word short of full, and full; two words short for a reply, and one. -/
theorem witness_link_room :
    ((zeroBytes (Config.linkWords - 1)).length + placesKept (benchE id).m 0 0 < Config.linkWords ∧
      Config.linkWords ≤ (zeroBytes Config.linkWords).length + placesKept (benchE id).m 0 0 ∧
      (zeroBytes (Config.linkWords - 2)).length + placesKept (benchE id).m 0 0 + 2 ≤ Config.linkWords ∧
      Config.linkWords < (zeroBytes (Config.linkWords - 1)).length + placesKept (benchE id).m 0 0 + 2) ∧
    (let s := benchE (fun m => { m.modCore 0 (fun c => c.modLink 0 (fun l => { l with holder := some 3, bind := 1 })) with
        net := [.linkWord 0 { src := 0, srcCore := 1, core := 0, link := 0, word := 7 }] })
     let w : LinkWord := { src := 0, srcCore := 1, core := 0, link := 0, word := 7 }
     s.m.net = [] ++ Sent.linkWord s.m.pkg.chip w :: [] ∧ ((s.m.core 0).link 0).holder = some 3 ∧ linkMode ((s.m.core 0).link 0).bind = 0 ∧
       linkChip ((s.m.core 0).link 0).bind = w.src ∧ ((s.m.core 0).link 0).bind.extractLsb' 0 8 = w.srcCore) := by decide +kernel

/-- A request under way, behind another of its pair, and a reply. -/
def someLinkReq (op : BitVec 4) : LinkReq := { src := 0, core := 2, link := 0, op := op, tag := 5, gen := 1, pa := 0x40, opnd := 7, cmp := 0 }
theorem witness_link_serves :
    (let s := benchE (fun m => { m with net := [.linkReq 0 (someLinkReq 1), .linkReq 0 (someLinkReq 10)] })
     let same := fun (y : Sent) => match y with
       | .linkReq _ v => v.core == (someLinkReq 1).core && v.link == (someLinkReq 1).link
       | _ => false
     s.m.net = [] ++ Sent.linkReq s.m.pkg.chip (someLinkReq 1) :: [.linkReq 0 (someLinkReq 10)] ∧ s.m.net.find? same = some (.linkReq s.m.pkg.chip (someLinkReq 1)) ∧
       Sent.linkReq 0 (someLinkReq 1) ≠ .linkReq s.m.pkg.chip (someLinkReq 10)) ∧ (someLinkReq 1).op = 1 ∧
    (let l : Link := { ((benchE id).m.core 0).link 0 with out_ := [(5, 10), (6, 0)], gen := [(5, 1)] }
     kget 5 l.out_ = some 10 ∧ kget 6 l.out_ = some 0 ∧ (rget 5 l.gen).toNat = 1 ∧ (rget 5 l.gen).toNat ≠ 2 ∧ (benchRemote remoteRead 10).m.pkg.ftime = 10 ∧
       (benchRemote remoteRead 9).m.pkg.ftime < 10) ∧ (255 < 256 ∧ 15 < 16 ∧ 4095 < 4096) := by decide +kernel

theorem test_swap_request_leaves : next (.linkPushDepart 0 0) (benchLink (fun l => { l with outb := pushed [0x9005100000000000, 0x40, 7] 0x100 }))
    (fun t => t.m.net == [.linkReq 0 { src := 0, core := 0, link := 0, op := 9, tag := 5, gen := 1, pa := 0x40, opnd := 7, cmp := 0 }] &&
      ((t.m.core 0).link 0).outb == []) = true := by decide +kernel

/-- A flit of one packet: class, destination. -/
def someFlit (cls dest : Nat) (sop eop : Bool) : Flit :=
  { hdr := BitVec.ofNat 64 (cls * 2 ^ 61 + (if sop then 2 ^ 60 else 0) + (if eop then 2 ^ 59 else 0) + dest * 2 ^ 47), payload := 0, tag := 0 }
def openPort : Port := { Port.zero with attested := true }
/-- The flit with the tag that it should have, and with another. -/
noncomputable def goodFlit : Flit :=
  { someFlit 1 0 true true with tag := tagFor openPort.keyRx (nonceFor openPort openPort.rx) (someFlit 1 0 true true) }
noncomputable def badFlit : Flit := { goodFlit with tag := goodFlit.tag + 1 }

theorem tagFor_congr (k : BitVec 256) (n : List Byte) (f g : Flit) (h : f.hdr = g.hdr) (p : f.payload = g.payload) : tagFor k n f = tagFor k n g := by
  unfold tagFor
  rw [h, p]

theorem witness_PortsReceiveAndReplay_tags : tagGood openPort goodFlit ∧ ¬ tagGood openPort badFlit ∧ tagGood Port.zero (someFlit 5 0 true true) ∧
    inClear Port.zero (someFlit 5 0 true true) = someFlit 5 0 true true ∧ (Port.zero.retry = none ∧ { openPort with retry := some 0 }.retry.isSome = true) := by
  have hg : tagFor openPort.keyRx (nonceFor openPort openPort.rx) badFlit = goodFlit.tag := tagFor_congr _ _ _ _ (by simp only [badFlit, goodFlit]) (by simp only [badFlit, goodFlit])
  refine ⟨.inr (tagFor_congr _ _ _ _ (by simp only [goodFlit]) (by simp only [goodFlit])), ?_, .inl rfl, rfl, rfl, rfl⟩
  rintro (h | h)
  · exact absurd h (by decide)
  · have e : goodFlit.tag + 1 = goodFlit.tag := h.trans hg
    have : goodFlit.tag + 1 ≠ goodFlit.tag := by
      generalize goodFlit.tag = t
      intro h2
      have := congrArg (fun v => v - t) h2
      simp at this
    exact this e

/-- Two packages in a row: flits of class 5 and 6, for this package, for the other one by port 0, for none; the port that is not there. -/
def benchPorts : State := benchE (fun m => m.modPkg (fun p => { p with nx := 2, ports := [(0, openPort), (1, openPort)] }))
theorem witness_PortsReceiveAndReplay_routes :
    classIn (someFlit 5 0 true true) < 6 ∧ 6 ≤ classIn (someFlit 6 0 true true) ∧ benchPorts.m.pkg.names (destIn (someFlit 5 0x100 true true)) = true ∧
    benchPorts.m.pkg.names (destIn (someFlit 5 0x200 true true)) = false ∧ benchPorts.m.pkg.route (destIn (someFlit 5 0x100 true true)) = some 0 ∧
    benchPorts.m.pkg.route (destIn (someFlit 5 0 true true)) = none ∧ (0 : Nat) ≠ 1 ∧ benchPorts.m.pkg.reaches 5 0x100 = true ∧
    (benchE (fun m => m.modPkg (fun p => { p with nx := 2 }))).m.pkg.reaches 1 0x100 = false ∧ (someFlit 5 0x100 false true).hdr.getLsbD 60 = false ∧
    (5 < 6 ∧ 6 ≤ (6 : BitVec 3).toNat) ∧ (¬ (Port.zero.attested = true ∨ classIn (someFlit 4 0 true true) = 5)) := by decide +kernel

theorem test_misrouted_flit_is_counted : next (.flitReceive 0 (someFlit 5 0x100 true true)) (benchE (fun m => m.modPkg (fun p => { p with nx := 2 })))
    (fun t => rget 289 t.m.pkg.cnts == 1 && (t.m.pkg.port 0).rx == 1) = true := by decide +kernel

theorem witness_PortsSendAndAttest :
    nextToLeave openPort 1 (someFlit 3 0x100 true false) ∧ nextToLeave { openPort with sending := [(3, 1, someFlit 3 0x100 true false)] } 1 (someFlit 3 0x100 false true) ∧
    ¬ nextToLeave { openPort with sending := [(3, 1, someFlit 3 0x100 true false)] } 2 (someFlit 3 0x100 false true) ∧
    (benchPorts.m.pkg.portOf (.query 0x100 5) = some 0 ∧ mayLeave openPort (classOf (.query 0x100 5)) ∧ kget (classOf (.query 0x100 5)) openPort.sending = none) ∧
    ((flitsFor 1 0x100 0 (zeroBytes 256)).length = 1 ∧ (flitsFor 1 0x100 0 (zeroBytes 257)).length = 2 ∧ (flitsFor 1 0x100 0 []).length = 1) := by
  have sop : (someFlit 3 0x100 true false).hdr.getLsbD 60 = true ∧ (someFlit 3 0x100 false true).hdr.getLsbD 60 = false := by decide +kernel
  refine ⟨⟨⟨rfl, rfl, rfl, .inl rfl⟩, sop.1⟩, ⟨⟨rfl, rfl, rfl, .inl rfl⟩, rfl, sop.2⟩, ?_, ⟨by decide +kernel, ⟨rfl, rfl, rfl, .inl rfl⟩, rfl⟩, by decide +kernel⟩
  rintro ⟨-, h⟩
  exact absurd h.1 (by decide)
/-- One of the two cases of an attestation holds: the keys that its signatures verify under are free values (log 8). -/
theorem witness_PortsSendAndAttest_report (r : AttReport) : reportGood r ∨ ¬ reportGood r := Classical.em _

theorem witness_UndeliverableNotices :
    outstanding (benchRemote remoteRead 5).m 0 7 1 remoteRead (someReq 7 5) ∧ unmatched (benchRemote remoteRead 5).m 0 8 1 ∧
    ((benchE id).m.core 0).xfers = [] := by
  have hg : (benchRemote remoteRead 5).m.gops = [remoteRead] := by decide +kernel
  refine ⟨⟨[], [], [], [], hg, rfl, by decide +kernel, rfl, rfl, by simp, by simp, by simp, by simp⟩, ?_, by decide +kernel⟩
  unfold unmatched
  rw [hg]
  simp [remoteRead, someReq]

/-! ### Tokens, reductions and collectives -/

/-- A carrier of tokens that waits in the Sluice. -/
def someHeld (tokens : List (BitVec 16)) (deadline : Nat) : Held := { pkt := someCausal none tokens deadline, unsat := tokens }
def benchSluice (l : List Held) (net : List Sent) : State := benchE (fun m => { m with net := net, pkg := { m.pkg with sluice := l, ftime := 10 } })

theorem witness_CausalStoresPerformOrAreHeld :
    ((someCausal none [] 10).deadline = (benchCausal (someCausal none [] 10)).m.pkg.ftime ∧ (someCausal none [] 9).deadline < (benchCausal (someCausal none [] 9)).m.pkg.ftime ∧
      (someCausal none [] 10).src = (benchE id).m.pkg.chip ∧ populated (someCausal none [] 10).pa = true) ∧
    (4095 < Config.sluicePlaces ∧ Config.sluicePlaces ≤ 4096) ∧
    (let s := benchSluice [someHeld [3] 20, someHeld [4] 20] [.answer 0 3 true]
     s.m.pkg.sluice = [] ++ someHeld [3] 20 :: [someHeld [4] 20] ∧ (someHeld [3] 20).unsat = [3] ∧ (someHeld [3] 20).pkt.src = 0 ∧
       s.m.net = [] ++ Sent.answer s.m.pkg.chip 3 true :: [] ∧ (∀ g ∈ [someHeld [4] 20], g.unsat ≠ [] ∧ (g.pkt.src ≠ 0 ∨ 3 ∉ g.unsat))) ∧
    ((someHeld [3] 10).pkt.deadline ≤ (benchSluice [someHeld [3] 10] []).m.pkg.ftime ∧ (benchSluice [someHeld [3] 10] []).m.pkg.ftime < (someHeld [3] 11).pkt.deadline) ∧
    (let s := benchE (fun m => m.modPkg (fun p => { p with jam := [someCausal none [3] 20] }))
     s.m.pkg.jam = [someCausal none [3] 20] ∧ unsettled s.m (someCausal none [3] 20) = [3] ∧ s.m.pkg.sluice = []) := by decide +kernel

def someTok (st : TokState) (waiting : List (BitVec 12)) : OwnTok := { state := st, deadline := 10, ctx := 0, va := 0x5000, waiting := waiting }
def benchTok (st : TokState) (waiting : List (BitVec 12)) : State :=
  benchE (fun m => { m with net := [.query 0 3, .expiry 0 0 0x5000 906 0], pkg := { m.pkg with own := [(3, someTok st waiting)], ftime := 10, landed := [{ chip := 0, seq := 3, deadline := 10 }] } })

theorem witness_TokensLandExpireAndAreAnswered :
    (let s := benchTok .pending [0]
     kget 3 s.m.pkg.own = some (someTok .pending [0]) ∧ (someTok .pending [0]).deadline ≤ s.m.pkg.ftime ∧ (someTok .pending [0]).waiting = [0] ∧
       Sent.notice s.m.pkg.chip 3 ∉ s.m.net ∧ Sent.expiry s.m.pkg.chip 0 0x5000 906 0 ∈ s.m.net ∧
       (∃ l ∈ s.m.pkg.landed, l.chip = 0 ∧ l.seq = 3 ∧ l.deadline ≤ s.m.pkg.ftime)) ∧
    (kget 3 (benchTok .landed []).m.pkg.own = some (someTok .landed []) ∧ kget 3 (benchTok .lost []).m.pkg.own = some (someTok .lost []) ∧
      (benchTok .pending []).m.net = [] ++ Sent.query (benchTok .pending []).m.pkg.chip 3 :: [.expiry 0 0 0x5000 906 0]) ∧
    (let g := { someGOp (.causal (some 3) [] 20 [5]) true with reqs := [someReq 7 5] }
     outstanding (benchRemote g 5).m 0 7 1 g (someReq 7 5) ∧ g.isCausal = true) ∧ ((benchTok .pending []).m.ctx 0).status ≠ .absent := by
  refine ⟨by decide +kernel, by decide +kernel, ⟨⟨[], [], [], [], rfl, rfl, by decide +kernel, rfl, rfl, by simp, by simp, by simp, by simp⟩, rfl⟩, by decide +kernel⟩

theorem test_deadline_of_a_token : next (.ownEntryDeadline 3) (benchTok .pending [0])
    (fun t => (kget 3 t.m.pkg.own).map (fun e => e.state) == some .lost && (t.m.ctx 0).pend.pex && (t.m.ctx 0).pend.lost == [3]) = true := by decide +kernel

/-- A slot for another line, and 512 of them. -/
def otherSlot : RedSlot := { someSlot with line := 7 }
theorem slots_of (l : List RedSlot) : slotsInUse (benchE (fun m => m.modPkg (fun p => { p with redSlots := l }))).m = l.length := rfl

theorem witness_ReductionsMergeAndApply :
    (serves someSlot (someRed 5) ∧ ¬ serves otherSlot (someRed 5)) ∧ slotsInUse (benchE (fun m => m.modPkg (fun p => { p with redSlots := List.replicate 511 otherSlot }))).m < Config.reductionSlots ∧
    Config.reductionSlots ≤ slotsInUse (benchE (fun m => m.modPkg (fun p => { p with redSlots := List.replicate 512 otherSlot }))).m ∧
    (let s := benchE (fun m => { m with net := [.red 0 (someRed 5)] })
     came s.m { s.m with net := [] } 0 (.red s.m.pkg.chip (someRed 5))) ∧ populated (64 * { someRed 5 with line := 2 ^ 60 }.line) = false ∧
    (let s := benchE (fun m => m.modPkg (fun p => { p with redJam := [someRed 5] }))
     s.m.pkg.redJam = [someRed 5]) := by
  refine ⟨?_, by rw [slots_of, List.length_replicate]; decide, by rw [slots_of, List.length_replicate], .inl ⟨[], [], by decide +kernel, by simp, rfl⟩, by decide +kernel, rfl⟩
  unfold serves; decide

/-- A contribution of rank `r` to a collective of `nc` + 1 ranks: one element, 1.0 in format f32, GEN `gen`. -/
def someXred (r nc : BitVec 6) (gen : BitVec 4) : XredPkt :=
  { pkt := { somePkt 0 with payload := [0, 0, 128, 63] }, op := .addF32, nc := nc, rank := r, gen := gen }
def benchXred (slots : List XredSlot) (kept : List XredKey) (net : List Sent) : State :=
  benchE (fun m => { m with net := net, pkg := { m.pkg with xredSlots := slots, kept := kept, ftime := 10 } })
def xredSlot : XredSlot := { key := keyOf (someXred 0 1 3), got := [(0, someXred 0 1 3)], deadline := 10 }

theorem witness_CollectivesMergeAndClose :
    (let s := benchXred [xredSlot] [] [.xred 0 (someXred 1 1 3)]
     came s.m { s.m with net := [] } 0 (.xred s.m.pkg.chip (someXred 1 1 3)) ∧ hdrEnd (someXred 1 1 3).pkt.hdr = false ∧ mayCome s 0 ∧
       slotOf s.m (keyOf (someXred 1 1 3)) xredSlot ∧ hasRank xredSlot 0 ∧ ¬ hasRank xredSlot 1 ∧ (∀ r ≤ (1 : BitVec 6).toNat, r = 1 ∨ hasRank xredSlot r) ∧
       (∀ q ∈ xredSlot.got, keyOf q.2 = xredSlot.key ∧ q.1 < 64) ∧ s.m.pkg.xredSlots[0]? = some xredSlot ∧ xredSlot.deadline ≤ s.m.pkg.ftime) ∧
    (isLate (benchXred [] [keyOf (someXred 0 0 7)] []).m (keyOf (someXred 0 0 0)) ∧ isLate (benchXred [] [keyOf (someXred 0 0 7)] []).m (keyOf (someXred 0 0 7)) ∧
      ¬ isLate (benchXred [] [keyOf (someXred 0 0 7)] []).m (keyOf (someXred 0 0 15)) ∧ ¬ isLate (benchXred [] [keyOf (someXred 0 0 7)] []).m (keyOf (someXred 0 0 8))) ∧
    ((62 : Nat) + 2 ≤ Config.strayPlaces ∧ ¬ (63 : Nat) + 2 ≤ Config.strayPlaces) ∧ (0 : Nat) < 64 := by
  refine ⟨⟨.inl ⟨[], [], by decide +kernel, by simp, rfl⟩, by decide, ?_, ⟨by decide +kernel, by decide, by simp [benchXred, benchE, benchM]⟩, ⟨_, rfl⟩, ?_, ?_, by decide, by decide +kernel,
    by decide +kernel⟩, ?_, by decide, by decide⟩
  · unfold mayCome; decide +kernel
  · rintro ⟨p, hp⟩
    have h1 : kget 1 xredSlot.got = none := by decide
    rw [h1] at hp
    cases hp
  · intro r hr
    have : r = 0 ∨ r = 1 := by
      have : (1 : BitVec 6).toNat = 1 := rfl
      omega
    rcases this with rfl | rfl
    · exact .inr ⟨_, rfl⟩
    · exact .inl rfl
  · unfold isLate sameButGen; decide +kernel

/-- A collective of one rank closes as it comes, and is a stray where no map takes it: 1.0 is its merged element. -/
theorem test_collective_of_one_rank_closes : next (.xredContributionArrive (someXred 0 0 3)) (benchXred [] [] [.xred 0 (someXred 0 0 3)])
    (fun t => t.m.pkg.xredSlots == [] && t.m.pkg.kept == [keyOf (someXred 0 0 3)] && (t.m.tail 0).strays.map (fun e => (e.bytes.drop 32).take 4) == [[0, 0, 128, 63]]) = true := by
  decide +kernel
theorem test_incomplete_collective_leaves_a_record : next (.xredSlotDeadline 0) (benchXred [xredSlot] [] [])
    (fun t => (t.m.tail 0).strays.map (fun e => e.bytes.headD 0) == [1, 4] && t.m.pkg.xredSlots == []) = true := by decide +kernel

/-! ### Time, power, errors and repair -/

def benchPkg (f : Pkg → Pkg) : State := benchE (fun m => m.modPkg f)

theorem witness_TimeClocksAndGrants :
    (let p := (benchPkg (fun p => { p with chip := 1, counting := true, ftime := 10 })).m.pkg
     p.counting = true ∧ p.chip ≠ 0 ∧ p.ftime < (11 : W64).toNat ∧ (10 : W64).toNat ≤ p.ftime) ∧ ((benchE id).m.pkg.counting = false ∧ (benchE id).m.pkg.chip = 0) ∧
    (inGroup (benchPkg (fun p => p.modGov 3 (fun g => { g with group := some 5 }))).m 5 ∧ ¬ inGroup (benchE id).m 5) ∧
    (let s := benchPkg (fun p => { p.modGov 3 (fun g => { g with group := some 5, changes := [(10, 9)], told := some (0, 76) }) with ftime := 10 })
     (s.m.pkg.gov 3).group = some 5 ∧ (s.m.pkg.gov 3).changes = [(10, 9)] ∧ (10 : Nat) ≤ s.m.pkg.ftime ∧ s.m.pkg.ftime < 11 ∧ (9 : Nat) < s.m.pkg.ftime ∧
       Sent.groupClock s.m.pkg.chip 5 3 9 10 ∉ s.m.net) ∧
    (let s := benchE (fun m => { m with net := [.give 0 5], pkg := { m.pkg with p := 4795 } })
     s.m.net = [] ++ Sent.give s.m.pkg.chip 5 :: [] ∧ s.m.pkg.p + 5 ≤ 4800 ∧ 4800 < s.m.pkg.p + 6 ∧ s.m.pkg.p ≤ 4800) ∧ (3 < 4 ∧ 4 ≤ 4) := by
  unfold inGroup; decide +kernel

theorem test_switch_makes_the_group_clock : next (.groupClockSwitch 3)
    (benchPkg (fun p => { p.modGov 3 (fun g => { g with group := some 5, changes := [(10, 9)] }) with ftime := 10 }))
    (fun t => (t.m.pkg.gov 3).clock == 9 && (t.m.pkg.gov 3).changes == []) = true := by decide +kernel

/-- Either of the two cases of a boot image holds, for the keys that its signatures verify under are free values (log 8). -/
theorem witness_ResetAndLifeCycle : ((benchE id).m.cores.map (fun p => p.1)).Nodup ∧ (fusedGood someFirmware.image someFirmware.sigs ∨ ¬ fusedGood someFirmware.image someFirmware.sigs) ∧
    ((benchE id).m.pkg.life, LifeCycle.deployed) ∉ [(LifeCycle.blank, LifeCycle.provisioned), (.provisioned, .deployed), (.deployed, .returned)] :=
  ⟨by decide +kernel, Classical.em _, by decide +kernel⟩

theorem witness_ErrorsStrikeTheirReaders :
    ((benchE id).m.mayIssue 0 = true ∧ subOf .registers ∈ [1, 2, 3, 5, 9] ∧ subOf .tile ∉ [1, 2, 3, 5, 9] ∧ (15 < 16 ∧ 16 ≤ 16) ∧ (benchE id).m.mayIssue 4 = false) ∧
    (let o := someLocal (.load [(llLoc 0 0, 8)]) (.scal 4 false)
     (benchLocal (.load [(llLoc 0 0, 8)]) (.scal 4 false)).m.locq.find? (fun q => q.id == o.id) = some o) ∧
    (benchGops [theRead]).m.gops.find? (fun q => q.id == theRead.id) = some theRead ∧ (benchGops [theRead]).m.locq = [] ∧
    (let s := benchE (fun m => m.modCore 0 (fun c => { c with mq := [someMOp true] }))
     (0, s.m.core 0) ∈ s.m.cores ∧ someMOp true ∈ (s.m.core 0).mq ∧ (∀ p ∈ s.m.cores, ∀ q ∈ p.2.mq, q.id = 901 → q = someMOp true)) ∧
    (let o := { someVOp true with tile := some 0 }
     let s := benchC 0 [] (fun c => { c with vq := [o] })
     (0, s.m.ctx 0) ∈ s.m.ctxs ∧ o ∈ (s.m.ctx 0).vq ∧ (∀ p ∈ s.m.ctxs, ∀ q ∈ p.2.vq, q.id = 900 → p = (0, s.m.ctx 0) ∧ q = o)) ∧
    ((0, (benchXq someSend).m.ctx 0) ∈ (benchXq someSend).m.ctxs ∧ someSend ∈ ((benchXq someSend).m.ctx 0).xq) ∧
    (let r : RemReq := { src := 0, core := 0, tag := 7, gen := 1, pa := 0x5000, kind := .load 8 }
     let s := benchE (fun m => { m with net := [.remote 0 r, .linkReq 0 (someLinkReq 1)] })
     s.m.net = [] ++ Sent.remote s.m.pkg.chip r :: [.linkReq 0 (someLinkReq 1)] ∧ populated r.pa = true ∧ populated (r.pa + 8 - 1) = true ∧
       s.m.net = [.remote 0 r] ++ Sent.linkReq s.m.pkg.chip (someLinkReq 1) :: [] ∧ populated ((someLinkReq 1).pa + 7) = true ∧ (3 ≤ (3 : BitVec 4).toNat ∧ (10 : BitVec 4).toNat ≤ 10)) := by
  refine ⟨by decide +kernel, by decide +kernel, by decide +kernel, by decide +kernel, by decide +kernel, by decide +kernel, by decide +kernel, by decide +kernel⟩

theorem test_error_of_a_served_load : next (.memoryError .hbmRow 0 false (some (.remote { src := 0, core := 0, tag := 7, gen := 1, pa := 0x5000, kind := .load 8 })) 0x5000)
    (benchE (fun m => { m with net := [.remote 0 { src := 0, core := 0, tag := 7, gen := 1, pa := 0x5000, kind := .load 8 }] }))
    (fun t => t.m.net == [.reply 0 0 7 1 4 []] && t.m.pkg.tests == [(.hbmRow, 0)]) = true := by decide +kernel

theorem witness_TestsRepairOrRetire :
    (partOfCore .stone 3 0 ∧ partOfCore .tile 2047 255 ∧ partOfCore .fetch 255 255 ∧ coreFree (benchE id).m 255 ∧ ¬ coreFree (benchE id).m 0) ∧
    (let s := benchPkg (fun p => { p with tests := [(.stone, 1023), (.lane, 11), (.hbmRow, 0), (.cxl, 0), (.scratchCluster, 31)], spareCores := [(3, 3)], spareRows := [(1023, 7)] })
     (Resource.stone, 1023) ∈ s.m.pkg.tests ∧ kgetD 0 3 s.m.pkg.spareCores < 4 ∧ 4 ≤ kgetD 0 3 [(3, 4)] ∧ kgetD 0 1023 s.m.pkg.spareRows < 8 ∧
       8 ≤ kgetD 0 1023 [(1023, 8)] ∧ (s.m.core 255).dead = false ∧ (s.m.pkg.port (11 / 2)).spareRx < 2 ∧ { Port.zero with spareRx := 2 }.spareRx ≥ 2 ∧
       (Resource.lane, 10) ∉ s.m.pkg.tests ∧ (∀ q ∈ s.m.runs, q.placed = true → ∀ e ∈ q.recs, e.cluster ≠ 31) ∧
       (∀ q ∈ s.m.runs, q.placed = true → kget 1 s.m.pkg.part ≠ some q.part)) := by
  unfold partOfCore coreFree; decide +kernel

/-! ### Further forms of the statements about words -/

/-- The bench with a second page of 1 GiB, which begins where the first one ends. -/
def benchTwo : State := benchM 10 [] (fun m => { m with mem := writeBytes m.mem 0x40020008 (natLE 8 0xC00000004000E000) })
def firstPiece : Seg := pieceAt benchTwo.old 0 0x3FFFFFF0 32 0xC00000000000E000 (2 ^ 30)
def secondPiece : Seg := pieceAt benchTwo.old 16 0x40000000 16 0xC00000004000E000 (2 ^ 30)

theorem witness_access_of_two_pages : canonical 0x3FFFFFF0 32 ∧ (0x3FFFFFF0 : W64).toNat % 16 = 0 ∧
    Cut benchTwo.old 0 0x40010000 0 (0x3FFFFFF0 : W64).toNat 32 [firstPiece, secondPiece] 32 0x40000010 0 ∧ ([firstPiece, secondPiece] : List Seg).length ≤ 5 ∧
    Cut benchTwo.old 0 0x40010000 0 (0x7FFFFFF0 : W64).toNat 32 [pieceAt benchTwo.old 0 0x7FFFFFF0 32 0xC00000004000E000 (2 ^ 30)] 16 0x80000000 16 ∧
    benchTwo.old.translate 0 0x40010000 0x80000000 = .error 2 ∧ canonical 0x01FFFFFFFFFFFFFF 1 ∧ ¬ canonical 0x01FFFFFFFFFFFFFF 2 := by
  have h1 : benchTwo.old.translate 0 0x40010000 0x3FFFFFF0 = .ok (0xC00000000000E000, 2 ^ 30) := by decide +kernel
  have h2 : benchTwo.old.translate 0 0x40010000 0x40000000 = .ok (0xC00000004000E000, 2 ^ 30) := by decide +kernel
  have h3 : benchTwo.old.translate 0 0x40010000 0x7FFFFFF0 = .ok (0xC00000004000E000, 2 ^ 30) := by decide +kernel
  refine ⟨by unfold canonical; decide, by decide, ?_, by decide, ?_, by decide +kernel, by unfold canonical; decide, by unfold canonical; decide⟩
  · exact Cut.cons 0 0x3FFFFFF0 32 0xC00000000000E000 (2 ^ 30) _ 32 0x40000010 0 (by decide) h1
      (Cut.cons 16 0x40000000 16 0xC00000004000E000 (2 ^ 30) _ 32 0x40000010 0 (by decide) h2 (Cut.nil ..))
  · exact Cut.cons 0 0x7FFFFFF0 32 0xC00000004000E000 (2 ^ 30) _ 16 0x80000000 16 (by decide) h3 (Cut.nil ..)

theorem test_store_is_cut_at_the_page : looks benchTwo .store 0x3FFFFFF0 32 16 = [0x3FFFFFF0, 16, 0x40000000, 16] := by decide +kernel

theorem witness_other_forms : ((benchG 0 [] [(62, 0x20002)]).rg 62).toNat % 4 ≠ 0 ∧
    ¬ ((0x0000010000000000 : W64).toNat / 2 ^ 40 % 2 ^ 8 = 0) ∧
    ((bench 7 []).old.window 0 .ll).2 = 131072 ∧ (131072 - 128 + 64 : Nat) % 64 = 0 ∧ (32 : Nat) % 64 ≠ 0 ∧
    (benchC 10 [] (fun c => { c with xq := [someSend] })).nc.xq = [someSend] ∧
    (benchC 0 [] (fun c => { c with status := .ended })).nc.status = .ended := by decide +kernel
theorem test_ret_to_no_bundle : next .ret (benchG 0 [] [(62, 0x20002)]) (fun t => t.nc.trp.tcause.toNat % 256 == 3) = true := by decide +kernel
theorem test_reserved_bit_of_tcause_is_refused : next (.mts 1 0x040) (benchH 1 [(1, 0x0000010000000000)]) (fun t => t.iss.trapped) = true := by decide +kernel
theorem test_misaligned_stsc : next (.stsc 2 3 0) (benchG 7 [] [(3, 32)]) (fun t => t.nc.trp.tcause.toNat % 256 == 3) = true := by decide +kernel
/-! ### Loop bodies, tokens and waits -/

/-- The bench with `n` loop levels active. -/
def benchLoops (n : Nat) (body : RMap 64) (blen : RMap 9) : State := benchC 0 [] (fun c => { c with ctl := { c.ctl with nlev := n, body := body, blen := blen } })
def isOk {ε α : Type} (x : Except ε α) (p : α → Bool) : Bool :=
  match x with
  | .ok a => p a
  | .error _ => false

/-- A body of one bundle after the outermost one, one within it, one that reaches past 256 bundles, one at a second level. -/
theorem witness_LoopsOpenTheirLevels :
    (let s := benchLoops 1 [(0, 0x10000)] [(0, 1)]
     s.oc.ctl.nlev = 1 ∧ isOk (s.walkBody 100 s.iss.next) (fun p => decide (0x10084 < p.2.toNat)) = true ∧
       isOk (s.bodyEnd s.oc.ctl) (fun p => p.2 == 0x10084) = true ∧ isOk (s.openLoop 1 100) (fun _ => true) = false) ∧
    (let s := benchLoops 1 [(0, 0x10000)] [(0, 4)]
     isOk (s.openLoop 1 0) (fun _ => true) = true ∧ isOk (s.bodyEnd s.oc.ctl) (fun _ => true) = true) ∧
    (let s := benchLoops 1 [(0, 0x10000)] [(0, 300)]
     256 < (rget 0 s.oc.ctl.blen).toNat ∧ isOk (s.openLoop 1 0) (fun _ => true) = false) ∧
    (let s := benchLoops 2 [(0, 0x10000), (1, 0x10020)] [(0, 256), (1, 2)]
     1 < s.oc.ctl.nlev ∧ isOk (s.bodyList 255 0x10000) (fun l => l.length == 256) = true ∧ isOk (s.bodyList 0 s.iss.next) (fun l => l == [0x10020]) = true ∧
       isOk (s.bodyEnd s.oc.ctl) (fun _ => true) = true) ∧
    (let s := benchLoops 1 [(0, 0x10040)] [(0, 4)]
     s.iss.next.toNat < (rget (s.oc.ctl.nlev - 1) s.oc.ctl.body).toNat) := by decide +kernel

theorem test_body_past_the_outer_one_is_refused : next (.loopi 1 3 100) (benchLoops 1 [(0, 0x10000)] [(0, 1)]) (fun t => t.iss.trapped) = true := by decide +kernel

theorem witness_TrapReturnRestoresTheContext_tokens :
    (let s := benchM 0 [] (fun m => (m.modCtx 0 (fun c => { c with regs := { c.regs with ot := [(3, 77)] } })) |> fun m => { m with ops := m.ops ++ [77] })
     s.m.tokenDone (s.m.ctx 0).regs 3 = false ∧ s.m.tokenDone (s.m.ctx 0).regs 4 = true) ∧
    barrierHeld (.parked .tbar) = some .tbar ∧ barrierHeld .run = none := by decide +kernel

/-- A `waita` of another package's line whose read is under way, one whose read has performed, and its bundle issued again. -/
theorem witness_ContextsResume_reads :
    (let s := benchM 0 [] (fun m => (m.modCtx 0 (fun c => { c with status := .parked (.read 901) })) |> fun m => { m with ops := m.ops ++ [901] })
     (s.m.ctx 0).status = .parked (.read 901) ∧ 901 ∈ s.m.ops ∧ 902 ∉ s.m.ops) ∧
    ((benchC 10 [] (fun c => { c with readAt := some 0x10000 })).oc.readAt = some (bench 10 []).iss.addr ∧ (bench 10 []).oc.readAt ≠ some (bench 10 []).iss.addr) := by
  decide +kernel

theorem test_waita_goes_on_once_its_read_has_performed : next (.waita .lg 1 2 0) (benchC 10 [] (fun c => { c with readAt := some 0x10000 }))
    (fun t => t.nc.readAt == none && !t.iss.trapped) = true := by decide +kernel

/-! ### The order of the accesses of an issue -/

theorem witness_LocalAccessesPerformAndReturn_order :
    (let s := benchM 0 [] (fun m => { m with gops := [{ someGOp (.read (.scal 4 false)) true with ctx := 0, no := 0 }], locq := [someLocal (.store [(llLoc 0 0, [5])]) .none] })
     firstLocal s.m (someLocal (.store [(llLoc 0 0, [5])]) .none) ∧ lgReadDue s.m 0 0) ∧
    ¬ lgReadDue (benchLocal (.store [(llLoc 0 0, [5])]) .none).m 0 0 := by
  have hg : (benchLocal (.store [(llLoc 0 0, [5])]) .none).m.gops = [] := by decide +kernel
  refine ⟨⟨⟨[], [], rfl, by simp⟩, ?_⟩, ?_⟩
  · exact ⟨_, List.mem_singleton.mpr rfl, rfl, rfl, .inl ⟨_, rfl, by simp, by simp⟩⟩
  · rintro ⟨g, h, -⟩
    rw [hg] at h
    simp at h

/-- A `drain` whose token's prefetch is in flight, one whose token is complete, and one that waits for a read that has not begun. -/
theorem witness_GlobalOperationsPerform_waits :
    (let s := benchM 0 [] (fun m => { m.modCtx 0 (fun c => { c with drains := [(904, true), (903, true)] }) with gops := [someGOp (.read .none) true], ops := [903] })
     (s.m.ctx 0).drains = (904, true) :: [(903, true)] ∧ 903 ∈ s.m.ops) ∧
    (let g := { someGOp (.read .none) true with needs := [77] }
     g.id = 903 ∧ g.needs ≠ [] ∧ ((903, false) ∈ [(903, false)])) ∧
    ((someGOp (.store [5]) false).id = 903 ∧ ∀ d, (someGOp (.store [5]) false).act ≠ .read d) := by
  refine ⟨⟨by decide +kernel, by decide +kernel⟩, by decide +kernel, rfl, by simp [someGOp]⟩

/-! ### Messages of other packages -/

theorem witness_heard :
    (let n := Sent.undeliverable (benchE id).m.pkg.chip (.units 7)
     (let s := benchE (fun m => { m with net := [n] })
      heard s.m { s.m with net := [] } n) ∧
     heard benchPorts.m benchPorts.m n ∧ (n ∉ (benchE id).m.net ∧ (benchE id).m.pkg.attested = false)) ∧
    (let n := Sent.groupClock (benchE id).m.pkg.chip 5 0 0x20 100
     let s := benchE (fun m => { m with net := [n] })
     heard s.m { s.m with net := [] } n) := by
  refine ⟨⟨.inl ⟨[], [], rfl, by simp, rfl⟩, .inr ⟨?_, by decide +kernel, rfl⟩, by decide +kernel, by decide +kernel⟩, .inl ⟨[], [], rfl, by simp, rfl⟩⟩
  have h : benchPorts.m.net = [] := by decide +kernel
  rw [h]
  simp

/-- Two reads of one byte of another package, of which the first has its data or not. -/
def awayPiece : Seg := { somePiece with chip := some 0x100 }
def awayRead (id : Nat) (got : Option Byte) : GOp :=
  { someGOp (.read (.scal 4 false)) true with id := id, sent := true, segs := [awayPiece], got := (got.map (fun b => (0, [b]))).toList }

theorem witness_RemoteAccessesAreServedAndAnswered_overlaps :
    behindRead (benchGops [awayRead 902 none, awayRead 903 none]).m (awayRead 903 none) ∧ ¬ behindRead (benchGops [awayRead 902 none]).m (awayRead 902 none) ∧
    differs { awayRead 903 (some 5) with prior := [(0, 6)] } ∧ ¬ differs { awayRead 903 (some 5) with prior := [(0, 5)] } ∧
    ((awayRead 903 (some 5)).reqs = [] ∧ ∀ o ∈ (awayRead 903 (some 5)).segs, (kget o.off (awayRead 903 (some 5)).got).isSome = true) := by
  refine ⟨⟨awayRead 902 none, by decide +kernel, rfl, rfl, by decide +kernel⟩, ?_, ⟨(0, 6), by decide, 5, by decide +kernel, by decide⟩, ?_, by decide +kernel⟩
  · rintro ⟨h, hm, -⟩
    have e : (benchGops [awayRead 902 none]).m.beforeGop (awayRead 902 none).id = [] := by decide +kernel
    rw [e] at hm
    simp at hm
  · rintro ⟨e, he, b, hb, hne⟩
    simp only [List.mem_singleton] at he
    subst he
    have : ({ awayRead 903 (some 5) with prior := [(0, 5)] } : GOp).awayByte 0 = some 5 := by decide +kernel
    rw [this] at hb
    exact hne (Option.some.inj hb).symm

/-! ### Ports -/

/-- Three flits in a row of packages: one turned back to an earlier dimension, one kept as it was sent whole. -/
def benchY : State := benchE (fun m => m.modPkg (fun p => { p with chip := 0x010, nx := 2, ny := 2, ports := [(0, openPort), (2, openPort), (3, openPort)] }))
theorem witness_PortsReceiveAndReplay_turns :
    (benchY.m.pkg.names (destIn (someFlit 5 0x110 true true)) = true ∧ benchY.m.pkg.route (destIn (someFlit 5 0x110 true true)) = some 0 ∧
      (0 / 2 < 3 / 2) ∧ (benchPorts.m.pkg.route (destIn (someFlit 5 0x100 true true)) = some 0 ∧ ¬ (0 / 2 < 1 / 2))) ∧
    ({ openPort with away := true }.away = true ∧ { openPort with locked := true }.locked = true ∧ { openPort with asked := some 0 }.asked = some 0) ∧
    underWay [({ ctr := 4, flit := someFlit 1 0 true true, own := none } : KeptFlit)] 4 { ctr := 4, flit := someFlit 1 0 true true, own := none } ∧
    ¬ underWay [({ ctr := 4, flit := someFlit 1 0 true true, own := none } : KeptFlit)] 5 { ctr := 4, flit := someFlit 1 0 true true, own := none } := by
  refine ⟨by decide +kernel, by decide, ⟨[], [], _, [], rfl, rfl, by decide +kernel, by decide +kernel, rfl, by decide, by simp, by simp⟩, ?_⟩
  rintro ⟨a, b, z, c, h, -, -, -, -, hc, -⟩
  have hz : z ∈ [({ ctr := 4, flit := someFlit 1 0 true true, own := none } : KeptFlit)] := by rw [h]; simp
  rw [List.mem_singleton.mp hz] at hc
  exact absurd hc (by decide)

theorem test_flit_that_no_route_brings_is_told : next (.flitReceive 3 (someFlit 5 0x110 true true)) (benchE (fun m => m.modPkg (fun p =>
      { p with chip := 0x010, nx := 2, ny := 2 }))) (fun t => rget 292 t.m.pkg.cnts == 1 && t.m.net.length + t.m.out.length == 1) = true := by decide +kernel

/-- An encapsulation key, and what is neither a key nor a ciphertext. -/
theorem witness_PortsSendAndAttest_agreement :
    (∃ share kem, kemDone 3 (zeroBytes 1184) share kem) ∧ (∀ share kem, ¬ kemDone 3 [] share kem) := by
  have h0 : mlKem768KeyOk [] = false := by unfold mlKem768KeyOk; decide +kernel
  refine ⟨⟨_, _, .inl ⟨by unfold mlKem768KeyOk; decide +kernel, rfl⟩⟩, ?_⟩
  rintro share kem (⟨h, -⟩ | ⟨-, h, -⟩)
  · rw [h0] at h
    exact absurd h (by decide)
  · exact absurd h (by decide)

theorem test_sha384_of_abc : (sha384 [0x61, 0x62, 0x63]).take 4 = [0xCB, 0x00, 0x75, 0x3F] := by decide +kernel

/-! ### Clocks, slots and repairs -/

theorem witness_PowerTimeAndEnergy_groups :
    (let g := ((benchE (fun m => m.modPkg (fun p => p.modGov 0 (fun g => { g with group := some 5, changes := [(3, 9)] })))).m.pkg.gov 0)
     g.group = some 5 ∧ g.changes = (3, 9) :: []) ∧ ((benchE id).m.pkg.gov 1).changes = [] ∧ ((benchE id).m.pkg.gov 1).group ≠ some 5 := by decide +kernel

theorem test_late_change_drops_the_older_one : (match exec (.groupClockSwitch 0) (benchE (fun m => m.modPkg (fun p => p.modGov 0 (fun g =>
      { g with group := some 5, gclock := some { group := 5, steps := 4, at_ := 7 }, changes := [] })))) with
    | .next t => (t.m.pkg.gov 0).gclock.map (fun c => c.steps) == some 4
    | _ => false) = true := by decide +kernel

theorem witness_ErrorsStrikeTheirResources_slots :
    (let v := { someSlot with from_ := [((benchE id).m.pkg.chip, 0, 903, 0)] }
     let g := someGOp (.red .addS32 [5]) true
     let s := benchE (fun m => { m with gops := [g], pkg := { m.pkg with redSlots := [v] } })
     s.m.pkg.redSlots = [] ++ v :: [] ∧ s.m.gops.find? (fun h => h.id == g.id) = some g ∧ g.segs = [somePiece] ∧ g.id = 903) ∧
    (let v := { someSlot with from_ := [(0x100, 0, 907, 0)] }
     v.from_ = [(0x100, 0, 907, 0)] ∧ (0x100 : BitVec 12) ≠ benchPorts.m.pkg.chip ∧ benchPorts.m.pkg.reaches 1 0x100 = true) ∧
    (benchE id).m.pkg.redSlots.length ≤ 0 := by decide +kernel

theorem witness_ErrorsStrikeTheirResources_ldmap :
    ((benchTeam (fun t => { t with full := true })).m.team? ((benchE id).m.ctx 0).rid 0).any (fun t => t.full) = true ∧
    ((benchTeam id).m.team? ((benchE id).m.ctx 0).rid 0).any (fun t => !t.full) = true := by decide +kernel

/-- The tiles of core 0 are held; its register file 1 is not, though core 0 is. -/
theorem witness_TestsRepairOrRetire_parts :
    (partOfCore .tile 3 0 ∧ ¬ partFree (benchE id).m .tile 3 0 ∧ partOfCore .registers 1 0 ∧ partFree (benchE id).m .registers 1 0 ∧ ¬ coreFree (benchE id).m 0) ∧
    (benchE (fun m => m.modPkg (fun p => { p with repairs := [0] }))).m.pkg.repairs = [0] ∧
    (∃ q ∈ (benchE id).m.runs, holdsCluster q 0) ∧ (∀ q ∈ (benchE id).m.runs, ¬ holdsCluster q 5) := by
  unfold partFree coreFree holdsCluster partOfCore entryHolds; decide +kernel

/-! ### The end of a cycle, and feeds that cannot be read -/

def benchIdle : State := { State.reset with agenda := [none] }
theorem witness_StepRunsTheDecodedInstruction_cycle : benchIdle.agenda = none :: [] ∧ { benchIdle with agenda := [] }.nextCommand = none ∧
    { benchIdle with agenda := [] }.issueNext = none := by decide +kernel

theorem witness_feeds_that_cannot_be_read : ¬ canonical 0x01FFFFFFFFFFFFE8 4096 ∧ (0x01FFFFFFFFFFFFE8 : W64).toNat % 16 ≠ 0 ∧ canonical 0x01FFFFFFFFFFE008 4096 := by
  unfold canonical; decide


/-! ### The machine -/

/-- A step at the bench that fetches, with the word 0x00C04000 (S, li.s64 g1 L0) at the pc. -/
def benchStep : State := { (bench 1 []) with m := (bench 1 []).m.standWord 1 0x00C04000, agenda := [none] }
def benchNone : State := { benchStep with agenda := [] }

/-- What the next issue of `benchStep` fetches and decodes. -/
noncomputable def stepWords : List W32 := ((benchNone.begin 0).fetchWords.toOption).getD []
noncomputable def stepBundle : Bundle := ((decodeBundle stepWords).toOption).getD { hdr := { p := 0, rep := 0, stop := false, lits := 0 }, words := [], pool := [] }
def stepWord : Cur := { k := 1, w := { pt := 0, fi := false, li := false, ins := .liS64 1 0 }, pres := true }
/-- The next state of an outcome. -/
def nextOf (o : Host.Outcome State Fault Refusal) (d : State) : State :=
  match o with
  | .next t => t
  | _ => d

theorem nextOf_eq {o : Host.Outcome State Fault Refusal} (d : State) (h : ∃ t, o = .next t) : o = .next (nextOf o d) := by
  obtain ⟨t, rfl⟩ := h
  rfl

/-- Whether an outcome is a next state. -/
def isNext (o : Host.Outcome State Fault Refusal) : Bool :=
  match o with
  | .next _ => true
  | _ => false

theorem isNext_some {o : Host.Outcome State Fault Refusal} (h : isNext o = true) : ∃ t, o = .next t := by
  cases o <;> simp_all [isNext]

noncomputable def stepFrom : State := (benchNone.begin 0).withBundle stepBundle
noncomputable def stepNext : State := nextOf (exec (.liS64 1 0) (stepFrom.open_.atWord stepWord)) benchNone

theorem step_fetches : (benchNone.begin 0).fetchWords = .ok stepWords := by decide +kernel
theorem step_bundle : decodeBundle stepWords = .ok stepBundle := by decide +kernel
theorem step_words : readWords stepBundle.words = .ok [stepWord] := by decide +kernel
theorem step_issues : Issues benchNone 0 stepWords stepBundle [stepWord] [] :=
  ⟨by decide +kernel, step_fetches, step_bundle, step_words, by decide +kernel, by decide +kernel⟩

theorem witness_StepRunsTheDecodedInstruction_issue : benchStep.agenda = none :: [] ∧ benchNone.nextCommand = none ∧ benchStep.m.first = none ∧
    benchStep.m.coresLeft = 0 :: [] ∧ (∃ later, benchStep.m.order 0 = 0 :: later) ∧ Issues benchNone 0 stepWords stepBundle [stepWord] [] ∧
    issuedOf benchNone 0 stepBundle [stepWord] = [stepWord] ∧
    unhindered benchNone 0 stepBundle (currentOf benchNone 0 stepBundle [stepWord]) [stepWord] stepFrom ∧ stepFrom.open_.iss.trapped = false ∧
    actIn [stepWord] stepFrom.open_ stepNext := by
  refine ⟨by decide +kernel, by decide +kernel, by decide +kernel, by decide +kernel, ⟨[1, 2, 3], by decide +kernel⟩, step_issues, by decide +kernel,
    ⟨by decide +kernel, by decide +kernel, by decide +kernel, by decide +kernel, .inl ⟨by decide +kernel, rfl⟩⟩, by decide +kernel, stepNext, ?_, ?_, rfl⟩
  · exact nextOf_eq _ (isNext_some (by decide +kernel))
  · decide +kernel

/-- A word that traps ends the issue: 0x04221000 (C, trap 0x21) at the bench. -/
theorem witness_StepRunsTheDecodedInstruction_trap : (bench 0 []).oc.mayTrap = true ∧
    next (.trap 0x21) (bench 0 []) (fun t => t.iss.trapped) = true := by decide +kernel

/-- The bench of stream 0 whose next command is the word 0x06300000 (C, fence). -/
def benchCmd : State := { (bench 0 []) with m := (bench 0 []).m.standCommand 0x06300000, agenda := [none] }
def benchCmd0 : State := { benchCmd with agenda := [] }

/-- What the stream reads there. -/
def cmdBytes : List Byte := bundleOf 0 0x06300000
noncomputable def cmdPool : List W32 := (wordsLE cmdBytes).drop 2
def cmdHeader : Header := { p := 0x800, rep := 0, stop := false, lits := 31 }
def cmdWord : Slot := { pt := 0, fi := false, li := false, ins := .fence }
noncomputable def cmdNext : State := nextOf (exec .fence (benchCmd0.atCommand 0 cmdHeader cmdPool)) benchCmd0

theorem witness_StepRunsTheDecodedInstruction_command :
    (let q := benchCmd.m.stream 0
     benchCmd.agenda = none :: [] ∧ benchCmd.m.streams.map (fun p => p.1) = [0] ∧ benchCmd.m.pkg.stuck = false ∧ benchCmd.m.pkg.wiping = false ∧
     q.await = none ∧ q.late = [] ∧ q.state ≠ 4 ∧ q.logOk = true ∧ 4 ≤ (q.end_ - q.head).toNat ∧ cmdHeader.bytes ≤ (q.end_ - q.head).toNat ∧
     benchCmd.m.ringRead q q.head 4 = some (bytesLE 0x80001F00) ∧ benchCmd.m.ringRead q q.head cmdHeader.bytes = some cmdBytes ∧
     wordsLE cmdBytes = 0x80001F00 :: 0x06300000 :: cmdPool ∧ decodeHeader 0x80001F00 = .ok cmdHeader ∧ cmdHeader.p = 0x800 ∧ cmdHeader.rep = 0 ∧
     decodeSlot .c 0x06300000 = .ok cmdWord ∧ cmdWord.fi = false ∧ cmdWord.li = false ∧ commandOp cmdWord.ins.op.toNat = true) ∧
    exec cmdWord.ins (benchCmd0.atCommand 0 cmdHeader cmdPool) = .next cmdNext := by
  refine ⟨by decide +kernel, ?_⟩
  exact nextOf_eq _ (isNext_some (by decide +kernel))

theorem witness_StepRunsTheDecodedInstruction_event : Machine.Instr.isEvent (.vOpComplete 0) = true ∧
    (benchO true).m.due = some (.vOpComplete 0) ∧ (benchO true).agenda = [] := by
  decide +kernel

/-- `add.s64 g2, g2, L0` and `step` decode from their own words. -/
theorem witness_DecodeAndEncodeAgree : goodWord .s { pt := 1, fi := true, li := false, ins := .addS64Imm 2 2 64 } ∧
    goodWord .c { pt := 0, fi := false, li := false, ins := .step 8 0 1024 } ∧ decodeSlot .c 0 = .ok { pt := 0, fi := false, li := false, ins := .nop } := by
  unfold goodWord; decide +kernel

theorem witness_BundlesAreReadBack :
    (let h : Header := { p := 0xC00, rep := 0, stop := true, lits := 1 }
     [0x00600000, 0x00C04000].length = h.slots.length ∧ [(7 : W32)].length = h.lits.toNat ∧ 0 < h.tailWords) ∧ (1 : W32).toNat % 256 ≠ 0 := by decide

theorem reset_is_canonical : canonicalMemory State.reset := by unfold canonicalMemory; decide +kernel
/-- The end of a cycle at reset answers a next state. -/
theorem witness_StepKeepsMemoryCanonical : canonicalMemory State.reset ∧ ∃ t, step { State.reset with agenda := [none] } = .next t := by
  exact ⟨reset_is_canonical, _, rfl⟩

theorem test_step_runs_a_word : (match step benchStep with
    | .next t => (t.m.ctx 0).ctl.pc == 0x10000 + 132
    | _ => false) = true := by decide +kernel

theorem witness_DivisionTruncatesTowardZero :
    (let s := benchG 1 [] [(1, BitVec.intMin 64), (2, BitVec.allOnes 64), (3, 7)]
     s.rg 3 ≠ 0 ∧ ¬ (s.rg 1 = BitVec.intMin 64 ∧ s.rg 3 = BitVec.allOnes 64) ∧ s.rg 1 = BitVec.intMin 64 ∧ s.rg 2 = BitVec.allOnes 64 ∧ s.rg 4 = 0) := by
  decide +kernel
theorem test_division_of_minus_seven : next (.divS64 5 6 7) (benchG 1 [] [(6, -7), (7, 2)]) (fun t => (t.m.ctx 0).regs.rg 5 == (-3 : W64)) = true := by
  decide +kernel

theorem witness_RegisterWritesTouchOneRegister : (7 : BitVec 4).toNat < 8 ∧ (6 : BitVec 4) ≠ 7 ∧ (1 : BitVec 6) ≠ 2 ∧ 4 ≠ (bench 1 []).cx := by decide +kernel

end Sys2Proof.Tests
end

section
/-! SUPPORT. Reset, the life cycle, memory errors and self-tests (R149, R167, R366 to R369, R320): the statement
`Obligations.ResetLifeCycleErrorsAndTests`, from what each operation of Platform.lean does. -/

namespace Sys2Proof.Machine

/-! ### Maps and lists -/

theorem kget_eq_none {α : Type} {k : Nat} {l : KMap α} (h : k ∉ l.map (fun p => p.1)) : kget k l = none := by
  induction l with
  | nil => rfl
  | cons p r ih =>
    obtain ⟨j, a⟩ := p
    simp only [List.map_cons, List.mem_cons, not_or] at h
    rw [kget, if_neg (Ne.symm h.1), ih h.2]

/-- A map whose records are replaced in place is read as the record replaced. -/
theorem kget_map {α β : Type} (k : Nat) (f : α → β) (l : KMap α) : kget k (l.map (fun p => (p.1, f p.2))) = (kget k l).map f := by
  induction l with
  | nil => rfl
  | cons p r ih =>
    obtain ⟨j, a⟩ := p
    by_cases h : j = k
    · simp [kget, h]
    · simpa [kget, h] using ih

theorem takeFirst_eq_none {α : Type} {f : α → Bool} {l : List α} (h : ∀ a ∈ l, f a = false) : takeFirst f l = none := by
  induction l with
  | nil => rfl
  | cons a r ih => simp [takeFirst, h a, ih (fun b hb => h b (List.mem_cons_of_mem _ hb))]

/-- The first element that satisfies the test is taken, whatever stands after it. -/
theorem takeFirst_append {α : Type} {f : α → Bool} {a : List α} {x : α} (b : List α) (h : ∀ y ∈ a, f y = false) (hx : f x = true) :
    takeFirst f (a ++ x :: b) = some (x, a ++ b) := by
  induction a with
  | nil => simp [takeFirst, hx]
  | cons y r ih => simp [takeFirst, h y, ih (fun z hz => h z (List.mem_cons_of_mem _ hz))]

/-- A search that can answer only `b`, and does for one element, answers `b`. -/
theorem findSome?_eq_of_unique {α β : Type} {l : List α} {f : α → Option β} {a : α} {b : β} (ha : a ∈ l) (hf : f a = some b)
    (hu : ∀ x ∈ l, ∀ c, f x = some c → c = b) : l.findSome? f = some b := by
  cases h : l.findSome? f with
  | none => simp [List.findSome?_eq_none_iff.mp h a ha] at hf
  | some c =>
    obtain ⟨x, hx, hc⟩ := List.exists_of_findSome?_eq_some h
    rw [hu x hx c hc]

theorem find?_eq_of_unique {α : Type} {l : List α} {p : α → Bool} {a : α} (ha : a ∈ l) (hp : p a = true)
    (hu : ∀ x ∈ l, p x = true → x = a) : l.find? p = some a := by
  cases h : l.find? p with
  | none => simp [List.find?_eq_none.mp h a ha] at hp
  | some c => rw [hu c (List.mem_of_find?_eq_some h) (List.find?_some h)]

/-- What every step of a fold keeps, the fold keeps. -/
theorem foldl_keeps {α β γ : Type} {f : β → α → β} (g : β → γ) (h : ∀ b a, g (f b a) = g b) (l : List α) (b : β) :
    g (l.foldl f b) = g b := by
  induction l generalizing b with
  | nil => rfl
  | cons a r ih => exact (ih (f b a)).trans (h b a)

/-! ### Events -/

/-- An event of a package out of reset that can happen. -/
theorem State.event_some {s : State} {f : Mach → Option Mach} {m : Mach} (h : s.m.pkg.stuck = false) (hf : f s.m = some m) :
    s.event f = .next { s with m := m } := by
  simp [State.event, h, hf]

/-- An event that cannot happen leaves the machine as it is (log 9). -/
theorem State.event_none {s : State} {f : Mach → Option Mach} (hf : f s.m = none) : s.event f = .next { s with m := s.m } := by
  simp [State.event, hf]

/-! ### Wipes -/

/-- A wipe zeroes every byte but those of the expanders (R167). -/
theorem readByte_kept (m : Memory) (a : Nat) : readByte (Memory.kept m) a = if cxlRange a = true then readByte m a else 0 := by
  split
  · next h => exact readByte_filter _ (fun _ => h)
  · next h =>
    refine readByte_of_not_mem (fun c hc e => h ?_)
    exact e ▸ (List.mem_filter.mp hc).2

/-- Of a list of cores the dead ones, wiped: each core reads as after reset, dead where it was (R369). -/
theorem kgetD_deadCores {l : KMap Core} (h : (l.map (fun p => p.1)).Nodup) (k : Nat) :
    kgetD Core.zero k ((l.filter (fun p => p.2.dead)).map (fun p => (p.1, { Core.zero with dead := true }))) =
      { Core.zero with dead := (kgetD Core.zero k l).dead } := by
  induction l with
  | nil => rfl
  | cons p r ih =>
    obtain ⟨j, c⟩ := p
    obtain ⟨hj, hr⟩ := List.nodup_cons.mp h
    have ih := ih hr
    by_cases hk : j = k
    · subst hk
      have hz : kget j r = none := kget_eq_none hj
      cases hd : c.dead with
      | true => simp [kgetD, kget, hd]
      | false =>
        have hdead : Core.zero.dead = false := rfl
        simpa [kgetD, kget, hd, hz, hdead] using ih
    · cases hd : c.dead with
      | true => simpa [kgetD, kget, hd, hk] using ih
      | false => simpa [kgetD, kget, hd, hk] using ih

theorem Mach.core_wipedCores {m : Mach} (h : (m.cores.map (fun p => p.1)).Nodup) (k : Nat) :
    kgetD Core.zero k m.wipedCores = { Core.zero with dead := (m.core k).dead } := kgetD_deadCores h k

end Sys2Proof.Machine

namespace Sys2Proof.Claims

open Sys2Proof.Machine

/-- An instruction whose meaning is an event happens when the event can. -/
theorem happens_of_some {i : Instr} {s : State} {f : Mach → Option Mach} {m : Mach} (hi : exec i s = s.event f) (ha : awake s)
    (h : f s.m = some m) : happens i s m := hi.trans (State.event_some ha h)

theorem happens_of_none {i : Instr} {s : State} {f : Mach → Option Mach} (hi : exec i s = s.event f) (h : f s.m = none) : happens i s s.m :=
  hi.trans (State.event_none h)

theorem exec_lifeCycleChange (l : LifeCycle) (g : Signatures) (s : State) : exec (.lifeCycleChange l g) s = s.event (fun m => m.lifeChange l g) := rfl
theorem exec_wipeFinish (s : State) : exec .wipeFinish s = s.event Mach.wipeDone := rfl
theorem exec_memoryError (r : Resource) (u : Nat) (c : Bool) (rd : Option Reader) (a : W64) (s : State) :
    exec (.memoryError r u c rd a) s = s.event (fun m => m.memoryError r u c rd a) := rfl
theorem exec_targetedSelfTest (r : Resource) (u : Nat) (s : State) : exec (.targetedSelfTest r u) s = s.event (fun m => m.selfTest r u) := rfl

theorem fusedOk_iff {msg : List Byte} {g : Signatures} : fusedOk msg g = true ↔ fusedGood msg g := by
  simp only [fusedOk, signedBy, Bool.and_eq_true, fusedGood]
  exact and_comm

/-! ### Reset and the life cycle -/

theorem deviceReset_out (m : Mach) (fw : Firmware) :
    (m.deviceReset fw).out = m.out.filter isRecord ++ (if fusedOk fw.image fw.sigs then [] else [.report m.pkg.life]) := rfl

theorem deviceReset_stuck (m : Mach) (fw : Firmware) : (m.deviceReset fw).pkg.stuck = !fusedOk fw.image fw.sigs := rfl

/-- The life cycle moves on by one state (R367). -/
theorem lifeAfter_iff {a b : LifeCycle} :
    lifeAfter a = some b ↔ (a, b) ∈ [(LifeCycle.blank, LifeCycle.provisioned), (.provisioned, .deployed), (.deployed, .returned)] := by
  cases a <;> cases b <;> decide

theorem lifeChange_isSome_iff {m : Mach} {l : LifeCycle} {g : Signatures} :
    (m.lifeChange l g).isSome = true ↔ fusedGood (Config.commandMessage l) g ∧ lifeAfter m.pkg.life = some l := by
  rw [← fusedOk_iff]
  unfold Mach.lifeChange
  split
  · next h => simpa using h
  · next h => simpa using h

/-- What a command of the life cycle that is accepted leaves (R149, R167, R366 to R368). -/
theorem lifeChange_some {m m' : Mach} {l : LifeCycle} {g : Signatures} (h : m.lifeChange l g = some m') :
    m'.pkg.life = l ∧ m'.pkg.identity = (if l = .provisioned then some m.tick else m.pkg.identity) ∧ m'.pkg.repairs = [] ∧
      wiped m.mem m'.mem ∧ m'.ctxs = [] ∧ m'.runs = [] ∧ m'.tails = [] ∧ m'.pkg.part = [] ∧ m'.pkg.tlb = [] ∧ m'.pkg.own = [] ∧
      m'.pkg.wiping = true := by
  unfold Mach.lifeChange at h
  split at h
  · cases h
    refine ⟨rfl, ?_, rfl, readByte_kept m.mem, rfl, rfl, rfl, rfl, rfl, rfl, rfl⟩
    simp only [beq_iff_eq]
  · cases h

theorem resetAndLifeCycle : ResetAndLifeCycle := by
  refine ⟨fun s fw hc => ?_, fun s ha => ⟨⟨fun l g hg hl => ?_, fun l g h => ?_⟩, fun hw => ?_, fun hw => ?_⟩⟩
  · refine ⟨s.m.deviceReset fw, rfl, readByte_kept s.m.mem, rfl, rfl, rfl, rfl, rfl, rfl, rfl, rfl, Mach.core_wipedCores hc, rfl, rfl, rfl, rfl,
      rfl, rfl, rfl, fun _ _ => rfl, rfl, rfl, rfl, fun hg => ?_, fun hg => ?_⟩
    · have ok : fusedOk fw.image fw.sigs = true := fusedOk_iff.mpr hg
      simp [deviceReset_stuck, deviceReset_out, ok]
    · have bad : fusedOk fw.image fw.sigs = false := by simpa [← fusedOk_iff] using hg
      simp [deviceReset_stuck, deviceReset_out, bad]
  · obtain ⟨m, hm⟩ := Option.isSome_iff_exists.mp (lifeChange_isSome_iff.mpr ⟨hg, lifeAfter_iff.mpr hl⟩)
    exact ⟨m, happens_of_some (exec_lifeCycleChange l g s) ha hm, lifeChange_some hm⟩
  · refine happens_of_none (exec_lifeCycleChange l g s) (Option.not_isSome_iff_eq_none.mp fun hm => ?_)
    obtain ⟨hg, hl⟩ := lifeChange_isSome_iff.mp hm
    exact h.elim (· hg) (· (lifeAfter_iff.mp hl))
  · exact happens_of_some (exec_wipeFinish s) ha (if_pos hw)
  · exact happens_of_none (exec_wipeFinish s) (if_neg (by simp [hw]))

end Sys2Proof.Claims

namespace Sys2Proof.Machine

/-! ### Messages that have come -/

theorem Mach.takeNet_append {m : Mach} {x : Sent} {a b : List Sent} (h : m.net = a ++ x :: b) (hx : x ∉ a) :
    m.takeNet x = some { m with net := a ++ b } := by
  have ha : ∀ y ∈ a, (y == x) = false := fun y hy => beq_eq_false_iff_ne.mpr (fun e => hx (e ▸ hy))
  rw [Mach.takeNet, h, takeFirst_append b ha (beq_self_eq_true x)]
  rfl

theorem Mach.takeNet_none {m : Mach} {x : Sent} (h : x ∉ m.net) : m.takeNet x = none := by
  have hn : ∀ y ∈ m.net, (y == x) = false := fun y hy => beq_eq_false_iff_ne.mpr (fun e => h (e ▸ hy))
  rw [Mach.takeNet, takeFirst_eq_none hn]
  rfl

theorem toNat_append_eq_add {v w : Nat} (x : BitVec v) (y : BitVec w) : (x ++ y).toNat = x.toNat * 2 ^ w + y.toNat := by
  rw [BitVec.toNat_append, ← Nat.shiftLeft_add_eq_or_of_lt y.isLt, Nat.shiftLeft_eq]

/-- The status word of a reply by its fields (R295). -/
theorem statusWord_eq (g : BitVec 4) (t : BitVec 12) : statusWord 4 g t = Claims.statusOf 4 t.toNat g.toNat := by
  apply BitVec.eq_of_toNat_eq
  have hg := g.isLt
  have ht := t.isLt
  have h4 : (4 : BitVec 4).toNat = 4 := rfl
  have h0 : (0 : BitVec 44).toNat = 0 := rfl
  simp only [statusWord, Claims.statusOf, toNat_append_eq_add, BitVec.toNat_ofNat, h4, h0]
  omega

/-- OP 3 to 10 of a link request are the atomics (R294). -/
theorem requestKind_amo {r : LinkReq} (h3 : 3 ≤ r.op.toNat) (h10 : r.op.toNat ≤ 10) : ∃ op b c, requestKind r = some (.amo op b c) := by
  obtain h | h | h | h | h | h | h | h : r.op.toNat = 3 ∨ r.op.toNat = 4 ∨ r.op.toNat = 5 ∨ r.op.toNat = 6 ∨ r.op.toNat = 7 ∨ r.op.toNat = 8 ∨
      r.op.toNat = 9 ∨ r.op.toNat = 10 := by omega
  all_goals
    rw [requestKind, h]
    exact ⟨_, _, _, rfl⟩

/-! ### What a contribution that is dropped leaves -/

theorem Mach.writeFail_pkg (m : Mach) (g : GOp) (q : Seg) : (m.writeFail g q).pkg = m.pkg := by
  unfold Mach.writeFail
  split <;> rfl

theorem Mach.writeFail_mem (m : Mach) (g : GOp) (q : Seg) : (m.writeFail g q).mem = m.mem := by
  unfold Mach.writeFail
  split <;> rfl

theorem Mach.post_pkg (m : Mach) (c : BitVec 12) (x : Sent) : (m.post c x).pkg = m.pkg := by
  unfold Mach.post
  split
  · rfl
  · split
    · rfl
    · split <;> rfl

theorem Mach.post_mem (m : Mach) (c : BitVec 12) (x : Sent) : (m.post c x).mem = m.mem := by
  unfold Mach.post
  split
  · rfl
  · split
    · rfl
    · split <;> rfl

theorem Mach.failRed_pkg (m : Mach) (r : BitVec 12 × BitVec 8 × Nat × BitVec 4) : (m.failRed r).pkg = m.pkg := by
  unfold Mach.failRed
  split
  · split
    · next g _ => exact foldl_keeps Mach.pkg (fun acc q => acc.writeFail_pkg g q) g.segs m
    · rfl
  · exact m.post_pkg _ _

theorem Mach.failRed_mem (m : Mach) (r : BitVec 12 × BitVec 8 × Nat × BitVec 4) : (m.failRed r).mem = m.mem := by
  unfold Mach.failRed
  split
  · split
    · next g _ => exact foldl_keeps Mach.mem (fun acc q => acc.writeFail_mem g q) g.segs m
    · rfl
  · exact m.post_mem _ _

/-- The machine with the reduction slots `l` (R297: one of them is freed). -/
def Mach.withRedSlots (m : Mach) (l : List RedSlot) : Mach := m.modPkg (fun q => { q with redSlots := l })

/-- A slot whose line has an error is freed (R297). -/
theorem Mach.failSlot_append {m : Mach} {a b : List RedSlot} {v : RedSlot} (h : m.pkg.redSlots = a ++ v :: b) :
    m.failSlot a.length = some (v.from_.foldl Mach.failRed (m.withRedSlots (a ++ b))) := by
  have hv : m.pkg.redSlots[a.length]? = some v := by simp [h]
  have he : m.pkg.redSlots.eraseIdx a.length = a ++ b := by simp [h, List.eraseIdx_append_of_length_le]
  simp only [Mach.failSlot, hv, Mach.withRedSlots, Mach.modPkg, he]

theorem Mach.failSlot_none {m : Mach} {n : Nat} (h : m.pkg.redSlots.length ≤ n) : m.failSlot n = none := by
  simp only [Mach.failSlot, List.getElem?_eq_none h]

/-- The contribution of another package is answered with STATUS 4. -/
theorem Mach.failRed_away {m : Mach} {src : BitVec 12} (core : BitVec 8) (tag : Nat) (gen : BitVec 4) (h : src ≠ m.pkg.chip)
    (hr : m.pkg.reaches 1 src = true) : m.failRed (src, core, tag, gen) = { m with out := m.out ++ [.reply src core tag gen 4 []] } := by
  have hc : m.pkg.reaches (classOf (.reply src core tag gen 4 [])) src = true := hr
  simp only [Mach.failRed, h, if_false, Mach.post, hc, if_true]

/-- A reduction of this package fails as a write does. -/
theorem Mach.failRed_own {m : Mach} {core : BitVec 8} {gen : BitVec 4} {g : GOp} {p : Seg} {op : RedOp} {ws : List W32}
    (hg : m.gops.find? (fun h => h.id == g.id) = some g) (hs : g.segs = [p]) (ha : g.act = .red op ws) :
    m.failRed (m.pkg.chip, core, g.id, gen) = (m.modCtx g.ctx (fun c => c.transferFault 0x24 p.va)).dropGop g.id := by
  simp only [Mach.failRed, if_true, hg, hs, List.foldl_cons, List.foldl_nil, Mach.writeFail, ha]

end Sys2Proof.Machine

namespace Sys2Proof.Claims

open Sys2Proof.Machine

/-! ### An error and its reader -/

theorem arrive_came {m m1 : Mach} {src : BitVec 12} {x : Sent} (h : came m m1 src x) (k : Mach → Option Mach) : m.arrive src x k = k m1 := by
  obtain ⟨a, b, hn, hx, rfl⟩ | ⟨hx, hs, ht, rfl⟩ := h
  · simp only [Mach.arrive, Mach.takeNet_append hn hx]
  · simp only [Mach.arrive, Mach.takeNet_none hx, hs, ht, if_false, if_true]

theorem errorSub_eq (r : Resource) : errorSub r = subOf r := by cases r <;> rfl

theorem errorIn_eq (m : Mach) (r : Resource) (x no : Nat) (pc a : W64) (slot : Nat) :
    m.errorIn x no pc a slot (subOf r) = errorReported m r x no pc a slot := by
  have ht : tcause 0x12 0 slot (subOf r) 0 false = BitVec.ofNat 64 (0x12 + slot * 2 ^ 16 + subOf r * 2 ^ 32) := by
    unfold tcause
    congr 1
    simp only [b2n, Bool.false_eq_true, if_false]
    omega
  rw [Mach.errorIn, ht, errorReported]

/-- Every error is counted against its resource, of which a test is due (R320, R369). -/
theorem erred_eq (m : Mach) (r : Resource) (u : Nat) (c : Bool) : m.modPkg (fun p => { p.bump (if c then 295 else 296) with
    errs := kmod 0 (errKey r u) (fun n => n + 1) p.errs
    tests := if p.tests.contains (r, u) then p.tests else p.tests ++ [(r, u)] }) = erred m r u c := by
  simp [Mach.modPkg, erred, Pkg.bump, kmod]

/-- One that nobody reads, that was corrected, or of a lane does no more. -/
theorem memoryError_counted {r : Resource} {c : Bool} {rd : Option Reader} (h : rd = none ∨ c = true ∨ r = .lane) (m : Mach) (u : Nat)
    (a : W64) : m.memoryError r u c rd a = some (erred m r u c) := by
  simp only [Mach.memoryError, erred_eq]
  cases rd with
  | none => rfl
  | some k => exact if_pos (by simpa using h)

/-- One that cannot be corrected strikes its reader. -/
theorem memoryError_strikes {r : Resource} (h : r ≠ .lane) (m : Mach) (u : Nat) (k : Reader) (a : W64) :
    m.memoryError r u false (some k) a = (erred m r u false).strike (subOf r) k a := by
  simp only [Mach.memoryError, erred_eq, errorSub_eq]
  exact if_neg (by simpa using h)

theorem struck_happens {s : State} {r : Resource} {m : Mach} {u : Nat} {k : Reader} {a : W64} (ha : awake s) (h : r ≠ .lane)
    (hk : (erred s.m r u false).strike (subOf r) k a = some m) : happens (.memoryError r u false (some k) a) s m :=
  happens_of_some (exec_memoryError ..) ha ((memoryError_strikes h ..).trans hk)

theorem struck_stays {s : State} {r : Resource} {u : Nat} {k : Reader} {a : W64} (h : r ≠ .lane)
    (hk : (erred s.m r u false).strike (subOf r) k a = none) : happens (.memoryError r u false (some k) a) s s.m :=
  happens_of_none (exec_memoryError ..) ((memoryError_strikes h ..).trans hk)

end Sys2Proof.Claims

namespace Sys2Proof.Machine

/-! ### What an error in an operation strikes -/

theorem Mach.strikeOp_local {m : Mach} {o : LocalOp} (h : m.locq.find? (fun q => q.id == o.id) = some o) (ha : ∀ w, o.act ≠ .store w)
    (sub : Nat) (a : W64) : m.strikeOp sub o.id a =
      some (({ m with locq := m.locq.filter (fun p => p.id != o.id) }.finish o.id).errorIn o.ctx o.no o.pc a o.slot sub) := by
  unfold Mach.strikeOp
  rw [h]
  split
  · next e => cases e; exact absurd rfl (ha _)
  · next e => cases e; rfl
  · next e => cases e

/-- With no local operation of that number, the error strikes the global one. -/
theorem Mach.strikeOp_global {m : Mach} {g : GOp} (hl : ∀ q ∈ m.locq, q.id ≠ g.id) (hg : m.gops.find? (fun q => q.id == g.id) = some g)
    (sub : Nat) (a : W64) : m.strikeOp sub g.id a = m.strikeGlobal g sub a := by
  have hn : m.locq.find? (fun q => q.id == g.id) = none := by simpa using hl
  simp only [Mach.strikeOp, hn, hg]

/-- With no local and no global one, the M operation. -/
theorem Mach.strikeOp_m {m : Mach} {id : Nat} {o : EngOp} (hl : ∀ q ∈ m.locq, q.id ≠ id) (hg : ∀ q ∈ m.gops, q.id ≠ id)
    (ho : m.cores.findSome? (fun p => p.2.mq.find? (fun q => q.id == id)) = some o) (sub : Nat) (a : W64) :
    m.strikeOp sub id a = some (m.errorIn o.ctx o.no o.pc a 4 sub) := by
  have hln : m.locq.find? (fun q => q.id == id) = none := by simpa using hl
  have hgn : m.gops.find? (fun q => q.id == id) = none := by simpa using hg
  simp only [Mach.strikeOp, hln, hgn, ho]

/-- With no M operation either, the V operation that reads a tile. -/
theorem Mach.strikeOp_v {m : Mach} {id x : Nat} {o : VOp} (hl : ∀ q ∈ m.locq, q.id ≠ id) (hg : ∀ q ∈ m.gops, q.id ≠ id)
    (hm : ∀ p ∈ m.cores, ∀ q ∈ p.2.mq, q.id ≠ id)
    (ho : m.ctxs.findSome? (fun p => (p.2.vq.find? (fun o => o.id == id && o.tile.isSome)).map (fun o => (p.1, o))) = some (x, o))
    (sub : Nat) (a : W64) : m.strikeOp sub id a = some (m.errorIn x o.no o.pc a 3 sub) := by
  have hln : m.locq.find? (fun q => q.id == id) = none := by simpa using hl
  have hgn : m.gops.find? (fun q => q.id == id) = none := by simpa using hg
  have hmn : m.cores.findSome? (fun p => p.2.mq.find? (fun q => q.id == id)) = none := by simpa using hm
  simp only [Mach.strikeOp, hln, hgn, hmn, ho]

/-- With no V operation of that number either, the X operation. -/
theorem Mach.strikeOp_x {m : Mach} {id : Nat} {o : EngOp} (hl : ∀ q ∈ m.locq, q.id ≠ id) (hg : ∀ q ∈ m.gops, q.id ≠ id)
    (hm : ∀ p ∈ m.cores, ∀ q ∈ p.2.mq, q.id ≠ id) (hv : ∀ p ∈ m.ctxs, ∀ q ∈ p.2.vq, q.id ≠ id)
    (ho : m.ctxs.findSome? (fun p => p.2.xq.find? (fun o => o.id == id)) = some o) (sub : Nat) (a : W64) :
    m.strikeOp sub id a = m.strikeX o sub a := by
  have hln : m.locq.find? (fun q => q.id == id) = none := by simpa using hl
  have hgn : m.gops.find? (fun q => q.id == id) = none := by simpa using hg
  have hmn : m.cores.findSome? (fun p => p.2.mq.find? (fun q => q.id == id)) = none := by simpa using hm
  have hvn : m.ctxs.findSome? (fun p => (p.2.vq.find? (fun o => o.id == id && o.tile.isSome)).map (fun o => (p.1, o))) = none := by
    simp only [List.findSome?_eq_none_iff, Option.map_eq_none_iff, List.find?_eq_none, Bool.and_eq_true, beq_iff_eq, not_and]
    exact fun p hp q hq e => absurd e (hv p hp q hq)
  simp only [Mach.strikeOp, hln, hgn, hmn, hvn, ho, Option.bind_some]

/-- A send is no map operation. -/
theorem mapKind_of_isSend {i : Instr} (h : isSend i = true) : mapKind i ≠ 1 := by
  intro hk
  unfold mapKind at hk
  split at hk
  · cases h
  · omega
  · omega
  · omega

end Sys2Proof.Machine

namespace Sys2Proof.Claims

open Sys2Proof.Machine

theorem filter_bne_eq {α β : Type} [DecidableEq β] [BEq β] [LawfulBEq β] (f : α → β) (b : β) (l : List α) :
    l.filter (fun a => f a != b) = l.filter (fun a => decide (f a ≠ b)) :=
  List.filter_congr (fun a _ => by rw [Bool.eq_iff_iff]; simp)

theorem runCounted_eq (m : Mach) (rid k : Nat) : m.count rid k 1 = runCounted m rid k := by
  simp only [Mach.count, Mach.modRun, modWhere, runCounted, beq_iff_eq]
  rfl

/-- The machine without a global operation that is over. -/
theorem ends_eq (m : Mach) (id : Nat) : (m.dropGop id).finish id = opOver (gone m id) id := by
  simp only [Mach.dropGop, Mach.finish, opOver, gone, filter_bne_eq]

section
variable {s : State} {r : Resource} {u : Nat} {a : W64}

/-- A page-table walk, a fetch, the register file or a scratchpad: the next issue of a context (R320). -/
theorem struck_issue (ha : awake s) (hr : r ≠ .lane) {x slot : Nat} (hx : s.m.mayIssue x = true) (hs : subOf r ∈ [1, 2, 3, 5, 9])
    (hslot : slot < 16) : happens (.memoryError r u false (some (.issue x slot)) a) s
      (errorReported (erred s.m r u false) r x s.m.nextId (s.m.ctx x).ctl.pc a slot) := by
  refine struck_happens ha hr ?_
  have hc : ((erred s.m r u false).mayIssue x && [1, 2, 3, 5, 9].contains (subOf r) && decide (slot < 16)) = true := by
    have hx' : (erred s.m r u false).mayIssue x = true := hx
    simp only [hx', List.contains_iff_mem.mpr hs, hslot, decide_true, Bool.and_self]
  exact (if_pos hc).trans (congrArg some (errorIn_eq ..))

theorem struck_issue_not (hr : r ≠ .lane) {x slot : Nat} (h : s.m.mayIssue x = false ∨ subOf r ∉ [1, 2, 3, 5, 9] ∨ 16 ≤ slot) :
    happens (.memoryError r u false (some (.issue x slot)) a) s s.m := by
  refine struck_stays hr (if_neg ?_)
  simp only [Bool.and_eq_true, List.contains_iff_mem, decide_eq_true_eq]
  rintro ⟨⟨hx, hs⟩, hslot⟩
  have hx' : s.m.mayIssue x = true := hx
  rcases h with h | h | h
  · simp [h] at hx'
  · exact h hs
  · omega

theorem struck_local (ha : awake s) (hr : r ≠ .lane) {o : LocalOp} (ho : s.m.locq.find? (fun q => q.id == o.id) = some o)
    (hs : ∀ w, o.act ≠ .store w) : happens (.memoryError r u false (some (.op o.id)) a) s
      (errorReported (opOver { erred s.m r u false with locq := s.m.locq.filter (fun q => q.id ≠ o.id) } o.id) r o.ctx o.no o.pc a o.slot) := by
  refine struck_happens ha hr ((Mach.strikeOp_local (m := erred s.m r u false) ho hs _ _).trans ?_)
  rw [errorIn_eq]
  simp only [Mach.finish, opOver, filter_bne_eq]
  rfl

/-! A global operation (R175, R320) -/

theorem struck_global (ha : awake s) (hr : r ≠ .lane) {g : GOp} (hl : ∀ q ∈ s.m.locq, q.id ≠ g.id)
    (hg : s.m.gops.find? (fun q => q.id == g.id) = some g) {m : Mach} (h : (erred s.m r u false).strikeGlobal g (subOf r) a = some m) :
    happens (.memoryError r u false (some (.op g.id)) a) s m :=
  struck_happens ha hr ((Mach.strikeOp_global (m := erred s.m r u false) hl hg _ _).trans h)

theorem strikeGlobal_prefetch (m : Mach) {g : GOp} (h : g.act = .read .none) (sub : Nat) :
    m.strikeGlobal g sub a = some (runCounted (opOver (gone m g.id) g.id) g.rid 1) := by
  simp only [Mach.strikeGlobal, h, ends_eq, runCounted_eq]

theorem strikeGlobal_read (m : Mach) {g : GOp} {d : Dest} (h : g.act = .read d) (hd : d ≠ .none) :
    m.strikeGlobal g (subOf r) a =
      some (errorReported (opOver (gone m g.id) g.id) r g.ctx g.no g.pc a (if g.isFeed = true then 4 else 10)) := by
  cases d with
  | none => exact absurd rfl hd
  | _ => simp only [Mach.strikeGlobal, h, ends_eq, errorIn_eq]

theorem strikeGlobal_amo (m : Mach) {g : GOp} {op : AmoOp} {b c : W64} {rd : Nat} (h : g.act = .amo op b c rd) :
    m.strikeGlobal g (subOf r) a = some (errorReported (opOver (gone m g.id) g.id) r g.ctx g.no g.pc a 10) := by
  simp only [Mach.strikeGlobal, h, ends_eq, errorIn_eq]

theorem strikeGlobal_store (m : Mach) {g : GOp} {bs : List Byte} (h : g.act = .store bs) :
    m.strikeGlobal g (subOf r) a = if g.committed = true then none else some (errorReported m r g.ctx g.no g.pc a 10) := by
  simp only [Mach.strikeGlobal, h, errorIn_eq]

end

/-! ### The queues of the engines -/

section
variable {s : State} {r : Resource} {u : Nat} {a : W64} {id : Nat}

theorem struck_m (ha : awake s) (hr : r ≠ .lane) (hl : ∀ q ∈ s.m.locq, q.id ≠ id) (hg : ∀ q ∈ s.m.gops, q.id ≠ id) {k : Nat} {o : EngOp}
    (hk : (k, s.m.core k) ∈ s.m.cores) (ho : o ∈ (s.m.core k).mq) (hid : o.id = id)
    (hu : ∀ p ∈ s.m.cores, ∀ q ∈ p.2.mq, q.id = id → q = o) :
    happens (.memoryError r u false (some (.op id)) a) s (errorReported (erred s.m r u false) r o.ctx o.no o.pc a 4) := by
  have hf : (s.m.core k).mq.find? (fun q => q.id == id) = some o :=
    find?_eq_of_unique ho (beq_iff_eq.mpr hid) (fun q hq e => hu _ hk q hq (beq_iff_eq.mp e))
  have hs : s.m.cores.findSome? (fun p => p.2.mq.find? (fun q => q.id == id)) = some o :=
    findSome?_eq_of_unique hk hf (fun p hp q hq =>
      hu p hp q (List.mem_of_find?_eq_some hq) (by simpa using List.find?_some hq))
  exact struck_happens ha hr ((Mach.strikeOp_m (m := erred s.m r u false) hl hg hs _ _).trans (congrArg some (errorIn_eq ..)))

theorem struck_v (ha : awake s) (hr : r ≠ .lane) (hl : ∀ q ∈ s.m.locq, q.id ≠ id) (hg : ∀ q ∈ s.m.gops, q.id ≠ id)
    (hm : ∀ p ∈ s.m.cores, ∀ q ∈ p.2.mq, q.id ≠ id) {x : Nat} {o : VOp} (hx : (x, s.m.ctx x) ∈ s.m.ctxs) (ho : o ∈ (s.m.ctx x).vq)
    (hid : o.id = id) (ht : o.tile.isSome = true)
    (hu : ∀ p ∈ s.m.ctxs, ∀ q ∈ p.2.vq, q.id = id → p = (x, s.m.ctx x) ∧ q = o) :
    happens (.memoryError r u false (some (.op id)) a) s (errorReported (erred s.m r u false) r x o.no o.pc a 3) := by
  have hf : (s.m.ctx x).vq.find? (fun q => q.id == id && q.tile.isSome) = some o := by
    refine find?_eq_of_unique ho (by simp [hid, ht]) (fun q hq e => ?_)
    rw [Bool.and_eq_true, beq_iff_eq] at e
    exact (hu _ hx q hq e.1).2
  have hs : s.m.ctxs.findSome? (fun p => (p.2.vq.find? (fun q => q.id == id && q.tile.isSome)).map (fun q => (p.1, q))) = some (x, o) := by
    refine findSome?_eq_of_unique hx (by simp [hf]) (fun p hp c hc => ?_)
    obtain ⟨q, hq, rfl⟩ := Option.map_eq_some_iff.mp hc
    have hqid := List.find?_some hq
    rw [Bool.and_eq_true, beq_iff_eq] at hqid
    obtain ⟨rfl, rfl⟩ := hu p hp q (List.mem_of_find?_eq_some hq) hqid.1
    rfl
  exact struck_happens ha hr ((Mach.strikeOp_v (m := erred s.m r u false) hl hg hm hs _ _).trans (congrArg some (errorIn_eq ..)))

/-- `o` is the one X operation of number `id`, of context `x`, and no other queue of an engine has one. -/
structure OnlyX (m : Mach) (id x : Nat) (o : EngOp) : Prop where
  noLocal : ∀ q ∈ m.locq, q.id ≠ id
  noGlobal : ∀ q ∈ m.gops, q.id ≠ id
  noM : ∀ p ∈ m.cores, ∀ q ∈ p.2.mq, q.id ≠ id
  listed : (x, m.ctx x) ∈ m.ctxs
  queued : o ∈ (m.ctx x).xq
  number : o.id = id
  context : o.ctx = x
  unique : ∀ p ∈ m.ctxs, (∀ q ∈ p.2.vq, q.id ≠ id) ∧ ∀ q ∈ p.2.xq, q.id = id → p = (x, m.ctx x) ∧ q = o

theorem strikeOp_onlyX {m : Mach} {x : Nat} {o : EngOp} (h : OnlyX m id x o) (sub : Nat) (a : W64) : m.strikeOp sub id a = m.strikeX o sub a := by
  have hf : (m.ctx x).xq.find? (fun q => q.id == id) = some o :=
    find?_eq_of_unique h.queued (beq_iff_eq.mpr h.number) (fun q hq e => ((h.unique _ h.listed).2 q hq (beq_iff_eq.mp e)).2)
  have hs : m.ctxs.findSome? (fun p => p.2.xq.find? (fun q => q.id == id)) = some o :=
    findSome?_eq_of_unique h.listed hf (fun p hp q hq =>
      ((h.unique p hp).2 q (List.mem_of_find?_eq_some hq) (by simpa using List.find?_some hq)).2)
  exact Mach.strikeOp_x h.noLocal h.noGlobal h.noM (fun p hp => (h.unique p hp).1) hs sub a

theorem struck_onlyX {x : Nat} {o : EngOp} (h : OnlyX s.m id x o) :
    (erred s.m r u false).strike (subOf r) (.op id) a = (erred s.m r u false).strikeX o (subOf r) a :=
  strikeOp_onlyX (m := erred s.m r u false) ⟨h.noLocal, h.noGlobal, h.noM, h.listed, h.queued, h.number, h.context, h.unique⟩ _ _

/-- The image of an `ldmap`, but not while a second checkpoint of its team is due (R177). -/
theorem struck_ldmap (ha : awake s) (hr : r ≠ .lane) {x : Nat} {o : EngOp} (h : OnlyX s.m id x o) (hi : ∃ n b t, o.ins = .ldmap n b t) :
    ((∀ t, s.m.team? o.rid (clusterOf x) = some t → t.full = false) →
      happens (.memoryError r u false (some (.op id)) a) s (errorReported (erred s.m r u false) r x o.no o.pc a 11)) ∧
    (∀ t, s.m.team? o.rid (clusterOf x) = some t → t.full = true → happens (.memoryError r u false (some (.op id)) a) s s.m) := by
  have hk : mapKind o.ins = 1 := by
    obtain ⟨n, b, t, e⟩ := hi
    rw [e]; rfl
  have he : (erred s.m r u false).strikeX o (subOf r) a = if (s.m.team? o.rid (clusterOf x)).any (fun t => t.full) = true then none
      else some (errorReported (erred s.m r u false) r x o.no o.pc a 11) := by
    have hc := h.context
    subst hc
    rw [Mach.strikeX, if_pos hk, errorIn_eq]
    rfl
  refine ⟨fun hf => struck_happens ha hr ?_, fun t ht hf => struck_stays hr ?_⟩
  · rw [struck_onlyX h, he]
    exact if_neg (by simpa [Option.any_eq_true] using hf)
  · rw [struck_onlyX h, he]
    exact if_pos (by simp [ht, hf])

/-- A byte of a send's source is marked (R276). -/
theorem struck_send (ha : awake s) (hr : r ≠ .lane) {x : Nat} {o : EngOp} (h : OnlyX s.m id x o) (hi : isSend o.ins = true)
    (hb : o.begun = false) : happens (.memoryError r u false (some (.op id)) a) s ((erred s.m r u false).setCtx x { s.m.ctx x with
      xq := (s.m.ctx x).xq.map (fun q => if q.id = id then { q with blocks := q.blocks ++ [a] } else q) }) := by
  refine struck_happens ha hr ?_
  have hc := h.context
  have hid := h.number
  subst hc hid
  rw [struck_onlyX h, Mach.strikeX, if_neg (mapKind_of_isSend hi), if_pos (by simp [hi, hb])]
  simp only [modWhere, beq_iff_eq]
  rfl

/-! ### Requests that this package serves -/

theorem struck_remote (ha : awake s) (hr : r ≠ .lane) {q : RemReq} {m1 : Mach}
    (hc : came (erred s.m r u false) m1 q.src (.remote s.m.pkg.chip q)) (hk : readsAt q.pa q.kind = true) :
    happens (.memoryError r u false (some (.remote q)) a) s (m1.post q.src (.reply q.src q.core q.tag q.gen 4 [])) :=
  struck_happens ha hr ((if_pos hk).trans (arrive_came hc _))

/-- A request that reads nothing is not struck. -/
theorem struck_remote_not (hr : r ≠ .lane) {q : RemReq} (hk : readsAt q.pa q.kind = false) :
    happens (.memoryError r u false (some (.remote q)) a) s s.m :=
  struck_stays hr (if_neg (by simp [hk]))

theorem requestBefore_false {m : Mach} {q : LinkReq} (h : firstOfPair m (fun y => match y with
      | .linkReq _ v => v.core == q.core && v.link == q.link
      | _ => false) (.linkReq m.pkg.chip q)) : m.requestBefore q = false := by
  unfold Mach.requestBefore
  split
  · next v hv =>
    rcases h with h | h
    · cases hv.symm.trans h
    · cases hv.symm.trans h
      simp
  · rfl

theorem struck_link (ha : awake s) (hr : r ≠ .lane) {q : LinkReq} {m1 : Mach}
    (hc : came (erred s.m r u false) m1 q.src (.linkReq s.m.pkg.chip q)) (hf : s.m.requestBefore q = false) {k : RemKind}
    (hq : requestKind q = some k) (hk : readsAt q.pa k = true) : happens (.memoryError r u false (some (.link q)) a) s
      (m1.post q.src (.linkReply q.src q.core q.link (statusOf 4 q.tag.toNat q.gen.toNat) 0)) := by
  have hb : (erred s.m r u false).requestBefore q = false := hf
  have hcond : ((requestKind q).any (readsAt q.pa) && !(erred s.m r u false).requestBefore q) = true := by simp [hq, hk, hb]
  refine struck_happens ha hr ((if_pos hcond).trans ((arrive_came hc _).trans ?_))
  rw [Mach.linkAnswer, statusWord_eq]
  rfl

/-! ### Reduction slots -/

theorem dropGop_ctx (m : Mach) (id x : Nat) : (m.dropGop id).ctx x = m.ctx x := rfl
theorem transferFault_eq (c : Ctx) (v : W64) : c.transferFault 0x24 v = remoteFault c v := rfl

theorem struck_slot (ha : awake s) (hr : r ≠ .lane) {b c : List RedSlot} {v : RedSlot} (h : s.m.pkg.redSlots = b ++ v :: c) :
    ∃ m : Mach, happens (.memoryError r u false (some (.red b.length)) a) s m ∧ m.pkg.redSlots = b ++ c ∧ m.mem = s.m.mem ∧
      (∀ src core tag gen, v.from_ = [(src, core, tag, gen)] → src ≠ s.m.pkg.chip → s.m.pkg.reaches 1 src = true →
        m.out = s.m.out ++ [.reply src core tag gen 4 []] ∧ m.gops = s.m.gops ∧ m.ctxs = s.m.ctxs) ∧
      (∀ core gen g p op ws, v.from_ = [(s.m.pkg.chip, core, g.id, gen)] → s.m.gops.find? (fun h => h.id == g.id) = some g → g.segs = [p] →
        g.act = .red op ws → m.gops = s.m.gops.filter (fun h => h.id ≠ g.id) ∧ m.ctx g.ctx = remoteFault (s.m.ctx g.ctx) p.va) := by
  have he : (erred s.m r u false).pkg.redSlots = b ++ v :: c := h
  let e := (erred s.m r u false).withRedSlots (b ++ c)
  refine ⟨v.from_.foldl Mach.failRed e, struck_happens ha hr (Mach.failSlot_append he), ?_, ?_, fun src core tag gen hv hs hreach => ?_,
    fun core gen g p op ws hv hg hp hact => ?_⟩
  · exact congrArg Pkg.redSlots (foldl_keeps Mach.pkg Mach.failRed_pkg v.from_ e)
  · exact foldl_keeps Mach.mem Mach.failRed_mem v.from_ e
  · have haway : e.failRed (src, core, tag, gen) = { e with out := e.out ++ [.reply src core tag gen 4 []] } :=
      Mach.failRed_away core tag gen hs hreach
    rw [hv, List.foldl_cons, List.foldl_nil, haway]
    exact ⟨rfl, rfl, rfl⟩
  · have hown : e.failRed (s.m.pkg.chip, core, g.id, gen) = (e.modCtx g.ctx (fun d => d.transferFault 0x24 p.va)).dropGop g.id :=
      Mach.failRed_own (m := e) hg hp hact
    rw [hv, List.foldl_cons, List.foldl_nil, hown]
    refine ⟨filter_bne_eq .., ?_⟩
    have hctx : e.ctx g.ctx = s.m.ctx g.ctx := rfl
    rw [dropGop_ctx, Mach.ctx_modCtx_same, transferFault_eq, hctx]

end

theorem errorsStrikeTheirReaders : ErrorsStrikeTheirReaders := by
  intro s r u a ha
  refine ⟨fun c rd h => happens_of_some (exec_memoryError ..) ha (memoryError_counted h ..), fun hr => ⟨?_, ?_, ?_, ?_, ?_, ?_, ?_, ?_, ?_⟩⟩
  · exact fun x slot hx hs hslot => struck_issue ha hr hx hs hslot
  · exact fun x slot h => struck_issue_not hr h
  · exact fun o ho hs => struck_local ha hr ho hs
  · intro g hl hg
    have hgo := fun {m : Mach} => struck_global (r := r) (u := u) (a := a) (m := m) ha hr hl hg
    refine ⟨fun h => hgo (strikeGlobal_prefetch _ h _), fun d h hd => hgo (strikeGlobal_read _ h hd),
      fun op b c rd h => hgo (strikeGlobal_amo _ h), fun bs h hc => hgo ?_, fun bs h hc => struck_stays hr ?_⟩
    · exact (strikeGlobal_store _ h).trans (if_neg (by simp [hc]))
    · exact (Mach.strikeOp_global (m := erred s.m r u false) hl hg _ _).trans ((strikeGlobal_store _ h).trans (if_pos hc))
  · intro id hl hg
    refine ⟨fun k o hk ho hid hu => struck_m ha hr hl hg hk ho hid hu, fun hm => ⟨?_, ?_⟩⟩
    · exact fun x o hx ho hid ht hu => struck_v ha hr hl hg hm hx ho hid ht hu
    · intro x o hx ho hid hc hu
      have h : OnlyX s.m id x o := ⟨hl, hg, hm, hx, ho, hid, hc, hu⟩
      exact ⟨fun hi => struck_ldmap ha hr h hi, fun hi hb => struck_send ha hr h hi hb⟩
  · intro q m1 hc
    refine ⟨fun n hk h0 h1 => struck_remote ha hr hc ?_, fun op b c hk h => struck_remote ha hr hc ?_, fun bs hk => struck_remote_not hr ?_⟩
    · simp [readsAt, hk, h0, h1]
    · simp [readsAt, hk, h]
    · simp [readsAt, hk]
  · intro q m1 hc hf
    have hb := requestBefore_false hf
    refine ⟨fun hop h0 h7 => struck_link ha hr hc hb (k := .load 8) ?_ ?_, fun h3 h10 h => ?_⟩
    · simp [requestKind, hop]
    · simp [readsAt, h0, h7]
    · obtain ⟨op, b, c, hk⟩ := requestKind_amo h3 h10
      exact struck_link ha hr hc hb hk h
  · exact fun b c v h => struck_slot ha hr h
  · exact fun n h => struck_stays hr (Mach.failSlot_none (m := erred s.m r u false) h)

end Sys2Proof.Claims

namespace Sys2Proof.Machine

/-! ### A cluster retired -/

/-- A field of one bit cleared. -/
theorem getLsbD_setField_zero {w : Nat} (v : BitVec w) (k b : Nat) (hb : b < w) :
    (setField v k 1 (0 : BitVec 1)).getLsbD b = if b = k then false else v.getLsbD b := by
  by_cases h : b = k
  · subst h
    simp [setField, hb]
  · have hk : b < k ∨ ¬ b - k < 1 := by omega
    rcases hk with hk | hk
    · simp [setField, hb, h, hk]
    · have hz : ¬ b - k = 0 := by omega
      simp [setField, hb, h, hz]

/-- One update of each of the streams 0 to `n` - 1. -/
theorem Mach.stream_modStreams (f : Stream → Stream) (m : Mach) (n j : Nat) :
    ((List.range n).foldl (fun (acc : Mach) k => acc.modStream k f) m).stream j = if j < n then f (m.stream j) else m.stream j := by
  induction n with
  | zero => simp
  | succ n ih =>
    rw [List.range_succ, List.foldl_append, List.foldl_cons, List.foldl_nil]
    by_cases h : j = n
    · subst h
      rw [Mach.stream_modStream_same, ih, if_neg (by omega), if_pos (by omega)]
    · rw [Mach.stream_modStream_other h, ih]
      have hlt : j < n + 1 ↔ j < n := by omega
      simp only [hlt]

/-- A context as the run `r` stops, none of its contexts struck (R369). -/
def Ctx.stoppedWith (c : Ctx) (r : Nat) : Ctx :=
  if c.rid == r && c.status != Status.absent && c.status != Status.ended && c.status != Status.halted then { c with status := .runStopped } else c

/-- A run that has stopped keeps its state; any other one stops: its contexts do, and the host is told (R315, R369). -/
theorem Mach.stopRun_cases (m : Mach) (r : Nat) :
    m.runStopped r = true ∧ m.stopRun r none = m ∨
    m.runStopped r = false ∧ m.stopRun r none = { m with
      ctxs := m.ctxs.map (fun p => (p.1, p.2.stoppedWith r))
      runs := modWhere (fun q => q.id == r) (fun q => { q with stopped := true }) m.runs
      irqs := m.irqs ++ [m.pkg.vector 1] } := by
  cases h : m.runStopped r with
  | true => exact .inl ⟨rfl, by simp [Mach.stopRun, h]⟩
  | false =>
    refine .inr ⟨rfl, ?_⟩
    have hf : (fun p : Nat × Ctx => if (none : Option Nat) == some p.1 then (p.1, { p.2 with status := Status.halted })
        else if p.2.rid == r && p.2.status != Status.absent && p.2.status != Status.ended && p.2.status != Status.halted then
          (p.1, { p.2 with status := .runStopped })
        else p) = fun p => (p.1, p.2.stoppedWith r) := by
      funext p
      unfold Ctx.stoppedWith
      split
      · next hp => cases hp
      · split <;> rfl
    simp only [Mach.stopRun, h, Bool.false_eq_true, if_false, hf]
    rfl

/-- A context of another run is not touched. -/
theorem Mach.ctx_stopRun {m : Mach} {r x : Nat} (h : (m.ctx x).rid ≠ r) : (m.stopRun r none).ctx x = m.ctx x := by
  obtain ⟨-, e⟩ | ⟨-, e⟩ := m.stopRun_cases r
  · rw [e]
  · rw [e]
    simp only [Mach.ctx, kgetD] at h ⊢
    rw [kget_map x (fun c : Ctx => c.stoppedWith r)]
    cases hx : kget x m.ctxs with
    | none => rfl
    | some c =>
      have hc : c.rid ≠ r := by simpa [hx] using h
      simp [Ctx.stoppedWith, hc]

theorem Mach.stopRun_irqs (m : Mach) (r : Nat) : ∃ more, (m.stopRun r none).irqs = m.irqs ++ more := by
  obtain ⟨-, e⟩ | ⟨-, e⟩ := m.stopRun_cases r
  · exact ⟨[], by rw [e, List.append_nil]⟩
  · exact ⟨_, by rw [e]⟩

/-- A run numbered `r` has stopped. -/
def Mach.HasStopped (m : Mach) (r : Nat) : Prop := ∃ q ∈ m.runs, q.id = r ∧ q.stopped = true

theorem Mach.runs_ids_stopRun (m : Mach) (r : Nat) : (m.stopRun r none).runs.map (fun q => q.id) = m.runs.map (fun q => q.id) := by
  obtain ⟨-, e⟩ | ⟨-, e⟩ := m.stopRun_cases r
  · rw [e]
  · rw [e]
    simp only [modWhere, List.map_map]
    exact List.map_congr_left (fun q _ => by simp only [Function.comp]; split <;> rfl)

theorem Mach.HasStopped.stopRun {m : Mach} {i : Nat} (h : m.HasStopped i) (r : Nat) : (m.stopRun r none).HasStopped i := by
  obtain ⟨-, e⟩ | ⟨-, e⟩ := m.stopRun_cases r
  · rwa [e]
  · obtain ⟨q, hq, hid, hs⟩ := h
    rw [e]
    refine ⟨_, List.mem_map_of_mem hq, ?_, ?_⟩
    · split <;> exact hid
    · split
      · rfl
      · exact hs

theorem Mach.hasStopped_stopRun_self {m : Mach} {r : Nat} (h : r ∈ m.runs.map (fun q => q.id)) : (m.stopRun r none).HasStopped r := by
  obtain ⟨hs, e⟩ | ⟨-, e⟩ := m.stopRun_cases r
  · rw [e]
    obtain ⟨q, hq, hst⟩ := (Option.any_eq_true _ _).mp hs
    exact ⟨q, List.mem_of_find?_eq_some hq, by simpa using List.find?_some hq, hst⟩
  · obtain ⟨q, hq, hid⟩ := List.mem_map.mp h
    rw [e]
    have hb : (q.id == r) = true := beq_iff_eq.mpr hid
    exact ⟨_, List.mem_map_of_mem hq, by rw [if_pos hb]; exact hid, by rw [if_pos hb]⟩

/-- The runs of a list stopped one after another. -/
def Mach.stopRuns (m : Mach) (l : List Run) : Mach := l.foldl (fun acc q => acc.stopRun q.id none) m

@[simp] theorem Mach.stopRuns_nil (m : Mach) : m.stopRuns [] = m := rfl
@[simp] theorem Mach.stopRuns_cons (m : Mach) (q : Run) (l : List Run) : m.stopRuns (q :: l) = (m.stopRun q.id none).stopRuns l := rfl
@[simp] theorem Mach.stopRuns_mem (m : Mach) (l : List Run) : (m.stopRuns l).mem = m.mem :=
  foldl_keeps (f := fun (acc : Mach) (q : Run) => acc.stopRun q.id none) Mach.mem (fun acc q => acc.stopRun_mem q.id none) l m
@[simp] theorem Mach.stopRuns_cores (m : Mach) (l : List Run) : (m.stopRuns l).cores = m.cores :=
  foldl_keeps (f := fun (acc : Mach) (q : Run) => acc.stopRun q.id none) Mach.cores (fun acc q => acc.stopRun_cores q.id none) l m
@[simp] theorem Mach.stopRuns_streams (m : Mach) (l : List Run) : (m.stopRuns l).streams = m.streams :=
  foldl_keeps (f := fun (acc : Mach) (q : Run) => acc.stopRun q.id none) Mach.streams (fun acc q => acc.stopRun_streams q.id none) l m

theorem Mach.ctx_stopRuns {x : Nat} {l : List Run} : ∀ {m : Mach}, (∀ q ∈ l, (m.ctx x).rid ≠ q.id) → (m.stopRuns l).ctx x = m.ctx x := by
  induction l with
  | nil => exact fun _ => rfl
  | cons q l ih =>
    intro m h
    have hq : (m.stopRun q.id none).ctx x = m.ctx x := Mach.ctx_stopRun (h q (List.mem_cons_self ..))
    rw [Mach.stopRuns_cons, ih (fun p hp => by rw [hq]; exact h p (List.mem_cons_of_mem _ hp)), hq]

theorem Mach.stopRuns_irqs {l : List Run} : ∀ m : Mach, ∃ more, (m.stopRuns l).irqs = m.irqs ++ more ∧ (l = [] → more = []) := by
  induction l with
  | nil => exact fun m => ⟨[], (List.append_nil _).symm, fun _ => rfl⟩
  | cons q l ih =>
    intro m
    obtain ⟨a, ha⟩ := m.stopRun_irqs q.id
    obtain ⟨b, hb, -⟩ := ih (m.stopRun q.id none)
    exact ⟨a ++ b, by rw [Mach.stopRuns_cons, hb, ha, List.append_assoc], fun h => by cases h⟩

theorem Mach.HasStopped.stopRuns {i : Nat} {l : List Run} : ∀ {m : Mach}, m.HasStopped i → (m.stopRuns l).HasStopped i := by
  induction l with
  | nil => exact id
  | cons q l ih => exact fun h => ih (h.stopRun q.id)

theorem Mach.hasStopped_stopRuns {l : List Run} {q : Run} (hq : q ∈ l) :
    ∀ {m : Mach}, (∀ p ∈ l, p.id ∈ m.runs.map (fun p => p.id)) → (m.stopRuns l).HasStopped q.id := by
  induction l with
  | nil => cases hq
  | cons p l ih =>
    intro m h
    rcases List.mem_cons.mp hq with rfl | hq
    · exact (Mach.hasStopped_stopRun_self (h q (List.mem_cons_self ..))).stopRuns
    · exact ih hq (fun t ht => by rw [Mach.runs_ids_stopRun]; exact h t (List.mem_cons_of_mem _ ht))

/-- Updates of streams change nothing else. -/
theorem Mach.modStreams_eq (f : Stream → Stream) (l : List Nat) : ∀ m : Mach,
    l.foldl (fun (acc : Mach) k => acc.modStream k f) m = { m with streams := (l.foldl (fun (acc : Mach) k => acc.modStream k f) m).streams } := by
  induction l with
  | nil => exact fun _ => rfl
  | cons k l ih => exact fun m => ih (m.modStream k f)

/-- The bit of cluster `cl` cleared in every CLMASK, and the host told (R369, R370). -/
def Mach.clusterLeft (m : Mach) (cl : Nat) : Mach :=
  ((List.range 16).foldl (fun (acc : Mach) k => acc.modStream k (fun t => { t with cfg := setField t.cfg (20 + cl) 1 (0 : BitVec 1) })) m).raiseIrq
    (m.pkg.vector 3)

/-- The runs that hold a part of cluster `cl`. -/
def Mach.clusterHolders (m : Mach) (cl : Nat) : List Run := m.runs.filter (fun q => q.placed && q.recs.any (fun e => e.cluster == cl))

theorem Mach.retireCluster_eq (m : Mach) (cl : Nat) : m.retireCluster cl = (m.clusterLeft cl).stopRuns (m.clusterHolders cl) := rfl

theorem Mach.clusterLeft_eq (m : Mach) (cl : Nat) :
    m.clusterLeft cl = { m with streams := (m.clusterLeft cl).streams, irqs := m.irqs ++ [m.pkg.vector 3] } := by
  have h := Mach.modStreams_eq (fun t => { t with cfg := setField t.cfg (20 + cl) 1 (0 : BitVec 1) }) (List.range 16) m
  unfold Mach.clusterLeft
  generalize (List.range 16).foldl (fun (acc : Mach) k => acc.modStream k _) m = t at h ⊢
  rw [h]
  rfl

theorem Mach.clusterLeft_stream (m : Mach) (cl : Nat) {j : Nat} (h : j < 16) :
    (m.clusterLeft cl).stream j = { m.stream j with cfg := setField (m.stream j).cfg (20 + cl) 1 (0 : BitVec 1) } := by
  have hraise : ∀ (t : Mach) (v : BitVec 8), (t.raiseIrq v).stream j = t.stream j := fun _ _ => rfl
  rw [Mach.clusterLeft, hraise, Mach.stream_modStreams, if_pos h]

theorem Mach.retireCluster_mem (m : Mach) (cl : Nat) : (m.retireCluster cl).mem = m.mem := by
  rw [Mach.retireCluster_eq, Mach.stopRuns_mem, Mach.clusterLeft_eq]

theorem Mach.retireCluster_cores (m : Mach) (cl : Nat) : (m.retireCluster cl).cores = m.cores := by
  rw [Mach.retireCluster_eq, Mach.stopRuns_cores, Mach.clusterLeft_eq]

/-- With no run that holds a part of the cluster no context changes. -/
theorem Mach.retireCluster_ctxs {m : Mach} {cl : Nat} (h : m.clusterHolders cl = []) : (m.retireCluster cl).ctxs = m.ctxs := by
  rw [Mach.retireCluster_eq, h, Mach.stopRuns_nil, Mach.clusterLeft_eq]

end Sys2Proof.Machine

namespace Sys2Proof.Claims

open Sys2Proof.Machine

theorem mem_clusterHolders {m : Mach} {cl : Nat} {q : Run} : q ∈ m.clusterHolders cl ↔ q ∈ m.runs ∧ holdsCluster q cl := by
  simp [Mach.clusterHolders, holdsCluster]

/-- What is left of a cluster that is retired (R369). -/
theorem clusterRetired_retireCluster (m : Mach) (cl : Nat) : clusterRetired m (m.retireCluster cl) cl := by
  have hleft := Mach.clusterLeft_eq m cl
  have hruns : (m.clusterLeft cl).runs = m.runs := by rw [hleft]
  have hctxs : (m.clusterLeft cl).ctxs = m.ctxs := by rw [hleft]
  have hctx : ∀ x, (m.clusterLeft cl).ctx x = m.ctx x := fun x => by simp only [Mach.ctx, hctxs]
  rw [Mach.retireCluster_eq]
  refine ⟨?_, fun j hj b hb => ?_, fun q hq hc => ?_, fun x hx => ?_⟩
  · obtain ⟨more, hi, hnil⟩ := Mach.stopRuns_irqs (l := m.clusterHolders cl) (m.clusterLeft cl)
    refine ⟨more, ?_, fun hno => hnil (List.eq_nil_iff_forall_not_mem.mpr fun q hq => ?_)⟩
    · rw [hi, hleft]
      exact List.append_assoc ..
    · obtain ⟨hq, hc⟩ := mem_clusterHolders.mp hq
      exact hno q hq hc
  · have hs : ((m.clusterLeft cl).stopRuns (m.clusterHolders cl)).stream j = (m.clusterLeft cl).stream j := by
      simp only [Mach.stream, Mach.stopRuns_streams]
    rw [hs, Mach.clusterLeft_stream m cl hj]
    exact getLsbD_setField_zero _ _ _ hb
  · refine Mach.hasStopped_stopRuns (mem_clusterHolders.mpr ⟨hq, hc⟩) (fun p hp => ?_)
    rw [hruns]
    exact List.mem_map_of_mem (mem_clusterHolders.mp hp).1
  · refine (Mach.ctx_stopRuns fun q hq => ?_).trans (hctx x)
    obtain ⟨hq, hc⟩ := mem_clusterHolders.mp hq
    rw [hctx x]
    exact hx q hq hc

/-! ### Self-tests -/

theorem unitCore_eq_some_iff {r : Resource} {u k : Nat} : unitCore r u = some k ↔ partOfCore r u k := by
  cases r <;> simp [unitCore, partOfCore, eq_comm]

theorem holdsUnit_iff {e : Entry} {r : Resource} {u : Nat} : e.holdsUnit r u = true ↔ entryHolds e r u := by
  cases r with
  | curve =>
    simp only [Entry.holdsUnit, entryHolds]
    split <;> exact Iff.rfl
  | registers | tile | stone => exact Iff.rfl
  | _ => exact iff_of_true rfl trivial

/-- A part of a core is free when no run's record on that core holds it (R18, R369). -/
theorem holds_part_eq_false_iff {m : Mach} {r : Resource} {u k : Nat} (h : partOfCore r u k) : m.holds r u = false ↔ partFree m r u k := by
  have hu : ∀ q, m.heldIn q r u = q.recs.any (fun e => 8 * e.cluster + e.core == k && e.holdsUnit r u) := fun q => by
    simp only [Mach.heldIn, unitCore_eq_some_iff.mpr h]
  simp only [Mach.holds, hu, List.any_eq_false, Bool.and_eq_true, List.any_eq_true, beq_iff_eq, holdsUnit_iff, not_and, not_exists, partFree]

theorem coreHeld_iff {m : Mach} {k : Nat} : m.coreHeld k = true ↔ ¬ coreFree m k := by
  simp [Mach.coreHeld, coreFree]

section
variable {s : State} {r : Resource} {u : Nat}

theorem selfTest_stays (h : (r, u) ∉ s.m.pkg.tests ∨ s.m.holds r u = true) : happens (.targetedSelfTest r u) s s.m := by
  refine happens_of_none (exec_targetedSelfTest ..) (if_pos ?_)
  simpa using h

/-- A test that is due of a resource which no run holds is made (R369). -/
theorem selfTest_eq {m : Mach} (hd : (r, u) ∈ m.pkg.tests) (hf : m.holds r u = false) : m.selfTest r u =
    some (if Config.lastingFault m.tick && !(unitCore r u).any (fun k => (m.core k).dead) then (testDone m r u).repair r u
      else testDone m r u) := by
  have hno : ¬ (!m.pkg.tests.contains (r, u) || m.holds r u) = true := by simp [hd, hf]
  have ht : m.pkg.tests.filter (fun t => t != (r, u)) = m.pkg.tests.filter (fun t => decide (t ≠ (r, u))) := filter_bne_eq id _ _
  rw [Mach.selfTest, if_neg hno, ht]
  rfl

theorem selfTest_soft (ha : awake s) (hd : (r, u) ∈ s.m.pkg.tests) (hf : s.m.holds r u = false)
    (h : ¬ Config.lastingFault s.m.tick = true ∨ ∃ k, unitCore r u = some k ∧ (s.m.core k).dead = true) :
    happens (.targetedSelfTest r u) s (testDone s.m r u) := by
  refine happens_of_some (exec_targetedSelfTest ..) ha ((selfTest_eq hd hf).trans (congrArg some (if_neg ?_)))
  rcases h with h | ⟨k, hk, hdead⟩
  · simp [h]
  · simp [hk, hdead]

/-- A lasting fault is repaired, but not in a core that is dead. -/
theorem selfTest_lasting (ha : awake s) (hd : (r, u) ∈ s.m.pkg.tests) (hf : s.m.holds r u = false) (hl : Config.lastingFault s.m.tick = true)
    (hk : ∀ k, unitCore r u = some k → (s.m.core k).dead = false) : happens (.targetedSelfTest r u) s ((testDone s.m r u).repair r u) := by
  refine happens_of_some (exec_targetedSelfTest ..) ha ((selfTest_eq hd hf).trans (congrArg some (if_pos ?_)))
  cases hu : unitCore r u with
  | none => simp [hl]
  | some k => simp [hl, hk k hu]

/-- A resource that no repair changes: the test is made, whatever it finds. -/
theorem selfTest_kept (ha : awake s) (hd : (r, u) ∈ s.m.pkg.tests) (hf : s.m.holds r u = false) (hu : unitCore r u = none)
    (hr : (testDone s.m r u).repair r u = testDone s.m r u) : happens (.targetedSelfTest r u) s (testDone s.m r u) := by
  by_cases hl : Config.lastingFault s.m.tick = true
  · exact hr ▸ selfTest_lasting ha hd hf hl (fun k hk => by rw [hu] at hk; cases hk)
  · exact selfTest_soft ha hd hf (.inl hl)

theorem selfTest_part_soft (ha : awake s) (hd : (r, u) ∈ s.m.pkg.tests) {k : Nat} (hp : partOfCore r u k) (hf : partFree s.m r u k)
    (h : ¬ Config.lastingFault s.m.tick = true ∨ (s.m.core k).dead = true) : happens (.targetedSelfTest r u) s (testDone s.m r u) :=
  selfTest_soft ha hd ((holds_part_eq_false_iff hp).mpr hf) (h.imp_right (fun hk => ⟨k, unitCore_eq_some_iff.mpr hp, hk⟩))

theorem selfTest_part_lasting (ha : awake s) (hd : (r, u) ∈ s.m.pkg.tests) {k : Nat} (hp : partOfCore r u k) (hf : partFree s.m r u k)
    (hl : Config.lastingFault s.m.tick = true) (hk : (s.m.core k).dead = false) :
    happens (.targetedSelfTest r u) s ((testDone s.m r u).repairCore r u k) := by
  have hu := unitCore_eq_some_iff.mpr hp
  have hr : (testDone s.m r u).repair r u = (testDone s.m r u).repairCore r u k := by simp only [Mach.repair, hu]
  rw [← hr]
  exact selfTest_lasting ha hd ((holds_part_eq_false_iff hp).mpr hf) hl (fun j hj => by rw [hu] at hj; cases hj; exact hk)

end

/-- A row of a stone takes a spare row while one is left (R369). -/
theorem repairCore_row {m : Mach} {u k : Nat} (h : kgetD 0 u m.pkg.spareRows < 8) : m.repairCore .stone u k =
    { m with pkg := { m.pkg with spareRows := kput u (kgetD 0 u m.pkg.spareRows + 1) m.pkg.spareRows } } := if_pos ⟨rfl, h⟩

/-- All else takes a spare core. -/
theorem repairCore_core {m : Mach} {r : Resource} {u k : Nat} (h : r ≠ .stone ∨ 8 ≤ kgetD 0 u m.pkg.spareRows) :
    m.repairCore r u k = m.substitute k := by
  refine if_neg (fun hc => ?_)
  obtain ⟨hr, hlt⟩ := hc
  rcases h with h | h
  · exact h hr
  · exact absurd hlt (Nat.not_lt.mpr h)

theorem substitute_waits {m : Mach} {k : Nat} (h : k ∈ m.pkg.repairs) : m.substitute k = m := if_pos (by simpa using h)

theorem substitute_spare {m : Mach} {k : Nat} (h : k ∉ m.pkg.repairs) (hs : kgetD 0 (k / 64) m.pkg.spareCores < 4) : m.substitute k =
    { m with pkg := { m.pkg with
      spareCores := kput (k / 64) (kgetD 0 (k / 64) m.pkg.spareCores + 1) m.pkg.spareCores
      repairs := if m.coreHeld k then m.pkg.repairs ++ [k] else m.pkg.repairs } } :=
  (if_neg (by simpa using h)).trans (if_pos (decide_eq_true hs))

/-- The machine after the retirement of core `k`, for which no spare is left (R369). -/
def retireCore (m : Mach) (k : Nat) : Mach := (m.modCore k (fun c => { c with dead := true })).retireCluster (k / 8)

theorem substitute_none {m : Mach} {k : Nat} (h : k ∉ m.pkg.repairs) (hs : 4 ≤ kgetD 0 (k / 64) m.pkg.spareCores) :
    m.substitute k = retireCore m k :=
  (if_neg (by simpa using h)).trans (if_neg (by simpa [Pkg.spareCore] using hs))

/-- A spare lane of the direction, and the link retrains (R369). -/
theorem repair_lane_tx {m : Mach} {u : Nat} (hu : u % 2 = 0) (h : (m.pkg.port (u / 2)).spareTx < 2) : m.repair .lane u =
    portWith m (u / 2) { m.pkg.port (u / 2) with spareTx := (m.pkg.port (u / 2)).spareTx + 1, training := true } := by
  have hb : (u % 2 == 0) = true := beq_iff_eq.mpr hu
  simp only [Mach.repair, unitCore, hb, if_true, if_pos h]
  rfl

theorem repair_lane_rx {m : Mach} {u : Nat} (hu : u % 2 = 1) (h : (m.pkg.port (u / 2)).spareRx < 2) : m.repair .lane u =
    portWith m (u / 2) { m.pkg.port (u / 2) with spareRx := (m.pkg.port (u / 2)).spareRx + 1, training := true } := by
  have hb : (u % 2 == 0) = false := beq_eq_false_iff_ne.mpr (by omega)
  simp only [Mach.repair, unitCore, hb, Bool.false_eq_true, if_false, if_pos h]
  rfl

/-- A lane beyond the spares is left (log 60). -/
theorem repair_lane_none {m : Mach} {u : Nat} (h : (if u % 2 = 0 then (m.pkg.port (u / 2)).spareTx else (m.pkg.port (u / 2)).spareRx) ≥ 2) :
    m.repair .lane u = m := by
  refine if_neg (fun hc => ?_)
  simp only [beq_iff_eq] at hc
  exact absurd hc (Nat.not_lt.mpr h)

/-- Such a core is dead, its cluster retired, and the rest of the machine is as it was (R369). -/
theorem retireCore_effect (m : Mach) (k : Nat) : ((retireCore m k).core k).dead = true ∧ (∀ j, j ≠ k → (retireCore m k).core j = m.core j) ∧
    (retireCore m k).mem = m.mem ∧ clusterRetired m (retireCore m k) (k / 8) := by
  let d := m.modCore k (fun c => { c with dead := true })
  have hcore : ∀ j, (retireCore m k).core j = d.core j := fun j => by rw [retireCore, Mach.core, Mach.retireCluster_cores, Mach.core]
  refine ⟨?_, fun j hj => ?_, Mach.retireCluster_mem .., clusterRetired_retireCluster d (k / 8)⟩
  · rw [hcore, Mach.core_modCore_same]
  · rw [hcore, Mach.core_modCore_other hj]

theorem holds_scratchCluster {m : Mach} {u : Nat} (h : ∀ q ∈ m.runs, q.placed = true → ∀ e ∈ q.recs, e.cluster ≠ u) :
    m.holds .scratchCluster u = false := by
  simp only [Mach.holds, Mach.heldIn, unitCore, List.any_eq_false, Bool.and_eq_true, List.any_eq_true, beq_iff_eq, not_and, not_exists]
  exact h

theorem holds_hbmRow {m : Mach} {u : Nat} (h : ∀ q ∈ m.runs, q.placed = true → kget u m.pkg.part ≠ some q.part) : m.holds .hbmRow u = false := by
  simp only [Mach.holds, Mach.heldIn, unitCore, List.any_eq_false, Bool.and_eq_true, beq_iff_eq, not_and]
  exact h

theorem holds_lane (m : Mach) (u : Nat) : m.holds .lane u = false := by simp [Mach.holds, Mach.heldIn, unitCore]
theorem holds_cxl (m : Mach) (u : Nat) : m.holds .cxl u = false := by simp [Mach.holds, Mach.heldIn, unitCore]

theorem testsRepairOrRetire : TestsRepairOrRetire := by
  intro s r u ha
  refine ⟨fun k hd hp hf => ?_, fun hd hr hf => ?_, fun hd hr => ?_, fun hd hr hf => ?_, fun hd hr => ?_, fun hd => ?_, fun k hp hf => ?_⟩
  · intro used core
    let m1 := testDone s.m r u
    have hcore (hl : Config.lastingFault s.m.tick = true) (hk : (s.m.core k).dead = false) (hc : core) :
        happens (.targetedSelfTest r u) s (m1.substitute k) :=
      repairCore_core (m := m1) hc ▸ selfTest_part_lasting ha hd hp hf hl hk
    refine ⟨selfTest_part_soft ha hd hp hf, fun hl hk hc hw => ?_, fun hl hk hc hw hu => ?_, fun hl hk hc hw hu => ?_, fun hl hk hs hu => ?_⟩
    · have h := hcore hl hk hc
      rwa [substitute_waits (m := m1) hw] at h
    · have h := substitute_spare (m := m1) hw hu ▸ hcore hl hk hc
      refine ⟨fun hfree => ?_, fun hheld => ?_⟩
      · have hno : m1.coreHeld k = false := Bool.eq_false_iff.mpr fun hh => coreHeld_iff.mp hh hfree
        rwa [hno] at h
      · have hyes : m1.coreHeld k = true := coreHeld_iff.mpr hheld
        rwa [hyes] at h
    · exact ⟨_, substitute_none (m := m1) hw hu ▸ hcore hl hk hc, retireCore_effect m1 k⟩
    · subst hs
      exact repairCore_row (m := m1) (k := k) hu ▸ selfTest_part_lasting ha hd hp hf hl hk
  · subst hr
    have hfree := holds_scratchCluster hf
    refine ⟨fun hl => selfTest_soft ha hd hfree (.inl hl), fun hl => ⟨_, selfTest_lasting ha hd hfree hl nofun, ?_, ?_, ?_, ?_⟩⟩
    · exact Mach.retireCluster_mem ..
    · refine Mach.retireCluster_ctxs (m := testDone s.m .scratchCluster u) (List.eq_nil_iff_forall_not_mem.mpr fun q hq => ?_)
      obtain ⟨hq, hplaced, e, he, hcl⟩ := mem_clusterHolders.mp hq
      exact hf q hq hplaced e he hcl
    · exact Mach.retireCluster_cores ..
    · exact clusterRetired_retireCluster (testDone s.m .scratchCluster u) u
  · subst hr
    have hfree := holds_lane s.m u
    have hmade := fun hl => selfTest_lasting ha hd hfree hl nofun
    refine ⟨fun hl => selfTest_soft ha hd hfree (.inl hl), fun hl hu h => ?_, fun hl hu h => ?_, fun hl h => ?_⟩
    · exact repair_lane_tx (m := testDone s.m .lane u) hu h ▸ hmade hl
    · exact repair_lane_rx (m := testDone s.m .lane u) hu h ▸ hmade hl
    · exact repair_lane_none (m := testDone s.m .lane u) h ▸ hmade hl
  · subst hr
    exact selfTest_kept ha hd (holds_hbmRow hf) rfl rfl
  · subst hr
    exact selfTest_kept ha hd (holds_cxl s.m u) rfl rfl
  · exact selfTest_stays (.inl hd)
  · exact selfTest_stays (.inr (by simpa using fun hh => hf ((holds_part_eq_false_iff hp).mp hh)))

/-- Settles O50: its three parts, each from what the event does to the machine in each of its cases. -/
theorem resetLifeCycleErrorsAndTests : Obligations.ResetLifeCycleErrorsAndTests :=
  ⟨resetAndLifeCycle, errorsStrikeTheirReaders, testsRepairOrRetire⟩

end Sys2Proof.Claims
end

section
/-! SUPPORT. The state after reset (R13, R26, R149, R167, R358, R361, R368, R370): the statement `Obligations.ResetLeavesTheMachine`. -/

namespace Sys2Proof.Machine

@[simp] theorem Mach.reset_ctx (x : Nat) : Mach.reset.ctx x = Ctx.zero := rfl
@[simp] theorem Mach.reset_stream (k : Nat) : Mach.reset.stream k = Stream.zero := rfl

/-- Every general register of a context reads 0 after reset, `g0` as it always does (R74, R167). -/
@[simp] theorem Regs.rg_zeroed (r : BitVec 6) : Regs.zero.rg r = 0 := by
  unfold Regs.rg
  split <;> rfl

end Sys2Proof.Machine

namespace Sys2Proof.Claims

open Sys2Proof.Machine

/-- A stream after reset: sequence number 1, an empty ring, idle, no command (R13). -/
theorem stream_zero : Stream.zero.seq = 1 ∧ Stream.zero.head = 0 ∧ Stream.zero.end_ = 0 ∧ stateOf Stream.zero = 0 ∧
    Stream.zero.await = none := ⟨rfl, rfl, rfl, rfl, rfl⟩

/-- Settles O60: each unit reads as its reset record, no list holds anything, and the package is `Pkg.reset`. -/
theorem resetLeavesTheMachine : Obligations.ResetLeavesTheMachine := by
  refine ⟨rfl, rfl, fun x => ?_, fun _ => rfl, rfl, rfl, rfl, fun k => ?_, fun x r => ?_, fun x k => ?_, fun _ => rfl, rfl, rfl, rfl, rfl, rfl, rfl,
    fun k => ?_, fun t => ?_, fun q => ?_, fun k => ?_, rfl, fun t => ?_⟩
  · exact congrArg Ctx.status (Mach.reset_ctx x)
  · exact (Mach.reset_stream k).symm ▸ stream_zero
  · exact (congrArg (fun c => c.regs.rg r) (Mach.reset_ctx x)).trans (Regs.rg_zeroed r)
  · exact ⟨rfl, rfl⟩
  · exact ⟨rfl, rfl, rfl, rfl⟩
  · exact ⟨rfl, rfl⟩
  · exact ⟨rfl, rfl, rfl⟩
  · exact ⟨rfl, rfl⟩
  · rfl

end Sys2Proof.Claims
end

section
/-! SUPPORT. Strides, order tokens, waits, team barriers and the end of a context (R23, R24, R36, R44, R132, R133, R186): the statement
`Obligations.StridesWaitsBarriersAndEnds`, from the checks of a C word and from what an issue commits. -/

namespace Sys2Proof.Machine

/-! ### The checks of a C word -/

/-- A C word that no check refuses acts. -/
theorem State.guardC_acts {s : State} {op n : Nat} {lits : Bool} {k : Res} (hl : lits = true) (hc : s.checkC op n = none) :
    s.guardC op n lits k = k := by
  simp [State.guardC, hl, hc]

/-- A word that every C slot may hold: no repeat, delay issue or mode forbids it (R52, R58, R84, R313). -/
def freeOp (op : Nat) : Bool := !noRepeat op && !noDelay op && !handlerOnly op 0 && !neverIn true op && !readOnly false op 0 && !readOnly true op 0

theorem State.checkC_of_freeOp {s : State} {op : Nat} (h : freeOp op = true) : s.checkC op 0 = none := by
  simp only [freeOp, Bool.and_eq_true, Bool.not_eq_true'] at h
  obtain ⟨⟨⟨⟨⟨hrep, hdly⟩, hh⟩, hn⟩, hr⟩, hr'⟩ := h
  have hnever : neverIn s.oc.trp.handler op = false := by cases s.oc.trp.handler <;> [rfl; exact hn]
  have hread : readOnly s.oc.trp.handler op 0 = false := by cases s.oc.trp.handler <;> assumption
  simp [State.checkC, hrep, hdly, hh, hnever, hread]

/-- A word that run code may hold outside repeats: `tbar`, `tail`, `end` (R52, R313). -/
theorem State.checkC_of_runOp {s : State} {op : Nat} (hop : op = 0x1A ∨ op = 0x1C ∨ op = 0x1E) (hrep : s.iss.hdr.rep = 0)
    (hrun : s.oc.trp.handler = false) : s.checkC op 0 = none := by
  have hdly : noDelay op = false := by rcases hop with rfl | rfl | rfl <;> decide
  have hh : handlerOnly op 0 = false := by rcases hop with rfl | rfl | rfl <;> decide
  have hread : readOnly false op 0 = false := by rcases hop with rfl | rfl | rfl <;> decide
  simp [State.checkC, hrep, hrun, hdly, hh, hread, neverIn]

/-! ### What an issue commits to the store buffer of its team -/

/-- The end of a context (R23) is seen by its spin monitor as any other issue. -/
theorem State.monitor_status (s : State) (on : List Cur) (c : Ctx) : (s.monitor on c).status = c.status := by
  simp only [State.monitor]
  split <;> split <;> rfl

theorem State.wg_status (s : State) (n : BitVec 6) (v : W64) (x : Nat) : ((s.wg n v).m.ctx x).status = (s.m.ctx x).status := by
  rw [State.wg_m]
  by_cases hx : x = s.cx
  · subst hx
    rw [Mach.ctx_modCtx_same]
  · rw [Mach.ctx_modCtx_other hx]

theorem State.spinPark_gops (s : State) : s.spinPark.m.gops = s.m.gops := by
  simp only [State.spinPark]
  split
  · split <;> rfl
  · rfl

/-- A team's contexts are what they were when another field of the team has been changed. -/
theorem Mach.team?_modTeam_same {m : Mach} {r cl : Nat} {t : Team} {f : Team → Team} (h : m.team? r cl = some t)
    (hf : ∀ u : Team, (f u).rid = u.rid ∧ (f u).cluster = u.cluster) : (m.modTeam r cl f).team? r cl = some (f t) := by
  simp only [Mach.team?, Mach.modTeam, modWhere, List.find?_map] at h ⊢
  have hp : ((fun u : Team => u.rid == r && u.cluster == cl) ∘ fun a => if (a.rid == r && a.cluster == cl) = true then f a else a) =
      fun u : Team => u.rid == r && u.cluster == cl := by
    funext u
    simp only [Function.comp]
    split
    · rw [(hf u).1, (hf u).2]
    · rfl
  have ht := List.find?_some h
  rw [hp, h, Option.map_some]
  exact congrArg some (if_pos ht)

/-- Whether the store buffer of a team is committed as its last context ends (R23). -/
theorem Mach.commitEnded_gops {m : Mach} {rid cl : Nat} {t : Team} (h : m.team? rid cl = some t) :
    (m.commitEnded rid cl).gops = if ∀ x ∈ t.ctxs, (m.ctx x).status = .ended then (m.commit rid cl).gops else m.gops := by
  have hall : (t.ctxs.all fun x => (m.ctx x).status == .ended) = true ↔ ∀ x ∈ t.ctxs, (m.ctx x).status = .ended := by simp
  simp only [Mach.commitEnded, h, hall]
  split <;> rfl

/-- What the issue leaves of its context before the team's store buffer may be committed: the link, the control state, the writes of the group and
the spin monitor (R48, R53, R130). -/
def State.linked (s : State) : State := if s.linkDue then s.wg 62 s.iss.next else s
def State.settled (s : State) (cur on : List Cur) (b : Bundle) (ws : List W32) (lb : RMap 64) : State :=
  s.linked.modC (fun c =>
    let ctl := s.committed cur b lb c.ctl
    s.monitor on { c with
      ctl := ctl
      ibuf := if ctl.nlev = 0 then [] else if s.oc.ctl.nlev = 0 then c.ibuf else kput s.iss.addr.toNat ws c.ibuf
      groupW := c.groupW ++ (s.writes on).flatten })
def State.wanting (s : State) (cur on : List Cur) (b : Bundle) (ws : List W32) (lb : RMap 64) : State :=
  if on.any s.commitsTwice then
    (s.settled cur on b ws lb).mapM (fun m => m.modTeam s.oc.rid (clusterOf s.cx) (fun t => { t with full := true }))
  else s.settled cur on b ws lb

theorem State.commit_gops_of_ended {s : State} (h : s.nc.status = .ended) (cur on : List Cur) (b : Bundle) (ws : List W32) (lb : RMap 64) :
    (s.commit cur on b ws lb).m.gops = ((s.wanting cur on b ws lb).m.commitEnded s.oc.rid (clusterOf s.cx)).gops := by
  have hb : (s.nc.status == Status.ended) = true := beq_iff_eq.mpr h
  have h4 : s.commit cur on b ws lb =
      (if s.iss.hdr.stop then ((s.wanting cur on b ws lb).mapM (fun m => m.commitEnded s.oc.rid (clusterOf s.cx))).mapM (fun m => m.boundary s.cx)
        else (s.wanting cur on b ws lb).mapM (fun m => m.commitEnded s.oc.rid (clusterOf s.cx))).spinPark := by
    simp only [State.commit, hb, if_true]
    rfl
  rw [h4, State.spinPark_gops]
  split
  · exact Mach.boundary_gops _ _
  · rfl

theorem State.linked_status (s : State) (x : Nat) : (s.linked.m.ctx x).status = (s.m.ctx x).status := by
  unfold State.linked
  split
  · exact s.wg_status _ _ x
  · rfl

theorem State.linked_cx (s : State) : s.linked.cx = s.cx := by
  unfold State.linked
  split <;> rfl

theorem State.settled_status (s : State) (cur on : List Cur) (b : Bundle) (ws : List W32) (lb : RMap 64) (x : Nat) :
    ((s.settled cur on b ws lb).m.ctx x).status = (s.m.ctx x).status := by
  rw [State.settled, State.modC_m, State.linked_cx]
  by_cases hx : x = s.cx
  · subst hx
    rw [Mach.ctx_modCtx_same, State.monitor_status]
    exact s.linked_status s.cx
  · rw [Mach.ctx_modCtx_other hx]
    exact s.linked_status x

theorem State.wanting_status (s : State) (cur on : List Cur) (b : Bundle) (ws : List W32) (lb : RMap 64) (x : Nat) :
    ((s.wanting cur on b ws lb).m.ctx x).status = (s.m.ctx x).status := by
  unfold State.wanting
  split <;> exact s.settled_status cur on b ws lb x

theorem State.settled_m (s : State) (cur on : List Cur) (b : Bundle) (ws : List W32) (lb : RMap 64) :
    (s.settled cur on b ws lb).m.gops = s.m.gops ∧ (s.settled cur on b ws lb).m.teams = s.m.teams ∧
      (s.settled cur on b ws lb).m.nextId = s.m.nextId := by
  unfold State.settled State.linked
  split <;> exact ⟨rfl, rfl, rfl⟩

theorem State.wanting_m (s : State) (cur on : List Cur) (b : Bundle) (ws : List W32) (lb : RMap 64) :
    (s.wanting cur on b ws lb).m.gops = s.m.gops ∧ (s.wanting cur on b ws lb).m.nextId = s.m.nextId := by
  obtain ⟨hg, -, hn⟩ := s.settled_m cur on b ws lb
  unfold State.wanting
  split <;> exact ⟨hg, hn⟩

theorem State.wanting_team {s : State} {t : Team} (h : s.m.team? s.oc.rid (clusterOf s.cx) = some t) (cur on : List Cur) (b : Bundle)
    (ws : List W32) (lb : RMap 64) :
    ∃ u, (s.wanting cur on b ws lb).m.team? s.oc.rid (clusterOf s.cx) = some u ∧ u.ctxs = t.ctxs := by
  have hs : (s.settled cur on b ws lb).m.team? s.oc.rid (clusterOf s.cx) = some t := by
    rw [← h, Mach.team?, Mach.team?, (s.settled_m cur on b ws lb).2.1]
  unfold State.wanting
  split
  · exact ⟨_, Mach.team?_modTeam_same hs (fun _ => ⟨rfl, rfl⟩), rfl⟩
  · exact ⟨t, hs, rfl⟩

/-! ### A word that first delivers a pending fault -/

theorem State.deliverFirst_none {s : State} (h : s.oc.trp.handler = true ∨ (s.oc.pend.pex = false ∧ s.oc.pend.ptf = false)) (k : Res) :
    s.deliverFirst k = k := by
  rcases h with h | ⟨hx, ht⟩
  · simp [State.deliverFirst, h]
  · simp [State.deliverFirst, hx, ht]

end Sys2Proof.Machine

namespace Sys2Proof.Claims

open Sys2Proof.Machine

theorem otherBarrier_of_sameBarrier {s : State} {k : Nat} (h : sameBarrier s k) : s.otherBarrier k = false := by
  unfold State.otherBarrier
  split
  · rfl
  · next t ht =>
    simp only [List.any_eq_false, Bool.and_eq_true, bne_iff_ne, not_and, not_not]
    exact fun x hx h0 => (h t ht x hx).resolve_left h0

/-- What a rollback takes back is noted in the log of the issuing context's team, but in a handler (R37). -/
theorem undoable_eq_noted (s : State) (u : Undo) : s.mapM (fun m => m.undoable s.cx u) = noted s u := by
  by_cases h : s.nc.trp.handler = true
  · have hm : (s.m.ctx s.cx).trp.handler = true := h
    simp only [noted, h, if_true, State.mapM, Mach.undoable, hm]
  · have hm : ¬ (s.m.ctx s.cx).trp.handler = true := h
    simp only [noted, h, State.mapM, Mach.undoable, hm]
    rfl

/-- Four times a signed field, in 32 bits (R132). -/
theorem stride_of_field (t : BitVec 13) : t.signExtend 32 <<< 2 = BitVec.ofInt 32 (4 * t.toInt) := by
  have h4 : t.signExtend 32 <<< 2 = t.signExtend 32 * 4#32 := by
    rw [BitVec.shiftLeft_eq_mul_twoPow]
    rfl
  rw [h4, BitVec.signExtend, BitVec.ofInt_mul, BitVec.mul_comm]
  rfl

theorem extractLsb'_low (v : W64) : v.extractLsb' 0 32 = BitVec.ofNat 32 (v.toNat % 2 ^ 32) := by
  apply BitVec.eq_of_toNat_eq
  simp

theorem strideTokensAndNop : StridesTokensAndNop := by
  intro s k v t a l
  refine ⟨rfl, ?_, ?_, fun hl ho => ?_⟩
  · refine (State.guardC_acts rfl (State.checkC_of_freeOp rfl)).trans ?_
    rw [stride_of_field]
    rfl
  · refine (State.guardC_acts rfl (State.checkC_of_freeOp rfl)).trans ?_
    rw [extractLsb'_low]
    rfl
  · exact State.guardC_acts (by simp [ho]; exact hl) (State.checkC_of_freeOp rfl)

/-- What the commit of a team's store buffer does to each entry (R23, R239). -/
theorem commit_gops (m : Mach) (rid cl : Nat) : (m.commit rid cl).gops = m.gops.map (fun g =>
    if g.rid = rid ∧ g.cluster = cl ∧ g.committed = false ∧ g.needs = [] then { g with committed := true, batch := m.nextId } else g) := by
  simp only [Mach.commit, Bool.and_eq_true, beq_iff_eq, Bool.not_eq_true', List.isEmpty_iff, and_assoc]

theorem commit_of_ended {s : State} {t : Team} (hst : s.nc.status = .ended) (ht : s.m.team? s.oc.rid (clusterOf s.cx) = some t)
    (cur on : List Cur) (b : Bundle) (ws : List W32) (lb : RMap 64) :
    (s.commit cur on b ws lb).m.gops =
      if ∀ x ∈ t.ctxs, (s.m.ctx x).status = .ended then s.m.gops.map (fun g =>
        if g.rid = s.oc.rid ∧ g.cluster = clusterOf s.cx ∧ g.committed = false ∧ g.needs = [] then
          { g with committed := true, batch := s.m.nextId }
        else g)
      else s.m.gops := by
  obtain ⟨u, hu, hctxs⟩ := State.wanting_team ht cur on b ws lb
  obtain ⟨hg, hn⟩ := s.wanting_m cur on b ws lb
  rw [State.commit_gops_of_ended hst, Mach.commitEnded_gops hu]
  simp only [hctxs, State.wanting_status, commit_gops, hg, hn]

theorem waitsBarriersTailAndEnd : WaitsBarriersTailAndEnd := by
  intro s f a b
  refine ⟨fun h => ?_, fun h => ?_, fun hr hh hp hb => ?_, fun r hr hh hrun hc => ?_, fun r hr hh hrun hc => ?_, fun hr hh hp => ?_,
    fun cur on bundle ws lb t hst ht => commit_of_ended hst ht cur on bundle ws lb⟩
  · have hall : ((List.range 16).all fun k => !f.getLsbD k || s.regs.flag k) = true := by
      simp only [List.all_eq_true, List.mem_range, Bool.or_eq_true, Bool.not_eq_true']
      exact fun k hk => (Bool.eq_false_or_eq_true (f.getLsbD k)).elim (fun e => .inr (h k hk e)) .inl
    exact (State.guardC_acts rfl (State.checkC_of_freeOp rfl)).trans (if_pos hall)
  · obtain ⟨k, hk, hm, hf⟩ := h
    have hall : ¬ ((List.range 16).all fun k => !f.getLsbD k || s.regs.flag k) = true := fun hall => by
      have := List.all_eq_true.mp hall k (List.mem_range.mpr hk)
      simp [hm, hf] at this
    exact (State.guardC_acts rfl (State.checkC_of_freeOp rfl)).trans (if_neg hall)
  · refine (State.guardC_acts rfl (State.checkC_of_runOp (.inl rfl) hr hh)).trans ?_
    rw [State.deliverFirst_none hp, otherBarrier_of_sameBarrier hb]
    rfl
  · refine (State.guardC_acts rfl (State.checkC_of_runOp (.inr (.inl rfl)) hr hh)).trans ?_
    simp only [hrun, hc, Option.isSome_none, Bool.false_eq_true, if_false]
    exact congrArg Host.Outcome.next (undoable_eq_noted (s.mapM fun m => m.modRun r.id fun q => { q with child := some (s.rg a, s.rg b) }) _)
  · refine (State.guardC_acts rfl (State.checkC_of_runOp (.inr (.inl rfl)) hr hh)).trans ?_
    simp only [hrun, hc, if_true]
    rfl
  · refine (State.guardC_acts rfl (State.checkC_of_runOp (.inr (.inr rfl)) hr hh)).trans ?_
    rw [State.deliverFirst_none hp]
    rfl

/-- Settles O8: its two parts, each word from the checks that let it act and the state in which it leaves its context. -/
theorem stridesWaitsBarriersAndEnds : Obligations.StridesWaitsBarriersAndEnds := ⟨strideTokensAndNop, waitsBarriersTailAndEnd⟩

end Sys2Proof.Claims
end

section
/-! SUPPORT. Streams and commands (R13, R15 to R17): the status word by its fields, what a command makes of its stream, and the statement
`Obligations.CommandsAct`. -/

namespace Sys2Proof.Machine

/-- The low bits of a word replaced, by value. -/
theorem toNat_setField_low {w n : Nat} (h : n ≤ w) (v : BitVec w) (x : BitVec n) :
    (setField v 0 n x).toNat = v.toNat / 2 ^ n * 2 ^ n + x.toNat := by
  have hsplit : setField v 0 n x = BitVec.cast (by omega) (v.extractLsb' n (w - n) ++ x) := by
    apply BitVec.eq_of_getLsbD_eq
    intro i hi
    simp only [setField, BitVec.shiftLeft_zero, BitVec.getLsbD_or, BitVec.getLsbD_and, BitVec.getLsbD_not, BitVec.getLsbD_setWidth,
      BitVec.getLsbD_cast, BitVec.getLsbD_append, BitVec.getLsbD_extractLsb', BitVec.getLsbD_allOnes]
    by_cases hn : i < n
    · simp [hi, hn]
    · have hx : x.getLsbD i = false := BitVec.getLsbD_of_ge x i (by omega)
      have e : n + (i - n) = i := by omega
      simp [hi, hn, hx, e, show i - n < w - n by omega]
  rw [hsplit, BitVec.toNat_cast, toNat_append_eq_add, BitVec.extractLsb'_toNat, Nat.shiftRight_eq_div_pow, Nat.mod_eq_of_lt]
  rw [Nat.div_lt_iff_lt_mul (by positivity), ← pow_add, Nat.sub_add_cancel h]
  exact v.isLt

end Sys2Proof.Machine

namespace Sys2Proof.Claims

open Sys2Proof.Machine

/-! ### The status word of a stream (R13) -/

theorem setState_eq (t : Stream) (n : Nat) : t.setState n = { t with stat := stateBits t.stat n } := by
  have h : setField t.stat 0 3 (BitVec.ofNat 3 n) = stateBits t.stat n := by
    apply BitVec.eq_of_toNat_eq
    have hlt := t.stat.isLt
    rw [toNat_setField_low (by decide), stateBits, BitVec.toNat_ofNat, BitVec.toNat_ofNat]
    omega
  rw [Stream.setState, h]

/-- A command's stream as it waits (R15): STATE by what it waits for. -/
theorem wait_eq (t : Stream) (a : Await) : t.wait a = waitsFor a a.state t := setState_eq _ _

theorem complete_eq (t : Stream) : t.complete = completed t := setState_eq _ _

/-- The status word of a faulted stream (R13, R16): FSEQL, LATEF as it was, FCODE and STATE 4. -/
theorem fault_stat (t : Stream) (code : BitVec 8) (fseql : BitVec 32) :
    (t.fault code fseql).stat.toNat = fseql.toNat * 2 ^ 32 + t.stat.toNat / 2 ^ 16 % 2 ^ 16 * 2 ^ 16 + code.toNat * 256 + 4 := by
  have h4 : (4 : BitVec 8).toNat = 4 := rfl
  simp only [Stream.fault, toNat_append_eq_add, BitVec.extractLsb'_toNat, Nat.shiftRight_eq_div_pow, h4]
  omega

theorem fault_eq (t : Stream) (code : BitVec 8) :
    t.fault code 0 = { t with stat := BitVec.ofNat 64 (t.stat.toNat / 2 ^ 16 % 2 ^ 16 * 2 ^ 16 + code.toNat * 256 + 4) } := by
  have h : (t.fault code 0).stat = BitVec.ofNat 64 (t.stat.toNat / 2 ^ 16 % 2 ^ 16 * 2 ^ 16 + code.toNat * 256 + 4) := by
    apply BitVec.eq_of_toNat_eq
    have hc := code.isLt
    have h0 : (0 : BitVec 32).toNat = 0 := rfl
    rw [fault_stat, BitVec.toNat_ofNat, h0]
    omega
  rw [← h]
  rfl

/-- The machine after a stream fault of a command (R16). -/
theorem streamFault_eq (s : State) (k : Nat) (code : BitVec 8) : s.mapM (fun m => m.streamFault k code 0) = faulted s k code.toNat := by
  simp only [State.mapM, Mach.streamFault, fault_eq]
  rfl

/-! ### Commands (R15) -/

theorem command_of_seq {s : State} {k : Nat} (h : bySequencer s k) {lits : Bool} (hl : lits = true) (f : Nat → Stream → Mach → Mach) :
    s.command lits f = .next (s.mapM (fun m => f k (m.stream k) m)) := by
  have ha : s.iss.agent = .seq k := h
  simp only [State.command, ha, hl, if_true]
  rfl

theorem command_of_ctx {s : State} {x : Nat} (h : s.iss.agent = .ctx x) (lits : Bool) (f : Nat → Stream → Mach → Mach) :
    s.command lits f = .next (refusedAt s 2) := by
  simp only [State.command, h]
  rfl

/-- The machine after a command of stream `k` has begun to wait (R15). -/
theorem waits_eq (s : State) (k : Nat) (a : Await) :
    s.mapM (fun m => m.modStream k (fun t => t.wait a)) = streamNow s k (waitsFor a a.state) := by
  rw [funext fun t => wait_eq t a]
  rfl

/-- The run that a record makes as its `launch` is executed (R15, R18, R21). -/
theorem waiting_eq (s : State) (k : Nat) (l : BitVec 5) (pc : W64) (part : Nat) (es : List Entry) :
    Run.waiting s.m.nextId k (s.m.stream k) (s.m.stream k).seq ((s.m.stream k).since.getD s.m.cyc) (s.lit2 l.toNat) (s.lit2 (l.toNat + 2))
      (pc, part, es) = waitingRun s k l pc part es := by
  have ht : (s.m.stream k).tenant = (s.m.stream k).cfg.toNat / 2 ^ 52 % 16 := by
    rw [Stream.tenant, BitVec.extractLsb'_toNat, Nat.shiftRight_eq_div_pow]
  rw [Run.waiting, ht]
  rfl

/-- A `launch` whose record is good (R15): its run waits, and it takes the next position. -/
theorem launch_ok {s : State} {k : Nat} {l : BitVec 5} {pc : W64} {part : Nat} {es : List Entry}
    (h : s.m.readRecord (s.m.stream k) (s.lit2 l.toNat) = .ok (pc, part, es)) :
    (s.m.launch k (s.m.stream k) (s.lit2 l.toNat) (s.lit2 (l.toNat + 2))) = { s.m with
      nextId := s.m.nextId + 1
      runs := s.m.runs ++ [waitingRun s k l pc part es]
      streams := kput k (waitsFor (.placement s.m.nextId) 2 { s.m.stream k with
        seq := (s.m.stream k).seq + 1, open_ := (s.m.stream k).open_ ++ [(s.m.stream k).seq] })
        (kput k { s.m.stream k with seq := (s.m.stream k).seq + 1 } s.m.streams) } := by
  rw [Mach.launch, h, ← waiting_eq]
  simp only [Mach.fresh, Mach.modStream, Mach.stream, kgetD_kput_same, BitVec.add_sub_cancel, wait_eq]
  rfl

section
variable {s : State} {k : Nat} (hk : bySequencer s k)
include hk

theorem exec_launch {l : BitVec 5} (hl : holdsLits s l 4) :
    exec (.launch l) s = .next { s with m := s.m.launch k (s.m.stream k) (s.lit2 l.toNat) (s.lit2 (l.toNat + 2)) } :=
  command_of_seq hk (decide_eq_true (p := l.toNat + 4 ≤ s.iss.hdr.lits.toNat) hl)
    (fun n t => Mach.launch n t (s.lit2 l.toNat) (s.lit2 (l.toNat + 2)))

theorem exec_waitrun {l : BitVec 5} (hl : holdsLits s l 2) (j : BitVec 4) :
    exec (.waitrun j l) s = .next { s with m := s.m.waitrun k (s.m.stream k) j.toNat (s.lit2 l.toNat) } :=
  command_of_seq hk (decide_eq_true (p := l.toNat + 2 ≤ s.iss.hdr.lits.toNat) hl)
    (fun n t => Mach.waitrun n t j.toNat (s.lit2 l.toNat))

theorem exec_signal {l : BitVec 5} (hl : holdsLits s l 4) (v : BitVec 8) (e : BitVec 1) : exec (.signal v e l) s = .next { s with
    m := s.m.signal k (s.m.stream k) (s.lit2 l.toNat) (s.lit2 (l.toNat + 2)) (if e = 1 then some v else none) } :=
  command_of_seq hk (decide_eq_true (p := l.toNat + 4 ≤ s.iss.hdr.lits.toNat) hl)
    (fun n t => Mach.signal n t (s.lit2 l.toNat) (s.lit2 (l.toNat + 2)) (if e = 1 then some v else none))

theorem exec_fence : exec .fence s = .next (streamNow s k (waitsFor .all 3)) :=
  (command_of_seq hk rfl (fun n _ m => m.modStream n (fun t => t.wait .all))).trans (congrArg Host.Outcome.next (waits_eq s k .all))

end

/-- Settles O17: what each command makes of its stream, by the cases of its operands. -/
theorem commandsAct : Obligations.CommandsAct := by
  intro s k l j v e
  refine ⟨fun hk => ⟨fun hl => ⟨fun pc part es h => ?_, fun c h => ?_⟩, fun hl => ⟨fun h0 => ?_, fun h0 hj hn => ?_, fun h0 hn => ?_⟩,
    fun hl => ⟨fun g ha hg => ?_, fun hg => ?_⟩, exec_fence hk⟩, fun x hx => ⟨command_of_ctx hx _ (fun n t => Mach.launch n t _ _),
      command_of_ctx hx _ (fun n t => Mach.waitrun n t _ _), command_of_ctx hx _ (fun n t => Mach.signal n t _ _ _),
      command_of_ctx hx _ (fun n _ m => m.modStream n _)⟩⟩
  · refine ⟨_, exec_launch hk hl, ?_⟩
    rw [launch_ok h]
    exact ⟨rfl, kgetD_kput_same .., rfl, rfl, rfl⟩
  · rw [exec_launch hk hl, ← streamFault_eq, Mach.launch, h]
    rfl
  · rw [exec_waitrun hk hl, Mach.waitrun, if_pos h0, funext complete_eq]
    rfl
  · have hc : j.toNat = k ∧ (s.m.stream k).seq ≤ s.lit2 l.toNat := ⟨hj, hn⟩
    rw [exec_waitrun hk hl, Mach.waitrun, if_neg h0, if_pos hc]
    exact congrArg Host.Outcome.next (streamFault_eq s k 5)
  · have hc : ¬ (j.toNat = k ∧ (s.m.stream k).seq ≤ s.lit2 l.toNat) := fun ⟨hj, hle⟩ =>
      hn.elim (· hj) (fun hlt => absurd (BitVec.le_def.mp hle) (Nat.not_le.mpr hlt))
    rw [exec_waitrun hk hl, Mach.waitrun, if_neg h0, if_neg hc]
    exact congrArg Host.Outcome.next (waits_eq s k _)
  · rw [exec_signal hk hl, Mach.signal, if_neg (by simp [ha]), hg]
    exact congrArg Host.Outcome.next (waits_eq s k (.store g.pa _ _))
  · rw [exec_signal hk hl, Mach.signal]
    refine Eq.trans ?_ (congrArg Host.Outcome.next (streamFault_eq s k 6))
    rcases hg with ha | hg
    · rw [if_pos ha]
      rfl
    · rw [hg, ite_self]
      rfl

end Sys2Proof.Claims
end

section
/-! SUPPORT. What the clearing of a port leaves (R290, R298): nothing under way, waiting or partial there, a notice for each packet, and the rest
of the machine as it was. -/

namespace Sys2Proof.Machine

/-! ### Notices -/

/-- `t` is `m` with some messages more, inside the package and on their way out: the notices that are sent (R298). -/
def Mach.Tells (m t : Mach) : Prop :=
  ∃ a b : List Sent, t = { m with net := m.net ++ a, out := m.out ++ b }

theorem Mach.Tells.refl (m : Mach) : m.Tells m :=
  ⟨[], [], by simp only [List.append_nil]⟩

theorem Mach.Tells.trans {m t u : Mach} (h : m.Tells t) (h' : t.Tells u) : m.Tells u := by
  obtain ⟨a, b, rfl⟩ := h
  obtain ⟨c, d, rfl⟩ := h'
  exact ⟨a ++ c, b ++ d, by simp only [List.append_assoc]⟩

theorem Mach.Tells.foldl {α : Type} {f : Mach → α → Mach} (hf : ∀ (m : Mach) (a : α), m.Tells (f m a)) (l : List α) : ∀ m : Mach, m.Tells (l.foldl f m) := by
  induction l with
  | nil => exact Mach.Tells.refl
  | cons a l ih => exact fun m => (hf m a).trans (ih (f m a))

theorem Mach.Tells.mem_net {m t : Mach} (h : m.Tells t) {x : Sent} (hx : x ∈ m.net) : x ∈ t.net := by
  obtain ⟨a, b, rfl⟩ := h
  exact List.mem_append_left a hx

theorem Mach.Tells.mem_out {m t : Mach} (h : m.Tells t) {x : Sent} (hx : x ∈ m.out) : x ∈ t.out := by
  obtain ⟨a, b, rfl⟩ := h
  exact List.mem_append_left b hx

/-- Notices change nothing but the messages under way. -/
theorem Mach.Tells.same {m t : Mach} (h : m.Tells t) : t = { m with net := t.net, out := t.out } := by
  obtain ⟨a, b, rfl⟩ := h
  rfl

theorem Mach.Tells.pkg {m t : Mach} (h : m.Tells t) : t.pkg = m.pkg := by rw [h.same]

theorem Mach.tells_post (m : Mach) (c d : BitVec 12) (n : Notice) : m.Tells (m.post c (.undeliverable d n)) := by
  unfold Mach.post
  split
  · exact ⟨[.undeliverable d n], [], by simp only [List.append_nil]⟩
  · split
    · exact ⟨[], [.undeliverable d n], by simp only [List.append_nil]⟩
    · exact Mach.Tells.refl m

theorem Mach.tells_notices (m : Mach) (l : List Flit) : m.Tells (m.notices l) := Mach.Tells.foldl (fun t _ => t.tells_post _ _ _) l m

theorem Mach.tells_tellSelf (m : Mach) (n : Notice) : m.Tells (m.tellSelf n) :=
  ⟨[.undeliverable m.pkg.chip n], [], by simp only [List.append_nil, Mach.tellSelf]⟩

theorem Mach.tells_tellKept (m : Mach) (e : KeptFlit) : m.Tells (m.tellKept e) := by
  unfold Mach.tellKept
  split
  · exact m.tells_tellSelf _
  · exact Mach.Tells.refl m
  · exact m.tells_notices _

/-- The notice that a fold gives for one of its elements stands at its end. -/
theorem Mach.Tells.foldl_mem {α : Type} {f : Mach → α → Mach} {P : Mach → Prop} {l : List α} {a : α} (hf : ∀ (m : Mach) (a : α), m.Tells (f m a))
    (hP : ∀ m t : Mach, m.Tells t → P m → P t) (ha : a ∈ l) (h : ∀ m, P (f m a)) (m : Mach) : P (l.foldl f m) := by
  induction l generalizing m with
  | nil => cases ha
  | cons b l ih =>
    rcases List.mem_cons.mp ha with rfl | ha
    · exact hP _ _ (Mach.Tells.foldl hf l (f m a)) (h m)
    · exact ih ha (f m b)

theorem Mach.mem_net_tellSelf (m : Mach) (n : Notice) : .undeliverable m.pkg.chip n ∈ (m.tellSelf n).net :=
  List.mem_append_right _ (List.mem_singleton.mpr rfl)

/-- Each notice of a list reaches this package itself. -/
theorem Mach.mem_net_tellSelfs {l : List Notice} {n : Notice} (h : n ∈ l) (m : Mach) :
    .undeliverable m.pkg.chip n ∈ (l.foldl Mach.tellSelf m).net := by
  have key : m.pkg.chip = m.pkg.chip → .undeliverable m.pkg.chip n ∈ (l.foldl Mach.tellSelf m).net := by
    have := Mach.Tells.foldl_mem (f := Mach.tellSelf) (P := fun t => t.pkg.chip = m.pkg.chip → .undeliverable m.pkg.chip n ∈ t.net)
      Mach.tells_tellSelf (fun t u htu ht hc => htu.mem_net (ht (by rw [← hc, htu.pkg]))) h (fun t hc => hc ▸ t.mem_net_tellSelf n) m
    exact fun _ => this (by rw [(Mach.Tells.foldl Mach.tells_tellSelf l m).pkg])
  exact key rfl

/-! ### The messages that a port had under way -/

/-- One message of those that `dropCut` looks through, from the last. -/
def dropCutStep (is : Sent → Option Flit) (acc : Bool × List Sent) (x : Sent) : Bool × List Sent :=
  match is x with
  | some f => if acc.1 && !flitEop f then acc else (false, x :: acc.2)
  | none => (acc.1, x :: acc.2)

theorem dropCut_eq (is : Sent → Option Flit) (l : List Sent) : dropCut is l = (l.reverse.foldl (dropCutStep is) (true, [])).2 := rfl

theorem dropCutStep_cases (is : Sent → Option Flit) (acc : Bool × List Sent) (x : Sent) :
    (dropCutStep is acc x).2 = x :: acc.2 ∨ ((dropCutStep is acc x).2 = acc.2 ∧ is x ≠ none) := by
  unfold dropCutStep
  split
  · next f h =>
    split
    · exact .inr ⟨rfl, by simp [h]⟩
    · exact .inl rfl
  · exact .inl rfl

/-- A message that is no flit of the port stays. -/
theorem mem_dropCut {is : Sent → Option Flit} {l : List Sent} {x : Sent} (h : x ∈ l) (hx : is x = none) : x ∈ dropCut is l := by
  have key : ∀ (r : List Sent) (acc : Bool × List Sent), x ∈ acc.2 ∨ x ∈ r → x ∈ (r.foldl (dropCutStep is) acc).2 := by
    intro r
    induction r with
    | nil => exact fun acc h => h.elim id (fun h => absurd h List.not_mem_nil)
    | cons y r ih =>
      refine fun acc h => ih _ ?_
      rcases dropCutStep_cases is acc y with e | ⟨e, hy⟩
      · rw [e]
        rcases h with h | h
        · exact .inl (List.mem_cons_of_mem _ h)
        · exact (List.mem_cons.mp h).elim (fun e => .inl (e ▸ List.mem_cons_self ..)) .inr
      · rw [e]
        exact h.imp id (fun h => (List.mem_cons.mp h).resolve_left (fun e => hy (by rw [← e]; exact hx)))
  exact dropCut_eq is l ▸ key l.reverse (true, []) (.inr (List.mem_reverse.mpr h))

theorem mem_dropCuts {k : Nat} {cut : List Nat} {x : Sent} (hx : ∀ cls, cameBy k cls x = none) : ∀ {l : List Sent}, x ∈ l →
    x ∈ cut.foldl (fun acc cls => dropCut (cameBy k cls) acc) l := by
  induction cut with
  | nil => exact id
  | cons c cut ih => exact fun h => ih (mem_dropCut h (hx c))

/-! ### The clearing of a port -/

theorem Pkg.port_modPort_same (p : Pkg) (k : Nat) (f : Port → Port) : (p.modPort k f).port k = f (p.port k) := by
  simp [Pkg.port, Pkg.modPort, kmod]

theorem Pkg.port_modPort_other {j k : Nat} (h : j ≠ k) (p : Pkg) (f : Port → Port) : (p.modPort k f).port j = p.port j := by
  simp [Pkg.port, Pkg.modPort, kmod, kgetD_kput_other _ h]

/-- A port without the flits that it sent of the packets that came in by port `k` and have been cut off. -/
def Port.forgets (k : Nat) (cut : List Nat) (q : Port) : Port :=
  { q with sending := q.sending.filter (fun (e : Nat × BitVec 3 × Flit) => !(e.2.1.toNat == k && cut.contains e.1)) }

/-- A port with nothing under way or partial (R290). -/
def Port.emptied (q : Port) : Port := { q with retry := none, asked := none, kept := [], partial_ := [], crossing := [], sending := [] }

/-- The machine after what is under way, waiting or partial at port `k` is discarded, no notice sent yet (R290). -/
def Mach.emptied (m : Mach) (k : Nat) : Mach :=
  let cut := (m.pkg.port k).crossing.map (fun e => e.1)
  { m with
    tick := m.tick + 1
    net := cut.foldl (fun acc cls => dropCut (cameBy k cls) acc) (m.net.filter (fun x => (waitsFor k x).isNone))
    out := m.out.filter (fun x => m.pkg.portOf x != some k)
    pkg := { m.pkg with ports := m.pkg.ports.map (fun (e : Nat × Port) => (e.1, e.2.forgets k cut)) }.modPort k Port.emptied }

/-- The first flits of the packets that port `k` has not sent whole, or not got whole (R290). -/
def Mach.brokenOff (m : Mach) (k : Nat) : List Flit :=
  let p := m.pkg.port k
  p.partial_.map (fun e => e.2) ++ p.crossing.map (fun e => e.2) ++ p.sending.map (fun e => e.2.2) ++
    (m.net.filterMap (waitsFor k)).filter flitSop

/-- The packets of this package's own that wait for port `k`, as a notice names them (R298). -/
def Mach.ownNotices (m : Mach) (k : Nat) : List Notice := (m.out.filter (fun x => m.pkg.portOf x == some k)).filterMap noticeOf

/-- The packets that port `k` has sent whole and that the far side may not have (R290). -/
def Mach.underWayFrom (m : Mach) (k : Nat) (ctr : Option Nat) : List KeptFlit :=
  packetsFrom (ctr.getD ((m.pkg.port k).tx - Config.inFlight k m.tick)) (m.pkg.port k).kept

theorem Mach.clearPort_eq (m : Mach) (k : Nat) (ctr : Option Nat) : m.clearPort k ctr =
    (m.ownNotices k).foldl Mach.tellSelf ((m.underWayFrom k ctr).foldl Mach.tellKept ((m.emptied k).notices (m.brokenOff k))) := rfl

theorem Mach.tells_clearPort (m : Mach) (k : Nat) (ctr : Option Nat) : (m.emptied k).Tells (m.clearPort k ctr) :=
  ((Mach.tells_notices _ _).trans (Mach.Tells.foldl Mach.tells_tellKept _ _)).trans (Mach.Tells.foldl Mach.tells_tellSelf _ _)

theorem Mach.clearPort_pkg (m : Mach) (k : Nat) (ctr : Option Nat) : (m.clearPort k ctr).pkg = (m.emptied k).pkg := (m.tells_clearPort k ctr).pkg

theorem Port.forgets_zero (k : Nat) (cut : List Nat) : Port.zero.forgets k cut = Port.zero := rfl

/-- Every port changed in place. -/
theorem Pkg.port_map {f : Port → Port} (hf : f Port.zero = Port.zero) (p : Pkg) (j : Nat) :
    { p with ports := p.ports.map (fun (e : Nat × Port) => (e.1, f e.2)) }.port j = f (p.port j) := by
  simp only [Pkg.port, kgetD, kget_map j f]
  cases kget j p.ports
  · exact hf.symm
  · rfl

theorem Mach.emptied_port_same (m : Mach) (k : Nat) : (m.emptied k).pkg.port k = (m.pkg.port k).emptied := by
  rw [Mach.emptied, Pkg.port_modPort_same, Pkg.port_map (Port.forgets_zero k _)]
  rfl

theorem Mach.emptied_port_other {j k : Nat} (h : j ≠ k) (m : Mach) :
    (m.emptied k).pkg.port j = (m.pkg.port j).forgets k ((m.pkg.port k).crossing.map (fun e => e.1)) := by
  rw [Mach.emptied, Pkg.port_modPort_other h, Pkg.port_map (Port.forgets_zero k _)]

/-- A package's routes are its place and the extents of the system. -/
theorem Pkg.portOf_ports (p : Pkg) (l : KMap Port) (x : Sent) : { p with ports := l }.portOf x = p.portOf x := by
  cases x <;> rfl

/-- A message that is no flit in transit stays as a port is cleared. -/
theorem Mach.mem_net_clearPort {m : Mach} {k : Nat} {ctr : Option Nat} {c : BitVec 12} {n : Notice} (h : .undeliverable c n ∈ m.net) :
    .undeliverable c n ∈ (m.clearPort k ctr).net :=
  (m.tells_clearPort k ctr).mem_net (mem_dropCuts (fun _ => rfl) (List.mem_filter.mpr ⟨h, rfl⟩))

/-- What this package has to send by another port still waits. -/
theorem Mach.mem_out_clearPort {m : Mach} {k : Nat} {ctr : Option Nat} {x : Sent} (h : x ∈ m.out) (hx : m.pkg.portOf x ≠ some k) :
    x ∈ (m.clearPort k ctr).out :=
  (m.tells_clearPort k ctr).mem_out (List.mem_filter.mpr ⟨h, bne_iff_ne.mpr hx⟩)

/-- What this package has to send by the port is reported to it (R298). -/
theorem Mach.own_told_clearPort {m : Mach} {k : Nat} {ctr : Option Nat} {x : Sent} {n : Notice} (h : x ∈ m.out) (hx : m.pkg.portOf x = some k)
    (hn : noticeOf x = some n) : .undeliverable m.pkg.chip n ∈ (m.clearPort k ctr).net := by
  have hmem : n ∈ m.ownNotices k := List.mem_filterMap.mpr ⟨x, List.mem_filter.mpr ⟨h, beq_iff_eq.mpr hx⟩, hn⟩
  have hchip : ((m.underWayFrom k ctr).foldl Mach.tellKept ((m.emptied k).notices (m.brokenOff k))).pkg.chip = m.pkg.chip := by
    rw [((Mach.tells_notices (m.emptied k) (m.brokenOff k)).trans (Mach.Tells.foldl Mach.tells_tellKept (m.underWayFrom k ctr) _)).pkg]
    rfl
  rw [Mach.clearPort_eq]
  exact hchip ▸ Mach.mem_net_tellSelfs hmem _

/-- What the clearing of a port leaves of the machine (R290). -/
theorem Mach.clearPort_same (m : Mach) (k : Nat) (ctr : Option Nat) : m.clearPort k ctr = { m with
    tick := m.tick + 1
    net := (m.clearPort k ctr).net
    out := (m.clearPort k ctr).out
    pkg := { m.pkg with ports := (m.clearPort k ctr).pkg.ports } } := by
  have hp := m.clearPort_pkg k ctr
  have h := (m.tells_clearPort k ctr).same
  rw [hp]
  exact h

theorem Mach.clearPort_port_same (m : Mach) (k : Nat) (ctr : Option Nat) : (m.clearPort k ctr).pkg.port k = (m.pkg.port k).emptied := by
  rw [Mach.clearPort_pkg, Mach.emptied_port_same]

theorem Mach.clearPort_port_other {j k : Nat} (h : j ≠ k) (m : Mach) (ctr : Option Nat) :
    (m.clearPort k ctr).pkg.port j = (m.pkg.port j).forgets k ((m.pkg.port k).crossing.map (fun e => e.1)) := by
  rw [Mach.clearPort_pkg, Mach.emptied_port_other h]

end Sys2Proof.Machine
end

section
/-! SUPPORT. A step: an event, a command, an issue or the end of a cycle (R21, R27, R28, R37, R43 to R51, R298, R358): the statement
`Obligations.StepRunsTheDecodedInstruction`. -/

namespace Sys2Proof.Machine

/-! ### What a port sees as a cycle ends (R298) -/

/-- A watched port, its far side now in reset or not. -/
theorem Mach.watchPort_eq (m : Mach) (k : Nat) : m.watchPort k =
    (if m.portBusy k && !(m.pkg.port k).away && Config.farReset k m.tick then m.clearPort k none else m).modPkg
      (fun p => p.modPort k (fun q => { q with away := Config.farReset k m.tick })) := rfl

/-- The watch of a port changes the ports and the messages under way. -/
theorem Mach.watchPort_same (m : Mach) (k : Nat) : m.watchPort k = { m with
    tick := (m.watchPort k).tick
    net := (m.watchPort k).net
    out := (m.watchPort k).out
    pkg := { m.pkg with ports := (m.watchPort k).pkg.ports } } := by
  rw [Mach.watchPort_eq]
  split
  · rw [Mach.clearPort_same]
    rfl
  · rfl

theorem Mach.watchPort_portOf (m : Mach) (k : Nat) (x : Sent) : (m.watchPort k).pkg.portOf x = m.pkg.portOf x := by
  rw [Mach.watchPort_same]
  exact Pkg.portOf_ports ..

theorem Mach.watchPort_chip (m : Mach) (k : Nat) : (m.watchPort k).pkg.chip = m.pkg.chip := by rw [Mach.watchPort_same]

/-- A notice to this package stays under way as a port is watched. -/
theorem Mach.mem_net_watchPort {m : Mach} {c : BitVec 12} {n : Notice} (h : .undeliverable c n ∈ m.net) (k : Nat) :
    .undeliverable c n ∈ (m.watchPort k).net := by
  rw [Mach.watchPort_eq]
  split
  · exact Mach.mem_net_clearPort h
  · exact h

theorem Mach.mem_out_watchPort {m : Mach} {k : Nat} {x : Sent} (h : x ∈ m.out) (hx : m.pkg.portOf x ≠ some k) : x ∈ (m.watchPort k).out := by
  rw [Mach.watchPort_eq]
  split
  · exact Mach.mem_out_clearPort h hx
  · exact h

/-- Another port keeps what it has, but for flits of packets cut off. -/
theorem Mach.watchPort_port_other {j k : Nat} (h : j ≠ k) (m : Mach) :
    (m.watchPort k).pkg.port j = m.pkg.port j ∨ ∃ cut, (m.watchPort k).pkg.port j = (m.pkg.port j).forgets k cut := by
  have hmod : ∀ (t : Mach) (f : Port → Port), (t.modPkg fun p => p.modPort k f).pkg.port j = t.pkg.port j :=
    fun t f => Pkg.port_modPort_other h t.pkg f
  rw [Mach.watchPort_eq, hmod]
  split
  · exact .inr ⟨_, Mach.clearPort_port_other h m none⟩
  · exact .inl rfl

/-- Port `k` of `t` has seen whether its far side is in reset, and has been cleared since `m` if it then went into reset (R298). -/
structure Mach.SeesPort (m t : Mach) (k : Nat) : Prop where
  free : ∃ n, (t.pkg.port k).away = Config.farReset k n
  clear : (m.pkg.port k).away = false → (t.pkg.port k).away = true → (t.pkg.port k).kept = [] ∧ (t.pkg.port k).partial_ = [] ∧
    (t.pkg.port k).crossing = [] ∧ (t.pkg.port k).sending = [] ∧
    ∀ x ∈ m.out, m.pkg.portOf x = some k → ∀ n, noticeOf x = some n → .undeliverable m.pkg.chip n ∈ t.net

theorem Mach.seesPort_watchPort (m : Mach) (k : Nat) : m.SeesPort (m.watchPort k) k := by
  rw [Mach.watchPort_eq]
  have hmod : ∀ (t : Mach) (f : Port → Port), (t.modPkg fun p => p.modPort k f).pkg.port k = f (t.pkg.port k) :=
    fun t f => Pkg.port_modPort_same t.pkg k f
  refine ⟨⟨m.tick, by rw [hmod]⟩, fun ha hr => ?_⟩
  rw [hmod] at hr ⊢
  simp only at hr
  split
  · rw [Mach.clearPort_port_same]
    exact ⟨rfl, rfl, rfl, rfl, fun x hx hp n hn => Mach.own_told_clearPort hx hp hn⟩
  · next hb =>
    have hbusy : m.portBusy k = false := by simpa [ha, hr] using hb
    simp only [Mach.portBusy, Bool.or_eq_false_iff, Bool.not_eq_false', List.isEmpty_iff] at hbusy
    obtain ⟨⟨⟨⟨⟨hout, -⟩, hkept⟩, hpart⟩, hcross⟩, hsend⟩ := hbusy
    refine ⟨hkept, hpart, hcross, hsend, fun x hx hp => ?_⟩
    exact absurd (List.any_eq_false.mp hout x hx) (by simp [hp])

theorem Mach.SeesPort.watchPort {m t : Mach} {j k : Nat} (h : m.SeesPort t k) (hj : k ≠ j) : m.SeesPort (t.watchPort j) k := by
  have hport : ((t.watchPort j).pkg.port k).away = (t.pkg.port k).away ∧ ((t.watchPort j).pkg.port k).kept = (t.pkg.port k).kept ∧
      ((t.watchPort j).pkg.port k).partial_ = (t.pkg.port k).partial_ ∧ ((t.watchPort j).pkg.port k).crossing = (t.pkg.port k).crossing ∧
      ((t.pkg.port k).sending = [] → ((t.watchPort j).pkg.port k).sending = []) := by
    rcases t.watchPort_port_other hj with e | ⟨cut, e⟩
    · rw [e]
      exact ⟨rfl, rfl, rfl, rfl, id⟩
    · rw [e]
      exact ⟨rfl, rfl, rfl, rfl, fun h => by rw [Port.forgets, h]; rfl⟩
  obtain ⟨haway, hkept, hpart, hcross, hsend⟩ := hport
  refine ⟨haway ▸ h.free, fun ha hr => ?_⟩
  obtain ⟨h1, h2, h3, h4, h5⟩ := h.clear ha (haway ▸ hr)
  exact ⟨hkept.trans h1, hpart.trans h2, hcross.trans h3, hsend h4, fun x hx hp n hn => Mach.mem_net_watchPort (h5 x hx hp n hn) j⟩

theorem Mach.SeesPort.of_watchPort {m t : Mach} {j k : Nat} (h : (m.watchPort j).SeesPort t k) (hj : k ≠ j) : m.SeesPort t k := by
  have haway : ((m.watchPort j).pkg.port k).away = (m.pkg.port k).away := by
    rcases m.watchPort_port_other hj with e | ⟨cut, e⟩ <;> rw [e]
    rfl
  refine ⟨h.free, fun ha hr => ?_⟩
  obtain ⟨h1, h2, h3, h4, h5⟩ := h.clear (haway.trans ha) hr
  refine ⟨h1, h2, h3, h4, fun x hx hp n hn => ?_⟩
  have hx' : x ∈ (m.watchPort j).out := Mach.mem_out_watchPort hx (by rw [hp]; exact fun e => hj (Option.some.inj e))
  exact m.watchPort_chip j ▸ h5 x hx' ((m.watchPort_portOf j x).trans hp) n hn

theorem Mach.SeesPort.watchPorts {m : Mach} {k : Nat} {l : List Nat} (hk : k ∉ l) : ∀ {t : Mach}, m.SeesPort t k →
    m.SeesPort (l.foldl Mach.watchPort t) k := by
  induction l with
  | nil => exact id
  | cons j l ih =>
    obtain ⟨hj, hl⟩ := not_or.mp (fun h => hk (List.mem_cons.mpr h))
    exact fun h => ih hl (h.watchPort hj)

/-- Each port of a list is watched once. -/
theorem Mach.seesPort_watchPorts {k : Nat} {l : List Nat} (hk : k ∈ l) (hl : l.Nodup) : ∀ m : Mach,
    m.SeesPort (l.foldl Mach.watchPort m) k := by
  induction l with
  | nil => cases hk
  | cons j l ih =>
    intro m
    obtain ⟨hj, hl⟩ := List.nodup_cons.mp hl
    by_cases h : k = j
    · subst h
      exact (m.seesPort_watchPort k).watchPorts hj
    · exact (ih ((List.mem_cons.mp hk).resolve_left h) hl (m.watchPort j)).of_watchPort h

theorem Mach.watchPorts_same (l : List Nat) : ∀ m : Mach, l.foldl Mach.watchPort m = { m with
    tick := (l.foldl Mach.watchPort m).tick
    net := (l.foldl Mach.watchPort m).net
    out := (l.foldl Mach.watchPort m).out
    pkg := { m.pkg with ports := (l.foldl Mach.watchPort m).pkg.ports } } := by
  induction l with
  | nil => exact fun _ => rfl
  | cons j l ih =>
    intro m
    have h := ih (m.watchPort j)
    have hj := m.watchPort_same j
    rw [List.foldl_cons]
    generalize l.foldl Mach.watchPort (m.watchPort j) = t at h ⊢
    rw [hj] at h
    exact h

/-! ### The end of a cycle (R21, R27, R28, R298, R358) -/

/-- A core as the cycle that uses entry 0 begins: a slot table that has been built is taken over (R27). -/
def Core.adopted (c : Core) : Core :=
  match c.next with
  | some t => { c with table := t, next := none }
  | none => c

/-- The machine as a cycle ends, its ports not yet watched. -/
def Mach.ticked (m : Mach) : Mach := { m with
  cyc := m.cyc + 1
  tick := m.tick + 1
  turn := 0
  first := none
  cores := if (m.cyc + 1) % 64 = 0 then m.cores.map (fun p => (p.1, p.2.adopted)) else m.cores
  streams := m.streams.map (fun p => (p.1, p.2.arrived m.cyc))
  pkg := if m.pkg.counting then { m.pkg with ftime := m.pkg.ftime + Config.timeStep m.tick } else m.pkg }

theorem Mach.pass_eq (m : Mach) : m.pass = (List.range 6).foldl Mach.watchPort m.ticked := rfl

theorem Core.adopted_of_none {c : Core} (h : c.next = none) : c.adopted = c := by simp only [Core.adopted, h]
theorem Core.adopted_of_some {c : Core} {t : List Nat} (h : c.next = some t) : c.adopted = { c with table := t, next := none } := by
  simp only [Core.adopted, h]

theorem Mach.core_ticked (m : Mach) (k : Nat) : m.ticked.core k = if (m.cyc + 1) % 64 = 0 then (m.core k).adopted else m.core k := by
  simp only [Mach.ticked, Mach.core, kgetD]
  split
  · rw [kget_map k Core.adopted]
    cases kget k m.cores <;> rfl
  · rfl

theorem Mach.stream_ticked (m : Mach) (j : Nat) : m.ticked.stream j = (m.stream j).arrived m.cyc := by
  simp only [Mach.ticked, Mach.stream, kgetD]
  rw [kget_map j (fun t : Stream => t.arrived m.cyc)]
  cases kget j m.streams <;> rfl

end Sys2Proof.Machine

namespace Sys2Proof.Claims

open Sys2Proof.Machine

theorem arrived_eq (t : Stream) (n : Nat) :
    t.arrived n = if t.since = none ∧ t.await = none ∧ t.head ≠ t.end_ then { t with since := some n } else t := by
  simp only [Stream.arrived, Bool.and_eq_true, Option.isNone_iff_eq_none, bne_iff_ne, and_assoc]

theorem cycleEnds_pass (m : Mach) : cycleEnds m m.pass := by
  have hs := Mach.watchPorts_same (List.range 6) m.ticked
  have hp := fun k (hk : k < 6) => Mach.seesPort_watchPorts (List.mem_range.mpr hk) (List.nodup_range (n := 6)) m.ticked
  rw [← Mach.pass_eq] at hs hp
  have hcore : ∀ k, m.pass.core k = m.ticked.core k := fun k => by rw [hs]; rfl
  have hstream : ∀ j, m.pass.stream j = m.ticked.stream j := fun j => by rw [hs]; rfl
  have hpkg : m.ticked.pkg = m.pkg ∨ ∃ n, m.ticked.pkg = { m.pkg with ftime := n } := by
    simp only [Mach.ticked]
    split
    · exact .inr ⟨_, rfl⟩
    · exact .inl rfl
  have hport : ∀ k, m.ticked.pkg.port k = m.pkg.port k := fun k => hpkg.elim (fun e => by rw [e]) (fun ⟨_, e⟩ => by rw [e]; rfl)
  have hof : ∀ x, m.ticked.pkg.portOf x = m.pkg.portOf x := fun x => hpkg.elim (fun e => by rw [e]) (fun ⟨_, e⟩ => by rw [e]; cases x <;> rfl)
  have hchip : m.ticked.pkg.chip = m.pkg.chip := by rcases hpkg with e | ⟨n, e⟩ <;> rw [e]
  have htime : m.ticked.pkg.ftime = m.pkg.ftime + (if m.pkg.counting = true then Config.timeStep m.tick else 0) := by
    simp only [Mach.ticked]
    split <;> rfl
  refine ⟨by rw [hs]; rfl, by rw [hs]; rfl, by rw [hs]; rfl, by rw [hs]; rfl, by rw [hs]; rfl, by rw [hs]; rfl, by rw [hs]; exact htime,
    fun k t h0 hn => ?_, fun k h => ?_, fun j => ?_, fun k hk => ⟨(hp k hk).free, fun ha hr => ?_⟩⟩
  · rw [hcore, Mach.core_ticked, if_pos h0, Core.adopted_of_some hn]
  · rw [hcore, Mach.core_ticked]
    split
    · next h0 => exact Core.adopted_of_none (h.resolve_left (· h0))
    · rfl
  · rw [hstream, Mach.stream_ticked, arrived_eq]
  · obtain ⟨h1, h2, h3, h4, h5⟩ := (hp k hk).clear ((hport k).symm ▸ ha) hr
    exact ⟨h1, h2, h3, h4, fun x hx hx' n hn => hchip ▸ h5 x hx ((hof x).trans hx') n hn⟩

/-! ### An issue -/

/-- Words that act, none of them trapping, are run to the end. -/
theorem runWords_of_actIn {on : List Cur} : ∀ {s t : State}, s.iss.trapped = false → actIn on s t →
    runWords on s = .next t ∧ t.iss.trapped = false := by
  induction on with
  | nil =>
    intro s t hs h
    cases h
    exact ⟨rfl, hs⟩
  | cons u on ih =>
    intro s t hs h
    obtain ⟨s1, he, h1, hr⟩ := h
    obtain ⟨hrun, ht⟩ := ih h1 hr
    exact ⟨by simp only [runWords, hs, Bool.false_eq_true, if_false, he, hrun], ht⟩

/-- Once a word has trapped the words after it do not act. -/
theorem runWords_of_trapped {on : List Cur} {s : State} (h : s.iss.trapped = true) : runWords on s = .next s := by
  cases on with
  | nil => rfl
  | cons u on => simp only [runWords, h, if_true]

theorem runWords_of_trap {pre post : List Cur} {u : Cur} : ∀ {s s2 t : State}, s.iss.trapped = false → actIn pre s s2 →
    exec u.w.ins (s2.atWord u) = .next t → t.iss.trapped = true → runWords (pre ++ u :: post) s = .next t := by
  induction pre with
  | nil =>
    intro s s2 t hs h he ht
    cases h
    simp only [List.nil_append, runWords, hs, Bool.false_eq_true, if_false, he, runWords_of_trapped ht]
  | cons v pre ih =>
    intro s s2 t hs h he ht
    obtain ⟨s1, hv, h1, hr⟩ := h
    simp only [List.cons_append, runWords, hs, Bool.false_eq_true, if_false, hv, ih h1 hr he ht]

theorem act_commits {s t : State} {cur on : List Cur} (b : Bundle) (ws : List W32) (lb : RMap 64) (hs : s.open_.iss.trapped = false)
    (h : actIn on s.open_ t) : s.act cur on b ws lb = some (t.commit cur on b ws lb) := by
  obtain ⟨hr, ht⟩ := runWords_of_actIn hs h
  simp only [State.act, hr, ht, if_true]

theorem act_traps {s s2 t : State} {cur pre post : List Cur} {u : Cur} (b : Bundle) (ws : List W32) (lb : RMap 64)
    (hs : s.open_.iss.trapped = false) (h : actIn pre s.open_ s2) (he : exec u.w.ins (s2.atWord u) = .next t) (ht : t.iss.trapped = true)
    (hm : (∃ p, t.nc.status = .parked p) ∨ s.oc.mayTrap = true) : s.act cur (pre ++ u :: post) b ws lb = some t := by
  simp only [State.act, runWords_of_trap hs h he ht, ht, Bool.true_eq_false, if_false]
  rcases hm with ⟨p, hp⟩ | hm
  · simp only [hp]
  · split
    · rfl
    · exact if_pos hm

/-- An issue that passes its checks is the action of its words (R26, R37, R99). -/
theorem checked_eq_act {s s1 : State} {cur on : List Cur} {b : Bundle} {ws : List W32} {lb : RMap 64}
    (hon : cur.filter (s.issues (s.leafOf cur)) = on) (h3 : firstFail cur (fun u => s.check3 u.w.ins) = none) (hb : s.refill = .ok lb)
    (hpend : s.pendingRegs cur on = false) (hctx : s.contextFail cur on = none) (hdep : s.dependent cur on = false)
    (hstall : s.stalls on = false)
    (hforce : (s.forces on = false ∧ s1 = s) ∨ (s.forces on = true ∧ s.parkedBy on = none ∧ s.forceFirst = some s1)) :
    s.checked cur b ws = s1.act cur on b ws lb := by
  rcases hforce with ⟨hf, rfl⟩ | ⟨hf, hpark, hfirst⟩
  · simp only [State.checked, h3, hb, hon, hpend, hctx, hdep, hstall, hf, Bool.false_eq_true, if_false]
  · simp only [State.checked, h3, hb, hon, hpend, hctx, hdep, hstall, hf, hpark, hfirst, Bool.false_eq_true, if_false, if_true]

/-- The issue that a context makes where nothing is against it (R26, R28), with its fetch counted (R363). -/
theorem attempt_of_act {s s1 t : State} {x : Nat} {ws : List W32} {b : Bundle} {l : List Cur} {lb : RMap 64} (h : Issues s x ws b l lb)
    (hu : unhindered s x b (currentOf s x b l) (issuedOf s x b l) s1)
    (ha : s1.act (currentOf s x b l) (issuedOf s x b l) b ws lb = some t) :
    s.attempt x = some (t.mapM (fun m => m.serve (s.begin x).oc.rid ((s.begin x).fetchedFrom ws)), occupied (currentOf s x b l)) := by
  obtain ⟨hpend, hctx, hdep, hstall, hforce⟩ := hu
  have hc : ((s.begin x).withBundle b).checked (((s.begin x).withBundle b).current l) b ws = some t :=
    (checked_eq_act rfl h.check3 h.bodies hpend hctx hdep hstall hforce).trans ha
  simp only [State.attempt, h.ready, Bool.true_eq_false, if_false, h.fetched, h.bundle, h.words, hc, Option.map_some]
  rfl

/-- The requests of a run that slices have served are counted as R363 says. -/
theorem serve_eq (m : Mach) (rid : Nat) (pas : List Nat) : m.serve rid pas = servedBy m rid pas := rfl

theorem fetchedFrom_eq (s : State) (x : Nat) (ws : List W32) : (s.begin x).fetchedFrom ws = codeFrom s x ws := by
  simp only [State.fetchedFrom, codeFrom, Mach.fetchPas]
  rfl

theorem issueNext_of_attempt {s t : State} {x k : Nat} {later cores : List Nat} {occ : BitVec 12} (hf : s.m.first = none)
    (hk : s.m.coresLeft = k :: cores) (hx : s.m.order k = x :: later) (ha : s.attempt x = some (t, occ)) :
    s.issueNext = some { t with m := { t.m with turn := k, first := some (x, occ) } } := by
  have h1 : s.firstOf k = some { t with m := { t.m with turn := k, first := some (x, occ) } } := by
    simp only [State.firstOf, hx, List.findSome?_cons, ha, Option.map_some]
  simp only [State.issueNext, hf, hk, List.findSome?_cons, h1]

/-- A step that lets a context issue is its issue (R28). -/
theorem step_of_act {s : State} {rest : List (Option Instr)} {x k : Nat} {ws : List W32} {b : Bundle} {l : List Cur} {lb : RMap 64}
    {s1 t : State} {later cores : List Nat} (hag : s.agenda = none :: rest) (hcmd : { s with agenda := rest }.nextCommand = none)
    (hf : s.m.first = none) (hk : s.m.coresLeft = k :: cores) (hx : s.m.order k = x :: later)
    (h : Issues { s with agenda := rest } x ws b l lb)
    (hu : unhindered { s with agenda := rest } x b (currentOf { s with agenda := rest } x b l) (issuedOf { s with agenda := rest } x b l) s1)
    (ha : s1.act (currentOf { s with agenda := rest } x b l) (issuedOf { s with agenda := rest } x b l) b ws lb = some t) :
    step s = .next { t with m := { servedBy t.m (s.m.ctx x).rid (codeFrom s x ws) with
      turn := k, first := some (x, occupied (currentOf { s with agenda := rest } x b l)) } } := by
  have hi := issueNext_of_attempt (s := { s with agenda := rest }) hf hk hx (attempt_of_act h hu ha)
  simp only [step, State.advanceOne, hag, State.proceed, hcmd, hi, State.mapM, serve_eq, fetchedFrom_eq]
  rfl

/-! ### A command -/

theorem ofNat_leNat_bytesLE (w : W32) : BitVec.ofNat 32 (leNat (bytesLE w)) = w := by
  apply BitVec.eq_of_toNat_eq
  have hw := w.isLt
  simp only [bytesLE, leNat, BitVec.extractLsb'_toNat, Nat.shiftRight_eq_div_pow, BitVec.toNat_ofNat]
  omega

/-- The next command of a stream is executed (R14, R15). -/
theorem commandOf_acts {s t : State} {k : Nat} {h : Header} {w : Slot} {pool : List W32} {hw cw : W32} {bs : List Byte}
    (hstuck : s.m.pkg.stuck = false) (hwipe : s.m.pkg.wiping = false) (hawait : (s.m.stream k).await = none) (hlate : (s.m.stream k).late = [])
    (hst : (s.m.stream k).state ≠ 4) (hlog : (s.m.stream k).logOk = true) (h4 : 4 ≤ ((s.m.stream k).end_ - (s.m.stream k).head).toNat)
    (hlen : h.bytes ≤ ((s.m.stream k).end_ - (s.m.stream k).head).toNat)
    (hr : s.m.ringRead (s.m.stream k) (s.m.stream k).head 4 = some (bytesLE hw))
    (hb : s.m.ringRead (s.m.stream k) (s.m.stream k).head h.bytes = some bs) (hws : wordsLE bs = hw :: cw :: pool)
    (hd : decodeHeader hw = .ok h) (hp : h.p = 0x800) (hrep : h.rep = 0) (hc : decodeSlot .c cw = .ok w) (hfi : w.fi = false) (hli : w.li = false)
    (hop : commandOp w.ins.op.toNat = true) (he : exec w.ins (s.atCommand k h pool) = .next t) : s.commandOf k = some t := by
  have hready : (s.m.pkg.stuck || s.m.pkg.wiping || (s.m.stream k).await.isSome || !(s.m.stream k).late.isEmpty || (s.m.stream k).state == 4 ||
      !(s.m.stream k).logOk || decide (((s.m.stream k).end_ - (s.m.stream k).head).toNat < 4)) = false := by
    have hleft := decide_eq_false (Nat.not_lt.mpr h4)
    simp [hstuck, hwipe, hawait, hlate, hst, hlog, hleft, -BitVec.toNat_sub]
  have hhdr : commandHeader h = true := by simp [commandHeader, hp, hrep]
  have hword : commandWord w = true := by simp [commandWord, hfi, hli, hop]
  unfold State.commandOf
  simp only [hready, Bool.false_eq_true, if_false, hr, ofNat_leNat_bytesLE, hd, hhdr, Bool.not_true, Nat.not_lt.mpr hlen, hb, hws, hc, hword,
    if_true, he]

/-- Settles O54: each choice of a step, by what leads `State.advanceOne` to it. -/
theorem stepRunsTheDecodedInstruction : Obligations.StepRunsTheDecodedInstruction := by
  intro s rest
  refine ⟨fun ev ha he => ?_, fun ev ha hd => ?_, fun x k ws b l lb on s1 t later cores => ?_, fun ha hc hi => ⟨s.m.pass, ?_, cycleEnds_pass s.m⟩,
    fun k t h w pool hw cw bs ha hk hstuck hwipe hawait hlate hst hlog h4 hlen hr hb hws hd hp hrep hc hfi hli hop he => ?_⟩
  · simp only [step, State.advanceOne, ha, he, if_true]
  · simp only [step, State.advanceOne, ha, hd]
  · intro s0 ha hcmd hf hcores hx hiss hon hu after
    subst hon
    refine ⟨fun hact hopen => ?_, fun pre u post s2 hpre hopen hact he ht hm => ?_⟩
    · exact step_of_act ha hcmd hf hcores hx hiss hu (act_commits b ws lb hopen hact)
    · refine step_of_act ha hcmd hf hcores hx hiss hu ?_
      rw [hpre]
      exact act_traps b ws lb hopen hact he ht hm
  · simp only [step, State.advanceOne, ha, State.proceed, hc, hi]
  · have hcmd := commandOf_acts (s := { s with agenda := rest }) hstuck hwipe hawait hlate hst hlog h4 hlen hr hb hws hd hp hrep hc hfi hli hop he
    simp only [step, State.advanceOne, ha, State.proceed, State.nextCommand, hk, List.findSome?_cons, hcmd]

end Sys2Proof.Claims
end

section
/-! SUPPORT. Window accesses by the host (R13, R21, R364): the statement `Obligations.WindowAccessesByTheHost` fails, at a write of SHEAD. -/

namespace Sys2Proof.Claims

open Sys2Proof.Machine

/-- The cycle in which the command at HEAD of stream `k` reached it, in the state that a step answers (R21). -/
def sinceAfter (k : Nat) : Res → Option Nat
  | .next s => (s.m.stream k).since
  | _ => none

/-- A package in which the command at HEAD of stream 0 has reached it in cycle 0 (R21) and has faulted the stream (R16). -/
def faultedAtHead : State :=
  { State.reset with m := { Mach.reset with streams := [(0, { Stream.zero with end_ := 4, stat := 0x104, since := some 0 })] } }

theorem faultedAtHead_open : open_ faultedAtHead := ⟨rfl, rfl⟩

/-- The host may write SHEAD there (R13): the stream has faulted, and HEAD is in range. -/
theorem faultedAtHead_headFree (t : Stream) (ht : t = faultedAtHead.m.stream 0) (w : W64) (hw : w = 0) :
    (stateOf t = 4 ∨ (stateOf t = 0 ∧ t.head = t.end_)) ∧ w.toNat % 4 = 0 ∧ w.toNat ≤ t.end_.toNat ∧
      t.end_.toNat ≤ w.toNat + 2 ^ (t.size.toNat % 32) := by
  subst ht hw
  decide

/-- No command has reached HEAD once the host has written it (R21). -/
theorem sinceAfter_sheadWrite : sinceAfter 0 (exec (.sheadWrite 0 0) faultedAtHead) = none := by decide

/-- Refutes O39: a write of SHEAD that R13 allows also forgets when the command at HEAD reached it (R21), where the statement leaves every field but
HEAD and the length of the command as it was: in a stream whose command has faulted in its turn the two differ. -/
theorem not_windowAccessesByTheHost : ¬ Obligations.WindowAccessesByTheHost := by
  intro h
  obtain ⟨hwords, -, -⟩ := h
  obtain ⟨hhead, -⟩ := hwords faultedAtHead 0 0 faultedAtHead_open
  have hnext := hhead (faultedAtHead_headFree _ rfl 0 rfl)
  have hsince := (congrArg (sinceAfter 0) hnext).symm.trans sinceAfter_sheadWrite
  exact absurd hsince (by decide)

end Sys2Proof.Claims
end

section
/-! SUPPORT. Link pairs and ports (R286 to R298): the statement `Obligations.LinksAndPortsCarryWords` fails, at a word that waits for its turn. -/

namespace Sys2Proof.Claims

open Sys2Proof.Machine

/-- A word that link 0 of core 0 of this package has sent to core 0 of package 0, which is this one. -/
def wordToSelf : LinkWord := { src := 0, srcCore := 0, core := 0, link := 0, word := 0 }

/-- A package under way in which are two words of the same pair that are equal but for the package they are addressed to: package 1, then this
one (package 0). Such a state is not reached from reset (`Mach.post` keeps in `net` what is for this package), but the statement speaks of every
state that is awake. -/
def wordsUnderWay : State :=
  { State.reset with m := { Mach.reset with net := [.linkWord 1 wordToSelf, .linkWord 0 wordToSelf] } }

/-- How many messages are under way inside the package in the state that a step answers. -/
def underWayAfter : Res → Nat
  | .next s => s.m.net.length
  | _ => 0

/-- The word behind is taken up: the model knows the words of a pair by their content, not by the package they are addressed to. -/
theorem underWayAfter_linkWordArrive : underWayAfter (exec (.linkWordArrive wordToSelf) wordsUnderWay) = 1 := by decide

/-- Refutes O46: of two words of a pair under way inside the package that are equal but for the package addressed, the second is taken before the
first, where the statement leaves every word that is behind another one of its pair where it is. -/
theorem not_linksAndPortsCarryWords : ¬ Obligations.LinksAndPortsCarryWords := by
  intro h
  obtain ⟨hlinks, -, -⟩ := h
  obtain ⟨-, -, -, -, hword, -, -, -⟩ := hlinks wordsUnderWay 0 0 rfl
  obtain ⟨-, hbehind⟩ := hword wordToSelf rfl rfl
  have hstays := hbehind rfl ⟨.linkWord 1 wordToSelf, rfl, by decide⟩
  have hcount := (congrArg underWayAfter hstays).symm.trans underWayAfter_linkWordArrive
  exact absurd hcount (by decide)

end Sys2Proof.Claims
end

section
/-! SUPPORT. The rules of a store: the bytes that it leaves, what each context keeps, and what a logged or a kept write changes besides (R32, R37,
R38, R185). -/

namespace Sys2Proof.Machine

theorem kdel_kins {α : Type} (k : Nat) (a : α) (m : KMap α) : kdel k (kins k a m) = kdel k m := by
  induction m with
  | nil => simp [kins, kdel]
  | cons p r ih =>
    simp only [kdel] at ih
    by_cases h : k < p.1 <;> simp [kins, kdel, h, List.filter_cons, ih]

/-- The later of two writes of a record stays. -/
@[simp] theorem kput_kput {α : Type} (k : Nat) (a b : α) (m : KMap α) : kput k a (kput k b m) = kput k a m := by
  have h : kdel k (kdel k m) = kdel k m := by simp [kdel, List.filter_filter]
  rw [kput, kput, kdel_kins, h, ← kput]

theorem Mach.setCtx_setCtx (m : Mach) (x : Nat) (c d : Ctx) : (m.setCtx x c).setCtx x d = m.setCtx x d := by
  simp only [Mach.setCtx, kput_kput]

theorem Mach.modCtx_modCtx (m : Mach) (x : Nat) (f g : Ctx → Ctx) : (m.modCtx x f).modCtx x g = m.modCtx x (fun c => g (f c)) := by
  rw [Mach.modCtx, Mach.ctx_modCtx_same, Mach.modCtx, Mach.setCtx_setCtx, Mach.modCtx]

theorem readBytes_eq (m : Memory) (a n : Nat) : readBytes m a n = (List.range n).map (fun i => readByte m (a + i)) := by
  refine List.map_congr_left fun i hi => readByte_filter _ fun b => ?_
  have := List.mem_range.1 hi
  simp [this]

@[simp] theorem length_readBytes (m : Memory) (a n : Nat) : (readBytes m a n).length = n := by simp [readBytes_eq]

/-- A byte after a write: the one written there, or the one that was there. -/
theorem readByte_writeBytes (m : Memory) (l : Nat) (bs : List Byte) (a : Nat) :
    readByte (writeBytes m l bs) a = (if l ≤ a then bs[a - l]? else none).getD (readByte m a) := by
  by_cases h : l ≤ a
  · by_cases h' : a < l + bs.length
    · have hi : a - l < bs.length := by omega
      have hs := readByte_writeBytes_same m l bs (a - l) hi
      rw [Nat.add_sub_cancel' h] at hs
      simp [h, hs, hi]
    · rw [readByte_writeBytes_other m l bs a (.inr (by omega)), if_pos h, List.getElem?_eq_none (by omega), Option.getD_none]
  · rw [readByte_writeBytes_other m l bs a (.inl (by omega)), if_neg h, Option.getD_none]

theorem Mach.ctx_notify (m : Mach) (ls : List Nat) (x : Nat) : (m.notify ls).ctx x = (m.ctx x).notice ls := by
  simp only [Mach.ctx, Mach.notify, kgetD, kget_map x (fun c : Ctx => c.notice ls)]
  cases kget x m.ctxs <;> rfl

/-- A store tells every context of the lines written (R32, R185). -/
@[simp] theorem Mach.ctx_store (m : Mach) (loc : Nat) (bs : List Byte) (x : Nat) :
    (m.store loc bs).ctx x = (m.ctx x).notice (linesOf loc bs.length) := Mach.ctx_notify _ _ _

/-- A record of a line in the undo log changes teams only. -/
theorem Mach.logLine_same (m : Mach) (rid cl core line : Nat) : m.logLine rid cl core line = { m with teams := (m.logLine rid cl core line).teams } := by
  simp only [Mach.logLine]
  split
  · rfl
  · split <;> rfl

/-- The lines that a logged write is about to change, recorded one by one. -/
def Mach.logLines (m : Mach) (rid cl core : Nat) (ls : List Nat) : Mach := ls.foldl (fun (acc : Mach) l => acc.logLine rid cl core l) m

theorem Mach.logLines_same (rid cl core : Nat) (ls : List Nat) : ∀ m : Mach,
    m.logLines rid cl core ls = { m with teams := (m.logLines rid cl core ls).teams } := by
  induction ls with
  | nil => exact fun _ => rfl
  | cons l ls ih =>
    intro m
    rw [show m.logLines rid cl core (l :: ls) = (m.logLine rid cl core l).logLines rid cl core ls from rfl, ih, Mach.logLine_same]

theorem Mach.logStore_eq (m : Mach) (rid cl core loc : Nat) (bs : List Byte) :
    m.logStore rid cl core loc bs = (m.logLines rid cl core (m.changedLines loc bs)).store loc bs := rfl

/-- A logged write is a store, but for the teams' undo logs (R38). -/
theorem Mach.logStore_same (m : Mach) (rid cl core loc : Nat) (bs : List Byte) :
    m.logStore rid cl core loc bs = { m.store loc bs with teams := (m.logStore rid cl core loc bs).teams } := by
  rw [Mach.logStore_eq, Mach.logLines_same]
  rfl

/-- A write that no rollback undoes is a store, but for the teams' undo logs (R313). -/
theorem Mach.keptStore_same (m : Mach) (loc : Nat) (bs : List Byte) :
    m.keptStore loc bs = { m.store loc bs with teams := (m.keptStore loc bs).teams } := rfl

@[simp] theorem Mach.ctx_logStore (m : Mach) (rid cl core loc : Nat) (bs : List Byte) (x : Nat) :
    (m.logStore rid cl core loc bs).ctx x = (m.ctx x).notice (linesOf loc bs.length) := by
  rw [Mach.logStore_same]
  exact m.ctx_store loc bs x

@[simp] theorem Mach.logStore_mem (m : Mach) (rid cl core loc : Nat) (bs : List Byte) :
    (m.logStore rid cl core loc bs).mem = writeBytes m.mem loc bs := by rw [Mach.logStore_same]; rfl

/-! ### Little-endian bytes (R102) -/

theorem natLE_eq_lowBytes (n v : Nat) : natLE n v = Claims.lowBytes n v := by
  induction n generalizing v with
  | zero => rfl
  | succ n ih =>
    rw [natLE, ih, Claims.lowBytes, Claims.lowBytes, List.range_succ_eq_map, List.map_cons, List.map_map]
    simp [Function.comp_def, Nat.pow_succ', Nat.div_div_eq_div_mul]

@[simp] theorem length_natLE (n v : Nat) : (natLE n v).length = n := by simp [natLE_eq_lowBytes, Claims.lowBytes]

@[simp] theorem length_vecLE {w : Nat} (n : Nat) (v : BitVec w) : (vecLE n v).length = n := length_natLE ..

theorem getElem?_vecLE {w : Nat} {n i : Nat} (v : BitVec w) (h : i < n) : (vecLE n v)[i]? = some (v.extractLsb' (8 * i) 8) := by
  rw [vecLE, natLE_eq_lowBytes, Claims.lowBytes, List.getElem?_map, List.getElem?_range h, Option.map_some]
  refine congrArg some (BitVec.eq_of_toNat_eq ?_)
  rw [BitVec.extractLsb'_toNat, BitVec.toNat_ofNat, Nat.shiftRight_eq_div_pow, show 256 = 2 ^ 8 from rfl, ← Nat.pow_mul]

/-- Byte `i` of records of `w` bytes that follow each other. -/
theorem getElem?_flatMap_range {w : Nat} {f : Nat → List Byte} (hf : ∀ k, (f k).length = w) : ∀ {n i : Nat}, i < w * n →
    ((List.range n).flatMap f)[i]? = (f (i / w))[i % w]? := by
  have hlen : ∀ n, ((List.range n).flatMap f).length = w * n := fun n => by
    simp [List.length_flatMap, hf, Nat.mul_comm]
  intro n
  induction n with
  | zero => omega
  | succ n ih =>
    intro i hi
    rw [List.range_succ, List.flatMap_append, List.flatMap_singleton]
    by_cases h : i < w * n
    · rw [List.getElem?_append_left (by rw [hlen]; exact h), ih h]
    · have hd : i / w = n := Nat.div_eq_of_lt_le (by rw [Nat.mul_comm]; omega) (by rw [Nat.mul_comm]; exact hi)
      have hm : i % w = i - w * n := by rw [← hd, Nat.mod_eq_sub_mul_div]
      rw [List.getElem?_append_right (by rw [hlen]; omega), hlen, hd, hm]

theorem leNat_lt (l : List Byte) : leNat l < 2 ^ (8 * l.length) := by
  induction l with
  | nil => simp [leNat]
  | cons b l ih =>
    have hb := b.isLt
    rw [leNat, List.length_cons, Nat.mul_add, Nat.mul_one, Nat.add_comm, Nat.pow_add]
    omega

theorem readLE_lt (m : Memory) (a n : Nat) : readLE m a n < 2 ^ (8 * n) := by
  simpa [readLE] using leNat_lt (readBytes m a n)

/-- A field of bytes read from memory. -/
theorem fieldAt_readBytes (m : Memory) (a : Nat) {n k w : Nat} (h : k + w ≤ n) : fieldAt (readBytes m a n) k w = readLE m (a + k) w := by
  rw [fieldAt, readLE]
  refine congrArg leNat (List.ext_getElem? fun i => ?_)
  simp only [readBytes_eq, List.getElem?_take, List.getElem?_drop, List.getElem?_map]
  by_cases hi : i < w
  · simp [hi, List.getElem?_range (show k + i < n by omega), Nat.add_assoc]
  · simp [hi]

theorem rget_foldl_rput {w n k : Nat} (f : Nat → BitVec w) (h : k < n) :
    rget k ((List.range n).foldl (fun (acc : RMap w) j => rput j (f j) acc) []) = f k := by
  induction n with
  | zero => omega
  | succ n ih =>
    rw [List.range_succ, List.foldl_append, List.foldl_cons, List.foldl_nil]
    by_cases hk : k = n
    · rw [hk, rget_rput_same]
    · rw [rget_rput_other hk, ih (by omega)]

/-! ### A context through a loop over contexts -/

theorem Mach.modCtxs_same {α : Type} (key : α → Nat) (f : α → Ctx → Ctx) (l : List α) : ∀ m : Mach,
    l.foldl (fun (acc : Mach) a => acc.modCtx (key a) (f a)) m = { m with ctxs := (l.foldl (fun (acc : Mach) a => acc.modCtx (key a) (f a)) m).ctxs } := by
  induction l with
  | nil => exact fun _ => rfl
  | cons a l ih =>
    intro m
    rw [List.foldl_cons, ih]
    rfl

section

variable {α : Type} {f : Mach → α → Mach} {key : α → Nat} {x : Nat}

/-- A loop whose steps change one context each leaves every other context. -/
theorem ctx_foldl_other (hf : ∀ (m : Mach) (a : α), key a ≠ x → (f m a).ctx x = m.ctx x) {l : List α} : ∀ {m : Mach}, x ∉ l.map key →
    (l.foldl f m).ctx x = m.ctx x := by
  induction l with
  | nil => exact fun _ => rfl
  | cons a l ih =>
    intro m hx
    obtain ⟨ha, hl⟩ := not_or.1 (mt List.mem_cons.2 hx)
    rw [List.foldl_cons, ih hl, hf m a (Ne.symm ha)]

/-- A loop that comes to a context once leaves it as that step does, whose machine has the context as it was before the loop. -/
theorem ctx_foldl_once (hf : ∀ (m : Mach) (a : α), key a ≠ x → (f m a).ctx x = m.ctx x) {l : List α} (hl : (l.map key).Nodup) {a : α} (ha : a ∈ l)
    (hx : key a = x) : ∀ m : Mach, ∃ n : Mach, n.ctx x = m.ctx x ∧ (l.foldl f m).ctx x = (f n a).ctx x := by
  induction l with
  | nil => cases ha
  | cons b l ih =>
    intro m
    obtain ⟨hb, hl⟩ := List.nodup_cons.1 hl
    obtain rfl | ha := List.mem_cons.1 ha
    · exact ⟨m, rfl, ctx_foldl_other hf (hx ▸ hb)⟩
    · have hbx : key b ≠ x := fun h => hb (h.trans hx.symm ▸ List.mem_map_of_mem ha)
      obtain ⟨n, hn, h⟩ := ih hl ha (f m b)
      exact ⟨n, hn.trans (hf m b hbx), h⟩

end

end Sys2Proof.Machine
end

section
/-! SUPPORT. Contexts that are pre-empted, wake, meet at a barrier and go on, and the delivery of a fault (R29 to R41, R183 to R186, R242, R316,
R317, R319, R330). -/

namespace Sys2Proof.Machine

/-- A group boundary of a context that `f` has just changed, where `f` leaves what it has in its engines (R53, R56). -/
theorem Mach.boundary_modCtx {m : Mach} {x : Nat} {f : Ctx → Ctx} (hv : (f (m.ctx x)).vq = (m.ctx x).vq)
    (hq : (f (m.ctx x)).qq = (m.ctx x).qq) (hx : (f (m.ctx x)).xq = (m.ctx x).xq) (hd : (f (m.ctx x)).drains = (m.ctx x).drains) :
    (m.modCtx x f).boundary x = m.setCtx x (Claims.settledCtx m x (f (m.ctx x))) := by
  have hf : (m.modCtx x f).engineFlags x = m.engineFlags x := by
    simp only [Mach.engineFlags, Mach.xBusy, Mach.localBusy, Mach.core, Mach.modCtx_cores, Mach.modCtx_gops, Mach.modCtx_rets, Mach.modCtx_locq]
    rw [Mach.ctx_modCtx_same, hv, hq, hx, hd]
  simp only [Mach.boundary, hf]
  rw [Mach.modCtx_modCtx]
  rfl

theorem Mach.team?_some {m : Mach} {rid cl : Nat} {t : Team} (h : m.team? rid cl = some t) : t.rid = rid ∧ t.cluster = cl := by
  simpa using List.find?_some h

end Sys2Proof.Machine

namespace Sys2Proof.Claims

open Sys2Proof.Machine

/-- A parked context that wakes (R30, R53). -/
theorem wake_eq (s : State) (x : Nat) (keep : Bool) : s.m.wake x keep = woken s x (keep && (s.m.ctx x).hit) :=
  Mach.boundary_modCtx rfl rfl rfl rfl

theorem preemptionAndWakes : PreemptionAndWakes := by
  intro s x ha
  refine ⟨fun h1 h2 h3 h4 => ?_, fun l h1 h2 h3 => ?_, fun h1 h2 => ?_, fun h1 h2 => ?_, fun l h1 h2 => ?_, fun l h1 h2 h3 => ?_, fun l h1 => ?_,
    fun l k h1 => ?_, fun l h1 => ?_, fun i h1 => ⟨fun h2 => ?_, fun h2 => ?_⟩, fun k h1 h2 => ?_, fun k h1 h2 => ?_⟩
  · refine happens_of_some (f := fun m => m.tryPreempt x) rfl ha ?_
    simp [Mach.tryPreempt, h1, h2, h3, Mach.modCtx]
  · exact happens_of_some (f := fun m => m.tryPreempt x) rfl ha (by simp [Mach.tryPreempt, h1, h2, h3, Mach.modCtx])
  · exact happens_of_none (f := fun m => m.tryPreempt x) rfl (by simp [Mach.tryPreempt, h1])
  · refine happens_of_some (f := fun m => m.resume x) rfl ha ?_
    simp only [Mach.resume, h1, Bool.true_and, bne_iff_ne, ne_eq, h2, not_false_eq_true, if_true]
    exact congrArg some (Mach.boundary_modCtx rfl rfl rfl rfl)
  · refine happens_of_some (f := fun m => m.spinWake x) rfl ha ?_
    simp only [Mach.spinWake, h1, wake_eq, Bool.false_and]
    exact if_pos (by simpa [flagsMoved] using h2)
  · refine happens_of_none (f := fun m => m.spinWake x) rfl ?_
    simp only [Mach.spinWake, h1]
    exact if_neg (by simpa [h2, flagsMoved] using h3)
  · cases h : (s.m.ctx x).hit with
    | true => exact happens_of_some (f := fun m => m.barWake x) rfl ha (by simp [Mach.barWake, h1, h, wake_eq])
    | false => exact happens_of_none (f := fun m => m.barWake x) rfl (by simp [Mach.barWake, h1, h])
  · cases h : (s.m.ctx x).hit with
    | true => exact happens_of_some (f := fun m => m.anyWake x) rfl ha (by simp [Mach.anyWake, h1, h, wake_eq])
    | false => exact happens_of_none (f := fun m => m.anyWake x) rfl (by simp [Mach.anyWake, h1, h])
  · refine happens_of_some (f := fun m => m.lineWake x) rfl ha ?_
    simp only [Mach.lineWake, h1, Mach.wake, Mach.modCtx_modCtx]
    exact congrArg some (Mach.boundary_modCtx rfl rfl rfl rfl)
  · exact happens_of_none (f := fun m => m.lineWake x) rfl (by simp [Mach.lineWake, h1, Mach.inFlight, h2])
  · refine happens_of_some (f := fun m => m.lineWake x) rfl ha ?_
    simp only [Mach.lineWake, h1, Mach.inFlight, List.contains_eq_mem, h2, Mach.wake, Mach.modCtx_modCtx]
    exact congrArg some (Mach.boundary_modCtx rfl rfl rfl rfl)
  · refine happens_of_some (f := fun m => m.flagWake x) rfl ha ?_
    simp only [Mach.flagWake, h1, wake_eq, Bool.false_and]
    exact if_pos (by simpa [flagsMoved] using h2)
  · refine happens_of_none (f := fun m => m.flagWake x) rfl ?_
    simp only [Mach.flagWake, h1]
    exact if_neg (by simpa [flagsMoved] using h2)

/-- A commit of the team's store buffer is what R239 says of it. -/
theorem bufferCommitted_of_commit {m m' : Mach} {rid cl : Nat} (h : m'.gops = (m.commit rid cl).gops) : bufferCommitted m m' rid cl := by
  rw [bufferCommitted, h]
  refine ⟨by simp [Mach.commit], fun j g hj => ⟨_, by simp [Mach.commit, hj]; rfl, fun hg => ?_, fun hg => ?_⟩⟩
  · obtain ⟨h1, h2, h3⟩ := hg
    cases hc : g.committed with
    | true => cases g; simp_all
    | false => simp [h1, h2, h3]
  · exact if_neg (by simpa using fun h1 h2 _ h3 => hg ⟨h1, h2, h3⟩)

theorem settled_iff {s : State} {t : Team} : s.m.settled t = true ↔ teamSettled s t := by
  simp [Mach.settled, teamSettled, and_assoc]

theorem Mach.team?_commit (m : Mach) (r cl rid cluster : Nat) : (m.commit r cl).team? rid cluster = m.team? rid cluster := rfl

/-- The team has met at `tbar` (R36, R38): its checkpoint is taken, its store buffer commits, and the gate names what must yet perform. -/
def met (m : Mach) (t : Team) : Mach :=
  (((m.checkpoint t).modTeam t.rid t.cluster (fun u => { u with ckpt := u.ckpt.map (fun p => (p.1, { p.2 with status := p.2.status.go })) })).commit
    t.rid t.cluster).modTeam t.rid t.cluster (fun u => { u with
      gate := some ((m.gops.filter (fun g => g.rid == t.rid && g.cluster == t.cluster && !g.committed)).map (fun g => g.id)) })

theorem met_team {m : Mach} {t : Team} (h : m.team? t.rid t.cluster = some t) : (met m t).team? t.rid t.cluster = some { t with
    ckpt := t.ctxs.map (fun x => (x, { m.snap x with status := (m.snap x).status.go })), cut := m.nextId, undo := [], full := false
    gate := some ((m.gops.filter (fun g => g.rid == t.rid && g.cluster == t.cluster && !g.committed)).map (fun g => g.id)) } := by
  have h1 := Mach.team?_modTeam_same h (f := fun u => { u with ckpt := t.ctxs.map (fun x => (x, m.snap x)), cut := m.nextId, undo := [], full := false })
    (fun _ => ⟨rfl, rfl⟩)
  have h2 := Mach.team?_modTeam_same h1 (f := fun u => { u with ckpt := u.ckpt.map (fun p => (p.1, { p.2 with status := p.2.status.go })) })
    (fun _ => ⟨rfl, rfl⟩)
  simpa [met, Mach.checkpoint, Function.comp_def] using Mach.team?_modTeam_same ((Mach.team?_commit ..).trans h2) (f := fun u => { u with
      gate := some ((m.gops.filter (fun g => g.rid == t.rid && g.cluster == t.cluster && !g.committed)).map (fun g => g.id)) }) (fun _ => ⟨rfl, rfl⟩)

/-- The contexts that wait at `tbar` go on, each with a group boundary. -/
def goOn (m : Mach) (l : List Nat) : Mach :=
  l.foldl (fun (acc : Mach) x =>
    if (acc.ctx x).status == .parked .tbar then (acc.modCtx x (fun c => { c with status := .run })).boundary x else acc) m

theorem goOn_teams (l : List Nat) : ∀ m : Mach, (goOn m l).teams = m.teams := by
  refine foldl_keeps Mach.teams (fun m x => ?_) l
  split <;> rfl

/-- A context that waits at `tbar` goes on; no other one is changed. -/
theorem goOn_ctx {l : List Nat} (hl : l.Nodup) (m : Mach) (x : Nat) :
    (x ∈ l → (m.ctx x).status = .parked .tbar → ((goOn m l).ctx x).status = .run ∧ ((goOn m l).ctx x).groupW = []) ∧
    (x ∉ l ∨ (m.ctx x).status ≠ .parked .tbar → (goOn m l).ctx x = m.ctx x) := by
  have hother : ∀ (n : Mach) (y : Nat), y ≠ x → (if (n.ctx y).status == .parked .tbar then
      (n.modCtx y (fun c => { c with status := .run })).boundary y else n).ctx x = n.ctx x := fun n y hy => by
    split
    · rw [Mach.boundary_modCtx rfl rfl rfl rfl, Mach.ctx_setCtx_other hy.symm]
    · rfl
  by_cases hx : x ∈ l
  · obtain ⟨n, hn, h⟩ := ctx_foldl_once (key := id) hother (by simpa using hl) hx rfl m
    rw [goOn, h, ← hn]
    refine ⟨fun _ hs => ?_, fun hs => by rw [if_neg (by simpa [hx] using hs)]⟩
    rw [if_pos (by simpa using hs), Mach.boundary_modCtx rfl rfl rfl rfl, Mach.ctx_setCtx_same]
    exact ⟨rfl, rfl⟩
  · exact ⟨fun h => absurd h hx, fun _ => ctx_foldl_other (key := id) hother (by simpa using hx)⟩

theorem teamBarrierAndForcedCheckpoint : TeamBarrierAndForcedCheckpoint := by
  intro s rid cl t ha ht
  obtain ⟨rfl, rfl⟩ := Mach.team?_some ht
  refine ⟨fun h1 h2 h3 => ?_, fun h1 h2 => ?_, fun l h1 h2 h3 => ?_, fun l h1 h2 => ?_, fun h1 h2 h3 h4 => ?_, fun h1 => ?_⟩
  · have hg : t.gate = none := h1.2.2.2
    have hcond : (s.m.settled t && t.ctxs.any (fun x => (s.m.ctx x).status == .parked .tbar) &&
        t.ctxs.all (fun x => (s.m.ctx x).status == .parked .tbar || (s.m.ctx x).status == .ended)) = true := by
      rw [settled_iff.2 h1]
      simpa using ⟨h2, h3⟩
    refine ⟨met s.m t, happens_of_some (f := fun m => m.tbarRelease t.rid t.cluster) rfl ha ?_, bufferCommitted_of_commit rfl, rfl, rfl, _,
      met_team ht, rfl, rfl, rfl, by simp [Function.comp_def], ?_, by simp⟩
    · simp only [Mach.tbarRelease, ht, hg]
      exact if_pos hcond
    · rintro l hl g hg h4 h5 h6
      obtain rfl := Option.some.inj hl
      exact List.mem_map.2 ⟨g, by simp [hg, h4, h5, h6], rfl⟩
  · refine happens_of_none (f := fun m => m.tbarRelease t.rid t.cluster) rfl ?_
    simp only [Mach.tbarRelease, ht, h1]
    refine if_neg fun hc => ?_
    simp only [Bool.and_eq_true, settled_iff, List.all_eq_true, Bool.or_eq_true, beq_iff_eq] at hc
    obtain ⟨⟨hs, -⟩, hall⟩ := hc
    obtain ⟨x, hx, h3, h4⟩ | h2 := h2
    · exact (hall x hx).elim h3 h4
    · exact h2 hs
  · refine ⟨(goOn s.m t.ctxs).modTeam t.rid t.cluster (fun u => { u with gate := none }),
      happens_of_some (f := fun m => m.tbarRelease t.rid t.cluster) rfl ha ?_, fun x => (goOn_ctx h3 s.m x).1, fun x => (goOn_ctx h3 s.m x).2, _,
      Mach.team?_modTeam_same ?_ (fun _ => ⟨rfl, rfl⟩), rfl⟩
    · simp only [Mach.tbarRelease, ht, h1]
      exact if_neg (by simpa using h2)
    · rw [Mach.team?, goOn_teams]
      exact ht
  · refine happens_of_none (f := fun m => m.tbarRelease t.rid t.cluster) rfl ?_
    simp only [Mach.tbarRelease, ht, h1]
    exact if_pos (by simpa using h2)
  · refine ⟨s.m.forced t, happens_of_some (f := fun m => m.bufferFull t.rid t.cluster) rfl ha ?_, bufferCommitted_of_commit rfl, rfl, rfl, _,
      Mach.team?_modTeam_same ht (fun _ => ⟨rfl, rfl⟩), rfl, rfl, rfl, by simp [Function.comp_def], fun x hx hh => ?_⟩
    · simp [Mach.bufferFull, ht, h1, Mach.canForce, h2, h3, h4]
    · have hsnap : s.m.snap x = { regs := (s.m.ctx x).regs, ctl := (s.m.ctx x).ctl, replay := (s.m.ctx x).replay, raised := (s.m.ctx x).raised
                                  status := (s.m.ctx x).status, drains := (s.m.ctx x).drains } := by simp [Mach.snap, hh]
      exact ⟨s.m.snap x, List.mem_map.2 ⟨x, hx, rfl⟩, by rw [hsnap], by rw [hsnap], by rw [hsnap]⟩
  · exact happens_of_none (f := fun m => m.bufferFull t.rid t.cluster) rfl (by simp [Mach.bufferFull, ht, h1])

/-- Of the faults reported, the one with the least issue number is delivered (R317). -/
theorem earliest_eq {r : Report} {l : List Report} : ∀ {a : Report}, r ∈ a :: l → (∀ q ∈ a :: l, q ≠ r → r.no < q.no) →
    l.foldl (fun (a b : Report) => if b.no < a.no then b else a) a = r := by
  induction l with
  | nil => exact fun h _ => (List.mem_singleton.1 h).symm
  | cons b l ih =>
    intro a hr hmin
    have ha := hmin a (by simp)
    have hb := hmin b (by simp)
    refine ih ?_ fun q hq => hmin q ?_
    · obtain rfl | hr := List.mem_cons.1 hr
      · by_cases h : b = r
        · simp [h]
        · simp [Nat.not_lt.2 (hb h).le]
      · obtain rfl | hr := List.mem_cons.1 hr
        · by_cases h : a = r
          · simp [h]
          · simp [ha h]
        · exact List.mem_cons_of_mem _ hr
    · obtain rfl | hq := List.mem_cons.1 hq
      · by_cases h : b.no < a.no <;> simp [h]
      · simp [hq]

theorem deliver_eq {m : Mach} {t : Team} {r : Report} (hr : r ∈ t.reports) (hmin : ∀ q ∈ t.reports, q ≠ r → r.no < q.no) : m.deliver t =
    ((m.rollback t).modTeam t.rid t.cluster (fun u => { u with serving := some r.ctx })).enter r.ctx r.pc (r.cause ||| 0x8000) r.addr := by
  cases hl : t.reports with
  | nil => simp [hl] at hr
  | cons a l =>
    rw [hl] at hr hmin
    simp only [Mach.deliver, hl]
    rw [earliest_eq hr hmin]

theorem mem_zip_range {l : List Nat} {p x : Nat} : (p, x) ∈ List.zip (List.range l.length) l ↔ l[p]? = some x := by
  simp only [List.mem_iff_getElem?, List.getElem?_zip_eq_some]
  constructor
  · rintro ⟨i, hi, hx⟩
    have : i < l.length := (List.getElem?_eq_some_iff.1 hx).1
    simp_all
  · intro h
    have : p < l.length := (List.getElem?_eq_some_iff.1 h).1
    exact ⟨p, by simp [this], h⟩

/-- The snapshot that `ckptg` writes, the contexts' generators in rank order (R330): `l` lists ranks and contexts, `m0` has their registers. -/
def snapshotTo (m0 : Mach) (rid cl loc : Nat) (l : List (Nat × Nat)) (m : Mach) : Mach :=
  l.foldl (fun (acc : Mach) p => acc.logStore rid cl (coreOf p.2) (loc + 128 * p.1) (genBytes (m0.ctx p.2).regs)) m

theorem length_genBytes (r : Regs) : (genBytes r).length = 128 := by simp [genBytes, List.length_flatMap, zeroBytes]

theorem getD_genBytes (r : Regs) {i : Nat} (hi : i < 128) : (genBytes r).getD i 0 = snapshotByte r i := by
  rw [List.getD_eq_getElem?_getD, genBytes, getElem?_flatMap_range (w := 32) (fun k => by simp [zeroBytes]) hi, snapshotByte]
  have hr : i % 32 < 32 := Nat.mod_lt _ (by decide)
  split
  · next h => rw [List.append_assoc, List.getElem?_append_left (by simpa using h), getElem?_vecLE _ h, Option.getD_some]
  · next h =>
    have h16 : 16 ≤ i % 32 := Nat.not_lt.1 h
    split
    · next h' =>
      rw [List.append_assoc, List.getElem?_append_right (by simpa using h16), List.getElem?_append_left (by simp; omega), length_vecLE,
        getElem?_vecLE _ (by omega), Option.getD_some]
    · next h' =>
      rw [List.getElem?_append_right (by simp; omega), zeroBytes, List.getElem?_replicate, if_pos (by simp; omega), Option.getD_some]

theorem snapshotTo_ctx (m0 : Mach) (rid cl loc x : Nat) (l : List (Nat × Nat)) : ∀ m : Mach,
    ((snapshotTo m0 rid cl loc l m).ctx x).regs = (m.ctx x).regs ∧ ((snapshotTo m0 rid cl loc l m).ctx x).status = (m.ctx x).status := by
  refine fun m => ⟨?_, ?_⟩
  · exact foldl_keeps (fun m : Mach => (m.ctx x).regs) (fun m p => by rw [Mach.ctx_logStore]; rfl) l m
  · exact foldl_keeps (fun m : Mach => (m.ctx x).status) (fun m p => by rw [Mach.ctx_logStore]; rfl) l m

theorem readByte_snapshotTo_other {m0 : Mach} {rid cl loc a : Nat} {l : List (Nat × Nat)} : ∀ {m : Mach},
    (∀ p ∈ l, a < loc + 128 * p.1 ∨ loc + 128 * p.1 + 128 ≤ a) → readByte (snapshotTo m0 rid cl loc l m).mem a = readByte m.mem a := by
  induction l with
  | nil => exact fun _ => rfl
  | cons p l ih =>
    intro m h
    rw [snapshotTo, List.foldl_cons, ← snapshotTo, ih (fun q hq => h q (List.mem_cons_of_mem _ hq)), Mach.logStore_mem]
    exact readByte_writeBytes_other _ _ _ _ (by simpa [length_genBytes] using h p (List.mem_cons_self ..))

/-- The bytes of the context of rank `p` in the snapshot. -/
theorem readByte_snapshotTo {m0 : Mach} {rid cl loc : Nat} {l : List (Nat × Nat)} (hl : (l.map (fun p => p.1)).Nodup) {p x i : Nat} (hp : (p, x) ∈ l)
    (hi : i < 128) : ∀ {m : Mach}, readByte (snapshotTo m0 rid cl loc l m).mem (loc + 128 * p + i) = snapshotByte (m0.ctx x).regs i := by
  induction l with
  | nil => cases hp
  | cons q l ih =>
    intro m
    obtain ⟨hq, hl⟩ := List.nodup_cons.1 hl
    rw [snapshotTo, List.foldl_cons, ← snapshotTo]
    obtain rfl | hp := List.mem_cons.1 hp
    · have hne : ∀ q ∈ l, loc + 128 * p + i < loc + 128 * q.1 ∨ loc + 128 * q.1 + 128 ≤ loc + 128 * p + i := fun q hql => by
        have : q.1 ≠ p := fun h => hq (List.mem_map.2 ⟨q, hql, h⟩)
        omega
      rw [readByte_snapshotTo_other hne, Mach.logStore_mem, readByte_writeBytes_same _ _ _ _ (by simpa [length_genBytes] using hi), getD_genBytes _ hi]
    · exact ih hl hp

/-- The contexts of a generator barrier go on, each with a group boundary; `replayg` has loaded their generators from the snapshot (R330): `l` lists
ranks and contexts. -/
def leftBarrier (mem : Memory) (restore : Bool) (loc : Nat) (l : List (Nat × Nat)) (m : Mach) : Mach :=
  l.foldl (fun (acc : Mach) p =>
    if (acc.ctx p.2).status == .ended then acc
    else (acc.modCtx p.2 (fun c => c.leaveGen restore (readBytes mem (loc + 128 * p.1) 128))).boundary p.2) m

theorem leftBarrier_mem (mem : Memory) (restore : Bool) (loc : Nat) (l : List (Nat × Nat)) (m : Mach) :
    (leftBarrier mem restore loc l m).mem = m.mem := by
  refine foldl_keeps Mach.mem (fun m p => ?_) l m
  split <;> rfl

/-- A context after a generator barrier. -/
theorem leftBarrier_ctx (mem : Memory) (restore : Bool) (loc : Nat) {l : List (Nat × Nat)} (hl : (l.map (fun p => p.2)).Nodup) (m : Mach) (x : Nat) :
    (x ∉ l.map (fun p => p.2) ∨ (m.ctx x).status = .ended → (leftBarrier mem restore loc l m).ctx x = m.ctx x) ∧
    ∀ p, (p, x) ∈ l → (m.ctx x).status ≠ .ended → ∃ n : Mach, (leftBarrier mem restore loc l m).ctx x =
      settledCtx n x ((m.ctx x).leaveGen restore (readBytes mem (loc + 128 * p) 128)) := by
  have hother : ∀ (n : Mach) (p : Nat × Nat), p.2 ≠ x → (if (n.ctx p.2).status == .ended then n
      else (n.modCtx p.2 (fun c => c.leaveGen restore (readBytes mem (loc + 128 * p.1) 128))).boundary p.2).ctx x = n.ctx x := fun n p hp => by
    split
    · rfl
    · rw [Mach.boundary_modCtx rfl rfl rfl rfl, Mach.ctx_setCtx_other hp.symm]
  refine ⟨fun hx => ?_, fun p hp hs => ?_⟩
  · by_cases hxl : x ∈ l.map (fun p => p.2)
    · obtain ⟨p, hp, rfl⟩ := List.mem_map.1 hxl
      obtain ⟨n, hn, h⟩ := ctx_foldl_once (key := fun p => p.2) hother hl hp rfl m
      rw [leftBarrier, h, ← hn, if_pos (by simpa [hxl, hn] using hx)]
    · exact ctx_foldl_other (key := fun p => p.2) hother hxl
  · obtain ⟨n, hn, h⟩ := ctx_foldl_once (key := fun p => p.2) hother hl hp rfl m
    refine ⟨n, ?_⟩
    rw [leftBarrier, h, ← hn, if_neg (by simpa [hn] using hs), Mach.boundary_modCtx rfl rfl rfl rfl, Mach.ctx_setCtx_same]

theorem fieldAt_lt (b : List Byte) (k n : Nat) : fieldAt b k n < 2 ^ (8 * n) :=
  Nat.lt_of_lt_of_le (leNat_lt _) (Nat.pow_le_pow_right (by decide) (by simp))

theorem toNat_genCounters (b : List Byte) {k : Nat} (hk : k < 4) : (rget k (genCounters b)).toNat = fieldAt b (32 * k) 16 := by
  rw [genCounters, rget_foldl_rput (fun k => BitVec.ofNat 128 (fieldAt b (32 * k) 16)) hk, BitVec.toNat_ofNat, Nat.mod_eq_of_lt (fieldAt_lt ..)]

theorem toNat_genKeys (b : List Byte) {k : Nat} (hk : k < 4) : (rget k (genKeys b)).toNat = fieldAt b (32 * k + 16) 8 := by
  rw [genKeys, rget_foldl_rput (fun k => BitVec.ofNat 64 (fieldAt b (32 * k + 16) 8)) hk, BitVec.toNat_ofNat, Nat.mod_eq_of_lt (fieldAt_lt ..)]

/-- The location that a context brings to a generator barrier (R330). -/
def brings (m : Mach) (restore : Bool) (x : Nat) : Option Nat :=
  match (m.ctx x).status with
  | .parked (.gen r off _) => if r = restore then some ((m.window x .lk).1 + off.toNat) else none
  | _ => none

theorem snapshotAt_eq (m : Mach) (t : Team) (restore : Bool) : m.snapshotAt t restore = (t.ctxs.filterMap (brings m restore)).head? := rfl

theorem brings_ended {m : Mach} {x : Nat} (restore : Bool) (h : (m.ctx x).status = .ended) : brings m restore x = none := by simp [brings, h]

theorem brings_gen {m : Mach} {restore : Bool} {x : Nat} {off : W64} {c : Ctl} (h : (m.ctx x).status = .parked (.gen restore off c)) :
    brings m restore x = some ((m.window x .lk).1 + off.toNat) := by simp [brings, h]

/-- Where a generator barrier has its snapshot (R330). -/
theorem snapshotAt_of_base {s : State} {t : Team} {restore : Bool} {loc : Nat} (h : snapshotBase s t restore loc) :
    s.m.snapshotAt t restore = some loc := by
  obtain ⟨j, x, off, c, hj, hx, hbefore, rfl⟩ := h
  obtain ⟨hlt, hget⟩ := List.getElem?_eq_some_iff.1 hj
  have hnone : (t.ctxs.take j).filterMap (brings s.m restore) = [] := by
    refine List.filterMap_eq_nil_iff.2 fun y hy => ?_
    obtain ⟨i, hi, hy⟩ := List.mem_take_iff_getElem.1 hy
    exact brings_ended _ (hbefore i y (by omega) (List.getElem?_eq_some_iff.2 ⟨by omega, hy⟩))
  rw [snapshotAt_eq, ← List.take_append_drop j t.ctxs, List.drop_eq_getElem_cons hlt, hget, List.filterMap_append, hnone, List.nil_append,
    List.filterMap_cons_some (brings_gen hx), List.head?_cons]

theorem snapshotAt_isSome {s : State} {t : Team} {restore : Bool} (hx : ∃ x ∈ t.ctxs, (s.m.ctx x).status ≠ .ended)
    (hall : ∀ x ∈ t.ctxs, (s.m.ctx x).status = .ended ∨ ∃ off c, (s.m.ctx x).status = .parked (.gen restore off c)) :
    ∃ loc, s.m.snapshotAt t restore = some loc := by
  obtain ⟨x, hx, hs⟩ := hx
  obtain ⟨off, c, hg⟩ := (hall x hx).resolve_left hs
  have hmem : (s.m.window x .lk).1 + off.toNat ∈ t.ctxs.filterMap (brings s.m restore) := List.mem_filterMap.2 ⟨x, hx, brings_gen hg⟩
  exact Option.isSome_iff_exists.1 (List.isSome_head?.2 (List.ne_nil_of_mem hmem))

/-- Whether the whole team waits at a generator barrier of one kind (R330). -/
def atBarrier (m : Mach) (t : Team) (restore : Bool) : Bool :=
  t.ctxs.all (fun x => (m.ctx x).status == .ended || (m.ctx x).status.barrier == (if restore then 3 else 2))

/-- The machine once a generator barrier with its snapshot at `loc` has been passed. -/
def passed (m : Mach) (t : Team) (restore : Bool) (loc : Nat) : Mach :=
  leftBarrier m.mem restore loc (List.zip (List.range t.ctxs.length) t.ctxs)
    (if restore then m else snapshotTo m t.rid t.cluster loc (List.zip (List.range t.ctxs.length) t.ctxs) m)

theorem settledCtx_genC (m : Mach) (x : Nat) (c : Ctx) : (settledCtx m x c).regs.genC = c.regs.genC := rfl
theorem settledCtx_genK (m : Mach) (x : Nat) (c : Ctx) : (settledCtx m x c).regs.genK = c.regs.genK := rfl
theorem leaveGen_genC (c : Ctx) (b : List Byte) : (c.leaveGen true b).regs.genC = genCounters b := rfl
theorem leaveGen_genK (c : Ctx) (b : List Byte) : (c.leaveGen true b).regs.genK = genKeys b := rfl

/-- A context once a generator barrier has been passed. -/
theorem passed_ctx {m : Mach} {t : Team} (hn : t.ctxs.Nodup) (restore : Bool) (loc x : Nat) :
    (x ∉ t.ctxs ∨ (m.ctx x).status = .ended → ((passed m t restore loc).ctx x).regs = (m.ctx x).regs) ∧
    ∀ p, t.ctxs[p]? = some x → (m.ctx x).status ≠ .ended → ∃ (n : Mach) (c : Ctx), c.regs = (m.ctx x).regs ∧
      (passed m t restore loc).ctx x = settledCtx n x (c.leaveGen restore (readBytes m.mem (loc + 128 * p) 128)) := by
  have hsnd : (List.zip (List.range t.ctxs.length) t.ctxs).map (fun p => p.2) = t.ctxs := List.map_snd_zip (by simp)
  have hctx : ((if restore then m else snapshotTo m t.rid t.cluster loc (List.zip (List.range t.ctxs.length) t.ctxs) m).ctx x).regs = (m.ctx x).regs ∧
      ((if restore then m else snapshotTo m t.rid t.cluster loc (List.zip (List.range t.ctxs.length) t.ctxs) m).ctx x).status = (m.ctx x).status := by
    split
    · exact ⟨rfl, rfl⟩
    · exact snapshotTo_ctx ..
  obtain ⟨hregs, hstatus⟩ := hctx
  obtain ⟨hsame, hleft⟩ := leftBarrier_ctx m.mem restore loc (by rw [hsnd]; exact hn) (if restore then m else
    snapshotTo m t.rid t.cluster loc (List.zip (List.range t.ctxs.length) t.ctxs) m) x
  rw [hsnd, hstatus] at hsame
  refine ⟨fun h => by rw [passed, hsame h, hregs], fun p hp he => ?_⟩
  obtain ⟨n, h⟩ := hleft p (mem_zip_range.2 hp) (by rwa [hstatus])
  exact ⟨n, _, hregs, h⟩

theorem passed_mem_restore (m : Mach) (t : Team) (loc : Nat) : (passed m t true loc).mem = m.mem := leftBarrier_mem ..

/-- Memory once `ckptg` has written its snapshot (R330). -/
theorem readByte_passed (m : Mach) (t : Team) (loc : Nat) :
    (∀ p x i, t.ctxs[p]? = some x → i < 128 → readByte (passed m t false loc).mem (loc + 128 * p + i) = snapshotByte (m.ctx x).regs i) ∧
    ∀ a, a < loc ∨ loc + 128 * t.ctxs.length ≤ a → readByte (passed m t false loc).mem a = readByte m.mem a := by
  have hfst : (List.zip (List.range t.ctxs.length) t.ctxs).map (fun p => p.1) = List.range t.ctxs.length := List.map_fst_zip (by simp)
  have hmem : (passed m t false loc).mem = (snapshotTo m t.rid t.cluster loc (List.zip (List.range t.ctxs.length) t.ctxs) m).mem :=
    leftBarrier_mem ..
  rw [hmem]
  refine ⟨fun p x i hp hi => readByte_snapshotTo (by rw [hfst]; exact List.nodup_range) (mem_zip_range.2 hp) hi,
    fun a ha => readByte_snapshotTo_other fun p hp => ?_⟩
  have : p.1 < t.ctxs.length := (List.getElem?_eq_some_iff.1 (mem_zip_range.1 hp)).1
  omega

theorem genRelease_eq {m : Mach} {t : Team} (ht : m.team? t.rid t.cluster = some t) : m.genRelease t.rid t.cluster =
    if t.serving.isSome || !t.reports.isEmpty || m.locq.any (fun o => t.ctxs.contains o.ctx) then none
    else if atBarrier m t false then (m.snapshotAt t false).map (passed m t false)
    else if atBarrier m t true then (m.snapshotAt t true).map (passed m t true)
    else none := by
  simp only [Mach.genRelease, ht]
  cases m.snapshotAt t false <;> cases m.snapshotAt t true <;> rfl

theorem atBarrier_of_gen {m : Mach} {t : Team} {restore : Bool}
    (hall : ∀ x ∈ t.ctxs, (m.ctx x).status = .ended ∨ ∃ off c, (m.ctx x).status = .parked (.gen restore off c)) : atBarrier m t restore = true := by
  refine List.all_eq_true.2 fun x hx => ?_
  obtain h | ⟨off, c, h⟩ := hall x hx
  · simp [h]
  · cases restore <;> simp [h, Status.barrier]

/-- At a generator barrier of the other kind a context has not come (R330). -/
theorem atBarrier_other {m : Mach} {t : Team} {restore : Bool} {x : Nat} (hx : x ∈ t.ctxs) (he : (m.ctx x).status ≠ .ended)
    (hb : (m.ctx x).status.barrier ≠ (if restore then 3 else 2)) : atBarrier m t restore = false := by
  refine Bool.eq_false_iff.2 fun h => ?_
  simpa [he, hb] using List.all_eq_true.1 h x hx

/-- The whole team waits at a generator barrier, and nothing keeps it there (R330). -/
theorem genRelease_of_gen {s : State} {t : Team} {restore : Bool} (ht : s.m.team? t.rid t.cluster = some t) (hs : t.serving = none)
    (hr : t.reports = []) (hq : ∀ o ∈ s.m.locq, o.ctx ∉ t.ctxs) (hx : ∃ x ∈ t.ctxs, (s.m.ctx x).status ≠ .ended)
    (hall : ∀ x ∈ t.ctxs, (s.m.ctx x).status = .ended ∨ ∃ off c, (s.m.ctx x).status = .parked (.gen restore off c)) :
    ∃ loc, s.m.snapshotAt t restore = some loc ∧ s.m.genRelease t.rid t.cluster = some (passed s.m t restore loc) := by
  obtain ⟨loc, hloc⟩ := snapshotAt_isSome hx hall
  have hbusy : ¬ (t.serving.isSome || !t.reports.isEmpty || s.m.locq.any (fun o => t.ctxs.contains o.ctx)) = true := by simpa [hs, hr] using hq
  refine ⟨loc, hloc, ?_⟩
  rw [genRelease_eq ht, if_neg hbusy]
  cases restore with
  | false => rw [if_pos (atBarrier_of_gen hall), hloc, Option.map_some]
  | true =>
    obtain ⟨x, hx, he⟩ := hx
    obtain ⟨off, c, h⟩ := (hall x hx).resolve_left he
    rw [if_neg (by simp [atBarrier_other hx he (restore := false) (by simp [h, Status.barrier])]), if_pos (atBarrier_of_gen hall), hloc, Option.map_some]

theorem faultDeliveryAndGeneratorRelease : FaultDeliveryAndGeneratorRelease := by
  intro s rid cl t ha ht
  obtain ⟨rfl, rfl⟩ := Mach.team?_some ht
  refine ⟨fun r hr hmin hs hst => ⟨_, happens_of_some (f := fun m => m.tryDeliver t.rid t.cluster) rfl ha ?_, rfl⟩, fun h => ?_,
    fun restore hs hr hq hn hx hall => ?_, fun h => ?_⟩
  · simp only [Mach.tryDeliver, ht]
    rw [if_neg (by simp [hs, hst, List.ne_nil_of_mem hr]), deliver_eq hr hmin]
  · refine happens_of_none (f := fun m => m.tryDeliver t.rid t.cluster) rfl ?_
    simp only [Mach.tryDeliver, ht]
    exact if_pos (by simpa [or_assoc, Option.isSome_iff_ne_none] using h)
  · obtain ⟨loc, hloc, hrel⟩ := genRelease_of_gen ht hs hr hq hx hall
    have hrank : ∀ x ∈ t.ctxs, ∃ p, t.ctxs[p]? = some x := fun x hx => List.mem_iff_getElem?.1 hx
    refine ⟨_, happens_of_some (f := fun m => m.genRelease t.rid t.cluster) rfl ha hrel, fun x hx he => ?_,
      fun x hx => (passed_ctx hn restore loc x).1 (.inl hx), fun hf x hx => ?_, fun hf l hl => ?_, fun hf => ?_⟩
    · obtain ⟨p, hp⟩ := hrank x hx
      obtain ⟨n, c, -, h⟩ := (passed_ctx hn restore loc x).2 p hp he
      rw [h]
      rfl
    · subst hf
      by_cases he : (s.m.ctx x).status = .ended
      · rw [(passed_ctx hn false loc x).1 (.inr he)]
        exact ⟨rfl, rfl⟩
      · obtain ⟨p, hp⟩ := hrank x hx
        obtain ⟨n, c, hc, h⟩ := (passed_ctx hn false loc x).2 p hp he
        rw [h, ← hc]
        exact ⟨rfl, rfl⟩
    · subst hf
      obtain rfl := Option.some.inj ((snapshotAt_of_base hl).symm.trans hloc)
      exact readByte_passed s.m t l
    · subst hf
      refine ⟨passed_mem_restore .., fun l hl p x k hp hk => ⟨fun he => (passed_ctx hn true loc x).1 (.inr he), fun he => ?_⟩⟩
      obtain rfl := Option.some.inj ((snapshotAt_of_base hl).symm.trans hloc)
      obtain ⟨n, c, -, h⟩ := (passed_ctx hn true l x).2 p hp he
      rw [h, settledCtx_genC, settledCtx_genK, leaveGen_genC, leaveGen_genK, toNat_genCounters _ hk, toNat_genKeys _ hk,
        fieldAt_readBytes _ _ (by omega), fieldAt_readBytes _ _ (by omega), ← Nat.add_assoc]
      exact ⟨rfl, rfl⟩
  · refine happens_of_none (f := fun m => m.genRelease t.rid t.cluster) rfl ?_
    obtain ⟨x, hx, he, h2, h3⟩ := h
    simp [genRelease_eq ht, atBarrier_other hx he (restore := false) h2, atBarrier_other hx he (restore := true) h3]

end Sys2Proof.Claims
end

section
/-! SUPPORT. The rollback of a team (R38, R39, R255, R316): what is withdrawn, what its undo log puts back, and the contexts of its checkpoint. -/

namespace Sys2Proof.Machine

/-- What a store may change of a context that it does not belong to (R32, R185): whether a watched line has been hit. -/
def Ctx.NoticedAs (c d : Ctx) : Prop := d = { c with hit := d.hit, spin := d.spin } ∧ Claims.unmarked d.spin = Claims.unmarked c.spin

theorem Ctx.NoticedAs.refl (c : Ctx) : c.NoticedAs c := ⟨rfl, rfl⟩

theorem Ctx.NoticedAs.trans {c d e : Ctx} (h : c.NoticedAs d) (h' : d.NoticedAs e) : c.NoticedAs e := by
  refine ⟨?_, h'.2.trans h.2⟩
  rw [h'.1, h.1]

theorem Ctx.noticedAs_notice (c : Ctx) (ls : List Nat) : c.NoticedAs (c.notice ls) := by
  refine ⟨rfl, ?_⟩
  simp only [Ctx.notice, Claims.unmarked, List.map_map]
  rfl

theorem Mach.undo_ctx (m : Mach) (u : Undo) (x : Nat) : (m.ctx x).NoticedAs ((m.undo u).ctx x) := by
  cases u with
  | line k l old => exact (m.ctx_store l old x).symm ▸ Ctx.noticedAs_notice ..
  | row | child | popped | pushed => exact Ctx.NoticedAs.refl _

theorem Mach.undos_ctx (log : List Undo) (x : Nat) : ∀ m : Mach, (m.ctx x).NoticedAs ((log.foldl Mach.undo m).ctx x) := by
  induction log with
  | nil => exact fun m => Ctx.NoticedAs.refl _
  | cons u log ih => exact fun m => (m.undo_ctx u x).trans (ih (m.undo u))

/-- What an undo entry says of the byte at `a`. -/
def Undo.byte (a : Nat) : Undo → Option Byte
  | .line _ l old => if l ≤ a then old[a - l]? else none
  | _ => none

theorem Mach.readByte_undo (m : Mach) (u : Undo) (a : Nat) : readByte (m.undo u).mem a = (u.byte a).getD (readByte m.mem a) := by
  cases u with
  | line k l old => exact readByte_writeBytes ..
  | row | child | popped | pushed => rfl

theorem Mach.readByte_undos (log : List Undo) (a : Nat) : ∀ m : Mach,
    readByte (log.foldl Mach.undo m).mem a = (log.reverse.findSome? (Undo.byte a)).getD (readByte m.mem a) := by
  induction log with
  | nil => exact fun _ => rfl
  | cons u log ih =>
    intro m
    rw [List.foldl_cons, ih, Mach.readByte_undo, List.reverse_cons, List.findSome?_append]
    cases log.reverse.findSome? (Undo.byte a) <;> simp

/-- What an undo entry says of row `r` of tile `n` of core `k`. -/
def Undo.tileRow (k n r : Nat) : Undo → Option (BitVec 8192 × BitVec 128)
  | .row k' n' r' mant exps => if k' = k ∧ n' = n ∧ r' = r then some (mant, exps) else none
  | _ => none

def Mach.tileRow (m : Mach) (k n r : Nat) : BitVec 8192 × BitVec 128 := (rget r ((m.core k).tile n).mant, rget r ((m.core k).tile n).exps)

theorem Mach.tileRow_modCore (m : Mach) (j k n r : Nat) {f : Core → Core} (hf : ∀ c, (f c).tiles = c.tiles) :
    (m.modCore j f).tileRow k n r = m.tileRow k n r := by
  by_cases h : k = j
  · subst h
    simp only [Mach.tileRow, Mach.core_modCore_same, Core.tile, hf]
  · simp only [Mach.tileRow, Mach.core_modCore_other h]

theorem Core.setRow_tile_same (c : Core) (t r : Nat) (mant : BitVec 8192) (exps : BitVec 128) :
    (c.setRow t r mant exps).tile t = { mant := rput r mant (c.tile t).mant, exps := rput r exps (c.tile t).exps } := by
  simp only [Core.tile, Core.setRow, kmod, kgetD_kput_same]

theorem Core.setRow_tile_other {n t : Nat} (h : n ≠ t) (c : Core) (r : Nat) (mant : BitVec 8192) (exps : BitVec 128) :
    (c.setRow t r mant exps).tile n = c.tile n := by
  simp only [Core.tile, Core.setRow, kmod, kgetD_kput_other _ h]

theorem Mach.tileRow_undo (m : Mach) (u : Undo) (k n r : Nat) : (m.undo u).tileRow k n r = (u.tileRow k n r).getD (m.tileRow k n r) := by
  cases u with
  | line | child => rfl
  | popped | pushed => exact m.tileRow_modCore _ k n r fun _ => rfl
  | row k' n' r' mant exps =>
    by_cases hk : k = k'
    · subst hk
      by_cases hn : n = n'
      · subst hn
        by_cases hr : r = r'
        · simp [Mach.undo, Mach.tileRow, Undo.tileRow, Core.setRow_tile_same, hr]
        · simp [Mach.undo, Mach.tileRow, Undo.tileRow, Core.setRow_tile_same, rget_rput_other hr, Ne.symm hr]
      · simp [Mach.undo, Mach.tileRow, Undo.tileRow, Core.setRow_tile_other hn, Ne.symm hn]
    · simp [Mach.undo, Mach.tileRow, Undo.tileRow, Mach.core_modCore_other hk, Ne.symm hk]

theorem Mach.tileRow_undos (log : List Undo) (k n r : Nat) : ∀ m : Mach,
    (log.foldl Mach.undo m).tileRow k n r = (log.reverse.findSome? (Undo.tileRow k n r)).getD (m.tileRow k n r) := by
  induction log with
  | nil => exact fun _ => rfl
  | cons u log ih =>
    intro m
    rw [List.foldl_cons, ih, Mach.tileRow_undo, List.reverse_cons, List.findSome?_append]
    cases log.reverse.findSome? (Undo.tileRow k n r) <;> simp

/-- The global operations after a rollback's writes are those before, but for what a read that has been passed has taken (R240). -/
def SameButGot (l l' : List GOp) : Prop := List.Forall₂ (fun g h => h = { g with got := h.got }) l l'

theorem SameButGot.trans {l l' l'' : List GOp} (h : SameButGot l l') (h' : SameButGot l' l'') : SameButGot l l'' := by
  induction h generalizing l'' with
  | nil => cases h'; exact .nil
  | cons hg _ ih =>
    cases h' with
    | cons hg' h' => exact .cons (by rw [hg', hg]) (ih h')

theorem SameButGot.of_mem {l l' : List GOp} {h : GOp} (hs : SameButGot l l') (hh : h ∈ l') : ∃ g ∈ l, h = { g with got := h.got } := by
  induction hs with
  | nil => cases hh
  | @cons g _ _ _ hg _ ih =>
    obtain rfl | hh := List.mem_cons.1 hh
    · exact ⟨g, List.mem_cons_self .., hg⟩
    · obtain ⟨k, hk, e⟩ := ih hh
      exact ⟨k, List.mem_cons_of_mem _ hk, e⟩

theorem SameButGot.mem {l l' : List GOp} {g : GOp} (hs : SameButGot l l') (hg : g ∈ l) : ∃ h ∈ l', h = { g with got := h.got } := by
  induction hs with
  | nil => cases hg
  | @cons _ h _ _ he _ ih =>
    obtain rfl | hg := List.mem_cons.1 hg
    · exact ⟨h, List.mem_cons_self .., he⟩
    · obtain ⟨k, hk, e⟩ := ih hg
      exact ⟨k, List.mem_cons_of_mem _ hk, e⟩

theorem GOp.overtaken_same (g : GOp) (mem : Memory) (loc n : Nat) : g.overtaken mem loc n = { g with got := (g.overtaken mem loc n).got } := by
  simp only [GOp.overtaken]
  split <;> rfl

theorem Mach.undo_gops (m : Mach) (u : Undo) : SameButGot m.gops (m.undo u).gops := by
  cases u with
  | line k l old => exact List.forall₂_map_right_iff.2 (List.forall₂_same.2 fun g _ => g.overtaken_same ..)
  | row | child | popped | pushed => exact List.forall₂_same.2 fun _ _ => rfl

theorem Mach.undos_gops (log : List Undo) : ∀ m : Mach, SameButGot m.gops (log.foldl Mach.undo m).gops := by
  induction log with
  | nil => exact fun m => List.forall₂_same.2 fun _ _ => rfl
  | cons u log ih => exact fun m => (m.undo_gops u).trans (ih (m.undo u))

theorem Mach.run?_modRun (m : Mach) (i r : Nat) {f : Run → Run} (hf : ∀ q, (f q).id = q.id) :
    (m.modRun r f).run? i = (m.run? i).map (fun q => if q.id == r then f q else q) := by
  simp only [Mach.run?, Mach.modRun_runs, modWhere, List.find?_map]
  congr 2
  funext q
  simp only [Function.comp]
  split <;> simp [hf]

/-- A rollback's log may take a run's child back, and leaves the rest of its record (R24, R37). -/
theorem Mach.undo_run {m : Mach} {i : Nat} {r : Run} (u : Undo) (h : m.run? i = some r) : ∃ c, (m.undo u).run? i = some { r with child := c } := by
  cases u with
  | line | row | popped | pushed => exact ⟨r.child, h⟩
  | child j =>
    refine ⟨if r.id == j then none else r.child, ?_⟩
    rw [Mach.undo, Mach.run?_modRun (f := fun q => { q with child := none }) _ _ _ fun _ => rfl, h, Option.map_some]
    split <;> rfl

theorem Mach.undos_run {i : Nat} (log : List Undo) : ∀ {m : Mach} {r : Run}, m.run? i = some r →
    ∃ c, (log.foldl Mach.undo m).run? i = some { r with child := c } := by
  induction log with
  | nil => exact fun {m r} h => ⟨r.child, h⟩
  | cons u log ih =>
    intro m r h
    obtain ⟨c, h⟩ := Mach.undo_run u h
    obtain ⟨d, h⟩ := ih h
    exact ⟨d, h⟩

theorem Mach.undos_teams (log : List Undo) (m : Mach) : (log.foldl Mach.undo m).teams = m.teams :=
  foldl_keeps Mach.teams (fun m u => by cases u <;> rfl) log m
theorem Mach.undos_irqs (log : List Undo) (m : Mach) : (log.foldl Mach.undo m).irqs = m.irqs :=
  foldl_keeps Mach.irqs (fun m u => by cases u <;> rfl) log m
theorem Mach.undos_streams (log : List Undo) (m : Mach) : (log.foldl Mach.undo m).streams = m.streams :=
  foldl_keeps Mach.streams (fun m u => by cases u <;> rfl) log m

/-- The contexts of the team's checkpoint restored; `m0` is the machine before the rollback. -/
def Mach.restored (m0 : Mach) (t : Team) (m : Mach) : Mach :=
  t.ckpt.foldl (fun (acc : Mach) p => acc.modCtx p.1 (fun c => c.restore p.2 t.cut (m0.pendingStill p.1))) m

theorem Mach.restored_same (m0 : Mach) (t : Team) (m : Mach) : m0.restored t m = { m with ctxs := (m0.restored t m).ctxs } :=
  Mach.modCtxs_same (fun p : Nat × Snap => p.1) (fun p c => c.restore p.2 t.cut (m0.pendingStill p.1)) t.ckpt m

theorem Mach.restored_ctx (m0 : Mach) {t : Team} (m : Mach) (x : Nat) (ht : (t.ckpt.map (fun p => p.1)).Nodup) :
    (∀ n, (x, n) ∈ t.ckpt → (m0.restored t m).ctx x = (m.ctx x).restore n t.cut (m0.pendingStill x)) ∧
    ((∀ n, (x, n) ∉ t.ckpt) → (m0.restored t m).ctx x = m.ctx x) := by
  have hother : ∀ (n : Mach) (p : Nat × Snap), p.1 ≠ x →
      (n.modCtx p.1 (fun c => c.restore p.2 t.cut (m0.pendingStill p.1))).ctx x = n.ctx x := fun n p hp => Mach.ctx_modCtx_other (Ne.symm hp) ..
  refine ⟨fun n hn => ?_, fun h => ?_⟩
  · obtain ⟨k, hk, h⟩ := ctx_foldl_once (key := fun p => p.1) hother ht hn rfl m
    rw [Mach.restored, h, Mach.ctx_modCtx_same, hk]
  · refine ctx_foldl_other (key := fun p => p.1) hother fun hx => ?_
    obtain ⟨⟨_, n⟩, hn, rfl⟩ := List.mem_map.1 hx
    exact h n hn

theorem Mach.ctx_count (m : Mach) (r k n x : Nat) : (m.count r k n).ctx x = m.ctx x := rfl

theorem Mach.ctx_modTeam (m : Mach) (r cl x : Nat) (f : Team → Team) : (m.modTeam r cl f).ctx x = m.ctx x := rfl

/-- A rollback: what is withdrawn leaves the machine `m1`, to which the undo log is applied; the contexts of the checkpoint are then restored. -/
theorem Mach.rollback_eq (m : Mach) (t : Team) : ∃ m1 : Mach,
    m.rollback t = ((m.restored t (t.undo.foldl Mach.undo m1)).modTeam t.rid t.cluster
      (fun u => { u with undo := [], full := false, reports := [] })).count t.rid 4 1 ∧
    m1.gops = (m.gops.filter (fun g => !withdrawn t g)).map (fun g => g.orphan t) ∧ m1.mem = m.mem ∧ m1.ctxs = m.ctxs ∧ m1.teams = m.teams ∧
    m1.runs = m.runs ∧ m1.irqs = m.irqs ∧ m1.streams = m.streams ∧ ∀ k, (m1.core k).tiles = (m.core k).tiles := by
  refine ⟨_, rfl, rfl, rfl, rfl, rfl, rfl, rfl, rfl, fun k => ?_⟩
  simp only [Mach.core, kgetD, kget_map k (fun c : Core => { c with mq := c.mq.filterMap (m.keptM t) })]
  cases kget k m.cores <;> rfl

end Sys2Proof.Machine

namespace Sys2Proof.Claims

open Sys2Proof.Machine

theorem oldByte_eq (log : List Undo) (a : Nat) : oldByte log a = log.reverse.findSome? (Undo.byte a) := rfl

theorem oldRow_eq (log : List Undo) (k n r : Nat) : oldRow log k n r = log.reverse.findSome? (Undo.tileRow k n r) := rfl

/-- A store or a reduction of the team that a rollback has not withdrawn was committed (R39). -/
theorem committed_of_kept {t : Team} {g : GOp} (hw : withdrawn t g = false) (hr : g.rid = t.rid) (hc : g.cluster = t.cluster)
    (ha : (∃ b, g.act = .store b) ∨ ∃ o ws, g.act = .red o ws) : g.committed = true := by
  obtain ⟨b, ha⟩ | ⟨o, ws, ha⟩ := ha <;> simpa [withdrawn, hr, hc, ha] using hw

theorem kept_of_stays {t : Team} {g : GOp} (h : stays t g) : withdrawn t g = false ∧ g.orphan t = g := by
  obtain h | ⟨hc, ha⟩ := h
  · have ho : ¬ (g.rid == t.rid && g.cluster == t.cluster) = true := by simpa using h
    exact ⟨by simp [withdrawn, Bool.eq_false_iff.2 ho], if_neg ho⟩
  · obtain ⟨b, ha⟩ | ⟨o, ws, ha⟩ := ha <;> simp [withdrawn, GOp.orphan, ha, hc]

theorem orphan_same (t : Team) (g : GOp) : (g.orphan t).rid = g.rid ∧ (g.orphan t).cluster = g.cluster ∧ (g.orphan t).committed = g.committed ∧
    (((∃ b, (g.orphan t).act = .store b) ∨ ∃ o ws, (g.orphan t).act = .red o ws) → (∃ b, g.act = .store b) ∨ ∃ o ws, g.act = .red o ws) := by
  simp only [GOp.orphan]
  split
  · split
    · refine ⟨rfl, rfl, rfl, ?_⟩
      simp
    · exact ⟨rfl, rfl, rfl, id⟩
  · exact ⟨rfl, rfl, rfl, id⟩

theorem rollbackRestoresTheTeam : RollbackRestoresTheTeam := by
  intro m t ht hn
  obtain ⟨m1, hroll, hgops, hmem, hctxs, hteams, hruns, hirqs, hstreams, htiles⟩ := m.rollback_eq t
  have hres := Mach.restored_same m t (t.undo.foldl Mach.undo m1)
  have hctx : ∀ x, m1.ctx x = m.ctx x := fun x => by rw [Mach.ctx, hctxs, Mach.ctx]
  have hnoticed : ∀ x, (m.ctx x).NoticedAs ((t.undo.foldl Mach.undo m1).ctx x) := fun x => hctx x ▸ Mach.undos_ctx t.undo x m1
  have hsame : SameButGot m1.gops (t.undo.foldl Mach.undo m1).gops := Mach.undos_gops t.undo m1
  rw [hroll]
  refine ⟨fun h hh hr hc ha => ?_, fun g hg hs => ?_, fun a => ?_, fun k n r => ?_, fun x n hx => ?_, fun x hx => ?_, ?_, fun r hr => ?_, ?_, ?_⟩
  · rw [Mach.count_gops, Mach.modTeam_gops, hres] at hh
    obtain ⟨g, hg, e⟩ := hsame.of_mem hh
    rw [hgops] at hg
    obtain ⟨g0, hg0, rfl⟩ := List.mem_map.1 hg
    obtain ⟨-, hw⟩ := List.mem_filter.1 hg0
    obtain ⟨er, ec, ecom, eact⟩ := orphan_same t g0
    rw [e] at hr hc ha ⊢
    rw [ecom]
    exact committed_of_kept (by simpa using hw) (er ▸ hr) (ec ▸ hc) (eact ha)
  · obtain ⟨hw, ho⟩ := kept_of_stays hs
    rw [Mach.count_gops, Mach.modTeam_gops, hres]
    refine hsame.mem ?_
    rw [hgops]
    exact List.mem_map.2 ⟨g, List.mem_filter.2 ⟨hg, by simp [hw]⟩, ho⟩
  · rw [Mach.count_mem, Mach.modTeam_mem, hres, oldByte_eq, ← hmem]
    exact Mach.readByte_undos ..
  · have hrow : m1.tileRow k n r = m.tileRow k n r := by simp only [Mach.tileRow, Core.tile, htiles]
    have h := Mach.tileRow_undos t.undo k n r m1
    rw [hrow] at h
    rw [oldRow_eq, Mach.core, Mach.count_cores, Mach.modTeam_cores, hres]
    exact h
  · have hc := (Mach.restored_ctx m (t.undo.foldl Mach.undo m1) x hn).1 n hx
    obtain ⟨hit, spin, hd⟩ : ∃ hit spin, (t.undo.foldl Mach.undo m1).ctx x = { m.ctx x with hit := hit, spin := spin } := ⟨_, _, (hnoticed x).1⟩
    rw [hd] at hc
    rw [Mach.ctx_count, Mach.ctx_modTeam, hc]
    exact ⟨rfl, rfl, rfl, rfl, rfl, rfl, rfl, rfl, rfl, rfl, fun hh => by simp [Ctx.restore, Mach.pendingStill, hh], rfl, rfl⟩
  · have hc := (Mach.restored_ctx m (t.undo.foldl Mach.undo m1) x hn).2 hx
    rw [Mach.ctx_count, Mach.ctx_modTeam, hc]
    exact hnoticed x
  · have h : (m.restored t (t.undo.foldl Mach.undo m1)).team? t.rid t.cluster = some t := by
      rw [Mach.team?, hres, Mach.undos_teams, hteams]
      exact ht
    exact Mach.team?_modTeam_same h fun _ => ⟨rfl, rfl⟩
  · have h1 : m1.run? t.rid = some r := by rw [Mach.run?, hruns]; exact hr
    obtain ⟨c, h2⟩ := Mach.undos_run t.undo h1
    rw [Mach.count, Mach.run?_modRun (f := fun q => { q with cnt := rput 4 (rget 4 q.cnt + BitVec.ofNat 64 1) q.cnt }) _ _ _ fun _ => rfl]
    have h3 : ((m.restored t (t.undo.foldl Mach.undo m1)).modTeam t.rid t.cluster
        (fun u => { u with undo := [], full := false, reports := [] })).run? t.rid = some { r with child := c } := by
      rw [Mach.run?, Mach.modTeam_runs, hres]
      exact h2
    have hid : r.id = t.rid := by simpa using List.find?_some hr
    rw [h3, Option.map_some, if_pos (by simpa using hid)]
    exact ⟨_, rfl, rget_rput_same .., rfl, rfl⟩
  · rw [Mach.count_irqs, Mach.modTeam_irqs, hres, Mach.undos_irqs, hirqs]
  · rw [Mach.count_streams, Mach.modTeam_streams, hres, Mach.undos_streams, hstreams]

/-- Settles O41: a wake is one change of the context and a group boundary, a barrier's release a loop that comes to each context once; the rollback is
the machine without what is withdrawn, its undo log folded over it, oldest record last, and the contexts of the checkpoint put back one by one. -/
theorem contextsWakeMeetAndAreReleased : Obligations.ContextsWakeMeetAndAreReleased :=
  ⟨preemptionAndWakes, teamBarrierAndForcedCheckpoint, faultDeliveryAndGeneratorRelease, rollbackRestoresTheTeam⟩

end Sys2Proof.Claims
end

section
/-! SUPPORT. Engine operations as they begin and complete (R55, R110, R190, R205, R216, R245). -/

namespace Sys2Proof.Machine

/-- Nothing is changed where no element satisfies `f`. -/
theorem modWhere_none {α : Type} {f : α → Bool} {g : α → α} {l : List α} (h : ∀ y ∈ l, f y = false) : modWhere f g l = l :=
  (List.map_congr_left fun y hy => by rw [h y hy]; rfl).trans (List.map_id' l)

/-- The element of a list that alone satisfies `f` is changed in its place. -/
theorem modWhere_append {α : Type} {f : α → Bool} {g : α → α} {a b : List α} {x : α} (h : ∀ y ∈ a ++ b, f y = false) (hx : f x = true) :
    modWhere f g (a ++ x :: b) = a ++ g x :: b := by
  have ha : modWhere f g a = a := modWhere_none fun y hy => h y (List.mem_append_left _ hy)
  have hb : modWhere f g b = b := modWhere_none fun y hy => h y (List.mem_append_right _ hy)
  rw [modWhere] at ha hb
  rw [modWhere, List.map_append, List.map_cons, ha, hb, if_pos hx]

theorem mem_modWhere {α : Type} {f : α → Bool} {g : α → α} {l : List α} {y : α} (h : y ∈ modWhere f g l) :
    ∃ x ∈ l, y = if f x then g x else x := by
  obtain ⟨x, hx, rfl⟩ := List.mem_map.1 h
  exact ⟨x, hx, rfl⟩

theorem ready_iff {m : Mach} {needs : List Nat} : m.ready needs = true ↔ Claims.needsMet m needs := by
  simp [Mach.ready, Mach.inFlight, Claims.needsMet]

/-! ### Which operation begins (R245) -/

section

variable {m : Mach} {id : Nat}

/-- An operation heads a V or QC queue when it has not begun and what it waits for is over. -/
theorem headV_cons {o : VOp} (rest : List VOp) (hb : o.begun = false) (hn : Claims.needsMet m o.needs) : m.headV (o :: rest) o.id = true := by
  simp [Mach.headV, hb, ready_iff.2 hn]

theorem beginV_cons {o : VOp} {rest : List VOp} (h : ∀ q ∈ rest, q.id ≠ o.id) : beginV (o :: rest) o.id = { o with begun := true } :: rest :=
  modWhere_append (a := []) (fun q hq => by simpa using h q (by simpa using hq)) (by simp)

theorem engineBegin_vq {x : Nat} {c : Ctx} (hx : (x, c) ∈ m.ctxs) (h : m.headV c.vq id = true) (hu : ∀ p ∈ m.ctxs, m.headV p.2.vq id = true → p = (x, c)) :
    m.engineBegin id = some (m.modCtx x (fun c => { c with vq := beginV c.vq id })) := by
  rw [Mach.engineBegin, find?_eq_of_unique (p := fun p : Nat × Ctx => m.headV p.2.vq id) hx h hu]

theorem engineBegin_qq {x : Nat} {c : Ctx} (hv : ∀ p ∈ m.ctxs, m.headV p.2.vq id = false) (hx : (x, c) ∈ m.ctxs) (h : m.headV c.qq id = true)
    (hu : ∀ p ∈ m.ctxs, m.headV p.2.qq id = true → p = (x, c)) :
    m.engineBegin id = some (m.modCtx x (fun c => { c with qq := beginV c.qq id })) := by
  rw [Mach.engineBegin, List.find?_eq_none.2 (fun p hp => by simp [hv p hp]),
    find?_eq_of_unique (p := fun p : Nat × Ctx => m.headV p.2.qq id) hx h hu]

theorem engineBegin_xq {x : Nat} {o : EngOp} (hv : ∀ p ∈ m.ctxs, m.headV p.2.vq id = false ∧ m.headV p.2.qq id = false)
    (ho : m.ctxs.findSome? (fun p => (p.2.xq.find? (fun o => o.id == id && !o.begun)).map (fun o => (p.1, o))) = some (x, o)) :
    m.engineBegin id = m.beginX x o := by
  rw [Mach.engineBegin, List.find?_eq_none.2 (fun p hp => by simp [(hv p hp).1]), List.find?_eq_none.2 (fun p hp => by simp [(hv p hp).2]), ho]

/-- No V, QC or X operation of that number is to begin. -/
theorem xq_none (hv : ∀ p ∈ m.ctxs, ∀ q ∈ p.2.xq, q.id = id → q.begun = true) :
    m.ctxs.findSome? (fun p => (p.2.xq.find? (fun o => o.id == id && !o.begun)).map (fun o => (p.1, o))) = none := by
  refine List.findSome?_eq_none_iff.2 fun p hp => ?_
  rw [Option.map_eq_none_iff, List.find?_eq_none]
  simpa using fun q hq e => hv p hp q hq e

theorem engineBegin_mq {k : Nat} {c : Core} (hv : ∀ p ∈ m.ctxs, m.headV p.2.vq id = false ∧ m.headV p.2.qq id = false ∧
    ∀ q ∈ p.2.xq, q.id = id → q.begun = true) (hk : m.cores.find? (fun p => p.2.mq.any (fun o => o.id == id)) = some (k, c)) :
    m.engineBegin id = m.beginM k id := by
  rw [Mach.engineBegin, List.find?_eq_none.2 (fun p hp => by simp [(hv p hp).1]), List.find?_eq_none.2 (fun p hp => by simp [(hv p hp).2.1]),
    xq_none fun p hp => (hv p hp).2.2, hk]

theorem engineBegin_gop {g : GOp} (hv : Claims.noEngineHas m id) (hg : m.gops.find? (fun g => g.id == id && !g.needs.isEmpty && !g.isFeed) = some g) :
    m.engineBegin id = m.beginG g := by
  obtain ⟨hc, hk⟩ := hv
  rw [Mach.engineBegin, List.find?_eq_none.2 (fun p hp => by simp [(hc p hp).1]), List.find?_eq_none.2 (fun p hp => by simp [(hc p hp).2.1]),
    xq_none fun p hp => (hc p hp).2.2, List.find?_eq_none.2 (fun p hp => by simpa using hk p hp), hg]

end

/-! ### Reads that take their team's bytes again (R245) -/

theorem Mach.retake_same (m : Mach) (g : GOp) : m.retake g = { m with gops := (m.retake g).gops } := by
  simp only [Mach.retake]
  split <;> rfl

theorem Mach.retakes_same (l : List GOp) : ∀ m : Mach, l.foldl Mach.retake m = { m with gops := (l.foldl Mach.retake m).gops } := by
  induction l with
  | nil => exact fun _ => rfl
  | cons g l ih =>
    intro m
    rw [List.foldl_cons, ih, Mach.retake_same]

/-- A read that takes its team's bytes again changes what reads have taken and seen, of no operation anything else. -/
theorem Mach.mem_gops_retake {m : Mach} {g h : GOp} (hh : h ∈ (m.retake g).gops) : ∃ h0 ∈ m.gops, h = { h0 with own := h.own, seen := h.seen } := by
  simp only [Mach.retake] at hh
  split at hh
  · obtain hh | hh := List.mem_append.1 hh
    · obtain ⟨h0, h0m, rfl⟩ := List.mem_map.1 hh
      refine ⟨h0, (List.takeWhile_sublist _).subset h0m, ?_⟩
      split <;> rfl
    · obtain ⟨h0, h0m, rfl⟩ := List.mem_map.1 hh
      refine ⟨h0, (List.dropWhile_sublist _).subset h0m, ?_⟩
      split <;> rfl
  · exact ⟨h, hh, rfl⟩

/-! ### M operations -/

/-- Whether a read feeds the M operation `id` (R221). -/
def feeds (id : Nat) (g : GOp) : Bool :=
  match g.act with
  | .read (.feed i) => i == id
  | _ => false

theorem feeds_iff {id : Nat} {g : GOp} : feeds id g = true ↔ g.act = .read (.feed id) := by
  simp only [feeds]
  split
  · next i h => simp [h]
  · next h => simpa using fun e => h id e

/-- The M operation that heads its core's queue begins, with the read of its feed (R216, R245). -/
theorem beginM_eq {m : Mach} {k : Nat} {e : EngOp} {before after : List EngOp} (h : Claims.nextM m k e before after) :
    m.beginM k e.id = some ({ m with
      gops := modWhere (feeds e.id) (fun g => { g with needs := [] })
        ((m.gops.filter (fun g => feeds e.id g && !g.needs.isEmpty)).foldl Mach.retake m).gops }.modCore k
      (fun c => { c with mq := before ++ { e with begun := true } :: after })) := by
  obtain ⟨hq, hbefore, hb, hids, -, -, hneeds, -⟩ := h
  have hfind : (m.core k).mq.find? (fun o => !o.begun) = some e := by
    rw [hq, List.find?_append, List.find?_eq_none.2 fun q hq => by simp [hbefore q hq], Option.none_or, List.find?_cons_of_pos (by simp [hb])]
  have hmq : modWhere (fun p : EngOp => p.id == e.id) (fun p => { p with begun := true }) (m.core k).mq = before ++ { e with begun := true } :: after := by
    rw [hq]
    exact modWhere_append (fun q hq => by simpa using hids q hq) (by simp)
  simp only [Mach.beginM, hfind]
  rw [if_neg (by simp [ready_iff.2 hneeds])]
  have hgops : ∀ l : List GOp, ({ l.foldl Mach.retake m with
      gops := modWhere (feeds e.id) (fun g => { g with needs := [] }) (l.foldl Mach.retake m).gops } : Mach) =
      { m with gops := modWhere (feeds e.id) (fun g => { g with needs := [] }) (l.foldl Mach.retake m).gops } := fun l => by
    rw [Mach.retakes_same]
  refine congrArg some ?_
  refine (congrArg (fun n : Mach => n.modCore k (fun c =>
    { c with mq := modWhere (fun p : EngOp => p.id == e.id) (fun p => { p with begun := true }) c.mq })) (hgops _)).trans ?_
  simp only [Mach.modCore, Mach.core] at hmq ⊢
  rw [hmq]
  rfl

/-- The read of the feed goes with its operation; where there is none, the global operations stay as they are (R245). -/
theorem feed_begins (id : Nat) (l : List GOp) :
    (∀ g ∈ modWhere (feeds id) (fun g => { g with needs := [] }) l, g.act = .read (.feed id) → g.needs = []) ∧
    ((∀ g ∈ l, g.act ≠ .read (.feed id)) → modWhere (feeds id) (fun g => { g with needs := [] }) l = l) := by
  refine ⟨fun g hg ha => ?_, fun h => modWhere_none fun g hg => Bool.eq_false_iff.2 fun hf => h g hg (feeds_iff.1 hf)⟩
  obtain ⟨g0, -, rfl⟩ := mem_modWhere hg
  by_cases hf : feeds id g0 = true
  · rw [if_pos hf]
  · rw [if_neg hf] at ha
    exact absurd (feeds_iff.2 ha) hf

theorem Mach.withRows_same (m : Mach) (o : EngOp) (k : Nat) (rows : List (Nat × Nat × Nat)) (f : Mach → Mach) :
    m.withRows o k rows f = { f m with teams := (m.withRows o k rows f).teams } := by
  simp only [Mach.withRows]
  split <;> rfl

/-- What a completed M operation leaves of its context: its vector registers, and the flags that wait for the group boundary (R110, R216). -/
def Ctx.afterM (c : Ctx) (id : Nat) (vW : List (Nat × VReg)) (fl : BitVec 5) : Ctx :=
  ({ c.written vW [] [] with xfM := c.xfM ||| fl } : Ctx).owed 0 id fl

/-- An M operation completes with its whole effect on its core (R216). -/
theorem mComplete_some {m : Mach} {k : Nat} {e : EngOp} {rest : List EngOp} (hq : (m.core k).mq = e :: rest) (hb : e.begun = true) (hf : e.fed = true)
    (hi : e.ins ≠ .nop) : ∃ m' : Mach, m.mComplete k = some m' ∧
    m'.cores = kput k { ((m.core k).perform e (e.gather m.mem)).1 with mq := rest } m.cores ∧ m'.mem = m.mem ∧
    m'.ctxs = (m.modCtx e.ctx (fun c => c.afterM e.id ((m.core k).perform e (e.gather m.mem)).2.1 ((m.core k).perform e (e.gather m.mem)).2.2)).ctxs ∧
    m'.ops = m.ops.filter (fun i => i != e.id) := by
  have hbegun : (!e.begun || !e.fed) = false := by simp [hb, hf]
  simp only [Mach.mComplete, hq]
  rw [if_neg (by simp [hbegun])]
  generalize (m.core k).perform e (e.gather m.mem) = out
  rw [Mach.withRows_same]
  refine ⟨_, rfl, ?_, rfl, rfl, rfl⟩
  simp only [Mach.finish_cores, Mach.modCore_cores, Mach.core, Mach.modCtx_cores, kgetD_kput_same, kput_kput]

/-! ### LG operations that waited (R245) -/

/-- A store enters its team's buffer (R23, R185, R245): its token is complete, and the buffer may be committed with it. -/
theorem enterBuffer_eq (m : Mach) (g : GOp) (segs : List Seg) : (m.enterBuffer g segs).mem = m.mem ∧ (m.enterBuffer g segs).ops = m.ops.filter (fun k => k != g.id) ∧
    ((m.enterBuffer g segs).gops = m.gops ∨ (m.enterBuffer g segs).gops = (m.commit g.rid g.cluster).gops) := by
  have hfull : ∀ n : Mach, (n.checkFull g.rid g.cluster).mem = n.mem ∧ (n.checkFull g.rid g.cluster).ops = n.ops ∧
      (n.checkFull g.rid g.cluster).gops = n.gops := fun n => by
    simp only [Mach.checkFull]
    split <;> exact ⟨rfl, rfl, rfl⟩
  have hended : ∀ n : Mach, n.commitEnded g.rid g.cluster = n ∨ n.commitEnded g.rid g.cluster = n.commit g.rid g.cluster := fun n => by
    simp only [Mach.commitEnded]
    split
    · exact .inl rfl
    · split
      · exact .inr rfl
      · exact .inl rfl
  simp only [Mach.enterBuffer]
  split
  · exact ⟨rfl, rfl, .inl rfl⟩
  · obtain ⟨h1, h2, h3⟩ := hfull (((m.finish g.id).noticeTeam g.rid g.cluster (homeLines segs)).commitEnded g.rid g.cluster)
    rw [h1, h2, h3]
    obtain h | h := hended ((m.finish g.id).noticeTeam g.rid g.cluster (homeLines segs))
    · rw [h]
      exact ⟨rfl, rfl, .inl rfl⟩
    · rw [h]
      exact ⟨rfl, rfl, .inr rfl⟩

/-- A commit changes of no operation what it waits for, what it does or where (R36). -/
theorem mem_gops_commit {m : Mach} {rid cl : Nat} {h : GOp} (hh : h ∈ (m.commit rid cl).gops) :
    ∃ h0 ∈ m.gops, h = { h0 with committed := h.committed, batch := h.batch } := by
  obtain ⟨h0, h0m, rfl⟩ := List.mem_map.1 hh
  refine ⟨h0, h0m, ?_⟩
  split <;> rfl

/-- Whether an operation belongs to the LG word of issue `no` of context `x`. -/
def ofIssue (x no : Nat) (h : GOp) : Bool := h.ctx == x && h.no == no && !h.isFeed

/-- An LG operation that waited goes, with all that its issue made (R245). -/
theorem beginG_eq {m : Mach} {g : GOp} (h : Claims.nextG m g) : m.beginG g = some (match g.act with
    | .store _ | .red _ _ => { m with gops := modWhere (ofIssue g.ctx g.no) (fun h => { h with needs := [] }) (m.retake g).gops }.enterBuffer g
        ((m.gops.filter (ofIssue g.ctx g.no)).flatMap (fun h : GOp => h.segs))
    | _ => { m with gops := modWhere (ofIssue g.ctx g.no) (fun h => { h with needs := [] }) (m.retake g).gops }) := by
  obtain ⟨pre, post, hg, hn, hf, -, hfirst, hneeds, -⟩ := h
  have hpre : pre.find? (fun h => h.ctx == g.ctx && !h.needs.isEmpty && !h.isFeed) = none := List.find?_eq_none.2 fun h hh => by
    simp only [Bool.and_eq_true, beq_iff_eq, Bool.not_eq_true', List.isEmpty_eq_false_iff]
    rintro ⟨⟨h1, h2⟩, h3⟩
    exact (hfirst h hh h1).elim h2 (fun h => by simp [h] at h3)
  have hfind : m.gops.find? (fun h => h.ctx == g.ctx && !h.needs.isEmpty && !h.isFeed) = some g := by
    rw [hg, List.find?_append, hpre, Option.none_or, List.find?_cons_of_pos (by simp [hn, hf])]
  have hgo : ({ m.retake g with gops := modWhere (ofIssue g.ctx g.no) (fun h => { h with needs := [] }) (m.retake g).gops } : Mach) =
      { m with gops := modWhere (ofIssue g.ctx g.no) (fun h => { h with needs := [] }) (m.retake g).gops } := by rw [Mach.retake_same]
  simp only [Mach.beginG, hfind]
  rw [if_pos (by simp [ready_iff.2 hneeds])]
  refine congrArg some ?_
  rw [← hgo]
  rfl

/-- The machine in which the reads and stores of the issue of `g` wait no longer. -/
def issueGone (m : Mach) (g : GOp) : Mach :=
  { m with gops := modWhere (ofIssue g.ctx g.no) (fun h => { h with needs := [] }) (m.retake g).gops }

/-- An LG operation begins: what its issue made waits no longer, and a store or a reduction enters the store buffer, its token complete (R245). -/
theorem beginG_some {m : Mach} {g : GOp} (h : Claims.nextG m g) : ∃ m' : Mach, m.beginG g = some m' ∧ m'.mem = m.mem ∧
    (m'.gops = (issueGone m g).gops ∨ m'.gops = ((issueGone m g).commit g.rid g.cluster).gops) ∧
    ((∃ bs, g.act = .store bs) ∨ (∃ op ws, g.act = .red op ws) → m'.ops = m.ops.filter (fun k => k != g.id)) := by
  obtain ⟨hmem, hops, hgops⟩ := enterBuffer_eq (issueGone m g) g ((m.gops.filter (ofIssue g.ctx g.no)).flatMap (fun h : GOp => h.segs))
  refine ⟨_, beginG_eq h, ?_⟩
  cases g.act with
  | store bs => exact ⟨hmem, hgops, fun _ => hops⟩
  | red op ws => exact ⟨hmem, hgops, fun _ => hops⟩
  | read | amo | causal => exact ⟨rfl, .inl rfl, by simp⟩

/-- Of the operation that has gone, nothing is left to wait for, and what it does and where is as it was. -/
theorem gone_of_mem {m : Mach} {g : GOp} (h : Claims.nextG m g) {k : GOp}
    (hk : k ∈ (issueGone m g).gops) (hid : k.id = g.id) :
    k.needs = [] ∧ k.act = g.act ∧ k.segs = g.segs := by
  obtain ⟨pre, post, hg, hn, hf, hids, -, -, -⟩ := h
  obtain ⟨h1, hh1, rfl⟩ := mem_modWhere hk
  obtain ⟨h0, hh0, e⟩ := Mach.mem_gops_retake hh1
  have h1id : h1.id = g.id := by
    rw [← hid]
    split <;> rfl
  have h0g : h0 = g := by
    have h0id : h0.id = g.id := by rw [← h1id, e]
    rw [hg] at hh0
    obtain hh0 | rfl | hh0 := by simpa using hh0
    · exact absurd h0id (hids h0 (by simp [hh0]))
    · rfl
    · exact absurd h0id (hids h0 (by simp [hh0]))
  subst h0g
  have hmine : ofIssue h0.ctx h0.no h1 = true := by
    rw [e]
    simpa [ofIssue, GOp.isFeed] using hf
  rw [if_pos hmine, e]
  exact ⟨rfl, rfl, rfl⟩

end Sys2Proof.Machine

namespace Sys2Proof.Claims

open Sys2Proof.Machine

theorem finish_eq (m : Mach) (id : Nat) : m.finish id = opOver m id := by
  simp only [Mach.finish, opOver]
  rw [filter_bne_eq (f := fun k : Nat => k)]

theorem owed_eq (c : Ctx) (k id : Nat) (fl : BitVec 5) : c.owed k id fl = { c with late := owedTo c k id fl } := by
  by_cases h : c.trp.handler = true ∧ id < c.trp.from_
  · simp [Ctx.owed, owedTo, h]
  · rw [Ctx.owed, owedTo, if_neg (by simpa using h), if_neg h]

theorem retireV_eq (c : Ctx) (o : VOp) : c.retireV o = { c with regs := written c.regs o, busy := c.busy.filter (fun q => q ∉ writtenIds o) } := by
  have hb : c.busy.filter (fun q => !(writtenIds o).contains q) = c.busy.filter (fun q => q ∉ writtenIds o) :=
    List.filter_congr fun q _ => by simp
  rw [← hb]
  rfl

theorem find_core {m : Mach} {k : Nat} {e : EngOp} {before after : List EngOp} (h : nextM m k e before after) :
    m.cores.find? (fun p => p.2.mq.any (fun o => o.id == e.id)) = some (k, m.core k) := by
  obtain ⟨hq, -, -, -, hk, hu, -, -⟩ := h
  refine find?_eq_of_unique (p := fun p : Nat × Core => p.2.mq.any (fun o => o.id == e.id)) hk (by simp [hq]) fun p hp hany => ?_
  refine (hu p hp).resolve_right fun hne => ?_
  obtain ⟨q, hq, hid⟩ := List.any_eq_true.1 hany
  exact hne q hq (by simpa using hid)

theorem find_gop {m : Mach} {g : GOp} (h : nextG m g) : m.gops.find? (fun h => h.id == g.id && !h.needs.isEmpty && !h.isFeed) = some g := by
  obtain ⟨pre, post, hg, hn, hf, hids, -, -, -⟩ := h
  rw [hg, List.find?_append, List.find?_eq_none.2 fun q hq => by simp [hids q (List.mem_append_left _ hq)], Option.none_or,
    List.find?_cons_of_pos (by simp [hn, hf])]

theorem engineOperationsBeginAndComplete : EngineOperationsBeginAndComplete := by
  intro s x k o e g ha
  refine ⟨fun rest hx hu hq hb hn hids hm => ?_, fun rest hx hv hu hq hb hn hids hm => ?_, fun before after h => ?_, fun h => ?_, fun rest hq hb => ?_,
    fun rest hq hb => ?_, fun rest hq hb => ?_, fun rest hq hb hf hi => ?_, fun rest hq hb => ?_⟩
  · refine happens_of_some (f := fun m => m.engineBegin o.id) rfl ha ?_
    rw [engineBegin_vq hm (hq ▸ headV_cons rest hb hn) hu, Mach.modCtx, hq, beginV_cons hids]
  · refine happens_of_some (f := fun m => m.engineBegin o.id) rfl ha ?_
    rw [engineBegin_qq hv hm (hq ▸ headV_cons rest hb hn) hu, Mach.modCtx, hq, beginV_cons hids]
  · have hbegin := (engineBegin_mq h.2.2.2.2.2.2.2 (find_core h)).trans (beginM_eq h)
    obtain ⟨hfeed, hnone⟩ := feed_begins e.id ((s.m.gops.filter (fun g => feeds e.id g && !g.needs.isEmpty)).foldl Mach.retake s.m).gops
    refine ⟨_, happens_of_some (f := fun m => m.engineBegin e.id) rfl ha hbegin, congrArg Core.mq (Mach.core_modCore_same ..),
      fun j hj => Mach.core_modCore_other hj .., rfl, rfl, rfl, hfeed, fun hno => ?_⟩
    have hfilter : s.m.gops.filter (fun g => feeds e.id g && !g.needs.isEmpty) = [] := List.filter_eq_nil_iff.2 fun g hg => by
      simp [Bool.eq_false_iff.2 (mt feeds_iff.1 (hno g hg))]
    rw [hfilter] at hnone
    rw [Mach.modCore_gops, hfilter]
    exact hnone hno
  · have hno : noEngineHas s.m g.id := by
      obtain ⟨pre, post, -, -, -, -, -, -, hno⟩ := h
      exact hno
    obtain ⟨m', hbegin, hmem, hgops, hops⟩ := beginG_some h
    refine ⟨m', happens_of_some (f := fun m => m.engineBegin g.id) rfl ha ((engineBegin_gop hno (find_gop h)).trans hbegin), hmem, fun k hk hid => ?_,
      fun bs hact => ?_, fun op ws hact => ?_⟩
    · obtain e | e := hgops
      · exact gone_of_mem h (e ▸ hk) hid
      · rw [e] at hk
        obtain ⟨k0, hk0, e⟩ := mem_gops_commit hk
        rw [e] at hid ⊢
        exact gone_of_mem (k := k0) h hk0 hid
    · rw [hops (.inl ⟨bs, hact⟩), filter_bne_eq (f := fun k : Nat => k)]
    · rw [hops (.inr ⟨op, ws, hact⟩), filter_bne_eq (f := fun k : Nat => k)]
  · refine happens_of_some (f := fun m => m.vComplete x) rfl ha ?_
    simp only [Mach.vComplete, hq, hb, if_true, finish_eq, Mach.modCtx, owed_eq, retireV_eq]
    rfl
  · exact happens_of_none (f := fun m => m.vComplete x) rfl (by simp [Mach.vComplete, hq, hb])
  · refine happens_of_some (f := fun m => m.qcComplete x) rfl ha ?_
    simp only [Mach.qcComplete, hq, hb, if_true, finish_eq, Mach.modCtx, owed_eq, retireV_eq]
    rfl
  · obtain ⟨m', h, hcores, hmem, hctxs, hops⟩ := mComplete_some hq hb hf hi
    have hctx : ∀ y, m'.ctx y = _ := fun y => congrArg (kgetD Ctx.zero y) hctxs
    have hafter : ∀ (c : Ctx) (vW : List (Nat × VReg)) (fl : BitVec 5), (c.afterM e.id vW fl).regs.v = vW.foldl (fun acc p => rput p.1 p.2 acc) c.regs.v ∧
        (c.afterM e.id vW fl).xfM = c.xfM ||| fl := fun c vW fl => by
      rw [Ctx.afterM, owed_eq]
      exact ⟨rfl, rfl⟩
    refine ⟨m', happens_of_some (f := fun m => m.mComplete k) rfl ha h, ?_, fun j hj => ?_, hmem, ?_, ?_, fun y hy => ?_, ?_⟩
    · rw [Mach.core, hcores, kgetD_kput_same]
    · rw [Mach.core, hcores, kgetD_kput_other _ hj, Mach.core]
    · exact (congrArg (fun c : Ctx => c.regs.v) ((hctx _).trans (Mach.ctx_modCtx_same ..))).trans (hafter ..).1
    · exact (congrArg Ctx.xfM ((hctx _).trans (Mach.ctx_modCtx_same ..))).trans (hafter ..).2
    · exact (hctx y).trans (Mach.ctx_modCtx_other hy ..)
    · rw [hops, filter_bne_eq (f := fun k : Nat => k)]
  · exact happens_of_none (f := fun m => m.mComplete k) rfl (by simp [Mach.mComplete, hq, hb])

end Sys2Proof.Claims
end

section
/-! SUPPORT. Packed words entry by entry (R102): the entries of a word made of a list, and the fields of a word of which one has been replaced. -/

namespace Sys2Proof.Machine

theorem getLsbD_packLanes (w : Nat) {n : Nat} (hn : 0 < n) (l : List (BitVec n)) (i : Nat) :
    (packLanes w l).getLsbD i = (decide (i < w) && (l.getD (i / n) 0).getLsbD (i % n)) := by
  induction l generalizing i with
  | nil => simp [packLanes]
  | cons x xs ih =>
    rw [packLanes, BitVec.getLsbD_or, BitVec.getLsbD_shiftLeft, BitVec.getLsbD_setWidth, ih]
    by_cases h : i < n
    · simp [h, Nat.div_eq_of_lt h, Nat.mod_eq_of_lt h]
    · have hx : x.getLsbD i = false := BitVec.getLsbD_of_ge _ _ (Nat.not_lt.1 h)
      have hd : i / n = (i - n) / n + 1 := by rw [← Nat.div_eq_sub_div hn (Nat.not_lt.1 h)]
      have hm : i % n = (i - n) % n := Nat.mod_eq_sub_mod (Nat.not_lt.1 h)
      have hw : i < w → i - n < w := by omega
      rw [hd, hm, hx, List.getD_cons_succ]
      by_cases hi : i < w <;> simp [h, hi, hw]

/-- Entry `i` of a word made of a list is element `i` of the list. -/
theorem el_packLanes {w n : Nat} (l : List (BitVec n)) {i : Nat} (h : n * (i + 1) ≤ w) : Claims.el n (packLanes w l) i = l.getD i 0 := by
  refine BitVec.eq_of_getLsbD_eq fun j hj => ?_
  have hn : 0 < n := by omega
  have hlt : n * i + j < w := by rw [Nat.mul_add] at h; omega
  rw [Claims.el, BitVec.getLsbD_extractLsb', getLsbD_packLanes w hn]
  simp [hj, hlt, Nat.mul_add_div hn, Nat.div_eq_of_lt hj, Nat.mod_eq_of_lt hj]

theorem getLsbD_setField {w : Nat} (v : BitVec w) (lo n : Nat) (x : BitVec n) {i : Nat} (hi : i < w) :
    (setField v lo n x).getLsbD i = if lo ≤ i ∧ i < lo + n then x.getLsbD (i - lo) else v.getLsbD i := by
  simp only [setField, BitVec.getLsbD_or, BitVec.getLsbD_and, BitVec.getLsbD_not, BitVec.getLsbD_shiftLeft,
    BitVec.getLsbD_setWidth, BitVec.getLsbD_allOnes, hi, decide_true, Bool.true_and]
  by_cases h1 : i < lo
  · simp [h1, Nat.not_le.2 h1]
  · have h2 : i - lo < w := by omega
    by_cases h3 : i < lo + n
    · have h4 : i - lo < n := by omega
      simp [h1, h2, h3, h4, Nat.not_lt.1 h1]
    · have h4 : ¬ i - lo < n := by omega
      simp [h1, h3, h4, BitVec.getLsbD_of_ge x (i - lo) (by omega)]

/-- A field that has been replaced. -/
theorem extractLsb'_setField_same {w lo n : Nat} (h : lo + n ≤ w) (v : BitVec w) (x : BitVec n) : (setField v lo n x).extractLsb' lo n = x := by
  refine BitVec.eq_of_getLsbD_eq fun j hj => ?_
  rw [BitVec.getLsbD_extractLsb', getLsbD_setField _ _ _ _ (by omega)]
  simp [hj]

/-- A field that is apart from the one replaced. -/
theorem extractLsb'_setField_other {w lo n l k : Nat} (h : l + k ≤ lo ∨ lo + n ≤ l) (hw : l + k ≤ w) (v : BitVec w) (x : BitVec n) :
    (setField v lo n x).extractLsb' l k = v.extractLsb' l k := by
  refine BitVec.eq_of_getLsbD_eq fun j hj => ?_
  rw [BitVec.getLsbD_extractLsb', BitVec.getLsbD_extractLsb', getLsbD_setField _ _ _ _ (by omega), if_neg (by omega)]

/-- R182: what an update does to a barrier. -/
theorem barrierStep_barUpdate (b : BitVec 128) (da ds : BitVec 32) : Claims.barrierStep b (barUpdate b da ds) da ds := by
  have hlow : ∀ v : BitVec 128, v.toNat % 16 = (v.extractLsb' 0 4).toNat := fun v => by simp [BitVec.extractLsb'_toNat]
  simp only [Claims.barrierStep, barUpdate, hlow]
  by_cases h : b.extractLsb' 32 32 + da = 0 ∧ b.extractLsb' 64 32 + ds = 0
  · rw [if_pos h]
    refine ⟨?_, ?_, fun _ => ⟨?_, ?_, ?_⟩, fun hn => absurd h hn⟩
    · simp [extractLsb'_setField_other]
    · simp [extractLsb'_setField_other]
    · rw [extractLsb'_setField_other (.inl (by omega)) (by omega), extractLsb'_setField_other (.inl (by omega)) (by omega),
        extractLsb'_setField_same (by omega)]
      simp [BitVec.extractLsb'_toNat]
    · rw [extractLsb'_setField_other (.inl (by omega)) (by omega), extractLsb'_setField_same (by omega)]
      exact BitVec.toNat_setWidth_of_le (by decide)
    · rw [extractLsb'_setField_same (by omega)]
      exact BitVec.toNat_setWidth_of_le (by decide)
  · rw [if_neg h]
    refine ⟨?_, ?_, fun hp => absurd hp h, fun _ => ⟨?_, ?_, ?_⟩⟩
    · simp [extractLsb'_setField_other]
    · simp [extractLsb'_setField_other]
    · simp [extractLsb'_setField_other]
    · simp [extractLsb'_setField_other, extractLsb'_setField_same]
    · simp [extractLsb'_setField_same]

end Sys2Proof.Machine
end

section
/-! SUPPORT. Local accesses as they perform and as their data return (R67, R172 to R176, R182, R212, R233 to R238). -/

namespace Sys2Proof.Machine

/-! ### Data that arrive (R67) -/

theorem tileRC_tilePos : ∀ i < 32, ∀ j < 32, tileRC (tilePos i j) = (i, j) := by decide

theorem tilePos_lt (i j : Nat) : tilePos i j < 1024 := by
  simp only [tilePos]
  omega

theorem tileBytes_eq (f : Nat) : tileBytes f = Claims.tileSize f := by
  simp only [tileBytes, Claims.tileSize]
  split <;> simp_all

theorem tileStored_tilePos (t : Bool) {i j : Nat} (hi : i < 32) (hj : j < 32) : tileStored t (tilePos i j) = if t then tilePos j i else tilePos i j := by
  rw [tileStored, tileRC_tilePos i hi j hj]

/-- A tile's element as a load leaves it in its register (R160, R161, R174). -/
theorem el_tileIn (f : Nat) (t : Bool) (bs : List Byte) {i j : Nat} (hi : i < 32) (hj : j < 32) :
    (Claims.el 32 (tileIn f t bs) (tilePos i j)).toNat =
      widenElem f (bs.getD (Claims.tileSize f + (if t then tilePos j i else tilePos i j) / 16) 0)
        (payloadElem f bs (if t then tilePos j i else tilePos i j)) % 2 ^ 32 := by
  have hp := tilePos_lt i j
  rw [tileIn, el_packLanes _ (by omega), List.getD_eq_getElem?_getD, List.getElem?_map, List.getElem?_range hp, Option.map_some, Option.getD_some,
    BitVec.toNat_ofNat, tileStored_tilePos t hi hj, tileBytes_eq]
  rfl

/-- A vector whose first `n` elements a load replaces (R172). -/
theorem el_headOf (v : VReg) (n : Nat) (bs : List Byte) {j : Nat} (hj : j < 4096) :
    Claims.el 8 (headOf v n bs) j = if j < 4 * n then bs.getD j 0 else Claims.el 8 v j := by
  refine BitVec.eq_of_getLsbD_eq fun i hi => ?_
  have hd : (8 * j + i) / 8 = j := by omega
  have hm : (8 * j + i) % 8 = i := by omega
  rw [Claims.el, BitVec.getLsbD_extractLsb', headOf, BitVec.getLsbD_or, BitVec.getLsbD_shiftLeft, BitVec.getLsbD_ushiftRight, ofBytes,
    getLsbD_packLanes _ (by omega), hd, hm]
  by_cases h : j < 4 * n
  · have hlt : 8 * j + i < 32 * n := by omega
    have hb : 8 * j + i < 32768 := by omega
    simp [h, hi, hlt, hb, List.getD_eq_getElem?_getD]
  · have hge : ¬ 8 * j + i < 32 * n := by omega
    have hb : 8 * j + i < 32768 := by omega
    have hs : 32 * n + (8 * j + i - 32 * n) = 8 * j + i := by omega
    simp [h, hi, hge, hb, hs, Claims.el]

theorem signed_eq (w v : Nat) : signed w v = Int.bmod v (2 ^ w) := by
  have hcast : ((v : Int) % ((2 ^ w : Nat) : Int)) = ((v % 2 ^ w : Nat) : Int) := (Int.natCast_mod ..).symm
  have hhalf : (2 ^ w + 1) / 2 = 2 ^ (w - 1) := by
    cases w with
    | zero => rfl
    | succ w => rw [Nat.add_sub_cancel, Nat.pow_succ]; omega
  rw [signed, Int.bmod, hcast]
  generalize 2 ^ w = p at *
  split <;> split <;> omega

theorem scalarOf_eq (sgn : Bool) (bs : List Byte) : scalarOf sgn bs =
    if sgn then BitVec.ofInt 64 (Int.bmod (leNat bs) (2 ^ (8 * bs.length))) else BitVec.ofNat 64 (leNat bs) := by
  rw [scalarOf, signed_eq]

/-- A replay entry that waits for the scale load `id` takes its bytes (R66, R212); the others stay. -/
theorem getElem?_fillScale {l : List Replay} {id : Nat} (bs : List Byte) {j : Nat} {e : Replay} (h : l[j]? = some e) :
    (fillScale l id bs)[j]? = some (if e.src = some id then
      { e with data := ofBytes 128 (((if bs.length = 1 then List.replicate 128 (bs.headD 0) else bs).drop e.byte.toNat).take 16), src := none } else e) := by
  rw [fillScale, List.getElem?_map, h, Option.map_some]

/-- What the spin monitor sees of a change changes its own marks only (R31). -/
theorem Ctx.seenBySpin_same (c : Ctx) (f : Ctx → Ctx) : c.seenBySpin f = { f c with spin := (c.seenBySpin f).spin } := by
  rw [Ctx.seenBySpin]
  split <;> rfl

theorem feedPieces_addresses (l : List (W64 × Nat)) (bs : List Byte) : (feedPieces l bs).map (fun p => p.1) = l.map (fun p => p.1) := by
  induction l generalizing bs with
  | nil => rfl
  | cons p l ih => exact congrArg (p.1 :: ·) (ih _)

end Sys2Proof.Machine

namespace Sys2Proof.Claims

open Sys2Proof.Machine

/-- R67: data written to their destination. -/
theorem delivered_takeData (c : Ctx) (r : Ret) : delivered c (c.takeData r) r.id r.bytes r.dest := by
  rw [Ctx.takeData]
  cases r.dest with
  | none => exact ⟨rfl, rfl⟩
  | feed op => exact ⟨rfl, rfl⟩
  | vec d n =>
    refine ⟨filter_bne_eq (f := fun q => q) .., fun y hy => rget_rput_other hy .., fun j hj => ?_⟩
    simp only [Ctx.settle, rget_rput_same]
    exact el_headOf _ _ _ hj
  | mask d =>
    refine ⟨filter_bne_eq (f := fun q => q) .., fun y hy => rget_rput_other hy .., fun j hj => ?_⟩
    simp only [Ctx.settle, rget_rput_same]
    exact el_packLanes _ (by omega)
  | scal d sgn =>
    refine ⟨filter_bne_eq (f := fun q => q) .., fun n => ?_⟩
    simp only [Ctx.settle]
    by_cases h : n = BitVec.ofNat 6 d
    · subst h
      by_cases h0 : BitVec.ofNat 6 d = 0
      · rw [h0, if_neg (by simp), Regs.wg_zero]
      · rw [if_pos ⟨rfl, h0⟩, Regs.rg_wg_same h0, scalarOf_eq]
    · rw [if_neg fun e => h e.1, Regs.rg_wg_other h]
  | tile d f t =>
    refine ⟨filter_bne_eq (f := fun q => q) .., fun y hy => ?_, fun i j hi hj => ?_⟩
    · simp only [Ctx.settle]
      rw [rget_rput_other hy]
    · simp only [Ctx.settle, rget_rput_same]
      exact el_tileIn f t _ hi hj
  | scale =>
    refine ⟨rfl, by simp [fillScale], fun j e he => ?_⟩
    have hf := getElem?_fillScale (id := r.id) r.bytes he
    refine ⟨fun hn => hf.trans (by rw [if_neg hn]), fun hs => ⟨_, hf.trans (by rw [if_pos hs]), rfl, fun i hi => ?_⟩⟩
    simp only [ofBytes]
    rw [el_packLanes _ (by omega)]
    simp [List.getD_eq_getElem?_getD, hi]

/-- The marks of the spin monitor are no part of what a destination takes. -/
theorem delivered_spin {c d : Ctx} {id : Nat} {bs : List Byte} {dest : Dest} (w : List Spin) (h : delivered c d id bs dest) :
    delivered c { d with spin := w } id bs dest := by
  cases dest with
  | none | feed | vec | mask | scal | tile | scale => exact h

/-- R67: the data of an access return to a destination that is no feed. -/
theorem dataReturn_dest {m : Mach} {r : Ret} (h : m.rets.find? (fun q => q.id == r.id) = some r) (hd : ∀ op, r.dest ≠ .feed op) :
    m.dataReturn r.id = some (({ m with rets := m.rets.filter (fun q => q.id != r.id) }.modCtx r.ctx
      (fun c => c.seenBySpin (fun d => d.takeData r))).finish r.id) := by
  simp only [Mach.dataReturn, h]

end Sys2Proof.Claims
end

section
/-! SUPPORT. Local accesses as they perform (R38, R172 to R176, R182, R233 to R238): which one may, what it writes, and the lines that it logs. -/

namespace Sys2Proof.Machine

/-! ### The undo log under a store (R38) -/

/-- What the record of line `l` in the undo log of a team leaves: `t` before and `u` after. -/
def Logged (core : Nat) (mem : Memory) (ls : List Nat) (t u : Team) : Prop :=
  (∀ p ∈ t.undo, p ∈ u.undo) ∧ ∀ l ∈ ls, (∃ k old, .line k (64 * l) old ∈ u.undo) ∧
    ((∀ k old, .line k (64 * l) old ∉ t.undo) → .line core (64 * l) (readBytes mem (64 * l) 64) ∈ u.undo)

/-- Whether an undo record is one of the line at `l`. -/
def Undo.isLine (l : Nat) : Undo → Bool
  | .line _ a _ => a == l
  | _ => false

theorem Undo.isLine_iff {l : Nat} {u : Undo} : u.isLine l = true ↔ ∃ k old, u = .line k l old := by
  cases u <;> simp [Undo.isLine]

theorem Mach.team?_logLine {m : Mach} {rid cl core l : Nat} {t : Team} (h : m.team? rid cl = some t) :
    ∃ u, (m.logLine rid cl core l).team? rid cl = some u ∧
      u.undo = if t.undo.any (Undo.isLine (64 * l)) then t.undo else .line core (64 * l) (readBytes m.mem (64 * l) 64) :: t.undo := by
  simp only [Mach.logLine, h]
  change ∃ u, (if t.undo.any (Undo.isLine (64 * l)) then m else _).team? rid cl = some u ∧ _
  split
  · exact ⟨t, h, rfl⟩
  · exact ⟨_, Mach.team?_modTeam_same h fun _ => ⟨rfl, rfl⟩, rfl⟩

/-- The lines that a store is about to change are in the log, with the bytes they have unless they were there before (R38). -/
theorem Mach.team?_logLines {rid cl core : Nat} {mem : Memory} : ∀ {ls : List Nat} {m : Mach} {t : Team}, m.team? rid cl = some t → m.mem = mem →
    ∃ u, (m.logLines rid cl core ls).team? rid cl = some u ∧ Logged core mem ls t u
  | [], m, t, h, _ => ⟨t, h, fun _ hp => hp, fun _ hl => absurd hl List.not_mem_nil⟩
  | l :: ls, m, t, h, hm => by
    obtain ⟨u, hu, hlog⟩ := Mach.team?_logLine (core := core) (l := l) h
    have hmem : (m.logLine rid cl core l).mem = mem := by rw [Mach.logLine_same]; exact hm
    obtain ⟨v, hv, hkeep, hlines⟩ := Mach.team?_logLines (ls := ls) (core := core) hu hmem
    have hsub : ∀ p ∈ t.undo, p ∈ u.undo := fun p hp => by
      rw [hlog]
      split
      · exact hp
      · exact List.mem_cons_of_mem _ hp
    refine ⟨v, hv, fun p hp => hkeep p (hsub p hp), fun l' hl' => ?_⟩
    by_cases hany : t.undo.any (Undo.isLine (64 * l)) = true
    · rw [if_pos hany] at hlog
      rw [hlog] at hkeep hlines
      obtain rfl | hl' := List.mem_cons.1 hl'
      · obtain ⟨p, hp, hl⟩ := List.any_eq_true.1 hany
        obtain ⟨k, old, rfl⟩ := Undo.isLine_iff.1 hl
        exact ⟨⟨k, old, hkeep _ hp⟩, fun hn => absurd hp (hn k old)⟩
      · exact hlines l' hl'
    · rw [if_neg hany] at hlog
      have hnew : Undo.line core (64 * l) (readBytes mem (64 * l) 64) ∈ v.undo := hkeep _ (by rw [hlog, hm]; exact List.mem_cons_self ..)
      by_cases hl : l' = l
      · exact hl ▸ ⟨⟨_, _, hnew⟩, fun _ => hnew⟩
      · obtain ⟨hrec, hfirst⟩ := hlines l' ((List.mem_cons.1 hl').resolve_left hl)
        refine ⟨hrec, fun hn => hfirst fun k old hk => ?_⟩
        rw [hlog, List.mem_cons] at hk
        obtain hk | hk := hk
        · injection hk with _ hk _
          exact hl (Nat.eq_of_mul_eq_mul_left (by omega) hk)
        · exact hn k old hk

/-- A line whose bytes a store changes is one of the lines that it logs. -/
theorem mem_changedLines {m : Mach} {loc l : Nat} {bs : List Byte} (hl : l ∈ linesOf loc bs.length)
    (h : readBytes (writeBytes m.mem loc bs) (64 * l) 64 ≠ readBytes m.mem (64 * l) 64) : l ∈ m.changedLines loc bs := by
  refine List.mem_filter.2 ⟨hl, ?_⟩
  simp only [bne_iff_ne]
  refine fun he => h ?_
  rw [readBytes_eq, readBytes_eq]
  refine List.map_congr_left fun i hi => ?_
  have hi := List.mem_range.1 hi
  rw [readByte_writeBytes]
  split
  · next hle =>
    by_cases hlt : 64 * l + i - loc < bs.length
    · have hb := congrArg (fun q => q[64 * l + i - loc - (64 * l - loc)]?) he
      have hin : 64 * l + i - loc - (64 * l - loc) < 64 * (l + 1) - (loc + (64 * l - loc)) := by omega
      have hat : 64 * l - loc + (64 * l + i - loc - (64 * l - loc)) = 64 * l + i - loc := by omega
      have hloc : loc + (64 * l + i - loc) = 64 * l + i := by omega
      simp only [List.getElem?_take, hin, if_true, List.getElem?_drop, hat] at hb
      rw [← hb, readBytes_eq, List.getElem?_map, List.getElem?_range hlt, Option.map_some, hloc, Option.getD_some]
    · rw [List.getElem?_eq_none (by omega), Option.getD_none]
  · rfl

/-! ### The writes of a local access -/

/-- What a local access leaves of a context. -/
def Ctx.sameProgram (c d : Ctx) : Prop :=
  d.regs = c.regs ∧ d.ctl = c.ctl ∧ d.status = c.status ∧ d.trp = c.trp ∧ d.replay = c.replay

/-- The machine `n` is `m` after the writes `w` of a local access. -/
def Mach.Wrote (m n : Mach) (w : List (Nat × List Byte)) : Prop :=
  (n.mem, n.gops) = Claims.afterWrites m w ∧ n.locq = m.locq ∧ n.ops = m.ops ∧ n.rets = m.rets ∧ n.cores = m.cores ∧ n.pkg = m.pkg ∧
    ∀ x, (m.ctx x).sameProgram (n.ctx x)

theorem Mach.Wrote.refl (m : Mach) : m.Wrote m [] := ⟨rfl, rfl, rfl, rfl, rfl, rfl, fun _ => ⟨rfl, rfl, rfl, rfl, rfl⟩⟩

theorem Mach.localStore_same (m : Mach) (o : LocalOp) (loc : Nat) (bs : List Byte) :
    m.localStore o loc bs = { m.store loc bs with teams := (m.localStore o loc bs).teams } := by
  rw [Mach.localStore]
  split
  · exact m.keptStore_same loc bs
  · exact m.logStore_same ..

theorem Mach.wrote_localStore (m : Mach) (o : LocalOp) (loc : Nat) (bs : List Byte) : m.Wrote (m.localStore o loc bs) [(loc, bs)] := by
  rw [Mach.localStore_same]
  refine ⟨rfl, rfl, rfl, rfl, rfl, rfl, fun x => ?_⟩
  have h : Mach.ctx { m.store loc bs with teams := (m.localStore o loc bs).teams } x = (m.ctx x).notice (linesOf loc bs.length) := m.ctx_store loc bs x
  rw [h]
  exact ⟨rfl, rfl, rfl, rfl, rfl⟩

theorem Mach.Wrote.trans {m n k : Mach} {v w : List (Nat × List Byte)} (h : m.Wrote n v) (h' : n.Wrote k w) : m.Wrote k (v ++ w) := by
  obtain ⟨hm, h1, h2, h3, h4, h5, hx⟩ := h
  obtain ⟨hm', h1', h2', h3', h4', h5', hx'⟩ := h'
  refine ⟨?_, h1'.trans h1, h2'.trans h2, h3'.trans h3, h4'.trans h4, h5'.trans h5, fun x => ?_⟩
  · rw [Claims.afterWrites, List.foldl_append]
    rw [Claims.afterWrites] at hm hm'
    rw [hm', hm]
  · obtain ⟨a, b, c, d, e⟩ := hx x
    obtain ⟨a', b', c', d', e'⟩ := hx' x
    exact ⟨a'.trans a, b'.trans b, c'.trans c, d'.trans d, e'.trans e⟩

theorem Mach.wrote_localStores (o : LocalOp) : ∀ (w : List (Nat × List Byte)) (m : Mach),
    m.Wrote (w.foldl (fun (acc : Mach) p => acc.localStore o p.1 p.2) m) w
  | [], m => Mach.Wrote.refl m
  | p :: w, m => (m.wrote_localStore o p.1 p.2).trans (Mach.wrote_localStores o w _)

/-- A load changes the machine only in what the spin monitor of its context remembers (R31). -/
theorem Mach.wrote_spinLoad (m : Mach) (x : Nat) (ls : List Nat) (ok : Bool) (bs : List Byte) : m.Wrote (m.spinLoad x ls ok bs) [] := by
  rw [Mach.spinLoad]
  split
  · exact Mach.Wrote.refl m
  · refine ⟨rfl, rfl, rfl, rfl, rfl, rfl, fun y => ?_⟩
    by_cases h : y = x
    · rw [h, Mach.ctx_modCtx_same]
      exact ⟨rfl, rfl, rfl, rfl, rfl⟩
    · rw [Mach.ctx_modCtx_other h]
      exact ⟨rfl, rfl, rfl, rfl, rfl⟩

/-- A barrier's bytes (R182). -/
theorem vecLE_eq {w : Nat} (n : Nat) (v : BitVec w) : vecLE n v = Claims.lowBytes n v.toNat := natLE_eq_lowBytes ..

/-- The writes of an atomic (R176). -/
theorem amoWrites_eq (mem : Memory) (op : AmoOp) (loc : Nat) (b c : W64) : Claims.amoWrites mem op loc b c =
    ((amoNew op (BitVec.ofNat 64 (readLE mem loc 8)) b c).map (fun v => (loc, vecLE 8 v))).toList := by
  cases op with
  | add => simp [Claims.amoWrites, amoNew, vecLE_eq, BitVec.toNat_add]
  | min | max => simp only [Claims.amoWrites, amoNew, vecLE_eq, BitVec.slt, decide_eq_true_eq, Option.map_some, Option.toList_some]; split <;> rfl
  | and | or | xor | swp => simp [Claims.amoWrites, amoNew, vecLE_eq]
  | cas =>
    simp only [Claims.amoWrites, amoNew, vecLE_eq]
    split <;> rfl

end Sys2Proof.Machine

namespace Sys2Proof.Claims

open Sys2Proof.Machine

/-! ### Which access performs (R237, R238) -/

variable {m : Mach} {o : LocalOp}

theorem find_firstLocal (h : firstLocal m o) : m.locq.find? (fun p => p.id == o.id) = some o ∧
    (m.locq.takeWhile (fun p => p.id != o.id)).any (fun p => p.ctx == o.ctx || padOf p.act.loc == padOf o.act.loc) = false := by
  obtain ⟨before, after, hq, hb⟩ := h
  have hid : ∀ p ∈ before, (p.id != o.id) = true := fun p hp => bne_iff_ne.2 (hb p hp).1
  refine ⟨?_, ?_⟩
  · rw [hq, List.find?_append, List.find?_eq_none.2 fun p hp => by simpa using (hb p hp).1, Option.none_or, List.find?_cons_of_pos (by simp)]
  · rw [hq, List.takeWhile_append_of_pos hid, List.takeWhile_cons_of_neg (by simp), List.append_nil]
    exact List.any_eq_false.2 fun p hp => by simp [hb p hp]

/-- R237: a store waits for the LG load or atomic of its issue, and nothing else does. -/
theorem lgFirst_iff : m.lgFirst o = true ↔ (∃ w, o.act = .store w) ∧ lgReadDue m o.ctx o.no := by
  have hs : o.storeOf o.no = true ↔ ∃ w, o.act = .store w := by
    rw [LocalOp.storeOf]
    cases o.act <;> simp
  rw [Mach.lgFirst, Bool.and_eq_true, hs, List.any_eq_true]
  refine and_congr_right fun _ => exists_congr fun g => and_congr_right fun _ => ?_
  rw [Bool.and_eq_true, Bool.and_eq_true, beq_iff_eq, beq_iff_eq, and_assoc]
  refine and_congr_right fun _ => and_congr_right fun _ => ?_
  split <;> simp_all

theorem lgFirst_of_not_store (h : ∀ w, o.act ≠ .store w) : m.lgFirst o = false := Bool.eq_false_iff.2 fun e => by
  obtain ⟨⟨w, hw⟩, -⟩ := lgFirst_iff.1 e
  exact h w hw

theorem lgFirst_of_not_due (h : ¬ lgReadDue m o.ctx o.no) : m.lgFirst o = false := Bool.eq_false_iff.2 fun e => h (lgFirst_iff.1 e).2

theorem localPerform_first (h : firstLocal m o) (hl : m.lgFirst o = false) :
    m.localPerform o.id = some (({ m with locq := m.locq.filter (fun p => p.id != o.id) }).perform o) := by
  obtain ⟨hf, hb⟩ := find_firstLocal h
  simp [Mach.localPerform, hf, hb, hl]

theorem localPerform_waits (h : firstLocal m o) (hl : m.lgFirst o = true) : m.localPerform o.id = none := by
  obtain ⟨hf, hb⟩ := find_firstLocal h
  simp [Mach.localPerform, hf, hl]

/-- An access that is over has written `w`. -/
theorem localDone_finish {n : Mach} {w : List (Nat × List Byte)} (h : Mach.Wrote { m with locq := m.locq.filter (fun p => p.id != o.id) } n w) :
    localDone m (n.finish o.id) o w (m.ops.filter (fun k => k ≠ o.id)) m.rets := by
  obtain ⟨hm, hlocq, hops, hrets, hcores, hpkg, hx⟩ := h
  refine ⟨congrArg Prod.fst hm, congrArg Prod.snd hm, hlocq.trans (filter_bne_eq ..), ?_, hrets, hcores, hpkg, hx⟩
  rw [Mach.finish, hops, filter_bne_eq (f := fun k : Nat => k)]

/-- An access that answers has written `w`, and its data are on their way (R67). -/
theorem localDone_answer {n : Mach} {w : List (Nat × List Byte)} (bs : List Byte) (hd : o.dest ≠ .none)
    (h : Mach.Wrote { m with locq := m.locq.filter (fun p => p.id != o.id) } n w) :
    localDone m (n.answer o bs) o w m.ops (m.rets ++ [{ id := o.id, ctx := o.ctx, slot := o.slot, dest := o.dest, bytes := bs }]) := by
  obtain ⟨hm, hlocq, hops, hrets, hcores, hpkg, hx⟩ := h
  rw [Mach.answer, if_neg (by simpa using hd)]
  exact ⟨congrArg Prod.fst hm, congrArg Prod.snd hm, hlocq.trans (filter_bne_eq ..), hops, congrArg (· ++ _) hrets, hcores, hpkg, hx⟩

/-- R38: a store of run code logs the lines that it changes, with the bytes they had before the first such store since the checkpoint. -/
theorem perform_logs {loc : Nat} {bs : List Byte} {t : Team} (hact : o.act = .store [(loc, bs)]) (hh : (m.ctx o.ctx).trp.handler = false)
    (ht : m.team? (m.ctx o.ctx).rid (clusterOf o.ctx) = some t) : ∃ u, (m.perform o).team? (m.ctx o.ctx).rid (clusterOf o.ctx) = some u ∧
      (∀ p ∈ t.undo, p ∈ u.undo) ∧
      ∀ l ∈ linesOf loc bs.length, readBytes (m.perform o).mem (64 * l) 64 ≠ readBytes m.mem (64 * l) 64 → (∃ k old, .line k (64 * l) old ∈ u.undo) ∧
        ((∀ k old, .line k (64 * l) old ∉ t.undo) → .line (coreOf o.ctx) (64 * l) (readBytes m.mem (64 * l) 64) ∈ u.undo) := by
  have hp : m.perform o = (m.logStore (m.ctx o.ctx).rid (clusterOf o.ctx) (coreOf o.ctx) loc bs).finish o.id := by
    simp only [Mach.perform, hact, List.foldl_cons, List.foldl_nil, Mach.localStore, Ctx.byHandler, hh, Bool.false_and]
    rfl
  obtain ⟨u, hu, hkeep, hlines⟩ := Mach.team?_logLines (core := coreOf o.ctx) (ls := m.changedLines loc bs) ht rfl
  rw [hp]
  exact ⟨u, hu, hkeep, fun l hl hne => hlines l (mem_changedLines hl (by simpa [Mach.finish] using hne))⟩

theorem localPerform_later (h : ∃ before after, m.locq = before ++ o :: after ∧ (∀ p ∈ before, p.id ≠ o.id) ∧ ∃ p ∈ before, p.ctx = o.ctx) :
    m.localPerform o.id = none := by
  obtain ⟨before, after, hq, hb, p, hp, hc⟩ := h
  have hid : ∀ p ∈ before, (p.id != o.id) = true := fun p hp => bne_iff_ne.2 (hb p hp)
  have hf : m.locq.find? (fun p => p.id == o.id) = some o := by
    rw [hq, List.find?_append, List.find?_eq_none.2 fun p hp => by simpa using hb p hp, Option.none_or, List.find?_cons_of_pos (by simp)]
  have ht : m.locq.takeWhile (fun p => p.id != o.id) = before := by
    rw [hq, List.takeWhile_append_of_pos hid, List.takeWhile_cons_of_neg (by simp), List.append_nil]
  have hany : before.any (fun p => p.ctx == o.ctx || padOf p.act.loc == padOf o.act.loc) = true := List.any_eq_true.2 ⟨p, hp, by simp [hc]⟩
  simp [Mach.localPerform, hf, ht, hany]

/-- R176: an atomic writes what it writes and answers with the old value. -/
theorem perform_amo {op : AmoOp} {loc : Nat} {b c : W64} (hact : o.act = .amo op loc b c) :
    ∃ n, m.Wrote n (amoWrites m.mem op loc b c) ∧ m.perform o = n.answer o (lowBytes 8 (readLE m.mem loc 8)) := by
  have hold : lowBytes 8 (readLE m.mem loc 8) = vecLE 8 (BitVec.ofNat 64 (readLE m.mem loc 8) : W64) := by
    rw [vecLE_eq, BitVec.toNat_ofNat, Nat.mod_eq_of_lt (readLE_lt ..)]
  rw [amoWrites_eq, hold]
  simp only [Mach.perform, hact, Mach.load]
  cases amoNew op (BitVec.ofNat 64 (readLE m.mem loc 8)) b c with
  | none => exact ⟨m, Mach.Wrote.refl m, rfl⟩
  | some v => exact ⟨_, m.wrote_localStore .., rfl⟩

theorem delivered_seen (c : Ctx) (r : Ret) : delivered c (c.seenBySpin (fun d => d.takeData r)) r.id r.bytes r.dest := by
  rw [Ctx.seenBySpin_same]
  exact delivered_spin _ (delivered_takeData c r)

/-- R221: the data of a feed are noted with their operation. -/
theorem dataReturn_feed {r : Ret} {op : Nat} (h : m.rets.find? (fun q => q.id == r.id) = some r) (hd : r.dest = .feed op) :
    m.dataReturn r.id = some (({ m with rets := m.rets.filter (fun q => q.id != r.id) } : Mach).modCore (coreOf r.ctx) (fun c =>
      { c with mq := modWhere (fun p => p.id == op) (fun p => { p with came := feedPieces p.feed r.bytes }) c.mq })) := by
  simp only [Mach.dataReturn, h, hd]

theorem localAccessesPerformAndReturn : LocalAccessesPerformAndReturn := by
  intro s o r ha
  refine ⟨fun segs h hact hd => ?_, fun w h hact hdue => ?_, fun w h hact hdue => ?_, fun loc bs t h hact hdue hh ht => ?_,
    fun op loc b c h hact hd => ?_, fun loc da ds h hact => ?_, fun h => ?_, fun h hd => ?_, fun op h hd => ?_⟩
  · have hl := lgFirst_of_not_store (m := s.m) (o := o) (by simp [hact])
    refine ⟨_, happens_of_some (f := fun m => m.localPerform o.id) rfl ha (localPerform_first h hl), ?_⟩
    simp only [Mach.perform, hact]
    exact localDone_answer _ hd (Mach.wrote_spinLoad ..)
  · exact happens_of_none (f := fun m => m.localPerform o.id) rfl (localPerform_waits h (lgFirst_iff.2 ⟨⟨w, hact⟩, hdue⟩))
  · have hl := lgFirst_of_not_due hdue
    refine ⟨_, happens_of_some (f := fun m => m.localPerform o.id) rfl ha (localPerform_first h hl), ?_⟩
    simp only [Mach.perform, hact]
    exact localDone_finish (Mach.wrote_localStores ..)
  · have hl := lgFirst_of_not_due hdue
    have hlog : ∃ u, _ := perform_logs (m := { s.m with locq := s.m.locq.filter (fun p => p.id != o.id) }) hact hh ht
    obtain ⟨u, hu, hkeep, hlines⟩ := hlog
    exact ⟨_, u, happens_of_some (f := fun m => m.localPerform o.id) rfl ha (localPerform_first h hl), hu, hkeep, hlines⟩
  · have hl := lgFirst_of_not_store (m := s.m) (o := o) (by simp [hact])
    refine ⟨_, happens_of_some (f := fun m => m.localPerform o.id) rfl ha (localPerform_first h hl), ?_⟩
    obtain ⟨n, hn, he⟩ := perform_amo (m := { s.m with locq := s.m.locq.filter (fun p => p.id != o.id) }) hact
    rw [he]
    exact localDone_answer _ hd hn
  · have hl := lgFirst_of_not_store (m := s.m) (o := o) (by simp [hact])
    refine ⟨_, _, happens_of_some (f := fun m => m.localPerform o.id) rfl ha (localPerform_first h hl), ?_, barrierStep_barUpdate ..⟩
    simp only [Mach.perform, hact]
    rw [vecLE_eq]
    exact localDone_finish (Mach.wrote_localStore ..)
  · exact happens_of_none (f := fun m => m.localPerform o.id) rfl (localPerform_later h)
  · have hfin : ∀ (n : Mach) (y : Nat), (n.finish r.id).ctx y = n.ctx y := fun _ _ => rfl
    refine ⟨_, happens_of_some (f := fun m => m.dataReturn r.id) rfl ha (dataReturn_dest h hd), filter_bne_eq .., filter_bne_eq (f := fun k : Nat => k) .., rfl,
      fun y hy => ?_, ?_⟩
    · exact (hfin ..).trans (Mach.ctx_modCtx_other hy ..)
    · rw [hfin, Mach.ctx_modCtx_same]
      exact delivered_seen _ r
  · refine ⟨_, happens_of_some (f := fun m => m.dataReturn r.id) rfl ha (dataReturn_feed h hd), filter_bne_eq .., rfl, fun q hq hid => ?_⟩
    rw [Mach.core_modCore_same] at hq
    obtain ⟨p, -, rfl⟩ := List.mem_map.1 hq
    by_cases hp : (p.id == op) = true
    · rw [if_pos hp]
      exact feedPieces_addresses ..
    · rw [if_neg hp] at hid
      simp [hid] at hp

end Sys2Proof.Claims
end

section
/-! SUPPORT. The operations of an X queue as they begin (R245, R258, R259, R267, R271, R276, R277, R279, R280, R282, R284). -/

namespace Sys2Proof.Machine

theorem Mach.core_modCtx (m : Mach) (x k : Nat) (f : Ctx → Ctx) : (m.modCtx x f).core k = m.core k := rfl

theorem Mach.ctx_modTail (m : Mach) (t x : Nat) (f : Tail → Tail) : (m.modTail t f).ctx x = m.ctx x := rfl

theorem Mach.ctx_xDone (m : Mach) (x id y : Nat) : (m.xDone x id).ctx y = (m.modCtx x (fun c => { c with xq := c.xq.filter (fun o => o.id != id) })).ctx y := rfl

theorem Mach.core_xDone (m : Mach) (x id k : Nat) : (m.xDone x id).core k = m.core k := rfl

/-! ### Messages that a send posts (R287, R298) -/

theorem Mach.post_same (m : Mach) (c : BitVec 12) (p : Sent) : m.post c p = { m with net := (m.post c p).net, out := (m.post c p).out } := by
  rw [Mach.post]
  split
  · rfl
  · split
    · rfl
    · split <;> rfl

theorem Mach.post_modCore (m : Mach) (k : Nat) (f : Core → Core) (c : BitVec 12) (p : Sent) : (m.modCore k f).post c p = (m.post c p).modCore k f := by
  rw [Mach.post, Mach.post]
  change (if c = m.pkg.chip then _ else _) = _
  split
  · rfl
  · change (if m.pkg.reaches (classOf p) c = true then _ else _) = _
    split
    · rfl
    · split <;> rfl

/-- The message in which an operation sends a packet (R280): a contribution of a collective, or the packet itself. -/
def EngOp.message (o : EngOp) (d : W64) (p : LandPkt) : Sent :=
  match xredOp o.ins with
  | some op => .xred (destChip d) { pkt := p, op := op, nc := d.extractLsb' 56 6, rank := d.extractLsb' 50 6, gen := d.extractLsb' 46 4 }
  | none => .land (destChip d) p

theorem EngOp.emit_eq (o : EngOp) (m : Mach) (d : W64) (p : LandPkt) : o.emit m d p = Claims.sentAll m [o.message d p] := by
  simp only [EngOp.emit, EngOp.message]
  cases xredOp o.ins <;> rfl

/-- The header of R258 as a sum of its fields. -/
theorem coordHdr_eq (b : Box) (cnt : Nat) (end_ : Bool) (c : List Nat) (tid : BitVec 12) :
    coordHdr b.stream b.fmt b.dim cnt end_ c tid = Claims.headerWord b cnt (b2n end_) c tid := by
  rw [coordHdr, Claims.headerWord]
  refine congrArg (BitVec.ofNat 128) ?_
  cases end_ <;> simp only [b2n, Bool.false_eq_true, if_true, if_false] <;> omega

theorem extractLsb'_eq_ofNat {w : Nat} (v : BitVec w) (lo n : Nat) : v.extractLsb' lo n = BitVec.ofNat n (v.toNat / 2 ^ lo) := by
  rw [BitVec.extractLsb', Nat.shiftRight_eq_div_pow]

end Sys2Proof.Machine

namespace Sys2Proof.Claims

open Sys2Proof.Machine

theorem sentAll_same (l : List Sent) : ∀ m : Mach, sentAll m l = { m with net := (sentAll m l).net, out := (sentAll m l).out } := by
  induction l with
  | nil => exact fun _ => rfl
  | cons p l ih =>
    intro m
    rw [show sentAll m (p :: l) = sentAll (sentAll m [p]) l from rfl, ih]
    have h : sentAll m [p] = { m with net := (sentAll m [p]).net, out := (sentAll m [p]).out } := by
      cases p with
      | land c q | xred c q => exact m.post_same _ _
      | _ => rfl
    rw [h]

theorem sentAll_modCore (k : Nat) (f : Core → Core) (l : List Sent) : ∀ m : Mach, sentAll (m.modCore k f) l = (sentAll m l).modCore k f := by
  induction l with
  | nil => exact fun _ => rfl
  | cons p l ih =>
    intro m
    have h : sentAll (m.modCore k f) [p] = (sentAll m [p]).modCore k f := by
      cases p with
      | land c q | xred c q => exact m.post_modCore ..
      | _ => rfl
    rw [show sentAll (m.modCore k f) (p :: l) = sentAll (sentAll (m.modCore k f) [p]) l from rfl, h, ih]
    rfl

theorem packet_eq (m : Mach) (o : EngOp) (j cnt : Nat) (end_ : Bool) (c : List Nat) (bs : List Byte) :
    o.packet m.pkg.chip (m.tenantOf o.rid) j (o.dests.getD j 0) cnt end_ c bs = packetOf m o j cnt (b2n end_) c bs := by
  rw [EngOp.packet, packetOf, coordHdr_eq]

/-- The messages of a send to its member `j`, in the order of R259. -/
theorem sentTo_eq (m : Mach) (o : EngOp) (j : Nat) : sentTo m o j =
    o.goodRuns.map (fun r => o.message (o.dests.getD j 0) (packetOf m o j (r.2 - 1) 0 (o.box.coords r)
      (packElems o.box.fmt (o.box.runElems m.mem (o.word 5).toNat r)))) ++
    [.land (destChip (o.dests.getD j 0)) (packetOf m o j 0 1 o.box.org (natLE 4 o.goodRuns.length ++
      natLE 4 (if o.goodRuns.length = (if o.box.empty then 0 else o.box.runs.length) then 0 else 0x23)))] := by
  have hlen : (if o.box.empty then [] else o.box.runs).length = if o.box.empty then 0 else o.box.runs.length := apply_ite ..
  have hread : ∀ r : List Nat × Nat, o.box.runElems m.mem (o.word 5).toNat r = (do
      let i ← List.range r.2
      pure (i : Int)).map (fun i => readElem m.mem o.box.fmt (o.word 5).toNat (o.box.pos r.1 + i)) := fun r => by
    have hcast : (do let i ← List.range r.2; pure (i : Int)) = (List.range r.2).map (fun i : Nat => (i : Int)) := List.map_eq_flatMap.symm
    rw [hcast, List.map_map]
    rfl
  simp only [sentTo, EngOp.message, destChip, extractLsb'_eq_ofNat, natLE_eq_lowBytes, hlen, hread] <;> rfl

/-- A send posts the messages to its members in turn, and its transfers wait for their acknowledgements (R259, R271, R279). -/
theorem headrace_eq (m : Mach) (o : EngOp) : m.headrace o =
    (sentAll m ((List.range o.dests.length).flatMap (sentTo m o))).modCore (coreOf o.ctx) (fun c => { c with
      xfers := c.xfers ++ (List.range o.dests.length).map (fun j =>
        { tid := (o.word 6).extractLsb' 0 12 + BitVec.ofNat 12 j, op := o.id, ctx := o.ctx, rid := o.rid, member := j, dest := o.dests.getD j 0,
          done := false, ok := false }) }) := by
  have hzip : List.zip (List.range o.dests.length) o.dests = (List.range o.dests.length).map (fun j => (j, o.dests.getD j 0)) := by
    refine List.ext_getElem (by simp) fun i h1 h2 => ?_
    simp at h1
    simp [h1]
  rw [← sentAll_modCore]
  simp only [Mach.headrace, hzip, List.map_map, List.foldl_map, Function.comp_def, List.length_map]
  rw [sentAll, List.foldl_flatMap]
  refine List.foldl_ext _ _ _ fun acc j hj => ?_
  rw [sentTo_eq, List.foldl_append, List.foldl_map]
  simp only [EngOp.emit_eq, packet_eq]
  rfl

/-! ### The next operation of an X queue (R245, R271) -/

section

variable {m : Mach} {x : Nat} {o : EngOp} {before after : List EngOp} (h : nextX m x o before after)

include h

theorem ctx_nextX : o.ctx = x := h.2.1

theorem takeWhile_nextX : (m.ctx x).xq.takeWhile (fun p => p.id != o.id) = before := by
  obtain ⟨hq, -, -, hids, -⟩ := h
  rw [hq, List.takeWhile_append_of_pos fun p hp => bne_iff_ne.2 (hids p (List.mem_append_left _ hp)), List.takeWhile_cons_of_neg (by simp),
    List.append_nil]

theorem engineBegin_nextX : m.engineBegin o.id = m.beginX x o := by
  obtain ⟨hq, -, hb, hids, hm, hu, hv, -⟩ := h
  have hfind : (m.ctx x).xq.find? (fun q => q.id == o.id && !q.begun) = some o := by
    rw [hq, List.find?_append, List.find?_eq_none.2 fun q hq => by simp [hids q (List.mem_append_left _ hq)], Option.none_or,
      List.find?_cons_of_pos (by simp [hb])]
  refine engineBegin_xq hv (findSome?_eq_of_unique hm (by rw [hfind]; rfl) fun p hp c hc => ?_)
  obtain rfl | hno := hu p hp
  · rw [hfind] at hc
    exact (Option.some.inj hc).symm
  · rw [List.find?_eq_none.2 fun q hq => by simp [hno q hq]] at hc
    cases hc

/-- Nothing holds the next operation back. -/
theorem free_nextX : ¬ (((m.ctx x).xq.takeWhile (fun p => p.id != o.id)).any (fun p => !p.begun || !isSend p.ins) || !m.ready o.needs ||
    (m.leavesTeam o && !m.keptFor o)) = true := by
  rw [takeWhile_nextX h]
  obtain ⟨-, -, -, -, -, -, -, hbefore, hneeds, hkept⟩ := h
  have hb : before.any (fun p => !p.begun || !isSend p.ins) = false := List.any_eq_false.2 fun p hp => by simp [hbefore p hp]
  have hk : (m.leavesTeam o && !m.keptFor o) = false := by
    cases hl : m.leavesTeam o with
    | false => rfl
    | true => rw [hkept hl]; rfl
  simp [hb, hk, ready_iff.2 hneeds]

/-- An X operation that has begun stands in its place. -/
theorem xq_begun {c : Ctx} (hc : c.xq = (m.ctx x).xq) :
    (c.xBegun o.id).xq = before ++ { o with begun := true, reads := if mapKind o.ins = 1 then o.reads else [] } :: after := by
  obtain ⟨hq, -, -, hids, -⟩ := h
  have hmod := modWhere_append (f := fun q : EngOp => q.id == o.id) (x := o) (a := before) (b := after)
    (g := fun q => { q with begun := true, reads := if mapKind q.ins = 1 then q.reads else [] }) (fun q hq => by simpa using hids q hq) (by simp)
  simpa only [Ctx.xBegun, hc, hq, modWhere, beq_iff_eq] using hmod

/-- An X operation that is over has left its queue. -/
theorem xq_done {c : Ctx} (hc : c.xq = (m.ctx x).xq) : c.xq.filter (fun q => q.id != o.id) = before ++ after := by
  obtain ⟨hq, -, -, hids, -⟩ := h
  have hkeep : ∀ q ∈ before ++ after, (q.id != o.id) = true := fun q hq => bne_iff_ne.2 (hids q hq)
  rw [hc, hq, List.filter_append, List.filter_cons_of_neg (by simp), ← List.filter_append, List.filter_eq_self.2 hkeep]

theorem xq_xDone {n : Mach} (hc : (n.ctx x).xq = (m.ctx x).xq) : ((n.xDone x o.id).ctx x).xq = before ++ after := by
  rw [Mach.ctx_xDone, Mach.ctx_modCtx_same]
  exact xq_done h hc

omit h in
theorem mapKind_send (hs : isSend o.ins = true) : mapKind o.ins ≠ 1 := fun e => by
  unfold mapKind at e
  split at e
  · next ho => simp [ho, isSend, xredOp] at hs
  all_goals cases e

theorem beginX_send (hs : isSend o.ins = true) : m.beginX x o =
    if 256 < ((m.core (coreOf x)).xfers.filter (fun f => !f.done)).length + o.dests.length then none
    else some ((m.headrace o).modCtx x (fun c => c.xBegun o.id)) := by
  simp only [Mach.beginX]
  rw [if_neg (free_nextX h)]
  split
  case h_6 => rfl
  all_goals next e => simp [e, isSend, xredOp] at hs

theorem beginX_map {t : BitVec 1} (hi : (∃ j a, o.ins = .ldmap j a t) ∨ (∃ i j, o.ins = .swapmap i j t) ∨ ∃ j, o.ins = .retiremap j t) :
    m.beginX x o = some ((m.modCtx x (fun c => c.xBegun o.id)).modTail (tailOf x t) (fun q =>
      { q with ops := q.ops ++ [{ ins := o.ins, ctx := x, rid := o.rid, id := o.id, loc := (o.word 0).toNat }] })) := by
  simp only [Mach.beginX]
  rw [if_neg (free_nextX h)]
  obtain ⟨j, a, e⟩ | ⟨i, j, e⟩ | ⟨j, e⟩ := hi <;> simp only [e]

theorem beginX_strays {a : BitVec 6} {t : BitVec 1} (hi : o.ins = .strays a t) : m.beginX x o = some (m.readStray o (tailOf x t)) := by
  simp only [Mach.beginX]
  rw [if_neg (free_nextX h), hi]

theorem beginX_lnmsg {n : BitVec 3} {a : BitVec 6} (hi : o.ins = .lnmsg n a) (hb : before = []) : m.beginX x o = m.pushMsg o n.toNat := by
  simp only [Mach.beginX]
  rw [if_neg (free_nextX h), hi]
  simp [takeWhile_nextX h, hb]

end

/-! ### `strays` (R282) -/

/-- The write of `strays`, which ends it. -/
def strayWritten (m : Mach) (o : EngOp) (handler : Bool) (bs : List Byte) : Mach :=
  (if handler then m.keptStore (o.word 0).toNat bs else m.logStore o.rid (clusterOf o.ctx) (coreOf o.ctx) (o.word 0).toNat bs).xDone o.ctx o.id

theorem readStray_some {m : Mach} {o : EngOp} {t : Nat} {e : Stray} {q : Tail} (h : (m.tail t).takeStray (m.tenantOf o.rid) = some (e, q)) :
    m.readStray o t = strayWritten (m.modTail t (fun _ => q)) o ((m.ctx o.ctx).byHandler o.no) e.bytes := by
  simp only [Mach.readStray, h]
  rfl

theorem readStray_none {m : Mach} {o : EngOp} {t : Nat} (h : (m.tail t).takeStray (m.tenantOf o.rid) = none) :
    m.readStray o t = strayWritten m o ((m.ctx o.ctx).byHandler o.no) (zeroBytes 288) := by
  simp only [Mach.readStray, h]
  rfl

/-- The write of `strays`: a store of its bytes, and one operation less. -/
theorem strayWritten_eq (m : Mach) (o : EngOp) (handler : Bool) (bs : List Byte) :
    ∃ ts, strayWritten m o handler bs = ({ m.store (o.word 0).toNat bs with teams := ts } : Mach).xDone o.ctx o.id := by
  cases handler with
  | true => exact ⟨_, congrArg (fun n : Mach => n.xDone o.ctx o.id) (m.keptStore_same _ bs)⟩
  | false => exact ⟨_, congrArg (fun n : Mach => n.xDone o.ctx o.id) (m.logStore_same _ _ _ _ bs)⟩

theorem strayWritten_done {m n : Mach} {x : Nat} {o : EngOp} {before after : List EngOp} (h : nextX m x o before after) (hn : n.ctxs = m.ctxs)
    (handler : Bool) (bs : List Byte) : ((strayWritten n o handler bs).ctx x).xq = before ++ after ∧
      (strayWritten n o handler bs).ops = n.ops.filter (fun i => i ≠ o.id) ∧
      (strayWritten n o handler bs).mem = writeBytes n.mem (o.word 0).toNat bs ∧ (strayWritten n o handler bs).tails = n.tails := by
  obtain ⟨ts, e⟩ := strayWritten_eq n o handler bs
  rw [e, ctx_nextX h]
  refine ⟨xq_xDone h ?_, filter_bne_eq (f := fun k : Nat => k) .., rfl, rfl⟩
  refine (congrArg Ctx.xq (n.ctx_store (o.word 0).toNat bs x)).trans ?_
  rw [Mach.ctx, hn]
  rfl

theorem xOperationsBegin : XOperationsBegin := by
  intro s x o before after ha h
  have hstart := engineBegin_nextX h
  have hcx := ctx_nextX h
  refine ⟨fun hs hroom => ?_, fun hs hroom => ?_, fun t hi => ?_, fun a t hi => ⟨fun pre e post hq he hpre => ?_, fun hno => ?_⟩,
    fun n a hi hb => ⟨fun hroom hmode => ?_, fun hfull => ?_⟩⟩
  · have hbegin := beginX_send h hs
    rw [if_neg (Nat.not_lt.2 hroom), headrace_eq, hcx] at hbegin
    have hsame := sentAll_same ((List.range o.dests.length).flatMap (sentTo s.m o)) s.m
    have hctxs : ∀ y, (sentAll s.m ((List.range o.dests.length).flatMap (sentTo s.m o))).ctx y = s.m.ctx y := fun y => by rw [hsame]; rfl
    have hcores : ∀ j, (sentAll s.m ((List.range o.dests.length).flatMap (sentTo s.m o))).core j = s.m.core j := fun j => by rw [hsame]; rfl
    refine ⟨_, happens_of_some (f := fun m => m.engineBegin o.id) rfl ha (hstart.trans hbegin), rfl, rfl,
      (congrArg Mach.mem hsame :), ?_, fun y hy => ?_, ?_⟩
    · have hx := xq_begun h (congrArg Ctx.xq (hctxs x))
      rw [if_neg (mapKind_send hs)] at hx
      rw [Mach.ctx_modCtx_same]
      exact hx
    · exact (Mach.ctx_modCtx_other hy ..).trans (hctxs y)
    · rw [Mach.core_modCtx, Mach.core_modCore_same]
      exact congrArg (fun c : Core => c.xfers ++ _) (hcores (coreOf x))
  · have hbegin := beginX_send h hs
    rw [if_pos hroom] at hbegin
    exact happens_of_none (f := fun m => m.engineBegin o.id) rfl (hstart.trans hbegin)
  · refine ⟨_, happens_of_some (f := fun m => m.engineBegin o.id) rfl ha (hstart.trans (beginX_map h hi)), rfl, Mach.tail_modTail_same ..,
      { o with begun := true, reads := if mapKind o.ins = 1 then o.reads else [] }, ?_, rfl, rfl⟩
    rw [Mach.ctx_modTail, Mach.ctx_modCtx_same]
    exact xq_begun h rfl
  · have htake : (s.m.tail (tailOf x t)).takeStray (s.m.tenantOf o.rid) = some (e, { s.m.tail (tailOf x t) with strays := pre ++ post }) := by
      rw [Tail.takeStray, hq, takeFirst_append post (fun f hf => by simpa using hpre f hf) (by simp [he])]
      rfl
    have hbegin := (hstart.trans (beginX_strays h hi)).trans (congrArg some (readStray_some htake))
    obtain ⟨hxq, hops, hmem, htails⟩ := strayWritten_done (n := s.m.modTail (tailOf x t) (fun _ => { s.m.tail (tailOf x t) with strays := pre ++ post })) h rfl
      ((s.m.ctx o.ctx).byHandler o.no) e.bytes
    refine ⟨_, happens_of_some (f := fun m => m.engineBegin o.id) rfl ha hbegin, ⟨hxq, hops⟩, hmem, ?_⟩
    rw [Mach.tail, htails]
    exact Mach.tail_modTail_same ..
  · have htake : (s.m.tail (tailOf x t)).takeStray (s.m.tenantOf o.rid) = none := by
      rw [Tail.takeStray, takeFirst_eq_none fun f hf => by simpa using hno f hf]
      rfl
    have hbegin := (hstart.trans (beginX_strays h hi)).trans (congrArg some (readStray_none htake))
    obtain ⟨hxq, hops, hmem, htails⟩ := strayWritten_done (n := s.m) h rfl ((s.m.ctx o.ctx).byHandler o.no) (zeroBytes 288)
    exact ⟨_, happens_of_some (f := fun m => m.engineBegin o.id) rfl ha hbegin, ⟨hxq, hops⟩, hmem, htails⟩
  · have hpush : s.m.pushMsg o n.toNat = some ((s.m.modCore (coreOf x) (fun q => q.modLink n.toNat (fun l =>
        { l with outb := l.outb ++ [(o.word 0, 4 * o.no + x % 4, ((s.m.core (coreOf x)).link n.toNat).bind)] }))).xDone x o.id) := by
      have hlink : linkMode ((s.m.core (coreOf x)).link n.toNat).bind = 0 := by
        rw [linkMode, extractLsb'_eq_ofNat, BitVec.toNat_ofNat]
        exact hmode
      rw [Mach.pushMsg, hcx, if_neg (Nat.not_le.2 hroom)]
      simp only [Mach.pushLink]
      rw [if_pos hlink]
      rfl
    refine ⟨_, happens_of_some (f := fun m => m.engineBegin o.id) rfl ha ((hstart.trans (beginX_lnmsg h hi hb)).trans hpush),
      ⟨xq_xDone h rfl, filter_bne_eq (f := fun k : Nat => k) ..⟩, ?_, rfl⟩
    rw [Mach.core_xDone, Mach.core_modCore_same]
    exact kgetD_kput_same ..
  · refine happens_of_none (f := fun m => m.engineBegin o.id) rfl ((hstart.trans (beginX_lnmsg h hi hb)).trans ?_)
    rw [Mach.pushMsg, hcx, if_pos hfull]

/-- Settles O42: the operations of the engines begin and complete, the next operation of an X queue begins, and a local access at the head of
its queues performs and returns its data; each of its three parts is settled above, event by event. -/
theorem enginesAndLocalAccessesPerform : Obligations.EnginesAndLocalAccessesPerform :=
  ⟨engineOperationsBeginAndComplete, xOperationsBegin, localAccessesPerformAndReturn⟩

end Sys2Proof.Claims
end

section
/-! SUPPORT. The events of command streams (R13 to R16, R25, R167). -/

namespace Sys2Proof.Machine

theorem Mach.modStream_modStream (m : Mach) (k : Nat) (f g : Stream → Stream) : (m.modStream k f).modStream k g = m.modStream k (fun t => g (f t)) := by
  simp only [Mach.modStream, Mach.stream, kgetD_kput_same, kput_kput]

/-- In a wipe no command that waits goes on (R167; log 34). -/
theorem awaited_of_wiping {m : Mach} (h : m.pkg.wiping = true) (k : Nat) (f : Await → Option Mach) : m.awaited k f = none := by
  rw [Mach.awaited, if_pos h]

theorem awaited_of_await {m : Mach} (h : m.pkg.wiping = false) {k : Nat} {a : Await} (ha : (m.stream k).await = some a) (f : Await → Option Mach) :
    m.awaited k f = f a := by
  rw [Mach.awaited, h, ha]
  rfl

/-- A command that waits for something that `f` does not grant goes on waiting. -/
theorem awaited_none {m : Mach} {k : Nat} {a : Await} (ha : (m.stream k).await = some a) {f : Await → Option Mach} (hf : f a = none) :
    m.awaited k f = none := by
  cases h : m.pkg.wiping with
  | true => exact awaited_of_wiping h k f
  | false => exact (awaited_of_await h ha f).trans hf

/-- A bit of bits 31 to 16 of a word. -/
theorem getLsbD_middle (v : W64) {j : Nat} (h : 16 ≤ j) (h' : j < 32) : v.getLsbD j = (v.toNat / 2 ^ 16 % 2 ^ 16).testBit (j - 16) := by
  have hlt : j - 16 < 16 := by omega
  rw [Nat.testBit_mod_two_pow, Nat.testBit_div_two_pow, Nat.sub_add_cancel h, decide_eq_true hlt, Bool.true_and, BitVec.getLsbD]

end Sys2Proof.Machine

namespace Sys2Proof.Claims

open Sys2Proof.Machine

/-- R16: a stream faults. -/
theorem streamFaulted_fault (m : Mach) (k : Nat) (code : BitVec 8) (n : BitVec 32) : streamFaulted m (m.streamFault k code n) k code.toNat n.toNat := by
  have hstat := fault_stat (m.stream k) code n
  have hc := code.isLt
  have hn := n.isLt
  refine ⟨(m.stream k).fault code n, rfl, rfl, ?_, ?_, fun j hj hj' => ?_⟩
  · rw [hstat]
    omega
  · rw [hstat]
    omega
  · have hmid : ((m.stream k).fault code n).stat.toNat / 2 ^ 16 % 2 ^ 16 = (m.stream k).stat.toNat / 2 ^ 16 % 2 ^ 16 := by
      rw [hstat]
      omega
    rw [getLsbD_middle _ hj hj', getLsbD_middle _ hj hj', hmid]

/-- A stream is completed by the command that it waits in. -/
theorem modStream_complete (m : Mach) (k : Nat) : m.modStream k Stream.complete = streamWith m k (completed (m.stream k)) := by
  rw [Mach.modStream, complete_eq]
  rfl

/-- R16: the command that a stream waits in is abandoned (log 37). -/
theorem abandon_eq (m : Mach) (k : Nat) : m.abandon k = abandoned m k := by
  rw [Mach.abandon, abandoned]
  cases ha : (m.stream k).await with
  | none => rfl
  | some a => cases a <;> rfl

theorem log_eq (t : Stream) : t.log = t.size.toNat % 32 := by rw [Stream.log, BitVec.extractLsb'_toNat]; rfl

/-- R15: a `signal` performs its store, raises its interrupt and is complete. -/
theorem signalDone_of_store {m : Mach} {k loc : Nat} {v : W64} {irq : Option (BitVec 8)} (hw : m.pkg.wiping = false)
    (hs : (m.stream k).await = some (.store loc v irq)) : ∃ n, m.signalDone k = some n ∧ n.mem = writeBytes m.mem loc (lowBytes 8 v.toNat) ∧
      n.irqs = m.irqs ++ irq.toList ∧ n.streams = kput k (completed (m.stream k)) m.streams ∧ n.runs = m.runs ∧ n.pkg = m.pkg ∧
      n.gops = m.gops.map (fun g => g.overtaken m.mem loc 8) := by
  refine ⟨_, awaited_of_await hw hs _, ?_⟩
  have hv : vecLE 8 v = lowBytes 8 v.toNat := natLE_eq_lowBytes ..
  simp only [hv, modStream_complete]
  cases irq with
  | none => exact ⟨rfl, (List.append_nil _).symm, rfl, rfl, rfl, rfl⟩
  | some n => exact ⟨rfl, rfl, rfl, rfl, rfl, rfl⟩

theorem streamEvents : StreamEvents := by
  intro s k e ha
  refine ⟨fun h => ?_, fun h => ?_, fun hw => ⟨fun j n hj hn => ?_, fun hall ho => ?_, fun loc v irq hs => ?_⟩, fun hw => ⟨?_, ?_, ?_⟩,
    fun j n hj hn => ?_, fun hall ho => ?_, fun c n rest hl hn => ?_, fun hn => ?_⟩
  · refine happens_of_some (f := fun m => m.append k.toNat e) rfl ha ?_
    simp only [Mach.append, log_eq]
    rw [if_pos h]
    rfl
  · refine ⟨_, happens_of_some (f := fun m => m.append k.toNat e) rfl ha ?_, streamFaulted_fault _ _ 7 0⟩
    simp only [Mach.append, log_eq]
    rw [if_neg h, abandon_eq]
  · refine happens_of_some (f := fun m => m.waitrunDone k.toNat) rfl ha ((awaited_of_await hw hj _).trans ((if_pos (by simpa using hn)).trans ?_))
    rw [modStream_complete]
  · refine happens_of_some (f := fun m => m.fenceDone k.toNat) rfl ha ((awaited_of_await hw hall _).trans ((if_pos (by simp [ho])).trans ?_))
    rw [modStream_complete]
  · obtain ⟨m, hm, hmem, hirqs, hstreams, hruns, hpkg, hgops⟩ := signalDone_of_store hw hs
    refine ⟨m, happens_of_some (f := fun m => m.signalDone k.toNat) rfl ha hm, hmem, hirqs, ?_, fun j hj => ?_, hruns, hpkg, hgops⟩
    · rw [Mach.stream, hstreams, kgetD_kput_same]
    · rw [Mach.stream, hstreams, kgetD_kput_other _ hj, Mach.stream]
  · exact happens_of_none (f := fun m => m.waitrunDone k.toNat) rfl (awaited_of_wiping hw ..)
  · exact happens_of_none (f := fun m => m.fenceDone k.toNat) rfl (awaited_of_wiping hw ..)
  · exact happens_of_none (f := fun m => m.signalDone k.toNat) rfl (awaited_of_wiping hw ..)
  · exact happens_of_none (f := fun m => m.waitrunDone k.toNat) rfl (awaited_none hj (if_neg (by simpa using hn)))
  · exact happens_of_none (f := fun m => m.fenceDone k.toNat) rfl (awaited_none hall (if_neg (by simpa using ho)))
  · refine ⟨_, _, happens_of_some (f := fun m => m.lateStreamFault k.toNat) rfl ha ?_, streamFaulted_fault _ _ c n, rfl⟩
    simp only [Mach.lateStreamFault, hl, hn]
    rfl
  · refine happens_of_none (f := fun m => m.lateStreamFault k.toNat) rfl ?_
    simp only [Mach.lateStreamFault]
    split
    · next h => exact absurd h hn
    · rfl

end Sys2Proof.Claims
end

section
/-! SUPPORT. Runs as they are placed, start and retire (R19 to R22, R24, R25, R268, R315, R318, R369). -/

namespace Sys2Proof.Machine

/-! ### Whether a run can be placed (R19, R21, R369) -/

theorem foldl_add_eq_sum (l : List Nat) : l.foldl (fun x y => x + y) 0 = l.sum := List.sum_eq_foldl.symm

theorem roomFor_iff {s : State} {r : Run} : s.m.roomFor r = true ↔ Claims.free s r := by
  simp only [Mach.roomFor, Claims.free, foldl_add_eq_sum, Bool.and_eq_true, List.all_eq_true, Bool.or_eq_true, Bool.not_eq_true', decide_eq_true_eq,
    List.mem_filter, List.contains_eq_mem, decide_eq_false_iff_not, and_assoc]
  refine and_congr (forall₂_congr fun q _ => ?_) (and_congr ⟨fun h q hq hp hb => h q ⟨hq, hp, hb⟩, fun h q hq => h q hq.1 hq.2.1 hq.2.2⟩ Iff.rfl)
  rw [← Bool.not_eq_true, imp_iff_not_or]

theorem testFirst_iff {s : State} {r : Run} : s.m.testFirst r = false ↔ Claims.tested s r := by
  simp only [Mach.testFirst, Claims.tested, List.any_eq_false, Bool.and_eq_true, Bool.not_eq_true', not_and_or, Bool.not_eq_false, Bool.not_eq_true]

/-! ### Placement (R22, R27, R315) -/

/-- Giving its resources to a run leaves the contexts, the runs, the teams, the streams and the trap table (R22). -/
theorem takeEntries_same (m : Mach) (ten : Nat) (l : List Entry) :
    ((l.foldl (fun (acc : Mach) e => acc.takeEntry ten e) m).ctxs = m.ctxs ∧ (l.foldl (fun (acc : Mach) e => acc.takeEntry ten e) m).runs = m.runs ∧
      (l.foldl (fun (acc : Mach) e => acc.takeEntry ten e) m).streams = m.streams) ∧
      (l.foldl (fun (acc : Mach) e => acc.takeEntry ten e) m).pkg.ttab = m.pkg.ttab :=
  ⟨⟨foldl_keeps (f := fun (acc : Mach) e => acc.takeEntry ten e) Mach.ctxs (fun _ _ => rfl) l m,
    foldl_keeps (f := fun (acc : Mach) e => acc.takeEntry ten e) Mach.runs (fun _ _ => rfl) l m,
    foldl_keeps (f := fun (acc : Mach) e => acc.takeEntry ten e) Mach.streams (fun _ _ => rfl) l m⟩,
    foldl_keeps (f := fun (acc : Mach) e => acc.takeEntry ten e) (fun m : Mach => m.pkg.ttab) (fun _ _ => rfl) l m⟩

/-- Rebuilding slot tables changes cores only (R27), and not their micro-TLBs. -/
theorem rebuilds_same (l : List Entry) : ∀ m : Mach, l.foldl (fun (acc : Mach) e => acc.rebuild (8 * e.cluster + e.core)) m =
    { m with cores := (l.foldl (fun (acc : Mach) e => acc.rebuild (8 * e.cluster + e.core)) m).cores } := by
  induction l with
  | nil => exact fun _ => rfl
  | cons e l ih =>
    intro m
    rw [List.foldl_cons, ih]
    rfl

theorem utlb_rebuilds (l : List Entry) (k : Nat) (m : Mach) :
    ((l.foldl (fun (acc : Mach) e => acc.rebuild (8 * e.cluster + e.core)) m).core k).utlb = (m.core k).utlb := by
  refine foldl_keeps (fun m : Mach => (m.core k).utlb) (fun m e => ?_) l m
  by_cases h : k = 8 * e.cluster + e.core
  · rw [h, Mach.rebuild, Mach.core_modCore_same]
  · rw [Mach.rebuild, Mach.core_modCore_other h]

/-- Contexts of a team with their ranks (R22). -/
def Run.ranked (r : Run) (cl : Nat) : List (Nat × Nat) := List.zip (List.range (r.teamCtxs cl).length) (r.teamCtxs cl)

theorem ranked_ctxs (r : Run) (cl : Nat) : (r.ranked cl).map (fun q => q.2) = r.teamCtxs cl := List.map_snd_zip (by simp)

theorem mem_ranked {r : Run} {cl i x : Nat} (h : (r.teamCtxs cl)[i]? = some x) : (i, x) ∈ r.ranked cl := by
  obtain ⟨hi, rfl⟩ := List.getElem?_eq_some_iff.1 h
  exact List.mem_iff_getElem.2 ⟨i, by simpa [Run.ranked] using hi, by simp [Run.ranked]⟩

theorem rget_rput {w : Nat} (j k : Nat) (v : BitVec w) (m : RMap w) : rget j (rput k v m) = if j = k then v else rget j m := by
  split
  · next h => rw [h, rget_rput_same]
  · next h => exact rget_rput_other h v m

/-- What a run's context holds as it begins (R22, R315). -/
theorem begins_startCtx {m n : Mach} (h : n.pkg.ttab = m.pkg.ttab) (r : Run) (x team rank size share : Nat) :
    Claims.begins m r x team rank size (n.startCtx r x team rank size share) := by
  refine ⟨fun k => ?_, rfl, rfl, rfl, rfl, rfl, congrArg (rget _) h, ?_⟩
  · have e : ∀ c < 64, k.toNat = c ↔ k = BitVec.ofNat 6 c := fun c hc => by
      rw [← BitVec.toNat_inj, BitVec.toNat_ofNat, Nat.mod_eq_of_lt hc]
    have hnil : rget k.toNat ([] : RMap 64) = 0 := rfl
    simp only [Mach.startCtx, List.foldl_cons, List.foldl_nil, Regs.rg, rget_rput, hnil, e _ (by decide : 1 < 64), e _ (by decide : 2 < 64),
      e _ (by decide : 3 < 64), e _ (by decide : 4 < 64), e _ (by decide : 5 < 64)]
    split_ifs <;> simp_all
  · rw [← h]
    rfl

theorem setCtxs_same (f : Nat × Nat → Ctx) (l : List (Nat × Nat)) : ∀ m : Mach, l.foldl (fun (acc : Mach) q => acc.setCtx q.2 (f q)) m =
    { m with ctxs := (l.foldl (fun (acc : Mach) q => acc.setCtx q.2 (f q)) m).ctxs } := by
  induction l with
  | nil => exact fun _ => rfl
  | cons q l ih =>
    intro m
    rw [List.foldl_cons, ih]
    rfl

/-- A team's contexts at their first bundle (R22). -/
def Mach.startTeam (m : Mach) (r : Run) (p : Nat × Nat) : Mach :=
  (r.ranked p.2).foldl (fun (acc : Mach) q => acc.setCtx q.2 (m.startCtx r q.2 p.1 q.1 (r.teamCtxs p.2).length
    (kgetD 0 q.2 ((r.entriesIn p.2).flatMap Entry.shares)))) m

theorem Mach.ctx_placeTeam (m : Mach) (r : Run) (p : Nat × Nat) (x : Nat) : (m.placeTeam r p).ctx x = (m.startTeam r p).ctx x := rfl

theorem startTeam_same (m : Mach) (r : Run) (p : Nat × Nat) : m.startTeam r p = { m with ctxs := (m.startTeam r p).ctxs } := by
  exact setCtxs_same (fun q => m.startCtx r q.2 p.1 q.1 (r.teamCtxs p.2).length (kgetD 0 q.2 ((r.entriesIn p.2).flatMap Entry.shares))) _ m

theorem placeTeam_other {r : Run} {x : Nat} (n : Mach) (p : Nat × Nat) (h : x ∉ r.teamCtxs p.2) : (n.placeTeam r p).ctx x = n.ctx x := by
  rw [Mach.ctx_placeTeam, Mach.startTeam]
  exact ctx_foldl_other (key := fun q : Nat × Nat => q.2) (fun _ _ hq => Mach.ctx_setCtx_other (Ne.symm hq) ..) (by rwa [ranked_ctxs])

theorem placeTeam_begins {m n : Mach} {r : Run} {p : Nat × Nat} {i x : Nat} (ht : n.pkg.ttab = m.pkg.ttab) (hn : (r.teamCtxs p.2).Nodup)
    (h : (r.teamCtxs p.2)[i]? = some x) : Claims.begins m r x p.1 i (r.teamCtxs p.2).length ((n.placeTeam r p).ctx x) := by
  obtain ⟨n', -, e⟩ := ctx_foldl_once (f := fun (acc : Mach) q => acc.setCtx q.2 (n.startCtx r q.2 p.1 q.1 (r.teamCtxs p.2).length
      (kgetD 0 q.2 ((r.entriesIn p.2).flatMap Entry.shares)))) (key := fun q : Nat × Nat => q.2)
    (fun _ _ hq => Mach.ctx_setCtx_other (Ne.symm hq) ..) (by rwa [ranked_ctxs]) (mem_ranked h) rfl n
  rw [Mach.ctx_placeTeam, Mach.startTeam, e, Mach.ctx_setCtx_same]
  exact begins_startCtx ht ..

theorem placeTeam_same (m : Mach) (r : Run) (p : Nat × Nat) :
    m.placeTeam r p = { m with ctxs := (m.placeTeam r p).ctxs, teams := (m.placeTeam r p).teams } := by
  have h : m.placeTeam r p = { m.startTeam r p with teams := (m.placeTeam r p).teams } := rfl
  rw [h, startTeam_same]

/-- A team is set up after those before it. -/
theorem placeTeam_teams (m : Mach) (r : Run) (p : Nat × Nat) :
    ∃ t : Team, (m.placeTeam r p).teams = m.teams ++ [t] ∧ t.rid = r.id ∧ t.cluster = p.2 ∧ t.ctxs = r.teamCtxs p.2 := by
  have h : (m.startTeam r p).teams = m.teams := by rw [startTeam_same]
  exact ⟨_, congrArg (· ++ _) h, rfl, rfl, rfl⟩

/-! The teams of a run, one after the other. -/

/-- The machine with some teams of a run set up. -/
def Mach.placeTeams (m : Mach) (r : Run) (l : List (Nat × Nat)) : Mach := l.foldl (fun (acc : Mach) p => acc.placeTeam r p) m

section

variable {m : Mach} {r : Run}

theorem placeTeams_same (l : List (Nat × Nat)) : ∀ n : Mach,
    n.placeTeams r l = { n with ctxs := (n.placeTeams r l).ctxs, teams := (n.placeTeams r l).teams } := by
  induction l with
  | nil => exact fun _ => rfl
  | cons p l ih =>
    intro n
    rw [show n.placeTeams r (p :: l) = (n.placeTeam r p).placeTeams r l from rfl, ih, placeTeam_same]

theorem placeTeams_other {x : Nat} {l : List (Nat × Nat)} : ∀ {n : Mach}, (∀ p ∈ l, x ∉ r.teamCtxs p.2) → (n.placeTeams r l).ctx x = n.ctx x := by
  induction l with
  | nil => exact fun _ => rfl
  | cons p l ih =>
    intro n h
    exact (ih fun q hq => h q (List.mem_cons_of_mem _ hq)).trans (placeTeam_other n p (h p (List.mem_cons_self ..)))

theorem placeTeams_begins {i x : Nat} {p : Nat × Nat} {l : List (Nat × Nat)} : ∀ {n : Mach}, n.pkg.ttab = m.pkg.ttab →
    (∀ q ∈ l, (r.teamCtxs q.2).Nodup) → l.Pairwise (fun a b => List.Disjoint (r.teamCtxs a.2) (r.teamCtxs b.2)) → p ∈ l →
    (r.teamCtxs p.2)[i]? = some x → Claims.begins m r x p.1 i (r.teamCtxs p.2).length ((n.placeTeams r l).ctx x) := by
  induction l with
  | nil => exact fun _ _ _ hp => absurd hp List.not_mem_nil
  | cons q l ih =>
    intro n ht hn hd hp hx
    obtain ⟨hq, hd⟩ := List.pairwise_cons.1 hd
    obtain rfl | hp := List.mem_cons.1 hp
    · rw [show n.placeTeams r (p :: l) = (n.placeTeam r p).placeTeams r l from rfl,
        placeTeams_other fun a ha hxa => hq a ha (List.mem_of_getElem? hx) hxa]
      exact placeTeam_begins ht (hn p (List.mem_cons_self ..)) hx
    · refine ih (n := n.placeTeam r q) ?_ (fun a ha => hn a (List.mem_cons_of_mem _ ha)) hd hp hx
      rw [placeTeam_same]
      exact ht

theorem placeTeams_teams {l : List (Nat × Nat)} : ∀ {n : Mach}, (∀ t ∈ n.teams, t ∈ (n.placeTeams r l).teams) ∧
    ∀ p ∈ l, ∃ t ∈ (n.placeTeams r l).teams, t.rid = r.id ∧ t.cluster = p.2 ∧ t.ctxs = r.teamCtxs p.2 := by
  induction l with
  | nil => exact fun {_} => ⟨fun _ ht => ht, fun _ hp => absurd hp List.not_mem_nil⟩
  | cons q l ih =>
    intro n
    obtain ⟨t, ht, hfacts⟩ := placeTeam_teams n r q
    obtain ⟨hold, hnew⟩ := ih (n := n.placeTeam r q)
    refine ⟨fun u hu => hold u (by rw [ht]; exact List.mem_append_left _ hu), fun p hp => ?_⟩
    obtain rfl | hp := List.mem_cons.1 hp
    · exact ⟨t, hold t (by rw [ht]; exact List.mem_append_right _ (List.mem_singleton_self t)), hfacts⟩
    · exact hnew p hp

end

/-- The teams of a run with their numbers (R22). -/
def Run.numbered (r : Run) : List (Nat × Nat) := List.zip (List.range r.clusters.length) r.clusters

theorem numbered_clusters (r : Run) : r.numbered.map (fun p => p.2) = r.clusters := List.map_snd_zip (by simp)

theorem mem_numbered {r : Run} {j cl : Nat} (h : r.clusters[j]? = some cl) : (j, cl) ∈ r.numbered := by
  obtain ⟨hj, rfl⟩ := List.getElem?_eq_some_iff.1 h
  exact List.mem_iff_getElem.2 ⟨j, by simpa [Run.numbered] using hj, by simp [Run.numbered]⟩

/-- The machine once a run has been placed (R21, R22). -/
def Mach.placed (m : Mach) (r : Run) (id : Nat) : Mach :=
  let m2 := (r.recs.foldl (fun (acc : Mach) e => acc.takeEntry r.tenant e) m).placeTeams r r.numbered
  ((r.recs.foldl (fun (acc : Mach) e => acc.rebuild (8 * e.cluster + e.core)) m2).modRun id (fun q => { q with placed := true })).modStream r.stream
    (fun t => if t.await == some (.placement id) then t.complete else t)

theorem place_some {m : Mach} {id : Nat} {r : Run} (h : m.run? id = some r) (hp : r.placed = false) (hw : m.pkg.wiping = false)
    (hr : m.roomFor r = true) (ht : m.testFirst r = false) : m.place id = some (m.placed r id) := by
  simp only [Mach.place, h]
  rw [if_neg (by simp [hp, hw, hr, ht])]
  rfl

theorem place_none {m : Mach} {id : Nat} {r : Run} (h : m.run? id = some r) (hn : m.pkg.wiping = true ∨ m.roomFor r = false ∨ m.testFirst r = true) :
    m.place id = none := by
  simp only [Mach.place, h]
  rw [if_pos]
  obtain hn | hn | hn := hn <;> simp [hn]

/-- The contexts and the teams of a placed run are those that its teams are set up with. -/
theorem placed_same (m : Mach) (r : Run) (id : Nat) : ∃ n : Mach, n.ctxs = m.ctxs ∧ n.pkg.ttab = m.pkg.ttab ∧
    (m.placed r id).ctxs = (n.placeTeams r r.numbered).ctxs ∧ (m.placed r id).teams = (n.placeTeams r r.numbered).teams ∧
    (m.placed r id).runs = (m.modRun id (fun q => { q with placed := true })).runs ∧
    (m.placed r id).stream r.stream = if (m.stream r.stream).await == some (.placement id) then (m.stream r.stream).complete else m.stream r.stream := by
  obtain ⟨⟨hctxs, hruns, hstreams⟩, httab⟩ := takeEntries_same m r.tenant r.recs
  refine ⟨r.recs.foldl (fun (acc : Mach) e => acc.takeEntry r.tenant e) m, hctxs, httab, ?_, ?_, ?_, ?_⟩
  · rw [Mach.placed, rebuilds_same]
    rfl
  · rw [Mach.placed, rebuilds_same]
    rfl
  · rw [Mach.placed, rebuilds_same, placeTeams_same]
    exact congrArg (modWhere (fun q : Run => q.id == id) fun q => { q with placed := true }) hruns
  · rw [Mach.placed, rebuilds_same, placeTeams_same, Mach.stream_modStream_same]
    exact congrArg (fun l => if (kgetD Stream.zero r.stream l).await == some (.placement id) then (kgetD Stream.zero r.stream l).complete
      else kgetD Stream.zero r.stream l) hstreams

/-! ### Retirement (R24, R25, R318) -/

theorem finished_iff {s : State} {r : Run} : (r.begun && s.m.finished r) = true ↔ Claims.over_ s r := by
  simp only [Mach.finished, Claims.over_, Claims.idle, Bool.and_eq_true, List.all_eq_true, Bool.not_eq_true', List.any_eq_false, beq_iff_eq,
    List.isEmpty_iff, and_assoc, ne_eq]

/-- What the reading of a record depends on besides the stream's root and masks (R15, R371). -/
def Mach.sameReading (m n : Mach) : Prop :=
  n.mem = m.mem ∧ n.pkg.part = m.pkg.part ∧ n.pkg.chip = m.pkg.chip ∧ n.pkg.tlb = m.pkg.tlb ∧ (n.core sequencerCore).utlb = (m.core sequencerCore).utlb

section

variable {m n : Mach} (h : m.sameReading n)

include h

theorem walkFrom_congr (va fuel : Nat) : ∀ lvl t, walkFrom n va fuel lvl t = walkFrom m va fuel lvl t := by
  have hload : n.load = m.load := by
    funext a k
    rw [Mach.load, h.1, Mach.load]
  induction fuel with
  | zero => exact fun _ _ => rfl
  | succ fuel ih =>
    intro lvl t
    rw [walkFrom, walkFrom, hload]
    simp only [ih]

theorem translate_congr (root : W64) (va : Nat) : n.translate sequencerCore root va = m.translate sequencerCore root va := by
  have hwalk : n.walk root va = m.walk root va := by rw [Mach.walk, Mach.walk, walkFrom_congr h]
  obtain ⟨-, -, -, htlb, hutlb⟩ := h
  simp only [Mach.translate, Mach.clusterEntry, hwalk, htlb, hutlb]

theorem pieces_congr (root : W64) (fuel : Nat) : ∀ off va k, pieces n sequencerCore root fuel off va k = pieces m sequencerCore root fuel off va k := by
  have htr := translate_congr h root
  obtain ⟨-, -, hchip, -⟩ := h
  induction fuel with
  | zero => exact fun _ _ _ => rfl
  | succ fuel ih =>
    intro off va k
    simp only [pieces, htr, ih, hchip]

theorem readRecord_congr {t u : Stream} (hroot : u.root = t.root) (hcfg : u.cfg = t.cfg) (bin : W64) : n.readRecord u bin = m.readRecord t bin := by
  have hpt : ∀ p, u.ptMask p = t.ptMask p := fun p => by rw [Stream.ptMask, hcfg, Stream.ptMask]
  have hcl : ∀ c, u.clMask c = t.clMask c := fun c => by rw [Stream.clMask, hcfg, Stream.clMask]
  have hpieces := pieces_congr h t.root
  obtain ⟨hmem, hpart, -⟩ := h
  have hpage : n.seqPageOk u false = m.seqPageOk t false := by
    funext g
    simp only [Mach.seqPageOk, hpart, hpt]
  have hread : ∀ va k, n.seqRead u va k = m.seqRead t va k := fun va k => by
    have hbytes : n.segBytes = m.segBytes := by
      funext l
      simp only [Mach.segBytes, hmem]
    simp only [Mach.seqRead, Mach.seqPieces, hroot, hpieces, hpage, hbytes]
  have hheader : headerOk u = headerOk t := by
    funext b
    simp only [headerOk, hpt]
  have hentry : entryOk u = entryOk t := by
    funext b
    simp only [entryOk, hcl]
  simp only [Mach.readRecord, hread, hheader, hentry]

end

/-! #### Late faults (R318) -/

theorem clearExpiries_same (l : List Nat) : ∀ m : Mach, l.foldl Mach.clearExpiry m =
    { m with ctxs := (l.foldl Mach.clearExpiry m).ctxs, pkg := { m.pkg with own := (l.foldl Mach.clearExpiry m).pkg.own } } := by
  induction l with
  | nil => exact fun _ => rfl
  | cons x l ih =>
    intro m
    rw [List.foldl_cons, ih]
    rfl

/-- The lost stores and failed transfers of a run that no context took (R318). -/
def Mach.lateCount (m : Mach) (xs : List Nat) : Nat := (xs.map (fun x => (m.ctx x).lateFaults)).foldl (fun a b => a + b) 0

theorem lateCount_ne_zero {m : Mach} {xs : List Nat} {x : Nat} (hx : x ∈ xs)
    (h : ((m.ctx x).pend.pex = true ∧ (m.ctx x).pend.pexN ≠ 0) ∨ (m.ctx x).pend.ptf = true) : m.lateCount xs ≠ 0 := by
  rw [Mach.lateCount, foldl_add_eq_sum]
  intro hz
  have hx0 : (m.ctx x).lateFaults = 0 := List.sum_eq_zero_iff.1 hz _ (List.mem_map_of_mem hx)
  rw [Ctx.lateFaults] at hx0
  obtain ⟨hp, hn⟩ | hp := h
  · rw [if_pos hp, Nat.add_eq_zero_iff] at hx0
    exact hn (BitVec.eq_of_toNat_eq hx0.1)
  · rw [hp] at hx0
    simp [b2n] at hx0

/-- What the late faults of a run that retires leave, and what they do where there are any (R318). -/
theorem lateFaults_same (m : Mach) (r : Run) (xs : List Nat) : ∃ (cs : KMap Ctx) (t : Stream) (p : Pkg) (q : List (BitVec 8)),
    m.lateFaults r xs = { m with ctxs := cs, pkg := p, irqs := q, streams := if m.lateCount xs = 0 then m.streams else kput r.stream t m.streams } ∧
      p.part = m.pkg.part ∧ p.chip = m.pkg.chip ∧ p.tlb = m.pkg.tlb ∧ t = { m.stream r.stream with stat := setField (m.stream r.stream).stat 16 1 1 } ∧
      (m.lateCount xs ≠ 0 → q = m.irqs ++ [m.pkg.vector 2]) := by
  have hlate : m.lateFaults r xs = if m.lateCount xs = 0 then xs.foldl Mach.clearExpiry m else
      (((xs.foldl Mach.clearExpiry m).modStream r.stream (fun t => { t with stat := setField t.stat 16 1 1 })).modPkg (fun p =>
        { p with cnts := rput (302 + r.stream) (rget (302 + r.stream) p.cnts + BitVec.ofNat 64 (m.lateCount xs)) p.cnts })).raiseIrq (m.pkg.vector 2) := rfl
  rw [hlate, clearExpiries_same]
  split
  · next h => exact ⟨_, _, _, _, rfl, rfl, rfl, rfl, rfl, fun hn => absurd h hn⟩
  · exact ⟨_, _, _, _, rfl, rfl, rfl, rfl, rfl, fun _ => rfl⟩

/-! #### What a run held is released (R25) -/

theorem ctx_absent {m : Mach} {xs : List Nat} {x : Nat} (hx : x ∈ xs) : kgetD Ctx.zero x (m.ctxs.filter (fun p => !xs.contains p.1)) = Ctx.zero := by
  have hnone : kget x (m.ctxs.filter (fun p => !xs.contains p.1)) = none := kget_eq_none fun h => by
    obtain ⟨p, hp, rfl⟩ := List.mem_map.1 h
    simp [hx] at hp
  rw [kgetD, hnone]
  rfl

/-- A run's record, contexts and teams gone, its late faults reported (R25, R318). -/
def Mach.retired (m : Mach) (r : Run) : Mach := (m.lateFaults r r.ctxs).release r r.ctxs

theorem utlb_map_cores {f : Core → Core} (hf : ∀ c, (f c).utlb = c.utlb) (k : Nat) (l : KMap Core) :
    (kgetD Core.zero k (l.map (fun p => (p.1, f p.2)))).utlb = (kgetD Core.zero k l).utlb := by
  rw [kgetD, kgetD, kget_map]
  cases kget k l with
  | none => rfl
  | some c => exact hf c

theorem release_same (m : Mach) (r : Run) (xs : List Nat) : ∃ (cs : KMap Core) (p : Pkg), m.release r xs = { m with
    ctxs := m.ctxs.filter (fun p => !xs.contains p.1), teams := m.teams.filter (fun t => t.rid != r.id),
    runs := m.runs.filter (fun q => q.id != r.id), cores := cs, pkg := p } ∧
    p.part = m.pkg.part ∧ p.chip = m.pkg.chip ∧ p.tlb = m.pkg.tlb ∧ (kgetD Core.zero sequencerCore cs).utlb = (m.core sequencerCore).utlb := by
  rw [Mach.release, rebuilds_same]
  refine ⟨_, _, rfl, rfl, rfl, rfl, (utlb_rebuilds r.recs sequencerCore _).trans ?_⟩
  rw [Mach.core]
  exact utlb_map_cores (f := fun c => { c with links := c.links.map (fun q => (q.1, if q.2.holder == some r.id then q.2.free else q.2)) }) (fun _ => rfl) ..

/-- What a run that retires leaves (R25, R318). -/
structure Retires (m n : Mach) (r : Run) : Prop where
  ctxs : ∀ x ∈ r.ctxs, (n.ctx x).status = .absent
  teams : ∀ t ∈ n.teams, t.rid ≠ r.id
  runs : n.runs = m.runs.filter (fun q => q.id != r.id)
  mem : n.mem = m.mem
  nextId : n.nextId = m.nextId
  reading : m.sameReading n
  stream : n.stream r.stream = { m.stream r.stream with stat := (n.stream r.stream).stat }
  late : m.lateCount r.ctxs ≠ 0 → (n.stream r.stream).stat.getLsbD 16 = true ∧ n.irqs = m.irqs ++ [m.pkg.vector 2]

theorem retires (m : Mach) (r : Run) : Retires m (m.retired r) r := by
  obtain ⟨cs, t, p, q, hlate, hpart, hchip, htlb, ht, hirqs⟩ := lateFaults_same m r r.ctxs
  obtain ⟨ks, u, hrel, hpart', hchip', htlb', hutlb⟩ := release_same (m.lateFaults r r.ctxs) r r.ctxs
  have hstreams : (m.retired r).streams = if m.lateCount r.ctxs = 0 then m.streams else kput r.stream t m.streams := by
    rw [Mach.retired, hrel, hlate]
  have hstream : (m.retired r).stream r.stream = if m.lateCount r.ctxs = 0 then m.stream r.stream else t := by
    rw [Mach.stream, hstreams]
    split
    · rfl
    · rw [kgetD_kput_same]
  have hcores : (m.lateFaults r r.ctxs).cores = m.cores := by rw [hlate]
  have hctx : ∀ x ∈ r.ctxs, (m.retired r).ctx x = Ctx.zero := fun x hx => by
    rw [Mach.retired, hrel]
    exact ctx_absent hx
  refine ⟨fun x hx => congrArg Ctx.status (hctx x hx), fun t ht => ?_, ?_, ?_, ?_, ⟨?_, ?_, ?_, ?_, ?_⟩, ?_, fun hn => ⟨?_, ?_⟩⟩
  · rw [Mach.retired, hrel] at ht
    simpa using (List.mem_filter.1 ht).2
  · rw [Mach.retired, hrel, hlate]
  · rw [Mach.retired, hrel, hlate]
  · rw [Mach.retired, hrel, hlate]
  · rw [Mach.retired, hrel, hlate]
  · rw [Mach.retired, hrel]
    exact hpart'.trans (by rw [hlate]; exact hpart)
  · rw [Mach.retired, hrel]
    exact hchip'.trans (by rw [hlate]; exact hchip)
  · rw [Mach.retired, hrel]
    exact htlb'.trans (by rw [hlate]; exact htlb)
  · rw [Mach.retired, hrel]
    exact hutlb.trans (by rw [Mach.core, hcores, Mach.core])
  · rw [hstream]
    split
    · rfl
    · rw [ht]
  · rw [hstream, if_neg hn, ht, getLsbD_setField _ _ _ _ (by decide)]
    rfl
  · rw [Mach.retired, hrel, hlate]
    exact hirqs hn

/-! #### The position of a retired run (R24, R25) -/

/-- A stream whose position `n` has RETIRED (R25). -/
def Stream.shut (t : Stream) (n : W64) : Stream := { t with open_ := t.open_.filter (fun p => p != n), ret := t.ret ++ [n] }

section

variable {n : Mach} {r : Run}

theorem position_none (h : r.child = none) : n.position r = n.modStream r.stream (fun t => t.shut r.pos) := by
  rw [Mach.position, h]
  rfl

theorem position_error {bin args : W64} {c : BitVec 8} (h : r.child = some (bin, args)) (hr : n.readRecord (n.stream r.stream) bin = .error c) :
    n.position r = n.modStream r.stream (fun t => { t.shut r.pos with late := t.late ++ [(c, r.pos.extractLsb' 0 32)] }) := by
  simp only [Mach.position, h, hr]
  exact Mach.modStream_modStream ..

theorem position_ok {bin args : W64} {a : W64 × Nat × List Entry} (h : r.child = some (bin, args))
    (hr : n.readRecord (n.stream r.stream) bin = .ok a) : n.position r = { n with
      nextId := n.nextId + 1, runs := n.runs ++ [Run.waiting n.nextId r.stream (n.stream r.stream) r.pos r.time bin args a] } := by
  simp only [Mach.position, h, hr]
  rfl

end

end Sys2Proof.Machine

namespace Sys2Proof.Claims

open Sys2Proof.Machine

/-- The run that a child becomes (R24). -/
theorem waiting_child {s : State} {r : Run} {n : Mach} (h : Retires s.m n r) (bin args pc : W64) (part : Nat) (es : List Entry) :
    Run.waiting n.nextId r.stream (n.stream r.stream) r.pos r.time bin args (pc, part, es) = childRun s r bin args pc part es := by
  have ht : (s.m.stream r.stream).tenant = (s.m.stream r.stream).cfg.toNat / 2 ^ 52 % 16 := by
    rw [Stream.tenant, BitVec.extractLsb'_toNat, Nat.shiftRight_eq_div_pow]
  rw [Run.waiting, h.nextId, h.stream, childRun, ← ht]
  rfl

theorem retire_some {m : Mach} {id : Nat} {r : Run} (h : m.run? id = some r) (hf : (r.begun && m.finished r) = true) :
    m.retire id = some ((m.retired r).position r) := by
  simp only [Mach.retire, h]
  rw [if_pos hf]
  rfl

theorem retire_none {m : Mach} {id : Nat} {r : Run} (h : m.run? id = some r) (hf : (r.begun && m.finished r) = false) : m.retire id = none := by
  simp only [Mach.retire, h]
  rw [if_neg (by simp [hf])]

/-- The rest of a released run (R25): it stands among the runs no longer. -/
theorem released_of {s : State} {r : Run} {n m : Mach} (h : Retires s.m n r) (hc : m.ctxs = n.ctxs) (ht : m.teams = n.teams) (hm : m.mem = n.mem)
    {rest : List Run} (hr : m.runs = n.runs ++ rest) : released s r m rest := by
  refine ⟨fun x hx => ?_, fun t hx => h.teams t (ht ▸ hx), by rw [hr, h.runs], hm.trans h.mem⟩
  rw [Mach.ctx, hc]
  exact h.ctxs x hx

/-- R24, R25: what the retirement of a run makes of its position and of its stream's late faults. -/
theorem retired_position {s : State} {r : Run} {n : Mach} (h : Retires s.m n r) : ∃ rest, released s r (n.position r) rest ∧
    ((n.position r).stream r.stream).stat = (n.stream r.stream).stat ∧ (n.position r).irqs = n.irqs ∧
    (r.child = none → rest = [] ∧ positionRetired (s.m.stream r.stream) ((n.position r).stream r.stream) r.pos) ∧
    (∀ bin args, r.child = some (bin, args) →
      (∀ pc part es, s.m.readRecord (s.m.stream r.stream) bin = .ok (pc, part, es) → rest = [childRun s r bin args pc part es] ∧
        ((n.position r).stream r.stream).ret = (s.m.stream r.stream).ret ∧ ((n.position r).stream r.stream).open_ = (s.m.stream r.stream).open_) ∧
      (∀ c, s.m.readRecord (s.m.stream r.stream) bin = .error c → rest = [] ∧
        positionRetired (s.m.stream r.stream) ((n.position r).stream r.stream) r.pos ∧
        ((n.position r).stream r.stream).late = (s.m.stream r.stream).late ++ [(c, r.pos.extractLsb' 0 32)])) := by
  have hret : (n.stream r.stream).ret = (s.m.stream r.stream).ret := by rw [h.stream]
  have hopen : (n.stream r.stream).open_ = (s.m.stream r.stream).open_ := by rw [h.stream]
  have hlate : (n.stream r.stream).late = (s.m.stream r.stream).late := by rw [h.stream]
  have hshut : positionRetired (s.m.stream r.stream) ((n.stream r.stream).shut r.pos) r.pos := by
    rw [positionRetired, ← hret, ← hopen]
    exact ⟨rfl, rfl⟩
  cases hc : r.child with
  | none =>
    rw [position_none hc]
    refine ⟨[], released_of h rfl rfl rfl (List.append_nil _).symm, ?_, rfl, fun _ => ⟨rfl, ?_⟩, fun _ _ e => by cases e⟩
    · rw [Mach.stream_modStream_same]
      rfl
    · rw [Mach.stream_modStream_same]
      exact hshut
  | some b =>
    obtain ⟨bin, args⟩ := b
    have hread : n.readRecord (n.stream r.stream) bin = s.m.readRecord (s.m.stream r.stream) bin :=
      readRecord_congr h.reading (by rw [h.stream]) (by rw [h.stream]) bin
    cases hr : s.m.readRecord (s.m.stream r.stream) bin with
    | error c =>
      rw [position_error hc (hread.trans hr)]
      refine ⟨[], released_of h rfl rfl rfl (List.append_nil _).symm, ?_, rfl, fun e => by (cases e), fun bin' args' e => ?_⟩
      · rw [Mach.stream_modStream_same]
        rfl
      · obtain ⟨rfl, rfl⟩ := Prod.mk.inj (Option.some.inj e)
        refine ⟨fun pc part es e => by simp [hr] at e, fun c' e => ?_⟩
        rw [hr] at e
        cases e
        rw [Mach.stream_modStream_same]
        exact ⟨rfl, hshut, congrArg (· ++ _) hlate⟩
    | ok a =>
      obtain ⟨pc, part, es⟩ := a
      rw [position_ok hc (hread.trans hr), waiting_child h]
      refine ⟨_, released_of (m := { n with nextId := n.nextId + 1, runs := n.runs ++ [childRun s r bin args pc part es] }) h rfl rfl rfl rfl, rfl, rfl, fun e => by (cases e), fun bin' args' e => ?_⟩
      obtain ⟨rfl, rfl⟩ := Prod.mk.inj (Option.some.inj e)
      refine ⟨fun pc' part' es' e => ?_, fun c e => by simp [hr] at e⟩
      rw [hr] at e
      cases e
      exact ⟨rfl, hret, hopen⟩

/-! ### Maps of retired runs (R268) -/

theorem emptyMaps_some {m : Mach} {t : Nat} {q : Nat × MapSlot} (hq : q ∈ (m.tail t).slots) (hn : m.run? q.2.rid = none) (hl : (m.tail t).landing = none) :
    m.emptyMaps t = some (m.modTail t (fun q => { q with slots := m.liveMaps t })) := by
  have hlen : (m.liveMaps t).length ≠ (m.tail t).slots.length := fun e => by
    have hlive := List.length_filter_eq_length_iff.1 e q hq
    simp [hn] at hlive
  simp only [Mach.emptyMaps]
  rw [if_neg (by simp [hlen, hl])]

theorem emptyMaps_landing {m : Mach} {t : Nat} (h : (m.tail t).landing ≠ none) : m.emptyMaps t = none := by
  simp only [Mach.emptyMaps]
  rw [if_pos (by simp [Option.isSome_iff_ne_none.2 h])]

theorem runEvents : RunEvents := by
  intro s id r ha h
  have hid : r.id = id := by simpa using List.find?_some h
  refine ⟨fun hp hw hf ht => ?_, fun hp hn => ?_, fun hw => ⟨?_, ?_⟩, fun hp hb hw => ?_, fun ho => ?_, fun hb hx => ?_, fun t hq hl => ?_, fun t hl => ?_⟩
  · obtain ⟨n, hctxs, httab, hc, hteams, hruns, hstream⟩ := placed_same s.m r id
    have hctx : ∀ x, (s.m.placed r id).ctx x = (n.placeTeams r r.numbered).ctx x := fun x => congrArg (kgetD Ctx.zero x) hc
    have hold : ∀ x, n.ctx x = s.m.ctx x := fun x => congrArg (kgetD Ctx.zero x) hctxs
    refine ⟨_, happens_of_some (f := fun m => m.place id) rfl ha (place_some h hp hw (roomFor_iff.2 hf) (testFirst_iff.2 ht)), ?_, fun j cl i x hj hi hone => ?_,
      fun x hx => ?_, fun cl hcl => ?_, fun hawait => ?_⟩
    · refine (congrArg (List.find? fun q : Run => q.id == id) hruns).trans ((Mach.run?_modRun s.m id id (f := fun q => { q with placed := true }) fun _ => rfl).trans ?_)
      rw [h, Option.map_some, if_pos (by simpa using hid)]
    · obtain ⟨hn, hd⟩ := List.nodup_flatMap.1 (List.nodup_iff_count_le_one.2 hone : (r.clusters.flatMap r.teamCtxs).Nodup)
      rw [hctx]
      refine placeTeams_begins (p := (j, cl)) httab (fun q hq => hn _ ?_) ?_ (mem_numbered hj) hi
      · rw [← numbered_clusters]
        exact List.mem_map_of_mem hq
      · rw [← numbered_clusters, List.pairwise_map] at hd
        exact hd
    · rw [hctx, placeTeams_other fun p hp hxp => hx (List.mem_flatMap.2 ⟨p.2, ?_, hxp⟩), hold]
      rw [← numbered_clusters]
      exact List.mem_map_of_mem hp
    · rw [← numbered_clusters, List.mem_map] at hcl
      obtain ⟨p, hp, rfl⟩ := hcl
      rw [hteams]
      exact placeTeams_teams.2 p hp
    · rw [hstream, hawait, if_pos (by simp), complete_eq]
  · refine happens_of_none (f := fun m => m.place id) rfl (place_none h (.inr ?_))
    rw [← Bool.not_eq_true, roomFor_iff, ← Bool.not_eq_false, testFirst_iff]
    exact hn
  · exact happens_of_none (f := fun m => m.place id) rfl (place_none h (.inl hw))
  · exact happens_of_none (f := fun m => m.start id) rfl (by simp [Mach.start, h, hw])
  · refine happens_of_some (f := fun m => m.start id) rfl ha ?_
    simp only [Mach.start, h]
    rw [if_pos (by simp [hp, hb, hw])]
    simp only [Mach.modRun, modWhere, beq_iff_eq]
  · obtain ⟨rest, hrel, hstat, hirqs, hnone, hsome⟩ := retired_position (retires s.m r)
    refine ⟨_, rest, happens_of_some (f := fun m => m.retire id) rfl ha (retire_some h (finished_iff.2 ho)), hrel, fun ⟨x, hx, hpend⟩ => ?_, hnone, hsome⟩
    rw [hstat, hirqs]
    exact (retires s.m r).late (lateCount_ne_zero hx hpend)
  · refine happens_of_none (f := fun m => m.retire id) rfl (retire_none h (Bool.eq_false_iff.2 fun e => ?_))
    obtain ⟨x, hx, hn⟩ := hx
    exact hn ((finished_iff.1 e).2.1 x hx)
  · obtain ⟨q, hq, hn⟩ := hq
    exact happens_of_some (f := fun m => m.emptyMaps t) rfl ha (emptyMaps_some hq hn hl)
  · exact happens_of_none (f := fun m => m.emptyMaps t) rfl (emptyMaps_landing hl)

/-- Settles O40: the events of streams, and the events of runs, one after the other. -/
theorem streamsAndRunsAdvance : Obligations.StreamsAndRunsAdvance := ⟨streamEvents, runEvents⟩

end Sys2Proof.Claims
end

section
/-! SUPPORT. Bundles read back (R43, R45, R46), the words of the encoding tables (R44, R84 to R98), and running addresses (R49, R168, R212):
the statements `Obligations.BundlesAreReadBack`, `Obligations.WordsOfTheEncodingTables` and `Obligations.RunningAddressIsFormedOrStepped`. -/

namespace Sys2Proof.Machine

/-! ### Signed offsets -/

/-- A signed offset added to an address, by integers (R129, R168). -/
theorem add_signExtend {w n : Nat} (a : BitVec n) (o : BitVec w) : a + o.signExtend n = BitVec.ofInt n (a.toNat + o.toInt) := by
  rw [BitVec.ofInt_add, BitVec.ofInt_natCast, BitVec.ofNat_toNat, BitVec.setWidth_eq]
  rfl

/-- A signed offset in units of 2^`k`. -/
theorem add_signExtend_shiftLeft {w n : Nat} (a : BitVec n) (o : BitVec w) (k : Nat) :
    a + (o.signExtend n <<< k) = BitVec.ofInt n (a.toNat + 2 ^ k * o.toInt) := by
  have hk : BitVec.ofInt n (2 ^ k) = BitVec.twoPow n k := by
    apply BitVec.eq_of_toNat_eq
    rw [show (2 : Int) ^ k = ((2 ^ k : Nat) : Int) by norm_cast, BitVec.ofInt_natCast, BitVec.toNat_ofNat, BitVec.toNat_twoPow]
  rw [BitVec.ofInt_add, BitVec.ofInt_mul, hk, BitVec.ofInt_natCast, BitVec.ofNat_toNat, BitVec.setWidth_eq, BitVec.mul_comm,
    BitVec.shiftLeft_eq_mul_twoPow]
  rfl

/-! ### Bundles -/

theorem decodeHeader_encodeHeader (h : Header) : decodeHeader (encodeHeader h) = .ok h := by
  obtain ⟨p, rep, stop, lits⟩ := h
  have hz : (encodeHeader ⟨p, rep, stop, lits⟩).extractLsb' 0 8 = 0 := Laws.exB
  have hl : (encodeHeader ⟨p, rep, stop, lits⟩).extractLsb' 8 5 = lits := (Laws.exT (by decide)).trans Laws.exB
  have hs : (encodeHeader ⟨p, rep, stop, lits⟩).getLsbD 13 = stop := by
    simp only [encodeHeader, BitVec.getLsbD_append]
    cases stop <;> rfl
  have hr : (encodeHeader ⟨p, rep, stop, lits⟩).extractLsb' 14 6 = rep :=
    (Laws.exT (by decide)).trans ((Laws.exT (by decide)).trans ((Laws.exT (by decide)).trans Laws.exB))
  have hp : (encodeHeader ⟨p, rep, stop, lits⟩).extractLsb' 20 12 = p :=
    (Laws.exT (by decide)).trans ((Laws.exT (by decide)).trans ((Laws.exT (by decide)).trans ((Laws.exT (by decide)).trans Laws.exS)))
  rw [decodeHeader, if_pos hz, hl, hs, hr, hp]

/-- A header whose eight low bits are not zero is no header (R43). -/
theorem decodeHeader_reserved {w : W32} (h : w.toNat % 256 ≠ 0) : decodeHeader w = .error .header :=
  if_neg (fun e => h (by simpa using congrArg BitVec.toNat e))

theorem decodeBundle_ok {w : W32} {h : Header} {rest : List W32} (hw : decodeHeader w = .ok h) (hlen : h.tailWords ≤ rest.length) :
    decodeBundle (w :: rest) = .ok { hdr := h, words := h.slots.zip rest, pool := (rest.drop h.slots.length).take h.lits.toNat } := by
  simp only [decodeBundle, hw, if_neg (Nat.not_lt.mpr hlen)]

theorem decodeBundle_short {w : W32} {h : Header} {rest : List W32} (hw : decodeHeader w = .ok h) (hlen : rest.length < h.tailWords) :
    decodeBundle (w :: rest) = .error .short := by
  simp only [decodeBundle, hw, if_pos hlen]

theorem wordsLE_bytesLE_append (w : W32) (r : List Byte) : wordsLE (bytesLE w ++ r) = w :: wordsLE r := by
  have h : w.extractLsb' 24 8 ++ w.extractLsb' 16 8 ++ w.extractLsb' 8 8 ++ w.extractLsb' 0 8 = w := by
    apply BitVec.eq_of_toNat_eq
    have hlt := w.isLt
    simp only [toNat_append_eq_add, BitVec.extractLsb'_toNat, Nat.shiftRight_eq_div_pow]
    omega
  simp only [bytesLE, List.cons_append, List.nil_append, wordsLE, h]

theorem wordsLE_flatMap_bytesLE : ∀ l : List W32, wordsLE (l.flatMap bytesLE) = l
  | [] => rfl
  | w :: l => by rw [List.flatMap_cons, wordsLE_bytesLE_append, wordsLE_flatMap_bytesLE l]

end Sys2Proof.Machine

namespace Sys2Proof.Claims

open Sys2Proof.Machine

/-- Settles O56: the words after a header are cut where the header's own lengths say. -/
theorem bundlesAreReadBack : Obligations.BundlesAreReadBack := by
  intro h ws pool more hws hpool
  have hh := decodeHeader_encodeHeader h
  have hzip : h.slots.zip (ws ++ pool ++ more) = h.slots.zip ws := by
    have := List.zip_append (r₁ := []) (r₂ := pool ++ more) hws.symm
    simpa using this
  refine ⟨?_, wordsLE_flatMap_bytesLE, fun w hw => ?_, fun hpos => decodeBundle_short hh ?_⟩
  · have hlen : h.tailWords ≤ (ws ++ pool ++ more).length := by
      simp only [Header.tailWords, List.length_append]
      omega
    rw [decodeBundle_ok hh hlen, hzip, List.append_assoc, ← hws, List.drop_left, ← hpool, List.take_left]
  · simp only [decodeBundle, decodeHeader_reserved hw]
  · have hn : (ws ++ pool).length = h.tailWords := by rw [List.length_append, hws, hpool, Header.tailWords]
    rw [List.length_drop, hn]
    exact Nat.sub_lt hpos Nat.one_pos

/-- Settles O57: each word by its decoder's evaluation. -/
theorem wordsOfTheEncodingTables : Obligations.WordsOfTheEncodingTables := by
  unfold Obligations.WordsOfTheEncodingTables
  and_intros <;> decide +kernel

/-! ### Running addresses -/

/-- The address that a stepped word forms from its operands, in its own units (R49, R168, R212). -/
theorem baseOf_eq {s : State} {i : Instr} {a : Int} (h : formedAddress s i = some a) : baseOf s.rg i = BitVec.ofInt 64 a := by
  have plain : ∀ r : W64, r = BitVec.ofInt 64 r.toNat := fun r => by
    rw [BitVec.ofInt_natCast, BitVec.ofNat_toNat, BitVec.setWidth_eq]
  cases i with
  | ld | st | ldm | stm | pfLg | redAddF32 | redMaxF32 | redMinF32 | redAddS32 | redMaxS32 | redMinS32 =>
    exact Option.some.inj h ▸ add_signExtend_shiftLeft _ _ 6
  | ldsS8 | ldsZ8 | stsZ8 | ldscB => exact Option.some.inj h ▸ add_signExtend _ _
  | ldsS16 | ldsZ16 | stsZ16 => exact Option.some.inj h ▸ add_signExtend_shiftLeft _ _ 1
  | ldsS32 | ldsZ32 | stsZ32 => exact Option.some.inj h ▸ add_signExtend_shiftLeft _ _ 2
  | ldsS64 | stsZ64 | waita => exact Option.some.inj h ▸ add_signExtend_shiftLeft _ _ 3
  | ldt | stt | aaddS64 | aminS64 | amaxS64 | aandZ64 | aorZ64 | axorZ64 | aswpZ64 | acasZ64 | stLgC | stLgK | waitany =>
    exact Option.some.inj h ▸ plain _
  | barWait | barArrive | barInit | barExp => exact Option.some.inj h ▸ add_signExtend_shiftLeft _ _ 4
  | ldsc | stsc => exact Option.some.inj h ▸ add_signExtend_shiftLeft _ _ 7
  | _ => cases h

/-- Settles O18: a fresh word forms its address, another adds its slot's stride to the address recorded. -/
theorem runningAddressIsFormedOrStepped : Obligations.RunningAddressIsFormedOrStepped := by
  intro s i a h
  refine ⟨fun hf => ?_, fun hf => ?_⟩
  · rw [State.wordAddr, State.runAddr, if_pos hf, baseOf_eq h]
  · rw [State.wordAddr, State.runAddr, if_neg (by simp [hf])]
    exact add_signExtend _ _

end Sys2Proof.Claims
end

section
/-! SUPPORT. Transfers, condition trees and loops (R57 to R62, R129 to R131): the statements `Obligations.TransfersAreTaken` and
`Obligations.BranchTreesAndLoops`. -/

namespace Sys2Proof.Machine

/-- A C word that neither mode forbids (R78, R84, R313), wherever repeats and delay issues allow it. -/
def modeFree (op : Nat) : Bool := !handlerOnly op 0 && !neverIn true op && !readOnly false op 0 && !readOnly true op 0

theorem State.checkC_of_plain {s : State} {op : Nat} (hrep : s.iss.hdr.rep = 0) (hdly : s.oc.ctl.dly = 0) (h : modeFree op = true) :
    s.checkC op 0 = none := by
  simp only [modeFree, Bool.and_eq_true, Bool.not_eq_true'] at h
  obtain ⟨⟨⟨hh, hn⟩, hr⟩, hr'⟩ := h
  have hnever : neverIn s.oc.trp.handler op = false := by cases s.oc.trp.handler <;> [rfl; exact hn]
  have hread : readOnly s.oc.trp.handler op 0 = false := by cases s.oc.trp.handler <;> assumption
  simp [State.checkC, hrep, hdly, hh, hnever, hread]

end Sys2Proof.Machine

namespace Sys2Proof.Claims

open Sys2Proof.Machine

/-- A steering word acts in a plain issue. -/
theorem guardC_steers {s : State} (h : plainIssue s) {op : Nat} (hop : modeFree op = true) {lits : Bool} (hl : lits = true) (k : Res) :
    s.guardC op 0 lits k = k :=
  State.guardC_acts hl (State.checkC_of_plain h.1 h.2 hop)

theorem target_eq_farBy (s : State) {w : Nat} (off : BitVec w) : s.target off = farBy s off.toInt := add_signExtend_shiftLeft _ _ 2

theorem take_eq_moved (s : State) (t : W64) : s.take t = moved s t false := by
  simp only [moved, Bool.or_false]
  rfl

theorem callDue_take_eq_moved (s : State) (t : W64) : (s.take t).callDue = moved s t true := by
  simp only [moved, Bool.or_true, State.callDue, State.modCtl, State.take, State.modC, State.mapM]
  exact congrArg (fun m => ({ s with m := m, iss := { s.iss with taken := true } } : State)) (Mach.modCtx_modCtx ..)

theorem multiple_of_four_iff (v : W64) : v.extractLsb' 0 2 ≠ 0 ↔ v.toNat % 4 ≠ 0 := by
  rw [ne_eq, ne_eq, not_iff_not, ← BitVec.toNat_inj, BitVec.extractLsb'_toNat]
  rfl

theorem jumpTo_aligned {s : State} {t : W64} (h : t.toNat % 4 = 0) (k : State → State) : s.jumpTo t k = .next (k (s.take t)) :=
  if_neg (fun e => (multiple_of_four_iff t).mp e h)

theorem jumpTo_misaligned {s : State} {t : W64} (h : t.toNat % 4 ≠ 0) (k : State → State) :
    s.jumpTo t k = .next (s.fail { code := 0x03, sub := 0, addr := t } s.iss.slot 0) :=
  if_pos ((multiple_of_four_iff t).mpr h)

/-- Settles O6: each transfer from the checks that let it act; a target in a register by its two low bits. -/
theorem transfersAreTaken : Obligations.TransfersAreTaken := by
  intro s j a h
  have acts : ∀ {op : Nat}, modeFree op = true → ∀ k : Res, s.guardC op 0 true k = k := fun hop k => guardC_steers h hop rfl k
  have taken : ∀ t, (.next (s.take t) : Res) = .next (moved s t false) := fun t => congrArg _ (take_eq_moved s t)
  have linked : ∀ t, (.next (s.take t).callDue : Res) = .next (moved s t true) := fun t => congrArg _ (callDue_take_eq_moved s t)
  refine ⟨?_, ?_, fun hr => ⟨?_, ?_⟩, fun hr => ?_, fun hr => ⟨?_, ?_⟩, fun hr => ?_⟩
  · rw [← target_eq_farBy]
    exact (acts rfl _).trans (taken _)
  · rw [← target_eq_farBy]
    exact (acts rfl _).trans (linked _)
  · exact (acts rfl _).trans ((jumpTo_aligned hr id).trans (taken _))
  · exact (acts rfl _).trans ((jumpTo_aligned hr State.callDue).trans (linked _))
  · exact (acts rfl _).trans ((jumpTo_aligned hr id).trans (taken _))
  · exact (acts rfl _).trans (jumpTo_misaligned hr id)
  · exact (acts rfl _).trans (jumpTo_misaligned hr State.callDue)
  · exact (acts rfl _).trans (jumpTo_misaligned hr id)

/-! ### Condition trees (R60) -/

/-- A byte of the test word: its low four bits name the flag, its top bit is the sense. -/
theorem test_iff (s : State) (k : BitVec 5) (i : Nat) :
    (s.regs.flag (((s.lit k.toNat).extractLsb' (8 * i) 8).extractLsb' 0 4).toNat != ((s.lit k.toNat).extractLsb' (8 * i) 8).getLsbD 7) = true ↔
      testHolds s k i := by
  have hf : (((s.lit k.toNat).extractLsb' (8 * i) 8).extractLsb' 0 4).toNat = (s.lit k.toNat).toNat / 2 ^ (8 * i) % 16 := by
    rw [BitVec.extractLsb'_toNat, BitVec.extractLsb'_toNat, Nat.shiftRight_eq_div_pow, Nat.shiftRight_eq_div_pow]
    omega
  have hb : ((s.lit k.toNat).extractLsb' (8 * i) 8).getLsbD 7 = (s.lit k.toNat).getLsbD (8 * i + 7) := by
    rw [BitVec.getLsbD_extractLsb']
    rfl
  rw [hf, hb, bne_iff_ne, testHolds]

theorem treeLeaf_eq {s : State} {n : BitVec 2} {k : BitVec 5} {leaf : Nat} (h : selectsLeaf s n k leaf) :
    s.treeLeaf n.toNat k.toNat = leaf := by
  have hn : ∀ i, ¬ testHolds s k i → (!(s.regs.flag (((s.lit k.toNat).extractLsb' (8 * i) 8).extractLsb' 0 4).toNat !=
      ((s.lit k.toNat).extractLsb' (8 * i) 8).getLsbD 7)) = true := fun i hi => by
    rw [Bool.not_eq_true', Bool.eq_false_iff]
    exact fun e => hi ((test_iff s k i).mp e)
  obtain ⟨i, hi, rfl, ht, hlt⟩ | ⟨rfl, hnone⟩ := h
  · have hfind := List.find?_range_eq_some.mpr ⟨(test_iff s k i).mpr ht, List.mem_range.mpr (Nat.lt_succ_of_le hi), fun j hj => hn j (hlt j hj)⟩
    simp only [State.treeLeaf, hfind]
  · have hfind := List.find?_range_eq_none.mpr fun j hj => hn j (hnone j (Nat.le_of_lt_succ hj))
    simp only [State.treeLeaf, hfind]

theorem exec_br {s : State} {n : BitVec 2} {k : BitVec 5} {leaf : Nat} (h : plainIssue s) (hl : holdsLits s k (n.toNat + 3))
    (ht : treeOk s.lit k.toNat n.toNat = true) (hs : selectsLeaf s n k leaf) :
    exec (.br n k) s = if (s.lit (k.toNat + leaf)).extractLsb' 0 2 = 1
      then .next (({ s with iss := { s.iss with leaf := some leaf } } : State).take (s.target ((s.lit (k.toNat + leaf)).extractLsb' 2 30)))
      else .next { s with iss := { s.iss with leaf := some leaf } } := by
  have hlits : (decide (k.toNat + n.toNat + 3 ≤ s.iss.hdr.lits.toNat) && treeOk s.lit k.toNat n.toNat) = true := by
    rw [ht, Bool.and_true]
    exact decide_eq_true hl
  refine (guardC_steers h rfl hlits _).trans ?_
  simp only [treeLeaf_eq hs]
  rfl

theorem conditionTreeSelectsItsLeaf : ConditionTreeSelectsItsLeaf := by
  intro s n k leaf h hl ht hs
  have hmode : (s.lit (k.toNat + leaf)).extractLsb' 0 2 = 1 ↔ (s.lit (k.toNat + leaf)).toNat % 4 = 1 := by
    rw [← BitVec.toNat_inj, BitVec.extractLsb'_toNat]
    rfl
  refine ⟨fun hw => ?_, fun hw => ?_⟩
  · rw [exec_br h hl ht hs, if_pos (hmode.mpr hw), take_eq_moved, target_eq_farBy, extractLsb'_eq_ofNat]
    rfl
  · rw [exec_br h hl ht hs, if_neg (fun e => hw (hmode.mp e))]

/-! ### Loops (R62) -/

theorem openLoop_wrong_level {s : State} {v : BitVec 3} (h : v.toNat ≠ s.oc.ctl.nlev) (b : BitVec 8) : s.openLoop v b = .error (s.ill 4) :=
  if_pos h

theorem enterLoop_refused {s : State} {v : BitVec 3} {b : BitVec 8} (h : s.openLoop v b = .error (s.ill 4)) (cnt : W32) :
    s.enterLoop v cnt b = .next (refusedAt s 4) := by
  simp only [State.enterLoop, h]
  rfl

theorem enterLoop_opens {s : State} {v : BitVec 3} {b : BitVec 8} {last after : W64} (h : s.openLoop v b = .ok (last, after)) {cnt : W32}
    (hc : cnt ≠ 0) : s.enterLoop v cnt b = .next (loopOpened (headersRead s b) v cnt b last) := by
  have hb : b.zeroExtend 9 + 1 = BitVec.ofNat 9 (b.toNat + 1) := by
    apply BitVec.eq_of_toNat_eq
    simp
  simp only [State.enterLoop, h, if_neg hc, hb]
  rfl

theorem enterLoop_skips {s : State} {v : BitVec 3} {b : BitVec 8} {last after : W64} (h : s.openLoop v b = .ok (last, after)) :
    s.enterLoop v 0 b = .next { headersRead s b with iss := { s.iss with skip := some (last, after) } } := by
  simp only [State.enterLoop, h]
  rfl

/-- R62's nesting of the new body, after `after`, in the innermost active one that ends at `outer`. -/
def liesOutside (s : State) (after outer : W64) : Prop :=
  outer.toNat < after.toNat ∨ s.iss.next.toNat < (rget (s.oc.ctl.nlev - 1) s.oc.ctl.body).toNat

/-- R62's bound: the bundles of the outermost active body, with those of the new one, exceed 256. -/
def exceedsBuffer (s : State) (b : BitVec 8) : Prop :=
  256 < (rget 0 s.oc.ctl.blen).toNat ∨ (1 < s.oc.ctl.nlev ∧ ∃ xs ys,
    s.bodyList ((rget 0 s.oc.ctl.blen).toNat - 1) (rget 0 s.oc.ctl.body) = .ok xs ∧ s.bodyList b.toNat s.iss.next = .ok ys ∧
    256 < xs.length + (ys.filter (fun a => !xs.contains a)).length)

theorem tooLong_of_exceedsBuffer {s : State} {b : BitVec 8} (h : exceedsBuffer s b) : s.tooLong s.oc.ctl b = .ok true := by
  unfold State.tooLong
  obtain hlen | ⟨hlev, xs, ys, hx, hy, hlen⟩ := h
  · exact if_pos hlen
  · split
    · rfl
    · rw [if_neg (Nat.not_le.mpr hlev)]
      simp only [hx, hy, List.length_append, hlen, decide_true]

theorem openLoop_refused {s : State} {v : BitVec 3} {b : BitVec 8} {last after lo outer : W64} (hv : v.toNat = s.oc.ctl.nlev)
    (h0 : 0 < s.oc.ctl.nlev) (hw : s.walkBody b.toNat s.iss.next = .ok (last, after)) (he : s.bodyEnd s.oc.ctl = .ok (lo, outer))
    (h : liesOutside s after outer ∨ exceedsBuffer s b) : s.openLoop v b = .error (s.ill 4) := by
  simp only [State.openLoop, hv, ne_eq, not_true_eq_false, if_false, hw, Nat.ne_of_gt h0, he]
  split
  · next hin =>
    have hlong := h.resolve_left (fun ho => by unfold liesOutside at ho; omega)
    rw [tooLong_of_exceedsBuffer hlong]
  · rfl

theorem loopsOpenTheirLevel : LoopsOpenTheirLevel := by
  intro s v g c b last after h
  have acts : ∀ {op : Nat}, modeFree op = true → ∀ k : Res, s.guardC op 0 true k = k := fun hop k => guardC_steers h hop rfl k
  have refused : s.openLoop v b = .error (s.ill 4) → exec (.loop v g b) s = .next (refusedAt s 4) ∧ exec (.loopi v c b) s = .next (refusedAt s 4) :=
    fun e => ⟨(acts rfl _).trans (enterLoop_refused e _), (acts rfl _).trans (enterLoop_refused e _)⟩
  refine ⟨fun ho => ⟨fun hc => ?_, fun hc => ?_, ?_⟩, fun hv => refused (openLoop_wrong_level hv b), fun lo outer hv h0 hw he => ?_⟩
  · have hn : BitVec.ofNat 32 ((s.rg g).toNat % 2 ^ 32) ≠ 0 := fun e => hc (by simpa using congrArg BitVec.toNat e)
    refine (acts rfl _).trans ?_
    rw [extractLsb'_low]
    exact enterLoop_opens ho hn
  · refine (acts rfl _).trans ?_
    rw [extractLsb'_low, hc]
    exact enterLoop_skips ho
  · have hcount : c.zeroExtend 32 + 1 = BitVec.ofNat 32 (c.toNat + 1) := by
      apply BitVec.eq_of_toNat_eq
      simp
    have hn : BitVec.ofNat 32 (c.toNat + 1) ≠ 0 := fun e => by
      have := congrArg BitVec.toNat e
      simp at this
      omega
    refine (acts rfl _).trans ?_
    rw [hcount]
    exact enterLoop_opens ho hn
  · have closed : liesOutside s after outer ∨ exceedsBuffer s b → s.openLoop v b = .error (s.ill 4) := openLoop_refused hv h0 hw he
    refine ⟨fun hx => refused (closed hx), fun ho => not_or.mp fun hx => ?_⟩
    exact absurd ((closed hx).symm.trans ho) (by simp)

/-- Settles O7: trees by the first test that holds, loops by the conditions of their nesting. -/
theorem branchTreesAndLoops : Obligations.BranchTreesAndLoops := ⟨conditionTreeSelectsItsLeaf, loopsOpenTheirLevel⟩

end Sys2Proof.Claims
end

section
/-! SUPPORT. Where a word of the C slot may not stand (R52, R58, R78, R84, R313, R325): the statement
`Obligations.HandlerWordsAndMisplacedWordsAreRefused`. -/

namespace Sys2Proof.Machine

theorem State.guardC_fails {s : State} {op n : Nat} {f : Fail} (hc : s.checkC op n = some f) (k : Res) : s.guardC op n true k = s.failed f := by
  simp [State.guardC, hc]

theorem State.checkC_in_repeat {s : State} {op : Nat} (hr : s.iss.hdr.rep ≠ 0) (hop : noRepeat op = true) (n : Nat) :
    s.checkC op n = some (s.ill 4) := if_pos ⟨hr, hop⟩

theorem State.checkC_in_delay {s : State} {op : Nat} (hr : s.iss.hdr.rep = 0) (hd : s.oc.ctl.dly ≠ 0) (hop : noDelay op = true) (n : Nat) :
    s.checkC op n = some (s.ill 4) := (if_neg (fun e => e.1 hr)).trans (if_pos ⟨hd, hop⟩)

theorem State.checkC_in_run {s : State} {op n : Nat} (hr : s.iss.hdr.rep = 0) (hd : s.oc.ctl.dly = 0) (hh : s.oc.trp.handler = false)
    (hop : handlerOnly op n = true) : s.checkC op n = some s.priv := by
  simp [State.checkC, hr, hd, hh, hop]

theorem State.checkC_in_handler {s : State} {op n : Nat} (hr : s.iss.hdr.rep = 0) (hh : s.oc.trp.handler = true) (hd : noDelay op = false)
    (hop : neverIn true op = true) : s.checkC op n = some (s.ill 4) := by
  simp [State.checkC, hr, hd, hh, hop]

/-- The word `i` acts only through the check of a C word of this OP and register number, its literals being good (R99). -/
def State.Guards (s : State) (i : Instr) (op n : Nat) : Prop := ∃ (lits : Bool) (k : Res), lits = true ∧ exec i s = s.guardC op n lits k

end Sys2Proof.Machine

namespace Sys2Proof.Claims

open Sys2Proof.Machine

/-- What a check of a C word refuses, the word refuses. -/
theorem exec_of_checkC {s : State} {i : Instr} {op n : Nat} {f : Fail} (h : s.Guards i op n) (hc : s.checkC op n = some f) :
    exec i s = .next (s.fail f.1 s.iss.slot f.2) := by
  obtain ⟨_, k, rfl, hk⟩ := h
  rw [hk, State.guardC_fails hc]
  rfl

/-- The system registers that run code may not name (R77). -/
theorem handlerOnly_of_hidden {op n : Nat} (hop : op = 0x40 ∨ op = 0x41) (h : hiddenNumbers.contains n = true) : handlerOnly op n = true := by
  have hn : n = 0x12 ∨ 0x40 ≤ n := by
    simp only [hiddenNumbers, List.contains_iff_mem, List.mem_cons, List.not_mem_nil, or_false] at h
    omega
  obtain rfl | rfl := hop <;> simpa [handlerOnly] using hn

theorem guards_of_handlerWord {i : Instr} (h : handlerWord i = true) (s : State) : ∃ op n, s.Guards i op n ∧ handlerOnly op n = true := by
  cases i with
  | tret => exact ⟨0x43, 0, ⟨_, _, rfl, rfl⟩, rfl⟩
  | csave _ => exact ⟨0x44, 0, ⟨_, _, rfl, rfl⟩, rfl⟩
  | crest _ => exact ⟨0x45, 0, ⟨_, _, rfl, rfl⟩, rfl⟩
  | tlbinv _ => exact ⟨0x48, 0, ⟨_, _, rfl, rfl⟩, rfl⟩
  | tlbinva => exact ⟨0x49, 0, ⟨_, _, rfl, rfl⟩, rfl⟩
  | clkreq _ => exact ⟨0x4B, 0, ⟨_, _, rfl, rfl⟩, rfl⟩
  | sgjoin _ => exact ⟨0x4C, 0, ⟨_, _, rfl, rfl⟩, rfl⟩
  | sgleave => exact ⟨0x4D, 0, ⟨_, _, rfl, rfl⟩, rfl⟩
  | selftest _ => exact ⟨0x4E, 0, ⟨_, _, rfl, rfl⟩, rfl⟩
  | irq _ => exact ⟨0x4F, 0, ⟨_, _, rfl, rfl⟩, rfl⟩
  | pwrgive _ => exact ⟨0x51, 0, ⟨_, _, rfl, rfl⟩, rfl⟩
  | pwrask _ => exact ⟨0x52, 0, ⟨_, _, rfl, rfl⟩, rfl⟩
  | mfs g n => exact ⟨0x40, n.toNat, ⟨_, _, rfl, rfl⟩, handlerOnly_of_hidden (.inl rfl) h⟩
  | mts g n => exact ⟨0x41, n.toNat, ⟨_, _, rfl, rfl⟩, handlerOnly_of_hidden (.inr rfl) h⟩
  | enrd d c =>
    have hc : c.toNat ≠ 0 := fun e => by simp [handlerWord, BitVec.eq_of_toNat_eq (y := 0#2) e] at h
    exact ⟨0x4A, c.toNat, ⟨_, _, rfl, rfl⟩, by simpa [handlerOnly] using hc⟩
  | _ => cases h

theorem handlerWordsTrapInRunCode : HandlerWordsTrapInRunCode := by
  intro s i hi hh hr hd
  obtain ⟨op, n, hg, hop⟩ := guards_of_handlerWord hi s
  exact exec_of_checkC hg (State.checkC_in_run hr hd hh hop)

theorem guards_br {s : State} {n : BitVec 2} {k : BitVec 5} (h : literalsHeld s (.br n k)) : s.Guards (.br n k) 0x04 0 := by
  obtain ⟨hl, ht⟩ := h
  have hlits : (decide (k.toNat + n.toNat + 3 ≤ s.iss.hdr.lits.toNat) && treeOk s.lit k.toNat n.toNat) = true := by
    rw [ht, Bool.and_true]
    exact decide_eq_true hl
  exact ⟨_, _, hlits, rfl⟩

theorem guards_of_onceOnly {s : State} {i : Instr} (hl : literalsHeld s i) (h : onceOnly i = true) :
    ∃ op, s.Guards i op 0 ∧ noRepeat op = true ∧ (notInDelay i = true → noDelay op = true) := by
  cases i with
  | tret => exact ⟨0x43, ⟨_, _, rfl, rfl⟩, rfl, fun _ => rfl⟩
  | csave _ => exact ⟨0x44, ⟨_, _, rfl, rfl⟩, rfl, nofun⟩
  | crest _ => exact ⟨0x45, ⟨_, _, rfl, rfl⟩, rfl, nofun⟩
  | ckptg _ => exact ⟨0x46, ⟨_, _, rfl, rfl⟩, rfl, nofun⟩
  | replayg _ => exact ⟨0x47, ⟨_, _, rfl, rfl⟩, rfl, nofun⟩
  | selftest _ => exact ⟨0x4E, ⟨_, _, rfl, rfl⟩, rfl, nofun⟩
  | tbar => exact ⟨0x1A, ⟨_, _, rfl, rfl⟩, rfl, nofun⟩
  | tail _ _ => exact ⟨0x1C, ⟨_, _, rfl, rfl⟩, rfl, nofun⟩
  | endCtx => exact ⟨0x1E, ⟨_, _, rfl, rfl⟩, rfl, nofun⟩
  | jmp _ => exact ⟨0x01, ⟨_, _, rfl, rfl⟩, rfl, fun _ => rfl⟩
  | call _ => exact ⟨0x02, ⟨_, _, rfl, rfl⟩, rfl, fun _ => rfl⟩
  | jmpr _ => exact ⟨0x03, ⟨_, _, rfl, rfl⟩, rfl, fun _ => rfl⟩
  | br _ _ => exact ⟨0x04, guards_br hl, rfl, fun _ => rfl⟩
  | callr _ => exact ⟨0x05, ⟨_, _, rfl, rfl⟩, rfl, fun _ => rfl⟩
  | ret => exact ⟨0x06, ⟨_, _, rfl, rfl⟩, rfl, fun _ => rfl⟩
  | loop _ _ _ => exact ⟨0x10, ⟨_, _, rfl, rfl⟩, rfl, fun _ => rfl⟩
  | loopi _ _ _ => exact ⟨0x11, ⟨_, _, rfl, rfl⟩, rfl, fun _ => rfl⟩
  | _ => cases h

theorem onceOnly_of_notInDelay {i : Instr} (h : notInDelay i = true) : onceOnly i = true := by
  cases i with
  | tret | jmp | call | jmpr | br | callr | ret | loop | loopi => rfl
  | _ => cases h

theorem misplacedControlWordsAreRefused : MisplacedControlWordsAreRefused := by
  intro s i hl
  refine ⟨fun hr hi => ?_, fun hr hd hi => ?_, fun hr hh hi => ?_⟩
  · obtain ⟨op, hg, hop, -⟩ := guards_of_onceOnly hl hi
    exact exec_of_checkC hg (State.checkC_in_repeat hr hop 0)
  · obtain ⟨op, hg, -, hop⟩ := guards_of_onceOnly hl (onceOnly_of_notInDelay hi)
    exact exec_of_checkC hg (State.checkC_in_delay hr hd (hop hi) 0)
  · obtain rfl | ⟨a, b, rfl⟩ | rfl := hi
    · exact exec_of_checkC ⟨_, _, rfl, rfl⟩ (State.checkC_in_handler (op := 0x1A) hr hh rfl rfl)
    · exact exec_of_checkC ⟨_, _, rfl, rfl⟩ (State.checkC_in_handler (op := 0x1C) hr hh rfl rfl)
    · exact exec_of_checkC ⟨_, _, rfl, rfl⟩ (State.checkC_in_handler (op := 0x1E) hr hh rfl rfl)

/-- Settles O10: each word by the check of its OP that refuses it. -/
theorem handlerWordsAndMisplacedWordsAreRefused : Obligations.HandlerWordsAndMisplacedWordsAreRefused :=
  ⟨handlerWordsTrapInRunCode, misplacedControlWordsAreRefused⟩

end Sys2Proof.Claims
end

section
/-! SUPPORT. Words that enter a queue: one rule for each operation on the issuing context and on the machine, up to the contexts of the
machine, which `After` gives by reading them (R67, R74, R133, R145, R233, R271). -/

namespace Sys2Proof.Machine

theorem State.guard_acts {s : State} {i : Instr} (h : Claims.accepts s i) (k : Res) : s.guard i k = k := by
  obtain ⟨hl, hh, hv⟩ := h
  simp [State.guard, hl, hh, hv]

/-- A word without literals that names a resource which its run does not hold (R82). -/
theorem State.guard_not_held {s : State} {i : Instr} (hl : litsOk s.lit s.iss.hdr.lits.toNat i = true) (hh : heldBy s.place s.lit i = false)
    (k : Res) : s.guard i k = .next (Claims.refusedAt s 4) := by
  simp only [State.guard, hl, hh, true_or, if_true, Bool.true_eq_false, if_false]
  rfl

/-- A word without literals and resources whose operands check 4 refuses. -/
theorem State.guard_bad_values {s : State} {i : Instr} (hl : litsOk s.lit s.iss.hdr.lits.toNat i = true) (hv : s.valuesOk i = false)
    (k : Res) : s.guard i k = .next (Claims.refusedAt s 4) := by
  simp only [State.guard, hl, hv, or_true, if_true, Bool.true_eq_false, if_false]
  rfl

theorem State.guard_bad_literals {s : State} {i : Instr} (hl : litsOk s.lit s.iss.hdr.lits.toNat i = false) (k : Res) :
    s.guard i k = .next (Claims.refusedAt s 3) := by
  simp only [State.guard, hl, if_true]
  rfl

end Sys2Proof.Machine

namespace Sys2Proof.Claims

open Sys2Proof.Machine

/-! ### A local access (R145) -/

theorem local_inside {s : State} {sp : Space} {a : W64} {n al : Nat} (h : inside s sp a n al) :
    s.old.local_ s.cx sp a n al = .ok (place s sp a) := by
  obtain ⟨hw, ha⟩ := h
  simp [Mach.local_, inWindow, hw, ha, place]

theorem local_outside {s : State} {sp : Space} {a : W64} {n : Nat} (h : (s.old.window s.cx sp).2 < a.toNat + n) (al : Nat) :
    s.old.local_ s.cx sp a n al = .error { code := 0x11, sub := 1, addr := a } := by
  simp [Mach.local_, inWindow, Nat.not_le.mpr h]

theorem local_misaligned {s : State} {sp : Space} {a : W64} {n al : Nat} (hw : a.toNat + n ≤ (s.old.window s.cx sp).2) (ha : a.toNat % al ≠ 0) :
    s.old.local_ s.cx sp a n al = .error { code := 0x03, sub := 0, addr := a } := by
  simp [Mach.local_, inWindow, hw, ha]

/-! ### What a word leaves of its context -/

theorem After.cx_eq {s t : State} {c : Ctx} {m : Mach} (h : After s t c m) : t.cx = s.cx := by
  rw [h.2.2]
  rfl

theorem After.modC {s t : State} {c : Ctx} {m : Mach} (h : After s t c m) (f : Ctx → Ctx) : After s (t.modC f) (f c) m := by
  have hx := h.cx_eq
  obtain ⟨hc, ho, ht⟩ := h
  refine ⟨?_, fun y hy => ?_, ?_⟩
  · rw [State.nc, State.modC_cx, State.modC_m, Mach.ctx_modCtx_same]
    exact congrArg f hc
  · rw [State.modC_m, Mach.ctx_modCtx_other (hx ▸ hy), ho y hy]
  · obtain ⟨l, rfl⟩ : ∃ l, t = { s with m := { m with ctxs := l } } := ⟨_, ht⟩
    rfl

theorem After.modR {s t : State} {c : Ctx} {m : Mach} (h : After s t c m) (f : Regs → Regs) :
    After s (t.modR f) { c with regs := f c.regs } m := h.modC _

/-- An update of the machine that neither reads nor changes its contexts. -/
def Mach.ApartFromCtxs (g : Mach → Mach) : Prop := ∀ (m : Mach) (l : KMap Ctx), g { m with ctxs := l } = { g m with ctxs := l }

theorem After.mapM {s t : State} {c : Ctx} {m : Mach} (h : After s t c m) {g : Mach → Mach} (hg : Mach.ApartFromCtxs g) :
    After s (t.mapM g) c (g m) := by
  obtain ⟨hc, ho, ht⟩ := h
  obtain ⟨l, rfl⟩ : ∃ l, t = { s with m := { m with ctxs := l } } := ⟨_, ht⟩
  have hk : (g { m with ctxs := l }).ctxs = l := by rw [hg]
  have hx : ∀ y, (g { m with ctxs := l }).ctx y = ({ m with ctxs := l } : Mach).ctx y := fun y => by rw [Mach.ctx, Mach.ctx, hk]
  refine ⟨(hx _).trans hc, fun y hy => (hx y).trans (ho y hy), ?_⟩
  show ({ s with m := g { m with ctxs := l } } : State) = { s with m := { g m with ctxs := (g { m with ctxs := l }).ctxs } }
  rw [hk, hg]

/-- What a word leaves after another update of the issuing context. -/
theorem After.of_modC {s t : State} {f : Ctx → Ctx} {c : Ctx} {m n : Mach} (h : After (s.modC f) t c m)
    (hn : ∀ l, { n with ctxs := l } = { m with ctxs := l }) : After s t c n := by
  obtain ⟨hc, ho, ht⟩ := h
  refine ⟨hc, fun y hy => (ho y hy).trans (Mach.ctx_modCtx_other hy _ _), ?_⟩
  rw [hn]
  exact ht

theorem record_eq_withToken (s : State) (id : Nat) (r : Regs) :
    withToken s id r = match s.ordLit with
      | some w => r.record (ordOut w) id
      | none => r := by
  unfold withToken
  cases s.ordLit <;> rfl

/-- A fresh operation is in flight, and the token of the word's `ord` records it (R74, R133). -/
theorem operation_after (s : State) : After s s.operation.2 { s.nc with regs := withToken s s.m.nextId s.nc.regs } (newOp s) := by
  have h0 : After s ({ s with m := newOp s } : State) s.nc (newOp s) := ⟨rfl, fun _ _ => rfl, rfl⟩
  rw [record_eq_withToken]
  show After s (({ s with m := newOp s } : State).produce s.m.nextId) _ _
  rw [State.produce, show ({ s with m := newOp s } : State).ordLit = s.ordLit from rfl]
  cases s.ordLit with
  | none => exact h0
  | some w => exact h0.modR _

end Sys2Proof.Claims
end

section
/-! SUPPORT. Shape registers, map operations, token registers and link pairs (R66, R267, R271, R272, R281 to R284): the statement
`Obligations.ShapesMapsTokensAndLinks`. -/

namespace Sys2Proof.Machine

/-! ### A word pushed to a link pair -/

theorem Core.link_modLink_same (c : Core) (k : Nat) (f : Link → Link) : (c.modLink k f).link k = f (c.link k) := by
  simp [Core.modLink, Core.link, kmod]

/-- A push that no check refuses appends a word; the pair stays bound as it was (R294). -/
theorem Mach.pushLink_bind {m n : Mach} {x no : Nat} {here : W64} {k : Nat} {w : W64} (h : m.pushLink x no here k w = .ok n) :
    ((n.core (coreOf x)).link k).bind = ((m.core (coreOf x)).link k).bind := by
  have added : ∀ f : Link → Link, (∀ l, (f l).bind = l.bind) →
      (((m.modCore (coreOf x) (fun q => q.modLink k f)).core (coreOf x)).link k).bind = ((m.core (coreOf x)).link k).bind := fun f hf => by
    rw [Mach.core_modCore_same, Core.link_modLink_same, hf]
  simp only [Mach.pushLink] at h
  split at h
  · exact Except.ok.inj h ▸ added _ fun _ => rfl
  split at h
  · split at h
    · cases h
    · exact Except.ok.inj h ▸ added _ fun _ => rfl
  split at h
  · split at h
    · split at h
      · exact Except.ok.inj h ▸ added _ fun _ => rfl
      · cases h
    · cases h
  · exact Except.ok.inj h ▸ added _ fun _ => rfl

/-- On a pair whose words are not requests any word may be pushed (R294). -/
theorem Mach.pushLink_of_mode_zero {m : Mach} {x k : Nat} (h : linkMode ((m.core (coreOf x)).link k).bind = 0) (no : Nat) (here w : W64) :
    ∃ n, m.pushLink x no here k w = .ok n := ⟨_, if_pos h⟩

theorem Mach.pushQueued_bind (m : Mach) (x k : Nat) :
    (((m.pushQueued x k).core (coreOf x)).link k).bind = ((m.core (coreOf x)).link k).bind := by
  refine foldl_keeps (fun n : Mach => ((n.core (coreOf x)).link k).bind) (fun n o => ?_) _ m
  split
  · next h => exact Mach.pushLink_bind h
  · rfl

/-- With no `lnmsg` queued for the pair the trial push begins at the machine as it is. -/
theorem Mach.pushQueued_none {m : Mach} {x : Nat} {c : BitVec 3} (h : ∀ o ∈ (m.ctx x).xq, ∀ b, o.ins ≠ .lnmsg c b) :
    m.pushQueued x c.toNat = m := by
  have hnil : ((m.ctx x).xq.filter (fun o => match o.ins with
      | .lnmsg n _ => n.toNat == c.toNat
      | _ => false)) = [] := by
    rw [List.filter_eq_nil_iff]
    intro o ho
    split
    · next n b hi =>
      intro he
      exact h o ho b (hi.trans (by rw [BitVec.eq_of_toNat_eq (beq_iff_eq.mp he)]))
    · nofun
  exact congrArg (fun l => List.foldl _ m l) hnil

end Sys2Proof.Machine

namespace Sys2Proof.Claims

open Sys2Proof.Machine

/-! ### Shape registers -/

theorem putShape_next (s : State) (k : BitVec 4) (v : W64) : s.putShape k v = .next { s with m := s.m.setCtx s.cx { s.nc with
    replay := s.nc.replay ++ [{ kind := 2, reg := BitVec.ofNat 8 k.toNat, byte := 0, k := 3, data := BitVec.ofNat 128 v.toNat, src := none }] } } := by
  rw [BitVec.ofNat_toNat, BitVec.ofNat_toNat]
  rfl

theorem shapeWritesAreExposed : ShapeWritesAreExposed := by
  intro s k a l
  have hlits : litsOk s.lit s.iss.hdr.lits.toNat (.lish k l) = true ↔ holdsLits s l 2 := decide_eq_true_iff
  refine ⟨putShape_next s k _, ?_, fun h => ?_, fun h => State.guard_bad_literals (Bool.eq_false_iff.mpr fun e => h (hlits.mp e)) _⟩
  · have hv : BitVec.ofNat 64 ((rget k.toNat s.regs.sh).toNat + (s.rg a).toNat) = rget k.toNat s.regs.sh + s.rg a := by
      rw [BitVec.ofNat_add, BitVec.ofNat_toNat, BitVec.ofNat_toNat, BitVec.setWidth_eq, BitVec.setWidth_eq]
    rw [shapes, hv]
    exact putShape_next s k _
  · have hv : s.lit2 l.toNat = BitVec.ofNat 64 ((s.lit (l.toNat + 1)).toNat * 2 ^ 32 + (s.lit l.toNat).toNat) := by
      rw [← toNat_append_eq_add, BitVec.ofNat_toNat, BitVec.setWidth_eq]
      rfl
    rw [shapes, ← hv]
    exact (State.guard_acts ⟨hlits.mpr h, rfl, rfl⟩ _).trans (putShape_next s k _)

/-! ### Words of the X slot that wait in their queue -/

theorem xIssues_of_xop {i : Instr} {s : State} {tok : Nat} {words : List W64} {reads : List (Nat × Nat)} {after : List Nat}
    (h : exec i s = s.xop i tok words reads after) : xIssues i s s.m tok (xOpOf s i words reads after) :=
  ⟨_, h, After.modC (s := s) (t := { s with m := newOp s }) (c := s.nc) (m := newOp s) ⟨rfl, fun _ _ => rfl, rfl⟩ _⟩

/-- An image or an entry that a map operation names: its window, its alignment, else the operation waits (R281, R282). -/
theorem exec_located {s : State} {i : Instr} {a : BitVec 6} {t : BitVec 1} {n : Nat} {reads : Nat → List (Nat × Nat)}
    (h : exec i s = match s.old.local_ s.cx (tailSpace t) (s.rg a) n 32 with
      | .error c => s.raise c
      | .ok loc => s.mapOp i t [BitVec.ofNat 64 loc] (reads loc)) :
    (inside s (tailPad t) (s.rg a) n 32 → xIssues i s s.m 0 (xOpOf s i [BitVec.ofNat 64 (place s (tailPad t) (s.rg a))]
      (reads (place s (tailPad t) (s.rg a))) (tailLocals s t))) ∧
    ((s.old.window s.cx (tailPad t)).2 < (s.rg a).toNat + n → trapsAt s i 0x11 1 (s.rg a)) ∧
    ((s.rg a).toNat + n ≤ (s.old.window s.cx (tailPad t)).2 → (s.rg a).toNat % 32 ≠ 0 → trapsAt s i 0x03 0 (s.rg a)) := by
  have hpad : tailSpace t = tailPad t := rfl
  rw [hpad] at h
  refine ⟨fun hin => ?_, fun hout => ?_, fun hw hal => ?_⟩
  · rw [local_inside hin] at h
    exact xIssues_of_xop h
  · rw [local_outside hout] at h
    exact h
  · rw [local_misaligned hw hal] at h
    exact h

/-! ### Link pairs -/

theorem holdsLink_iff {s : State} {c : BitVec 3} : s.holdsLink c = true ↔ bound s c := by simp [State.holdsLink, bound]

theorem exec_lnbind {s : State} {c : BitVec 3} {a : BitVec 6} (hb : bindOk (s.rg a) = true) :
    exec (.lnbind c a) s = match ((s.old.core (coreOf s.cx)).link c.toNat).holder with
      | some r => if r = s.oc.rid then .next (withLink s c (boundTo s (linkNow s c) (s.rg a)))
        else s.raise (linkTrap c.toNat s.iss.addr)
      | none => .next (withLink s c (boundTo s (linkNow s c) (s.rg a))) :=
  (State.guard_acts (i := .lnbind c a) ⟨rfl, rfl, hb⟩ _).trans rfl

theorem exec_lnfree (s : State) (c : BitVec 3) :
    exec (.lnfree c) s = if s.holdsLink c then .next (withLink s c (freed (linkNow s c))) else .next s := rfl

theorem exec_lnmsg (s : State) (c : BitVec 3) (a : BitVec 6) :
    exec (.lnmsg c a) s = if s.holdsLink c then
        match (s.m.pushQueued s.cx c.toNat).pushLink s.cx s.no s.iss.addr c.toNat (s.rg a) with
        | .error e => s.raise e
        | .ok _ => s.xop (.lnmsg c a) 0 [s.rg a] [] []
      else s.raise (linkTrap c.toNat s.iss.addr) := rfl

/-- The trial push of an `lnmsg` passes where the pair's words are not requests (R294). -/
theorem trial_of_mode_zero {s : State} {c : BitVec 3} (h : (linkNow s c).bind.toNat / 256 % 4 = 0) (w : W64) :
    ∃ m, (s.m.pushQueued s.cx c.toNat).pushLink s.cx s.no s.iss.addr c.toNat w = .ok m := by
  apply Mach.pushLink_of_mode_zero
  rw [Mach.pushQueued_bind, linkMode, BitVec.extractLsb'_toNat, Nat.shiftRight_eq_div_pow]
  exact h

theorem mapTokenAndLinkWords : MapTokenAndLinkWords := by
  intro s k n o a t c
  refine ⟨?_, ?_, xIssues_of_xop rfl, xIssues_of_xop rfl, ?_, rfl, fun hb hr => ?_, fun hb hr => ?_, fun hb => ?_, fun hb => ?_, fun hb => ?_,
    fun hb ht => ?_, fun e hb ht => ?_, Mach.pushQueued_none, fun hb => ?_⟩
  · exact exec_located (reads := fun loc => [(loc, 96)]) rfl
  · exact exec_located (reads := fun _ => []) rfl
  · rw [BitVec.ofNat_toNat]
    rfl
  · rw [exec_lnbind hb]
    split
    · next r hl => rw [if_pos (hr r hl)]
    · rfl
  · obtain ⟨r, hl, hne⟩ := hr
    rw [exec_lnbind hb, hl]
    exact if_neg hne
  · exact State.guard_bad_values (i := .lnbind c a) rfl hb _
  · rw [exec_lnfree, if_pos (holdsLink_iff.mpr hb)]
  · rw [exec_lnfree, if_neg (fun e => hb (holdsLink_iff.mp e))]
  · obtain ⟨m, hm⟩ := ht.elim (fun h0 => trial_of_mode_zero h0 (s.rg a)) id
    refine xIssues_of_xop ?_
    rw [exec_lnmsg, if_pos (holdsLink_iff.mpr hb), hm]
  · rw [exec_lnmsg, if_pos (holdsLink_iff.mpr hb), ht]
    rfl
  · rw [exec_lnmsg, if_neg (fun e => hb (holdsLink_iff.mp e))]
    rfl

/-- Settles O38: shape writes by their replay entry, the queued words by the rule of the X queue, link pairs by their holder. -/
theorem shapesMapsTokensAndLinks : Obligations.ShapesMapsTokensAndLinks := ⟨shapeWritesAreExposed, mapTokenAndLinkWords⟩

end Sys2Proof.Claims
end

section
/-! SUPPORT. Trap entry (R53, R311 to R313) and the bytes of a trap record (R322, R323): the statement
`Obligations.TrapEntrySavesTheProgram`. A record is a list of blocks of fixed lengths, one for each field or file; what stands at a place is
read off the lengths of the blocks before it. -/

namespace Sys2Proof.Machine

open Sys2Proof.Claims

/-! ### Fields of byte lists -/

theorem field_eq_leNat (b : List Byte) (k n : Nat) : field b k n = leNat ((b.drop k).take n) := by
  rw [field]
  induction (b.drop k).take n with
  | nil => rfl
  | cons x l ih => rw [List.map_cons, List.foldr_cons, ih, leNat]

theorem leNat_natLE (n v : Nat) : leNat (natLE n v) = v % 2 ^ (8 * n) := by
  induction n generalizing v with
  | zero => simp [natLE, leNat, Nat.mod_one]
  | succ n ih =>
    rw [natLE, leNat, ih, BitVec.toNat_ofNat, Nat.mul_add, Nat.pow_add, Nat.mul_comm (2 ^ (8 * n)), Nat.mod_mul]

theorem leNat_zeroBytes (n : Nat) : leNat (zeroBytes n) = 0 := by
  induction n with
  | zero => rfl
  | succ n ih =>
    rw [zeroBytes, List.replicate_succ, leNat]
    simpa [zeroBytes] using ih

@[simp] theorem length_zeroBytes (n : Nat) : (zeroBytes n).length = n := List.length_replicate

/-- The whole of a little-endian number. -/
theorem field_natLE {n v : Nat} (h : v < 2 ^ (8 * n)) : field (natLE n v) 0 n = v := by
  rw [field_eq_leNat, List.drop_zero, List.take_of_length_le (length_natLE n v).le, leNat_natLE, Nat.mod_eq_of_lt h]

theorem field_vecLE {w : Nat} {n : Nat} (v : BitVec w) (h : w ≤ 8 * n) : field (vecLE n v) 0 n = v.toNat :=
  field_natLE (v.isLt.trans_le (Nat.pow_le_pow_right Nat.two_pos h))

theorem field_zeroBytes (m k n : Nat) : field (zeroBytes m) k n = 0 := by
  rw [field_eq_leNat, zeroBytes, List.drop_replicate, List.take_replicate]
  exact leNat_zeroBytes _

theorem field_append_left {a : List Byte} {k n : Nat} (h : k + n ≤ a.length) (b : List Byte) : field (a ++ b) k n = field a k n := by
  rw [field_eq_leNat, field_eq_leNat, List.drop_append_of_le_length (by omega), List.take_append_of_le_length (by rw [List.length_drop]; omega)]

theorem field_append_right (a b : List Byte) (k n : Nat) : field (a ++ b) (a.length + k) n = field b k n := by
  rw [field_eq_leNat, field_eq_leNat, List.drop_append, List.drop_eq_nil_of_le (by omega), List.nil_append, Nat.add_sub_cancel_left]

/-- A field inside a block of a list of blocks whose lengths are known. -/
theorem field_block {ls : List Nat} : ∀ {L : List (List Byte)} {j : Nat} {p : List Byte}, L.map List.length = ls → L[j]? = some p →
    ∀ {k i n : Nat}, k = (ls.take j).sum + i → i + n ≤ p.length → field L.flatten k n = field p i n := by
  induction ls with
  | nil =>
    intro L j p hl hj
    rw [List.map_eq_nil_iff.mp hl] at hj
    cases hj
  | cons a ls ih =>
    intro L j p hl hj k i n hk hi
    obtain ⟨q, L, rfl, rfl, hl'⟩ := List.map_eq_cons_iff.mp hl
    cases j with
    | zero =>
      obtain rfl : q = p := Option.some.inj hj
      rw [hk, List.take_zero, List.sum_nil, Nat.zero_add, List.flatten_cons, field_append_left hi]
    | succ j =>
      rw [hk, List.take_succ_cons, List.sum_cons, List.flatten_cons, Nat.add_assoc, field_append_right]
      exact ih hl' ((List.getElem?_cons_succ).symm.trans hj) rfl hi

/-- A field of one of the records of `w` bytes that follow each other. -/
theorem field_flatMap {α : Type} {f : α → List Byte} {w : Nat} (hf : ∀ a, (f a).length = w) : ∀ {l : List α} {k : Nat} {a : α}, l[k]? = some a →
    ∀ {i n : Nat}, i + n ≤ w → field (l.flatMap f) (w * k + i) n = field (f a) i n := by
  intro l
  induction l with
  | nil => nofun
  | cons b l ih =>
    intro k a hk i n hi
    rw [List.flatMap_cons]
    cases k with
    | zero =>
      obtain rfl : b = a := Option.some.inj hk
      rw [Nat.mul_zero, Nat.zero_add, field_append_left (by rw [hf]; exact hi)]
    | succ k =>
      rw [show w * (k + 1) + i = (f b).length + (w * k + i) by rw [hf, Nat.mul_succ]; omega, field_append_right]
      exact ih hk hi

theorem length_flatMap_const {α : Type} {f : α → List Byte} {w : Nat} (hf : ∀ a, (f a).length = w) (l : List α) :
    (l.flatMap f).length = w * l.length := by
  rw [List.length_flatMap, List.map_congr_left (fun a _ => hf a), List.map_const', List.sum_replicate, smul_eq_mul, Nat.mul_comm]

/-! ### The blocks of a trap record -/

/-- What a control block gives of each active loop level, zeros for the others (R322). -/
def levelBytes (c : Ctl) (n : Nat) (f : Nat → List Byte) (k : Nat) : List Byte := if k < c.nlev then f k else zeroBytes n

theorem levelBytes_eq (c : Ctl) (n : Nat) (f : Nat → List Byte) : levelBytes c n f = fun k => if k < c.nlev then f k else zeroBytes n := rfl

/-- General register `k` as a record holds it, `g0` as zero (R312). -/
def gregWord (r : Regs) (k : Nat) : List Byte := if k = 0 then zeroBytes 8 else vecLE 8 (rget k r.g)

theorem gregWord_eq (r : Regs) : gregWord r = fun k => if k = 0 then zeroBytes 8 else vecLE 8 (rget k r.g) := rfl

/-- The blocks of a trap record, in order (R312, R322, R323). -/
def recordBlocks (m : Mach) (x : Ctx) (fpc tc ta : W64) : List (List Byte) :=
  let c := x.ctl
  let r := x.regs
  let p := x.pend
  [vecLE 8 c.pc, if c.dly = 0 then zeroBytes 8 else vecLE 8 c.tgt, natLE 1 (c.dly.toNat + 4 * b2n c.link), natLE 1 c.remain.toNat,
    vecLE 2 r.vl, vecLE 1 r.f, natLE 1 c.nlev, vecLE 1 (c.first &&& BitVec.ofNat 6 (2 ^ c.nlev - 1)),
    natLE 1 (r.rb.toNat + 16 * r.rs.toNat),
    (List.range 6).flatMap (levelBytes c 4 (fun k => vecLE 4 (rget k c.lc))),
    (List.range 6).flatMap (levelBytes c 8 (fun k => vecLE 8 (rget k c.body))),
    (List.range 6).flatMap (levelBytes c 2 (fun k => vecLE 2 (rget k c.blen))),
    zeroBytes 4, (List.range 11).flatMap (fun k => vecLE 4 (rget (k + 1) c.sticky)), zeroBytes 4,
    [7, 8, 9, 10].flatMap (fun k => vecLE 8 (rget k c.raddr)), (List.range 8).flatMap (fun k => vecLE 2 (rget k r.ct)),
    vecLE 4 (m.otm r), vecLE 1 r.vrm, vecLE 1 r.xf, zeroBytes 2,
    natLE 8 (b2n p.pex + p.pexN.toNat * 65536), vecLE 8 p.pexA, natLE 8 (b2n p.ptf + p.ptfC.toNat * 256), vecLE 8 p.ptfV,
    zeroBytes 264, (List.range 64).flatMap (gregWord r), replayArea x.replay, vecLE 8 fpc, vecLE 8 tc, vecLE 8 ta, zeroBytes 1512]

theorem recordBytes_eq_blocks (m : Mach) (c : Ctx) (fpc tc ta : W64) : m.recordBytes c fpc tc ta = (recordBlocks m c fpc tc ta).flatten := by
  unfold recordBlocks Mach.recordBytes ctlBytes pendBytes gregBytes
  dsimp only
  simp only [List.flatten_cons, List.flatten_nil, List.append_nil]
  simp only [List.append_assoc]
  simp only [levelBytes_eq, gregWord_eq]

/-- The lengths of those blocks. -/
def recordLengths : List Nat :=
  [8, 8, 1, 1, 2, 1, 1, 1, 1, 24, 48, 12, 4, 44, 4, 32, 16, 4, 1, 1, 2, 8, 8, 8, 8, 264, 512, 1536, 8, 8, 8, 1512]

theorem length_levelBytes {c : Ctl} {n : Nat} {f : Nat → List Byte} (hf : ∀ k, (f k).length = n) (k : Nat) : (levelBytes c n f k).length = n := by
  unfold levelBytes
  split
  · exact hf k
  · exact length_zeroBytes n

theorem length_gregWord (r : Regs) (k : Nat) : (gregWord r k).length = 8 := by
  unfold gregWord
  split <;> simp

theorem length_replayBytes (e : Replay) : (replayBytes e).length = 32 := by simp [replayBytes]

theorem length_replayArea (l : List Replay) : (replayArea l).length = 1536 := by
  have h := length_flatMap_const length_replayBytes (l.take 48)
  have h48 : (l.take 48).length ≤ 48 := List.length_take_le ..
  simp only [replayArea, List.length_append, length_zeroBytes, h]
  omega

theorem map_length_recordBlocks (m : Mach) (c : Ctx) (fpc tc ta : W64) : (recordBlocks m c fpc tc ta).map List.length = recordLengths := by
  have hv : ∀ {w n : Nat} (g : Nat → BitVec w) (k : Nat), (vecLE n (g k)).length = n := fun g k => length_vecLE ..
  have hlv : ∀ {w n : Nat} (g : Nat → BitVec w), ((List.range 6).flatMap (levelBytes c.ctl n (fun k => vecLE n (g k)))).length = n * 6 :=
    fun g => length_flatMap_const (length_levelBytes (hv g)) _
  have htgt : (if c.ctl.dly = 0 then zeroBytes 8 else vecLE 8 c.ctl.tgt).length = 8 := by split <;> simp
  simp only [recordBlocks, List.map_cons, List.map_nil, length_vecLE, length_natLE, length_zeroBytes, hlv, htgt, length_replayArea,
    length_flatMap_const (hv _), length_flatMap_const (length_gregWord _), List.length_range]
  rfl

theorem length_recordBytes (m : Mach) (c : Ctx) (fpc tc ta : W64) : (m.recordBytes c fpc tc ta).length = 4096 := by
  rw [recordBytes_eq_blocks, List.length_flatten, map_length_recordBlocks]
  rfl

/-! ### The fields of a trap record -/

section
variable {m : Mach} {c : Ctx} {fpc tc ta : W64}

theorem record_field {j : Nat} {p : List Byte} (hj : (recordBlocks m c fpc tc ta)[j]? = some p) {k : Nat} (hk : (recordLengths.take j).sum = k)
    {i n : Nat} (hi : i + n ≤ p.length) : field (m.recordBytes c fpc tc ta) (k + i) n = field p i n := by
  rw [recordBytes_eq_blocks]
  exact field_block (map_length_recordBlocks m c fpc tc ta) hj (by rw [hk]) hi

/-- A field that is a block of the record. -/
theorem record_block {j k n : Nat} {p : List Byte} (hj : (recordBlocks m c fpc tc ta)[j]? = some p)
    (hk : (recordLengths.take j).sum = k) (hn : n = p.length) : field (m.recordBytes c fpc tc ta) k n = field p 0 n :=
  record_field (i := 0) hj hk (by omega)

theorem record_vecLE (j : Nat) {k n w : Nat} {v : BitVec w} (hj : (recordBlocks m c fpc tc ta)[j]? = some (vecLE n v))
    (hk : (recordLengths.take j).sum = k) (hw : w ≤ 8 * n) : field (m.recordBytes c fpc tc ta) k n = v.toNat :=
  (record_block hj hk (length_vecLE n v).symm).trans (field_vecLE v hw)

theorem record_natLE (j : Nat) {k n v : Nat} (hj : (recordBlocks m c fpc tc ta)[j]? = some (natLE n v))
    (hk : (recordLengths.take j).sum = k) (hv : v < 2 ^ (8 * n)) : field (m.recordBytes c fpc tc ta) k n = v :=
  (record_block hj hk (length_natLE n v).symm).trans (field_natLE hv)

/-- An element of a block of elements of one length. -/
theorem record_elem (j : Nat) {α : Type} {f : α → List Byte} {l : List α} {w : Nat} (hf : ∀ a, (f a).length = w)
    (hj : (recordBlocks m c fpc tc ta)[j]? = some (l.flatMap f)) {k q i n : Nat} {a : α} (ha : l[q]? = some a)
    (hk : (recordLengths.take j).sum = k) (hi : i + n ≤ w) :
    field (m.recordBytes c fpc tc ta) (k + (w * q + i)) n = field (f a) i n := by
  have hq : w * (q + 1) ≤ w * l.length := Nat.mul_le_mul_left w (List.getElem?_eq_some_iff.mp ha).1
  rw [Nat.mul_succ] at hq
  rw [record_field hj hk (by rw [length_flatMap_const hf]; omega), field_flatMap hf ha hi]

/-- A number of a block of numbers of one width. -/
theorem record_elem_vecLE (j : Nat) {α : Type} {w b : Nat} {v : α → BitVec b} {l : List α}
    (hj : (recordBlocks m c fpc tc ta)[j]? = some (l.flatMap (fun a => vecLE w (v a)))) {k q : Nat} {a : α} (ha : l[q]? = some a)
    (hk : (recordLengths.take j).sum = k) (hb : b ≤ 8 * w) : field (m.recordBytes c fpc tc ta) (k + w * q) w = (v a).toNat :=
  (record_elem j (fun a => length_vecLE w (v a)) hj ha hk (i := 0) (Nat.zero_add w).le).trans (field_vecLE _ hb)

/-- A number of a loop level, 0 where the level is not active (R322). -/
theorem record_level (j : Nat) {w b : Nat} {v : Nat → BitVec b}
    (hj : (recordBlocks m c fpc tc ta)[j]? = some ((List.range 6).flatMap (levelBytes c.ctl w (fun k => vecLE w (v k))))) {k q : Nat}
    (hq : q < 6) (hk : (recordLengths.take j).sum = k) (hb : b ≤ 8 * w) :
    field (m.recordBytes c fpc tc ta) (k + w * q) w = if q < c.ctl.nlev then (v q).toNat else 0 := by
  have h := record_elem j (length_levelBytes (fun k => length_vecLE w (v k))) hj (List.getElem?_range hq) hk (i := 0) (Nat.zero_add w).le
  rw [Nat.add_zero] at h
  rw [h, levelBytes]
  split
  · exact field_vecLE _ hb
  · exact field_zeroBytes w 0 w

theorem record_levels {k : Nat} (hk : k < 6) :
    field (m.recordBytes c fpc tc ta) (24 + 4 * k) 4 = (if k < c.ctl.nlev then (rget k c.ctl.lc).toNat else 0) ∧
    field (m.recordBytes c fpc tc ta) (48 + 8 * k) 8 = (if k < c.ctl.nlev then (rget k c.ctl.body).toNat else 0) ∧
    field (m.recordBytes c fpc tc ta) (96 + 2 * k) 2 = (if k < c.ctl.nlev then (rget k c.ctl.blen).toNat else 0) :=
  ⟨record_level 9 (v := fun k => rget k c.ctl.lc) rfl hk rfl (by decide), record_level 10 (v := fun k => rget k c.ctl.body) rfl hk rfl (by decide),
    record_level 11 (v := fun k => rget k c.ctl.blen) rfl hk rfl (by decide)⟩

theorem record_sticky {k : Nat} (h1 : 1 ≤ k) (h11 : k ≤ 11) :
    field (m.recordBytes c fpc tc ta) (112 + 4 * (k - 1)) 4 = (rget k c.ctl.sticky).toNat := by
  obtain ⟨q, rfl⟩ : ∃ q, k = q + 1 := ⟨k - 1, by omega⟩
  exact record_elem_vecLE 13 (v := fun k => rget (k + 1) c.ctl.sticky) rfl (List.getElem?_range (by omega : q < 11)) rfl (by decide)

theorem record_raddr {k : Nat} (h7 : 7 ≤ k) (h10 : k ≤ 10) :
    field (m.recordBytes c fpc tc ta) (160 + 8 * (k - 7)) 8 = (rget k c.ctl.raddr).toNat := by
  have hk : [7, 8, 9, 10][k - 7]? = some k := by interval_cases k <;> rfl
  exact record_elem_vecLE 15 (v := fun k => rget k c.ctl.raddr) rfl hk rfl (by decide)

theorem record_ct {k : Nat} (hk : k < 8) : field (m.recordBytes c fpc tc ta) (192 + 2 * k) 2 = (rget k c.regs.ct).toNat :=
  record_elem_vecLE 16 (v := fun k => rget k c.regs.ct) rfl (List.getElem?_range hk) rfl (by decide)

/-- The levels whose first bundle is still to come, those that are active (R322). -/
theorem testBit_record_first (hl : c.ctl.nlev ≤ 6) {k : Nat} (hk : k < 6) :
    (field (m.recordBytes c fpc tc ta) 22 1).testBit k = (c.ctl.first.getLsbD k && decide (k < c.ctl.nlev)) := by
  have hb : (2 : Nat) ^ c.ctl.nlev ≤ 2 ^ 6 := Nat.pow_le_pow_right Nat.two_pos hl
  rw [record_vecLE (k := 22) 7 rfl rfl (by omega), BitVec.testBit_toNat, BitVec.getLsbD_and, BitVec.getLsbD_ofNat, Nat.testBit_two_pow_sub_one,
    decide_eq_true hk, Bool.true_and]

theorem testBit_record_otm {k : Nat} (hk : k < 32) : (field (m.recordBytes c fpc tc ta) 208 4).testBit k = m.tokenDone c.regs k := by
  have h : (m.otm c.regs).getLsbD k = ((List.range 32).map (m.tokenDone c.regs)).getD k false := BitVec.getLsbD_ofBoolListLE
  rw [record_vecLE (k := 208) 17 rfl rfl (by omega), BitVec.testBit_toNat, h, List.getD_eq_getElem?_getD, List.getElem?_map, List.getElem?_range hk]
  rfl

/-- TGT stands only in a delay issue (R322). -/
theorem record_tgt : field (m.recordBytes c fpc tc ta) 8 8 = if c.ctl.dly = 0 then 0 else c.ctl.tgt.toNat := by
  have h : field (m.recordBytes c fpc tc ta) 8 8 = field (if c.ctl.dly = 0 then zeroBytes 8 else vecLE 8 c.ctl.tgt) 0 8 :=
    record_block (j := 1) rfl rfl (by split <;> simp)
  rw [h]
  split
  · exact field_zeroBytes 8 0 8
  · exact field_vecLE _ (Nat.le_refl _)

theorem record_dly : field (m.recordBytes c fpc tc ta) 16 1 = c.ctl.dly.toNat + if c.ctl.link then 4 else 0 := by
  have h := c.ctl.dly.isLt
  have e : 4 * b2n c.ctl.link = if c.ctl.link then 4 else 0 := by cases c.ctl.link <;> rfl
  rw [← e]
  refine record_natLE 2 rfl rfl ?_
  rw [e]
  split <;> omega

/-- A presence bit beside the numbers of a pending fault (R322). -/
theorem record_flagged (j : Nat) {k s w : Nat} {b : Bool} {v : BitVec w} (hj : (recordBlocks m c fpc tc ta)[j]? = some (natLE 8 (b2n b + v.toNat * s)))
    (hk : (recordLengths.take j).sum = k) (hs : 1 + 2 ^ w * s ≤ 2 ^ 64) :
    field (m.recordBytes c fpc tc ta) k 8 = (if b then 1 else 0) + s * v.toNat := by
  have hv : (v.toNat + 1) * s ≤ 2 ^ w * s := Nat.mul_le_mul_right s v.isLt
  have hb : b2n b ≤ 1 := by cases b <;> decide
  rw [record_natLE j hj hk (by rcases Nat.eq_zero_or_pos s with rfl | h0 <;> simp only [Nat.add_mul, Nat.mul_zero] at * <;> omega), b2n, Nat.mul_comm]

theorem record_greg {k : Nat} (hk : k < 64) :
    field (m.recordBytes c fpc tc ta) (512 + 8 * k) 8 = if k = 0 then 0 else (rget k c.regs.g).toNat := by
  have h := record_elem (m := m) (fpc := fpc) (tc := tc) (ta := ta) (k := 512) (i := 0) (n := 8) 26 (length_gregWord c.regs) rfl (List.getElem?_range hk) rfl
    (Nat.le_refl 8)
  rw [Nat.add_zero] at h
  rw [h, gregWord]
  split
  · exact field_zeroBytes 8 0 8
  · exact field_vecLE _ (Nat.le_refl _)

/-! ### Replay entries -/

theorem record_replay {k : Nat} {e : Replay} (hk : k < 48) (he : c.replay[k]? = some e) {i n : Nat} (hi : i + n ≤ 32) :
    field (m.recordBytes c fpc tc ta) (1024 + 32 * k + i) n = field (replayBytes e) i n := by
  have he' : (c.replay.take 48)[k]? = some e := (List.getElem?_take_of_lt hk).trans he
  have hl := (List.getElem?_eq_some_iff.mp he').1
  have hlen := length_flatMap_const length_replayBytes (c.replay.take 48)
  rw [Nat.add_assoc, record_field (j := 27) (k := 1024) (p := replayArea c.replay) rfl rfl (by rw [length_replayArea]; omega), replayArea,
    field_append_left (by omega), field_flatMap length_replayBytes he' hi]

/-- The bytes of an entry that is not there are zero (R312). -/
theorem record_no_replay {k : Nat} (hk : k < 48) (he : c.replay[k]? = none) :
    field (m.recordBytes c fpc tc ta) (1024 + 32 * k) 32 = 0 := by
  have hl := List.getElem?_eq_none_iff.mp he
  have hlen := length_flatMap_const length_replayBytes (c.replay.take 48)
  rw [List.length_take, Nat.min_eq_right (by omega)] at hlen
  obtain ⟨d, hd⟩ : ∃ d, 32 * k = 32 * c.replay.length + d := ⟨32 * k - 32 * c.replay.length, by omega⟩
  rw [record_field (j := 27) (k := 1024) (p := replayArea c.replay) rfl rfl (by rw [length_replayArea]; omega), replayArea, hd, ← hlen, field_append_right]
  exact field_zeroBytes ..

/-- The fields of a replay entry (R323). -/
theorem record_replay_fields {k : Nat} {e : Replay} (hk : k < 48) (he : c.replay[k]? = some e) :
    field (m.recordBytes c fpc tc ta) (1024 + 32 * k) 16 = e.data.toNat ∧ field (m.recordBytes c fpc tc ta) (1040 + 32 * k) 1 = e.kind.toNat ∧
    field (m.recordBytes c fpc tc ta) (1041 + 32 * k) 1 = e.reg.toNat ∧ field (m.recordBytes c fpc tc ta) (1042 + 32 * k) 2 = e.byte.toNat ∧
    field (m.recordBytes c fpc tc ta) (1044 + 32 * k) 1 = e.k.toNat := by
  have hb : replayBytes e = [vecLE 16 e.data, vecLE 1 e.kind, vecLE 1 e.reg, vecLE 2 e.byte, vecLE 1 e.k, zeroBytes 11].flatten := by
    simp [replayBytes]
  have field_at : ∀ (j : Nat) {n w : Nat} {v : BitVec w} {i p : Nat},
      [vecLE 16 e.data, vecLE 1 e.kind, vecLE 1 e.reg, vecLE 2 e.byte, vecLE 1 e.k, zeroBytes 11][j]? = some (vecLE n v) →
      ([16, 1, 1, 2, 1, 11].take j).sum = i → p = 1024 + 32 * k + i → i + n ≤ 32 → w ≤ 8 * n →
      field (m.recordBytes c fpc tc ta) p n = v.toNat := by
    intro j n w v i p hj hi hp hn hw
    rw [hp, record_replay hk he hn, hb, field_block (ls := [16, 1, 1, 2, 1, 11]) (by simp) hj (i := 0) hi.symm (by simp), field_vecLE v hw]
  exact ⟨field_at 0 (i := 0) rfl rfl rfl (by omega) (by omega), field_at 1 (i := 16) rfl rfl (by omega) (by omega) (by omega),
    field_at 2 (i := 17) rfl rfl (by omega) (by omega) (by omega), field_at 3 (i := 18) rfl rfl (by omega) (by omega) (by omega),
    field_at 4 (i := 20) rfl rfl (by omega) (by omega) (by omega)⟩

end

end Sys2Proof.Machine

namespace Sys2Proof.Claims

open Sys2Proof.Machine

theorem trapRecordLayout : TrapRecordLayout := by
  intro m c fpc tc ta hl
  have hremain := c.ctl.remain.isLt
  have hrb := c.regs.rb.isLt
  have hrs := c.regs.rs.isLt
  have hgreg : ∀ k, 1 ≤ k → k < 64 → field (m.recordBytes c fpc tc ta) (512 + 8 * k) 8 = (rget k c.regs.g).toNat :=
    fun k h1 h64 => (record_greg h64).trans (if_neg (by omega))
  have hrest : field (m.recordBytes c fpc tc ta) 2584 1512 = 0 :=
    (record_block (j := 31) rfl rfl (length_zeroBytes 1512).symm).trans (field_zeroBytes 1512 0 1512)
  exact ⟨length_recordBytes .., record_vecLE 0 rfl rfl (by decide), record_tgt, record_dly, record_natLE 3 rfl rfl (by omega),
    record_vecLE 4 rfl rfl (by decide), record_vecLE 5 rfl rfl (by decide), record_natLE 6 rfl rfl (by omega), record_natLE 8 rfl rfl (by omega),
    fun k hk => testBit_record_first hl hk,
    fun k hk => record_levels hk, fun k h1 h11 => record_sticky h1 h11, fun k h7 h10 => record_raddr h7 h10,
    fun k hk => record_ct hk, fun k hk => testBit_record_otm hk,
    record_vecLE 18 rfl rfl (by decide), record_vecLE 19 rfl rfl (by decide), record_flagged 21 rfl rfl (by decide),
    record_vecLE 22 rfl rfl (by decide), record_flagged 23 rfl rfl (by decide), record_vecLE 24 rfl rfl (by decide),
    (record_greg (k := 0) (by decide)).trans (if_pos rfl), hgreg,
    fun k e hk he => record_replay_fields hk he, fun k hk he => record_no_replay hk he, record_vecLE 28 rfl rfl (by decide),
    record_vecLE 29 rfl rfl (by decide), record_vecLE 30 rfl rfl (by decide), hrest⟩

end Sys2Proof.Claims

namespace Sys2Proof.Machine

open Sys2Proof.Claims

/-! ### Taking an exception -/

/-- What `f` leaves in the engines of a context, its flags tell (R55). -/
theorem Mach.engineFlags_modCtx {m : Mach} {x : Nat} {f : Ctx → Ctx} (hv : (f (m.ctx x)).vq = (m.ctx x).vq)
    (hq : (f (m.ctx x)).qq = (m.ctx x).qq) (hx : (f (m.ctx x)).xq = (m.ctx x).xq) (hd : (f (m.ctx x)).drains = (m.ctx x).drains) :
    (m.modCtx x f).engineFlags x = m.engineFlags x := by
  simp only [Mach.engineFlags, Mach.xBusy, Mach.localBusy, Mach.core, Mach.modCtx_cores, Mach.modCtx_gops, Mach.modCtx_rets, Mach.modCtx_locq]
  rw [Mach.ctx_modCtx_same, hv, hq, hx, hd]

theorem Mach.engineFlags_boundary (m : Mach) (x : Nat) : (m.boundary x).engineFlags x = m.engineFlags x := Mach.engineFlags_modCtx rfl rfl rfl rfl

/-- Bytes stored at a location are read there. -/
theorem readByte_store_same (m : Mach) (loc : Nat) (bs : List Byte) {i : Nat} (h : i < bs.length) :
    readByte (m.store loc bs).mem (loc + i) = bs.getD i 0 :=
  readByte_writeBytes_same m.mem loc bs i h

/-- An exception that is no double fault, whose record lies in one piece: the record is stored, the handler begins, a group boundary falls. -/
theorem Mach.enter_piece {m : Mach} {x : Nat} (fpc tc ta : W64) {g : Seg} (hh : (m.ctx x).trp.handler = false)
    (hp : m.plainArea x (m.ctx x).trp.trec 4096 = some [g]) (hg : g.len = 4096) :
    m.enter x fpc tc ta = ((m.store g.pa (m.recordBytes (m.ctx x) fpc tc ta)).modCtx x (fun d => d.inHandler m.nextId tc ta)).boundary x := by
  obtain ⟨hd, -⟩ | ⟨segs, -, hs, e⟩ := m.enter_cases x fpc tc ta
  · simp [hh, hp] at hd
  · obtain rfl : segs = [g] := Option.some.inj (hs.symm.trans hp)
    rw [e, Mach.storeSegs, Mach.storeSegs, List.take_of_length_le (by rw [length_recordBytes, hg])]

theorem barrierHeld_eq (s : Status) : barrierHeld s = s.barrierWait := by
  cases s with
  | parked p => cases p <;> rfl
  | _ => rfl

/-- A group boundary loses no flag that XFLAGS holds (R110). -/
theorem settled_keeps_xf (m : Mach) (x : Nat) (c : Ctx) : c.regs.xf &&& (settledCtx m x c).regs.xf = c.regs.xf := by
  ext i hi
  simp only [settledCtx, BitVec.getElem_and, BitVec.getElem_or]
  cases c.regs.xf[i] <;> simp only [Bool.false_and, Bool.true_or, Bool.and_self]

end Sys2Proof.Machine

namespace Sys2Proof.Claims

open Sys2Proof.Machine

theorem trapEntryWritesTheRecord : TrapEntryWritesTheRecord := by
  intro m x fpc tc ta g hh hp hg
  have hb : (m.recordBytes (m.ctx x) fpc tc ta).length = 4096 := length_recordBytes ..
  have e := Mach.enter_piece fpc tc ta hh hp hg
  have hf : (m.enter x fpc tc ta).engineFlags x = (m.store g.pa (m.recordBytes (m.ctx x) fpc tc ta)).engineFlags x := by
    rw [e, Mach.engineFlags_boundary, Mach.engineFlags_modCtx rfl rfl rfl rfl]
  rw [Mach.boundary_modCtx rfl rfl rfl rfl] at e
  have hd := congrArg (Mach.ctx · x) e
  have hother : ∀ y, y ≠ x → (m.ctx y).NoticedAs ((m.enter x fpc tc ta).ctx y) := fun y hy => by
    rw [e, Mach.ctx_setCtx_other hy, Mach.ctx_store]
    exact Ctx.noticedAs_notice ..
  dsimp only at hd ⊢
  rw [Mach.ctx_setCtx_same, Mach.ctx_store] at hd
  refine ⟨fun i hi => ?_, fun a ha => ?_, ?_, ?_, ?_, ?_, ?_, ?_, ?_, ?_, hother, ?_⟩
  · rw [e]
    exact readByte_store_same m g.pa _ (hb.symm ▸ hi)
  · rw [e]
    exact readByte_writeBytes_other m.mem g.pa _ a (hb.symm ▸ ha)
  · rw [hd, barrierHeld_eq]; rfl
  · rw [hd]; rfl
  · rw [hd]; rfl
  · rw [hd]; rfl
  · rw [hd]; rfl
  · rw [hd]; rfl
  · rw [hf, hd]; rfl
  · rw [hd]; exact settled_keeps_xf _ x (((m.ctx x).notice _).inHandler m.nextId tc ta)
  · rw [e, ← hb]; rfl

/-- Settles O11: the record is the blocks of R312, R322 and R323 in order, and trap entry is its store, the handler's begin and a boundary. -/
theorem trapEntrySavesTheProgram : Obligations.TrapEntrySavesTheProgram := ⟨trapEntryWritesTheRecord, trapRecordLayout⟩

end Sys2Proof.Claims

end

section
/-! SUPPORT. Block scales (R112, R206, R207, R213): the statement `Obligations.BlockScalesAreFormedAndKept`. -/

namespace Sys2Proof.Machine

open Sys2Proof.Claims

/-! ### The magnitude of a number and its binade -/

theorem abs_realOf_fin (neg : Bool) (m : Nat) (e : Int) : |realOf (.fin neg m e)| = (m : ℝ) * (2 : ℝ) ^ e := by
  have h : |(if neg then (-1 : ℝ) else 1)| = 1 := by cases neg <;> simp
  rw [realOf, abs_mul, abs_mul, h, one_mul, Nat.abs_cast, abs_of_pos (zpow_pos two_pos e)]

theorem realOf_fin_eq_zero_iff {neg : Bool} {m : Nat} {e : Int} : realOf (.fin neg m e) = 0 ↔ m = 0 := by
  rw [← abs_eq_zero, abs_realOf_fin, mul_eq_zero, Nat.cast_eq_zero, or_iff_left (zpow_pos two_pos e).ne']

/-- The model's binade of a magnitude is its logarithm. -/
theorem floorLog2_eq_log {neg : Bool} {m : Nat} {e : Int} (hm : m ≠ 0) : floorLog2 m e = Int.log 2 |realOf (.fin neg m e)| := by
  have hpos : (0 : ℝ) < m * (2 : ℝ) ^ e := mul_pos (Nat.cast_pos.mpr (Nat.pos_of_ne_zero hm)) (zpow_pos two_pos e)
  have two_cast : ((2 : Nat) : ℝ) = 2 := Nat.cast_ofNat
  rw [abs_realOf_fin, floorLog2]
  refine le_antisymm ((Int.zpow_le_iff_le_log one_lt_two hpos).mp ?_) (Int.lt_add_one_iff.mp ((Int.lt_zpow_iff_log_lt one_lt_two hpos).mp ?_))
  · rw [two_cast, zpow_add₀ two_ne_zero, zpow_natCast]
    have h : ((2 ^ Nat.log2 m : Nat) : ℝ) ≤ m := Nat.cast_le.mpr (Nat.log2_self_le hm)
    rw [Nat.cast_pow, two_cast] at h
    exact mul_le_mul_of_nonneg_right h (zpow_pos two_pos e).le
  · rw [two_cast, add_right_comm, zpow_add₀ two_ne_zero, ← Nat.cast_succ, zpow_natCast]
    have h : (m : ℝ) < ((2 ^ (Nat.log2 m + 1) : Nat) : ℝ) := Nat.cast_lt.mpr Nat.lt_log2_self
    rw [Nat.cast_pow, two_cast] at h
    exact mul_lt_mul_of_pos_right h (zpow_pos two_pos e)

/-! ### The largest binade of a block -/

/-- One step of `maxLog2`. -/
def higherLog (acc : Option Int) (x : Machine.Num) : Option Int :=
  match x with
  | .fin _ m e =>
    if m = 0 then acc
    else match acc with
      | none => some (floorLog2 m e)
      | some k => some (max k (floorLog2 m e))
  | _ => acc

theorem maxLog2_eq (l : List Machine.Num) : maxLog2 l = l.foldl higherLog none := rfl

theorem higherLog_of_zero {acc : Option Int} {x : Machine.Num} (h : realOf x = 0) : higherLog acc x = acc := by
  cases x with
  | fin neg m e => exact if_pos (realOf_fin_eq_zero_iff.mp h)
  | nan => rfl
  | inf _ => rfl

theorem higherLog_of_ne_zero {acc : Option Int} {x : Machine.Num} (h : realOf x ≠ 0) :
    higherLog acc x = some (max (acc.getD (Int.log 2 |realOf x|)) (Int.log 2 |realOf x|)) := by
  cases x with
  | fin neg m e =>
    have hm : m ≠ 0 := fun e => h (realOf_fin_eq_zero_iff.mpr e)
    rw [← floorLog2_eq_log hm]
    simp only [higherLog, if_neg hm]
    cases acc with
    | none => rw [Option.getD_none, max_self]
    | some k => rfl
  | nan => exact absurd rfl h
  | inf _ => exact absurd rfl h

/-- What `maxLog2` keeps: nothing while all numbers are zero, else the binade of one of them that none exceeds. -/
def IsTopLog (l : List Machine.Num) : Option Int → Prop
  | none => ∀ x ∈ l, realOf x = 0
  | some k => (∃ x ∈ l, realOf x ≠ 0 ∧ Int.log 2 |realOf x| = k) ∧ ∀ x ∈ l, realOf x ≠ 0 → Int.log 2 |realOf x| ≤ k

theorem IsTopLog.step {l : List Machine.Num} {acc : Option Int} (h : IsTopLog l acc) (x : Machine.Num) : IsTopLog (l ++ [x]) (higherLog acc x) := by
  by_cases hx : realOf x = 0
  · rw [higherLog_of_zero hx]
    cases acc with
    | none => exact List.forall_mem_append.mpr ⟨h, List.forall_mem_singleton.mpr hx⟩
    | some k =>
      obtain ⟨⟨y, hy, hk⟩, hle⟩ := h
      exact ⟨⟨y, List.mem_append_left _ hy, hk⟩, List.forall_mem_append.mpr ⟨hle, List.forall_mem_singleton.mpr fun e => absurd hx e⟩⟩
  · rw [higherLog_of_ne_zero hx]
    have hmem : x ∈ l ++ [x] := List.mem_append_right _ List.mem_cons_self
    cases acc with
    | none =>
      exact ⟨⟨x, hmem, hx, by rw [Option.getD_none, max_self]⟩,
        List.forall_mem_append.mpr ⟨fun y hy e => absurd (h y hy) e, List.forall_mem_singleton.mpr fun _ => le_max_right ..⟩⟩
    | some k =>
      obtain ⟨⟨y, hy, hy0, hk⟩, hle⟩ := h
      refine ⟨?_, List.forall_mem_append.mpr ⟨fun z hz e => (hle z hz e).trans (le_max_left ..),
        List.forall_mem_singleton.mpr fun _ => le_max_right ..⟩⟩
      rcases le_total (Int.log 2 |realOf x|) k with hxk | hxk
      · exact ⟨y, List.mem_append_left _ hy, hy0, hk.trans (max_eq_left hxk).symm⟩
      · exact ⟨x, hmem, hx, (max_eq_right hxk).symm⟩

theorem isTopLog_maxLog2 (l : List Machine.Num) : IsTopLog l (maxLog2 l) := by
  rw [maxLog2_eq]
  induction l using List.reverseRecOn with
  | nil => exact List.forall_mem_nil _
  | append_singleton l x ih =>
    rw [List.foldl_append]
    exact ih.step x

/-- The scale that `blockScale` gives to 16 numbers is that of R112. -/
theorem isScale_blockScale {t : Option Fmt} {emax : Int} (ht : blockEmax t = emax) (x : Nat → Machine.Num) :
    isScale emax x (blockScale t ((List.range 16).map x)) := by
  have hmem : ∀ {p : Machine.Num → Prop}, (∀ y ∈ (List.range 16).map x, p y) ↔ ∀ j < 16, p (x j) := by simp
  unfold blockScale
  split
  next h => exact .inl ⟨by simpa using h, rfl⟩
  next h =>
    have hfin : ∀ j < 16, (x j).isFin = true := by simpa using h
    have htop := isTopLog_maxLog2 ((List.range 16).map x)
    split
    next e =>
      rw [e] at htop
      exact .inr (.inl ⟨fun j hj => ⟨hfin j hj, hmem.mp htop j hj⟩, rfl⟩)
    next k e =>
      rw [e] at htop
      obtain ⟨⟨y, hy, hy0, hk⟩, hle⟩ := htop
      obtain ⟨i, hi, rfl⟩ := List.mem_map.mp hy
      obtain ⟨j, hj, hmax⟩ := Finset.exists_max_image (Finset.range 16) (fun j => |realOf (x j)|) ⟨0, by decide⟩
      have hmax : ∀ i < 16, |realOf (x i)| ≤ |realOf (x j)| := fun i hi => hmax i (Finset.mem_range.mpr hi)
      have hij := hmax i (List.mem_range.mp hi)
      have hpos : 0 < |realOf (x j)| := (abs_pos.mpr hy0).trans_le hij
      have hj16 := Finset.mem_range.mp hj
      have hlog : Int.log 2 |realOf (x j)| = k :=
        le_antisymm (hmem.mp hle j hj16 (abs_pos.mp hpos)) (hk ▸ Int.log_mono_right (abs_pos.mpr hy0) hij)
      refine .inr (.inr ⟨hfin, j, hj16, abs_pos.mp hpos, hmax, ?_⟩)
      rw [hlog, ht, BitVec.toNat_ofNat]
      omega

/-- The registers and the rest of the issuing context changed. -/
theorem State.modR_modC (s : State) (f : Regs → Regs) (g : Ctx → Ctx) :
    (s.modR f).modC g = { s with m := s.m.setCtx s.cx (g { s.nc with regs := f s.nc.regs }) } :=
  congrArg (fun m => { s with m := m }) (Mach.modCtx_modCtx s.m s.cx _ g)

theorem blockEmax_qmaxTarget (c : BitVec 4) : blockEmax (qmaxTarget c) = scaleEmax c.toNat := by
  revert c
  decide

end Sys2Proof.Machine

namespace Sys2Proof.Claims

open Sys2Proof.Machine

theorem el_packLanes_map {w n k : Nat} (f : Nat → BitVec n) {i : Nat} (hi : i < k) (h : n * (i + 1) ≤ w) :
    el n (packLanes w ((List.range k).map f)) i = f i := by
  rw [el_packLanes _ h, List.getD_eq_getElem?_getD, List.getElem?_map, List.getElem?_range hi]
  rfl

theorem exec_qmaxForm {i : Instr} {f : Fmt} {n : Nat} {v : BitVec 5} {c : BitVec 4} (hi : qmaxForm i = some (f, n, v, c)) (s : State) :
    exec i s = .next { s with m := s.m.setCtx s.cx { s.nc with
      replay := s.nc.replay ++ bypassEntries (packLanes 512 (blockScales f n (qmaxTarget c) (s.rv v))) } } := by
  cases i with
  | qmaxF32 | qmaxBf16 | qmaxF16 => cases hi; rfl
  | _ => cases hi

theorem outdone_eq (e : Replay) (r byte : Nat) (d : BitVec 128) :
    e.outdone r byte d = if e.kind = 1 ∧ e.k = 1 ∧ e.reg.toNat = r ∧ e.byte.toNat = byte then { e with data := d, src := none } else e := by
  simp only [Replay.outdone, Bool.and_eq_true, beq_iff_eq, and_assoc]

/-- The four pieces of half a scale register, one after another, are one comparison of an entry with that half (R213). -/
theorem outdoneBy_eq (c : BitVec 4) (h : BitVec 1) (b : BitVec 512) (l : List Replay) : outdoneBy c h b l = l.map (prevail c h b) := by
  have hmap : outdoneBy c h b l = l.map fun e => (List.range 4).foldl (fun e i => e.outdone c.toNat (64 * h.toNat + 16 * i) (lane 128 b i)) e := by
    simp [outdoneBy, List.range_succ]
  refine hmap.trans (List.map_congr_left fun e _ => ?_)
  by_cases hkey : e.kind = 1 ∧ e.k = 1 ∧ e.reg.toNat = c.toNat ∧ e.byte.toNat / 64 = h.toNat ∧ e.byte.toNat % 16 = 0
  · rw [prevail, if_pos hkey]
    obtain ⟨hkind, hk, hreg, hhalf, halign⟩ := hkey
    obtain ⟨i, hi, hbyte⟩ : ∃ i < 4, e.byte.toNat = 64 * h.toNat + 16 * i := ⟨e.byte.toNat % 64 / 16, by omega, by omega⟩
    have hlane : b.extractLsb' (8 * (e.byte.toNat % 64)) 128 = lane 128 b i := by
      rw [lane, show 8 * (e.byte.toNat % 64) = 128 * i by omega]
    rw [hlane]
    interval_cases i <;> simp [List.range_succ, outdone_eq, hkind, hk, hreg, hbyte]
  · rw [prevail, if_neg hkey]
    have hne : ∀ i < 4, ∀ d, e.outdone c.toNat (64 * h.toNat + 16 * i) d = e := fun i hi d => by
      rw [outdone_eq, if_neg]
      rintro ⟨hkind, hk, hreg, hbyte⟩
      exact hkey ⟨hkind, hk, hreg, by omega, by omega⟩
    have h0 := hne 0 (by decide)
    rw [Nat.mul_zero, Nat.add_zero] at h0
    simp [List.range_succ, h0, hne 1 (by decide), hne 2 (by decide), hne 3 (by decide)]

/-- Settles O30: a scale by the largest binade of its block, `qmvsc` by its four pieces as one comparison. -/
theorem blockScalesAreFormedAndKept : Obligations.BlockScalesAreFormedAndKept := by
  refine fun s => ⟨fun i f n v c hi => ⟨_, exec_qmaxForm hi s, fun k hk => ?_⟩,
    fun c h => ⟨setField (rget c.toNat s.nc.regs.sc) (512 * h.toNat) 512 s.regs.byp, ?_, fun k hk => ?_⟩⟩
  · rw [blockScales, el_packLanes_map _ hk (by omega)]
    exact isScale_blockScale (blockEmax_qmaxTarget c) _
  · rw [← outdoneBy_eq]
    exact congrArg done (State.modR_modC ..)
  · have hh := h.isLt
    rw [getLsbD_setField _ _ _ _ hk]
    by_cases e : k / 512 = h.toNat
    · rw [if_pos (by omega), if_pos e, show k - 512 * h.toNat = k % 512 by omega]
    · rw [if_neg (by omega), if_neg e]

end Sys2Proof.Claims
end

section
/-! SUPPORT. Words of the M and SC slots that wait in a queue, and feed offsets (R66, R145, R212, R216 to R226, R229, R230): parts of the
statements `Obligations.MatrixWordsAndRowMoves` and `Obligations.ScalesStonesAndFeedOffsets`. -/

namespace Sys2Proof.Claims

open Sys2Proof.Machine

/-! ### Scale loads and stores (R66, R212) -/

theorem localOp_after (s : State) (act : LocalAct) (dest : Dest) : After s (s.localOp act dest) (issuedCtx s []) (localQueued s act dest) := by
  have h := (operation_after s).mapM (g := fun m => { m with locq := enqueue (localOf s act dest) m.locq }) (fun _ _ => rfl)
  rw [issuedCtx, List.append_nil]
  exact h

/-- A word that a local access follows: queued inside the window, refused outside it and off its alignment (R145). -/
theorem local_access {s : State} {i : Instr} {sp : Space} {a : W64} {n al : Nat} {k : Nat → Res}
    (h : exec i s = match s.old.local_ s.cx sp a n al with
      | .error e => s.raise e
      | .ok loc => k loc) :
    (inside s sp a n al → exec i s = k (place s sp a)) ∧ ((s.old.window s.cx sp).2 < a.toNat + n → trapsAt s i 0x11 1 a) ∧
    (a.toNat + n ≤ (s.old.window s.cx sp).2 → a.toNat % al ≠ 0 → trapsAt s i 0x03 0 a) := by
  refine ⟨fun hin => ?_, fun hout => ?_, fun hw hal => ?_⟩
  · rw [h, local_inside hin]
  · rw [local_outside hout] at h
    exact h
  · rw [local_misaligned hw hal] at h
    exact h

theorem scaleLoadsAndStoresAreQueued : ScaleLoadsAndStoresAreQueued := by
  intro s c a o
  have hreg : c.zeroExtend 8 = BitVec.ofNat 8 c.toNat := (BitVec.ofNat_toNat ..).symm
  have load_queued : ∀ {i : Instr} {n al : Nat}, exec i s = s.loadScale i c n al →
      (inside s .ll (s.wordAddr i) n al → ∃ t : State, exec i s = .next t ∧
        After s t { issuedCtx s [] with replay := s.nc.replay ++ scaleEntries c s.m.nextId }
          (localQueued s (.load [(place s .ll (s.wordAddr i), n)]) .scale)) ∧
      ((s.old.window s.cx .ll).2 < (s.wordAddr i).toNat + n → trapsAt s i 0x11 1 (s.wordAddr i)) ∧
      ((s.wordAddr i).toNat + n ≤ (s.old.window s.cx .ll).2 → (s.wordAddr i).toNat % al ≠ 0 → trapsAt s i 0x03 0 (s.wordAddr i)) := by
    intro i n al hi
    rw [State.loadScale, hreg] at hi
    obtain ⟨hin, hfaults⟩ := local_access hi
    exact ⟨fun h => ⟨_, hin h, (localOp_after s _ _).modC _⟩, hfaults⟩
  obtain ⟨hin, hfaults⟩ := local_access (i := .stsc c a o) (s := s)
    (k := fun loc => done (s.localOp (.store [(loc, bytesOf 128 (rget c.toNat s.regs.sc))]) .none)) rfl
  refine ⟨fun i n al hi => ?_, fun h => ⟨_, hin h, localOp_after s _ _⟩, hfaults⟩
  obtain ⟨rfl, rfl, rfl⟩ | ⟨rfl, rfl, rfl⟩ := hi
  · exact load_queued rfl
  · exact load_queued rfl

/-! ### Feed offsets (R219) -/

theorem foOff_eq (w : W32) : (foOff w).zeroExtend 64 = BitVec.ofNat 64 (offOf w) := by
  rw [foOff, extractLsb'_eq_ofNat, offOf, pow_zero, Nat.div_one]
  apply BitVec.eq_of_toNat_eq
  simp

theorem foNext_eq (w : W32) : foNext w = bumped w := by
  have hoff : (foOff w).toNat = offOf w := by simp [foOff, offOf]
  have hinc : (w.extractLsb' 21 11).toInt = incOf w := by rw [extractLsb'_eq_ofNat]; rfl
  have hx : (foOff w + ((w.extractLsb' 21 11).signExtend 21 <<< 5)).toNat = (((offOf w : Int) + 32 * incOf w) % 2 ^ 21).toNat := by
    rw [add_signExtend_shiftLeft, hoff, hinc, BitVec.toNat_ofInt]
    rfl
  apply BitVec.eq_of_toNat_eq
  rw [foNext, toNat_setField_low (by decide), hx, bumped, BitVec.toNat_ofNat, Nat.mod_eq_of_lt]
  have := w.isLt
  omega

/-- The post-increment of a feed offset, as the issue writes it (R219). -/
def postIncremented (s : State) (o : BitVec 3) (r : Regs) : Regs := { r with fo := rput o.toNat (bumped (feedOffset s o)) r.fo }

/-! ### The M queue (R216, R221) -/

theorem modCore_apart (k : Nat) (f : Core → Core) : Mach.ApartFromCtxs (fun m => m.modCore k f) := fun _ _ => rfl

/-- An M operation without a global feed: it waits in the core's queue, and the registers that it writes are pending. -/
theorem mop_after (s : State) (i : Instr) (w : W32) (base : W64) (reads : List (Nat × Nat)) (vec : VReg) (rs : List RegId) :
    ∃ t : State, s.mop i w base reads [] vec rs = .next t ∧
      After s t { s.nc with regs := withToken s s.m.nextId s.nc.regs, busy := s.nc.busy ++ rs }
        (withMOp s (newOp s) (mOpOf s i w base reads [] vec)) := by
  have hw : w.zeroExtend 64 = BitVec.ofNat 64 w.toNat := (BitVec.ofNat_toNat ..).symm
  have hq : s.earlierLocal [7, 8] = queuedBefore s := by
    simp only [State.earlierLocal, queuedBefore, List.contains_cons, List.contains_nil, Bool.or_false]
  have h := ((operation_after s).mapM (modCore_apart (coreOf s.cx) fun c => { c with mq := c.mq ++ [mOpOf s i w base reads [] vec] })).modC
    (fun c => { c with busy := c.busy ++ rs })
  refine ⟨_, ?_, h⟩
  rw [State.mop, hw, hq]
  cases reads <;> rfl

/-- The registers written at the issue, and then an M operation. -/
theorem mIssues_of_mop {s : State} {i : Instr} {f : Regs → Regs} {w : W32} {base : W64} {reads : List (Nat × Nat)} {vec : VReg}
    {rs : List RegId} (h : exec i s = (s.modR f).mop i w base reads [] vec rs) :
    mIssues i s (f s.nc.regs) (mOpOf s i w base reads [] vec) rs := by
  obtain ⟨t, ht, ha⟩ := mop_after (s.modR f) i w base reads vec rs
  have hnc : (s.modR f).nc = { s.nc with regs := f s.nc.regs } := Mach.ctx_modCtx_same ..
  rw [hnc] at ha
  exact ⟨t, h.trans ht, ha.of_modC fun _ => rfl⟩

/-! ### Loads of stones, tables and maps (R220, R225) -/

theorem exec_installForm {s : State} {i : Instr} {o : BitVec 3} {n al : Nat} (hi : installForm i = some (o, n, al)) :
    exec i s = s.guard i (s.install i o n al) ∧ litsOk s.lit s.iss.hdr.lits.toNat i = true := by
  cases i with
  | ldbS8 | ldbBf16 | ldbE4m3 | ldbE5m2 | ldbE2m1 | ldcv | ldbm => cases hi; exact ⟨rfl, rfl⟩
  | _ => cases hi

theorem stoneLoadsAndFeedOffsets : StoneLoadsAndFeedOffsets := by
  refine fun s => ⟨fun i o n al hi => ?_, fun o a => ⟨?_, ?_⟩⟩
  · obtain ⟨hexec, hlits⟩ := exec_installForm (s := s) hi
    have haccess := fun h : accepts s i => local_access (s := s) (i := i) (sp := .ll) (a := BitVec.ofNat 64 (offOf (feedOffset s o))) (n := n) (al := al)
      (k := fun loc => (s.modR (postIncremented s o)).mop i 0 0 [(loc, n)] [] 0 []) (by
        rw [hexec, State.guard_acts h, State.install, foOff_eq, foNext_eq]
        rfl)
    exact ⟨fun h hin => mIssues_of_mop ((haccess h).1 hin), fun h => (haccess h).2.1, fun h => (haccess h).2.2,
      fun h => hexec.trans (State.guard_not_held hlits h _)⟩
  · rw [← Nat.div_one (s.rg a).toNat, ← pow_zero 2, ← extractLsb'_eq_ofNat]
    rfl
  · have hx : (foOff (s.fo o) + (s.rg a).extractLsb' 0 21).toNat = (offOf (feedOffset s o) + (s.rg a).toNat) % 2 ^ 21 := by
      simp [foOff, offOf, feedOffset, State.fo]
    have hfo : setField (s.fo o) 0 21 (foOff (s.fo o) + (s.rg a).extractLsb' 0 21) = BitVec.ofNat 32
        ((feedOffset s o).toNat / 2 ^ 21 * 2 ^ 21 + (offOf (feedOffset s o) + (s.rg a).toNat) % 2 ^ 21) := by
      rw [← hx, feedOffset, ← State.fo, ← toNat_setField_low (by decide), BitVec.ofNat_toNat, BitVec.setWidth_eq]
    rw [← hfo]
    rfl

/-! ### Matrix words (R221 to R228) -/

theorem exec_matrixForm {s : State} {i : Instr} {o : BitVec 3} {w : W32} {f : MForm} (hi : matrixForm s i = some (o, w))
    (hf : mForm w i = some f) : exec i s = s.guard i (s.matrix i w f o) := by
  cases i with
  | mmBp2 | mmBp3 | mmBp4 | mmBp5 | mmBp6 | mmBp7 | mmBp8 | mmBf16 | mmx | dmm | dmmr => cases hi; cases hf; rfl
  | _ => cases hi

/-- The machine once the number of a feed's read has been taken and the read has joined the global operations. -/
def feedRead (s : State) (segs : List Seg) (m : Mach) : Mach :=
  { m with
    nextId := m.nextId + 1
    gops := m.takenBy s.cx s.oc.rid (clusterOf s.cx) segs ++ [globalOf s m.nextId s.needs (.read (.feed s.m.nextId)) segs
      (segs.flatMap (s.m.ownBytes s.oc.rid (clusterOf s.cx))) s.oc.trp.handler] }

theorem mop_feed_after (s : State) (i : Instr) (w : W32) (base : W64) (vec : VReg) {segs : List Seg} (hs : segs ≠ []) :
    ∃ t : State, s.mop i w base [] segs vec [] = .next t ∧
      After s t { s.nc with regs := withToken s s.m.nextId s.nc.regs } (feedQueued s (mOpOf s i w base [] segs vec) segs) := by
  have hw : w.zeroExtend 64 = BitVec.ofNat 64 w.toNat := (BitVec.ofNat_toNat ..).symm
  have h : After s _ { s.nc with regs := withToken s s.m.nextId s.nc.regs, busy := s.nc.busy ++ [] }
      (feedQueued s (mOpOf s i w base [] segs vec) segs) :=
    (((operation_after s).mapM (modCore_apart (coreOf s.cx) fun c => { c with mq := c.mq ++ [mOpOf s i w base [] segs vec] })).modC
      fun c => { c with busy := c.busy ++ [] }).mapM (g := feedRead s segs) fun _ _ => rfl
  rw [List.append_nil s.nc.busy] at h
  refine ⟨_, ?_, h⟩
  obtain ⟨l, hop⟩ : ∃ l, s.operation = (s.m.nextId, { s with m := { newOp s with ctxs := l } }) := ⟨_, Prod.ext rfl (operation_after s).2.2⟩
  rw [State.mop, hw, hop]
  cases segs with
  | nil => exact absurd rfl hs
  | cons => rfl

/-- An M operation with a global feed (R221, R240): its read joins the global operations. -/
theorem mop_feed {s : State} {i : Instr} {f : Regs → Regs} {w : W32} {base : W64} {segs : List Seg} {vec : VReg} (hs : segs ≠ [])
    (h : exec i s = (s.modR f).mop i w base [] segs vec []) : ∃ t : State, exec i s = .next t ∧
      After s t { s.nc with regs := withToken s s.m.nextId (f s.nc.regs) } (feedQueued s (mOpOf s i w base [] segs vec) segs) := by
  obtain ⟨t, ht, ha⟩ := mop_feed_after (s.modR f) i w base vec hs
  have hnc : (s.modR f).nc = { s.nc with regs := f s.nc.regs } := Mach.ctx_modCtx_same ..
  rw [hnc] at ha
  exact ⟨t, h.trans ht, ha.of_modC fun _ => rfl⟩

theorem matrixWordsAreQueued : MatrixWordsAreQueued := by
  intro s i o w f hi hf hacc
  have hexec : exec i s = s.matrix i w f o := (exec_matrixForm hi hf).trans (State.guard_acts hacc _)
  simp only [State.matrix, foOff_eq, foNext_eq] at hexec
  have hlocal := fun (hp : f.pieces ≠ []) (hg : f.ga = 0) => local_access (s := s) (i := i) (sp := .ll)
    (a := BitVec.ofNat 64 (offOf (feedOffset s o))) (n := (f.rows * f.segs - 1) * f.stride + f.segBytes) (al := 32)
    (k := fun loc => (s.modR (postIncremented s o)).mop i w
      (BitVec.ofNat 64 (offOf (feedOffset s o))) (f.pieces.map (fun p => (loc + p, f.segBytes))) [] (scalesFrom s f.scales) []) (by
        rw [hexec, if_neg (by simpa using hp), if_pos hg]
        rfl)
  refine ⟨fun hp => mIssues_of_mop (f := postIncremented s o) ?_,
    fun hp hg hin => mIssues_of_mop ((hlocal hp hg).1 hin), fun hp hg => (hlocal hp hg).2.1, fun hp hg => (hlocal hp hg).2.2,
    fun segs hp hg hs hfeed => mop_feed (f := postIncremented s o) hs ?_, fun c hp hg hfeed => ?_⟩
  · rw [hexec, if_pos (by simp [hp])]
    rfl
  · rw [hexec, if_neg (by simpa using hp), if_neg hg]
    simp only [feedOffset, State.fo] at hfeed ⊢
    rw [hfeed]
    rfl
  · rw [hexec, if_neg (by simpa using hp), if_neg hg]
    simp only [feedOffset, State.fo] at hfeed ⊢
    rw [hfeed]
    rfl

/-! ### Row moves (R229, R230) -/

theorem exec_moveForm {s : State} {i : Instr} {vec : VReg} {rs : List RegId} (hi : moveForm s i = some (vec, rs)) :
    exec i s = s.guard i (s.rowMove i vec rs) ∧ litsOk s.lit s.iss.hdr.lits.toNat i = true ∧ s.valuesOk i = true := by
  cases i with
  | dtap | ardF32 | ardS32 | aexp | awrF32 | awrS32 | aclr => cases hi; exact ⟨rfl, rfl, rfl⟩
  | _ => cases hi

theorem rowMovesAreQueued (s : State) {i : Instr} {vec : VReg} {rs : List RegId} (hi : moveForm s i = some (vec, rs)) :
    (heldBy s.place s.lit i = true → mIssues i s s.nc.regs (mOpOf s i 0 0 [] [] vec) rs) ∧
    (heldBy s.place s.lit i = false → exec i s = .next (refusedAt s 4)) := by
  obtain ⟨hexec, hlits, hvalues⟩ := exec_moveForm hi
  refine ⟨fun h => ?_, fun h => hexec.trans (State.guard_not_held hlits h _)⟩
  obtain ⟨t, ht, ha⟩ := mop_after s i 0 0 [] vec rs
  exact ⟨t, (hexec.trans (State.guard_acts ⟨hlits, h, hvalues⟩ _)).trans ht, ha⟩

end Sys2Proof.Claims
end

section
/-! SUPPORT. Rounding to the nearest integer, and the blocks of an accumulator tile (R106, R117, R118, R120). -/

namespace Sys2Proof.Machine

open Sys2Proof.Claims

/-! ### The nearest integer (R106) -/

theorem isNearest_neg {i e r : Int} (h : isNearest i e r) : isNearest (-i) e (-r) := by
  have hx : |((-i : Int) : ℝ) * (2 : ℝ) ^ e - ((-r : Int) : ℝ)| = |(i : ℝ) * (2 : ℝ) ^ e - r| := by
    rw [← abs_neg]
    congr 1
    push_cast
    ring
  rw [isNearest, hx]
  exact ⟨h.1, fun e => (h.2 e).neg_right⟩

/-- A number is at most half way from its nearest integer, and half way only from an even one: no other integer is nearest. -/
theorem isNearest_unique {i e r q : Int} (hr : isNearest i e r) (hq : isNearest i e q) : r = q := by
  wlog hlt : r < q generalizing r q
  · rcases lt_trichotomy r q with h | h | h
    · exact this hr hq h
    · exact h
    · exact (this hq hr h).symm
  obtain ⟨hr, hr2⟩ := hr
  obtain ⟨hq, hq2⟩ := hq
  generalize (i : ℝ) * (2 : ℝ) ^ e = x at *
  have hlow := (abs_le.mp hr).2
  have hhigh := (abs_le.mp hq).1
  have h1 : q = r + 1 := by
    have : (q : ℝ) ≤ ((r + 1 : Int) : ℝ) := by push_cast; linarith
    exact le_antisymm (Int.cast_le.mp this) hlt
  have hx : x - r = 1 / 2 := by
    rw [h1] at hhigh
    push_cast at hhigh
    linarith
  have hq' : x - q = -(1 / 2) := by rw [h1]; push_cast; linarith
  have he := hr2 (by rw [hx, abs_of_pos one_half_pos])
  have ho := hq2 (by rw [hq', abs_neg, abs_of_pos one_half_pos])
  omega

/-- The distance of `m` / 2^(`s` + 1) from an integer, in halves of the last place. -/
theorem isNearest_of_halves {m : Nat} {s : Nat} {k : Int} (hle : |(m : Int) - 2 * 2 ^ s * k| ≤ 2 ^ s)
    (heven : |(m : Int) - 2 * 2 ^ s * k| = 2 ^ s → 2 ∣ k) : isNearest m (-((s : Int) + 1)) k := by
  have hp : (0 : ℝ) < 2 ^ s := pow_pos two_pos s
  have hx : |((m : Int) : ℝ) * (2 : ℝ) ^ (-((s : Int) + 1)) - k| = ((|(m : Int) - 2 * 2 ^ s * k| : Int) : ℝ) / (2 * 2 ^ s) := by
    have hz : (2 : ℝ) ^ (-((s : Int) + 1)) = (2 * 2 ^ s)⁻¹ := by
      rw [zpow_neg, zpow_add₀ two_ne_zero, zpow_natCast, zpow_one, mul_comm]
    rw [hz, Int.cast_abs, ← abs_of_pos (mul_pos two_pos hp), ← abs_div, abs_of_pos (mul_pos two_pos hp)]
    congr 1
    push_cast
    field_simp
  rw [isNearest, hx, div_le_iff₀ (by positivity), div_eq_iff (by positivity)]
  refine ⟨?_, fun h => heven ?_⟩
  · have : ((|(m : Int) - 2 * 2 ^ s * k| : Int) : ℝ) ≤ ((2 ^ s : Int) : ℝ) := Int.cast_le.mpr hle
    push_cast at this ⊢
    linarith
  · have : ((|(m : Int) - 2 * 2 ^ s * k| : Int) : ℝ) = ((2 ^ s : Int) : ℝ) := by
      push_cast at h ⊢
      linarith
    exact Int.cast_injective this

theorem isNearest_roundAt (neg : Bool) (m : Nat) (e : Int) : isNearest m e (roundAt .rne neg m e 0).1 := by
  by_cases he : 0 ≤ e
  · have hv : ((m * 2 ^ (e - 0).toNat : Nat) : ℝ) = (m : ℝ) * (2 : ℝ) ^ e := by
      rw [sub_zero, Nat.cast_mul, Nat.cast_pow, Nat.cast_ofNat, ← zpow_natCast, Int.toNat_of_nonneg he]
    simp only [roundAt, if_pos he, isNearest, Int.cast_natCast, hv, sub_self, abs_zero]
    norm_num
  · obtain ⟨s, rfl⟩ : ∃ s : Nat, e = -((s : Int) + 1) := ⟨(-e - 1).toNat, by omega⟩
    have hs : (0 - -((s : Int) + 1)).toNat = s + 1 := by omega
    have hm := Nat.div_add_mod m (2 ^ (s + 1))
    have hlt := Nat.mod_lt m (Nat.two_pow_pos (s + 1))
    simp only [roundAt, if_neg he, hs]
    generalize m / 2 ^ (s + 1) = n at *
    generalize m % 2 ^ (s + 1) = rem at *
    subst hm
    have hpow : ((2 ^ s : Nat) : Int) = 2 ^ s := by push_cast; rfl
    cases hup : roundsUp .rne neg n rem (s + 1) with
    | false =>
      have hdown : rem ≤ 2 ^ s ∧ (rem = 2 ^ s → n % 2 = 0) := by
        simp only [roundsUp, Nat.add_sub_cancel] at hup
        split at hup
        · have := Nat.two_pow_pos s
          omega
        · simp only [Bool.or_eq_false_iff, decide_eq_false_iff_not, Bool.and_eq_false_iff, beq_eq_false_iff_ne] at hup
          omega
      have hd : ((2 ^ (s + 1) * n + rem : Nat) : Int) - 2 * 2 ^ s * n = rem := by push_cast; ring
      refine isNearest_of_halves ?_ ?_ <;> rw [if_neg Bool.false_ne_true, hd, Nat.abs_cast, ← hpow]
      · exact Int.ofNat_le.mpr hdown.1
      · exact fun h => Int.natCast_dvd_natCast.mpr (Nat.dvd_of_mod_eq_zero (hdown.2 (Int.ofNat_inj.mp h)))
    | true =>
      have hup : 2 ^ s ≤ rem ∧ (rem = 2 ^ s → n % 2 = 1) := by
        simp only [roundsUp, Nat.add_sub_cancel] at hup
        split at hup
        · cases hup
        · simp only [Bool.or_eq_true, decide_eq_true_eq, Bool.and_eq_true, beq_iff_eq] at hup
          omega
      have hd : ((2 ^ (s + 1) * n + rem : Nat) : Int) - 2 * 2 ^ s * ((n + 1 : Nat) : Int) = -(2 * 2 ^ s - rem) := by push_cast; ring
      rw [Nat.pow_succ] at hlt
      refine isNearest_of_halves ?_ ?_ <;> rw [if_pos rfl, hd, abs_neg, abs_of_nonneg (by omega), ← hpow]
      · omega
      · omega

/-- An integer rounded as R106 rounds it is the nearest (R118). -/
theorem isNearest_roundInt (neg : Bool) (m : Nat) (e : Int) : isNearest (if neg then -(m : Int) else m) e (roundInt .rne neg m e).1 := by
  cases neg with
  | false => exact isNearest_roundAt false m e
  | true => exact isNearest_neg (isNearest_roundAt true m e)

/-- The flags of a list of elements taken together: one of them, if any has it. -/
theorem getLsbD_foldl_or {α : Type} {w : Nat} (f : α → BitVec w) (k : Nat) (l : List α) (z : BitVec w) :
    (l.foldl (fun x a => x ||| f a) z).getLsbD k = (z.getLsbD k || l.any (fun a => (f a).getLsbD k)) := by
  induction l generalizing z with
  | nil => simp
  | cons a l ih => rw [List.foldl_cons, ih, BitVec.getLsbD_or, List.any_cons, Bool.or_assoc]

/-! ### Entries of packed words -/

/-- An entry of a word that holds packed words. -/
theorem el_el {w n c : Nat} (v : BitVec w) {i j : Nat} (hj : j < c) : el n (el (n * c) v i) j = el n v (c * i + j) := by
  apply BitVec.eq_of_getLsbD_eq
  intro b hb
  have hlt : n * j + b < n * c := by
    have := Nat.mul_le_mul_left n (Nat.succ_le_of_lt hj)
    rw [Nat.mul_succ] at this
    omega
  simp only [el, BitVec.getLsbD_extractLsb', hb, hlt, decide_true, Bool.true_and]
  congr 1
  ring

/-- An entry outside a field that is replaced. -/
theorem el_setField_other {w lo n k i : Nat} (h : k * (i + 1) ≤ lo ∨ lo + n ≤ k * i) (hw : k * (i + 1) ≤ w) (v : BitVec w) (x : BitVec n) :
    el k (setField v lo n x) i = el k v i :=
  extractLsb'_setField_other (by rw [Nat.mul_succ] at h; exact h) (by rw [Nat.mul_succ] at hw; exact hw) v x

/-- A field that is replaced, by its own entries. -/
theorem el_setField_same {w n c b : Nat} (hw : n * c * b + n * c ≤ w) (v : BitVec w) (x : BitVec (n * c)) {j : Nat} (hj : j < c) :
    el n (setField v (n * c * b) (n * c) x) (c * b + j) = el n x j := by
  rw [← el_el _ hj]
  exact congrArg (el n · j) (extractLsb'_setField_same hw v x)

/-! ### Blocks of a tile (R117) -/

/-- A block as a tile can hold it: 16 mantissas of 32 bits, and an exponent from -127 to 127 unless it is not finite. -/
structure Blk.Fits (k : Blk) : Prop where
  length : k.m.length = 16
  mantissa : ∀ v ∈ k.m, -(2 ^ 31) ≤ v ∧ v < 2 ^ 31
  exponent : ∀ x, k.x = some x → -127 ≤ x ∧ x ≤ 127

theorem Blk.fits_bad : Blk.bad.Fits := ⟨rfl, by decide, nofun⟩

theorem Blk.fits_clear : Blk.clear.Fits := ⟨rfl, by decide, fun x h => by cases h; decide⟩

theorem Tile.fits_blk (t : Tile) (r b : Nat) : (t.blk r b).Fits := by
  refine ⟨by simp [Tile.blk], fun v hv => ?_, fun x hx => ?_⟩
  · obtain ⟨j, -, rfl⟩ := List.mem_map.mp hv
    exact ⟨BitVec.le_toInt _, BitVec.toInt_lt⟩
  · simp only [Tile.blk, Tile.exp] at hx
    split at hx
    · cases hx
    · next h =>
      have hne : (lane 8 (rget r t.exps) b : BitVec 8).toInt ≠ -128 := fun e => h (BitVec.eq_of_toInt_eq e)
      have hlo := BitVec.le_toInt (lane 8 (rget r t.exps) b : BitVec 8)
      have hhi := BitVec.toInt_lt (x := (lane 8 (rget r t.exps) b : BitVec 8))
      cases hx
      omega

theorem toInt_ofInt_of_fits {v : Int} (h : -(2 ^ 31) ≤ v ∧ v < 2 ^ 31) : (BitVec.ofInt 32 v).toInt = v := by
  rw [BitVec.toInt_ofInt]
  exact Int.bmod_eq_of_le (by omega) (by omega)

theorem Tile.exp_setBlk_same (t : Tile) {r b : Nat} (hb : b < 16) {k : Blk} (hk : k.Fits) : (t.setBlk r b k).exp r b = k.x := by
  simp only [Tile.exp, Tile.setBlk, rget_rput_same, lane, extractLsb'_setField_same (show 8 * b + 8 ≤ 128 by omega)]
  cases hx : k.x with
  | none => rfl
  | some i =>
    obtain ⟨hlo, hhi⟩ := hk.exponent i hx
    have hi : (BitVec.ofInt 8 i).toInt = i := by
      rw [BitVec.toInt_ofInt]
      exact Int.bmod_eq_of_le (by omega) (by omega)
    have hne : BitVec.ofInt 8 i ≠ 0x80 := fun e => by
      rw [e] at hi
      simp at hi
      omega
    rw [if_neg hne, hi]

theorem Tile.mantissa_setBlk_same (t : Tile) {r b j : Nat} (hb : b < 16) (hj : j < 16) {k : Blk} (hk : k.Fits) :
    (t.setBlk r b k).mantissa r (16 * b + j) = k.m.getD j 0 := by
  have hlen := hk.length
  have hel : el 32 (setField (rget r t.mant) (512 * b) 512 (packLanes 512 (k.m.map (BitVec.ofInt 32)))) (16 * b + j) =
      BitVec.ofInt 32 (k.m.getD j 0) := by
    refine (el_setField_same (n := 32) (c := 16) (by omega) _ _ hj).trans ((el_packLanes _ (by omega)).trans ?_)
    rw [List.getD_eq_getElem _ _ (by simpa [hlen] using hj), List.getElem_map, List.getD_eq_getElem _ _ (by omega)]
  have hmem : k.m.getD j 0 ∈ k.m := by
    rw [List.getD_eq_getElem _ _ (by omega)]
    exact List.getElem_mem _
  rw [Tile.mantissa, Tile.setBlk, rget_rput_same]
  exact (congrArg BitVec.toInt hel).trans (toInt_ofInt_of_fits (hk.mantissa _ hmem))

/-- A block that is written is read back. -/
theorem Tile.blk_setBlk_same (t : Tile) {r b : Nat} (hb : b < 16) {k : Blk} (hk : k.Fits) : (t.setBlk r b k).blk r b = k := by
  have hm : (List.range 16).map (fun j => (t.setBlk r b k).mantissa r (16 * b + j)) = k.m := by
    refine List.ext_getElem (by simp [hk.length]) fun j hj hj' => ?_
    rw [List.getElem_map, List.getElem_range, t.mantissa_setBlk_same hb (by simpa using hj) hk, List.getD_eq_getElem _ _ hj']
  rw [Tile.blk, t.exp_setBlk_same hb hk, hm]

/-- Writing a block leaves the others as they are. -/
theorem Tile.blk_setBlk_other (t : Tile) {r b j c : Nat} (hc : c < 16) (h : ¬ (j = r ∧ c = b)) (k : Blk) : (t.setBlk r b k).blk j c = t.blk j c := by
  by_cases hr : j = r
  · subst hr
    have hcb : c ≠ b := fun e => h ⟨rfl, e⟩
    have hexp : (t.setBlk j b k).exp j c = t.exp j c := by
      simp only [Tile.exp, Tile.setBlk, rget_rput_same, lane]
      rw [extractLsb'_setField_other (by omega) (by omega)]
      rfl
    have hmant : ∀ i < 16, (t.setBlk j b k).mantissa j (16 * c + i) = t.mantissa j (16 * c + i) := fun i hi => by
      simp only [Tile.mantissa, Tile.setBlk, rget_rput_same, lane]
      rw [extractLsb'_setField_other (by omega) (by omega)]
    rw [Tile.blk, Tile.blk, hexp, List.map_congr_left fun i hi => hmant i (List.mem_range.mp hi)]
  · simp only [Tile.blk, Tile.exp, Tile.mantissa, Tile.setBlk, rget_rput_other hr]

/-! ### The single adder of a block (R118) -/

theorem accFrom_fits {k : Blk} {x : Int} {s : List (Int × Int)} (hk : k.m.length = 16) (hs : s.length = 16) {fuel : Nat} {y : Int} {b : Blk}
    (hy : -127 ≤ y) (hf : fuel = 0 ∨ y + fuel ≤ 128) (h : accFrom k x s fuel y = some b) : b.Fits := by
  induction fuel generalizing y with
  | zero => cases h
  | succ fuel ih =>
    rw [accFrom] at h
    split at h
    · next hall =>
      cases h
      refine ⟨by simp [hk, hs], fun v hv => ?_, fun x hx => ?_⟩
      · have := List.all_eq_true.mp hall v hv
        simp only [Bool.and_eq_true, decide_eq_true_eq] at this
        omega
      · cases hx
        omega
    · exact ih (by omega) (by omega) h

theorem fits_accAdd {k : Blk} (hk : k.Fits) {s : List (Int × Int)} (hs : s.length = 16) (nan : Bool) : (accAdd k s nan).1.Fits := by
  unfold accAdd
  split
  · exact Blk.fits_bad
  · next x hx =>
    have hxr := hk.exponent x hx
    split
    · exact Blk.fits_bad
    · dsimp only
      split
      · exact hk
      · split
        · next b hb =>
          exact accFrom_fits hk.length hs (by split <;> omega) (by omega) hb
        · exact Blk.fits_bad

theorem fits_takes {k : Blk} (hk : k.Fits) {l : List ((Int × Int) × Bool)} (hl : l.length = 16) : (takes k l).Fits :=
  fits_accAdd hk (by simp [hl]) _

end Sys2Proof.Machine
end

section
/-! SUPPORT. Row moves performed (R117, R120, R229, R230): the statement `Obligations.MatrixWordsAndRowMoves`. -/

namespace Sys2Proof.Machine

open Sys2Proof.Claims

/-! ### What a row move does (R216) -/

theorem Core.perform_dtap (c : Core) {o : EngOp} {v : BitVec 5} {t : BitVec 3} {r : BitVec 5} (h : o.ins = .dtap v t r) (bs : List (List Byte)) :
    c.perform o bs = (c, [(v.toNat, tileRows (fun i j => lane 32 (rget i (c.tile t.toNat).mant) j) r.toNat)], 0) := by
  rw [Core.perform, h]

theorem Core.perform_ardF32 (c : Core) {o : EngOp} {v : BitVec 5} {t : BitVec 3} {r : BitVec 5} (h : o.ins = .ardF32 v t r) (bs : List (List Byte)) :
    c.perform o bs = (c, [(v.toNat, tileRows (c.tile t.toNat).readF32 r.toNat)], 0) := by
  rw [Core.perform, h]

theorem Core.perform_ardS32 (c : Core) {o : EngOp} {v : BitVec 5} {t : BitVec 3} {r : BitVec 5} (h : o.ins = .ardS32 v t r) (bs : List (List Byte)) :
    c.perform o bs = (c, [(v.toNat, tileRows (fun i j => ((c.tile t.toNat).readS32 i j).1) r.toNat)],
      (List.range 1024).foldl (fun x i => x ||| ((c.tile t.toNat).readS32 (laneRow r.toNat i) (laneCol i)).2) 0) := by
  rw [Core.perform, h]

theorem Core.perform_aexp (c : Core) {o : EngOp} {v : BitVec 5} {t : BitVec 3} {r : BitVec 5} (h : o.ins = .aexp v t r) (bs : List (List Byte)) :
    c.perform o bs = (c, [(v.toNat, expRows (c.tile t.toNat) r.toNat)], 0) := by
  rw [Core.perform, h]

theorem Core.perform_aclr (c : Core) {o : EngOp} {t : BitVec 3} (h : o.ins = .aclr t) (bs : List (List Byte)) :
    c.perform o bs = (c.putTile t.toNat Tile.zero, [], 0) := by
  rw [Core.perform, h]

theorem signed_natAbs (i : Int) : (if decide (i < 0) then -(i.natAbs : Int) else i.natAbs) = i := by
  by_cases h : i < 0
  · rw [if_pos (decide_eq_true h)]
    omega
  · rw [if_neg (by simpa using h)]
    omega

theorem exact_numOfS32 (z : W32) : (numOfS32 z).exact = some (z.toInt, 0) := congrArg (fun i => some (i, (0 : Int))) (signed_natAbs z.toInt)

theorem Core.perform_awr (c : Core) {o : EngOp} {v : BitVec 5} {t : BitVec 3} {r : BitVec 5} (h : o.ins = .awrF32 v t r ∨ o.ins = .awrS32 v t r)
    (bs : List (List Byte)) : ∃ num : W32 → Machine.Num,
    c.perform o bs = (c.putTile t.toNat ((c.tile t.toNat).writeRows r.toNat ((lanes 32 1024 o.vec).map num)).1, [],
      ((c.tile t.toNat).writeRows r.toNat ((lanes 32 1024 o.vec).map num)).2) ∧
    ∀ z, ((num z).exact.getD (0, 0), (num z).exact.isNone) = if o.ins = .awrS32 v t r then ((z.toInt, 0), false) else wordArrival z := by
  obtain h | h := h
  · refine ⟨numF32, by rw [Core.perform, h], fun z => ?_⟩
    rw [h, if_neg (by nofun), wordArrival]
    cases (numF32 z).exact <;> rfl
  · refine ⟨numOfS32, by rw [Core.perform, h], fun z => ?_⟩
    rw [if_pos h, exact_numOfS32]
    rfl

/-! ### Four rows of a tile as a vector (R229) -/

theorem el_tileRows (f : Nat → Nat → W32) (r : Nat) {k : Nat} (hk : k < 1024) : el 32 (tileRows f r) k = f (r + k / 256) (k % 256) :=
  el_packLanes_map _ hk (by omega)

theorem el_expRows (t : Tile) (r : Nat) {k : Nat} (hk : k < 4096) :
    el 8 (expRows t r) k = if k < 64 then el 8 (rget (r + k / 16) t.exps) (k % 16) else 0 := by
  split
  · next h64 =>
    have hlow : el 8 (expRows t r) k = el 8 (packLanes 512 ((List.range 4).map (fun i => rget (r + i) t.exps)) : BitVec 512) k := by
      refine BitVec.eq_of_getLsbD_eq fun b hb => ?_
      have hlt : 8 * k + b < 32768 := by omega
      simp only [el, expRows, BitVec.getLsbD_extractLsb', BitVec.getLsbD_setWidth, hlt, decide_true, Bool.true_and]
    have hel := el_el (n := 8) (c := 16) (packLanes 512 ((List.range 4).map (fun i => rget (r + i) t.exps)) : BitVec 512) (i := k / 16)
      (Nat.mod_lt k (by decide : 0 < 16))
    rw [Nat.div_add_mod] at hel
    rw [hlow, ← hel, el_packLanes_map _ (by omega) (by omega)]
  · next h64 =>
    refine BitVec.eq_of_getLsbD_eq fun b hb => ?_
    rw [el, expRows, BitVec.getLsbD_extractLsb', BitVec.getLsbD_setWidth, BitVec.getLsbD_of_ge _ (8 * k + b) (by omega)]
    simp

/-! ### A column read as an integer (R120) -/

theorem readS32_nearest {t : Tile} {r c : Nat} {e n : Int} (he : t.exp r (c / 16) = some e) (hn : isNearest (t.mantissa r c) e n) :
    (t.readS32 r c).1.toInt = max (-(2 ^ 31)) (min n (2 ^ 31 - 1)) ∧ (n < -(2 ^ 31) ∨ 2 ^ 31 - 1 < n → (t.readS32 r c).2.getLsbD 4 = true) := by
  have hi : (roundInt .rne (decide (t.mantissa r c < 0)) (t.mantissa r c).natAbs e).1 = n := by
    have h := isNearest_roundInt (decide (t.mantissa r c < 0)) (t.mantissa r c).natAbs e
    rw [signed_natAbs] at h
    exact isNearest_unique h hn
  simp only [Tile.readS32, Tile.col, he, numToInt, hi]
  split
  · exact ⟨(toInt_ofInt_of_fits (by omega)).trans (by omega), fun _ => rfl⟩
  · split
    · exact ⟨(toInt_ofInt_of_fits (by omega)).trans (by omega), fun _ => rfl⟩
    · exact ⟨(toInt_ofInt_of_fits (by omega)).trans (by omega), fun _ => by omega⟩

/-! ### Pieces of a list -/

theorem take_drop_map_range {α : Type} (f : Nat → α) {a c n : Nat} (h : a + c ≤ n) :
    (((List.range n).map f).drop a).take c = (List.range c).map fun k => f (a + k) := by
  refine List.ext_getElem (by simp; omega) fun k hk hk' => ?_
  simp

theorem chunks_eq {α : Type} (w : Nat) : ∀ (n : Nat) (l : List α), chunks w n l = (List.range n).map fun i => (l.drop (w * i)).take w
  | 0, _ => rfl
  | n + 1, l => by
    rw [chunks, chunks_eq w n, List.range_succ_eq_map, List.map_cons, List.map_map, Nat.mul_zero, List.drop_zero]
    simp [Function.comp_def, Nat.mul_succ, Nat.add_comm]

theorem zip_range_map {α : Type} (n : Nat) (f : Nat → α) : List.zip (List.range n) ((List.range n).map f) = (List.range n).map fun i => (i, f i) := by
  refine List.ext_getElem (by simp) fun k hk hk' => ?_
  simp

theorem zip_range_chunks {α : Type} (w n : Nat) (l : List α) :
    List.zip (List.range n) (chunks w n l) = (List.range n).map fun i => (i, (l.drop (w * i)).take w) := by
  rw [chunks_eq, zip_range_map]

/-! ### Four rows written (R230) -/

/-- Blocks written one after another: one that some of them write, all to the same, or that holds it and none writes. -/
theorem blk_foldl_setBlk {α : Type} {row col : α → Nat} {val : α → Blk × XF} {j b : Nat} (hb : b < 16) {k : Blk} (l : List α)
    (hval : ∀ a ∈ l, (val a).1.Fits ∧ (row a = j ∧ col a = b → (val a).1 = k)) (z : Tile × XF)
    (hk : z.1.blk j b = k ∨ ∃ a ∈ l, row a = j ∧ col a = b) :
    (l.foldl (fun (acc : Tile × XF) a => (acc.1.setBlk (row a) (col a) (val a).1, acc.2 ||| (val a).2)) z).1.blk j b = k := by
  induction l generalizing z with
  | nil => exact hk.resolve_right (by simp)
  | cons a l ih =>
    obtain ⟨hfit, hkey⟩ := hval a List.mem_cons_self
    refine ih (fun a ha => hval a (List.mem_cons_of_mem _ ha)) _ ?_
    by_cases hp : row a = j ∧ col a = b
    · left
      rw [← hkey hp]
      obtain ⟨rfl, rfl⟩ := hp
      exact Tile.blk_setBlk_same _ hb hfit
    · have hrest : z.1.blk j b = k ∨ ∃ c ∈ l, row c = j ∧ col c = b := by simpa [hp] using hk
      exact hrest.imp_left fun h => (Tile.blk_setBlk_other _ hb (fun e => hp ⟨e.1.symm, e.2.symm⟩) _).trans h

/-- The blocks of `awr`: each of the four rows takes its 16 lanes as one arrival (R120, R230). -/
theorem blk_writeRows (t : Tile) (r : Nat) (v : VReg) (num : W32 → Machine.Num) {j b : Nat} (hb : b < 16) :
    (t.writeRows r ((lanes 32 1024 v).map num)).1.blk j b = if r ≤ j ∧ j < r + 4
      then takes Blk.clear ((List.range 16).map fun k => let z := num (el 32 v (256 * (j - r) + 16 * b + k)); (z.exact.getD (0, 0), z.exact.isNone))
      else t.blk j b := by
  have hchunk : ∀ i < 64, (((lanes 32 1024 v).map num).drop (16 * i)).take 16 = (List.range 16).map fun k => num (el 32 v (16 * i + k)) := by
    intro i hi
    rw [lanes, List.map_map, take_drop_map_range _ (by omega)]
    rfl
  have hfold : t.writeRows r ((lanes 32 1024 v).map num) = (List.range 64).foldl (fun (acc : Tile × XF) i =>
      (acc.1.setBlk (r + i / 16) (i % 16) (blkOf ((List.range 16).map fun k => num (el 32 v (16 * i + k)))).1,
        acc.2 ||| (blkOf ((List.range 16).map fun k => num (el 32 v (16 * i + k)))).2)) (t, 0) := by
    rw [Tile.writeRows, zip_range_chunks, List.foldl_map]
    exact List.foldl_ext _ _ _ fun acc i hi => by rw [hchunk i (List.mem_range.mp hi)]
  rw [hfold]
  refine blk_foldl_setBlk hb _ (fun i hi => ⟨fits_accAdd Blk.fits_clear (by simp) _, fun hp => ?_⟩) _ ?_
  · obtain ⟨rfl, rfl⟩ := hp
    have hi := List.mem_range.mp hi
    rw [if_pos (by omega), show 256 * (r + i / 16 - r) + 16 * (i % 16) = 16 * i by omega]
    simp only [takes, List.map_map, List.any_map, Function.comp_def]
  · split
    · exact .inr ⟨16 * (j - r) + b, List.mem_range.mpr (by omega), by omega, by omega⟩
    · exact .inl rfl

end Sys2Proof.Machine

namespace Sys2Proof.Claims

open Sys2Proof.Machine

theorem rowMovesAreQueuedAndPerformed : RowMovesAreQueuedAndPerformed := by
  refine ⟨fun s i vec rs hi => rowMovesAreQueued s hi,
    fun c o v t r => ⟨fun h => ?_, fun h => ?_, fun h => ?_, fun h => ?_, fun h => ?_, fun h => ?_⟩⟩
  · exact ⟨_, c.perform_dtap h [], fun k hk => el_tileRows _ _ hk⟩
  · refine ⟨_, c.perform_ardF32 h [], fun k hk => ?_⟩
    rw [el_tileRows _ _ hk, Tile.readF32, Tile.col]
    cases (c.tile t.toNat).exp (r.toNat + k / 256) (k % 256 / 16) <;> rfl
  · refine ⟨_, _, c.perform_ardS32 h [], fun k hk e n he hn => ?_⟩
    obtain ⟨hval, hinv⟩ := readS32_nearest he hn
    refine ⟨by rw [el_tileRows _ _ hk, hval], fun hout => ?_⟩
    rw [getLsbD_foldl_or, Bool.or_eq_true, List.any_eq_true]
    exact .inr ⟨k, List.mem_range.mpr hk, hinv hout⟩
  · exact ⟨_, c.perform_aexp h [], fun k hk => el_expRows _ _ hk⟩
  · exact c.perform_aclr h []
  · obtain ⟨num, hperf, hnum⟩ := c.perform_awr h []
    refine ⟨_, _, hperf, fun j b hb => ?_⟩
    rw [blk_writeRows _ _ _ _ hb]
    simp only [hnum]

/-- Settles O33: matrix words by the rule of the M queue, row moves by the blocks and the columns of the tile. -/
theorem matrixWordsAndRowMoves : Obligations.MatrixWordsAndRowMoves := ⟨matrixWordsAreQueued, rowMovesAreQueuedAndPerformed⟩

end Sys2Proof.Claims
end

section
/-! SUPPORT. Exact sums, branch sums, curves and second-level sums (R116, R121 to R123, R226): a part of the statement
`Obligations.ScalesStonesAndFeedOffsets`. -/

namespace Sys2Proof.Machine

open Sys2Proof.Claims

/-! ### Exact sums (R116) -/

/-- The value of an integer × a power of two. -/
noncomputable def termValue (p : Int × Int) : ℝ := (p.1 : ℝ) * (2 : ℝ) ^ p.2

/-- The exponent that a search for the least has found: none before a nonzero term, else one that no such term is below. -/
def IsLeastExp (l : List (Int × Int)) : Option Int → Prop
  | none => ∀ p ∈ l, p.1 = 0
  | some e => ∀ p ∈ l, p.1 ≠ 0 → e ≤ p.2

/-- One step of `leastExp`. -/
def lowerExp (acc : Option Int) (p : Int × Int) : Option Int :=
  if p.1 = 0 then acc else match acc with
    | none => some p.2
    | some e => some (min e p.2)

theorem leastExp_eq (l : List (Int × Int)) : leastExp l = (l.foldl lowerExp none).getD 0 := rfl

theorem IsLeastExp.step {l : List (Int × Int)} {acc : Option Int} (h : IsLeastExp l acc) (p : Int × Int) : IsLeastExp (l ++ [p]) (lowerExp acc p) := by
  unfold lowerExp
  by_cases hp : p.1 = 0
  · rw [if_pos hp]
    cases acc with
    | none => exact List.forall_mem_append.mpr ⟨h, List.forall_mem_singleton.mpr hp⟩
    | some e => exact List.forall_mem_append.mpr ⟨h, List.forall_mem_singleton.mpr fun hne => absurd hp hne⟩
  · rw [if_neg hp]
    cases acc with
    | none => exact List.forall_mem_append.mpr ⟨fun q hq hne => absurd (h q hq) hne, List.forall_mem_singleton.mpr fun _ => le_refl _⟩
    | some e => exact List.forall_mem_append.mpr ⟨fun q hq hne => (min_le_left ..).trans (h q hq hne),
        List.forall_mem_singleton.mpr fun _ => min_le_right ..⟩

theorem isLeastExp_foldl (l : List (Int × Int)) : IsLeastExp l (l.foldl lowerExp none) := by
  induction l using List.reverseRecOn with
  | nil => exact List.forall_mem_nil _
  | append_singleton l q ih =>
    rw [List.foldl_append]
    exact ih.step q

theorem leastExp_le {l : List (Int × Int)} {p : Int × Int} (hp : p ∈ l) (hne : p.1 ≠ 0) : leastExp l ≤ p.2 := by
  have h := isLeastExp_foldl l
  rw [leastExp_eq]
  cases hacc : l.foldl lowerExp none with
  | none => exact absurd ((hacc ▸ h : IsLeastExp l none) p hp) hne
  | some e => exact (hacc ▸ h : IsLeastExp l (some e)) p hp hne

/-- Terms put to a common exponent that none is below, added up. -/
theorem foldl_common_exponent {e : Int} (l : List (Int × Int)) (h : ∀ p ∈ l, e ≤ p.2) (z : Int) :
    ((l.foldl (fun (acc : Int) p => acc + p.1 * 2 ^ (p.2 - e).toNat) z : Int) : ℝ) * (2 : ℝ) ^ e = z * (2 : ℝ) ^ e + (l.map termValue).sum := by
  induction l generalizing z with
  | nil => simp
  | cons p l ih =>
    have hp := h p List.mem_cons_self
    have hpow : (2 : ℝ) ^ (p.2 - e).toNat * (2 : ℝ) ^ e = (2 : ℝ) ^ p.2 := by
      rw [← zpow_natCast, ← zpow_add₀ two_ne_zero, Int.toNat_of_nonneg (by omega)]
      congr 1
      omega
    rw [List.foldl_cons, ih fun q hq => h q (List.mem_cons_of_mem _ hq), List.map_cons, List.sum_cons, termValue, ← hpow]
    push_cast
    ring

theorem sum_filter_nonzero (l : List (Int × Int)) : ((l.filter fun p => p.1 != 0).map termValue).sum = (l.map termValue).sum := by
  induction l with
  | nil => rfl
  | cons p l ih =>
    by_cases hp : p.1 = 0
    · rw [List.filter_cons_of_neg (by simpa using hp), ih, List.map_cons, List.sum_cons, termValue, hp, Int.cast_zero, zero_mul, zero_add]
    · rw [List.filter_cons_of_pos (by simpa using hp), List.map_cons, List.map_cons, List.sum_cons, List.sum_cons, ih]

/-- The exact sum is the sum. -/
theorem termValue_sumExact (l : List (Int × Int)) : termValue (sumExact l) = (l.map termValue).sum := by
  have h := foldl_common_exponent (e := leastExp (l.filter fun p => p.1 != 0)) (l.filter fun p => p.1 != 0)
    (fun p hp => leastExp_le hp (by simpa using (List.mem_filter.mp hp).2)) 0
  rw [sum_filter_nonzero, Int.cast_zero, zero_mul, zero_add] at h
  rw [← h, sumExact, termValue]
  dsimp only
  split
  · next h0 => rw [h0, Int.cast_zero, zero_mul, zero_mul]
  · rfl

/-! ### Branch sums (R121) -/

/-- What K block `kb` gives to a branch sum: the product sum with its exponent, and its mark. -/
def groupTerm (p : Nat × FeedRow × StoneCol) (kb : Nat) : (Int × Int) × Bool :=
  ((dotInt (p.2.1.a.getD kb []) (p.2.2.c.getD kb []), p.2.1.e.getD kb 0 + p.2.2.e.getD kb 0), p.2.1.nan.getD kb false || p.2.2.nan.getD kb false)

/-- The groups of a branch in a line-up of rows and columns. -/
def groupsOf (bm : BitVec 256) (b : Nat) (l : List (Nat × FeedRow × StoneCol)) : List ((Int × Int) × Bool) :=
  l.flatMap fun p => (List.range 16).filterMap fun kb => if groupBranch bm p.1 kb = b then some (groupTerm p kb) else none

/-- A row and a column of 16 K blocks each (R114, R115). -/
def OfBlocks (p : Nat × FeedRow × StoneCol) : Prop :=
  p.2.1.a.length = 16 ∧ p.2.1.e.length = 16 ∧ p.2.1.nan.length = 16 ∧ p.2.2.c.length = 16 ∧ p.2.2.e.length = 16 ∧ p.2.2.nan.length = 16

theorem zip_groups {p : Nat × FeedRow × StoneCol} (h : OfBlocks p) :
    List.zip (List.range 16) (List.zip (blockTerms p.2.1 p.2.2) (blockNan p.2.1 p.2.2)) = (List.range 16).map fun kb => (kb, groupTerm p kb) := by
  obtain ⟨ha, he, hn, hc, hce, hcn⟩ := h
  refine List.ext_getElem (by simp [blockTerms, blockNan, *]) fun kb hkb hkb' => ?_
  have hlt : kb < 16 := by simpa using hkb'
  simp [blockTerms, blockNan, groupTerm, List.getD_eq_getElem?_getD, *]

theorem branchSum_eq {bm : BitVec 256} {b : Nat} {l : List (Nat × FeedRow × StoneCol)} (h : ∀ p ∈ l, OfBlocks p) :
    branchSum bm b l = if (groupsOf bm b l).any (fun g => g.2) then BitVec.ofNat 32 fmtF32.nan
      else roundSum (sumExact ((groupsOf bm b l).map fun g => g.1)) := by
  have hg : l.flatMap (fun p => (List.zip (List.range 16) (List.zip (blockTerms p.2.1 p.2.2) (blockNan p.2.1 p.2.2))).filterMap fun q =>
      if branchOf bm p.1 q.1 = b then some q.2 else none) = groupsOf bm b l := by
    refine List.flatMap_congr fun p hp => ?_
    rw [zip_groups (h p hp), List.filterMap_map]
    rfl
  rw [branchSum, hg]

theorem any_groupsOf (bm : BitVec 256) (b : Nat) (l : List (Nat × FeedRow × StoneCol)) : (groupsOf bm b l).any (fun g => g.2) = true ↔
    ∃ p ∈ l, ∃ kb < 16, groupBranch bm p.1 kb = b ∧ (p.2.1.nan.getD kb false = true ∨ p.2.2.nan.getD kb false = true) := by
  simp only [groupsOf, groupTerm, List.any_eq_true, List.mem_flatMap, List.mem_filterMap, List.mem_range, Option.ite_none_right_eq_some,
    Option.some.injEq]
  constructor
  · rintro ⟨-, ⟨p, hp, kb, hkb, hb, rfl⟩, hmark⟩
    exact ⟨p, hp, kb, hkb, hb, Bool.or_eq_true_iff.mp hmark⟩
  · rintro ⟨p, hp, kb, hkb, hb, hmark⟩
    exact ⟨_, ⟨p, hp, kb, hkb, hb, rfl⟩, Bool.or_eq_true_iff.mpr hmark⟩

theorem sum_filterMap_ite {α β : Type} (P : α → Prop) (hP : DecidablePred P) (g : α → β) (v : β → ℝ) (l : List α) :
    ((l.filterMap fun a => if P a then some (g a) else none).map v).sum = (l.map fun a => if P a then v (g a) else 0).sum := by
  induction l with
  | nil => rfl
  | cons a l ih =>
    by_cases h : P a
    · simp [h, ih]
    · simp [h, ih]

theorem sum_groupsOf (bm : BitVec 256) (b : Nat) (l : List (Nat × FeedRow × StoneCol)) :
    (((groupsOf bm b l).map fun g => g.1).map termValue).sum = (l.map fun p => ((List.range 16).map fun kb =>
      if groupBranch bm p.1 kb = b then termValue (groupTerm p kb).1 else 0).sum).sum := by
  rw [groupsOf, List.map_map, List.map_flatMap, List.flatMap, List.sum_flatten, List.map_map]
  congr 1
  refine List.map_congr_left fun p _ => ?_
  exact sum_filterMap_ite (fun kb => groupBranch bm p.1 kb = b) _ (groupTerm p) (termValue ∘ fun g => g.1) _

/-! ### Curves and second-level sums (R122, R123) -/

/-- The last index that passes. -/
theorem foldl_last {P : Nat → Prop} [DecidablePred P] {n i : Nat} (hi : P i ∧ i < n ∨ i = 0) (hlast : ∀ j < n, i < j → ¬ P j) :
    (List.range n).foldl (fun acc j => if P j then j else acc) 0 = i := by
  induction n with
  | zero => exact (hi.resolve_left (by omega)).symm
  | succ n ih =>
    rw [List.range_succ, List.foldl_append, List.foldl_cons, List.foldl_nil]
    by_cases hn : i = n
    · subst hn
      by_cases hp : P i
      · rw [if_pos hp]
      · obtain rfl : i = 0 := hi.resolve_left (fun h => hp h.1)
        rw [if_neg hp]
        rfl
    · have hlt : i < n := by omega
      rw [if_neg (hlast n (Nat.lt_succ_self n) hlt)]
      exact ih (hi.imp_left fun h => ⟨h.1, hlt⟩) fun j hj => hlast j (by omega)

end Sys2Proof.Machine

namespace Sys2Proof.Claims

open Sys2Proof.Machine

theorem branches_present (bm : BitVec 256) (stones : List Nat) : (presentBranches bm stones).Pairwise (fun a b => a < b) ∧
    ∀ b, b ∈ presentBranches bm stones ↔ isPresent bm stones b := by
  refine ⟨(List.pairwise_lt_range).filter _, fun b => ?_⟩
  simp only [presentBranches, isPresent, List.mem_filter, List.mem_range, List.any_eq_true, beq_iff_eq]
  rfl

theorem curveAt_nan {cv : BitVec 6144} {x : W32} (h : numF32 x = .nan) : curveAt cv x = (BitVec.ofNat 32 fmtF32.nan, BitVec.ofNat 32 fmtF32.nan) := by
  rw [curveAt, if_pos (by simp [h])]

theorem curveAt_segment {cv : BitVec 6144} {x : W32} (h : numF32 x ≠ .nan) {i : Nat} (hi : i < 64)
    (hstart : leNum (numF32 (curveField cv i 0)) (numF32 x) = true ∨ i = 0)
    (hlast : ∀ j < 64, i < j → ¬ leNum (numF32 (curveField cv j 0)) (numF32 x) = true) :
    curveAt cv x = (BitVec.ofNat 32 (fop fmtF32 .fma .rne (curveField cv i 1).toNat x.toNat (curveField cv i 2).toNat).1,
      if numF32 (curveField cv i 1) = .nan then BitVec.ofNat 32 fmtF32.nan else curveField cv i 1) := by
  have hsel := foldl_last (P := fun j => leNum (numF32 (curveField cv j 0)) (numF32 x) = true) (n := 64) (hstart.imp_left fun h => ⟨h, hi⟩) hlast
  rw [curveAt, if_neg (by simpa using h), hsel]
  simp only [beq_iff_eq]

theorem secondLevel_append {l : List W32} (h : l ≠ []) (z : W32) :
    secondLevel (l ++ [z]) = BitVec.ofNat 32 (fop fmtF32 .add .rne (secondLevel l).toNat z.toNat 0).1 := by
  cases l with
  | nil => exact absurd rfl h
  | cons y l => rw [List.cons_append, secondLevel, List.foldl_append, List.foldl_cons, List.foldl_nil, secondLevel]

theorem branchSumsAndCurves : BranchSumsAndCurves := by
  refine ⟨fun bm stones => ⟨(branches_present bm stones).1, fun _ => (branches_present bm stones).2⟩, fun bm b l hl => ⟨fun hm => ?_, fun hm => ?_⟩,
    fun cv x => ?_, rfl, fun _ => rfl, fun l z h => secondLevel_append h z⟩
  · rw [branchSum_eq fun p hp => (hl p hp).2, if_pos ((any_groupsOf bm b l).mpr hm)]
  · rw [branchSum_eq fun p hp => (hl p hp).2, if_neg (mt (any_groupsOf bm b l).mp hm)]
    refine ⟨_, _, rfl, (termValue_sumExact _).trans ((sum_groupsOf bm b l).trans ?_)⟩
    simp only [termValue, groupTerm, dotInt, List.sum_eq_foldl]
  · have hfield : ∀ i k, curveField cv i k = cv.extractLsb' (96 * i + 32 * k) 32 := fun i k => by
      rw [curveField, lane, Nat.mul_add, ← Nat.mul_assoc]
    simp only [← hfield]
    exact ⟨curveAt_nan, fun i hi hx hs hl => curveAt_segment hx hi hs hl⟩

end Sys2Proof.Claims
end

section
/-! SUPPORT. Stones, curve tables and branch maps filled (R114, R220, R225): a part of the statement `Obligations.ScalesStonesAndFeedOffsets`. -/

namespace Sys2Proof.Machine

open Sys2Proof.Claims

/-! ### Records listed once -/

/-- What a map holds under a key that is listed, always with one record. -/
theorem kget_eq_some_of_mem {α : Type} {k : Nat} {v : α} {l : KMap α} (hmem : (k, v) ∈ l) (huniq : ∀ w, (k, w) ∈ l → w = v) :
    kget k l = some v := by
  induction l with
  | nil => cases hmem
  | cons p l ih =>
    obtain ⟨j, w⟩ := p
    by_cases hj : j = k
    · subst hj
      rw [kget, if_pos rfl, huniq w List.mem_cons_self]
    · rw [kget, if_neg hj]
      exact ih ((List.mem_cons.mp hmem).resolve_left fun e => hj (Prod.ext_iff.mp e).1.symm) fun w hw => huniq w (List.mem_cons_of_mem _ hw)

/-- An element of one of the lists of `w` elements that follow each other. -/
theorem getElem?_flatMap_const {α β : Type} {f : α → List β} {w : Nat} {l : List α} (hf : ∀ a ∈ l, (f a).length = w) {k : Nat} {a : α}
    (hk : l[k]? = some a) {i : Nat} (hi : i < w) : (l.flatMap f)[w * k + i]? = (f a)[i]? := by
  induction l generalizing k with
  | nil => cases hk
  | cons b l ih =>
    have hb := hf b List.mem_cons_self
    rw [List.flatMap_cons]
    cases k with
    | zero =>
      obtain rfl : b = a := Option.some.inj hk
      rw [Nat.mul_zero, Nat.zero_add, List.getElem?_append_left (by omega)]
    | succ k =>
      rw [Nat.mul_succ, List.getElem?_append_right (by omega), show w * k + w + i - (f b).length = w * k + i by omega]
      exact ih (fun c hc => hf c (List.mem_cons_of_mem _ hc)) hk

theorem getD_take_drop {α : Type} (l : List α) (d : α) {a c i : Nat} (hi : i < c) : ((l.drop a).take c).getD i d = l.getD (a + i) d := by
  rw [List.getD_eq_getElem?_getD, List.getD_eq_getElem?_getD, List.getElem?_take_of_lt hi, List.getElem?_drop]

/-! ### A stone from its K blocks (R114) -/

/-- The stone whose column `n` has the K blocks `f n 0` to `f n 15`. -/
def stoneFrom (f : Nat → Nat → List Int × Int × Bool) : Stone := stoneOf ((List.range 256).map fun n => (List.range 16).map (f n))

section
variable {f : Nat → Nat → List Int × Int × Bool}

theorem cells_stoneFrom {n : Nat} (hn : n < 256) :
    rget n (stoneFrom f).cells = packLanes 3072 ((((List.range 16).map (f n)).flatMap fun b => b.1).map (BitVec.ofInt 12)) := by
  rw [stoneFrom, stoneOf]
  dsimp only
  rw [zip_range_map, List.foldl_map]
  exact rget_foldl_rput _ hn

theorem mem_exps_stoneFrom {k : Nat} {e : Int} :
    (k, e) ∈ (stoneFrom f).exps ↔ ∃ n < 256, ∃ kb < 16, (f n kb).2.1 ≠ 0 ∧ 16 * n + kb = k ∧ (f n kb).2.1 = e := by
  rw [stoneFrom, stoneOf]
  simp only [zip_range_map, List.flatMap_map, List.filterMap_map, List.mem_flatMap, List.mem_filterMap, List.mem_range, Function.comp_apply,
    Option.ite_none_left_eq_some, Option.some.injEq, Prod.mk.injEq, ne_eq]

theorem mem_nan_stoneFrom {k : Nat} : k ∈ (stoneFrom f).nan ↔ ∃ n < 256, ∃ kb < 16, (f n kb).2.2 = true ∧ 16 * n + kb = k := by
  rw [stoneFrom, stoneOf]
  simp only [zip_range_map, List.flatMap_map, List.filterMap_map, List.mem_flatMap, List.mem_filterMap, List.mem_range, Function.comp_apply,
    Option.ite_none_right_eq_some, Option.some.injEq]

theorem kgetD_exps_stoneFrom {n kb : Nat} (hn : n < 256) (hkb : kb < 16) : kgetD 0 (16 * n + kb) (stoneFrom f).exps = (f n kb).2.1 := by
  have hplace : ∀ {n' kb'}, kb' < 16 → 16 * n' + kb' = 16 * n + kb → n' = n ∧ kb' = kb := by omega
  by_cases h0 : (f n kb).2.1 = 0
  · rw [h0, kgetD, kget_eq_none, Option.getD_none]
    rintro hk
    obtain ⟨⟨k, e⟩, hmem, rfl⟩ := List.mem_map.mp hk
    obtain ⟨n', -, kb', hkb', hne, hk, -⟩ := mem_exps_stoneFrom.mp hmem
    obtain ⟨rfl, rfl⟩ := hplace hkb' hk
    exact hne h0
  · rw [kgetD, kget_eq_some_of_mem (mem_exps_stoneFrom.mpr ⟨n, hn, kb, hkb, h0, rfl, rfl⟩), Option.getD_some]
    intro e he
    obtain ⟨n', -, kb', hkb', -, hk, rfl⟩ := mem_exps_stoneFrom.mp he
    obtain ⟨rfl, rfl⟩ := hplace hkb' hk
    rfl

theorem getD_map_range {α : Type} (g : Nat → α) {k n : Nat} (hk : k < n) (d : α) : ((List.range n).map g).getD k d = g k := by
  rw [List.getD_eq_getElem?_getD, List.getElem?_map, List.getElem?_range hk]
  rfl

theorem exp_column {n kb : Nat} (hn : n < 256) (hkb : kb < 16) (d : Int) : ((stoneFrom f).column n).e.getD kb d = (f n kb).2.1 := by
  rw [Stone.column, getD_map_range _ hkb, kgetD_exps_stoneFrom hn hkb]

theorem nan_column {n kb : Nat} (hn : n < 256) (hkb : kb < 16) (d : Bool) : ((stoneFrom f).column n).nan.getD kb d = (f n kb).2.2 := by
  rw [Stone.column, getD_map_range _ hkb, Bool.eq_iff_iff, List.contains_iff_mem, mem_nan_stoneFrom]
  constructor
  · rintro ⟨n', -, kb', hkb', hmark, hk⟩
    obtain ⟨rfl, rfl⟩ : n' = n ∧ kb' = kb := by omega
    exact hmark
  · exact fun hmark => ⟨n, hn, kb, hkb, hmark, rfl⟩

theorem cell_column {n kb j : Nat} (hf : ∀ kb < 16, (f n kb).1.length = 16) (hn : n < 256) (hkb : kb < 16) (hj : j < 16) :
    (((stoneFrom f).column n).c.getD kb []).getD j 0 = (BitVec.ofInt 12 ((f n kb).1.getD j 0)).toInt := by
  have hcol : (((List.range 16).map (f n)).flatMap fun b => b.1)[16 * kb + j]? = (f n kb).1[j]? := by
    have hlen : ∀ b ∈ (List.range 16).map (f n), b.1.length = 16 := by
      rintro b hb
      obtain ⟨kb, hkb, rfl⟩ := List.mem_map.mp hb
      exact hf kb (List.mem_range.mp hkb)
    exact getElem?_flatMap_const hlen (by rw [List.getElem?_map, List.getElem?_range hkb]; rfl) hj
  have hel : lane 12 (rget n (stoneFrom f).cells) (16 * kb + j) = BitVec.ofInt 12 ((f n kb).1.getD j 0) := by
    rw [cells_stoneFrom hn]
    refine (el_packLanes _ (by omega)).trans ?_
    rw [List.getD_eq_getElem?_getD, List.getElem?_map, hcol, List.getD_eq_getElem?_getD, List.getElem?_eq_getElem (by rw [hf kb hkb]; exact hj)]
    rfl
  rw [Stone.column, chunks_eq, getD_map_range _ hkb, lanes, List.map_map, take_drop_map_range _ (by omega), getD_map_range _ hj]
  exact congrArg BitVec.toInt hel

end

/-! ### Blocks aligned (R114) -/

theorem length_alignBlock (top : Int) (x : List Machine.Num) : (alignBlock top x).1.length = x.length := by
  unfold alignBlock
  split
  · exact List.length_map ..
  · split <;> exact List.length_map ..

/-- The largest binade of a block by its bounds. -/
theorem maxLog2_eq_some {x : Nat → Machine.Num} {top : Int} (hlt : ∀ j < 16, |realOf (x j)| < (2 : ℝ) ^ (top + 1))
    (hge : ∃ j < 16, (2 : ℝ) ^ top ≤ |realOf (x j)|) : maxLog2 ((List.range 16).map x) = some top := by
  have htop := isTopLog_maxLog2 ((List.range 16).map x)
  obtain ⟨i, hi, hge⟩ := hge
  have two_cast : ((2 : Nat) : ℝ) = 2 := Nat.cast_ofNat
  have hpos : 0 < |realOf (x i)| := (zpow_pos two_pos top).trans_le hge
  have hmem : x i ∈ (List.range 16).map x := List.mem_map.mpr ⟨i, List.mem_range.mpr hi, rfl⟩
  cases hm : maxLog2 ((List.range 16).map x) with
  | none => exact absurd ((hm ▸ htop : IsTopLog _ none) _ hmem) (abs_pos.mp hpos)
  | some e =>
    obtain ⟨⟨y, hy, hy0, hlog⟩, hle⟩ := (hm ▸ htop : IsTopLog _ (some e))
    obtain ⟨j, hj, rfl⟩ := List.mem_map.mp hy
    have hlow : top ≤ e := ((Int.zpow_le_iff_le_log one_lt_two hpos).mp (by rw [two_cast]; exact hge)).trans (hle _ hmem (abs_pos.mp hpos))
    have hhigh : e < top + 1 := hlog ▸ (Int.lt_zpow_iff_log_lt one_lt_two (abs_pos.mpr hy0)).mp (by rw [two_cast]; exact hlt j (List.mem_range.mp hj))
    rw [le_antisymm (Int.lt_add_one_iff.mp hhigh) hlow]

theorem blockFrom_alignBlock (x : Nat → Machine.Num) :
    blockFrom x (fun j => (BitVec.ofInt 12 ((alignBlock 10 ((List.range 16).map x)).1.getD j 0)).toInt) (alignBlock 10 ((List.range 16).map x)).2.1
      (alignBlock 10 ((List.range 16).map x)).2.2 := by
  have hfinite : (∀ j < 16, (x j).isFin = true) → ¬ ((List.range 16).map x).any (fun v => !v.isFin) = true := fun h => by simpa using h
  refine ⟨fun h => ?_, fun h => ?_, fun h => ?_, fun top h hge => ?_⟩
  · rw [alignBlock, if_pos (by simpa using h)]
  · rw [alignBlock, if_neg (hfinite h)]
    split <;> rfl
  · have hnone : maxLog2 ((List.range 16).map x) = none := by
      cases hm : maxLog2 ((List.range 16).map x) with
      | none => rfl
      | some e =>
        obtain ⟨⟨y, hy, hy0, -⟩, -⟩ := (hm ▸ isTopLog_maxLog2 ((List.range 16).map x) : IsTopLog _ (some e))
        obtain ⟨j, hj, rfl⟩ := List.mem_map.mp hy
        exact absurd (h j (List.mem_range.mp hj)).2 hy0
    rw [alignBlock, if_neg (hfinite fun j hj => (h j hj).1), hnone]
    refine ⟨rfl, fun j hj => ?_⟩
    dsimp only
    rw [List.map_map, getD_map_range _ hj]
    rfl
  · rw [alignBlock, if_neg (hfinite fun j hj => (h j hj).1), maxLog2_eq_some (fun j hj => (h j hj).2) hge]
    refine ⟨rfl, fun j hj neg m q hx => ⟨_, ?_, rfl⟩⟩
    dsimp only
    rw [List.map_map, getD_map_range _ hj, Function.comp_apply, hx, alignTo, add_sub_assoc]
    exact isNearest_roundInt neg m _

/-! ### B images (R220) -/

theorem stoneBytes_eq (bs : List Byte) : stoneBytes bs =
    stoneFrom fun n kb => (((((bs.drop (256 * n)).take 256).drop (16 * kb)).take 16).map BitVec.toInt, 0, false) := by
  simp only [stoneBytes, stoneFrom, chunks_eq, List.map_map, Function.comp_def]

/-- Element `j` of K block `kb` of column `n` of an image in a floating-point format, under its scale where the form has scales. -/
def imageElem (f : Fmt) (w : Nat) (scaled : Bool) (bs : List Byte) (n kb j : Nat) : Machine.Num :=
  let per := 256 * w / 8
  let x := f.decode (lane w (ofBytes 4096 ((bs.drop (per * n)).take per)) (16 * kb + j) : BitVec w).toNat
  if scaled then dequant (bs.getD (256 * per + 16 * n + kb) 0) x else x

theorem stoneImage_eq (f : Fmt) (w : Nat) (scaled : Bool) (bs : List Byte) : stoneImage f w scaled bs =
    stoneFrom fun n kb => alignBlock 10 ((List.range 16).map (imageElem f w scaled bs n kb)) := by
  rw [stoneImage, stoneFrom]
  dsimp only
  rw [zip_range_chunks, List.map_map]
  refine congrArg stoneOf (List.map_congr_left fun n hn => ?_)
  rw [Function.comp_apply]
  dsimp only
  rw [zip_range_chunks, List.map_map]
  refine List.map_congr_left fun kb hkb => ?_
  have hn := List.mem_range.mp hn
  have hkb := List.mem_range.mp hkb
  rw [Function.comp_apply]
  dsimp only
  rw [take_drop_map_range _ (by omega), chunks_eq, getD_map_range _ hn, getD_take_drop _ _ hkb, List.getD_eq_getElem?_getD, List.getElem?_drop,
    ← List.getD_eq_getElem?_getD, ← Nat.add_assoc]
  cases scaled with
  | false => rfl
  | true => rw [if_pos rfl, List.map_map]; rfl

theorem underScale_eq (sc : Byte) (x : Machine.Num) : dequant sc x = underScale sc x := by
  unfold dequant underScale
  split
  · rfl
  · cases x with
    | fin => simp only [add_sub_assoc]
    | _ => rfl

theorem toNat_nibble (x : Byte) {i : Nat} : (el 4 x i).toNat = x.toNat / 16 ^ i % 16 := by
  rw [el, BitVec.extractLsb'_toNat, Nat.shiftRight_eq_div_pow, Nat.pow_mul]

theorem toNat_pair (x : BitVec 16) : x.toNat = (el 8 x 0).toNat + 256 * (el 8 x 1).toNat := by
  have := x.isLt
  simp only [el, BitVec.extractLsb'_toNat, Nat.shiftRight_eq_div_pow]
  omega

theorem leNat_of_length_le_two : ∀ l : List Byte, l.length ≤ 2 → leNat l = (l.getD 0 0).toNat + 256 * (l.getD 1 0).toNat
  | [], _ => rfl
  | [_], _ => rfl
  | [_, _], _ => rfl
  | _ :: _ :: _ :: _, h => by simp at h

theorem leNat_pair (bs : List Byte) (i : Nat) : leNat ((bs.drop i).take 2) = (bs.getD i 0).toNat + 256 * (bs.getD (i + 1) 0).toNat := by
  rw [leNat_of_length_le_two _ (List.length_take_le ..), getD_take_drop _ _ (by decide), getD_take_drop _ _ (by decide), Nat.add_zero]

/-- Byte `k` of a column of an image. -/
theorem el_column {W per : Nat} (bs : List Byte) (n : Nat) {k : Nat} (hk : k < per) (hW : 8 * (k + 1) ≤ W) :
    el 8 (ofBytes W ((bs.drop (per * n)).take per)) k = bs.getD (per * n + k) 0 :=
  (el_packLanes _ hW).trans (getD_take_drop _ _ hk)

end Sys2Proof.Machine

namespace Sys2Proof.Claims

open Sys2Proof.Machine

/-- The floating-point images: format, width of an element, whether scales follow. -/
def imageFormat : Instr → Option (Fmt × Nat × Bool)
  | .ldbBf16 _ _ => some (fmtBf16, 16, false)
  | .ldbE4m3 _ _ => some (fmtE4m3, 8, true)
  | .ldbE5m2 _ _ => some (fmtE5m2, 8, true)
  | .ldbE2m1 _ _ => some (fmtE2m1, 4, true)
  | _ => none

theorem imageElem_eq {i : Instr} {f : Fmt} {w : Nat} {scaled : Bool} (hi : imageFormat i = some (f, w, scaled)) (b : List Byte) {n kb j : Nat}
    (hkb : kb < 16) (hj : j < 16) : imageNum i b n kb j = some (imageElem f w scaled b n kb j) := by
  have hbyte : ∀ g : Fmt, imageElem g 8 true b n kb j =
      underScale (b.getD (65536 + 16 * n + kb) 0) (g.decode (b.getD (256 * n + 16 * kb + j) 0).toNat) := by
    intro g
    have hval : el 8 (ofBytes 4096 ((b.drop (256 * n)).take 256)) (16 * kb + j) = b.getD (256 * n + 16 * kb + j) 0 := by
      rw [el_column b n (by omega) (by omega), Nat.add_assoc]
    rw [imageElem, if_pos rfl, underScale_eq, ← hval]
    rfl
  cases i with
  | ldbE4m3 | ldbE5m2 => cases hi; exact congrArg some (hbyte _).symm
  | ldbBf16 =>
    cases hi
    have hval : (el 16 (ofBytes 4096 ((b.drop (512 * n)).take 512)) (16 * kb + j)).toNat = leNat ((b.drop (2 * (256 * n + 16 * kb + j))).take 2) := by
      rw [toNat_pair, el_el (n := 8) (c := 2) _ (by decide), el_el (n := 8) (c := 2) _ (by decide), el_column b n (by omega) (by omega),
        el_column b n (by omega) (by omega), leNat_pair]
      congr 2 <;> ring_nf
    exact congrArg (fun v => some (fmtBf16.decode v)) hval.symm
  | ldbE2m1 =>
    cases hi
    have hval : (el 4 (ofBytes 4096 ((b.drop (128 * n)).take 128)) (16 * kb + j)).toNat =
        (b.getD ((256 * n + 16 * kb + j) / 2) 0).toNat / 16 ^ ((256 * n + 16 * kb + j) % 2) % 16 := by
      have hplace : 16 * kb + j = 2 * ((16 * kb + j) / 2) + (16 * kb + j) % 2 := by omega
      rw [hplace, ← el_el (n := 4) (c := 2) _ (Nat.mod_lt _ (by decide)), toNat_nibble, el_column b n (by omega) (by omega),
        show (256 * n + 16 * kb + j) / 2 = 128 * n + (16 * kb + j) / 2 by omega, show (256 * n + 16 * kb + j) % 2 = (16 * kb + j) % 2 by omega]
    have hscale : imageElem fmtE2m1 4 true b n kb j = underScale (b.getD (32768 + 16 * n + kb) 0)
        (fmtE2m1.decode (el 4 (ofBytes 4096 ((b.drop (128 * n)).take 128)) (16 * kb + j)).toNat) := by
      rw [imageElem, if_pos rfl, underScale_eq]
      rfl
    rw [hscale, hval]
    rfl
  | _ => cases hi

/-! ### Loads performed (R216, R220, R225) -/

theorem perform_image {c : Core} {o : EngOp} {b : List Byte} {f : Fmt} {w : Nat} {scaled : Bool} {n k : Nat} (hf : imageFormat o.ins = some (f, w, scaled))
    (hk : imageForm o.ins = some (n, k)) : c.perform o [b] = ({ c with stones := kput k (stoneImage f w scaled b) c.stones }, [], 0) := by
  have hb : [b].flatten = b := List.flatten_singleton
  cases hi : o.ins with
  | ldbBf16 | ldbE4m3 | ldbE5m2 | ldbE2m1 =>
    rw [hi] at hf hk
    cases hf
    cases hk
    rw [Core.perform, hi, hb]
  | _ => rw [hi] at hf; cases hf

theorem perform_bytes {c : Core} {o : EngOp} {b : List Byte} {k : BitVec 2} {d : BitVec 3} (h : o.ins = .ldbS8 k d) :
    c.perform o [b] = ({ c with stones := kput k.toNat (stoneBytes b) c.stones }, [], 0) := by
  rw [Core.perform, h, List.flatten_singleton]

theorem perform_curves {c : Core} {o : EngOp} {b : List Byte} {k : BitVec 2} {d : BitVec 3} (h : o.ins = .ldcv k d) :
    c.perform o [b] = ({ c with cv := rput k.toNat (ofBytes 6144 b) c.cv }, [], 0) := by
  rw [Core.perform, h, List.flatten_singleton]

theorem perform_branches {c : Core} {o : EngOp} {b : List Byte} {k : BitVec 2} {d : BitVec 3} (h : o.ins = .ldbm k d) :
    c.perform o [b] = ({ c with bm := rput k.toNat (ofBytes 256 b) c.bm }, [], 0) := by
  rw [Core.perform, h, List.flatten_singleton]

/-- The forms that fill a stone are `ldb.s8` and those with a floating-point format. -/
theorem imageForm_cases {i : Instr} {n k : Nat} (h : imageForm i = some (n, k)) :
    (∃ a d, i = .ldbS8 a d ∧ n = 65536 ∧ k = a.toNat) ∨ ((∃ f w scaled, imageFormat i = some (f, w, scaled)) ∧ ∀ a d, i ≠ .ldbS8 a d) := by
  cases i with
  | ldbS8 a d => cases h; exact .inl ⟨a, d, rfl, rfl, rfl⟩
  | ldbBf16 | ldbE4m3 | ldbE5m2 | ldbE2m1 => exact .inr ⟨⟨_, _, _, rfl⟩, nofun⟩
  | _ => cases h

theorem blockFrom_congr {x : Nat → Machine.Num} {cell cell' : Nat → Int} {e : Int} {marked : Bool} (h : ∀ j < 16, cell j = cell' j)
    (hb : blockFrom x cell e marked) : blockFrom x cell' e marked := by
  obtain ⟨hbad, hgood, hzero, hcells⟩ := hb
  refine ⟨hbad, hgood, fun hz => ⟨(hzero hz).1, fun j hj => (h j hj).symm.trans ((hzero hz).2 j hj)⟩, fun top hlt hge => ?_⟩
  obtain ⟨he, hcell⟩ := hcells top hlt hge
  refine ⟨he, fun j hj neg m q hx => ?_⟩
  obtain ⟨r, hr, hv⟩ := hcell j hj neg m q hx
  exact ⟨r, hr, (h j hj).symm.trans hv⟩

theorem getD_map_toInt (l : List Byte) (j : Nat) : (l.map BitVec.toInt).getD j 0 = (l.getD j 0).toInt := by
  rw [List.getD_eq_getElem?_getD, List.getElem?_map, List.getD_eq_getElem?_getD]
  cases l[j]? <;> rfl

/-- A byte is a number of a cell. -/
theorem toInt_ofInt_byte (x : Byte) : (BitVec.ofInt 12 x.toInt).toInt = x.toInt := by
  have hlo := BitVec.le_toInt x
  have hhi := BitVec.toInt_lt (x := x)
  rw [BitVec.toInt_ofInt]
  exact Int.bmod_eq_of_le (by omega) (by omega)

theorem stonesAndTablesAreFilled : StonesAndTablesAreFilled := by
  refine fun c o b => ⟨fun n k hk hlen => ?_, fun k d hi hlen => ⟨_, perform_curves hi, fun j hj => el_packLanes _ (by omega)⟩,
    fun k d hi hlen => ⟨_, perform_branches hi, fun g hg => ?_⟩⟩
  · obtain ⟨a, d, hi, rfl, rfl⟩ | ⟨⟨f, w, scaled, hf⟩, hi⟩ := imageForm_cases hk
    · refine ⟨_, perform_bytes hi, fun col kb hcol hkb => ⟨fun _ => ?_, fun v hv => ?_⟩⟩
      · rw [stoneBytes_eq]
        refine ⟨exp_column hcol hkb 1, nan_column hcol hkb true, fun j hj => ?_⟩
        refine (cell_column (fun kb hkb => by simp; omega) hcol hkb hj).trans ?_
        rw [getD_map_toInt, getD_take_drop _ _ hj, getD_take_drop _ _ (by omega), ← Nat.add_assoc, toInt_ofInt_byte]
      · have := hv 0 (by decide)
        rw [hi] at this
        cases this
    · refine ⟨_, perform_image hf hk, fun col kb hcol hkb => ⟨fun ⟨a, d, h⟩ => absurd h (hi a d), fun v hv => ?_⟩⟩
      have hcol' : (List.range 16).map (imageElem f w scaled b col kb) = (List.range 16).map v :=
        List.map_congr_left fun j hj => Option.some.inj ((imageElem_eq hf b hkb (List.mem_range.mp hj)).symm.trans (hv j (List.mem_range.mp hj)))
      have h := blockFrom_alignBlock v
      rw [← hcol'] at h
      rw [stoneImage_eq, exp_column hcol hkb, nan_column hcol hkb]
      exact blockFrom_congr (fun j hj => (cell_column (fun kb _ => by simp [length_alignBlock]) hcol hkb hj).symm) h
  · have hnibble : (el 4 (ofBytes 256 b) (2 * (g / 2) + g % 2)).toNat = (b.getD (g / 2) 0).toNat / 16 ^ (g % 2) % 16 := by
      rw [← el_el (n := 4) (c := 2) _ (Nat.mod_lt _ (by decide)), toNat_nibble]
      exact congrArg (fun x : Byte => x.toNat / 16 ^ (g % 2) % 16) (el_packLanes b (by omega))
    rw [Nat.div_add_mod] at hnibble
    exact hnibble

end Sys2Proof.Claims
end

section
/-! SUPPORT. Dendritic forms performed (R118, R121 to R123, R226 to R228): the statement `Obligations.ScalesStonesAndFeedOffsets`. -/

namespace Sys2Proof.Machine

open Sys2Proof.Claims

/-! ### Arrivals at the rows of a tile (R118) -/

theorem Tile.arrive_succ (t : Tile) (r n : Nat) (l : List ((Int × Int) × Bool)) (b : Nat) :
    (t.arrive r (n + 1) l b).1 = ((t.setBlk r b (takes (t.blk r b) (l.take 16))).arrive r n (l.drop 16) (b + 1)).1 := rfl

/-- Each block of a row takes its 16 arrivals, and no other block changes. -/
theorem Tile.blk_arrive {r j c : Nat} (hc : c < 16) (n : Nat) (t : Tile) (l : List ((Int × Int) × Bool)) (b : Nat) (hl : l.length = 16 * n)
    (hb : b + n ≤ 16) : (t.arrive r n l b).1.blk j c =
      if j = r ∧ b ≤ c ∧ c < b + n then takes (t.blk j c) ((l.drop (16 * (c - b))).take 16) else t.blk j c := by
  induction n generalizing t l b with
  | zero => rw [if_neg (by omega)]; rfl
  | succ n ih =>
    rw [Tile.arrive_succ, ih _ _ _ (by rw [List.length_drop]; omega) (by omega)]
    by_cases hjc : j = r ∧ c = b
    · obtain ⟨rfl, rfl⟩ := hjc
      rw [if_neg (by omega), if_pos (by omega), Tile.blk_setBlk_same _ hc (fits_takes (Tile.fits_blk ..) (by simp; omega)), Nat.sub_self]
      rfl
    · rw [Tile.blk_setBlk_other _ hc hjc, List.drop_drop]
      by_cases h : j = r ∧ b + 1 ≤ c ∧ c < b + 1 + n
      · rw [if_pos h, if_pos (by omega), show 16 + 16 * (c - (b + 1)) = 16 * (c - b) by omega]
      · rw [if_neg h, if_neg (by omega)]

/-- A step of a loop that lets 256 sums arrive at a row of the tile. -/
def ArrivesAt {α β : Type} (tile : β → Tile) (row : α → Nat) (sums : α → List ((Int × Int) × Bool)) (step : β → α → β) : Prop :=
  ∀ acc a, tile (step acc a) = ((tile acc).arrive (row a) 16 (sums a) 0).1

section
variable {α β : Type} {tile : β → Tile} {row : α → Nat} {sums : α → List ((Int × Int) × Bool)} {step : β → α → β}

/-- A row that no step of a loop comes to. -/
theorem ArrivesAt.blk_other (h : ArrivesAt tile row sums step) {l : List α} (hl : ∀ a ∈ l, (sums a).length = 256) {j c : Nat} (hc : c < 16)
    (hj : ∀ a ∈ l, row a ≠ j) (z : β) : (tile (l.foldl step z)).blk j c = (tile z).blk j c := by
  induction l generalizing z with
  | nil => rfl
  | cons a l ih =>
    rw [List.foldl_cons, ih (fun b hb => hl b (List.mem_cons_of_mem _ hb)) fun b hb => hj b (List.mem_cons_of_mem _ hb), h,
      Tile.blk_arrive hc 16 _ _ 0 (hl a List.mem_cons_self) (by omega), if_neg fun e => hj a List.mem_cons_self e.1.symm]

/-- A row that one step of a loop comes to takes that step's arrivals. -/
theorem ArrivesAt.blk_once (h : ArrivesAt tile row sums step) {l : List α} (hl : ∀ a ∈ l, (sums a).length = 256) (hnd : (l.map row).Nodup) {a : α}
    (ha : a ∈ l) {c : Nat} (hc : c < 16) (z : β) :
    (tile (l.foldl step z)).blk (row a) c = takes ((tile z).blk (row a) c) (((sums a).drop (16 * c)).take 16) := by
  induction l generalizing z with
  | nil => cases ha
  | cons b l ih =>
    obtain ⟨hb, hnd⟩ := List.nodup_cons.mp hnd
    have hl' := fun q hq => hl q (List.mem_cons_of_mem b hq)
    rw [List.foldl_cons]
    obtain rfl | ha := List.mem_cons.mp ha
    · rw [h.blk_other hl' hc fun q hq e => hb (List.mem_map.mpr ⟨q, hq, e⟩), h, Tile.blk_arrive hc 16 _ _ 0 (hl a List.mem_cons_self) (by omega),
        if_pos ⟨rfl, by omega, by omega⟩, Nat.sub_zero]
    · have hne : row a ≠ row b := fun e => hb (e ▸ List.mem_map_of_mem ha)
      rw [ih hl' hnd ha, h, Tile.blk_arrive hc 16 _ _ 0 (hl b List.mem_cons_self) (by omega), if_neg fun e => hne e.1]

end

/-! ### Taps (R227) -/

theorem Tile.setTap_of_lt (t : Tile) {row : Nat} (h : row < 32) (n : Nat) (w : W32) : t.setTap row n w =
    { mant := rput row (setField (rget row t.mant) (32 * n) 32 w) t.mant, exps := rput row 0 t.exps } := if_pos h

/-- Another row keeps what it holds. -/
theorem Tile.setTap_other (t : Tile) {row r : Nat} (h : r ≠ row) (n : Nat) (w : W32) :
    rget r (t.setTap row n w).mant = rget r t.mant ∧ rget r (t.setTap row n w).exps = rget r t.exps := by
  unfold Tile.setTap
  split
  · exact ⟨rget_rput_other h _ t.mant, rget_rput_other h (0 : BitVec 128) t.exps⟩
  · exact ⟨rfl, rfl⟩

/-- Words of taps written one after another. -/
def Tile.setTaps (t : Tile) (l : List (Nat × Nat × W32)) : Tile := l.foldl (fun (q : Tile) p => q.setTap p.1 p.2.1 p.2.2) t

theorem Tile.setTaps_other {r : Nat} {l : List (Nat × Nat × W32)} (h : ∀ p ∈ l, p.1 ≠ r) (t : Tile) :
    rget r (t.setTaps l).mant = rget r t.mant ∧ rget r (t.setTaps l).exps = rget r t.exps := by
  induction l generalizing t with
  | nil => exact ⟨rfl, rfl⟩
  | cons p l ih =>
    obtain ⟨hm, he⟩ := ih (fun q hq => h q (List.mem_cons_of_mem _ hq)) (t.setTap p.1 p.2.1 p.2.2)
    obtain ⟨hm', he'⟩ := t.setTap_other (h p List.mem_cons_self).symm p.2.1 p.2.2
    exact ⟨hm.trans hm', he.trans he'⟩

/-- A row below row 32 that is written has exponents of 0. -/
theorem Tile.exps_setTaps {r : Nat} (hr : r < 32) {l : List (Nat × Nat × W32)} (t : Tile) (h : rget r t.exps = 0 ∨ ∃ p ∈ l, p.1 = r) :
    rget r (t.setTaps l).exps = 0 := by
  induction l generalizing t with
  | nil => exact h.resolve_right (by simp)
  | cons p l ih =>
    refine ih (t.setTap p.1 p.2.1 p.2.2) ?_
    by_cases hp : p.1 = r
    · left
      rw [hp, t.setTap_of_lt hr, rget_rput_same]
    · have hrest : rget r t.exps = 0 ∨ ∃ q ∈ l, q.1 = r := by simpa [hp] using h
      exact hrest.imp_left fun h0 => (t.setTap_other (Ne.symm hp) _ _).2.trans h0

/-- A word that some of them write, all to the same, or that holds it and none writes. -/
theorem Tile.el_setTaps {r k : Nat} (hr : r < 32) (hk : k < 256) {w : W32} {l : List (Nat × Nat × W32)} (t : Tile)
    (hval : ∀ p ∈ l, p.1 = r → p.2.1 = k → p.2.2 = w) (h : el 32 (rget r t.mant) k = w ∨ ∃ p ∈ l, p.1 = r ∧ p.2.1 = k) :
    el 32 (rget r (t.setTaps l).mant) k = w := by
  induction l generalizing t with
  | nil => exact h.resolve_right (by simp)
  | cons p l ih =>
    refine ih (t.setTap p.1 p.2.1 p.2.2) (fun q hq => hval q (List.mem_cons_of_mem _ hq)) ?_
    by_cases hp : p.1 = r ∧ p.2.1 = k
    · left
      rw [← hval p List.mem_cons_self hp.1 hp.2, hp.1, hp.2, t.setTap_of_lt hr, rget_rput_same]
      exact extractLsb'_setField_same (by omega) _ _
    · have hrest : el 32 (rget r t.mant) k = w ∨ ∃ q ∈ l, q.1 = r ∧ q.2.1 = k := by simpa [hp] using h
      refine hrest.imp_left fun h0 => ?_
      by_cases hp1 : p.1 = r
      · rw [hp1, t.setTap_of_lt hr, rget_rput_same, el_setField_other (by omega) (by omega), h0]
      · rw [(t.setTap_other (Ne.symm hp1) _ _).1, h0]

end Sys2Proof.Machine

namespace Sys2Proof.Claims

open Sys2Proof.Machine

theorem mem_zip_range_length {α : Type} {l : List α} {n p : Nat} {x : α} (hn : n = l.length) :
    (p, x) ∈ List.zip (List.range n) l ↔ l[p]? = some x := by
  rw [hn, List.mem_iff_getElem?]
  simp only [List.getElem?_zip_eq_some]
  constructor
  · rintro ⟨i, hi, hx⟩
    have hlt : i < l.length := (List.getElem?_eq_some_iff.1 hx).1
    obtain rfl : i = p := by simpa [hlt] using hi
    exact hx
  · intro h
    exact ⟨p, List.getElem?_range (List.getElem?_eq_some_iff.1 h).1, h⟩

/-! ### The forward pass (R227) -/

section
variable (f : MForm) (bm : BitVec 256) (cvs : List (BitVec 6144)) (rows : List FeedRow) (cols : List (List StoneCol))

/-- The sums that arrive at row `m`. -/
def dendriticSums (m : Nat) : List ((Int × Int) × Bool) :=
  (List.range 256).map fun n => wordArrival (secondLevel ((branchOuts f bm cvs rows cols m n).map fun p => p.1))

/-- The words of taps that row `m` writes. -/
def tapWrites (m : Nat) : List (Nat × Nat × W32) :=
  (List.range 256).flatMap fun n => (List.zip (List.range (presentBranches bm f.stones).length) (branchOuts f bm cvs rows cols m n)).map fun y =>
    (m * (presentBranches bm f.stones).length + y.1, n, y.2.2)

/-- One row of a `dmm`. -/
def dendriticStep (on : Bool) (acc : Tile × Tile × XF) (m : Nat) : Tile × Tile × XF :=
  ((acc.1.arrive m 16 (dendriticSums f bm cvs rows cols m) 0).1, if on then acc.2.1.setTaps (tapWrites f bm cvs rows cols m) else acc.2.1,
    acc.2.2 ||| (acc.1.arrive m 16 (dendriticSums f bm cvs rows cols m) 0).2)

theorem dendritic_eq (t tap : Tile) (on : Bool) : f.dendritic t tap on bm cvs cols rows =
    (List.range f.rows).foldl (dendriticStep f bm cvs rows cols on) (t.clear f.clr, tap, 0) := by
  rw [MForm.dendritic]
  refine List.foldl_ext _ _ _ fun acc m _ => ?_
  simp only [dendriticStep, dendriticSums, tapWrites, Tile.setTaps, List.foldl_flatMap, List.foldl_map, List.map_map, branchOuts, lineup,
    Function.comp_def]

theorem dendriticStep_fst (on : Bool) (acc : Tile × Tile × XF) (m : Nat) : (dendriticStep f bm cvs rows cols on acc m).1 =
    (acc.1.arrive m 16 (dendriticSums f bm cvs rows cols m) 0).1 := by
  rw [dendriticStep]

theorem dendriticStep_arrives (on : Bool) : ArrivesAt (fun acc : Tile × Tile × XF => acc.1) (fun m : Nat => m) (dendriticSums f bm cvs rows cols)
    (dendriticStep f bm cvs rows cols on) := dendriticStep_fst f bm cvs rows cols on

theorem blk_dendritic (t tap : Tile) (on : Bool) (m : Nat) {b : Nat} (hb : b < 16) : (f.dendritic t tap on bm cvs cols rows).1.blk m b =
    if m < f.rows then takes ((t.clear f.clr).blk m b) ((List.range 16).map fun i =>
      wordArrival (secondLevel ((branchOuts f bm cvs rows cols m (16 * b + i)).map fun p => p.1)))
    else (t.clear f.clr).blk m b := by
  have hlen : ∀ m ∈ List.range f.rows, (dendriticSums f bm cvs rows cols m).length = 256 := fun m _ => by simp [dendriticSums]
  have harr := dendriticStep_arrives f bm cvs rows cols on
  rw [dendritic_eq]
  split
  · next hm =>
    rw [harr.blk_once hlen (by rw [List.map_id']; exact List.nodup_range) (List.mem_range.mpr hm) hb, dendriticSums, take_drop_map_range _ (by omega)]
  · next hm => exact harr.blk_other hlen hb (fun (a : Nat) ha (e : a = m) => hm (e ▸ List.mem_range.mp ha)) _

theorem taps_kept (t tap : Tile) : (f.dendritic t tap false bm cvs cols rows).2.1 = tap := by
  rw [dendritic_eq]
  exact foldl_keeps (f := dendriticStep f bm cvs rows cols false) (fun acc => acc.2.1) (fun _ _ => rfl) _ _

theorem taps_written (t tap : Tile) : (f.dendritic t tap true bm cvs cols rows).2.1 =
    tap.setTaps ((List.range f.rows).flatMap (tapWrites f bm cvs rows cols)) := by
  rw [dendritic_eq, Tile.setTaps, List.foldl_flatMap]
  exact (List.foldl_hom (fun acc : Tile × Tile × XF => acc.2.1) fun _ _ => rfl).symm

theorem mem_tapWrites {m r k : Nat} {w : W32} : (r, k, w) ∈ tapWrites f bm cvs rows cols m ↔
    k < 256 ∧ ∃ j v, (branchOuts f bm cvs rows cols m k)[j]? = some (v, w) ∧ m * (presentBranches bm f.stones).length + j = r := by
  have hlen : (presentBranches bm f.stones).length = (branchOuts f bm cvs rows cols m k).length := by simp [branchOuts]
  simp only [tapWrites, List.mem_flatMap, List.mem_map, List.mem_range, Prod.exists, Prod.mk.injEq]
  constructor
  · rintro ⟨n, hn, j, v, w', hmem, hr, rfl, rfl⟩
    exact ⟨hn, j, v, (mem_zip_range_length hlen).mp hmem, hr⟩
  · rintro ⟨hk, j, v, hget, hr⟩
    exact ⟨k, hk, j, v, w, (mem_zip_range_length hlen).mpr hget, hr, rfl, rfl⟩

end

/-! ### Dendritic forms as operations (R216, R226) -/

theorem rows_eq_mapIdx {α : Type} (g : Nat → List Byte → α) (bs : List (List Byte)) :
    (List.zip (List.range bs.length) bs).map (fun p => g p.1 p.2) = bs.mapIdx g := by
  refine List.ext_getElem (by simp) fun k hk hk' => ?_
  simp

theorem toNat_tapOf (w : W32) : (tapOf w).toNat = w.toNat / 2 ^ 23 % 8 := by
  rw [tapOf, BitVec.extractLsb'_toNat, Nat.shiftRight_eq_div_pow]

theorem curvesOf_eq (w : W32) (cv : RMap 6144) :
    (curvesOf w).map (fun k => rget k.toNat cv) = (List.range 4).map fun j => rget (w.toNat / 2 ^ (15 + 2 * j) % 4) cv := by
  rw [curvesOf, List.map_map]
  refine List.map_congr_left fun j _ => ?_
  rw [Function.comp_apply, BitVec.extractLsb'_toNat, Nat.shiftRight_eq_div_pow]

/-- The literal of an M operation (R216). -/
theorem literal_eq (v : W64) : v.extractLsb' 0 32 = BitVec.ofNat 32 v.toNat := by
  rw [extractLsb'_eq_ofNat, pow_zero, Nat.div_one]

theorem perform_dmm {c : Core} {o : EngOp} {bs : List (List Byte)} {t : BitVec 3} {m : BitVec 4} {d : BitVec 3} {b : BitVec 2} {l : BitVec 5}
    {a cl : BitVec 1} (hbs : bs ≠ []) (hi : o.ins = .dmm t m d b l a cl) :
    (let w : W32 := BitVec.ofNat 32 (o.words.headD 0).toNat
     let f := dmmForm false t m w cl
     let tt := w.toNat / 2 ^ 23 % 8
     let out := f.dendritic (c.tile t.toNat) (c.tile tt) (a == 1) (rget b.toNat c.bm)
       ((List.range 4).map fun j => rget (w.toNat / 2 ^ (15 + 2 * j) % 4) c.cv) (c.columns f.stones 256) (bs.mapIdx fun i x => f.row o.vec i x)
     let one := kput t.toNat out.1 c.tiles
     c.perform o bs = ({ c with tiles := if a = 1 then kput tt out.2.1 one else one }, [], out.2.2)) := by
  have hne : bs.isEmpty = false := by simpa using hbs
  rw [Core.perform, hi, literal_eq]
  dsimp only
  rw [hne, if_neg Bool.false_ne_true, rows_eq_mapIdx, toNat_tapOf, curvesOf_eq]
  generalize MForm.dendritic _ _ _ _ _ _ _ _ = out
  by_cases ha : a = 1
  · rw [if_pos ha, if_pos ha]
    rfl
  · rw [if_neg ha, if_neg ha]
    rfl

theorem perform_dmmr {c : Core} {o : EngOp} {bs : List (List Byte)} {t : BitVec 3} {m : BitVec 4} {d : BitVec 3} {b : BitVec 2} {l : BitVec 5}
    {a cl : BitVec 1} (hbs : bs ≠ []) (hi : o.ins = .dmmr t m d b l a cl) :
    (let w : W32 := BitVec.ofNat 32 (o.words.headD 0).toNat
     let f := dmmForm true t m w cl
     let out := f.reverse (c.tile t.toNat) (c.tile (w.toNat / 2 ^ 23 % 8)) (rget b.toNat c.bm) (c.columns f.stones 256) (bs.map bf16Nums)
     c.perform o bs = ({ c with tiles := kput t.toNat out.1 c.tiles }, [], out.2)) := by
  have hne : bs.isEmpty = false := by simpa using hbs
  intro w f out
  rw [Core.perform, hi, literal_eq]
  dsimp only
  rw [hne, if_neg Bool.false_ne_true, toNat_tapOf]
  rfl

/-! ### The taps of a `dmm` (R227) -/

theorem place_unique {n m j m' j' : Nat} (hj : j < n) (hj' : j' < n) (h : m' * n + j' = m * n + j) : m' = m ∧ j' = j := by
  have hm : m' = m := by
    have := congrArg (· / n) h
    simpa [Nat.mul_comm _ n, Nat.mul_add_div (Nat.zero_lt_of_lt hj), Nat.div_eq_of_lt hj, Nat.div_eq_of_lt hj'] using this
  subst hm
  exact ⟨rfl, Nat.add_left_cancel h⟩

theorem place_lt {n m j k : Nat} (hm : m < k) (hj : j < n) : m * n + j < k * n := by
  have := Nat.mul_le_mul_right n (Nat.succ_le_of_lt hm)
  rw [Nat.succ_mul] at this
  omega

section
variable {f : MForm} {bm : BitVec 256} {cvs : List (BitVec 6144)} {rows : List FeedRow} {cols : List (List StoneCol)}

theorem length_branchOuts (m k : Nat) : (branchOuts f bm cvs rows cols m k).length = (presentBranches bm f.stones).length := by simp [branchOuts]

theorem mem_allTapWrites {p : Nat × Nat × W32} (hp : p ∈ (List.range f.rows).flatMap (tapWrites f bm cvs rows cols)) :
    ∃ m < f.rows, ∃ j v, (branchOuts f bm cvs rows cols m p.2.1)[j]? = some (v, p.2.2) ∧ j < (presentBranches bm f.stones).length ∧
      m * (presentBranches bm f.stones).length + j = p.1 := by
  obtain ⟨m, hm, hp⟩ := List.mem_flatMap.mp hp
  obtain ⟨-, j, v, hget, hr⟩ := (mem_tapWrites f bm cvs rows cols).mp hp
  refine ⟨m, List.mem_range.mp hm, j, v, hget, ?_, hr⟩
  rw [← length_branchOuts (f := f) (bm := bm) (cvs := cvs) (rows := rows) (cols := cols) m p.2.1]
  exact (List.getElem?_eq_some_iff.mp hget).1

theorem mem_allTapWrites_of_lt {m j k : Nat} (hm : m < f.rows) (hj : j < (presentBranches bm f.stones).length) (hk : k < 256) : ∃ v w,
    (branchOuts f bm cvs rows cols m k)[j]? = some (v, w) ∧
    (m * (presentBranches bm f.stones).length + j, k, w) ∈ (List.range f.rows).flatMap (tapWrites f bm cvs rows cols) := by
  have hget := List.getElem?_eq_getElem (l := branchOuts f bm cvs rows cols m k) (by rw [length_branchOuts]; exact hj)
  exact ⟨_, _, hget, List.mem_flatMap.mpr ⟨m, List.mem_range.mpr hm, (mem_tapWrites f bm cvs rows cols).mpr ⟨hk, j, _, hget, rfl⟩⟩⟩

/-- The row of branch number `j` for row `m` of the tile. -/
theorem tap_row (t tap : Tile) {row m j : Nat} (hrow : row < 32) (hm : m < f.rows) (hj : j < (presentBranches bm f.stones).length)
    (hr : row = m * (presentBranches bm f.stones).length + j) :
    rget row (f.dendritic t tap true bm cvs cols rows).2.1.exps = 0 ∧ ∀ k < 256,
      some (el 32 (rget row (f.dendritic t tap true bm cvs cols rows).2.1.mant) k) = (branchOuts f bm cvs rows cols m k)[j]?.map (fun p => p.2) := by
  rw [taps_written]
  refine ⟨Tile.exps_setTaps hrow tap (.inr ?_), fun k hk => ?_⟩
  · obtain ⟨v, w, -, hmem⟩ := mem_allTapWrites_of_lt (cvs := cvs) (rows := rows) (cols := cols) hm hj (by decide : 0 < 256)
    exact ⟨_, hmem, hr.symm⟩
  · obtain ⟨v, w, hget, hmem⟩ := mem_allTapWrites_of_lt (cvs := cvs) (rows := rows) (cols := cols) hm hj hk
    rw [hget, Option.map_some, Tile.el_setTaps hrow hk tap ?_ (.inr ⟨_, hmem, hr.symm, rfl⟩)]
    rintro ⟨r, k', w'⟩ hp hr' rfl
    obtain ⟨m', -, j', v', hget', hj', hplace⟩ := mem_allTapWrites hp
    obtain ⟨rfl, rfl⟩ := place_unique hj hj' (hplace.trans (hr'.trans hr))
    exact (Prod.ext_iff.mp (Option.some.inj (hget'.symm.trans hget))).2

/-- A row that no branch of a row of the tile has. -/
theorem tap_row_kept (t tap : Tile) {row : Nat} (hr : f.rows * (presentBranches bm f.stones).length ≤ row) :
    rget row (f.dendritic t tap true bm cvs cols rows).2.1.mant = rget row tap.mant ∧
      rget row (f.dendritic t tap true bm cvs cols rows).2.1.exps = rget row tap.exps := by
  rw [taps_written]
  refine Tile.setTaps_other (fun p hp e => ?_) tap
  obtain ⟨m, hm, j, v, -, hj, hplace⟩ := mem_allTapWrites hp
  have := place_lt hm hj
  omega

end

/-! ### The reverse pass (R228) -/

/-- A gradient row, or a stone with its columns, with its number. -/
abbrev ReverseItem := (Nat × List Machine.Num) × (Nat × Nat × List StoneCol)

section
variable (f : MForm) (bm : BitVec 256) (tap : Tile)

/-- The gradients of an item scaled by the taps of the branch of K block `kb`. -/
def scaledRow (p : ReverseItem) (kb : Nat) : FeedRow :=
  let present := presentBranches bm f.stones
  let row := p.1.1 * present.length + (present.filter (fun c => c < branchOf bm p.2.2.1 kb)).length
  alignRow ((List.zip (List.range 256) p.1.2).map fun q => if row < 32 then scaledGrad q.2 (lane 32 (rget row tap.mant) q.1) else .nan)

/-- The sums of an item. -/
def reverseSums (p : ReverseItem) : List ((Int × Int) × Bool) :=
  (List.range 16).flatMap fun kb => (List.range 16).map fun i =>
    (sumExact ((List.zip (List.range 256) (List.zip (scaledRow f bm tap p kb).a.flatten p.2.2.2)).map fun q =>
      (q.2.1 * (q.2.2.c.getD kb []).getD i 0, (scaledRow f bm tap p kb).e.getD (q.1 / 16) 0 + q.2.2.e.getD kb 0)),
     (scaledRow f bm tap p kb).nan.any id || p.2.2.2.any (fun c => c.nan.getD kb false))

/-- The gradient rows with the stones of the mask, in the order of the loops. -/
def reverseItems (cols : List (List StoneCol)) (grads : List (List Machine.Num)) : List ReverseItem :=
  (List.zip (List.range f.rows) grads).flatMap fun g => (List.zip (List.range f.stones.length) (List.zip f.stones cols)).map fun st => (g, st)

/-- One item of a `dmmr`. -/
def reverseStep (acc : Tile × XF) (p : ReverseItem) : Tile × XF :=
  ((acc.1.arrive (p.1.1 * f.stones.length + p.2.1) 16 (reverseSums f bm tap p) 0).1,
    acc.2 ||| (acc.1.arrive (p.1.1 * f.stones.length + p.2.1) 16 (reverseSums f bm tap p) 0).2)

theorem reverse_eq (t : Tile) (cols : List (List StoneCol)) (grads : List (List Machine.Num)) : f.reverse t tap bm cols grads =
    (reverseItems f cols grads).foldl (reverseStep f bm tap) (t.clear f.clr, 0) := by
  rw [MForm.reverse, reverseItems, List.foldl_flatMap]
  simp only [List.foldl_map, reverseStep, reverseSums, scaledRow]

theorem reverseStep_fst (acc : Tile × XF) (p : ReverseItem) : (reverseStep f bm tap acc p).1 =
    (acc.1.arrive (p.1.1 * f.stones.length + p.2.1) 16 (reverseSums f bm tap p) 0).1 := by
  rw [reverseStep]

theorem reverseStep_arrives : ArrivesAt (fun acc : Tile × XF => acc.1) (fun p : ReverseItem => p.1.1 * f.stones.length + p.2.1) (reverseSums f bm tap)
    (reverseStep f bm tap) := reverseStep_fst f bm tap

theorem length_reverseSums (p : ReverseItem) : (reverseSums f bm tap p).length = 256 := by
  simp [reverseSums, List.length_flatMap]

end

theorem flatMap_range_rows (n k : Nat) : (List.range k).flatMap (fun m => (List.range n).map fun j => m * n + j) = List.range (k * n) := by
  induction k with
  | zero => simp
  | succ k ih => rw [List.range_succ, List.flatMap_append, ih, List.flatMap_singleton, Nat.succ_mul, List.range_add]

theorem zip_range_getD {α : Type} (d : α) {l : List α} {n : Nat} (h : l.length = n) :
    List.zip (List.range n) l = (List.range n).map fun i => (i, l.getD i d) := by
  refine List.ext_getElem (by simp [h]) fun k hk hk' => ?_
  have hlt : k < l.length := by simpa [h] using hk'
  simp [List.getElem?_eq_getElem hlt]

section
variable {f : MForm} {bm : BitVec 256} {tap : Tile} {cols : List (List StoneCol)} {grads : List (List Machine.Num)}

/-- Each item has a row of its own, and the items fill the rows in order. -/
theorem rows_reverseItems (hg : grads.length = f.rows) (hc : cols.length = f.stones.length) :
    (reverseItems f cols grads).map (fun p => p.1.1 * f.stones.length + p.2.1) = List.range (f.rows * f.stones.length) := by
  have hrows : (List.zip (List.range f.rows) grads).map Prod.fst = List.range f.rows := List.map_fst_zip (by simp [hg])
  have hstones : (List.zip (List.range f.stones.length) (List.zip f.stones cols)).map Prod.fst = List.range f.stones.length :=
    List.map_fst_zip (by simp [hc])
  rw [← flatMap_range_rows, ← hrows, ← hstones, reverseItems, List.map_flatMap, List.flatMap_map]
  refine List.flatMap_congr fun g _ => ?_
  rw [List.map_map, List.map_map]
  rfl

theorem mem_reverseItems (hg : grads.length = f.rows) (hc : cols.length = f.stones.length) {m j : Nat} (hm : m < f.rows) (hj : j < f.stones.length) :
    ((m, grads.getD m []), (j, f.stones.getD j 0, cols.getD j [])) ∈ reverseItems f cols grads := by
  refine List.mem_flatMap.mpr ⟨(m, grads.getD m []), ?_, List.mem_map.mpr ⟨_, ?_, rfl⟩⟩
  · rw [zip_range_getD [] hg]
    exact List.mem_map.mpr ⟨m, List.mem_range.mpr hm, rfl⟩
  · rw [zip_range_getD (0, []) (by simp [hc])]
    refine List.mem_map.mpr ⟨j, List.mem_range.mpr hj, ?_⟩
    have hjc : j < cols.length := hc ▸ hj
    rw [List.getD_eq_getElem _ _ hj, List.getD_eq_getElem _ _ hjc, List.getD_eq_getElem _ _ (by simp [hjc, hj]), List.getElem_zip]

theorem length_alignRow {x : List Machine.Num} (hx : x.length = 256) : (alignRow x).a.flatten.length = 256 := by
  have hlen : ∀ i ∈ List.range 16, (alignBlock 7 ((x.drop (16 * i)).take 16)).1.length = 16 := fun i hi => by
    have := List.mem_range.mp hi
    rw [length_alignBlock, List.length_take, List.length_drop]
    omega
  simp only [alignRow, chunks_eq, List.map_map, List.length_flatten, Function.comp_def]
  rw [List.map_congr_left (g := fun _ => 16) hlen]
  rfl

/-- The gradients of row `m` scaled by the taps of the branch of K block `kb` of stone number `j` of the mask (R228). -/
def scaledGrads (f : MForm) (bm : BitVec 256) (tap : Tile) (grads : List (List Machine.Num)) (m j kb : Nat) : FeedRow :=
  let present := presentBranches bm f.stones
  let row := m * present.length + (present.filter (fun c => c < groupBranch bm (f.stones.getD j 0) kb)).length
  alignRow ((List.range 256).map fun n => if row < 32 then scaledGrad ((grads.getD m []).getD n .nan) (el 32 (rget row tap.mant) n) else .nan)

theorem scaledRow_eq {m j : Nat} (hgm : (grads.getD m []).length = 256) (kb : Nat) :
    scaledRow f bm tap ((m, grads.getD m []), (j, f.stones.getD j 0, cols.getD j [])) kb = scaledGrads f bm tap grads m j kb := by
  rw [scaledRow, scaledGrads]
  dsimp only
  rw [zip_range_getD .nan hgm, List.map_map]
  rfl

/-- The terms of a sum over the columns of a stone. -/
theorem columnTerms_eq {h : FeedRow} {col : List StoneCol} (hh : h.a.flatten.length = 256) (hcol : col.length = 256) (kb i : Nat) :
    (List.zip (List.range 256) (List.zip h.a.flatten col)).map (fun q =>
      (q.2.1 * (q.2.2.c.getD kb []).getD i 0, h.e.getD (q.1 / 16) 0 + q.2.2.e.getD kb 0)) =
    (List.range 256).map fun n => match (col.drop n).head? with
      | some c => (h.a.flatten.getD n 0 * (c.c.getD kb []).getD i 0, h.e.getD (n / 16) 0 + c.e.getD kb 0)
      | none => (0, 0) := by
  refine List.ext_getElem (by simp [hh, hcol, -List.length_flatten]) fun n hn hn' => ?_
  have hlt : n < 256 := by simpa using hn'
  have hhead : (col.drop n).head? = some col[n] := by rw [List.head?_drop, List.getElem?_eq_getElem]
  simp only [List.getElem_map, List.getElem_zip, List.getElem_range, hhead, List.getD_eq_getElem _ _ (hh ▸ hlt : n < h.a.flatten.length)]

/-- The sums of an item are those of R228, block by block. -/
theorem reverseSums_eq {m j : Nat} (hgm : (grads.getD m []).length = 256) (hcj : (cols.getD j []).length = 256) :
    reverseSums f bm tap ((m, grads.getD m []), (j, f.stones.getD j 0, cols.getD j [])) =
      (List.range 16).flatMap fun kb => (List.range 16).map fun i => reverseArrival f bm tap cols grads m j kb i := by
  rw [reverseSums]
  refine List.flatMap_congr fun kb _ => List.map_congr_left fun i _ => ?_
  have hlen : (scaledGrads f bm tap grads m j kb).a.flatten.length = 256 := length_alignRow (by simp)
  rw [scaledRow_eq hgm]
  dsimp only
  rw [columnTerms_eq hlen hcj]
  rfl

theorem drop_take_flatMap_const {α β : Type} {g : α → List β} {w : Nat} {l : List α} (hg : ∀ a ∈ l, (g a).length = w) {k : Nat} {a : α}
    (hk : l[k]? = some a) : ((l.flatMap g).drop (w * k)).take w = g a := by
  have ha : (g a).length = w := hg a (List.mem_of_getElem? hk)
  refine List.ext_getElem? fun i => ?_
  by_cases hi : i < w
  · rw [List.getElem?_take_of_lt hi, List.getElem?_drop, getElem?_flatMap_const hg hk hi]
  · rw [List.getElem?_eq_none (by simp; omega), List.getElem?_eq_none (by omega)]

/-- A row of the tile after a `dmmr`. -/
theorem blk_reverse (t : Tile) (hg : grads.length = f.rows) (hc : cols.length = f.stones.length) (hcols : ∀ c ∈ cols, c.length = 256)
    (hgrads : ∀ g ∈ grads, g.length = 256) {m j b : Nat} (hm : m < f.rows) (hj : j < f.stones.length) (hb : b < 16) :
    (f.reverse t tap bm cols grads).1.blk (m * f.stones.length + j) b = takes ((t.clear f.clr).blk (m * f.stones.length + j) b)
      ((List.range 16).map fun i => reverseArrival f bm tap cols grads m j b i) := by
  have hgm : (grads.getD m []).length = 256 := hgrads _ (by rw [List.getD_eq_getElem _ _ (by omega)]; exact List.getElem_mem _)
  have hcj : (cols.getD j []).length = 256 := hcols _ (by rw [List.getD_eq_getElem _ _ (by omega)]; exact List.getElem_mem _)
  have hblk := (reverseStep_arrives f bm tap).blk_once (fun p _ => length_reverseSums f bm tap p)
    (by rw [rows_reverseItems hg hc]; exact List.nodup_range) (mem_reverseItems hg hc hm hj) hb (t.clear f.clr, 0)
  rw [reverseSums_eq hgm hcj, drop_take_flatMap_const (fun _ _ => by simp) (List.getElem?_range hb)] at hblk
  rw [reverse_eq]
  exact hblk

/-- A row beyond those of the gradients. -/
theorem blk_reverse_other (t : Tile) (hg : grads.length = f.rows) (hc : cols.length = f.stones.length) {r b : Nat} (hb : b < 16)
    (hr : f.rows * f.stones.length ≤ r) : (f.reverse t tap bm cols grads).1.blk r b = (t.clear f.clr).blk r b := by
  rw [reverse_eq]
  refine (reverseStep_arrives f bm tap).blk_other (fun p _ => length_reverseSums f bm tap p) hb (fun p hp e => ?_) _
  have hmem := List.mem_map_of_mem (f := fun p : ReverseItem => p.1.1 * f.stones.length + p.2.1) hp
  rw [rows_reverseItems hg hc, List.mem_range] at hmem
  omega

end

theorem dendriticFormsPerform : DendriticFormsPerform := by
  refine ⟨fun c o bs t m d b l a cl hbs => ⟨fun hi => perform_dmm hbs hi, fun hi => perform_dmmr hbs hi⟩, fun f t tap on bm cvs cols rows _ _ _ _ =>
    ⟨fun m b hb => blk_dendritic f bm cvs rows cols t tap on m hb, fun hon => hon ▸ taps_kept f bm cvs rows cols t tap,
      fun hon row hrow => hon ▸ ⟨fun m j hm hj hr => tap_row t tap hrow hm hj hr, fun hr => tap_row_kept t tap hr⟩⟩,
    fun f t tap bm cols grads hg hc hcols hgrads _ => ⟨fun m j b hm hj hb => blk_reverse t hg hc hcols hgrads hm hj hb,
      fun r b hb hr => blk_reverse_other t hg hc hb hr⟩⟩

/-- Settles O32: loads and stores by the rules of their queues, what they fill by K blocks, dendritic forms by the arrivals at each row. -/
theorem scalesStonesAndFeedOffsets : Obligations.ScalesStonesAndFeedOffsets :=
  ⟨scaleLoadsAndStoresAreQueued, stoneLoadsAndFeedOffsets, stonesAndTablesAreFilled, branchSumsAndCurves, dendriticFormsPerform⟩

end Sys2Proof.Claims
end

section
/-! SUPPORT. Words of the slot maps decoded and encoded (R44, R83 to R98): the statement `Obligations.DecodeAndEncodeAgree`. What an encoded word
decodes to is the lemma of its instruction in Laws/PerInstr; that a decoded word is encoded again follows from the branches of the decoders. -/

namespace Sys2Proof.Laws

/-! ### Fields joined -/

/-- Two neighbouring fields of a word make the field that holds both. -/
theorem join_fields {n a b k l : Nat} (w : BitVec n) (h : a = b + l) : w.extractLsb' a k ++ w.extractLsb' b l = w.extractLsb' b (k + l) :=
  BitVec.extractLsb'_append_extractLsb'_eq_extractLsb' h

section
variable {n : Nat} {w z v : BitVec n} (h : w &&& z = v)
include h

theorem extractLsb'_fixed {a k : Nat} (hz : z.extractLsb' a k = BitVec.allOnes k) : v.extractLsb' a k = w.extractLsb' a k := by
  rw [← h, BitVec.extractLsb'_and, hz, BitVec.and_allOnes]

/-- A field and the bits below it that the format fixes. -/
theorem join_fixed {a k l : Nat} {c : BitVec l} (ha : l ≤ a) (hz : z.extractLsb' (a - l) l = BitVec.allOnes l) (hv : v.extractLsb' (a - l) l = c) :
    w.extractLsb' a k ++ c = w.extractLsb' (a - l) (k + l) := by
  rw [← hv, extractLsb'_fixed h hz, join_fields w (Nat.sub_add_cancel ha).symm]

/-- A field and the bits above it that the format fixes. -/
theorem fixed_join {b k l : Nat} {c : BitVec k} (hz : z.extractLsb' (b + l) k = BitVec.allOnes k) (hv : v.extractLsb' (b + l) k = c) :
    c ++ w.extractLsb' b l = w.extractLsb' b (k + l) := by
  rw [← hv, extractLsb'_fixed h hz, join_fields w rfl]

/-- Nothing but bits that the format fixes (an equation of propositions, so that `simp` finds it by its left side). -/
theorem fixed_whole {c : BitVec n} (hz : z = BitVec.allOnes n) (hv : v = c) : (c = w) = True := by
  rw [← hv, ← h, hz, BitVec.and_allOnes, eq_self]

end

/-! ### What a map accepts -/

/-- `i` stands in the map `sm`, and its opcode and operand field are `op` and `w`. -/
structure WordOf (sm : SlotMap) (op : BitVec 7) (w : BitVec 20) (i : Instr) : Prop where
  op_eq : i.op = op
  operand_eq : i.operand = w
  inMap : i.inMap sm = true

/-- A branch of a decoder that accepts an instruction only as what the word `w` under the opcode `op` encodes. A format that fixes no bit is one
whose mask is 0. -/
inductive Branch (sm : SlotMap) (op : BitVec 7) (w : BitVec 20) : Except Reject Instr → Prop where
  | refuses (e : Reject) : Branch sm op w (.error e)
  | takes {i : Instr} (h : w &&& 0 = 0 → WordOf sm op w i) : Branch sm op w (.ok i)
  | fixes {z v : BitVec 20} {i : Instr} (h : w &&& z = v → WordOf sm op w i) : Branch sm op w (zeros w z v i)
  | inLg {sp : Space} {r : Except Reject Instr} (h : sp = .lg → Branch sm op w r) : Branch sm op w (onlyLg sp r)

theorem Branch.wordOf {sm : SlotMap} {op : BitVec 7} {w : BitVec 20} {r : Except Reject Instr} (h : Branch sm op w r) {i : Instr} (hr : r = .ok i) :
    WordOf sm op w i := by
  induction h with
  | refuses e => cases hr
  | takes h => exact Except.ok.inj hr ▸ h BitVec.and_zero
  | fixes h =>
    rw [zeros] at hr
    split at hr
    · next hz => exact Except.ok.inj hr ▸ h hz
    · cases hr
  | inLg _ ih =>
    rw [onlyLg] at hr
    split at hr
    · next hsp => exact ih hsp hr
    · cases hr

/-- Every branch of the decoders: the word has the branch's opcode, and the fields and the fixed bits of its format, joined, are the whole operand
field. -/
theorem branch_decodeOp (sm : SlotMap) (op : BitVec 7) (w : BitVec 20) : Branch sm op w (decodeOp sm op w) := by
  cases sm
  all_goals simp only [decodeOp, decodeSticky, reduceCtorEq, if_true, if_false]
  case' c => unfold decodeC; split
  case' s => unfold decodeS; split
  case' v => unfold decodeV; split
  case' m => unfold decodeM; split
  case' qm => unfold decodeQm; split
  case' qc => unfold decodeQc; split
  case' sc => unfold decodeSc; split
  case' mem => unfold decodeMem; split
  case' x => unfold decodeX; split
  all_goals constructor
  -- The forms that stand in the LG slot only.
  any_goals
    rintro rfl
    constructor
  -- What is left is the operand field: its fields joined, from the highest.
  all_goals
    refine fun hz => ⟨BitVec.eq_of_toNat_eq (Eq.symm ‹_›), ?_, beq_self_eq_true _⟩
    unfold Instr.operand
    simp (disch := decide) only [join_fields, join_fixed hz, fixed_join hz, fixed_whole hz, Nat.sub_self, BitVec.extractLsb'_eq_self]

/-- An instruction of a map is what its opcode and operand field decode to there. -/
theorem decodeOp_op_operand (i : Instr) : F.Statement i := by
  cases i with
  | addS64 => apply F.addS64 | subS64 => apply F.subS64 | mulS64 => apply F.mulS64 | mulhS64 => apply F.mulhS64 | mulhZ64 => apply F.mulhZ64
  | andZ64 => apply F.andZ64 | orZ64 => apply F.orZ64 | addS64Imm => apply F.addS64Imm | andZ64Imm => apply F.andZ64Imm | orZ64Imm => apply F.orZ64Imm
  | xorZ64Imm => apply F.xorZ64Imm | liS64 => apply F.liS64 | li64 => apply F.li64 | xorZ64 => apply F.xorZ64 | shlZ64Imm => apply F.shlZ64Imm
  | shrZ64Imm => apply F.shrZ64Imm | asrS64Imm => apply F.asrS64Imm | shlZ64 => apply F.shlZ64 | shrZ64 => apply F.shrZ64 | asrS64 => apply F.asrS64
  | minS64 => apply F.minS64 | maxS64 => apply F.maxS64 | minZ64 => apply F.minZ64 | maxZ64 => apply F.maxZ64 | divS64 => apply F.divS64
  | divZ64 => apply F.divZ64 | remS64 => apply F.remS64 | remZ64 => apply F.remZ64 | bfxZ64 => apply F.bfxZ64 | bfxS64 => apply F.bfxS64
  | cmpLtS64 => apply F.cmpLtS64 | cmpEqS64 => apply F.cmpEqS64 | cmpLeS64 => apply F.cmpLeS64 | cmpNeS64 => apply F.cmpNeS64
  | cmpLtZ64 => apply F.cmpLtZ64 | cmpLeZ64 => apply F.cmpLeZ64 | bfiZ64 => apply F.bfiZ64 | cmpLtS64Imm => apply F.cmpLtS64Imm
  | cmpEqS64Imm => apply F.cmpEqS64Imm | cmpLeS64Imm => apply F.cmpLeS64Imm | cmpNeS64Imm => apply F.cmpNeS64Imm | cmpLtZ64Imm => apply F.cmpLtZ64Imm
  | cmpLeZ64Imm => apply F.cmpLeZ64Imm | fand => apply F.fand | fior => apply F.fior | fxor => apply F.fxor | fandn => apply F.fandn
  | fset => apply F.fset | fclr => apply F.fclr | movS64Pop => apply F.movS64Pop | movS64Push => apply F.movS64Push | popcZ64 => apply F.popcZ64
  | clzZ64 => apply F.clzZ64 | ctzZ64 => apply F.ctzZ64 | cvtF32S64 => apply F.cvtF32S64 | cvtS64F32 => apply F.cvtS64F32
  | cvtF32Z64 => apply F.cvtF32Z64 | cvtZ64F32 => apply F.cvtZ64F32 | ld => apply F.ld | st => apply F.st | ldm => apply F.ldm | stm => apply F.stm
  | pfLg => apply F.pfLg | ldt => apply F.ldt | stt => apply F.stt | ldsS8 => apply F.ldsS8 | ldsZ8 => apply F.ldsZ8 | ldsS16 => apply F.ldsS16
  | ldsZ16 => apply F.ldsZ16 | ldsS32 => apply F.ldsS32 | ldsZ32 => apply F.ldsZ32 | ldsS64 => apply F.ldsS64 | stsZ8 => apply F.stsZ8
  | stsZ16 => apply F.stsZ16 | stsZ32 => apply F.stsZ32 | stsZ64 => apply F.stsZ64 | aaddS64 => apply F.aaddS64 | aminS64 => apply F.aminS64
  | amaxS64 => apply F.amaxS64 | aandZ64 => apply F.aandZ64 | aorZ64 => apply F.aorZ64 | axorZ64 => apply F.axorZ64 | aswpZ64 => apply F.aswpZ64
  | acasZ64 => apply F.acasZ64 | redAddF32 => apply F.redAddF32 | redMaxF32 => apply F.redMaxF32 | redMinF32 => apply F.redMinF32
  | redAddS32 => apply F.redAddS32 | redMaxS32 => apply F.redMaxS32 | redMinS32 => apply F.redMinS32 | stLgC => apply F.stLgC | stLgK => apply F.stLgK
  | barWait => apply F.barWait | barArrive => apply F.barArrive | barInit => apply F.barInit | barExp => apply F.barExp | waitany => apply F.waitany
  | waita => apply F.waita | drain => apply F.drain | vaddF32 => apply F.vaddF32 | vsubF32 => apply F.vsubF32 | vmulF32 => apply F.vmulF32
  | vfmaF32 => apply F.vfmaF32 | vminF32 => apply F.vminF32 | vmaxF32 => apply F.vmaxF32 | vaddBf16 => apply F.vaddBf16 | vsubBf16 => apply F.vsubBf16
  | vmulBf16 => apply F.vmulBf16 | vfmaBf16 => apply F.vfmaBf16 | vminBf16 => apply F.vminBf16 | vmaxBf16 => apply F.vmaxBf16
  | vaddF16 => apply F.vaddF16 | vsubF16 => apply F.vsubF16 | vmulF16 => apply F.vmulF16 | vfmaF16 => apply F.vfmaF16 | vminF16 => apply F.vminF16
  | vmaxF16 => apply F.vmaxF16 | vdivF32 => apply F.vdivF32 | vsqrtF32 => apply F.vsqrtF32 | vabsF32 => apply F.vabsF32 | vnegF32 => apply F.vnegF32
  | vaddS32 => apply F.vaddS32 | vsubS32 => apply F.vsubS32 | vmulS32 => apply F.vmulS32 | vmulhS32 => apply F.vmulhS32 | vminS32 => apply F.vminS32
  | vmaxS32 => apply F.vmaxS32 | vminZ32 => apply F.vminZ32 | vmaxZ32 => apply F.vmaxZ32 | vandZ32 => apply F.vandZ32 | vorZ32 => apply F.vorZ32
  | vxorZ32 => apply F.vxorZ32 | vshlZ32 => apply F.vshlZ32 | vshrZ32 => apply F.vshrZ32 | vasrS32 => apply F.vasrS32 | vnotZ32 => apply F.vnotZ32
  | vcmpLtF32 => apply F.vcmpLtF32 | vcmpLeF32 => apply F.vcmpLeF32 | vcmpEqF32 => apply F.vcmpEqF32 | vcmpLtS32 => apply F.vcmpLtS32
  | vcmpEqS32 => apply F.vcmpEqS32 | vcmpLtZ32 => apply F.vcmpLtZ32 | vmand => apply F.vmand | vmor => apply F.vmor | vmxor => apply F.vmxor
  | vmnot => apply F.vmnot | vsel => apply F.vsel | vperm => apply F.vperm | vbcast => apply F.vbcast | vext => apply F.vext | vins => apply F.vins
  | vtr32 => apply F.vtr32 | vzord => apply F.vzord | vrowm => apply F.vrowm | vrsumF32 => apply F.vrsumF32 | vrmaxF32 => apply F.vrmaxF32
  | vrminF32 => apply F.vrminF32 | vrsumS32 => apply F.vrsumS32 | vrandZ32 => apply F.vrandZ32 | vsetvl => apply F.vsetvl | vmov => apply F.vmov
  | vaccF32 => apply F.vaccF32 | qmaxF32 => apply F.qmaxF32 | qmaxBf16 => apply F.qmaxBf16 | qmaxF16 => apply F.qmaxF16 | qmvsc => apply F.qmvsc
  | qcvtE4m3 => apply F.qcvtE4m3 | qcvtE5m2 => apply F.qcvtE5m2 | qcvtE2m1 => apply F.qcvtE2m1 | qcvtS8 => apply F.qcvtS8 | qcvtBp8 => apply F.qcvtBp8
  | qdqE4m3 => apply F.qdqE4m3 | qdqE5m2 => apply F.qdqE5m2 | qdqE2m1 => apply F.qdqE2m1 | qdqS8 => apply F.qdqS8 | qdqBp8 => apply F.qdqBp8
  | qrot => apply F.qrot | qin => apply F.qin | qout => apply F.qout | cvtBf16F32 => apply F.cvtBf16F32 | cvtF16F32 => apply F.cvtF16F32
  | cvtF32Bf16 => apply F.cvtF32Bf16 | cvtF32F16 => apply F.cvtF32F16 | cvtF32S32 => apply F.cvtF32S32 | cvtS32F32 => apply F.cvtS32F32
  | ldsc => apply F.ldsc | ldscB => apply F.ldscB | stsc => apply F.stsc | ldbS8 => apply F.ldbS8 | ldbBf16 => apply F.ldbBf16
  | ldbE4m3 => apply F.ldbE4m3 | ldbE5m2 => apply F.ldbE5m2 | ldbE2m1 => apply F.ldbE2m1 | mmBp2 => apply F.mmBp2 | mmBp3 => apply F.mmBp3
  | mmBp4 => apply F.mmBp4 | mmBp5 => apply F.mmBp5 | mmBp6 => apply F.mmBp6 | mmBp7 => apply F.mmBp7 | mmBp8 => apply F.mmBp8
  | mmBf16 => apply F.mmBf16 | mmx => apply F.mmx | dmm => apply F.dmm | dmmr => apply F.dmmr | dtap => apply F.dtap | ardF32 => apply F.ardF32
  | ardS32 => apply F.ardS32 | awrF32 => apply F.awrF32 | awrS32 => apply F.awrS32 | aclr => apply F.aclr | aexp => apply F.aexp
  | ldcv => apply F.ldcv | ldbm => apply F.ldbm | mvfo => apply F.mvfo | addfo => apply F.addfo | mvsh => apply F.mvsh | shadd => apply F.shadd
  | lish => apply F.lish | xsend => apply F.xsend | xsendLk => apply F.xsendLk | xmcast => apply F.xmcast | xmcastLk => apply F.xmcastLk
  | xredAddF32 => apply F.xredAddF32 | xredMaxF32 => apply F.xredMaxF32 | xredMinF32 => apply F.xredMinF32 | xredAddBf16 => apply F.xredAddBf16
  | xredAddS32 => apply F.xredAddS32 | xredMaxS32 => apply F.xredMaxS32 | ldmap => apply F.ldmap | swapmap => apply F.swapmap
  | retiremap => apply F.retiremap | strays => apply F.strays | lnbind => apply F.lnbind | lnfree => apply F.lnfree | lnmsg => apply F.lnmsg
  | ctset => apply F.ctset | ctclr => apply F.ctclr | nop => apply F.nop | jmp => apply F.jmp | call => apply F.call | jmpr => apply F.jmpr
  | br => apply F.br | callr => apply F.callr | ret => apply F.ret | loop => apply F.loop | loopi => apply F.loopi | step => apply F.step
  | stepr => apply F.stepr | ord => apply F.ord | waitF => apply F.waitF | tbar => apply F.tbar | tail => apply F.tail | endCtx => apply F.endCtx
  | mfs => apply F.mfs | mts => apply F.mts | trap => apply F.trap | tret => apply F.tret | csave => apply F.csave | crest => apply F.crest
  | ckptg => apply F.ckptg | replayg => apply F.replayg | tlbinv => apply F.tlbinv | tlbinva => apply F.tlbinva | enrd => apply F.enrd
  | clkreq => apply F.clkreq | sgjoin => apply F.sgjoin | sgleave => apply F.sgleave | selftest => apply F.selftest | irq => apply F.irq
  | brk => apply F.brk | pwrgive => apply F.pwrgive | pwrask => apply F.pwrask | launch => apply F.launch | waitrun => apply F.waitrun
  | signal => apply F.signal | fence => apply F.fence
  | _ => exact fun _ h => nomatch h

/-- No map assigns OP 0 (R44). -/
theorem decodeOp_zero (sm : SlotMap) (w : BitVec 20) : decodeOp sm 0 w = .error .unassigned := by
  cases sm <;> rfl

theorem op_ne_zero {sm : SlotMap} {i : Instr} (h : i.inMap sm = true) (hn : i ≠ .nop) : i.op ≠ 0 := fun h0 => by
  have hd : decodeOp sm i.op i.operand = .ok i := decodeOp_op_operand i sm h hn
  rw [h0, decodeOp_zero] at hd
  cases hd

/-! ### Slot words (R44) -/

theorem encodeSlot_of_ne_nop {w : Slot} (h : w.ins ≠ .nop) :
    encodeSlot w = w.pt ++ BitVec.ofBool w.fi ++ BitVec.ofBool w.li ++ w.ins.op ++ w.ins.operand := if_neg h

theorem ofBool_getLsbD {n : Nat} (w : BitVec n) (k : Nat) : BitVec.ofBool (w.getLsbD k) = w.extractLsb' k 1 :=
  BitVec.eq_of_getLsbD_eq fun j hj => by
    obtain rfl : j = 0 := by omega
    simp

theorem getLsbD_of_field {n k : Nat} {w : BitVec n} {b : Bool} (h : w.extractLsb' k 1 = BitVec.ofBool b) : w.getLsbD k = b := by
  simpa using congrArg (fun y => y.getLsbD 0) h

section
variable (p : BitVec 3) (f l : Bool) (op : BitVec 7) (x : BitVec 20)

/-- The fields of a slot word, each read from its place. -/
theorem slotWord_operand : (p ++ BitVec.ofBool f ++ BitVec.ofBool l ++ op ++ x).extractLsb' 0 20 = x := exB

theorem slotWord_op : (p ++ BitVec.ofBool f ++ BitVec.ofBool l ++ op ++ x).extractLsb' 20 7 = op := (exT (by decide)).trans exB

theorem slotWord_pt : (p ++ BitVec.ofBool f ++ BitVec.ofBool l ++ op ++ x).extractLsb' 29 3 = p :=
  (exT (by decide)).trans <| (exT (by decide)).trans <| (exT (by decide)).trans <| (exT (by decide)).trans exS

theorem slotWord_fi : (p ++ BitVec.ofBool f ++ BitVec.ofBool l ++ op ++ x).getLsbD 28 = f :=
  getLsbD_of_field <| (exT (by decide)).trans <| (exT (by decide)).trans <| (exT (by decide)).trans exB

theorem slotWord_li : (p ++ BitVec.ofBool f ++ BitVec.ofBool l ++ op ++ x).getLsbD 27 = l :=
  getLsbD_of_field <| (exT (by decide)).trans <| (exT (by decide)).trans exB

end

/-- A word is its path tag, its iteration bits, its opcode and its operand field. -/
theorem slotWord_of_fields (v : W32) : v.extractLsb' 29 3 ++ BitVec.ofBool (v.getLsbD 28) ++ BitVec.ofBool (v.getLsbD 27) ++ v.extractLsb' 20 7 ++
    v.extractLsb' 0 20 = v := by
  simp only [ofBool_getLsbD, join_fields, BitVec.extractLsb'_eq_self]

/-- What a word of a map decodes to, once it is neither the NOP nor refused for its OP or its path tag. -/
theorem decodeSlot_of_fields {sm : SlotMap} {v : W32} {i : Instr} (hop : v.extractLsb' 20 7 ≠ 0) (hpt : (v.extractLsb' 29 3).toNat ≤ 5)
    (hc : sm = .c → v.extractLsb' 29 3 = 0) (hd : decodeOp sm (v.extractLsb' 20 7) (v.extractLsb' 0 20) = .ok i) (hwf : i.wf = true) :
    decodeSlot sm v = .ok { pt := v.extractLsb' 29 3, fi := v.getLsbD 28, li := v.getLsbD 27, ins := i } := by
  have hv : v ≠ 0 := fun h => hop (h ▸ rfl)
  have htag : ¬ (6 ≤ (v.extractLsb' 29 3).toNat ∨ (sm == .c) = true ∧ v.extractLsb' 29 3 ≠ 0) := by
    rintro (h | ⟨h, h'⟩)
    · omega
    · exact h' (hc (beq_iff_eq.mp h))
  simp only [decodeSlot, decodeWith, hv, hop, htag, hd, hwf, if_true, if_false]

theorem decodeSlot_ok {sm : SlotMap} {v : W32} {w : Slot} (h : decodeSlot sm v = .ok w) :
    (v = 0 ∧ w = { pt := 0, fi := false, li := false, ins := .nop }) ∨
    (v.extractLsb' 20 7 ≠ 0 ∧ (v.extractLsb' 29 3).toNat ≤ 5 ∧ (sm = .c → v.extractLsb' 29 3 = 0) ∧
      ∃ i, decodeOp sm (v.extractLsb' 20 7) (v.extractLsb' 0 20) = .ok i ∧ i.wf = true ∧
        w = { pt := v.extractLsb' 29 3, fi := v.getLsbD 28, li := v.getLsbD 27, ins := i }) := by
  rw [decodeSlot, decodeWith] at h
  split at h
  · next hv => exact .inl ⟨hv, (Except.ok.inj h).symm⟩
  split at h
  · cases h
  next hop =>
  split at h
  · cases h
  next htag =>
  push Not at htag
  split at h
  · cases h
  next i hd =>
  split at h
  · next hwf => exact .inr ⟨hop, by omega, fun hc => htag.2 (beq_iff_eq.mpr hc), i, hd, hwf, (Except.ok.inj h).symm⟩
  · cases h

end Sys2Proof.Laws

namespace Sys2Proof.Claims

open Sys2Proof.Laws

theorem decodeSlot_encodeSlot {sm : SlotMap} {w : Slot} (h : goodWord sm w) : decodeSlot sm (encodeSlot w) = .ok w := by
  obtain ⟨hn, hwf, hm, hpt, hc⟩ := h
  have hd : decodeOp sm w.ins.op w.ins.operand = .ok w.ins := decodeOp_op_operand w.ins sm hm hn
  rw [encodeSlot_of_ne_nop hn, decodeSlot_of_fields (i := w.ins)]
  · rw [slotWord_pt, slotWord_fi, slotWord_li]
  · rw [slotWord_op]
    exact op_ne_zero hm hn
  · rw [slotWord_pt]
    exact hpt
  · rw [slotWord_pt]
    exact hc
  · rw [slotWord_op, slotWord_operand]
    exact hd
  · exact hwf

theorem encodeSlot_of_decodeSlot {sm : SlotMap} {v : W32} {w : Slot} (h : decodeSlot sm v = .ok w) :
    encodeSlot w = v ∧ (w.ins = .nop ∨ goodWord sm w) := by
  obtain ⟨rfl, rfl⟩ | ⟨hne, hpt, hc, i, hd, hwf, rfl⟩ := decodeSlot_ok h
  · exact ⟨rfl, .inl rfl⟩
  · obtain ⟨hop, hx, hm⟩ := (branch_decodeOp sm _ _).wordOf hd
    have hn : i ≠ .nop := by
      rintro rfl
      exact hne hop.symm
    refine ⟨?_, .inr ⟨hn, hwf, hm, hpt, hc⟩⟩
    rw [encodeSlot_of_ne_nop hn, hop, hx]
    exact slotWord_of_fields v

/-- Settles O55: each field of an encoded word is read from its place, and every branch of a decoder accepts only the word of its instruction. -/
theorem decodeAndEncodeAgree : Obligations.DecodeAndEncodeAgree :=
  fun _ => ⟨fun _ h => decodeSlot_encodeSlot h, fun _ _ h => encodeSlot_of_decodeSlot h⟩

end Sys2Proof.Claims
end

section
/-! SUPPORT. A general register or a flag written (R74, R128): the statement `Obligations.RegisterWritesTouchOneRegister`. -/

namespace Sys2Proof.Machine

/-! ### A change of the issuing context's registers -/

theorem State.modR_nc (s : State) (f : Regs → Regs) : (s.modR f).nc = { s.nc with regs := f s.nc.regs } := Mach.ctx_modCtx_same ..

theorem State.modR_ctx_other {s : State} {x : Nat} (h : x ≠ s.cx) (f : Regs → Regs) : (s.modR f).m.ctx x = s.m.ctx x :=
  Mach.ctx_modCtx_other h _ _

theorem State.modR_rest (s : State) (f : Regs → Regs) : s.modR f = { s with m := { s.m with ctxs := (s.modR f).m.ctxs } } := rfl

/-! ### General registers and flags -/

theorem Regs.rg_wg (r : Regs) (d : BitVec 6) (v : W64) : (r.wg d v).rg d = if d = 0 then 0 else v := by
  split
  · next hd => rw [hd, Regs.rg_zero]
  · next hd => exact Regs.rg_wg_same hd r v

/-- Only the file of the general registers changes. -/
theorem Regs.wg_rest (r : Regs) (d : BitVec 6) (v : W64) : r.wg d v = { r with g := (r.wg d v).g } := by
  rw [Regs.wg]
  split <;> rfl

/-- The flag `f0` to `f7` of a flag register, and `f8` to `f15` from the settled ones (R56). -/
theorem Regs.flag_eq (r : Regs) (k : Nat) : r.flag k = if k < 8 then r.f.getLsbD k else r.fs.getLsbD (k - 8) := BitVec.getLsbD_append

theorem Regs.flag_setField_same (r : Regs) {k : Nat} (hk : k < 8) (b : Bool) :
    ({ r with f := setField r.f k 1 (BitVec.ofBool b) } : Regs).flag k = b := by
  rw [Regs.flag_eq, if_pos hk, getLsbD_setField _ _ _ _ hk]
  simp

theorem Regs.flag_setField_other (r : Regs) {j k : Nat} (h : j ≠ k) (b : Bool) :
    ({ r with f := setField r.f k 1 (BitVec.ofBool b) } : Regs).flag j = r.flag j := by
  rw [Regs.flag_eq, Regs.flag_eq]
  split
  · next hj => rw [getLsbD_setField _ _ _ _ hj, if_neg (by omega)]
  · rfl

end Sys2Proof.Machine

namespace Sys2Proof.Claims

open Sys2Proof.Machine

/-- Settles O5: a write changes the registers of the issuing context alone, and of those one entry of one file. -/
theorem registerWritesTouchOneRegister : Obligations.RegisterWritesTouchOneRegister := by
  intro s d e v x
  have hg : (s.wg d v).nc = { s.nc with regs := s.nc.regs.wg d v } := State.modR_nc ..
  refine ⟨?_, fun he => ?_, ?_, fun hx => State.modR_ctx_other hx _, State.modR_rest .., fun c j b hc => ?_⟩
  · rw [hg, Regs.rg_wg]
  · rw [hg, Regs.rg_wg_other he]
  · rw [hg, ← Regs.wg_rest]
  have hf : (s.wf c b).nc = { s.nc with regs := { s.nc.regs with f := setField s.nc.regs.f c.toNat 1 (BitVec.ofBool b) } } := State.modR_nc ..
  refine ⟨?_, fun hj => ?_, ?_, fun hx => State.modR_ctx_other hx _, State.modR_rest ..⟩
  · rw [hf, Regs.flag_setField_same _ hc]
  · rw [hf, Regs.flag_setField_other _ fun h => hj (BitVec.eq_of_toNat_eq h)]
  · rw [hf]

end Sys2Proof.Claims
end

section
/-! SUPPORT. System registers read and written (R77, R78, R326): the statement `Obligations.SystemRegistersAreReadAndWritten`. -/

namespace Sys2Proof.Machine

/-! ### The checks of `mfs` and `mts` -/

/-- Of the checks of a C word only those on the register's number concern `mfs` and `mts`. -/
theorem State.checkC_system {s : State} {op n : Nat} (hop : op = 0x40 ∨ op = 0x41) (hm : s.oc.trp.handler = true ∨ n ∉ Claims.hiddenNumbers)
    (hn : n ∈ Claims.sysNumbers) : s.checkC op n = if readOnly s.oc.trp.handler op n = true then some (s.ill 4) else none := by
  have hrep : noRepeat op = false := by rcases hop with rfl | rfl <;> rfl
  have hdly : noDelay op = false := by rcases hop with rfl | rfl <;> rfl
  have hnever : ∀ h, neverIn h op = false := by rcases hop with rfl | rfl <;> decide
  have hpriv : ¬ (s.oc.trp.handler = false ∧ handlerOnly op n = true) := by
    rintro ⟨hf, ho⟩
    have hvis : n ∉ Claims.hiddenNumbers := hm.resolve_left (by rw [hf]; decide)
    have hfree : ∀ k ∈ Claims.sysNumbers, k ∉ Claims.hiddenNumbers → handlerOnly 0x40 k = false ∧ handlerOnly 0x41 k = false := by decide
    rcases hop with rfl | rfl
    · rw [(hfree n hn hvis).1] at ho
      cases ho
    · rw [(hfree n hn hvis).2] at ho
      cases ho
  simp only [State.checkC, hrep, hdly, hnever, hpriv, Bool.false_eq_true, and_false, if_false, false_or]

/-- A value that `mts` may write goes to a register that its mode may write (R78). -/
theorem State.readOnly_of_mtsOk {s : State} {n : Nat} {v : W64} (h : s.mtsOk n v = true) : readOnly s.oc.trp.handler 0x41 n = false := by
  unfold State.mtsOk at h
  split at h
  case h_5 =>
    rw [(Bool.and_eq_true_iff.mp h).1]
    rfl
  case h_10 => cases h
  all_goals simp [readOnly]

end Sys2Proof.Machine

namespace Sys2Proof.Claims

open Sys2Proof.Machine

/-! ### Registers read -/

theorem getD_map_run {s : State} {f : Run → W64} {g : Run → Nat} (h : ∀ r, f r = BitVec.ofNat 64 (g r)) :
    (s.run?.map f).getD 0 = BitVec.ofNat 64 (ofRun s g) := by
  rw [ofRun]
  cases s.run? with
  | none => rfl
  | some r => exact h r

theorem setWidth_eq_ofNat {w : Nat} (v : BitVec w) : v.setWidth 64 = BitVec.ofNat 64 v.toNat := (BitVec.ofNat_toNat 64 v).symm

theorem eq_ofNat (v : W64) : v = BitVec.ofNat 64 v.toNat := (BitVec.setWidth_eq v).symm.trans (setWidth_eq_ofNat v)

theorem runId_eq (r : Run) : r.runId = BitVec.ofNat 64 (r.stream % 16 * 2 ^ 60 + r.pos.toNat % 2 ^ 60) := by
  refine BitVec.eq_of_toNat_eq ?_
  rw [Run.runId, toNat_append_eq_add, BitVec.extractLsb'_toNat]
  simp
  omega

theorem flags_eq (r : Regs) : (r.fs ++ r.f).zeroExtend 64 = BitVec.ofNat 64 (r.f.toNat + 256 * r.fs.toNat) := by
  rw [BitVec.zeroExtend, setWidth_eq_ofNat, toNat_append_eq_add, Nat.add_comm, Nat.mul_comm, show 2 ^ 8 = 256 from rfl]

/-- What `mfs` reads is the value of R77's table. -/
theorem sysRead_eq {n : Nat} (h : n ∈ sysNumbers) (s : State) : s.sysRead n = BitVec.ofNat 64 (sysValue s n) := by
  simp only [sysNumbers, List.mem_cons, List.not_mem_nil, or_false] at h
  rcases h with rfl | rfl | rfl | rfl | rfl | rfl | rfl | rfl | rfl | rfl | rfl | rfl | rfl | rfl | rfl | rfl | rfl | rfl
  · exact flags_eq _
  · exact setWidth_eq_ofNat _
  · exact setWidth_eq_ofNat _
  · exact getD_map_run runId_eq
  · rfl
  · rfl
  · exact setWidth_eq_ofNat _
  · exact getD_map_run fun _ => eq_ofNat _
  · exact getD_map_run fun _ => eq_ofNat _
  · exact getD_map_run fun _ => eq_ofNat _
  · exact getD_map_run fun _ => eq_ofNat _
  · exact getD_map_run fun _ => eq_ofNat _
  · exact getD_map_run fun _ => rfl
  · rfl
  · exact eq_ofNat _
  · exact eq_ofNat _
  · exact eq_ofNat _
  · exact eq_ofNat _

theorem sysRegOk_of_mem {n : BitVec 10} (h : n.toNat ∈ sysNumbers) : sysRegOk n = true := by
  simp only [sysNumbers, List.mem_cons, List.not_mem_nil, or_false] at h
  simp only [sysRegOk, Bool.or_eq_true, Bool.and_eq_true, decide_eq_true_eq, beq_iff_eq]
  omega

theorem systemRegistersAreRead : SystemRegistersAreRead := by
  intro s g n hn hm
  have hc : s.checkC 0x40 n.toNat = none := State.checkC_system (.inl rfl) hm hn
  refine (State.guardC_acts rfl hc).trans ?_
  rw [sysRegOk_of_mem hn, sysRead_eq hn]
  rfl

/-! ### Registers written -/

theorem exec_mts {s : State} {g : BitVec 6} {n : BitVec 10} (hn : n.toNat ∈ sysNumbers) (hm : s.oc.trp.handler = true ∨ n.toNat ∉ hiddenNumbers)
    (hv : s.mtsOk n.toNat (s.rg g) = true) : exec (.mts g n) s = .next (s.sysWrite n.toNat (s.rg g)) := by
  have hc : s.checkC 0x41 n.toNat = none := by
    rw [State.checkC_system (.inr rfl) hm hn, State.readOnly_of_mtsOk hv]
    rfl
  exact (State.guardC_acts rfl hc).trans (if_pos hv)

theorem exec_mts_refused {s : State} {g : BitVec 6} {n : BitVec 10} (hn : n.toNat ∈ sysNumbers)
    (hm : s.oc.trp.handler = true ∨ n.toNat ∉ hiddenNumbers) (hv : ¬ s.mtsOk n.toNat (s.rg g) = true) :
    exec (.mts g n) s = .next (refusedAt s 4) := by
  have hc := State.checkC_system (s := s) (.inr rfl) hm hn
  split at hc
  · exact State.guardC_fails hc _
  · exact (State.guardC_acts rfl hc).trans (if_neg hv)

/-- The lowest bits of a value. -/
theorem low_eq_ofNat (v : W64) (n : Nat) : v.extractLsb' 0 n = BitVec.ofNat n v.toNat := by
  rw [extractLsb'_eq_ofNat, Nat.pow_zero, Nat.div_one]

theorem field_beq_zero {v : W64} {lo n : Nat} : (v.extractLsb' lo n == 0) = true ↔ v.toNat / 2 ^ lo % 2 ^ n = 0 := by
  rw [beq_iff_eq, BitVec.toNat_eq, BitVec.extractLsb'_toNat, Nat.shiftRight_eq_div_pow]
  rfl

section
variable (s : State) (v : W64)

/-! What `mts` may write to each register (R78). -/

theorem mtsOk_vrm : s.mtsOk 0x001 v = true ↔ v.toNat < 32 ∧ (v.toNat % 8 < 4 ∧ v.toNat / 8 = 0 ∨ v.toNat % 8 = 4) := by
  have hv := v.isLt
  show (v.extractLsb' 5 59 == 0 && roundGenOk (v.extractLsb' 0 3) (v.extractLsb' 3 2)) = true ↔ _
  simp only [roundGenOk, Bool.and_eq_true, Bool.or_eq_true, field_beq_zero, decide_eq_true_eq]
  rw [beq_iff_eq, BitVec.extractLsb'_toNat, Nat.shiftRight_eq_div_pow]
  omega

theorem mtsOk_xf : s.mtsOk 0x002 v = true ↔ v.toNat < 32 := by
  have hv := v.isLt
  show (v.extractLsb' 5 59 == 0) = true ↔ _
  rw [field_beq_zero]
  omega

variable (hh : s.oc.trp.handler = true)
include hh

theorem mtsOk_share : s.mtsOk 0x012 v = true ↔ v.toNat ≤ 64 ∧ s.old.otherShares (coreOf s.cx) s.cx + v.toNat ≤ 64 := by
  show (s.oc.trp.handler && v.toNat ≤ 64 && s.old.otherShares (coreOf s.cx) s.cx + v.toNat ≤ 64) = true ↔ _
  simp [hh]

theorem mtsOk_expiry : s.mtsOk 0x013 v = true ↔ v.toNat < 2 ^ 32 := by
  have hv := v.isLt
  show (s.oc.trp.handler && v.extractLsb' 32 32 == 0) = true ↔ _
  rw [hh, Bool.true_and, field_beq_zero]
  omega

theorem mtsOk_tcause :
    s.mtsOk 0x040 v = true ↔ v.toNat / 2 ^ 40 % 2 ^ 8 = 0 ∧ v.toNat / 2 ^ 20 % 2 ^ 12 = 0 ∧ v.toNat / 2 ^ 11 % 2 ^ 4 = 0 := by
  show (s.oc.trp.handler && v.extractLsb' 40 8 == 0 && v.extractLsb' 20 12 == 0 && v.extractLsb' 11 4 == 0) = true ↔ _
  simp only [hh, Bool.true_and, Bool.and_eq_true, field_beq_zero, and_assoc]

theorem mtsOk_tvec : s.mtsOk 0x042 v = true ↔ v.toNat % 4 = 0 := by
  show (s.oc.trp.handler && v.extractLsb' 0 2 == 0) = true ↔ _
  rw [hh, Bool.true_and, field_beq_zero, Nat.pow_zero, Nat.div_one]
  rfl

theorem mtsOk_trec : s.mtsOk 0x043 v = true ↔ v.toNat % 4096 = 0 := by
  show (s.oc.trp.handler && v.extractLsb' 0 12 == 0) = true ↔ _
  rw [hh, Bool.true_and, field_beq_zero, Nat.pow_zero, Nat.div_one]
  rfl

end

section
variable (s : State) (v : W64)

/-! What a legal `mts` leaves (R326). -/

theorem sysWrite_flags : s.sysWrite 0x000 v = ctxWith s (fun c => { c with regs := { c.regs with f := BitVec.ofNat 8 (v.toNat % 256) } }) := by
  have hlow : v.extractLsb' 0 8 = BitVec.ofNat 8 (v.toNat % 256) := BitVec.eq_of_toNat_eq (by simp)
  rw [← hlow]
  rfl

theorem sysWrite_vrm : s.sysWrite 0x001 v = ctxWith s (fun c => { c with regs := { c.regs with vrm := BitVec.ofNat 5 v.toNat } }) := by
  rw [← low_eq_ofNat]
  rfl

theorem sysWrite_xf : s.sysWrite 0x002 v = ctxWith s (fun c => { c with regs := { c.regs with xf := BitVec.ofNat 5 v.toNat } }) := by
  rw [← low_eq_ofNat]
  rfl

theorem sysWrite_expiry (hv : v.toNat < 2 ^ 32) : s.sysWrite 0x013 v = pkgWith s (fun p =>
    { p with expiry := BitVec.ofNat 32 v.toNat, reuse := p.reuse.map (fun e => (e.1, (e.2.1, max e.2.2 v.toNat))) }) := by
  have hlow : (v.extractLsb' 0 32).toNat = v.toNat := by rw [low_eq_ofNat, BitVec.toNat_ofNat, Nat.mod_eq_of_lt hv]
  rw [← low_eq_ofNat, ← hlow]
  rfl

end

/-- A register whose legal values are those of `P`: the value is written, or the word is refused. -/
theorem exec_mts_of_legal {s : State} {g : BitVec 6} {n : BitVec 10} {P : Prop} {t : State} (hn : n.toNat ∈ sysNumbers)
    (hm : s.oc.trp.handler = true ∨ n.toNat ∉ hiddenNumbers) (hP : s.mtsOk n.toNat (s.rg g) = true ↔ P)
    (ht : P → s.sysWrite n.toNat (s.rg g) = t) : (P → exec (.mts g n) s = .next t) ∧ (¬ P → exec (.mts g n) s = .next (refusedAt s 4)) :=
  ⟨fun h => ht h ▸ exec_mts hn hm (hP.mpr h), fun h => exec_mts_refused hn hm (mt hP.mp h)⟩

theorem exec_mts_readOnly {s : State} {n : BitVec 10} (h : n.toNat ∈ [0x010, 0x011, 0x020, 0x021, 0x022, 0x023, 0x024, 0x030, 0x031])
    (g : BitVec 6) : exec (.mts g n) s = .next (refusedAt s 4) := by
  have hn : ∀ k ∈ [0x010, 0x011, 0x020, 0x021, 0x022, 0x023, 0x024, 0x030, 0x031], k ∈ sysNumbers ∧ k ∉ hiddenNumbers := by decide
  refine exec_mts_refused (hn _ h).1 (.inr (hn _ h).2) ?_
  simp only [List.mem_cons, List.not_mem_nil, or_false] at h
  rcases h with h | h | h | h | h | h | h | h | h
  all_goals
    rw [h]
    exact Bool.false_ne_true

theorem systemRegistersAreWritten : SystemRegistersAreWritten := by
  intro s g
  have vrm := exec_mts_of_legal (s := s) (g := g) (n := 0x001) (by decide) (.inr (by decide)) (mtsOk_vrm ..) fun _ => sysWrite_vrm ..
  have xf := exec_mts_of_legal (s := s) (g := g) (n := 0x002) (by decide) (.inr (by decide)) (mtsOk_xf ..) fun _ => sysWrite_xf ..
  have share := fun h => exec_mts_of_legal (s := s) (g := g) (n := 0x012) (by decide) (.inl h) (mtsOk_share _ _ h) fun _ => rfl
  have expiry := fun h => exec_mts_of_legal (s := s) (g := g) (n := 0x013) (by decide) (.inl h) (mtsOk_expiry _ _ h) (sysWrite_expiry _ _)
  have tcause := fun h => exec_mts_of_legal (s := s) (g := g) (n := 0x040) (by decide) (.inl h) (mtsOk_tcause _ _ h) fun _ => rfl
  have tvec := fun h => exec_mts_of_legal (s := s) (g := g) (n := 0x042) (by decide) (.inl h) (mtsOk_tvec _ _ h) fun _ => rfl
  have trec := fun h => exec_mts_of_legal (s := s) (g := g) (n := 0x043) (by decide) (.inl h) (mtsOk_trec _ _ h) fun _ => rfl
  refine ⟨?_, fun h h' => vrm.1 ⟨h, h'⟩, vrm.2, xf.1, fun h => xf.2 (Nat.not_lt.mpr h), fun h hv hs => (share h).1 ⟨hv, hs⟩,
    fun h hv => (share h).2 (by omega), fun h => (expiry h).1, fun h hv => (expiry h).2 (Nat.not_lt.mpr hv),
    fun h h1 h2 h3 => (tcause h).1 ⟨h1, h2, h3⟩, fun h => (tcause h).2, fun h => ?_, fun h => (tvec h).1, fun h => (tvec h).2,
    fun h => (trec h).1, fun h => (trec h).2, fun n hn => exec_mts_readOnly hn g, fun h => ?_⟩
  · exact (exec_mts (n := 0x000) (by decide) (.inr (by decide)) rfl).trans (congrArg _ (sysWrite_flags ..))
  · exact exec_mts (n := 0x041) (by decide) (.inl h) h
  · exact exec_mts_refused (by decide) (.inr (by decide)) fun hv => h (Bool.and_eq_true_iff.mp hv).1

/-- Settles O9: `mfs` by the table of R77, `mts` register by register from the values that R78 allows. -/
theorem systemRegistersAreReadAndWritten : Obligations.SystemRegistersAreReadAndWritten := ⟨systemRegistersAreRead, systemRegistersAreWritten⟩

end Sys2Proof.Claims
end

section
/-! SUPPORT. Sends, multicasts and collective reductions as they are issued (R99, R258, R271, R273 to R276, R279, R280): the statement
`Obligations.SendsAreQueued`. The source check of the model tries the two outermost positions of a box; that they decide for every element
is what this part shows. -/

namespace Sys2Proof.Machine

/-! ### Where an element lies (R104, R265) -/

/-- The lowest byte of element `q`; those of a plane group of `.bp8` are apart. -/
def firstByte (f : Nat) (base q : Int) : Int :=
  if f = 8 then base + q / 2 else if f = 0xC then base + 256 * (q / 256) + q % 256 / 8 else base + fmtBytes f * q

/-- The highest byte of element `q`. -/
def lastByte (f : Nat) (base q : Int) : Int :=
  firstByte f base q + if f = 8 then 0 else if f = 0xC then 224 else fmtBytes f - 1

theorem fmtBytes_pos (f : Nat) : 0 < fmtBytes f := by
  unfold fmtBytes
  split
  · decide
  split <;> decide

theorem firstByte_mono {f : Nat} {base q r : Int} (h : q ≤ r) : firstByte f base q ≤ firstByte f base r := by
  unfold firstByte
  split
  · omega
  split
  · omega
  · exact Int.add_le_add_left (Int.mul_le_mul_of_nonneg_left h (Int.natCast_nonneg _)) _

theorem lastByte_mono {f : Nat} {base q r : Int} (h : q ≤ r) : lastByte f base q ≤ lastByte f base r :=
  Int.add_le_add_right (firstByte_mono h) _

/-- Locations that lie between two of them are in a window exactly if these two are. -/
theorem within_iff {α : Type} {l : List α} {loc : α → Int} {a b : α} (ha : a ∈ l) (hb : b ∈ l)
    (h : ∀ p ∈ l, loc a ≤ loc p ∧ loc p ≤ loc b) (n : Int) : (∀ p ∈ l, 0 ≤ loc p ∧ loc p < n) ↔ 0 ≤ loc a ∧ loc b < n :=
  ⟨fun hl => ⟨(hl a ha).1, (hl b hb).2⟩, fun hn p hp => ⟨hn.1.trans (h p hp).1, (h p hp).2.trans_lt hn.2⟩⟩

/-- The bytes of an element lie in a window exactly if its first and its last do. -/
theorem elemBits_within (f : Nat) (base q : Int) (n : Int) :
    (∀ p ∈ elemBits f base q, 0 ≤ p.1 ∧ p.1 < n) ↔ 0 ≤ firstByte f base q ∧ lastByte f base q < n := by
  unfold elemBits lastByte firstByte
  by_cases h8 : f = 8
  · simp [h8]
  by_cases hC : f = 0xC
  · subst hC
    simp only [Nat.reduceEqDiff, if_false, if_true, List.forall_mem_map]
    rw [within_iff (a := 7) (b := 0) (by decide) (by decide) fun j hj => by have := List.mem_range.mp hj; omega]
    omega
  · have hpos := fmtBytes_pos f
    simp only [h8, hC, if_false, List.forall_mem_map]
    rw [within_iff (a := 0) (b := fmtBytes f - 1) (List.mem_range.mpr hpos) (List.mem_range.mpr (by omega)) fun j hj => by
      have := List.mem_range.mp hj; omega]
    omega

/-! ### The outermost positions of a box (R273, R276) -/

theorem step_between {u e : Nat} (h : u < e) (t : Int) : min 0 (((e : Int) - 1) * t) ≤ u * t ∧ u * t ≤ max 0 (((e : Int) - 1) * t) := by
  have hu : (0 : Int) ≤ u ∧ (u : Int) ≤ e - 1 := by omega
  obtain ht | ht := le_total 0 t
  · exact ⟨min_le_of_left_le (mul_nonneg hu.1 ht), le_max_of_le_right (mul_le_mul_of_nonneg_right hu.2 ht)⟩
  · exact ⟨min_le_of_right_le (mul_le_mul_of_nonpos_right hu.2 ht), le_max_of_le_left (mul_nonpos_of_nonneg_of_nonpos hu.1 ht)⟩

/-- The far end of a dimension is a position of the box, as its near end is. -/
theorem step_attains {e : Nat} (h : 0 < e) (t : Int) :
    (∃ u < e, (u : Int) * t = min 0 (((e : Int) - 1) * t)) ∧ ∃ u < e, (u : Int) * t = max 0 (((e : Int) - 1) * t) := by
  have hlast : ((e - 1 : Nat) : Int) = e - 1 := by omega
  have near : ∃ u < e, (u : Int) * t = 0 := ⟨0, h, by simp⟩
  have far : ∃ u < e, (u : Int) * t = ((e : Int) - 1) * t := ⟨e - 1, by omega, by rw [hlast]⟩
  constructor
  · obtain hm | hm := min_choice 0 (((e : Int) - 1) * t)
    · rwa [hm]
    · rwa [hm]
  · obtain hm | hm := max_choice 0 (((e : Int) - 1) * t)
    · rwa [hm]
    · rwa [hm]

end Sys2Proof.Machine

namespace Sys2Proof.Claims

open Sys2Proof.Machine

section
variable {b : Box} (hsize : b.size.length = 4) (hstrd : b.strd.length = 4)
include hsize hstrd

/-- The positions of a box lie between the two of its span. -/
theorem pos_between {u : List Nat} (hu : inBox b u) : b.span.1 ≤ b.pos u ∧ b.pos u ≤ b.span.2 := by
  obtain ⟨e0, e1, e2, e3, he⟩ := List.length_eq_four.mp hsize
  obtain ⟨t0, t1, t2, t3, ht⟩ := List.length_eq_four.mp hstrd
  obtain ⟨hl, hin⟩ := hu
  obtain ⟨u0, u1, u2, u3, rfl⟩ := List.length_eq_four.mp hl
  rw [he] at hin
  have h0 := step_between (u := u0) (e := e0) (hin 0 (by decide)) t0
  have h1 := step_between (u := u1) (e := e1) (hin 1 (by decide)) t1
  have h2 := step_between (u := u2) (e := e2) (hin 2 (by decide)) t2
  have h3 := step_between (u := u3) (e := e3) (hin 3 (by decide)) t3
  simp only [Box.pos, Box.span, he, ht, List.zip_cons_cons, List.zipWith_cons_cons, List.zipWith_nil_left, List.zip_nil_left, List.foldl_cons,
    List.foldl_nil]
  constructor <;> linarith

/-- Of a box that is not empty both ends of its span are positions. -/
theorem span_attained (hpos : ∀ d < 4, 0 < b.size.getD d 0) :
    (∃ u, inBox b u ∧ b.pos u = b.span.1) ∧ ∃ u, inBox b u ∧ b.pos u = b.span.2 := by
  obtain ⟨e0, e1, e2, e3, he⟩ := List.length_eq_four.mp hsize
  obtain ⟨t0, t1, t2, t3, ht⟩ := List.length_eq_four.mp hstrd
  rw [he] at hpos
  obtain ⟨⟨u0, hu0, l0⟩, w0, hw0, g0⟩ := step_attains (e := e0) (hpos 0 (by decide)) t0
  obtain ⟨⟨u1, hu1, l1⟩, w1, hw1, g1⟩ := step_attains (e := e1) (hpos 1 (by decide)) t1
  obtain ⟨⟨u2, hu2, l2⟩, w2, hw2, g2⟩ := step_attains (e := e2) (hpos 2 (by decide)) t2
  obtain ⟨⟨u3, hu3, l3⟩, w3, hw3, g3⟩ := step_attains (e := e3) (hpos 3 (by decide)) t3
  have mem : ∀ {v0 v1 v2 v3 : Nat}, v0 < e0 → v1 < e1 → v2 < e2 → v3 < e3 → inBox b [v0, v1, v2, v3] := fun h0 h1 h2 h3 =>
    ⟨rfl, fun d hd => by rw [he]; interval_cases d <;> assumption⟩
  refine ⟨⟨_, mem hu0 hu1 hu2 hu3, ?_⟩, _, mem hw0 hw1 hw2 hw3, ?_⟩
  all_goals
    simp only [Box.pos, Box.span, he, ht, List.zip_cons_cons, List.zipWith_cons_cons, List.zipWith_nil_left, List.zip_nil_left, List.foldl_cons,
      List.foldl_nil, l0, l1, l2, l3, g0, g1, g2, g3]

end

/-- The model's test of the two outermost positions says of every element whether its bytes lie in the window (R276). -/
theorem inside_iff_boxWithin {b : Box} (hsize : b.size.length = 4) (hstrd : b.strd.length = 4) (hpos : ∀ d < 4, 0 < b.size.getD d 0) (s : State)
    (sp : Space) : b.inside (s.old.window s.cx sp).2 = true ↔ boxWithin s sp b := by
  have hin : b.inside (s.old.window s.cx sp).2 = true ↔
      (∀ p ∈ elemBits b.fmt b.src b.span.1, 0 ≤ p.1 ∧ p.1 < (s.old.window s.cx sp).2) ∧
      ∀ p ∈ elemBits b.fmt b.src b.span.2, 0 ≤ p.1 ∧ p.1 < (s.old.window s.cx sp).2 := by
    simp only [Box.inside, Bool.and_eq_true, List.all_eq_true, decide_eq_true_eq]
  rw [hin]
  constructor
  · rintro ⟨hlo, hhi⟩ u hu
    obtain ⟨hl, hr⟩ := pos_between hsize hstrd hu
    rw [elemBits_within] at hlo hhi ⊢
    exact ⟨hlo.1.trans (firstByte_mono hl), (lastByte_mono hr).trans_lt hhi.2⟩
  · intro h
    obtain ⟨⟨u, hu, hlo⟩, w, hw, hhi⟩ := span_attained hsize hstrd hpos
    exact ⟨hlo ▸ h u hu, hhi ▸ h w hw⟩

theorem empty_iff_noElement (b : Box) : b.empty = true ↔ noElement b := by
  simp only [Box.empty, noElement, List.any_eq_true, beq_iff_eq]
  constructor
  · rintro ⟨e, he, rfl⟩
    obtain ⟨d, hd, he⟩ := List.mem_take_iff_getElem.mp he
    exact ⟨d, by omega, by rw [List.getD_eq_getElem _ _ (by omega), he]⟩
  · rintro ⟨d, hd, he⟩
    have hl : d < b.size.length := by
      by_contra hl
      rw [List.getD_eq_default _ _ (by omega)] at he
      cases he
    exact ⟨0, List.mem_take_iff_getElem.mpr ⟨d, by omega, by rwa [List.getD_eq_getElem _ _ hl] at he⟩, rfl⟩

/-- The extents of a valid box that is not empty: those beyond its dimension are 1 (R274). -/
theorem size_pos {b : Box} {k : Nat} (hsize : b.size.length = 4) (hok : b.ok k = true) (hne : ¬ noElement b) : ∀ d < 4, 0 < b.size.getD d 0 := by
  intro d hd
  have hdef : b.size.getD d 0 = b.size.getD d 1 := by rw [List.getD_eq_getElem _ _ (hsize ▸ hd), List.getD_eq_getElem _ _ (hsize ▸ hd)]
  rw [hdef]
  by_cases hdim : d < b.dim
  · exact Nat.pos_of_ne_zero fun h => hne ⟨d, hdim, h⟩
  · simp only [Box.ok, Bool.and_eq_true, List.all_eq_true, List.mem_range] at hok
    have hall := hok.2 d hd
    rw [if_pos (Nat.not_lt.mp hdim)] at hall
    simp only [Bool.and_eq_true, beq_iff_eq] at hall
    omega

/-! ### Sends (R276) -/

section
variable {s : State} {i : Instr} {sp : Space} {k : BitVec 4} {t : BitVec 5} {d : BitVec 6} {ds : List W64}

theorem modCore_tid (m : Mach) (x n : Nat) : m.modCore x (fun c => { c with tid := c.tid + BitVec.ofNat 12 n }) =
    { m with cores := kput x { m.core x with tid := BitVec.ofNat 12 ((m.core x).tid.toNat + n) } m.cores } := by
  rw [BitVec.ofNat_add, BitVec.ofNat_toNat, BitVec.setWidth_eq]
  rfl

/-- A send whose source no check refuses waits in the X queue, and a transfer number is taken for each destination. -/
theorem xIssues_of_send (h : exec i s = s.send i sp k t d ds) (hs : s.sourceOk sp (boxOf s.regs k.toNat) = none) :
    xIssues i s (tidsTaken s ds.length) t.toNat (sendOp s i sp k d ds
      (if (boxOf s.regs k.toNat).empty then [] else
        (boxOf s.regs k.toNat).runs.map ((boxOf s.regs k.toNat).runReads ((s.old.window s.cx sp).1 + (boxOf s.regs k.toNat).src)))) := by
  simp only [State.send, hs, modCore_tid, BitVec.zeroExtend, setWidth_eq_ofNat] at h
  have fresh : After s { s with m := { tidsTaken s ds.length with nextId := s.m.nextId + 1, ops := s.m.ops ++ [s.m.nextId] } } s.nc
      { tidsTaken s ds.length with nextId := s.m.nextId + 1, ops := s.m.ops ++ [s.m.nextId] } := ⟨rfl, fun _ _ => rfl, rfl⟩
  exact ⟨_, h, fresh.modC _⟩

theorem trapsAt_of_send {c : Cause} (h : exec i s = s.send i sp k t d ds) (hs : s.sourceOk sp (boxOf s.regs k.toNat) = some c) :
    trapsAt s i c.code c.sub c.addr := by
  simp only [State.send, hs] at h
  exact h

/-- A send by its source: an empty box, the bytes that are read, the window, the alignment of SRC (R276). -/
theorem sends_of_send (h : exec i s = s.send i sp k t d ds) (hok : (boxOf s.regs k.toNat).ok k.toNat = true) : sends s i sp k t d ds := by
  have hempty := empty_iff_noElement (boxOf s.regs k.toNat)
  have hin := fun hne => inside_iff_boxWithin rfl rfl (size_pos rfl hok hne) s sp
  refine ⟨fun hno => ?_, fun hne hw hal => ?_, fun hne hw => ?_, fun hne hw hal => ?_⟩
  · have he : (boxOf s.regs k.toNat).empty = true := hempty.mpr hno
    simpa only [he, if_true] using xIssues_of_send h (if_pos he)
  all_goals
    have he : ¬ (boxOf s.regs k.toNat).empty = true := mt hempty.mp hne
  · have hb : (boxOf s.regs k.toNat).inside (s.old.window s.cx sp).2 = true := (hin hne).mpr hw
    have hs := xIssues_of_send h ((if_neg he).trans ((if_neg (by rw [hb]; decide)).trans (if_neg fun e => bne_iff_ne.mp e hal)))
    rwa [if_neg he] at hs
  · have hb : (!(boxOf s.regs k.toNat).inside (s.old.window s.cx sp).2) = true := by
      rw [Bool.not_eq_true', Bool.eq_false_iff]
      exact mt (hin hne).mp hw
    exact trapsAt_of_send h ((if_neg he).trans (if_pos hb))
  · have hb : (boxOf s.regs k.toNat).inside (s.old.window s.cx sp).2 = true := (hin hne).mpr hw
    exact trapsAt_of_send h ((if_neg he).trans ((if_neg (by rw [hb]; decide)).trans (if_pos (bne_iff_ne.mpr hal))))

end

/-! ### The words of the X slot that send (R276, R279, R280) -/

section
variable {i : Instr} {sp : Space} {k : BitVec 4} {t : BitVec 5} {d : BitVec 6} (s : State)

/-- What the words that send to one destination share. -/
theorem exec_sendForm (h : sendForm i = some (sp, k, t, d)) : exec i s = s.guard i (s.send i sp k t d [s.rg d]) ∧
    litsOk s.lit s.iss.hdr.lits.toNat i = true ∧ heldBy s.place s.lit i = true ∧
    (s.valuesOk i = true → (boxOf s.regs k.toNat).ok k.toNat = true) := by
  unfold sendForm at h
  split at h
  all_goals cases h
  all_goals
    refine ⟨rfl, rfl, rfl, fun hv => ?_⟩
    simp only [State.valuesOk, Bool.and_eq_true] at hv
    tauto

/-- What the multicasts share. -/
theorem exec_castForm (h : castForm i = some (sp, k, t, d)) : exec i s = s.guard i (s.multicast i sp k t d) ∧
    litsOk s.lit s.iss.hdr.lits.toNat i = true ∧ heldBy s.place s.lit i = true ∧
    (s.valuesOk i = true → (boxOf s.regs k.toNat).ok k.toNat = true) := by
  unfold castForm at h
  split at h
  all_goals cases h
  all_goals exact ⟨rfl, rfl, rfl, fun hv => (Bool.and_eq_true_iff.mp hv).1⟩

end

/-- The list word of a multicast gives the number of members, and the offset of their list in the LL window (R279). -/
theorem memberCount_eq (w : W64) : (w.extractLsb' 32 5).toNat = w.toNat / 2 ^ 32 % 32 := by
  rw [BitVec.extractLsb'_toNat, Nat.shiftRight_eq_div_pow]

theorem listOffset_eq (w : W64) : (w.extractLsb' 0 32).zeroExtend 64 = BitVec.ofNat 64 (w.toNat % 2 ^ 32) := by
  rw [BitVec.zeroExtend, setWidth_eq_ofNat, BitVec.extractLsb'_toNat]
  rfl

/-- Settles O37: a source check that tries the outermost positions decides for every element; a multicast is a send to the members of its list. -/
theorem sendsAreQueued : Obligations.SendsAreQueued := by
  intro s i sp k t d
  refine ⟨fun hf => ?_, fun hf hv => ?_, fun hf hv => ?_⟩
  · obtain ⟨hx, hl, hh, hbox⟩ := exec_sendForm s hf
    exact ⟨fun hv => sends_of_send (hx.trans (State.guard_acts ⟨hl, hh, hv⟩ _)) (hbox hv), fun hv => hx.trans (State.guard_bad_values hl hv _)⟩
  · obtain ⟨hx, hl, hh, hbox⟩ := exec_castForm s hf
    simp only [State.guard_acts ⟨hl, hh, hv⟩, State.multicast, memberCount_eq, listOffset_eq] at hx
    intro n a member
    refine ⟨fun hin hall => ?_, fun hin hbad => ?_, fun hout => ?_, fun hw hal => ?_⟩
    · rw [local_inside hin] at hx
      have hmem : ((List.range n).map member).all sendDestOk = true := by
        rw [List.all_eq_true, List.forall_mem_map]
        exact fun j hj => hall j (List.mem_range.mp hj)
      exact sends_of_send (hx.trans (if_pos hmem)) (hbox hv)
    · rw [local_inside hin] at hx
      obtain ⟨j, hj, hbad⟩ := hbad
      refine hx.trans (if_neg fun hmem => ?_)
      rw [List.all_eq_true, List.forall_mem_map] at hmem
      exact Bool.false_ne_true (hbad.symm.trans (hmem j (List.mem_range.mpr hj)))
    · rw [local_outside hout] at hx
      exact hx
    · rw [local_misaligned hw hal] at hx
      exact hx
  · obtain ⟨hx, hl, -⟩ := exec_castForm s hf
    exact hx.trans (State.guard_bad_values hl hv _)

end Sys2Proof.Claims
end

section
/-! SUPPORT. Rounding to a multiple of a power of two, on real numbers (R106): what the model's integers decide is what the real value decides. -/

namespace Sys2Proof.Machine

open Sys2Proof.Claims

/-! ### The choice between two neighbours -/

/-- The part `t` of a step above the multiple `n` is rounded away from zero (R106). -/
def AwayFromZero (r : Round) (neg : Bool) (n : Nat) (t : ℝ) : Prop :=
  match r with
  | .rne => 1 / 2 < t ∨ (t = 1 / 2 ∧ n % 2 = 1)
  | .rz => False
  | .rd => neg = true
  | .ru => neg = false
  | .sr w => if neg then ¬ (w.toNat : Int) < ⌊(1 - t) * 2 ^ 32⌋ else (w.toNat : Int) < ⌊t * 2 ^ 32⌋

/-- `k` is the multiple that the magnitude `z` is rounded to, and `i` says whether that changed it. -/
def StepsTo (r : Round) (neg : Bool) (z : ℝ) (k : Nat) (i : Bool) : Prop :=
  ∃ (n : Nat) (t : ℝ), z = n + t ∧ 0 ≤ t ∧ t < 1 ∧ (i = true ↔ t ≠ 0) ∧ ((k = n + 1 ∧ t ≠ 0 ∧ AwayFromZero r neg n t) ∨
    (k = n ∧ (t = 0 ∨ ¬ AwayFromZero r neg n t)))

theorem exists_stepsTo (r : Round) (neg : Bool) {z : ℝ} (hz : 0 ≤ z) : ∃ k i, StepsTo r neg z k i := by
  classical
  have hn : (⌊z⌋₊ : ℝ) ≤ z := Nat.floor_le hz
  have hlt := Nat.lt_floor_add_one z
  by_cases h : z - ⌊z⌋₊ ≠ 0 ∧ AwayFromZero r neg ⌊z⌋₊ (z - ⌊z⌋₊)
  · exact ⟨⌊z⌋₊ + 1, decide (z - ⌊z⌋₊ ≠ 0), _, _, (add_sub_cancel ..).symm, by linarith, by linarith, decide_eq_true_iff, .inl ⟨rfl, h⟩⟩
  · refine ⟨⌊z⌋₊, decide (z - ⌊z⌋₊ ≠ 0), _, _, (add_sub_cancel ..).symm, by linarith, by linarith, decide_eq_true_iff, .inr ⟨rfl, ?_⟩⟩
    rwa [not_and_or, not_not] at h

/-- A magnitude below an integer is not rounded beyond it, one above not below it. -/
theorem StepsTo.le {r : Round} {neg i : Bool} {z : ℝ} {k j : Nat} (h : StepsTo r neg z k i) (hz : (j : ℝ) ≤ z) : j ≤ k := by
  obtain ⟨n, t, rfl, -, ht, -, hk⟩ := h
  have : j < n + 1 := by exact_mod_cast hz.trans_lt (add_lt_add_right ht (n : ℝ))
  omega

theorem StepsTo.ge {r : Round} {neg i : Bool} {z : ℝ} {k j : Nat} (h : StepsTo r neg z k i) (hz : z ≤ j) : k ≤ j := by
  obtain ⟨n, t, rfl, ht, -, -, ⟨rfl, ht0, -⟩ | ⟨rfl, -⟩⟩ := h
  · have hlt : (n : ℝ) < j := (lt_add_of_pos_right _ (ht.lt_of_ne' ht0)).trans_le hz
    exact_mod_cast hlt
  · exact_mod_cast (le_add_of_nonneg_right ht).trans hz

/-- Rounding changes a magnitude where it says so. -/
theorem StepsTo.inexact_iff {r : Round} {neg i : Bool} {z : ℝ} {k : Nat} (h : StepsTo r neg z k i) : i = true ↔ (k : ℝ) ≠ z := by
  obtain ⟨n, t, rfl, ht, hlt, hi, ⟨rfl, ht0, -⟩ | ⟨rfl, -⟩⟩ := h
  · refine hi.trans ⟨fun _ h => ?_, fun _ => ht0⟩
    push_cast at h
    linarith
  · rw [hi, ne_eq, ne_eq, eq_comm (a := (k : ℝ)), add_eq_left]

/-- ⌊`t` × 2^32⌋ of a fraction with the denominator 2^`s`. -/
theorem floor_fraction (a s : Nat) : ⌊(a : ℝ) / 2 ^ s * 2 ^ 32⌋ = ((a * 2 ^ 32 / 2 ^ s : Nat) : Int) := by
  have h : (a : ℝ) / 2 ^ s * 2 ^ 32 = ((a * 2 ^ 32 : Nat) : ℝ) / ((2 ^ s : Nat) : ℝ) := by
    push_cast
    ring
  rw [h, ← Int.natCast_floor_eq_floor (by positivity), Nat.floor_div_eq_div]

/-- The model's decision on a remainder is that on the fraction (R106). -/
theorem roundsUp_iff {r : Round} {neg : Bool} {n rem s : Nat} (h0 : rem ≠ 0) (hs : 0 < s) (hlt : rem < 2 ^ s) :
    roundsUp r neg n rem s = true ↔ AwayFromZero r neg n ((rem : ℝ) / 2 ^ s) := by
  obtain ⟨s, rfl⟩ : ∃ k, s = k + 1 := ⟨s - 1, by omega⟩
  have hp : (0 : ℝ) < 2 ^ s := pow_pos two_pos s
  have hhalf : (1 : ℝ) / 2 = ((2 ^ s : Nat) : ℝ) / 2 ^ (s + 1) := by
    push_cast
    rw [pow_succ]
    field_simp
  simp only [roundsUp, if_neg h0, AwayFromZero, Nat.add_sub_cancel]
  cases r with
  | rne =>
    rw [hhalf, div_lt_div_iff_of_pos_right (by positivity), div_left_inj' (by positivity), Nat.cast_lt, Nat.cast_inj]
    simp
  | rz => simp
  | rd => simp
  | ru => simp
  | sr w =>
    have hrest : 1 - (rem : ℝ) / 2 ^ (s + 1) = ((2 ^ (s + 1) - rem : Nat) : ℝ) / 2 ^ (s + 1) := by
      rw [Nat.cast_sub hlt.le]
      push_cast
      field_simp
    simp only [hrest, floor_fraction, Nat.cast_lt]
    cases neg <;> simp [-Nat.reducePow]

/-- ± `m` × 2^`e` in steps of 2^`q`, as the model rounds it. -/
theorem stepsTo_roundAt (r : Round) (neg : Bool) (m : Nat) (e q : Int) :
    StepsTo r neg ((m : ℝ) * (2 : ℝ) ^ e / (2 : ℝ) ^ q) (roundAt r neg m e q).1 (roundAt r neg m e q).2 := by
  rw [mul_div_assoc, ← zpow_sub₀ two_ne_zero]
  by_cases hq : q ≤ e
  · have hv : (m : ℝ) * (2 : ℝ) ^ (e - q) = ((m * 2 ^ (e - q).toNat : Nat) : ℝ) := by
      rw [Nat.cast_mul, Nat.cast_pow, Nat.cast_ofNat, ← zpow_natCast, Int.toNat_of_nonneg (by omega)]
    rw [roundAt, if_pos hq]
    exact ⟨_, 0, by rw [hv, add_zero], le_refl _, one_pos, by simp, .inr ⟨rfl, .inl rfl⟩⟩
  · obtain ⟨s, hs, hpos⟩ : ∃ s : Nat, q - e = s ∧ 0 < s := ⟨(q - e).toNat, by omega, by omega⟩
    have hsplit := Nat.div_add_mod m (2 ^ s)
    have hlt := Nat.mod_lt m (Nat.two_pow_pos s)
    have hp : (0 : ℝ) < 2 ^ s := pow_pos two_pos s
    have hv : (m : ℝ) * (2 : ℝ) ^ (e - q) = ((m / 2 ^ s : Nat) : ℝ) + ((m % 2 ^ s : Nat) : ℝ) / 2 ^ s := by
      rw [show e - q = -(s : Int) by omega, zpow_neg, zpow_natCast, ← div_eq_mul_inv, div_eq_iff hp.ne', add_mul, div_mul_cancel₀ _ hp.ne']
      exact_mod_cast (mul_comm (2 ^ s) (m / 2 ^ s) ▸ hsplit).symm
    have ht : ((m % 2 ^ s : Nat) : ℝ) / 2 ^ s ≠ 0 ↔ m % 2 ^ s ≠ 0 := by
      rw [ne_eq, div_eq_zero_iff, or_iff_left hp.ne', Nat.cast_eq_zero]
    rw [roundAt, if_neg hq, show (q - e).toNat = s by omega]
    refine ⟨m / 2 ^ s, _, hv, by positivity, (div_lt_one hp).mpr (by exact_mod_cast hlt), by rw [ht]; simp, ?_⟩
    by_cases h0 : m % 2 ^ s = 0
    · exact .inr ⟨if_neg (by simp [roundsUp, h0]), .inl (not_not.mp (mt ht.mp (not_not.mpr h0)))⟩
    · have hup := roundsUp_iff (r := r) (neg := neg) (n := m / 2 ^ s) h0 hpos hlt
      by_cases h : roundsUp r neg (m / 2 ^ s) (m % 2 ^ s) s = true
      · exact .inl ⟨if_pos h, ht.mpr h0, hup.mp h⟩
      · exact .inr ⟨if_neg h, .inr (mt hup.mpr h)⟩

/-- Magnitudes between the same two multiples of 2^-32 are rounded alike: no mode looks further (R106). -/
theorem StepsTo.of_same_cell {r : Round} {neg i : Bool} {y z : ℝ} {k : Nat} (h : StepsTo r neg y k i) {j : Nat}
    (hy : (j : ℝ) < y * 2 ^ 32 ∧ y * 2 ^ 32 < j + 1) (hz : (j : ℝ) < z * 2 ^ 32 ∧ z * 2 ^ 32 < j + 1) : StepsTo r neg z k i := by
  obtain ⟨n, t, rfl, ht, hlt, hi, hk⟩ := h
  obtain ⟨c, rfl⟩ : ∃ c, j = n * 2 ^ 32 + c := by
    refine ⟨j - n * 2 ^ 32, (Nat.add_sub_cancel' ?_).symm⟩
    have : ((n * 2 ^ 32 : Nat) : ℝ) < ((j + 1 : Nat) : ℝ) := by push_cast; nlinarith
    exact Nat.lt_succ_iff.mp (Nat.cast_lt.mp this)
  have hc : c < 2 ^ 32 := by
    have : ((n * 2 ^ 32 + c : Nat) : ℝ) < ((n * 2 ^ 32 + 2 ^ 32 : Nat) : ℝ) := by push_cast; push_cast at hy; nlinarith
    have := Nat.cast_lt.mp this
    omega
  have hc' : ((c + 1 : Nat) : ℝ) ≤ ((2 ^ 32 : Nat) : ℝ) := Nat.cast_le.mpr hc
  push_cast at hy hz hc'
  obtain ⟨u, rfl⟩ : ∃ u, z = n + u := ⟨z - n, by ring⟩
  have hfrac : ∀ v : ℝ, (n : ℝ) * 2 ^ 32 + c < (n + v) * 2 ^ 32 ∧ (n + v) * 2 ^ 32 < n * 2 ^ 32 + c + 1 → 0 < v ∧ v < 1 ∧
      ⌊v * 2 ^ 32⌋ = c ∧ ⌊(1 - v) * 2 ^ 32⌋ = 2 ^ 32 - c - 1 ∧ (1 / 2 < v ↔ 2 ^ 31 ≤ c) ∧ v ≠ 1 / 2 := by
    rintro v ⟨hlo, hhi⟩
    have hc0 : (0 : ℝ) ≤ c := Nat.cast_nonneg c
    refine ⟨by linarith, by linarith, Int.floor_eq_iff.mpr ⟨?_, ?_⟩, Int.floor_eq_iff.mpr ⟨?_, ?_⟩, ⟨fun h => ?_, fun h => ?_⟩, fun h => ?_⟩
    · push_cast; linarith
    · push_cast; linarith
    · push_cast; linarith
    · push_cast; linarith
    · have : ((2 ^ 31 : Nat) : ℝ) < ((c + 1 : Nat) : ℝ) := by push_cast; linarith
      have := Nat.cast_lt.mp this
      omega
    · have : ((2 ^ 31 : Nat) : ℝ) ≤ c := Nat.cast_le.mpr h
      push_cast at this
      linarith
    · have h1 : ((2 ^ 31 : Nat) : ℝ) < ((c + 1 : Nat) : ℝ) := by push_cast; linarith
      have h2 : (c : ℝ) < ((2 ^ 31 : Nat) : ℝ) := by push_cast; linarith
      have h1 := Nat.cast_lt.mp h1
      have h2 := Nat.cast_lt.mp h2
      omega
  obtain ⟨ht0, -, htf, htr, hth, hte⟩ := hfrac t (by constructor <;> linarith)
  obtain ⟨hu0, hu1, huf, hur, huh, hue⟩ := hfrac u (by constructor <;> linarith)
  have haway : AwayFromZero r neg n u ↔ AwayFromZero r neg n t := by
    cases r <;> simp only [AwayFromZero, htf, htr, huf, hur, hth, huh, hte, hue]
  refine ⟨n, u, rfl, hu0.le, hu1, hi.trans ⟨fun _ => hu0.ne', fun _ => ht0.ne'⟩, hk.imp ?_ ?_⟩
  · exact fun ⟨hk, _, h⟩ => ⟨hk, hu0.ne', haway.mpr h⟩
  · exact fun ⟨hk, h⟩ => ⟨hk, .inr (mt haway.mp (h.resolve_left ht0.ne'))⟩

/-! ### The multiples that a format has (R106) -/

/-- 2^`q` is the spacing of the format's magnitudes around `x`. -/
structure IsQuantum (f : Fmt) (x : ℝ) (q : Int) : Prop where
  least : f.qmin ≤ q
  most : q ≤ f.emax - f.mant
  above : q < f.emax - f.mant → x < (2 : ℝ) ^ (q + f.mant + 1)
  below : f.qmin < q → (2 : ℝ) ^ (q + f.mant) ≤ x

/-- A magnitude of the format that is not below the binade of the spacing 2^`q` is a multiple of it. -/
theorem multiple_of_onGrid {f : Fmt} {x y : ℝ} {q : Int} (hq : IsQuantum f x q) (hy : f.qmin < q → (2 : ℝ) ^ (q + f.mant) ≤ y)
    (h : onGrid f y) : ∃ k : Nat, y = k * (2 : ℝ) ^ q := by
  obtain ⟨k, p, rfl, hp, -, hk⟩ := h
  by_cases hpq : q ≤ p
  · refine ⟨k * 2 ^ (p - q).toNat, ?_⟩
    rw [Nat.cast_mul, Nat.cast_pow, Nat.cast_ofNat, ← zpow_natCast, Int.toNat_of_nonneg (by omega), mul_assoc, ← zpow_add₀ two_ne_zero,
      sub_add_cancel]
  · have hmost := hq.most
    have hk : ((k : Nat) : ℝ) < ((2 ^ (f.mant + 1) : Nat) : ℝ) := Nat.cast_lt.mpr (hk.resolve_right (by omega))
    have hlt : (k : ℝ) * (2 : ℝ) ^ p < (2 : ℝ) ^ (f.mant + 1 + p) := by
      rw [← Nat.cast_succ, zpow_add₀ two_ne_zero, zpow_natCast]
      push_cast at hk
      exact mul_lt_mul_of_pos_right hk (zpow_pos two_pos p)
    have hle : (2 : ℝ) ^ (f.mant + 1 + p) ≤ (2 : ℝ) ^ (q + f.mant) := zpow_le_zpow_right₀ one_le_two (by omega)
    exact absurd (hy (by omega)) (by linarith)

/-- Two multiples that the spacing allows, one step apart, are neighbours. -/
theorem neighbours_of_isQuantum {f : Fmt} {x : ℝ} {q : Int} (hq : IsQuantum f x q) {n : Nat} (hn : (n : ℝ) * (2 : ℝ) ^ q ≤ x)
    (hx : x < (n + 1 : Nat) * (2 : ℝ) ^ q) : neighbours f (n * (2 : ℝ) ^ q) ((n + 1 : Nat) * (2 : ℝ) ^ q) n q := by
  have hp : (0 : ℝ) < (2 : ℝ) ^ q := zpow_pos two_pos q
  have hsmall : q < f.emax - f.mant → n < 2 ^ (f.mant + 1) := fun h => by
    have hlt := hn.trans_lt (hq.above h)
    rw [add_assoc, zpow_add₀ two_ne_zero, mul_comm] at hlt
    exact_mod_cast lt_of_mul_lt_mul_left hlt hp.le
  have hbinade : f.qmin < q → (2 : ℝ) ^ (q + f.mant) ≤ n * (2 : ℝ) ^ q := fun h => by
    have hlt := (hq.below h).trans_lt hx
    rw [zpow_add₀ two_ne_zero, mul_comm] at hlt ⊢
    refine mul_le_mul_of_nonneg_right ?_ hp.le
    have hlt := lt_of_mul_lt_mul_right hlt hp.le
    rw [zpow_natCast] at hlt ⊢
    exact_mod_cast Nat.lt_succ_iff.mp (by exact_mod_cast hlt)
  refine ⟨⟨rfl, hq.least, hq.most, ?_⟩, by push_cast; ring, ?_, fun y hlo hhi hy => ?_⟩
  · exact (lt_or_eq_of_le hq.most).imp_left hsmall
  · rcases lt_or_eq_of_le hq.most with hlt | heq
    · rcases lt_or_eq_of_le (Nat.succ_le_of_lt (hsmall hlt)) with h | h
      · exact ⟨n + 1, q, rfl, hq.least, hq.most, .inl h⟩
      · refine ⟨2 ^ f.mant, q + 1, ?_, by have := hq.least; omega, by omega, .inl (Nat.pow_lt_pow_right one_lt_two (Nat.lt_succ_self _))⟩
        rw [show n + 1 = 2 ^ (f.mant + 1) from h, zpow_add_one₀ two_ne_zero, pow_succ]
        push_cast
        ring
    · exact ⟨n + 1, q, rfl, hq.least, hq.most, .inr heq⟩
  · obtain ⟨k, rfl⟩ := multiple_of_onGrid hq (fun h => (hbinade h).trans hlo.le) hy
    have hlo := lt_of_mul_lt_mul_right hlo hp.le
    have hhi := lt_of_mul_lt_mul_right hhi hp.le
    have hlo := Nat.cast_lt.mp hlo
    have hhi := Nat.cast_lt.mp hhi
    omega

/-- The multiple that the model rounds to is the magnitude that R106 chooses. -/
theorem StepsTo.picks {f : Fmt} {r : Round} {neg i : Bool} {x : ℝ} {q : Int} {k : Nat} (h : StepsTo r neg (x / (2 : ℝ) ^ q) k i)
    (hq : IsQuantum f x q) : picks f r neg x (k * (2 : ℝ) ^ q) := by
  have hp : (0 : ℝ) < (2 : ℝ) ^ q := zpow_pos two_pos q
  obtain ⟨n, t, hx, ht, hlt, -, hk⟩ := h
  rw [div_eq_iff hp.ne'] at hx
  have hlo : (n : ℝ) * (2 : ℝ) ^ q ≤ x := by rw [hx]; nlinarith
  have hhi : x < ((n + 1 : Nat) : ℝ) * (2 : ℝ) ^ q := by rw [hx]; push_cast; nlinarith
  have hnb := neighbours_of_isQuantum hq hlo hhi
  by_cases h0 : t = 0
  · have hxn : x = n * (2 : ℝ) ^ q := by rw [hx, h0, add_zero]
    obtain ⟨rfl, -⟩ := hk.resolve_left (fun h => h.2.1 h0)
    exact .inl ⟨⟨k, q, hxn ▸ hnb.1⟩, hxn.symm⟩
  · have hxlo : x - n * (2 : ℝ) ^ q = t * (2 : ℝ) ^ q := by rw [hx]; ring
    have hxhi : ((n + 1 : Nat) : ℝ) * (2 : ℝ) ^ q - x = (1 - t) * (2 : ℝ) ^ q := by rw [hx]; push_cast; ring
    have htpos : 0 < t := ht.lt_of_ne' h0
    have hoff : ¬ onGrid f x := hnb.2.2.2 x (by nlinarith) hhi
    refine .inr ⟨hoff, _, _, _, _, hnb, by nlinarith, hhi, ?_⟩
    have hdist : ((n + 1 : Nat) : ℝ) * (2 : ℝ) ^ q - n * (2 : ℝ) ^ q = (2 : ℝ) ^ q := by push_cast; ring
    have hfrac : ∀ v : ℝ, v * (2 : ℝ) ^ q * 2 ^ 32 / (2 : ℝ) ^ q = v * 2 ^ 32 := fun v => by field_simp
    rw [hxlo, hxhi, hdist, hfrac, hfrac]
    simp only [mul_lt_mul_iff_left₀ hp, mul_left_inj' hp.ne']
    have hk : (k = n + 1 ∧ AwayFromZero r neg n t) ∨ (k = n ∧ ¬ AwayFromZero r neg n t) :=
      hk.imp (fun h => ⟨h.1, h.2.2⟩) (fun h => ⟨h.1, h.2.resolve_left h0⟩)
    cases r with
    | rne =>
      simp only [AwayFromZero, not_or, not_and, not_lt] at hk
      obtain ⟨rfl, hgt | ⟨rfl, hodd⟩⟩ | ⟨rfl, hle, heven⟩ := hk
      · exact .inr (.inl ⟨by linarith, rfl⟩)
      · exact .inr (.inr ⟨by norm_num, by rw [if_neg (by omega)]⟩)
      · rcases lt_or_eq_of_le hle with hlt | rfl
        · exact .inl ⟨by linarith, rfl⟩
        · have := heven rfl
          exact .inr (.inr ⟨by norm_num, by rw [if_pos (by omega)]⟩)
    | rz =>
      obtain ⟨-, h⟩ | ⟨rfl, -⟩ := hk
      · exact h.elim
      · rfl
    | rd =>
      obtain ⟨rfl, h⟩ | ⟨rfl, h⟩ := hk
      · exact (if_pos h).symm
      · exact (if_neg h).symm
    | ru =>
      obtain ⟨rfl, h⟩ | ⟨rfl, h⟩ := hk
      · exact (if_neg (ne_true_of_eq_false h)).symm
      · exact (if_pos (Bool.eq_true_of_not_eq_false h)).symm
    | sr w =>
      cases neg <;> simp only [AwayFromZero, if_true, Bool.false_eq_true, if_false] at hk ⊢
      · obtain ⟨rfl, h⟩ | ⟨rfl, h⟩ := hk
        · exact (if_pos h).symm
        · exact (if_neg h).symm
      · obtain ⟨rfl, h⟩ | ⟨rfl, h⟩ := hk
        · exact (if_neg h).symm
        · exact (if_pos (not_not.mp h)).symm

end Sys2Proof.Machine
end

section
/-! SUPPORT. Formats as sets of magnitudes, and rounding to them (R100, R106, R108 to R110): the statement `Obligations.RoundingChoosesANeighbour`. -/

namespace Sys2Proof.Machine

open Sys2Proof.Claims

/-! ### Rounding to an integer (R106, R111) -/

/-- The two integers around a magnitude that is none. -/
theorem floor_ceil_of_between {n : Nat} {t : ℝ} (h0 : 0 < t) (h1 : t < 1) : ⌊(n : ℝ) + t⌋ = n ∧ ⌈(n : ℝ) + t⌉ = n + 1 :=
  ⟨Int.floor_eq_iff.mpr ⟨by push_cast; linarith, by push_cast; linarith⟩, Int.ceil_eq_iff.mpr ⟨by push_cast; linarith, by push_cast; linarith⟩⟩

theorem nearest_of_rne {neg : Bool} {n k : Nat} {t : ℝ} (h0 : 0 < t)
    (hk : (k = n + 1 ∧ AwayFromZero .rne neg n t) ∨ (k = n ∧ ¬ AwayFromZero .rne neg n t)) (h1 : t < 1) :
    2 * |(n : ℝ) + t - k| < 1 ∨ (2 * |(n : ℝ) + t - k| = 1 ∧ k % 2 = 0) := by
  simp only [AwayFromZero, not_or, not_and, not_lt] at hk
  obtain ⟨rfl, hup⟩ | ⟨rfl, hle, heven⟩ := hk
  · rw [show (n : ℝ) + t - ((n + 1 : Nat) : ℝ) = -(1 - t) by push_cast; ring, abs_neg, abs_of_pos (by linarith)]
    rcases hup with h | ⟨rfl, h⟩
    · exact .inl (by linarith)
    · exact .inr ⟨by norm_num, by omega⟩
  · rw [add_sub_cancel_left, abs_of_pos h0]
    rcases lt_or_eq_of_le hle with h | rfl
    · exact .inl (by linarith)
    · have := heven rfl
      exact .inr ⟨by norm_num, by omega⟩

theorem integerPicked_of_stepsTo {r : Round} {neg i : Bool} {z : ℝ} {k : Nat} (h : StepsTo r neg z k i) :
    integerPicked r ((if neg then -1 else 1) * z) (if neg then -(k : Int) else k) := by
  obtain ⟨n, t, rfl, ht, hlt, -, hk⟩ := h
  by_cases h0 : t = 0
  · obtain ⟨rfl, -⟩ := hk.resolve_left (fun h => h.2.1 h0)
    left
    cases neg <;> simp [h0]
  have htpos : 0 < t := ht.lt_of_ne' h0
  have hk : (k = n + 1 ∧ AwayFromZero r neg n t) ∨ (k = n ∧ ¬ AwayFromZero r neg n t) :=
    hk.imp (fun h => ⟨h.1, h.2.2⟩) (fun h => ⟨h.1, h.2.resolve_left h0⟩)
  have hz : 0 < (n : ℝ) + t := add_pos_of_nonneg_of_pos (Nat.cast_nonneg n) htpos
  obtain ⟨hfloor, hceil⟩ := floor_ceil_of_between (n := n) htpos hlt
  have hnone : ∀ j : Int, (j : ℝ) ≠ n + t := fun j hj => by
    rw [← hj, Int.floor_intCast] at hfloor
    rw [← hj, Int.ceil_intCast] at hceil
    omega
  right
  cases neg with
  | false =>
    simp only [Bool.false_eq_true, if_false, one_mul, hfloor, hceil, Int.cast_natCast, add_sub_cancel_left]
    refine ⟨hnone, ?_⟩
    cases r with
    | rne => exact (nearest_of_rne htpos hk hlt).imp_right fun h => ⟨h.1, by omega⟩
    | rz =>
      obtain ⟨-, h⟩ | ⟨rfl, -⟩ := hk
      · exact h.elim
      · exact ⟨fun h => absurd h hz.not_gt, fun _ => rfl⟩
    | rd =>
      obtain ⟨-, h⟩ | ⟨rfl, -⟩ := hk
      · cases h
      · rfl
    | ru =>
      obtain ⟨rfl, -⟩ | ⟨-, h⟩ := hk
      · simp
      · exact absurd rfl h
    | sr w =>
      obtain ⟨rfl, h⟩ | ⟨rfl, h⟩ := hk
      · exact (if_pos h).symm
      · exact (if_neg h).symm
  | true =>
    simp only [if_true, neg_one_mul, Int.floor_neg, Int.ceil_neg, hfloor, hceil, Int.cast_neg, Int.cast_natCast]
    refine ⟨fun j hj => hnone (-j) (by rw [Int.cast_neg, hj, neg_neg]), ?_⟩
    cases r with
    | rne =>
      rw [show -((n : ℝ) + t) - -(k : ℝ) = -((n : ℝ) + t - k) by ring, abs_neg]
      exact (nearest_of_rne htpos hk hlt).imp_right fun h => ⟨h.1, by omega⟩
    | rz =>
      obtain ⟨-, h⟩ | ⟨rfl, -⟩ := hk
      · exact h.elim
      · exact ⟨fun _ => rfl, fun h => absurd h (neg_neg_of_pos hz).not_ge⟩
    | rd =>
      obtain ⟨rfl, -⟩ | ⟨-, h⟩ := hk
      · simp
      · exact absurd rfl h
    | ru =>
      obtain ⟨-, h⟩ | ⟨rfl, -⟩ := hk
      · cases h
      · rfl
    | sr w =>
      rw [show -((n : ℝ) + t) - -(((n : Int) + 1 : Int) : ℝ) = 1 - t by push_cast; ring]
      obtain ⟨rfl, h⟩ | ⟨rfl, h⟩ := hk
      · exact (if_neg h).symm
      · exact (if_pos (not_not.mp h)).symm

theorem integerPicked_roundInt (r : Round) (neg : Bool) (m : Nat) (e : Int) :
    integerPicked r (valueR neg m e) (roundInt r neg m e).1 ∧
      ((roundInt r neg m e).2 = true ↔ ((roundInt r neg m e).1 : ℝ) ≠ valueR neg m e) := by
  have h := stepsTo_roundAt r neg m e 0
  rw [zpow_zero, div_one] at h
  refine ⟨by rw [valueR, mul_assoc]; exact integerPicked_of_stepsTo h, h.inexact_iff.trans (not_congr ?_)⟩
  rw [valueR, mul_assoc]
  cases neg <;> simp [roundInt]

/-! ### Encodings (R100) -/

/-- The first magnitude bits that are no finite number's: of an infinity, of the NaN of a format without infinities, or past the word. -/
def Fmt.firstSpecial (f : Fmt) : Nat :=
  if f.inf then (2 ^ f.expo - 1) * 2 ^ f.mant else if f.nan = 0 then 2 ^ (f.expo + f.mant) else f.nan

/-- What makes a format's largest magnitude one of its finite numbers. -/
structure Fmt.Sound (f : Fmt) : Prop where
  normal : 2 ^ f.mant ≤ f.top
  short : f.top < 2 ^ (f.mant + 1)
  exponent : 1 ≤ f.emax + f.bias
  finite : (f.emax + f.bias).toNat * 2 ^ f.mant + (f.top - 2 ^ f.mant) < f.firstSpecial
  special : f.firstSpecial ≤ 2 ^ (f.expo + f.mant)

theorem sound_of_mem {f : Fmt} (h : f ∈ [fmtF32, fmtBf16, fmtF16, fmtE4m3, fmtE5m2, fmtE2m1]) : f.Sound := by
  simp only [List.mem_cons, List.not_mem_nil, or_false] at h
  obtain rfl | rfl | rfl | rfl | rfl | rfl := h <;> exact ⟨by decide, by decide, by decide, by decide, by decide⟩

/-- The encodings below the special ones: the exponent field, the mantissa field, and the sign bit over them. -/
theorem decode_of_lt {f : Fmt} (hf : f.Sound) (neg : Bool) {v : Nat} (hv : v < f.firstSpecial) :
    f.decode (f.signBit neg + v) = if v / 2 ^ f.mant = 0 then .fin neg (v % 2 ^ f.mant) f.qmin
      else .fin neg (v % 2 ^ f.mant + 2 ^ f.mant) ((v / 2 ^ f.mant : Nat) - f.bias - f.mant) := by
  have hlt : v < 2 ^ (f.expo + f.mant) := hv.trans_le hf.special
  have hsign : (f.signBit neg + v).testBit (f.expo + f.mant) = neg := by
    cases neg
    · rw [Fmt.signBit, if_neg Bool.false_ne_true, Nat.zero_add, Nat.testBit_lt_two_pow hlt]
    · rw [Fmt.signBit, if_pos rfl, Nat.testBit_two_pow_add_eq, Nat.testBit_lt_two_pow hlt]
      rfl
  have hsplit : ∃ c, f.signBit neg + v = 2 ^ (f.expo + f.mant) * c + v := ⟨if neg then 1 else 0, by cases neg <;> simp [Fmt.signBit]⟩
  have hmag : (f.signBit neg + v) % 2 ^ (f.expo + f.mant) = v := by
    obtain ⟨c, hc⟩ := hsplit
    rw [hc, Nat.mul_add_mod, Nat.mod_eq_of_lt hlt]
  have hm : (f.signBit neg + v) % 2 ^ f.mant = v % 2 ^ f.mant := by
    rw [← Nat.mod_mod_of_dvd _ (Nat.pow_dvd_pow 2 (Nat.le_add_left f.mant f.expo)), hmag]
  have he : (f.signBit neg + v) / 2 ^ f.mant % 2 ^ f.expo = v / 2 ^ f.mant := by
    rw [← Nat.mod_mul_right_div_self, ← Nat.pow_add, Nat.add_comm f.mant, hmag]
  have hinf : (f.inf && v / 2 ^ f.mant == 2 ^ f.expo - 1) = false := by
    rw [Bool.and_eq_false_iff]
    cases hi : f.inf
    · exact .inl rfl
    · rw [Fmt.firstSpecial, if_pos hi] at hv
      exact .inr (beq_false_of_ne (Nat.div_lt_of_lt_mul (Nat.mul_comm .. ▸ hv)).ne)
  have hnan : (!f.inf && f.nan != 0 && v == f.nan) = false := by
    rw [Bool.and_eq_false_iff]
    cases hi : f.inf
    · by_cases h0 : f.nan = 0
      · exact .inl (by simp [h0])
      · rw [Fmt.firstSpecial, hi, if_neg Bool.false_ne_true, if_neg h0] at hv
        exact .inr (beq_false_of_ne hv.ne)
    · exact .inl rfl
  simp only [Fmt.decode, hsign, hmag, hm, he, hinf, hnan, Bool.false_eq_true, if_false]

/-- A significand that the format holds at a quantum that it has: the encoding is a finite number of that value. -/
theorem encode_spec {f : Fmt} (hf : f.Sound) (neg : Bool) {k : Nat} {q : Int} (hleast : f.qmin ≤ q) (hmost : q ≤ f.emax - f.mant)
    (hk : k ≤ 2 ^ (f.mant + 1)) (hsub : k < 2 ^ f.mant → q = f.qmin) (htop : q = f.emax - f.mant → k ≤ f.top) :
    ∃ v m e, f.encode neg k q = f.signBit neg + v ∧ v < f.firstSpecial ∧ f.decode (f.encode neg k q) = .fin neg m e ∧
      (m : ℝ) * (2 : ℝ) ^ e = k * (2 : ℝ) ^ q := by
  have hfin := hf.finite
  have hnorm := hf.normal
  have hshort := hf.short
  have hexp := hf.exponent
  have hqm : f.qmin = 1 - f.bias - f.mant := rfl
  have hpos := Nat.two_pow_pos f.mant
  have hfield : ∀ {c m : Nat}, 1 ≤ c → m < 2 ^ f.mant → c * 2 ^ f.mant + m < f.firstSpecial →
      f.decode (f.signBit neg + (c * 2 ^ f.mant + m)) = .fin neg (m + 2 ^ f.mant) (c - f.bias - f.mant) := fun hc hm hlt => by
    rw [decode_of_lt hf neg hlt, Nat.mul_comm, Nat.mul_add_div hpos, Nat.div_eq_of_lt hm, Nat.add_zero, if_neg (by omega), Nat.mul_add_mod,
      Nat.mod_eq_of_lt hm]
  have hbelow : ∀ {c m : Nat}, c < (f.emax + f.bias).toNat → m < 2 ^ f.mant → c * 2 ^ f.mant + m < f.firstSpecial := fun hc hm => by
    have := Nat.mul_le_mul_right (2 ^ f.mant) (Nat.succ_le_of_lt hc)
    rw [Nat.succ_mul] at this
    omega
  by_cases hcarry : k = 2 ^ (f.mant + 1)
  · have hlt : q < f.emax - f.mant := lt_of_le_of_ne hmost fun h => by have := htop h; omega
    have henc : f.encode neg k q = f.signBit neg + ((q + 1 + f.mant + f.bias).toNat * 2 ^ f.mant + 0) := by
      rw [Fmt.encode, hcarry, if_pos (le_refl _), Nat.pow_succ, Nat.mul_div_cancel _ two_pos]
      simp
    have hspec : (q + 1 + f.mant + f.bias).toNat * 2 ^ f.mant + 0 < f.firstSpecial := by
      have := Nat.mul_le_mul_right (2 ^ f.mant) (show (q + 1 + f.mant + f.bias).toNat ≤ (f.emax + f.bias).toNat by omega)
      omega
    refine ⟨_, _, _, henc, hspec, by rw [henc, hfield (by omega) hpos hspec], ?_⟩
    rw [hcarry, show (((q + 1 + f.mant + f.bias).toNat : Nat) : Int) - f.bias - f.mant = q + 1 by omega, zpow_add_one₀ two_ne_zero]
    push_cast
    ring
  · have hk : k < 2 ^ (f.mant + 1) := lt_of_le_of_ne hk hcarry
    by_cases hlow : k < 2 ^ f.mant
    · have henc : f.encode neg k q = f.signBit neg + k := by
        rw [Fmt.encode, if_neg (by omega)]
        exact if_pos hlow
      have hspec : k < f.firstSpecial := by
        have := Nat.mul_le_mul_right (2 ^ f.mant) (show 1 ≤ (f.emax + f.bias).toNat by omega)
        omega
      refine ⟨_, k, q, henc, hspec, ?_, rfl⟩
      rw [henc, decode_of_lt hf neg hspec, if_pos (Nat.div_eq_of_lt hlow), Nat.mod_eq_of_lt hlow, hsub hlow]
    · have hm : k - 2 ^ f.mant < 2 ^ f.mant := by rw [Nat.pow_succ] at hk; omega
      have henc : f.encode neg k q = f.signBit neg + ((q + f.mant + f.bias).toNat * 2 ^ f.mant + (k - 2 ^ f.mant)) := by
        rw [Fmt.encode, if_neg (by omega), ← Nat.add_assoc]
        exact if_neg hlow
      have hspec : (q + f.mant + f.bias).toNat * 2 ^ f.mant + (k - 2 ^ f.mant) < f.firstSpecial := by
        rcases lt_or_eq_of_le hmost with hlt | heq
        · exact hbelow (by omega) hm
        · have := htop heq
          rw [show q + f.mant + f.bias = f.emax + f.bias by omega]
          omega
      refine ⟨_, _, _, henc, hspec, by rw [henc, hfield (by omega) hm hspec], ?_⟩
      rw [Nat.sub_add_cancel (by omega), show (((q + f.mant + f.bias).toNat : Nat) : Int) - f.bias - f.mant = q by omega]

/-! ### The spacing around a value (R106) -/

theorem floorLog2_bounds {m : Nat} (hm : m ≠ 0) (e : Int) :
    (2 : ℝ) ^ floorLog2 m e ≤ m * (2 : ℝ) ^ e ∧ (m : ℝ) * (2 : ℝ) ^ e < (2 : ℝ) ^ (floorLog2 m e + 1) := by
  have hpos : (0 : ℝ) < m * (2 : ℝ) ^ e := mul_pos (Nat.cast_pos.mpr (Nat.pos_of_ne_zero hm)) (zpow_pos two_pos e)
  have two_cast : ((2 : Nat) : ℝ) = 2 := Nat.cast_ofNat
  rw [floorLog2_eq_log (neg := false) hm, abs_realOf_fin, ← two_cast]
  exact ⟨Int.zpow_log_le_self one_lt_two hpos, Int.lt_zpow_succ_log_self one_lt_two _⟩

/-- The spacing that the model rounds at is that around every value of the same binade. -/
theorem isQuantum_of_binade {f : Fmt} (hf : f.Sound) {x : ℝ} {l : Int} (hlo : (2 : ℝ) ^ l ≤ x) (hhi : x < (2 : ℝ) ^ (l + 1)) :
    IsQuantum f x (min (max (l - f.mant) f.qmin) (f.emax - f.mant)) := by
  have hexp := hf.exponent
  have hqm : f.qmin = 1 - f.bias - f.mant := rfl
  refine ⟨by omega, by omega, fun h => hhi.trans_le (zpow_le_zpow_right₀ one_le_two (by omega)),
    fun h => (zpow_le_zpow_right₀ one_le_two (by omega)).trans hlo⟩

/-- Rounding ± `m` × 2^`e` rounds the magnitude `x`: it is `x`, or it stands half way between two multiples of 2^(`e` + 1) that are far finer
than any spacing that rounding looks at, and `x` lies between them too. -/
def StandsFor (f : Fmt) (m : Nat) (e : Int) (x : ℝ) : Prop :=
  x = m * (2 : ℝ) ^ e ∨ ∃ j : Nat, m = 2 * j + 1 ∧ 2 ^ (f.mant + 33) ≤ j ∧ (j : ℝ) * (2 : ℝ) ^ (e + 1) < x ∧ x < (j + 1 : Nat) * (2 : ℝ) ^ (e + 1)

theorem StandsFor.binade {f : Fmt} {m : Nat} {e : Int} {x : ℝ} (h : StandsFor f m e x) (hm : m ≠ 0) :
    (2 : ℝ) ^ floorLog2 m e ≤ x ∧ x < (2 : ℝ) ^ (floorLog2 m e + 1) := by
  obtain rfl | ⟨j, rfl, hj, hlo, hhi⟩ := h
  · exact floorLog2_bounds hm e
  have hj1 : 1 ≤ j := Nat.one_le_two_pow.trans hj
  have hl1 := Nat.log2_self_le hm
  have hl2 : 2 * j + 1 < 2 ^ (Nat.log2 (2 * j + 1) + 1) := Nat.lt_log2_self
  obtain ⟨p, hp⟩ : ∃ p, Nat.log2 (2 * j + 1) = p + 1 := ⟨Nat.log2 (2 * j + 1) - 1, by
    have : Nat.log2 (2 * j + 1) ≠ 0 := fun h => by rw [h] at hl2; omega
    omega⟩
  rw [hp] at hl1 hl2
  rw [Nat.pow_succ] at hl1 hl2
  rw [Nat.pow_succ] at hl2
  have hpow : ∀ k : Nat, ((2 ^ k : Nat) : ℝ) * (2 : ℝ) ^ (e + 1) = (2 : ℝ) ^ (k + 1 + e : Int) := fun k => by
    rw [add_right_comm, add_assoc (k : Int), zpow_add₀ two_ne_zero (k : Int), zpow_natCast, Nat.cast_pow, Nat.cast_ofNat]
  have hstep := zpow_pos (two_pos (α := ℝ)) (e + 1)
  rw [floorLog2, hp, Nat.cast_succ, ← hpow p, show (p : Int) + 1 + e + 1 = ((p + 1 : Nat) : Int) + 1 + e by push_cast; ring, ← hpow (p + 1)]
  refine ⟨(mul_le_mul_of_nonneg_right (Nat.cast_le.mpr ?_) hstep.le).trans hlo.le,
    hhi.trans_le (mul_le_mul_of_nonneg_right (Nat.cast_le.mpr ?_) hstep.le)⟩
  · omega
  · rw [Nat.pow_succ]
    omega

/-- A value inside a cell of the finer grid lies inside one of a coarser grid. -/
theorem coarser_cell {j s : Nat} {x : ℝ} (hlo : (j : ℝ) < x) (hhi : x < j + 1) :
    ((j / 2 ^ s : Nat) : ℝ) < x / 2 ^ s ∧ x / 2 ^ s < ((j / 2 ^ s : Nat) : ℝ) + 1 := by
  have hp : (0 : ℝ) < 2 ^ s := pow_pos two_pos s
  rw [lt_div_iff₀ hp, div_lt_iff₀ hp]
  have hsplit := Nat.div_add_mod j (2 ^ s)
  have hmod := Nat.mod_lt j (Nat.two_pow_pos s)
  have h1 : ((j / 2 ^ s * 2 ^ s : Nat) : ℝ) ≤ j := Nat.cast_le.mpr (Nat.div_mul_le_self ..)
  have h2 : ((j + 1 : Nat) : ℝ) ≤ (((j / 2 ^ s + 1) * 2 ^ s : Nat) : ℝ) := Nat.cast_le.mpr (by rw [Nat.succ_mul, Nat.mul_comm]; omega)
  push_cast at h1 h2
  exact ⟨h1.trans_lt hlo, hhi.trans_le h2⟩

/-- At a spacing that is not held down to the format's largest, what stands for a value is rounded as it is. -/
theorem StandsFor.stepsTo {f : Fmt} {r : Round} {neg i : Bool} {m k : Nat} {e q : Int} {x : ℝ} (h : StandsFor f m e x)
    (hq : floorLog2 m e - f.mant ≤ q) (hs : StepsTo r neg ((m : ℝ) * (2 : ℝ) ^ e / (2 : ℝ) ^ q) k i) : StepsTo r neg (x / (2 : ℝ) ^ q) k i := by
  obtain rfl | ⟨j, rfl, hj, hlo, hhi⟩ := h
  · exact hs
  have hl : f.mant + 34 ≤ Nat.log2 (2 * j + 1) := by
    rw [Nat.le_log2 (by omega), Nat.pow_succ]
    omega
  obtain ⟨s, hs'⟩ : ∃ s : Nat, q = e + 1 + s + 32 := ⟨(q - e - 33).toNat, by rw [floorLog2] at hq; omega⟩
  have hstep := zpow_pos (two_pos (α := ℝ)) (e + 1)
  have hscale : ∀ y : ℝ, y / (2 : ℝ) ^ q * 2 ^ 32 = y / (2 : ℝ) ^ (e + 1) / 2 ^ s := fun y => by
    have h32 : (2 : ℝ) ^ (32 : Int) = 2 ^ 32 := by norm_cast
    rw [hs', zpow_add₀ two_ne_zero, zpow_add₀ two_ne_zero, zpow_natCast, h32]
    field_simp
  have hmid : ((2 * j + 1 : Nat) : ℝ) * (2 : ℝ) ^ e / (2 : ℝ) ^ (e + 1) = j + 1 / 2 := by
    rw [zpow_add_one₀ two_ne_zero]
    push_cast
    field_simp
  refine hs.of_same_cell (j := j / 2 ^ s) ?_ ?_
  · rw [hscale, hmid]
    exact coarser_cell (by linarith) (by linarith)
  · rw [hscale]
    exact coarser_cell ((lt_div_iff₀ hstep).mpr hlo) ((div_lt_iff₀ hstep).mpr (by push_cast at hhi; exact hhi))

/-! ### Rounding to a format (R106, R108 to R110) -/

theorem overflowed_eq (f : Fmt) (sat : Bool) (r : Round) (neg : Bool) : f.overflowed sat r neg = overflowBits f sat r neg := by
  cases sat <;> cases r <;> cases neg <;> rfl

/-- A value of the normal range is not tiny after rounding. -/
theorem lt_of_tiny {f : Fmt} {r : Round} {neg : Bool} {m : Nat} {e : Int} (hm : m ≠ 0) (h : f.tiny r neg m e = true) :
    floorLog2 m e < 1 - f.bias := by
  refine lt_of_le_of_lt ?_ (of_decide_eq_true h)
  have hs := stepsTo_roundAt r neg m e (floorLog2 m e - f.mant)
  have hle : 2 ^ f.mant ≤ (roundAt r neg m e (floorLog2 m e - f.mant)).1 := hs.le (by
    rw [le_div_iff₀ (zpow_pos two_pos _), Nat.cast_pow, Nat.cast_ofNat, ← zpow_natCast, ← zpow_add₀ two_ne_zero, add_sub_cancel]
    exact (floorLog2_bounds hm e).1)
  have hpos := Nat.two_pow_pos f.mant
  have hlog := (Nat.le_log2 (by omega)).mpr hle
  show floorLog2 m e ≤ (Nat.log2 (roundAt r neg m e (floorLog2 m e - f.mant)).1 : Int) + (floorLog2 m e - f.mant)
  omega

/-- The multiple of a spacing that a value is rounded to, against the format's largest magnitude. -/
theorem le_largest_iff {f : Fmt} (hf : f.Sound) {k : Nat} {q : Int} (hq : q ≤ f.emax - f.mant) (hk : q < f.emax - f.mant → k ≤ 2 ^ (f.mant + 1)) :
    (k : ℝ) * (2 : ℝ) ^ q ≤ Claims.largest f ↔ ¬ (q = f.emax - f.mant ∧ f.top < k) := by
  rw [Claims.largest]
  rcases lt_or_eq_of_le hq with hlt | rfl
  · refine iff_of_true ?_ fun h => hlt.ne h.1
    calc (k : ℝ) * (2 : ℝ) ^ q ≤ ((2 ^ (f.mant + 1) : Nat) : ℝ) * (2 : ℝ) ^ q :=
          mul_le_mul_of_nonneg_right (Nat.cast_le.mpr (hk hlt)) (zpow_pos two_pos q).le
      _ = ((2 ^ f.mant : Nat) : ℝ) * (2 : ℝ) ^ (q + 1) := by
          rw [zpow_add_one₀ two_ne_zero, pow_succ]
          push_cast
          ring
      _ ≤ f.top * (2 : ℝ) ^ (f.emax - (f.mant : Int)) :=
          mul_le_mul (Nat.cast_le.mpr hf.normal) (zpow_le_zpow_right₀ one_le_two hlt) (zpow_pos two_pos _).le (Nat.cast_nonneg _)
  · rw [mul_le_mul_iff_left₀ (zpow_pos (two_pos (α := ℝ)) _), Nat.cast_le]
    simp

/-- The flags of a result that does not overflow. -/
theorem getLsbD_inexact_underflow (i t : Bool) : ∀ k < 5, (flagIf i xfInexact ||| flagIf (i && t) xfUnderflow).getLsbD k =
    if k = 0 then i else if k = 1 then i && t else false := by
  revert i t
  decide

/-- Rounded at the spacing of its binade, a value goes to a multiple that R106 allows, or past the largest magnitude. -/
theorem StandsFor.steps_at_quantum {f : Fmt} (hf : f.Sound) {r : Round} {neg i : Bool} {m k : Nat} {e : Int} {x : ℝ} (hm : m ≠ 0) (h : StandsFor f m e x)
    (hs : StepsTo r neg ((m : ℝ) * (2 : ℝ) ^ e / (2 : ℝ) ^ f.quantum m e) k i) :
    StepsTo r neg (x / (2 : ℝ) ^ f.quantum m e) k i ∨ f.quantum m e = f.emax - f.mant ∧ f.top < k ∧
      ∃ k' i', StepsTo r neg (x / (2 : ℝ) ^ f.quantum m e) k' i' ∧ f.top < k' := by
  by_cases hl : floorLog2 m e - f.mant ≤ f.quantum m e
  · exact .inl (h.stepsTo hl hs)
  have hq : f.quantum m e = f.emax - f.mant := by
    rw [Fmt.quantum] at hl ⊢
    omega
  have hpast : ∀ {z : ℝ} {k i}, (2 : ℝ) ^ floorLog2 m e ≤ z → StepsTo r neg (z / (2 : ℝ) ^ f.quantum m e) k i → f.top < k := fun hz hk => by
    refine hf.short.trans_le (hk.le ?_)
    rw [le_div_iff₀ (zpow_pos two_pos _), Nat.cast_pow, Nat.cast_ofNat, ← zpow_natCast, ← zpow_add₀ two_ne_zero]
    exact (zpow_le_zpow_right₀ one_le_two (by push_cast; omega)).trans hz
  have hlo := (h.binade hm).1
  obtain ⟨k', i', hk'⟩ := exists_stepsTo r neg (div_nonneg ((zpow_pos two_pos _).le.trans hlo) (zpow_pos (two_pos (α := ℝ)) (f.quantum m e)).le)
  exact .inr ⟨hq, hpast (floorLog2_bounds hm e).1 hs, k', i', hk', hpast hlo hk'⟩

/-- Below the top spacing a value is rounded to at most one more bit than the significand has. -/
theorem IsQuantum.steps_le {f : Fmt} {r : Round} {neg i : Bool} {x : ℝ} {q : Int} {k : Nat} (hq : IsQuantum f x q)
    (hk : StepsTo r neg (x / (2 : ℝ) ^ q) k i) (hlt : q < f.emax - f.mant) : k ≤ 2 ^ (f.mant + 1) := by
  refine hk.ge ?_
  rw [div_le_iff₀ (zpow_pos two_pos _), Nat.cast_pow, Nat.cast_ofNat, ← zpow_natCast, ← zpow_add₀ two_ne_zero, add_comm, Nat.cast_succ, ← add_assoc]
  exact (hq.above hlt).le

/-- Only at the subnormal spacing is a value rounded to fewer bits than the significand has. -/
theorem IsQuantum.steps_subnormal {f : Fmt} {r : Round} {neg i : Bool} {x : ℝ} {q : Int} {k : Nat} (hq : IsQuantum f x q)
    (hk : StepsTo r neg (x / (2 : ℝ) ^ q) k i) (hlt : k < 2 ^ f.mant) : q = f.qmin := by
  refine (eq_or_lt_of_le hq.least).elim Eq.symm fun hmin => absurd (hk.le (j := 2 ^ f.mant) ?_) (not_le.mpr hlt)
  rw [le_div_iff₀ (zpow_pos two_pos _), Nat.cast_pow, Nat.cast_ofNat, ← zpow_natCast, ← zpow_add₀ two_ne_zero, add_comm]
  exact hq.below hmin

/-- The model's rounding of ± `m` × 2^`e` is that of the value `x` for which it stands. -/
theorem round_spec {f : Fmt} (hf : f.Sound) (sat : Bool) (r : Round) {x : ℝ} {m : Nat} {e : Int} (hm : m ≠ 0) (h : StandsFor f m e |x|) :
    roundsTo f sat r x (f.round sat r (decide (x < 0)) m e) := by
  obtain ⟨hlo, hhi⟩ := h.binade hm
  have hq : IsQuantum f |x| (f.quantum m e) := isQuantum_of_binade hf hlo hhi
  have hcases := h.steps_at_quantum hf hm (stepsTo_roundAt r (decide (x < 0)) m e (f.quantum m e))
  rw [Fmt.round, if_neg hm]
  dsimp only
  generalize roundAt r (decide (x < 0)) m e (f.quantum m e) = p at hcases ⊢
  obtain ⟨k, i⟩ := p
  by_cases hover : f.quantum m e = f.emax - f.mant ∧ f.top < k
  · rw [if_pos hover, overflowed_eq]
    obtain ⟨k', i', hk', htop⟩ : ∃ k' i', StepsTo r (decide (x < 0)) (|x| / (2 : ℝ) ^ f.quantum m e) k' i' ∧ f.top < k' := by
      obtain hk | ⟨-, -, hk⟩ := hcases
      · exact ⟨k, i, hk, hover.2⟩
      · exact hk
    exact ⟨_, hk'.picks hq, fun hle => absurd ⟨hover.1, htop⟩ ((le_largest_iff hf hq.most (hq.steps_le hk')).mp hle), fun _ => rfl,
      (by decide : (xfOverflow ||| xfInexact).getLsbD 3 = false), (by decide : (xfOverflow ||| xfInexact).getLsbD 4 = false)⟩
  · have hk := hcases.resolve_right fun h => hover ⟨h.1, h.2.1⟩
    have htop : f.quantum m e = f.emax - f.mant → k ≤ f.top := fun hq => not_lt.mp fun hlt => hover ⟨hq, hlt⟩
    have hcarry : k ≤ 2 ^ (f.mant + 1) := (lt_or_eq_of_le hq.most).elim (hq.steps_le hk) fun hq => (htop hq).trans hf.short.le
    obtain ⟨-, m', e', -, -, hdec, hval⟩ := encode_spec hf (decide (x < 0)) hq.least hq.most hcarry (hq.steps_subnormal hk) htop
    have hflag := getLsbD_inexact_underflow i (f.tiny r (decide (x < 0)) m e)
    have hinexact : i = true ↔ (k : ℝ) * (2 : ℝ) ^ f.quantum m e ≠ |x| :=
      hk.inexact_iff.trans (not_congr (eq_div_iff (zpow_pos two_pos _).ne'))
    rw [if_neg hover]
    refine ⟨_, hk.picks hq, fun _ => ⟨⟨m', e', hdec, ?_⟩, ?_, ?_, hflag 2 (by decide)⟩, fun hlt => ?_, hflag 3 (by decide), hflag 4 (by decide)⟩
    · rw [valueR, mul_assoc, hval]
      cases decide (x < 0) <;> simp
    · exact (hflag 0 (by decide)) ▸ hinexact
    · rw [hflag 1 (by decide)]
      intro ht
      obtain ⟨hi, ht⟩ := Bool.and_eq_true_iff.mp ht
      exact ⟨hinexact.mp hi, hhi.trans_le (zpow_le_zpow_right₀ one_le_two (Int.add_one_le_iff.mpr (lt_of_tiny hm ht)))⟩
    · exact absurd ((le_largest_iff hf hq.most (hq.steps_le hk)).mpr hover) (not_le.mpr hlt)

theorem abs_valueR (neg : Bool) (m : Nat) (e : Int) : |valueR neg m e| = m * (2 : ℝ) ^ e := abs_realOf_fin neg m e

theorem valueR_neg_iff {neg : Bool} {m : Nat} {e : Int} (hm : m ≠ 0) : valueR neg m e < 0 ↔ neg = true := by
  have hpos : (0 : ℝ) < m * (2 : ℝ) ^ e := mul_pos (Nat.cast_pos.mpr (Nat.pos_of_ne_zero hm)) (zpow_pos two_pos e)
  rw [valueR, mul_assoc]
  cases neg
  · simpa using hpos.le
  · simpa using hpos

theorem roundsTo_round {f : Fmt} (hf : f.Sound) (sat : Bool) (r : Round) (neg : Bool) {m : Nat} (e : Int) (hm : m ≠ 0) :
    roundsTo f sat r (valueR neg m e) (f.round sat r neg m e) := by
  have h := round_spec hf sat r (x := valueR neg m e) hm (.inl (abs_valueR neg m e))
  rwa [show decide (valueR neg m e < 0) = neg by rw [Bool.eq_iff_iff, decide_eq_true_iff, valueR_neg_iff hm]] at h

/-- A zero keeps its sign and raises nothing. -/
theorem Fmt.round_zero (f : Fmt) (sat : Bool) (r : Round) (neg : Bool) (e : Int) : f.round sat r neg 0 e = (f.signBit neg, 0) := if_pos rfl

end Sys2Proof.Machine

namespace Sys2Proof.Claims

open Sys2Proof.Machine

/-- Settles O51: the model's multiple of the spacing of a value's binade is the neighbour that the mode chooses. -/
theorem roundingChoosesANeighbour : Obligations.RoundingChoosesANeighbour :=
  fun _ hf sat r neg _ e hm _ => roundsTo_round (sound_of_mem hf) sat r neg e hm

end Sys2Proof.Claims
end

section
/-! SUPPORT. Arithmetic on finite operands (R106, R124): the statement `Obligations.ArithmeticRoundsTheExactResult`. -/

namespace Sys2Proof.Machine

open Sys2Proof.Claims

/-! ### Sums -/

theorem valueR_of_int (i q : Int) : valueR (decide (i < 0)) i.natAbs q = i * (2 : ℝ) ^ q := by
  rw [valueR, Nat.cast_natAbs]
  rcases lt_or_ge i 0 with h | h
  · rw [decide_eq_true h, if_pos rfl, abs_of_neg h]
    push_cast
    ring
  · rw [decide_eq_false h.not_gt, if_neg Bool.false_ne_true, abs_of_nonneg h, one_mul]

theorem scaled_mul_zpow {neg : Bool} {m : Nat} {e q : Int} (h : q ≤ e) : (scaled neg m e q : ℝ) * (2 : ℝ) ^ q = valueR neg m e := by
  have hpow : (2 : ℝ) ^ (e - q).toNat * (2 : ℝ) ^ q = (2 : ℝ) ^ e := by
    rw [← zpow_natCast, ← zpow_add₀ two_ne_zero, Int.toNat_of_nonneg (by omega), sub_add_cancel]
  rw [scaled, valueR, ← hpow]
  cases neg <;> push_cast <;> simp <;> ring

theorem valueR_eq_zero_iff {neg : Bool} {m : Nat} {e : Int} : valueR neg m e = 0 ↔ m = 0 := realOf_fin_eq_zero_iff

theorem valueR_not (neg : Bool) (m : Nat) (e : Int) : valueR (!neg) m e = -valueR neg m e := by
  cases neg <;> simp [valueR]

/-- The integer that `addNum` rounds is the exact sum. -/
theorem scaled_add_scaled (s t : Bool) (m n : Nat) (e d : Int) :
    ((scaled s m e (min e d) + scaled t n d (min e d) : Int) : ℝ) * (2 : ℝ) ^ min e d = valueR s m e + valueR t n d := by
  rw [Int.cast_add, add_mul, scaled_mul_zpow (min_le_left ..), scaled_mul_zpow (min_le_right ..)]

theorem addNum_of_ne_zero {f : Fmt} (hf : f.Sound) (r : Round) {s t : Bool} {m n : Nat} {e d : Int} (h : valueR s m e + valueR t n d ≠ 0) :
    roundsTo f false r (valueR s m e + valueR t n d) (addNum f r (.fin s m e) (.fin t n d)) := by
  rw [← scaled_add_scaled] at h ⊢
  have hx := Int.cast_ne_zero.mp (left_ne_zero_of_mul h)
  rw [← valueR_of_int]
  simp only [addNum, if_neg hx]
  exact roundsTo_round hf false r _ _ (Int.natAbs_ne_zero.mpr hx)

/-- Two numbers of one sign add up to zero only where both are zero. -/
theorem eq_zero_of_sum_eq_zero {s : Bool} {m n : Nat} {e d : Int} (h : valueR s m e + valueR s n d = 0) : m = 0 ∧ n = 0 := by
  have hm : (0 : ℝ) ≤ m * (2 : ℝ) ^ e := by positivity
  have hn : (0 : ℝ) ≤ n * (2 : ℝ) ^ d := by positivity
  rw [valueR, valueR, mul_assoc, mul_assoc, ← mul_add] at h
  have h := (mul_eq_zero.mp h).resolve_left (by cases s <;> norm_num)
  rw [add_eq_zero_iff_of_nonneg hm hn] at h
  exact h.imp (fun h => Nat.cast_eq_zero.mp (eq_zero_of_ne_zero_of_mul_right_eq_zero (zpow_pos two_pos e).ne' h))
    (fun h => Nat.cast_eq_zero.mp (eq_zero_of_ne_zero_of_mul_right_eq_zero (zpow_pos two_pos d).ne' h))

theorem addNum_of_eq_zero (f : Fmt) (r : Round) {s t : Bool} {m n : Nat} {e d : Int} (h : valueR s m e + valueR t n d = 0) :
    addNum f r (.fin s m e) (.fin t n d) = (f.signBit (if s = t then s else decide (r = .rd)), 0) := by
  have hx : scaled s m e (min e d) + scaled t n d (min e d) = 0 := by
    rw [← scaled_add_scaled] at h
    exact Int.cast_eq_zero.mp (eq_zero_of_ne_zero_of_mul_right_eq_zero (zpow_pos two_pos _).ne' h)
  simp only [addNum, if_pos hx]
  by_cases hst : s = t
  · subst hst
    obtain ⟨rfl, rfl⟩ := eq_zero_of_sum_eq_zero h
    simp
  · rw [if_neg hst, if_neg fun h => hst h.2.2]
    rfl

/-! ### Products -/

theorem valueR_mul (s t : Bool) (m n : Nat) (e d : Int) : valueR (s != t) (m * n) (e + d) = valueR s m e * valueR t n d := by
  rw [valueR, valueR, valueR, zpow_add₀ two_ne_zero]
  cases s <;> cases t <;> push_cast <;> simp <;> ring

/-! ### Quotients -/

theorem sticky_fst_ne_zero {y : Nat} {g : Int} {exact_ : Bool} (hy : y ≠ 0) : (sticky y g exact_).1 ≠ 0 := by
  cases exact_
  · exact Nat.succ_ne_zero _
  · exact hy

/-- A floor with one more bit below it where it is not exact stands for the value whose floor it is. -/
theorem standsFor_sticky {f : Fmt} {y : Nat} {g : Int} {z : ℝ} {exact_ : Bool} (hbits : 2 ^ (f.mant + 33) ≤ y)
    (hexact : exact_ = true → z = y) (hfloor : exact_ = false → (y : ℝ) < z ∧ z < (y + 1 : Nat)) :
    StandsFor f (sticky y g exact_).1 (sticky y g exact_).2 (z * (2 : ℝ) ^ g) := by
  have hp := zpow_pos (two_pos (α := ℝ)) g
  cases exact_
  · obtain ⟨hlo, hhi⟩ := hfloor rfl
    refine .inr ⟨y, rfl, hbits, ?_, ?_⟩
    · rw [show (sticky y g false).2 + 1 = g from sub_add_cancel g 1]
      exact mul_lt_mul_of_pos_right hlo hp
    · rw [show (sticky y g false).2 + 1 = g from sub_add_cancel g 1]
      exact mul_lt_mul_of_pos_right hhi hp
  · exact .inl (by rw [hexact rfl]; rfl)

/-- The sign of a nonzero product or quotient. -/
theorem decide_neg_eq {x : ℝ} {neg : Bool} {z : ℝ} (hz : 0 < z) (hx : x = (if neg then -1 else 1) * z) : decide (x < 0) = neg := by
  rw [hx]
  cases neg
  · simpa using hz.le
  · simpa using hz

theorem divNum_of_ne_zero {f : Fmt} (hf : f.Sound) (r : Round) {s t : Bool} {m n : Nat} {e d : Int} (hm : m ≠ 0) (hn : n ≠ 0) :
    roundsTo f false r (valueR s m e / valueR t n d) (divNum f r (.fin s m e) (.fin t n d)) := by
  have hn0 : (0 : ℝ) < n := Nat.cast_pos.mpr (Nat.pos_of_ne_zero hn)
  have hm0 : (0 : ℝ) < m := Nat.cast_pos.mpr (Nat.pos_of_ne_zero hm)
  obtain ⟨k, hk⟩ : ∃ k, k = Nat.log2 n + f.mant + 48 := ⟨_, rfl⟩
  have hquot : valueR s m e / valueR t n d = (if (s != t) then -1 else 1) * (((m * 2 ^ k : Nat) : ℝ) / n * (2 : ℝ) ^ (e - d - k)) := by
    rw [valueR, valueR, zpow_sub₀ two_ne_zero, zpow_sub₀ two_ne_zero, zpow_natCast]
    cases s <;> cases t <;> push_cast <;> field_simp <;> simp
  have hbits : 2 ^ (f.mant + 33) ≤ m * 2 ^ k / n := by
    rw [Nat.le_div_iff_mul_le (Nat.pos_of_ne_zero hn)]
    calc 2 ^ (f.mant + 33) * n ≤ 2 ^ (f.mant + 33) * 2 ^ (Nat.log2 n + 1) := Nat.mul_le_mul_left _ Nat.lt_log2_self.le
      _ = 2 ^ (f.mant + 33 + (Nat.log2 n + 1)) := (Nat.pow_add ..).symm
      _ ≤ 2 ^ k := Nat.pow_le_pow_right two_pos (by omega)
      _ ≤ m * 2 ^ k := Nat.le_mul_of_pos_left _ (Nat.pos_of_ne_zero hm)
  have hsplit := Nat.div_add_mod (m * 2 ^ k) n
  have hmod := Nat.mod_lt (m * 2 ^ k) (Nat.pos_of_ne_zero hn)
  have hsum : ((m * 2 ^ k / n * n + m * 2 ^ k % n : Nat) : ℝ) = ((m * 2 ^ k : Nat) : ℝ) := by rw [Nat.mul_comm]; exact congrArg _ hsplit
  have hstands : StandsFor f _ _ (((m * 2 ^ k : Nat) : ℝ) / n * (2 : ℝ) ^ (e - d - k)) :=
    standsFor_sticky (g := e - d - k) (exact_ := m * 2 ^ k % n == 0) hbits (fun h => by
        rw [div_eq_iff hn0.ne', ← hsum, beq_iff_eq.mp h, Nat.add_zero, Nat.cast_mul])
      (fun h => by
        have hpos : 0 < m * 2 ^ k % n := Nat.pos_of_ne_zero (beq_eq_false_iff_ne.mp h)
        rw [lt_div_iff₀ hn0, div_lt_iff₀ hn0, ← hsum, ← Nat.cast_mul, ← Nat.cast_mul, Nat.cast_lt, Nat.cast_lt, Nat.succ_mul]
        omega)
  have hpos : 0 < ((m * 2 ^ k : Nat) : ℝ) / n * (2 : ℝ) ^ (e - d - k) := by positivity
  have habs : |valueR s m e / valueR t n d| = ((m * 2 ^ k : Nat) : ℝ) / n * (2 : ℝ) ^ (e - d - k) := by
    rw [hquot, abs_mul, abs_of_pos hpos]
    cases (s != t) <;> simp
  have h := round_spec hf false r (sticky_fst_ne_zero ((Nat.two_pow_pos _).trans_le hbits).ne') (habs ▸ hstands)
  rw [decide_neg_eq hpos hquot] at h
  simp only [divNum, if_neg hn, if_neg hm, if_neg fun h : m = 0 ∧ n = 0 => hm h.1, ← hk]
  exact h

/-! ### Roots -/

/-- The bits found so far are below the root, and the root is below them with all that may follow set. -/
theorem isqrtFrom_spec (x : Nat) : ∀ (k acc : Nat), acc * acc ≤ x → x < (acc + 2 ^ k) * (acc + 2 ^ k) →
    isqrtFrom x k acc * isqrtFrom x k acc ≤ x ∧ x < (isqrtFrom x k acc + 1) * (isqrtFrom x k acc + 1)
  | 0, acc, hlo, hhi => ⟨hlo, by simpa [isqrtFrom] using hhi⟩
  | k + 1, acc, hlo, hhi => by
    rw [isqrtFrom]
    split
    · next h => exact isqrtFrom_spec x k _ h (by rwa [Nat.add_assoc, ← Nat.mul_two, ← Nat.pow_succ])
    · next h => exact isqrtFrom_spec x k _ hlo (not_le.mp h)

theorem isqrt_spec (x : Nat) : isqrt x * isqrt x ≤ x ∧ x < (isqrt x + 1) * (isqrt x + 1) := by
  refine isqrtFrom_spec x _ 0 (Nat.zero_le _) ?_
  rw [Nat.zero_add, ← Nat.pow_add]
  exact Nat.lt_log2_self.trans_le (Nat.pow_le_pow_right two_pos (by omega))

/-- The root of a value with an even exponent, from the integer root of its significand with `2k` more bits. -/
theorem sqrt_standsFor {f : Fmt} {m k : Nat} (g : Int) (hm : m ≠ 0) (hk : f.mant + 33 ≤ k) :
    StandsFor f (sticky (isqrt (m * 2 ^ (2 * k))) g (isqrt (m * 2 ^ (2 * k)) * isqrt (m * 2 ^ (2 * k)) == m * 2 ^ (2 * k))).1
      (sticky (isqrt (m * 2 ^ (2 * k))) g (isqrt (m * 2 ^ (2 * k)) * isqrt (m * 2 ^ (2 * k)) == m * 2 ^ (2 * k))).2
      (Real.sqrt ((m * 2 ^ (2 * k) : Nat) : ℝ) * (2 : ℝ) ^ g) ∧ 2 ^ (f.mant + 33) ≤ isqrt (m * 2 ^ (2 * k)) := by
  obtain ⟨x, hx⟩ : ∃ x, x = m * 2 ^ (2 * k) := ⟨_, rfl⟩
  rw [← hx]
  obtain ⟨hlo, hhi⟩ := isqrt_spec x
  have hbits : 2 ^ (f.mant + 33) ≤ isqrt x := by
    have hsq : 2 ^ k * 2 ^ k ≤ x := by
      rw [hx, Nat.two_mul, Nat.pow_add]
      exact Nat.le_mul_of_pos_left _ (Nat.pos_of_ne_zero hm)
    refine (Nat.pow_le_pow_right two_pos hk).trans (Nat.lt_succ_iff.mp ?_)
    exact lt_of_mul_self_lt_mul_self₀ (Nat.zero_le _) (hsq.trans_lt hhi)
  refine ⟨standsFor_sticky hbits (fun h => ?_) (fun h => ⟨?_, ?_⟩), hbits⟩
  · have hsq : (x : ℝ) = (isqrt x : ℝ) * isqrt x := by exact_mod_cast (beq_iff_eq.mp h).symm
    rw [hsq, Real.sqrt_mul_self (Nat.cast_nonneg _)]
  · rw [Real.lt_sqrt (Nat.cast_nonneg _), sq]
    exact_mod_cast lt_of_le_of_ne hlo (beq_eq_false_iff_ne.mp h)
  · rw [Real.sqrt_lt' (Nat.cast_pos.mpr (Nat.succ_pos _)), sq]
    exact_mod_cast hhi

theorem sqrtNum_of_pos {f : Fmt} (hf : f.Sound) (r : Round) {s : Bool} {m : Nat} {e : Int} (h : 0 < valueR s m e) :
    roundsTo f false r (Real.sqrt (valueR s m e)) (sqrtNum f r (.fin s m e)) := by
  have hm : m ≠ 0 := fun h0 => h.ne' (valueR_eq_zero_iff.mpr h0)
  have hs : s = false := by
    cases s
    · rfl
    · exact absurd ((valueR_neg_iff hm).mpr rfl) h.not_gt
  subst hs
  obtain ⟨k, hk⟩ : ∃ k, k = f.mant + 48 := ⟨_, rfl⟩
  obtain ⟨m1, e1, hpair, hm1, heven, hval⟩ : ∃ (m1 : Nat) (e1 : Int), (if e % 2 = 0 then (m, e) else (2 * m, e - 1)) = (m1, e1) ∧ m1 ≠ 0 ∧
      2 ∣ e1 ∧ (m1 : ℝ) * (2 : ℝ) ^ e1 = m * (2 : ℝ) ^ e := by
    by_cases he : e % 2 = 0
    · exact ⟨m, e, if_pos he, hm, Int.dvd_of_emod_eq_zero he, rfl⟩
    · refine ⟨2 * m, e - 1, if_neg he, by omega, by omega, ?_⟩
      rw [zpow_sub_one₀ two_ne_zero]
      push_cast
      field_simp
  obtain ⟨g, rfl⟩ := heven
  have hroot : Real.sqrt (valueR false m e) = Real.sqrt ((m1 * 2 ^ (2 * k) : Nat) : ℝ) * (2 : ℝ) ^ (g - k) := by
    have hsq : (2 : ℝ) ^ (2 * g) = ((2 : ℝ) ^ (2 * k)) * ((2 : ℝ) ^ (g - k)) ^ 2 := by
      rw [← zpow_natCast, ← zpow_natCast, ← zpow_mul, ← zpow_add₀ two_ne_zero]
      congr 1
      push_cast
      ring
    have hexp : valueR false m e = ((m1 * 2 ^ (2 * k) : Nat) : ℝ) * ((2 : ℝ) ^ (g - k)) ^ 2 := by
      rw [valueR, if_neg Bool.false_ne_true, one_mul, ← hval, hsq]
      push_cast
      ring
    rw [hexp, Real.sqrt_mul (Nat.cast_nonneg _), Real.sqrt_sq (zpow_pos two_pos _).le]
  obtain ⟨hstands, hbits⟩ := sqrt_standsFor (f := f) (k := k) (g - k) hm1 (by omega)
  rw [← hroot, ← abs_of_pos (Real.sqrt_pos.mpr h)] at hstands
  have hround := round_spec hf false r (sticky_fst_ne_zero ((Nat.two_pow_pos _).trans_le hbits).ne') hstands
  rw [decide_eq_false (not_lt.mpr (Real.sqrt_nonneg _))] at hround
  simp only [sqrtNum, if_neg hm, Bool.false_eq_true, if_false, hpair, ← hk]
  rw [show (2 * g - 2 * (k : Int)) / 2 = g - k by omega]
  exact hround

end Sys2Proof.Machine

namespace Sys2Proof.Claims

open Sys2Proof.Machine

theorem sound_of_vectorFmt {f : Fmt} (h : f ∈ vectorFmts) : f.Sound :=
  sound_of_mem (by revert f; decide)

/-- Settles O52: sums and products are exact integers at one exponent; quotients and roots stand for the exact value. -/
theorem arithmeticRoundsTheExactResult : Obligations.ArithmeticRoundsTheExactResult := by
  rintro f hmem r x y z a b c ⟨s, m, e, hx, rfl⟩ ⟨t, n, d, hy, rfl⟩ ⟨u, k, q, hz, rfl⟩
  have hf := sound_of_vectorFmt hmem
  simp only [fop, hx, hy, hz, mulNum, negNum]
  refine ⟨fun h => addNum_of_ne_zero hf r h, fun h => ?_, fun h => ?_, fun h => ?_, fun ha hb => ?_, fun h => sqrtNum_of_pos hf r h⟩
  · rw [sub_eq_add_neg, ← valueR_not] at h ⊢
    exact addNum_of_ne_zero hf r h
  · rw [← valueR_mul] at h ⊢
    exact roundsTo_round hf false r _ _ (mt valueR_eq_zero_iff.mpr h)
  · rw [← valueR_mul] at h ⊢
    exact addNum_of_ne_zero hf r h
  · exact divNum_of_ne_zero hf r (mt valueR_eq_zero_iff.mpr ha) (mt valueR_eq_zero_iff.mpr hb)

end Sys2Proof.Claims
end

section
/-! SUPPORT. Order of numbers, and operands that are no nonzero finite numbers (R101, R110, R124, R193): the statement
`Obligations.SpecialOperandsGiveTheirResults`. -/

namespace Sys2Proof.Machine

open Sys2Proof.Claims

/-! ### The order of numbers (R124) -/

theorem valueOf_fin (neg : Bool) (m : Nat) (e : Int) : valueOf (.fin neg m e) = ((valueR neg m e : ℝ) : EReal) := rfl

theorem valueOf_inf (neg : Bool) : valueOf (.inf neg) = if neg then ⊥ else ⊤ := rfl

theorem scaled_lt_iff {s t : Bool} {m n : Nat} {e d : Int} :
    scaled s m e (min e d) < scaled t n d (min e d) ↔ valueR s m e < valueR t n d := by
  rw [← scaled_mul_zpow (min_le_left e d), ← scaled_mul_zpow (min_le_right e d), mul_lt_mul_iff_left₀ (zpow_pos two_pos _), Int.cast_lt]

theorem scaled_eq_iff {s t : Bool} {m n : Nat} {e d : Int} :
    scaled s m e (min e d) = scaled t n d (min e d) ↔ valueR s m e = valueR t n d := by
  rw [← scaled_mul_zpow (min_le_left e d), ← scaled_mul_zpow (min_le_right e d), mul_left_inj' (zpow_pos two_pos _).ne', Int.cast_inj]

theorem ltNum_iff {a b : Machine.Num} (ha : a ≠ .nan) (hb : b ≠ .nan) : ltNum a b = true ↔ valueOf a < valueOf b := by
  cases a with
  | nan => exact absurd rfl ha
  | inf s =>
    cases b with
    | nan => exact absurd rfl hb
    | inf t => cases s <;> cases t <;> simp [ltNum, valueOf_inf]
    | fin t n d => cases s <;> simp [ltNum, valueOf_inf, valueOf_fin, EReal.bot_lt_coe]
  | fin s m e =>
    cases b with
    | nan => exact absurd rfl hb
    | inf t => cases t <;> simp [ltNum, valueOf_inf, valueOf_fin, EReal.coe_lt_top]
    | fin t n d => rw [ltNum, decide_eq_true_iff, scaled_lt_iff, valueOf_fin, valueOf_fin, EReal.coe_lt_coe_iff]

theorem eqNum_iff {a b : Machine.Num} (ha : a ≠ .nan) (hb : b ≠ .nan) : eqNum a b = true ↔ valueOf a = valueOf b := by
  cases a with
  | nan => exact absurd rfl ha
  | inf s =>
    cases b with
    | nan => exact absurd rfl hb
    | inf t => cases s <;> cases t <;> simp [eqNum, valueOf_inf]
    | fin t n d => cases s <;> simp [eqNum, valueOf_inf, valueOf_fin]
  | fin s m e =>
    cases b with
    | nan => exact absurd rfl hb
    | inf t => cases t <;> simp [eqNum, valueOf_inf, valueOf_fin]
    | fin t n d => rw [eqNum, decide_eq_true_iff, scaled_eq_iff, valueOf_fin, valueOf_fin, EReal.coe_eq_coe_iff]

/-- Whether one number lies below another, −0 below +0 (R124). -/
def below (a b : Machine.Num) : Prop := valueOf a < valueOf b ∨ (valueOf a = valueOf b ∧ a.neg = true ∧ b.neg = false)

theorem minMax_of_below {f : Fmt} {x y : Nat} (ha : f.decode x ≠ .nan) (hb : f.decode y ≠ .nan) (h : below (f.decode x) (f.decode y)) (max_ : Bool) :
    minMax f max_ x y = (if max_ then y else x, 0) := by
  have hless : (ltNum (f.decode x) (f.decode y) || (eqNum (f.decode x) (f.decode y) && (f.decode x).neg && !(f.decode y).neg)) = true := by
    simpa [ltNum_iff ha hb, eqNum_iff ha hb, below, and_assoc] using h
  rw [minMax, if_neg (by simp [ha, hb]), hless]
  cases max_ <;> rfl

theorem minMax_of_not_below {f : Fmt} {x y : Nat} (ha : f.decode x ≠ .nan) (hb : f.decode y ≠ .nan) (h : ¬ below (f.decode x) (f.decode y))
    (max_ : Bool) : minMax f max_ x y = (if max_ then x else y, 0) := by
  have hless : (ltNum (f.decode x) (f.decode y) || (eqNum (f.decode x) (f.decode y) && (f.decode x).neg && !(f.decode y).neg)) = false := by
    rw [← Bool.not_eq_true]
    simpa only [Bool.or_eq_true, Bool.and_eq_true, Bool.not_eq_true', ltNum_iff ha hb, eqNum_iff ha hb, below, and_assoc] using h
  rw [minMax, if_neg (by simp [ha, hb]), hless]
  cases max_ <;> rfl

end Sys2Proof.Machine

namespace Sys2Proof.Claims

open Sys2Proof.Machine

/-! ### Which results are not rounded (R101, R110, R124) -/

/-- An infinity times a number that is neither a NaN nor a zero. -/
theorem mulNum_inf (s : Bool) {b : Machine.Num} (hb : b ≠ .nan) (hz : ¬ ∃ t d, b = .fin t 0 d) :
    mulNum (.inf s) b = (.inf (s != b.neg), 0) ∧ mulNum b (.inf s) = (.inf (s != b.neg), 0) := by
  cases b with
  | nan => exact absurd rfl hb
  | inf t => exact ⟨rfl, by rw [mulNum, bne_comm]; rfl⟩
  | fin t n d =>
    have hn : n ≠ 0 := fun h => hz ⟨t, d, by rw [h]⟩
    exact ⟨if_neg hn, by rw [mulNum, if_neg hn, bne_comm]; rfl⟩

section
variable {f : Fmt} {r : Round} {x y z : Nat}

theorem fop_of_nan (h : f.decode x = .nan ∨ f.decode y = .nan) : ∀ op ∈ [FOp.add, .sub, .mul, .fma, .min, .max, .div], fop f op r x y z = (f.nan, 0) := by
  have hmul : mulNum (f.decode x) (f.decode y) = (.nan, 0) := by
    rcases h with h | h <;> rw [h]
    · rfl
    · cases f.decode x <;> rfl
  have hadd : ∀ b, (b = .nan ↔ f.decode y = .nan) → addNum f r (f.decode x) b = (f.nan, 0) := fun b hb => by
    rcases h with h | h
    · rw [h]; rfl
    · rw [hb.mpr h]; cases f.decode x <;> rfl
  have hdiv : divNum f r (f.decode x) (f.decode y) = (f.nan, 0) := by
    rcases h with h | h <;> rw [h]
    · rfl
    · cases f.decode x <;> rfl
  have hneg : negNum (f.decode y) = .nan ↔ f.decode y = .nan := by cases f.decode y <;> simp [negNum]
  have hmm : ∀ max_, minMax f max_ x y = (f.nan, 0) := fun max_ => if_pos (by simpa using h)
  simp [fop, hmul, hadd _ Iff.rfl, hadd _ hneg, hdiv, hmm]

theorem fop_of_nan_unary (h : f.decode x = .nan) : ∀ op ∈ [FOp.sqrt, .abs, .neg], fop f op r x y z = (f.nan, 0) := by
  simp [fop, h, sqrtNum]

end

/-- Settles O53: each operation on the kinds of its operands; sums by the exact sum, minimum and maximum by the order of numbers. -/
theorem specialOperandsGiveTheirResults : Obligations.SpecialOperandsGiveTheirResults := by
  intro f _ r x y z
  refine ⟨fop_of_nan, fop_of_nan_unary, fun s t ha hb => ?_, fun s ha ⟨t, d, hb⟩ => ?_, fun ⟨s, e, ha⟩ ⟨t, d, hb⟩ => ?_,
    fun s m e ha hm ⟨t, d, hb⟩ => ?_, fun s m e ha hm hb => ?_, fun m e ha hm => ?_, fun ha => ?_, fun ⟨s, e, ha⟩ => ?_, fun ha hb => ?_,
    fun s t n d ha hb => ?_, fun ha => ?_, fun s m e t n d ha hb => ?_, ?_, ?_, ?_, ?_⟩
  · cases s <;> cases t <;> simp [fop, ha, hb, addNum, negNum, divNum, mulNum]
  · simp [fop, ha, hb, divNum, mulNum, Machine.Num.neg, bne_comm]
  · refine ⟨by simp [fop, ha, hb, divNum], ?_⟩
    simp only [fop, ha, hb, Machine.Num.neg]
    exact addNum_of_eq_zero f r (by simp [valueR])
  · simp [fop, ha, hb, divNum, hm, Machine.Num.neg, bne_comm]
  · rw [ha] at hb
    simp only [fop, ha, hb, negNum]
    rw [addNum_of_eq_zero f r (by rw [valueR_not, add_neg_cancel]), if_neg (by simp)]
  · simp [fop, ha, sqrtNum, hm]
  · simp [fop, ha, sqrtNum]
  · simp [fop, ha, sqrtNum, Machine.Num.neg]
  · have hbelow := fun h : below (f.decode x) (f.decode y) => minMax_of_below ha hb h
    have hnot := fun h : ¬ below (f.decode x) (f.decode y) => minMax_of_not_below ha hb h
    simp only [below, not_or, not_and] at hbelow hnot
    simp only [fop]
    refine ⟨fun h => ?_, fun h => ?_, fun h hx hy => ?_, fun h hx hy => ?_, fun h hs => ?_⟩
    · rw [hbelow (.inl h), hbelow (.inl h)]; exact ⟨rfl, rfl⟩
    · have h' := hnot ⟨h.not_gt, fun e => absurd e h.ne'⟩
      rw [h', h']; exact ⟨rfl, rfl⟩
    · have h' := hbelow (.inr ⟨h, hx, hy⟩)
      rw [h', h']; exact ⟨rfl, rfl⟩
    · have h' := hnot ⟨h.not_lt, fun _ e => by rw [hx] at e; cases e⟩
      rw [h', h']; exact ⟨rfl, rfl⟩
    · have h' := hnot ⟨h.not_lt, fun _ e => by rw [← hs, e]; nofun⟩
      simp [h']
  · have hmul : n ≠ 0 → (fop f .mul r x y z = (f.infBits (s != t), 0) ∧ fop f .mul r y x z = (f.infBits (s != t), 0)) := fun hn => by
      simp [fop, ha, hb, mulNum, hn, bne_comm]
    simpa [fop, ha, hb, addNum, negNum, divNum, bne_comm] using hmul
  · simp [fop, ha, sqrtNum]
  · simp only [fop, ha, hb, negNum, mulNum]
    refine ⟨fun h => ?_, fun h => addNum_of_eq_zero f r h, fun h => ?_⟩
    · rw [show m * n = 0 from Nat.mul_eq_zero.mpr h, Fmt.round_zero]
    · rw [addNum_of_eq_zero f r (by rw [valueR_not, ← sub_eq_add_neg, h])]
      cases s <;> cases t <;> rfl
  · intro s ha ⟨t, d, hb⟩
    simp [fop, ha, hb, mulNum]
  · intro s ha hb hz hc
    obtain ⟨hl, hr⟩ := mulNum_inf s hb hz
    simp [fop, ha, hl, hr, hc, addNum]
  · intro s ha hb hz
    obtain ⟨hl, hr⟩ := mulNum_inf s hb hz
    simp only [fop, ha, hl, hr]
    refine ⟨fun u hc => ?_, fun u k q hc => by rw [hc]; exact ⟨rfl, rfl⟩⟩
    rw [hc, and_self, addNum]
    by_cases hu : (s != (f.decode y).neg) = u <;> simp [hu]
  · intro s m e t n d ha hb
    simp only [fop, ha, hb, mulNum]
    refine ⟨fun hc => by rw [hc]; rfl, fun u hc => by rw [hc]; rfl, fun u k q hc h => ?_⟩
    rw [hc, addNum_of_eq_zero f r (by rw [valueR_mul, h])]
    cases s <;> cases t <;> cases u <;> rfl

end Sys2Proof.Claims
end

section
/-! SUPPORT. Conversions between numbers and encodings (R100, R106, R108, R111): what the model's conversions give, and that it fits the word. -/

namespace Sys2Proof.Machine

open Sys2Proof.Claims

/-! ### To a floating-point format -/

theorem signBit_add_lt (f : Fmt) (neg : Bool) {v : Nat} (hv : v < 2 ^ (f.expo + f.mant)) : f.signBit neg + v < 2 ^ f.width := by
  rw [Fmt.width, Nat.add_assoc, Nat.add_comm 1, Nat.pow_succ, Fmt.signBit]
  split <;> omega

theorem round_lt {f : Fmt} (hf : f.Sound) (sat : Bool) (r : Round) (neg : Bool) (m : Nat) (e : Int) : (f.round sat r neg m e).1 < 2 ^ f.width := by
  by_cases hm : m = 0
  · rw [hm, Fmt.round_zero]
    exact signBit_add_lt f neg (Nat.two_pow_pos _)
  obtain ⟨hlo, hhi⟩ := floorLog2_bounds hm e
  have hq : IsQuantum f _ (f.quantum m e) := isQuantum_of_binade hf hlo hhi
  have hk := stepsTo_roundAt r neg m e (f.quantum m e)
  rw [Fmt.round, if_neg hm]
  dsimp only
  split
  · have hinf : (2 ^ f.expo - 1) * 2 ^ f.mant < 2 ^ (f.expo + f.mant) := by
      rw [Nat.pow_add]
      exact Nat.mul_lt_mul_of_pos_right (Nat.sub_lt (Nat.two_pow_pos _) one_pos) (Nat.two_pow_pos _)
    rw [overflowed_eq, overflowBits]
    split
    · exact signBit_add_lt f neg (hf.finite.trans_le hf.special)
    · exact signBit_add_lt f neg hinf
  · next hover =>
    have htop : f.quantum m e = f.emax - f.mant → (roundAt r neg m e (f.quantum m e)).1 ≤ f.top := fun hq => not_lt.mp fun hlt => hover ⟨hq, hlt⟩
    obtain ⟨v, -, -, henc, hv, -, -⟩ := encode_spec hf neg hq.least hq.most
      ((lt_or_eq_of_le hq.most).elim (hq.steps_le hk) fun h => (htop h).trans hf.short.le) (hq.steps_subnormal hk) htop
    rw [henc]
    exact signBit_add_lt f neg (hv.trans_le hf.special)

theorem decode_signBit {f : Fmt} (hf : f.Sound) (neg : Bool) : f.decode (f.signBit neg) = .fin neg 0 f.qmin := by
  have h := decode_of_lt hf neg (v := 0) ((Nat.zero_le _).trans_lt hf.finite)
  rwa [Nat.zero_div, Nat.zero_mod, if_pos rfl] at h

theorem decode_infBits {f : Fmt} (hf : f.inf = true) (neg : Bool) : f.decode (f.infBits neg) = .inf neg := by
  have hexp : 2 ^ f.expo - 1 < 2 ^ f.expo := Nat.sub_lt (Nat.two_pow_pos _) one_pos
  have hpow : 2 ^ (f.expo + f.mant) = 2 ^ f.expo * 2 ^ f.mant := Nat.pow_add ..
  have hlt : (2 ^ f.expo - 1) * 2 ^ f.mant < 2 ^ (f.expo + f.mant) := hpow ▸ Nat.mul_lt_mul_of_pos_right hexp (Nat.two_pow_pos _)
  have hsign : (f.infBits neg).testBit (f.expo + f.mant) = neg := by
    cases neg
    · rw [Fmt.infBits, Fmt.signBit, if_neg Bool.false_ne_true, Nat.zero_add, Nat.testBit_lt_two_pow hlt]
    · rw [Fmt.infBits, Fmt.signBit, if_pos rfl, Nat.testBit_two_pow_add_eq, Nat.testBit_lt_two_pow hlt]
      rfl
  have hsplit : ∃ c, f.infBits neg = (2 ^ f.expo * c + (2 ^ f.expo - 1)) * 2 ^ f.mant := ⟨if neg then 1 else 0, by
    cases neg <;> simp [Fmt.infBits, Fmt.signBit, hpow, Nat.add_mul]⟩
  obtain ⟨c, hc⟩ := hsplit
  have he : f.infBits neg / 2 ^ f.mant % 2 ^ f.expo = 2 ^ f.expo - 1 := by
    rw [hc, Nat.mul_div_cancel _ (Nat.two_pow_pos _), Nat.mul_add_mod, Nat.mod_eq_of_lt hexp]
  have hm : f.infBits neg % 2 ^ f.mant = 0 := by rw [hc, Nat.mul_mod_left]
  simp [Fmt.decode, hsign, he, hm, hf]

theorem floatOf_round {f : Fmt} (hf : f.Sound) (sat : Bool) (r : Round) (neg : Bool) (m : Nat) (e : Int) :
    floatOf f sat r (.fin neg m e) (f.round sat r neg m e) := by
  refine ⟨fun hm => ?_, fun hm => roundsTo_round hf sat r neg e hm⟩
  rw [hm, Fmt.round_zero]
  exact ⟨⟨_, decode_signBit hf neg⟩, rfl⟩

theorem floatOf_ofNum {f : Fmt} (hf : f.Sound) (hinf : f.inf = true) (r : Round) (n : Machine.Num) : floatOf f false r n (f.ofNum r n) := by
  cases n with
  | nan => rfl
  | inf neg => exact ⟨decode_infBits hinf neg, rfl⟩
  | fin neg m e => exact floatOf_round hf false r neg m e

theorem ofNum_lt {f : Fmt} (hf : f.Sound) (hnan : f.nan < 2 ^ f.width) (r : Round) (n : Machine.Num) : (f.ofNum r n).1 < 2 ^ f.width := by
  cases n with
  | nan => exact hnan
  | inf neg =>
    refine signBit_add_lt f neg ?_
    rw [Nat.pow_add]
    exact Nat.mul_lt_mul_of_pos_right (Nat.sub_lt (Nat.two_pow_pos _) one_pos) (Nat.two_pow_pos _)
  | fin neg m e => exact round_lt hf false r neg m e

/-! ### To an integer -/

theorem numToInt_fin (r : Round) (lo hi : Int) (neg : Bool) (m : Nat) (e : Int) : numToInt r lo hi (.fin neg m e) =
    if (roundInt r neg m e).1 < lo then (lo, xfInvalid) else if hi < (roundInt r neg m e).1 then (hi, xfInvalid)
      else ((roundInt r neg m e).1, flagIf (roundInt r neg m e).2 xfInexact) := rfl

theorem integerOf_numToInt {lo hi : Int} (h : lo ≤ hi) (r : Round) (n : Machine.Num) : integerOf r lo hi n (numToInt r lo hi n) := by
  cases n with
  | nan => rfl
  | inf neg => rfl
  | fin neg m e =>
    obtain ⟨hpick, hinexact⟩ := integerPicked_roundInt r neg m e
    rw [numToInt_fin]
    refine ⟨(roundInt r neg m e).1, hpick, fun hlt => if_pos hlt, fun hgt => ?_, fun hl hh => ?_⟩
    · rw [if_neg (by omega), if_pos hgt]
      rfl
    · rw [if_neg (by omega), if_neg (by omega)]
      refine ⟨rfl, ?_⟩
      cases hi : (roundInt r neg m e).2
      · exact .inl ⟨rfl, not_not.mp fun hne => by rw [hinexact.mpr hne] at hi; cases hi⟩
      · exact .inr ⟨rfl, hinexact.mp hi⟩

theorem numToInt_mem {lo hi : Int} (h0 : lo ≤ 0) (h1 : 0 ≤ hi) (r : Round) (n : Machine.Num) :
    lo ≤ (numToInt r lo hi n).1 ∧ (numToInt r lo hi n).1 ≤ hi := by
  cases n with
  | nan => exact ⟨h0, h1⟩
  | inf neg => cases neg <;> simp [numToInt] <;> omega
  | fin neg m e =>
    rw [numToInt_fin]
    split
    · exact ⟨le_refl _, h0.trans h1⟩
    · split
      · exact ⟨h0.trans h1, le_refl _⟩
      · exact ⟨by omega, by omega⟩

end Sys2Proof.Machine
end

section
/-! SUPPORT. The forms of the S slots with a literal, and the scalar conversions (R108, R111, R136, R137, R142): the statement
`Obligations.ScalarLiteralFormsAndConversions`. -/

namespace Sys2Proof.Claims

open Sys2Proof.Machine

/-! ### Literals (R136, R137) -/

theorem fieldPos_eq (w : W32) : fieldPos w = w.toNat % 64 := by
  rw [fieldPos, extractLsb'_eq_ofNat, pow_zero, Nat.div_one, BitVec.toNat_ofNat]

theorem fieldLen_eq (w : W32) : fieldLen w = w.toNat / 64 % 64 + 1 := by
  rw [fieldLen, extractLsb'_eq_ofNat, BitVec.toNat_ofNat]
  rfl

theorem fieldOk_iff (w : W32) : fieldOk w = true ↔ fieldFits w := by
  have hlt := w.isLt
  have hhigh : w.extractLsb' 12 20 = 0 ↔ w.toNat / 4096 = 0 := by
    rw [extractLsb'_eq_ofNat, ← BitVec.toNat_inj, BitVec.toNat_ofNat]
    show w.toNat / 2 ^ 12 % 2 ^ 20 = 0 ↔ _
    omega
  have hpos := fieldPos_eq w
  have hlen := fieldLen_eq w
  rw [fieldPos] at hpos
  rw [fieldLen] at hlen
  rw [fieldOk, Bool.and_eq_true, beq_iff_eq, decide_eq_true_iff, hhigh, hpos, Nat.add_assoc, hlen]
  rfl

theorem bitField_eq {a : W64} {p n : Nat} (h : p + n ≤ 64) : bitField a p n = BitVec.ofNat 64 (a.toNat / 2 ^ p % 2 ^ n) := by
  have hn : 2 ^ n ≤ 2 ^ 64 := Nat.pow_le_pow_right two_pos (by omega)
  have hlt := Nat.mod_lt (a.toNat / 2 ^ p) (Nat.two_pow_pos n)
  apply BitVec.eq_of_toNat_eq
  rw [bitField, BitVec.toNat_setWidth, BitVec.toNat_ofNat, extractLsb'_eq_ofNat, BitVec.toNat_ofNat]

theorem bitFieldS_eq (a : W64) (p n : Nat) : bitFieldS a p n = BitVec.ofInt 64 (Int.bmod (a.toNat / 2 ^ p : Nat) (2 ^ n)) := by
  rw [bitFieldS, extractLsb'_eq_ofNat, BitVec.signExtend, BitVec.toInt_eq_toNat_bmod, BitVec.toNat_ofNat, Int.natCast_emod, Int.emod_bmod]

theorem getLsbD_insertField {d a : W64} {p n j : Nat} (hj : j < 64) :
    (insertField d a p n).getLsbD j = if p ≤ j ∧ j < p + n then a.getLsbD (j - p) else d.getLsbD j := by
  rw [insertField, getLsbD_setField _ _ _ _ hj]
  split
  · next h =>
    have hlt : j - p < n := by omega
    rw [BitVec.getLsbD_extractLsb', decide_eq_true hlt, Bool.true_and, Nat.zero_add]
  · rfl

theorem lit2_eq (s : State) (k : Nat) : s.lit2 k = BitVec.ofNat 64 ((s.lit (k + 1)).toNat * 2 ^ 32 + (s.lit k).toNat) := by
  have hlo := (s.lit k).isLt
  have hhi := (s.lit (k + 1)).isLt
  apply BitVec.eq_of_toNat_eq
  rw [State.lit2, BitVec.toNat_append, Nat.shiftLeft_eq, Nat.mul_comm, ← Nat.two_pow_add_eq_or_of_lt hlo, BitVec.toNat_ofNat]
  omega

/-- A form without resources acts where the pool holds its literals and they are in range, and takes the trap of check 3 elsewhere. -/
theorem guard_literals (s : State) {i : Instr} (hh : heldBy s.place s.lit i = true) (hv : s.valuesOk i = true) (k : Res) :
    (litsOk s.lit s.iss.hdr.lits.toNat i = true → s.guard i k = k) ∧
    (¬ litsOk s.lit s.iss.hdr.lits.toNat i = true → s.guard i k = .next (refusedAt s 3)) :=
  ⟨fun h => State.guard_acts ⟨h, hh, hv⟩ k, fun h => State.guard_bad_literals (Bool.eq_false_of_not_eq_true h) k⟩

theorem literalFormsResults : LiteralFormsResults := by
  intro s d a k
  have one : (decide (k.toNat + 1 ≤ s.iss.hdr.lits.toNat) = true) = holdsLits s k 1 := decide_eq_true_eq
  have two : (decide (k.toNat + 2 ≤ s.iss.hdr.lits.toNat) = true) = holdsLits s k 2 := decide_eq_true_eq
  have field : ((decide (k.toNat + 1 ≤ s.iss.hdr.lits.toNat) && fieldOk (s.lit k.toNat)) = true) = (holdsLits s k 1 ∧ fieldFits (s.lit k.toNat)) := by
    rw [Bool.and_eq_true, one, fieldOk_iff]
  have hshort := guard_literals s (i := .liS64 d k) rfl rfl (s.put d ((s.lit k.toNat).signExtend 64))
  have hlong := guard_literals s (i := .li64 d k) rfl rfl (s.put d (s.lit2 k.toNat))
  have hz := guard_literals s (i := .bfxZ64 d a k) rfl rfl (s.put d (bitField (s.rg a) (fieldPos (s.lit k.toNat)) (fieldLen (s.lit k.toNat))))
  have hs := guard_literals s (i := .bfxS64 d a k) rfl rfl (s.put d (bitFieldS (s.rg a) (fieldPos (s.lit k.toNat)) (fieldLen (s.lit k.toNat))))
  have hi := guard_literals s (i := .bfiZ64 d a k) rfl rfl
    (s.put d (insertField (s.rg d) (s.rg a) (fieldPos (s.lit k.toNat)) (fieldLen (s.lit k.toNat))))
  simp only [litsOk, one, two, field] at hshort hlong hz hs hi
  refine ⟨hshort.1, hshort.2, fun h => (hlong.1 h).trans ?_, hlong.2, fun h1 h2 => ?_, fun h => ⟨hz.2 h, hs.2 h, hi.2 h⟩⟩
  · rw [lit2_eq]
    rfl
  · have hfit : fieldPos (s.lit k.toNat) + fieldLen (s.lit k.toNat) ≤ 64 := by
      rw [fieldPos_eq, fieldLen_eq]
      exact h2.2
    have hz : exec (.bfxZ64 d a k) s = .next _ := hz.1 ⟨h1, h2⟩
    have hs : exec (.bfxS64 d a k) s = .next _ := hs.1 ⟨h1, h2⟩
    have hi : exec (.bfiZ64 d a k) s = .next _ := hi.1 ⟨h1, h2⟩
    rw [bitField_eq hfit] at hz
    rw [bitFieldS_eq] at hs
    simp only [fieldPos_eq, fieldLen_eq] at hz hs hi
    exact ⟨hz, hs, _, hi, fun j hj => getLsbD_insertField hj⟩

/-! ### Conversions (R142) -/

theorem oneDraw_eq (s : State) (r : BitVec 3) : s.oneDraw r = drawOne s r := by
  by_cases h : r = 4
  · subst h; rfl
  · have hne : r.toNat ≠ 4 := fun e => h (BitVec.eq_of_toNat_eq e)
    rw [State.oneDraw, State.roundDraws, if_neg hne, drawOne, if_neg h]
    rfl

theorem fromInt_result (s : State) (d : BitVec 6) (i : Int) (r : BitVec 3) : ∃ y : W64 × XF,
    (y.1.toNat < 2 ^ 32 ∧ floatOf fmtF32 false (drawOne s r).1 (.fin (decide (i < 0)) i.natAbs 0) (y.1.toNat, y.2)) ∧
    s.fromInt d i r = .next (((drawOne s r).2.modR (fun q => { q with xf := q.xf ||| y.2 })).wg d y.1) := by
  have hf : fmtF32.Sound := sound_of_mem (by decide)
  have hlt : (intToFmt fmtF32 (drawOne s r).1 i).1 < 2 ^ 32 := round_lt hf false _ _ _ _
  have hval : (BitVec.ofNat 64 (intToFmt fmtF32 (drawOne s r).1 i).1).toNat = (intToFmt fmtF32 (drawOne s r).1 i).1 := by
    rw [BitVec.toNat_ofNat, Nat.mod_eq_of_lt (by omega)]
  refine ⟨(BitVec.ofNat 64 (intToFmt fmtF32 (drawOne s r).1 i).1, (intToFmt fmtF32 (drawOne s r).1 i).2), ⟨?_, ?_⟩, ?_⟩
  · rw [hval]; exact hlt
  · rw [hval]; exact floatOf_round hf false _ _ _ _
  · rw [State.fromInt, oneDraw_eq]; rfl

theorem toInt_result (s : State) (d : BitVec 6) (a : W64) (r : BitVec 3) {lo hi : Int} (h0 : lo ≤ 0) (h1 : 0 ≤ hi) :
    ∃ i x, integerOf (drawOne s r).1 lo hi (fmtF32.decode (a.toNat % 2 ^ 32)) (i, x) ∧ lo ≤ i ∧ i ≤ hi ∧
    s.toInt d a r lo hi = .next (((drawOne s r).2.modR (fun q => { q with xf := q.xf ||| x })).wg d (BitVec.ofInt 64 i)) := by
  refine ⟨_, _, integerOf_numToInt (h0.trans h1) _ _, (numToInt_mem h0 h1 _ _).1, (numToInt_mem h0 h1 _ _).2, ?_⟩
  have hlow : (a.extractLsb' 0 32).toNat = a.toNat % 2 ^ 32 := by simp
  rw [State.toInt, oneDraw_eq, hlow]
  rfl

theorem scalarConversionResults : ScalarConversionResults := by
  intro s i d r f hi _
  cases i with
  | cvtF32S64 d a r => cases hi; exact fromInt_result s d (s.rg a).toInt r
  | cvtF32Z64 d a r => cases hi; exact fromInt_result s d (s.rg a).toNat r
  | cvtS64F32 d a r =>
    cases hi
    obtain ⟨i, x, hint, hlo, hhi, hexec⟩ := toInt_result s d (s.rg a) r (lo := -(2 ^ 63)) (hi := 2 ^ 63 - 1) (by decide) (by decide)
    have hval : (BitVec.ofInt 64 i).toInt = i := by
      rw [BitVec.toInt_ofInt]
      exact Int.bmod_eq_of_le (by omega) (by omega)
    exact ⟨(BitVec.ofInt 64 i, x), (congrArg (fun j => integerOf _ _ _ _ (j, x)) hval).mpr hint, hexec⟩
  | cvtZ64F32 d a r =>
    cases hi
    obtain ⟨i, x, hint, hlo, hhi, hexec⟩ := toInt_result s d (s.rg a) r (lo := 0) (hi := 2 ^ 64 - 1) (by decide) (by decide)
    have hval : ((BitVec.ofInt 64 i).toNat : Int) = i := by
      rw [BitVec.toNat_ofInt]
      omega
    exact ⟨(BitVec.ofInt 64 i, x), (congrArg (fun j => integerOf _ _ _ _ (j, x)) hval).mpr hint, hexec⟩
  | _ => cases hi

/-- Settles O3: literal forms under the check of their literals, conversions by the conversions between numbers and encodings. -/
theorem scalarLiteralFormsAndConversions : Obligations.ScalarLiteralFormsAndConversions := ⟨literalFormsResults, scalarConversionResults⟩

end Sys2Proof.Claims
end

section
/-! SUPPORT. The single adder of a block and the order of arrivals (R116, R118, R119, R222, R223): the statements
`Obligations.AccumulatorAddsAnArrival`, `Obligations.PartialSumsAreExact` and `Obligations.MatrixFormsAddInStoneOrder`. -/

namespace Sys2Proof.Machine

open Sys2Proof.Claims

/-! ### The search for an exponent (R118) -/

/-- The sums of a block and an arrival at the exponent `y`. -/
def accSums (k : Blk) (x : Int) (a : List (Int × Int)) (y : Int) : List Int :=
  List.zipWith (fun m (p : Int × Int) => roundNE m (x - y) + roundNE p.1 (p.2 - y)) k.m a

theorem roundNE_eq_iff {i e n : Int} : roundNE i e = n ↔ isNearest i e n := by
  have h := isNearest_roundInt (decide (i < 0)) i.natAbs e
  rw [signed_natAbs] at h
  exact ⟨fun e => e ▸ h, isNearest_unique h⟩

theorem sumsAt_iff {k : Blk} {x y : Int} {a : List (Int × Int)} {t : List Int} (hk : k.m.length = 16) (ha : a.length = 16) :
    sumsAt x k.m a y t ↔ t = accSums k x a y := by
  have hlen : (accSums k x a y).length = 16 := by simp [accSums, hk, ha]
  have hget : ∀ j < 16, (accSums k x a y).getD j 0 = roundNE (k.m.getD j 0) (x - y) + roundNE (a.getD j (0, 0)).1 ((a.getD j (0, 0)).2 - y) := by
    intro j hj
    simp [accSums, List.getD_eq_getElem?_getD, hk, ha, hj]
  constructor
  · rintro ⟨ht, h⟩
    refine List.ext_getElem (ht.trans hlen.symm) fun j hj hj' => ?_
    obtain ⟨p, q, hv, hp, hq⟩ := h j (ht ▸ hj)
    rw [← List.getD_eq_getElem _ 0 hj, ← List.getD_eq_getElem _ 0 hj', hget j (ht ▸ hj), hv, roundNE_eq_iff.mpr hp, roundNE_eq_iff.mpr hq]
  · rintro rfl
    exact ⟨hlen, fun j hj => ⟨_, _, hget j hj, roundNE_eq_iff.mp rfl, roundNE_eq_iff.mp rfl⟩⟩

theorem fits_iff {t : List Int} (ht : t.length = 16) :
    fits t ↔ t.all (fun v => decide (-(2 ^ 31) ≤ v) && decide (v ≤ 2 ^ 31 - 1)) = true := by
  rw [List.all_eq_true, fits]
  constructor
  · intro h v hv
    obtain ⟨j, hj, rfl⟩ := List.getElem_of_mem hv
    have := h j (ht ▸ hj)
    rw [List.getD_eq_getElem _ _ hj] at this
    simp only [Bool.and_eq_true, decide_eq_true_eq]
    omega
  · intro h j hj
    have := h _ (List.getElem_mem (ht.symm ▸ hj))
    simp only [Bool.and_eq_true, decide_eq_true_eq] at this
    rw [List.getD_eq_getElem _ _ (ht.symm ▸ hj)]
    omega

section
variable {k : Blk} {x : Int} {a : List (Int × Int)} (hk : k.m.length = 16) (ha : a.length = 16)
include hk ha

/-- The search takes the first exponent at which the sums fit. -/
theorem accFrom_first {y : Int} {fuel : Nat} {y0 : Int} (h0 : y0 ≤ y) (hy : y < y0 + fuel) (hfit : fits (accSums k x a y))
    (hnot : ∀ z, y0 ≤ z → z < y → ¬ fits (accSums k x a z)) : accFrom k x a fuel y0 = some { x := some y, m := accSums k x a y } := by
  have hlen : ∀ z, (accSums k x a z).length = 16 := fun z => by simp [accSums, hk, ha]
  induction fuel generalizing y0 with
  | zero => omega
  | succ fuel ih =>
    rw [accFrom]
    by_cases hyz : y0 = y
    · subst hyz
      exact if_pos ((fits_iff (hlen _)).mp hfit)
    · refine (if_neg (mt (fits_iff (hlen _)).mpr (hnot y0 (le_refl _) (by omega)))).trans ?_
      exact ih (by omega) (by omega) fun z hz => hnot z (by omega)

theorem accFrom_none {fuel : Nat} {y0 : Int} (hnot : ∀ z, y0 ≤ z → z < y0 + fuel → ¬ fits (accSums k x a z)) : accFrom k x a fuel y0 = none := by
  have hlen : ∀ z, (accSums k x a z).length = 16 := fun z => by simp [accSums, hk, ha]
  induction fuel generalizing y0 with
  | zero => rfl
  | succ fuel ih =>
    rw [accFrom]
    refine (if_neg (mt (fits_iff (hlen _)).mpr (hnot y0 (le_refl _) (by omega)))).trans ?_
    exact ih fun z hz hlt => hnot z (by omega) (by omega)

end

/-- The exponent at which the search of R118 begins. -/
def accStart (k : Blk) (x : Int) (a : List (Int × Int)) : Int := if k.m.all (fun v => v == 0) then max (-127) (leastExp a) else x

theorem accAdd_eq {k : Blk} {x : Int} {a : List (Int × Int)} (hx : k.x = some x) (h : ¬ ((∀ v ∈ k.m, v = 0) ∧ ∀ p ∈ a, p.1 = 0)) :
    accAdd k a false = match accFrom k x a (128 - accStart k x a).toNat (accStart k x a) with
      | some b => (b, 0)
      | none => (Blk.bad, xfOverflow) := by
  have hnz : ¬ (k.m.all (fun v => v == 0) && a.all (fun p => p.1 == 0)) = true := by
    simpa only [Bool.and_eq_true, List.all_eq_true, beq_iff_eq] using h
  rw [accAdd, hx]
  exact (if_neg Bool.false_ne_true).trans (if_neg hnz)

/-- A search for the least exponent keeps what it had or takes that of a nonzero term. -/
theorem foldl_lowerExp (l : List (Int × Int)) (acc : Option Int) : l.foldl lowerExp acc = acc ∨ ∃ p ∈ l, p.1 ≠ 0 ∧ l.foldl lowerExp acc = some p.2 := by
  induction l generalizing acc with
  | nil => exact .inl rfl
  | cons p l ih =>
    rw [List.foldl_cons]
    obtain h | ⟨q, hq, hne, h⟩ := ih (lowerExp acc p)
    · by_cases hp : p.1 = 0
      · exact .inl (h.trans (if_pos hp))
      · cases acc with
        | none => exact .inr ⟨p, List.mem_cons_self, hp, h.trans (if_neg hp)⟩
        | some e =>
          have hmin : l.foldl lowerExp (lowerExp (some e) p) = some (min e p.2) := h.trans (if_neg hp)
          rcases le_total e p.2 with hle | hle
          · exact .inl (hmin.trans (congrArg some (min_eq_left hle)))
          · exact .inr ⟨p, List.mem_cons_self, hp, hmin.trans (congrArg some (min_eq_right hle))⟩
    · exact .inr ⟨q, List.mem_cons_of_mem _ hq, hne, h⟩

/-- The least exponent of a list with a nonzero term is that of one of them. -/
theorem exists_leastExp {l : List (Int × Int)} {p : Int × Int} (hp : p ∈ l) (hne : p.1 ≠ 0) : ∃ q ∈ l, q.1 ≠ 0 ∧ leastExp l = q.2 := by
  rw [leastExp_eq]
  obtain h | ⟨q, hq, hq0, h⟩ := foldl_lowerExp l none
  · have hzero := isLeastExp_foldl l
    rw [h] at hzero
    exact absurd (hzero p hp) hne
  · exact ⟨q, hq, hq0, by rw [h]; rfl⟩

theorem leastExp_eq_of_le {l : List (Int × Int)} {p : Int × Int} (hp : p ∈ l) (hne : p.1 ≠ 0) (hle : ∀ q ∈ l, q.1 ≠ 0 → p.2 ≤ q.2) :
    leastExp l = p.2 := by
  obtain ⟨q, hq, hq0, h⟩ := exists_leastExp hp hne
  exact le_antisymm (leastExp_le hp hne) (h ▸ hle q hq hq0)

/-! ### Partial sums (R116) -/

theorem take_blockTerms {r : FeedRow} {c : StoneCol} {kb : Nat} (hkb : kb ≤ 16) (h : OfBlocks (0, r, c)) :
    (blockTerms r c).take kb = (List.range kb).map fun k => (dotInt (r.a.getD k []) (c.c.getD k []), r.e.getD k 0 + c.e.getD k 0) := by
  obtain ⟨ha, he, -, hc, hce, -⟩ := h
  refine List.ext_getElem (by simp [blockTerms, ha, he, hc, hce, hkb]) fun k hk hk' => ?_
  have hlt : k < 16 := by simp at hk'; omega
  simp [blockTerms, List.getD_eq_getElem?_getD, ha, he, hc, hce, hlt]

theorem any_blockNan {r : FeedRow} {c : StoneCol} {kb : Nat} (hkb : kb ≤ 16) (h : OfBlocks (0, r, c)) :
    ((blockNan r c).take kb).any id = true ↔ ∃ k < kb, r.nan.getD k false = true ∨ c.nan.getD k false = true := by
  obtain ⟨-, -, hn, -, -, hcn⟩ := h
  have hlist : (blockNan r c).take kb = (List.range kb).map fun k => r.nan.getD k false || c.nan.getD k false := by
    refine List.ext_getElem (by simp [blockNan, hn, hcn, hkb]) fun k hk hk' => ?_
    have hlt : k < 16 := by simp at hk'; omega
    simp [blockNan, List.getD_eq_getElem?_getD, hn, hcn, hlt]
  rw [hlist]
  simp

/-- The exponent of an exact sum: 0 for zero, else the least of its nonzero terms. -/
theorem sumExact_exponent (l : List (Int × Int)) : ((sumExact l).1 = 0 → (sumExact l).2 = 0) ∧
    ((sumExact l).1 ≠ 0 → ∃ p ∈ l, p.1 ≠ 0 ∧ (sumExact l).2 = p.2 ∧ ∀ q ∈ l, q.1 ≠ 0 → p.2 ≤ q.2) := by
  refine ⟨fun h => if_pos h, fun h => ?_⟩
  have hexp : (sumExact l).2 = leastExp (l.filter fun p => p.1 != 0) := if_neg h
  have hmem : ∀ {p : Int × Int}, p ∈ l.filter (fun p => p.1 != 0) ↔ p ∈ l ∧ p.1 ≠ 0 := by simp
  obtain ⟨p, hp⟩ : ∃ p, p ∈ l.filter fun p => p.1 != 0 := by
    refine List.exists_mem_of_ne_nil _ fun hnil => h ?_
    rw [sumExact, hnil]
    rfl
  obtain ⟨q, hq, hq0, hle⟩ := exists_leastExp hp (hmem.mp hp).2
  exact ⟨q, (hmem.mp hq).1, hq0, hexp.trans hle, fun z hz hz0 => hle ▸ leastExp_le (hmem.mpr ⟨hz, hz0⟩) hz0⟩

/-! ### Arrivals at a row (R119, R223) -/

/-- The blocks of a row take their 16 columns of an arrival each. -/
theorem blk_arrive {m r b : Nat} (hb : b < 16) {n : Nat} {t : Tile} {l : List ((Int × Int) × Bool)} {c : Nat} (hl : 16 * n ≤ l.length) :
    (t.arrive r n l c).1.blk m b = if m = r ∧ c ≤ b ∧ b < c + n then takes (t.blk m b) ((l.drop (16 * (b - c))).take 16) else t.blk m b := by
  induction n generalizing t l c with
  | zero => exact (if_neg (by omega)).symm
  | succ n ih =>
    have hfit : (takes (t.blk r c) (l.take 16)).Fits := fits_takes (t.fits_blk r c) (by simp; omega)
    have hstep : (t.arrive r (n + 1) l c).1 = ((t.setBlk r c (takes (t.blk r c) (l.take 16))).arrive r n (l.drop 16) (c + 1)).1 := rfl
    rw [hstep, ih (by simp; omega)]
    by_cases hbc : m = r ∧ b = c
    · obtain ⟨rfl, rfl⟩ := hbc
      rw [if_neg (by omega), if_pos (by omega), Tile.blk_setBlk_same _ hb hfit, Nat.sub_self, Nat.mul_zero, List.drop_zero]
    · rw [Tile.blk_setBlk_other _ hb hbc, List.drop_drop]
      by_cases hin : m = r ∧ c ≤ b ∧ b < c + (n + 1)
      · rw [if_pos (by omega), if_pos hin, show 16 + 16 * (b - (c + 1)) = 16 * (b - c) by omega]
      · rw [if_neg (by omega), if_neg hin]

/-- What stone `q` gives to row `m`. -/
def MForm.stoneStep (f : MForm) (cols : List (List StoneCol)) (rows : List FeedRow) (m : Nat) (acc : Tile × XF) (q : Nat) : Tile × XF :=
  match rows[m * f.segs + q]?, cols[q]? with
  | some r, some c =>
    let (t', x) := acc.1.arrive m f.nb (c.map (fun k => partialSum r k f.kb)) 0
    (t', acc.2 ||| x)
  | _, _ => acc

theorem MForm.run_eq (f : MForm) (t : Tile) {cols : List (List StoneCol)} (rows : List FeedRow) (hcols : cols.length = f.segs) :
    f.run t cols rows = (List.range f.rows).foldl (fun acc m => (List.range f.segs).foldl (f.stoneStep cols rows m) acc) (t.clear f.clr, 0) := by
  rw [MForm.run]
  congr 1
  funext acc m
  have hzip : List.zip (List.range f.segs) cols = (List.range f.segs).map fun q => (q, cols.getD q []) := by
    refine List.ext_getElem (by simp [hcols]) fun k hk hk' => ?_
    have hlt : k < cols.length := by simpa [hcols] using hk'
    simp [List.getD_eq_getElem?_getD, hlt]
  rw [hzip, List.foldl_map]
  refine List.foldl_ext _ _ _ fun acc q hq => ?_
  have hlt : q < cols.length := hcols ▸ List.mem_range.mp hq
  rw [MForm.stoneStep, List.getElem?_eq_getElem hlt, List.getD_eq_getElem _ _ hlt]
  cases rows[m * f.segs + q]? <;> rfl

section
variable {f : MForm} {cols : List (List StoneCol)} {rows : List FeedRow} (hrows : rows.length = f.rows * f.segs)
  (hcols : cols.length = f.segs) (hc : ∀ c ∈ cols, 16 * f.nb ≤ c.length)
include hrows hcols hc

theorem blk_stoneStep {j q : Nat} (hj : j < f.rows) (hq : q < f.segs) (acc : Tile × XF) (m : Nat) {b : Nat} (hb : b < 16) :
    (f.stoneStep cols rows j acc q).1.blk m b =
      if m = j ∧ b < f.nb then takes (acc.1.blk m b) (arrivals f rows cols m q b) else acc.1.blk m b := by
  have hq' : q < cols.length := hcols ▸ hq
  have hr : j * f.segs + q < rows.length := by
    rw [hrows]
    calc j * f.segs + q < (j + 1) * f.segs := by rw [Nat.succ_mul]; omega
      _ ≤ f.rows * f.segs := Nat.mul_le_mul_right _ hj
  have hlen : 16 * f.nb ≤ (cols[q].map fun k => partialSum rows[j * f.segs + q] k f.kb).length := by
    rw [List.length_map]
    exact hc _ (List.getElem_mem hq')
  rw [MForm.stoneStep, List.getElem?_eq_getElem hr, List.getElem?_eq_getElem hq']
  refine (blk_arrive hb hlen).trans ?_
  by_cases hin : m = j ∧ b < f.nb
  · obtain ⟨rfl, hlt⟩ := hin
    rw [if_pos (by omega), if_pos ⟨rfl, hlt⟩, arrivals, List.getElem?_eq_getElem hr, List.getElem?_eq_getElem hq', Nat.sub_zero, ← List.map_drop,
      ← List.map_take]
  · rw [if_neg (by omega), if_neg hin]

/-- The stones of a row, one after another. -/
theorem blk_stones {j : Nat} (hj : j < f.rows) (acc : Tile × XF) (m : Nat) {b n : Nat} (hb : b < 16) (hn : n ≤ f.segs) :
    ((List.range n).foldl (f.stoneStep cols rows j) acc).1.blk m b = if m = j ∧ b < f.nb
      then (List.range n).foldl (fun k q => takes k (arrivals f rows cols m q b)) (acc.1.blk m b) else acc.1.blk m b := by
  induction n with
  | zero => simp
  | succ n ih =>
    rw [List.range_succ, List.foldl_append, List.foldl_append, List.foldl_cons, List.foldl_nil,
      blk_stoneStep hrows hcols hc hj (by omega) _ _ hb, ih (by omega)]
    split <;> rfl

/-- The rows, one after another: each is touched once. -/
theorem blk_rows (acc : Tile × XF) (m : Nat) {b n : Nat} (hb : b < 16) (hn : n ≤ f.rows) :
    ((List.range n).foldl (fun acc j => (List.range f.segs).foldl (f.stoneStep cols rows j) acc) acc).1.blk m b = if m < n ∧ b < f.nb
      then (List.range f.segs).foldl (fun k q => takes k (arrivals f rows cols m q b)) (acc.1.blk m b) else acc.1.blk m b := by
  induction n with
  | zero => simp
  | succ n ih =>
    rw [List.range_succ, List.foldl_append, List.foldl_cons, List.foldl_nil, blk_stones hrows hcols hc (by omega) _ _ hb (le_refl _), ih (by omega)]
    by_cases hm : m = n
    · subst hm
      by_cases hbn : b < f.nb <;> simp [hbn]
    · have hlt : m < n + 1 ↔ m < n := by omega
      simp [hm, hlt]

end

end Sys2Proof.Machine

namespace Sys2Proof.Claims

open Sys2Proof.Machine

/-- Settles O34: the model's sums are the nearest ones, and its search takes the first exponent at which they fit. -/
theorem accumulatorAddsAnArrival : Obligations.AccumulatorAddsAnArrival := by
  refine fun k a nan hk ha => ⟨fun h => ?_, fun x hn hx hm hz => ?_, fun x x0 hn hx hne hstart => ?_⟩
  · rw [accAdd]
    cases hx : k.x with
    | none => rfl
    | some x => exact if_pos (h.resolve_right (by rw [hx]; nofun))
  · rw [accAdd, hx, hn]
    exact (if_neg Bool.false_ne_true).trans (if_pos (by simp only [Bool.and_eq_true, List.all_eq_true, beq_iff_eq]; exact ⟨hm, hz⟩))
  · obtain rfl : accStart k x a = x0 := by
      rw [accStart]
      obtain ⟨⟨v, hv, hv0⟩, rfl⟩ | ⟨hm, p, hp, hp0, rfl, hle⟩ := hstart
      · exact if_neg fun h => hv0 (by simpa using List.all_eq_true.mp h v hv)
      · rw [if_pos (by simpa using hm), leastExp_eq_of_le hp hp0 hle]
    simp only [sumsAt_iff hk ha]
    rw [hn, accAdd_eq hx hne]
    refine ⟨fun y t h0 hy ht hfit hnot => ?_, fun hnot => ?_⟩
    · subst ht
      rw [accFrom_first hk ha h0 (by omega) hfit fun z hz hlt => hnot z _ hz hlt rfl]
    · rw [accFrom_none hk ha fun z hz hlt => hnot z _ hz (by omega) rfl]
      rfl

/-- Settles O35: the exact sum of the block products, at the least exponent of a nonzero one. -/
theorem partialSumsAreExact : Obligations.PartialSumsAreExact := by
  intro r c kb hkb ha he hn hc hce hcn
  have hblocks : OfBlocks (0, r, c) := ⟨ha, he, hn, hc, hce, hcn⟩
  have hdot : ∀ k, dotInt (r.a.getD k []) (c.c.getD k []) = (List.zipWith (fun x y => x * y) (r.a.getD k []) (c.c.getD k [])).sum := fun k => by
    rw [dotInt, List.sum_eq_foldl]
  have hsum := termValue_sumExact ((blockTerms r c).take kb)
  obtain ⟨hzero, hleast⟩ := sumExact_exponent ((blockTerms r c).take kb)
  rw [take_blockTerms hkb hblocks] at hsum hzero hleast
  simp only [hdot] at hsum hzero hleast
  simp only [partialSum, take_blockTerms hkb hblocks, hdot]
  refine ⟨?_, hzero, fun h => ?_, any_blockNan hkb hblocks⟩
  · rw [List.map_map] at hsum
    exact hsum
  · obtain ⟨p, hp, hp0, hexp, hle⟩ := hleast h
    obtain ⟨k, hk, rfl⟩ := List.mem_map.mp hp
    exact ⟨k, List.mem_range.mp hk, hp0, hexp, fun j hj hj0 => hle _ (List.mem_map_of_mem (List.mem_range.mpr hj)) hj0⟩

/-- Settles O36: each row is one loop over the stones, and each stone one arrival at each of its blocks. -/
theorem matrixFormsAddInStoneOrder : Obligations.MatrixFormsAddInStoneOrder := by
  intro f t cols rows _ _ hrows hcols hc m b hb
  rw [MForm.run_eq f t rows hcols, blk_rows hrows hcols hc _ m hb (le_refl _)]
  rfl

end Sys2Proof.Claims
end

section
/-! SUPPORT. Words of the V and QC slots: elements replaced, draws and their order, and the operation that waits in the queue (R102, R107, R189,
R190, R205). -/

namespace Sys2Proof.Machine

open Sys2Proof.Claims

/-! ### Elements replaced (R102) -/

theorem el_eq_lane {w : Nat} (n : Nat) (v : BitVec w) (i : Nat) : el n v i = lane n v i := rfl

/-- Elements replaced one after another, each with a value of its place. -/
theorem el_setLanes {w n : Nat} (v : BitVec w) (l : List Nat) (f : Nat → BitVec n) {j : Nat} (hj : n * (j + 1) ≤ w) :
    el n (setLanes n v (l.map fun i => (i, f i))) j = if j ∈ l then f j else el n v j := by
  induction l generalizing v with
  | nil => rfl
  | cons i l ih =>
    have hstep : setLanes n v ((i :: l).map fun i => (i, f i)) = setLanes n (setField v (n * i) n (f i)) (l.map fun i => (i, f i)) := rfl
    rw [hstep, ih]
    by_cases hl : j ∈ l
    · rw [if_pos hl, if_pos (List.mem_cons_of_mem _ hl)]
    · rw [if_neg hl]
      by_cases hij : j = i
      · subst hij
        rw [if_pos List.mem_cons_self]
        exact extractLsb'_setField_same (by rw [Nat.mul_succ] at hj; exact hj) v _
      · rw [if_neg (by simp [hij, hl])]
        refine el_setField_other ?_ hj v _
        rcases Nat.lt_or_gt_of_ne hij with h | h
        · exact .inl (Nat.mul_le_mul_left n h)
        · exact .inr (by rw [← Nat.mul_succ]; exact Nat.mul_le_mul_left n h)

/-! ### Draws (R107) -/

theorem length_philox (c : BitVec 128) (k : BitVec 64) : (philox c k).length = 4 := rfl

theorem getD_drawsOf (c : BitVec 128) (k : BitVec 64) {n j : Nat} (hj : j < n) :
    (drawsOf c k n).getD j 0 = (philox (c + BitVec.ofNat 128 (j / 4)) k).getD (j % 4) 0 := by
  have hblock := getElem?_flatMap_const (f := fun i => philox (c + BitVec.ofNat 128 i) k) (w := 4) (l := List.range ((n + 3) / 4))
    (fun _ _ => rfl) (k := j / 4) (a := j / 4) (List.getElem?_range (by omega)) (i := j % 4) (by omega)
  rw [Nat.div_add_mod] at hblock
  rw [drawsOf, List.getD_eq_getElem?_getD, List.getElem?_take_of_lt hj, hblock, List.getD_eq_getElem?_getD]

/-- Draw `j` of those that a rounding form takes, as `roundDraws` gives them: zero where the mode takes none. -/
theorem getD_roundDraws (s : State) (rm k : Nat) {n j : Nat} (hj : j < n) :
    (s.roundDraws rm k n).1.getD j 0 = if rm = 4 then drawAt s k j else 0 := by
  rw [State.roundDraws]
  split
  · exact getD_drawsOf _ _ hj
  · rfl

theorem withDraws_append {α : Type} (l r : List α) (ds : List W32) : withDraws (l ++ r) ds = withDraws l ds ++ withDraws r (ds.drop l.length) := by
  induction l generalizing ds with
  | nil => rfl
  | cons a l ih =>
    cases ds with
    | nil => exact congrArg ((a, 0) :: ·) ((ih []).trans (by simp))
    | cons d ds => exact congrArg ((a, d) :: ·) (ih ds)

/-- Each element takes the draw of its place among those that take one. -/
theorem withDraws_filter_range (p : Nat → Bool) (n : Nat) (ds : List W32) :
    withDraws ((List.range n).filter p) ds = ((List.range n).filter p).map fun j => (j, ds.getD ((List.range j).filter p).length 0) := by
  induction n with
  | zero => rfl
  | succ n ih =>
    rw [List.range_succ, List.filter_append, withDraws_append, ih, List.map_append]
    congr 1
    cases hp : p n
    · simp [hp, withDraws]
    · have hd : ds.getD ((List.range n).filter p).length 0 = (ds.drop ((List.range n).filter p).length).headD 0 := by
        rw [List.headD_eq_head?_getD, List.head?_drop, List.getD_eq_getElem?_getD]
      simp only [List.filter_cons, hp, List.filter_nil, if_true, List.map_cons, List.map_nil, hd]
      cases ds.drop ((List.range n).filter p).length <;> rfl

theorem withDraws_range (n : Nat) (ds : List W32) : withDraws (List.range n) ds = (List.range n).map fun j => (j, ds.getD j 0) := by
  have h := withDraws_filter_range (fun _ => true) n ds
  simpa using h

/-! ### Active elements (R189) -/

theorem mem_active {s : State} {m : BitVec 3} {e : BitVec 1} {j : Nat} : j ∈ s.active m e ↔ laneOn s m e j := by
  simp [State.active, laneOn]

/-- The two 16-bit elements of each lane that passes. -/
theorem flatMap_halves (p : Nat → Bool) (n : Nat) :
    ((List.range n).filter p).flatMap (fun i => [2 * i, 2 * i + 1]) = (List.range (n * 2)).filter fun j => p (j / 2) := by
  induction n with
  | zero => rfl
  | succ n ih =>
    rw [List.range_succ, List.filter_append, List.flatMap_append, ih, Nat.succ_mul, List.range_succ, List.range_succ, List.filter_append, List.filter_append,
      List.append_assoc]
    congr 1
    have h1 : (n * 2) / 2 = n := by omega
    have h2 : (n * 2 + 1) / 2 = n := by omega
    cases hp : p n <;> simp [h1, h2, hp, Nat.mul_comm]

/-! ### The V and QC queues (R190, R205) -/

theorem vop_after (s : State) (tile : Option Nat) (vW : List (Nat × VReg)) (mW : List (Nat × BitVec 1024)) (gW : List (Nat × W64)) (fl : XF)
    (rs : List RegId) : ∃ t : State, s.vop tile vW mW gW fl rs = .next t ∧
      After s t (vQueued s s.nc.regs { vOpOf s vW mW gW fl with tile := tile } rs) (newOp s) :=
  ⟨_, rfl, ((operation_after s).modC fun c => { c with vq := c.vq ++ [{ vOpOf s vW mW gW fl with tile := tile }] }).modC
    fun c => { c with busy := c.busy ++ rs }⟩

/-- The registers of the context changed, and then a V operation. -/
theorem vIssues_of_vop {s : State} {i : Instr} {f : Regs → Regs} {tile : Option Nat} {vW : List (Nat × VReg)} {mW : List (Nat × BitVec 1024)}
    {gW : List (Nat × W64)} {fl : XF} {rs : List RegId} (h : exec i s = (s.modR f).vop tile vW mW gW fl rs) :
    vIssues i s (f s.nc.regs) { vOpOf s vW mW gW fl with tile := tile } rs := by
  obtain ⟨t, ht, ha⟩ := vop_after (s.modR f) tile vW mW gW fl rs
  have hnc : (s.modR f).nc = { s.nc with regs := f s.nc.regs } := Mach.ctx_modCtx_same ..
  rw [vQueued, hnc] at ha
  exact ⟨t, h.trans ht, ha.of_modC fun _ => rfl⟩

theorem vIssues_of_vop_plain {s : State} {i : Instr} {tile : Option Nat} {vW : List (Nat × VReg)} {mW : List (Nat × BitVec 1024)}
    {gW : List (Nat × W64)} {fl : XF} {rs : List RegId} (h : exec i s = s.vop tile vW mW gW fl rs) :
    vIssues i s s.nc.regs { vOpOf s vW mW gW fl with tile := tile } rs := by
  obtain ⟨t, ht, ha⟩ := vop_after s tile vW mW gW fl rs
  exact ⟨t, h.trans ht, ha⟩

/-- A V operation after the draws of its form (R107). -/
theorem vIssues_of_draws {s : State} {i : Instr} {rm k n : Nat} {tile : Option Nat} {vW : List (Nat × VReg)} {mW : List (Nat × BitVec 1024)}
    {gW : List (Nat × W64)} {fl : XF} {rs : List RegId} (h : exec i s = (s.roundDraws rm k n).2.vop tile vW mW gW fl rs) :
    vIssues i s (if rm = 4 then drawn s k n else s.nc.regs) { vOpOf s vW mW gW fl with tile := tile } rs := by
  rw [State.roundDraws] at h
  split at h
  · next hrm =>
    rw [if_pos hrm]
    exact vIssues_of_vop h
  · next hrm =>
    rw [if_neg hrm]
    exact vIssues_of_vop_plain h

end Sys2Proof.Machine
end

section
/-! SUPPORT. Integer lanes, compares and mask logic of the V slot (R124, R194 to R197): the statement `Obligations.VectorIntegersComparesAndMasks`. -/

namespace Sys2Proof.Claims

open Sys2Proof.Machine

/-! ### Integer lanes (R194) -/

/-- Elements of 32 bits replaced in the active lanes. -/
theorem el_active (s : State) (m : BitVec 3) (e : BitVec 1) (v : VReg) (f : Nat → W32) {j : Nat} (hj : j < 1024) :
    (laneOn s m e j → el 32 (setLanes 32 v ((s.active m e).map fun i => (i, f i))) j = f j) ∧
    (¬ laneOn s m e j → el 32 (setLanes 32 v ((s.active m e).map fun i => (i, f i))) j = el 32 v j) := by
  rw [el_setLanes v _ f (by omega)]
  exact ⟨fun h => if_pos (mem_active.mpr h), fun h => if_neg (mt mem_active.mp h)⟩

theorem toNat_shiftCount (y : W32) : (y.extractLsb' 0 5).toNat = y.toNat % 32 := by
  rw [extractLsb'_eq_ofNat, pow_zero, Nat.div_one, BitVec.toNat_ofNat]

theorem mulh_eq (x y : W32) : (x.signExtend 64 * y.signExtend 64).extractLsb' 32 32 = BitVec.ofInt 32 (x.toInt * y.toInt / 2 ^ 32) := by
  rw [BitVec.signExtend, BitVec.signExtend, ← BitVec.ofInt_mul, extractLsb'_eq_ofNat]
  generalize x.toInt * y.toInt = p
  apply BitVec.eq_of_toNat_eq
  rw [BitVec.toNat_ofNat, BitVec.toNat_ofInt, BitVec.toNat_ofInt]
  omega

theorem smin_eq (x y : W32) : (if x.slt y then x else y) = BitVec.ofInt 32 (min x.toInt y.toInt) := by
  by_cases h : x.toInt < y.toInt
  · rw [if_pos (BitVec.slt_iff_toInt_lt.mpr h), min_eq_left h.le, BitVec.ofInt_toInt]
  · rw [if_neg (mt BitVec.slt_iff_toInt_lt.mp h), min_eq_right (not_lt.mp h), BitVec.ofInt_toInt]

theorem smax_eq (x y : W32) : (if x.slt y then y else x) = BitVec.ofInt 32 (max x.toInt y.toInt) := by
  by_cases h : x.toInt < y.toInt
  · rw [if_pos (BitVec.slt_iff_toInt_lt.mpr h), max_eq_right h.le, BitVec.ofInt_toInt]
  · rw [if_neg (mt BitVec.slt_iff_toInt_lt.mp h), max_eq_left (not_lt.mp h), BitVec.ofInt_toInt]

theorem umin_eq (x y : W32) : (if x.ult y then x else y) = BitVec.ofNat 32 (min x.toNat y.toNat) := by
  by_cases h : x.toNat < y.toNat
  · rw [if_pos (BitVec.ult_iff_toNat_lt.mpr h), min_eq_left h.le, BitVec.ofNat_toNat, BitVec.setWidth_eq]
  · rw [if_neg (mt BitVec.ult_iff_toNat_lt.mp h), min_eq_right (not_lt.mp h), BitVec.ofNat_toNat, BitVec.setWidth_eq]

theorem umax_eq (x y : W32) : (if x.ult y then y else x) = BitVec.ofNat 32 (max x.toNat y.toNat) := by
  by_cases h : x.toNat < y.toNat
  · rw [if_pos (BitVec.ult_iff_toNat_lt.mpr h), max_eq_right h.le, BitVec.ofNat_toNat, BitVec.setWidth_eq]
  · rw [if_neg (mt BitVec.ult_iff_toNat_lt.mp h), max_eq_left (not_lt.mp h), BitVec.ofNat_toNat, BitVec.setWidth_eq]

theorem shl_eq (x y : W32) : x <<< (y.extractLsb' 0 5).toNat = BitVec.ofNat 32 (x.toNat * 2 ^ (y.toNat % 32)) := by
  apply BitVec.eq_of_toNat_eq
  rw [toNat_shiftCount, BitVec.toNat_shiftLeft, Nat.shiftLeft_eq, BitVec.toNat_ofNat]

theorem shr_eq (x y : W32) : x >>> (y.extractLsb' 0 5).toNat = BitVec.ofNat 32 (x.toNat / 2 ^ (y.toNat % 32)) := by
  apply BitVec.eq_of_toNat_eq
  rw [toNat_shiftCount, BitVec.toNat_ushiftRight, Nat.shiftRight_eq_div_pow, BitVec.toNat_ofNat,
    Nat.mod_eq_of_lt ((Nat.div_le_self ..).trans_lt x.isLt)]

theorem asr_eq (x y : W32) : x.sshiftRight (y.extractLsb' 0 5).toNat = BitVec.ofInt 32 (x.toInt / 2 ^ (y.toNat % 32)) := by
  rw [toNat_shiftCount, ← BitVec.ofInt_toInt (x := x.sshiftRight _), BitVec.toInt_sshiftRight, Int.shiftRight_eq_div_pow]
  norm_cast

theorem vnot_eq (x : W32) : ~~~x = BitVec.ofNat 32 (2 ^ 32 - 1 - x.toNat) := by
  apply BitVec.eq_of_toNat_eq
  rw [BitVec.toNat_not, BitVec.toNat_ofNat, Nat.mod_eq_of_lt (by omega)]

theorem vint_congr {f g : W32 → W32 → W32} (h : ∀ x y, f x y = g x y) (s : State) (d a b : BitVec 5) (m : BitVec 3) (e : BitVec 1) :
    s.vint f d a b m e = s.vint g d a b m e := congrArg (fun f => s.vint f d a b m e) (funext fun x => funext (h x))

/-- Each form computes lane by lane what integer arithmetic gives. -/
theorem exec_laneForm {i : Instr} {d a b : BitVec 5} {m : BitVec 3} {e : BitVec 1} {f : W32 → W32 → W32} (hi : laneForm i = some (d, a, b, m, e, f))
    (s : State) : exec i s = s.vint f d a b m e := by
  cases i with
  | vaddS32 => cases hi; exact vint_congr (fun x y => by rw [BitVec.ofInt_add, BitVec.ofInt_toInt, BitVec.ofInt_toInt]) ..
  | vsubS32 => cases hi; exact vint_congr (fun x y => BitVec.eq_of_toInt_eq (by rw [BitVec.toInt_sub, BitVec.toInt_ofInt])) ..
  | vmulS32 => cases hi; exact vint_congr (fun x y => by rw [BitVec.ofInt_mul, BitVec.ofInt_toInt, BitVec.ofInt_toInt]) ..
  | vmulhS32 => cases hi; exact vint_congr mulh_eq ..
  | vminS32 => cases hi; exact vint_congr smin_eq ..
  | vmaxS32 => cases hi; exact vint_congr smax_eq ..
  | vminZ32 => cases hi; exact vint_congr umin_eq ..
  | vmaxZ32 => cases hi; exact vint_congr umax_eq ..
  | vshlZ32 => cases hi; exact vint_congr shl_eq ..
  | vshrZ32 => cases hi; exact vint_congr shr_eq ..
  | vasrS32 => cases hi; exact vint_congr asr_eq ..
  | vnotZ32 => cases hi; exact vint_congr (fun x _ => vnot_eq x) ..
  | vandZ32 | vorZ32 | vxorZ32 | vmov => cases hi; rfl
  | _ => cases hi

theorem vectorIntegerLanes : VectorIntegerLanes := by
  intro s i d a b m e f hi
  exact ⟨_, vIssues_of_vop_plain (exec_laneForm hi s), fun j hj => el_active s m e (s.rv d) _ hj⟩

/-! ### Compares and mask logic (R124, R195, R196) -/

theorem ltNum_true_iff {a b : Machine.Num} : ltNum a b = true ↔ a ≠ .nan ∧ b ≠ .nan ∧ valueOf a < valueOf b := by
  by_cases ha : a = .nan
  · simp [ha, ltNum]
  by_cases hb : b = .nan
  · cases a <;> simp [hb, ltNum]
  · simp [ltNum_iff ha hb, ha, hb]

theorem eqNum_true_iff {a b : Machine.Num} : eqNum a b = true ↔ a ≠ .nan ∧ b ≠ .nan ∧ valueOf a = valueOf b := by
  by_cases ha : a = .nan
  · simp [ha, eqNum]
  by_cases hb : b = .nan
  · cases a <;> simp [hb, eqNum]
  · simp [eqNum_iff ha hb, ha, hb]

theorem leF_iff (x y : W32) : leF x y = true ↔
    fmtF32.decode x.toNat ≠ .nan ∧ fmtF32.decode y.toNat ≠ .nan ∧ valueOf (fmtF32.decode x.toNat) ≤ valueOf (fmtF32.decode y.toNat) := by
  rw [leF, ltF, eqF, Bool.or_eq_true, ltNum_true_iff, eqNum_true_iff, ← and_or_left, ← and_or_left, ← le_iff_lt_or_eq]
  rfl

theorem exec_compareForm {i : Instr} {c : BitVec 3} {a b : BitVec 5} {m : BitVec 3} {e : BitVec 1} {r : W32 → W32 → Prop}
    (hi : compareForm i = some (c, a, b, m, e, r)) (s : State) :
    ∃ rel : W32 → W32 → Bool, exec i s = s.vcmp rel c a b m e ∧ ∀ x y, rel x y = true ↔ r x y := by
  cases i with
  | vcmpLtF32 => cases hi; exact ⟨_, rfl, fun _ _ => ltNum_true_iff⟩
  | vcmpLeF32 => cases hi; exact ⟨_, rfl, leF_iff⟩
  | vcmpEqF32 => cases hi; exact ⟨_, rfl, fun _ _ => eqNum_true_iff⟩
  | vcmpLtS32 => cases hi; exact ⟨_, rfl, fun _ _ => BitVec.slt_iff_toInt_lt⟩
  | vcmpEqS32 => cases hi; exact ⟨_, rfl, fun _ _ => beq_iff_eq⟩
  | vcmpLtZ32 => cases hi; exact ⟨_, rfl, fun _ _ => BitVec.ult_iff_toNat_lt⟩
  | _ => cases hi

/-- A bit of a mask as its element of one bit. -/
theorem getLsbD_eq_el (v : BitVec 1024) (j : Nat) : v.getLsbD j = (el 1 v j).getLsbD 0 := by
  rw [el, BitVec.getLsbD_extractLsb', decide_eq_true one_pos, Bool.true_and, Nat.one_mul, Nat.add_zero]

theorem vectorComparesAndMaskLogic : VectorComparesAndMaskLogic := by
  refine fun s => ⟨fun i c a b m e r hi => ?_, fun c a b => ⟨s.rm a &&& s.rm b, s.rm a ||| s.rm b, s.rm a ^^^ s.rm b, ~~~s.rm a,
    vIssues_of_vop_plain rfl, vIssues_of_vop_plain rfl, vIssues_of_vop_plain rfl, vIssues_of_vop_plain rfl, fun j hj => ⟨?_, ?_, ?_, ?_⟩⟩⟩
  · obtain ⟨rel, hexec, hrel⟩ := exec_compareForm hi s
    refine ⟨_, vIssues_of_vop_plain hexec, fun j hj => ?_⟩
    rw [getLsbD_eq_el, getLsbD_eq_el (s.rm c), el_setLanes (s.rm c) _ _ (by omega)]
    refine ⟨fun h => ?_, fun h => by rw [if_neg (mt mem_active.mp h)]⟩
    rw [if_pos (mem_active.mpr h), ← hrel]
    show (BitVec.ofBool (rel _ _)).getLsbD 0 = true ↔ _
    rw [BitVec.getLsbD_ofBool, decide_eq_true rfl, Bool.true_and]
    rfl
  · exact BitVec.getLsbD_and
  · exact BitVec.getLsbD_or
  · exact BitVec.getLsbD_xor
  · rw [BitVec.getLsbD_not, decide_eq_true hj, Bool.true_and]

/-- Settles O26: each form by its operation on a lane, masks bit by bit. -/
theorem vectorIntegersComparesAndMasks : Obligations.VectorIntegersComparesAndMasks := ⟨vectorIntegerLanes, vectorComparesAndMaskLogic⟩

end Sys2Proof.Claims
end

section
/-! SUPPORT. Floating-point lanes of the V slot (R107, R124, R193): the statement `Obligations.VectorFloatElements`. -/

namespace Sys2Proof.Machine

open Sys2Proof.Claims

theorem countBelow_eq_of_lt {n : Nat} {p : Nat → Prop} {q : Nat → Bool} (h : ∀ j < n, (q j = true ↔ p j)) :
    ((List.range n).filter q).length = countBelow n p :=
  congrArg List.length (List.filter_congr fun j hj => Bool.eq_iff_iff.mpr
    ((h j (List.mem_range.mp hj)).trans (@decide_eq_true_iff (p j) (Classical.propDecidable _)).symm))

open Classical in
theorem countBelow_succ (n : Nat) (p : Nat → Prop) : countBelow (n + 1) p = countBelow n p + if p n then 1 else 0 := by
  rw [countBelow, countBelow, List.range_succ, List.filter_append, List.length_append]
  by_cases h : p n <;> simp [h]

theorem countBelow_mono (p : Nat → Prop) : Monotone fun n => countBelow n p :=
  monotone_nat_of_le_succ fun n => by simp only [countBelow_succ, le_add_iff_nonneg_right, Nat.zero_le]

/-- Fewer elements pass below one that passes than pass in all. -/
theorem countBelow_lt {p : Nat → Prop} {j n : Nat} (hj : j < n) (hp : p j) : countBelow j p < countBelow n p := by
  have hsucc := countBelow_succ j p
  rw [if_pos hp] at hsucc
  exact (Nat.lt_of_lt_of_eq (Nat.lt_succ_self _) hsucc.symm).trans_le (countBelow_mono p hj)

/-- The draws of a form, each to the element of its place (R107). -/
theorem withDraws_roundDraws (s : State) (rm k : Nat) {n : Nat} {on : Nat → Prop} {q : Nat → Bool} (h : ∀ j < n, (q j = true ↔ on j)) :
    withDraws ((List.range n).filter q) (s.roundDraws rm k ((List.range n).filter q).length).1 =
      ((List.range n).filter q).map fun j => (j, if rm = 4 then drawAt s k (countBelow j on) else 0) := by
  rw [withDraws_filter_range]
  refine List.map_congr_left fun j hj => ?_
  obtain ⟨hjn, hq⟩ := List.mem_filter.mp hj
  have hjn := List.mem_range.mp hjn
  rw [countBelow_eq_of_lt fun i hi => h i (hi.trans hjn), countBelow_eq_of_lt h, getD_roundDraws s rm k (countBelow_lt hjn ((h j hjn).mp hq))]

theorem flagsOf_foldl {α : Type} {on : Nat → Prop} {l : List Nat} (hl : ∀ j, j ∈ l ↔ on j) (f : Nat → α) (x : α → XF) :
    flagsOf ((l.map f).foldl (fun z p => z ||| x p) 0) on fun j => x (f j) := by
  intro k
  rw [getLsbD_foldl_or, show (0 : XF).getLsbD k = false from BitVec.getLsbD_zero, Bool.false_or, List.any_map, List.any_eq_true]
  simp only [Function.comp_apply, hl]

/-- The elements of a floating-point form, in ascending order (R102, R189). -/
theorem elemsOf_active {n : Nat} (hn : n = 32 ∨ n = 16) (s : State) (m : BitVec 3) (e : BitVec 1) : ∃ q : Nat → Bool,
    elemsOf n (s.active m e) = (List.range (s.vl * (32 / n))).filter q ∧ ∀ j < s.vl * (32 / n), (q j = true ↔ laneOn s m e (j / (32 / n))) := by
  have hq : ∀ i < s.vl, ((e == 0 || (s.rm m).getLsbD i) = true ↔ laneOn s m e i) := fun i hi => by simp [laneOn, hi]
  obtain rfl | rfl := hn
  · refine ⟨fun i => e == 0 || (s.rm m).getLsbD i, ?_, fun j hj => ?_⟩
    · rw [show s.vl * (32 / 32) = s.vl from Nat.mul_one _]
      rfl
    · rw [show j / (32 / 32) = j from Nat.div_one _]
      exact hq j (by omega)
  · exact ⟨_, flatMap_halves _ _, fun j hj => hq (j / 2) (by omega)⟩

/-- The floating-point forms of a format (R124, R193). -/
theorem vfloat_issues {s : State} {i : Instr} {f : Fmt} {n : Nat} {op : FOp} {d a b : BitVec 5} {m : BitVec 3} {e : BitVec 1} (hn : n = 32 ∨ n = 16)
    (hi : exec i s = s.vfloat f n op d a b m e) :
    let on := fun (j : Nat) => laneOn s m e (j / (32 / n))
    let res := fun (j : Nat) => elemResult s f n op a b d (roundDraw s (countBelow j on)) j
    ∃ (v : VReg) (fl : XF), vIssues i s (afterDraws s (countBelow (s.vl * (32 / n)) on)) (vOpOf s [(d.toNat, v)] [] [] fl) [.v d.toNat] ∧
      (∀ j < 32768 / n, (on j → el n v j = BitVec.ofNat n (res j).1) ∧ (¬ on j → el n v j = el n (s.rv d) j)) ∧
      flagsOf fl on (fun j => (res j).2) := by
  intro on res
  obtain ⟨q, hes, hq⟩ := elemsOf_active hn s m e
  have hmem : ∀ j, j ∈ (List.range (s.vl * (32 / n))).filter q ↔ on j := fun j => by
    rw [List.mem_filter, List.mem_range]
    refine ⟨fun h => (hq j h.1).mp h.2, fun h => ?_⟩
    have hlt : j < s.vl * (32 / n) := (Nat.div_lt_iff_lt_mul (by obtain rfl | rfl := hn <;> decide)).mp h.1
    exact ⟨hlt, (hq j hlt).mpr h⟩
  have hout := withDraws_roundDraws s s.vrmMode s.vrmGen hq
  rw [← hes] at hout
  simp only [State.vfloat, hout, List.map_map] at hi
  rw [hes] at hi
  have hissue := vIssues_of_draws hi
  rw [countBelow_eq_of_lt hq] at hissue
  refine ⟨_, _, hissue, fun j hj => ?_, flagsOf_foldl hmem _ _⟩
  have hel := el_setLanes (s.rv d) ((List.range (s.vl * (32 / n))).filter q) (fun j => BitVec.ofNat n (res j).1) (j := j)
    ((Nat.mul_le_mul_left n hj).trans (Nat.mul_div_le ..))
  exact ⟨fun h => hel.trans (if_pos ((hmem j).mpr h)), fun h => hel.trans (if_neg (mt (hmem j).mp h))⟩

/-! ### The sign bit (R124) -/

theorem xor_top (x : W32) : BitVec.ofNat 32 (x.toNat ^^^ 2 ^ 31) = BitVec.ofNat 32 (x.toNat + 2 ^ 31) := by
  have hxor : ∀ {y : Nat}, y < 2 ^ 31 → y ^^^ 2 ^ 31 = 2 ^ 31 + y := fun {y} hy => by
    rw [← Nat.mul_one (2 ^ 31), Nat.two_pow_add_eq_or_of_lt hy, Nat.mul_one]
    refine Nat.eq_of_testBit_eq fun i => ?_
    rw [Nat.testBit_xor, Nat.testBit_or, Nat.testBit_two_pow]
    by_cases h : 31 = i
    · subst h
      rw [Nat.testBit_lt_two_pow hy]
      rfl
    · simp [h]
  have hlt := x.isLt
  by_cases h : x.toNat < 2 ^ 31
  · rw [hxor h, Nat.add_comm]
  · obtain ⟨y, hy, hx⟩ : ∃ y < 2 ^ 31, x.toNat = 2 ^ 31 + y := ⟨x.toNat - 2 ^ 31, by omega, by omega⟩
    rw [hx, ← hxor hy, Nat.xor_assoc, Nat.xor_self, Nat.xor_zero, hxor hy]
    apply BitVec.eq_of_toNat_eq
    rw [BitVec.toNat_ofNat, BitVec.toNat_ofNat]
    omega

end Sys2Proof.Machine

namespace Sys2Proof.Claims

open Sys2Proof.Machine

theorem exec_floatForm {i : Instr} {f : Fmt} {n : Nat} {op : FOp} {d a b : BitVec 5} {m : BitVec 3} {e : BitVec 1}
    (hi : floatForm i = some (f, n, op, d, a, b, m, e)) (s : State) : (n = 32 ∨ n = 16) ∧ exec i s = s.vfloat f n op d a b m e := by
  cases i with
  | vaddF32 | vsubF32 | vmulF32 | vfmaF32 | vminF32 | vmaxF32 | vdivF32 | vsqrtF32 => cases hi; exact ⟨.inl rfl, rfl⟩
  | vaddBf16 | vsubBf16 | vmulBf16 | vfmaBf16 | vminBf16 | vmaxBf16 => cases hi; exact ⟨.inr rfl, rfl⟩
  | vaddF16 | vsubF16 | vmulF16 | vfmaF16 | vminF16 | vmaxF16 => cases hi; exact ⟨.inr rfl, rfl⟩
  | _ => cases hi

/-- Settles O27: each active element takes the draw of its place; `vabs` and `vneg` by the sign bit. -/
theorem vectorFloatElements : Obligations.VectorFloatElements := by
  refine fun s => ⟨fun i f n op d a b m e hi => vfloat_issues (exec_floatForm hi s).1 (exec_floatForm hi s).2, fun d a m e =>
    ⟨_, _, vIssues_of_vop_plain rfl, vIssues_of_vop_plain rfl, fun j hj => ?_⟩⟩
  have habs := el_active s m e (s.rv d) (fun i => BitVec.ofNat 32 (fop fmtF32 .abs .rne (lane 32 (s.rv a) i : W32).toNat 0 0).1) hj
  have hneg := el_active s m e (s.rv d) (fun i => BitVec.ofNat 32 (fop fmtF32 .neg .rne (lane 32 (s.rv a) i : W32).toNat 0 0).1) hj
  refine ⟨fun hon hnan => ?_, fun hon hnan => ?_, fun hoff => ⟨habs.2 hoff, hneg.2 hoff⟩⟩
  · rw [el_eq_lane] at hnan
    exact ⟨(habs.1 hon).trans (by rw [fop, hnan]; rfl), (hneg.1 hon).trans (by rw [fop, hnan]; rfl)⟩
  · rw [el_eq_lane] at hnan
    refine ⟨(habs.1 hon).trans ?_, (hneg.1 hon).trans ?_⟩
    · simp only [fop, beq_iff_eq, if_neg hnan]
      rfl
    · simp only [fop, beq_iff_eq, if_neg hnan]
      exact xor_top _

end Sys2Proof.Claims
end

section
/-! SUPPORT. Element moves, tile reorders, draws, the vector length and `vacc` (R107, R160, R192, R197, R198, R200, R201): the statement
`Obligations.VectorMovesDrawsLengthAndAccumulate`. -/

namespace Sys2Proof.Claims

open Sys2Proof.Machine

/-! ### Moves and reorders (R197, R198) -/

/-- The lanes below `vl` replaced. -/
theorem el_below_vl (s : State) (v : VReg) (f : Nat → W32) {j : Nat} (hj : j < 1024) :
    el 32 (setLanes 32 v ((List.range s.vl).map fun i => (i, f i))) j = if j < s.vl then f j else el 32 v j := by
  rw [el_setLanes v _ f (by omega)]
  exact if_congr List.mem_range rfl rfl

theorem toNat_low10 {w : Nat} (v : BitVec w) : (v.extractLsb' 0 10).toNat = v.toNat % 1024 := by
  rw [extractLsb'_eq_ofNat, pow_zero, Nat.div_one, BitVec.toNat_ofNat]

theorem low32_eq (v : W64) : v.extractLsb' 0 32 = BitVec.ofNat 32 v.toNat := by
  rw [extractLsb'_eq_ofNat, pow_zero, Nat.div_one]

theorem el_reorder (v : VReg) (f : Nat → Nat) {j : Nat} (hj : j < 1024) : el 32 (reorder v f) j = el 32 v (f j) :=
  el_packLanes_map _ hj (by omega)

theorem transposed_tilePos {r c : Nat} (hr : r < 32) (hc : c < 32) : transposed (tilePos r c) = tilePos c r := by
  rw [transposed, tileRC_tilePos r hr c hc]

theorem rowMajor_tilePos {r c : Nat} (hr : r < 32) (hc : c < 32) : rowMajor (tilePos r c) = 32 * r + c := by
  rw [rowMajor, tileRC_tilePos r hr c hc]

theorem vectorMovesAndReorders : VectorMovesAndReorders := by
  intro s d a b m e g h
  refine ⟨⟨_, vIssues_of_vop_plain rfl, fun j hj => ?_⟩, ⟨_, vIssues_of_vop_plain rfl, fun j hj => ?_⟩, ⟨_, vIssues_of_vop_plain rfl, fun j hj => ?_⟩,
    ⟨_, vIssues_of_vop_plain rfl, fun j hj => ?_⟩, ?_,
    ⟨_, _, _, vIssues_of_vop_plain rfl, vIssues_of_vop_plain rfl, vIssues_of_vop_plain rfl, fun r c hr hc => ⟨?_, ?_, ?_⟩⟩⟩
  · rw [el_below_vl s _ _ hj]
    refine if_congr Iff.rfl ?_ rfl
    cases (s.rm m).getLsbD j <;> rfl
  · simp only [toNat_low10]
    exact el_active s m e (s.rv d) _ hj
  · rw [el_below_vl s _ _ hj, low32_eq]
  · refine (el_setLanes (s.rv d) [((s.rg h).extractLsb' 0 10).toNat] (fun _ => (s.rg g).extractLsb' 0 32) (by omega)).trans ?_
    rw [low32_eq, toNat_low10]
    exact if_congr List.mem_singleton rfl rfl
  · rw [← toNat_low10, BitVec.ofNat_toNat]
    exact vIssues_of_vop_plain rfl
  · rw [el_reorder _ _ (tilePos_lt r c), transposed_tilePos hr hc]
  · rw [el_reorder _ _ (tilePos_lt r c), rowMajor_tilePos hr hc]
  · rw [el_reorder _ _ (by omega), show (32 * r + c) / 32 = r by omega, show (32 * r + c) % 32 = c by omega]

/-! ### Draws, the vector length and `vacc` (R192, R200, R201) -/

/-- A form over the lanes below `vl` gives draw `j` to lane `j`. -/
theorem withDraws_below (s : State) (rm k n : Nat) :
    withDraws (List.range n) (s.roundDraws rm k n).1 = (List.range n).map fun j => (j, if rm = 4 then drawAt s k j else 0) := by
  rw [withDraws_range]
  exact List.map_congr_left fun j hj => by rw [getD_roundDraws s rm k (List.mem_range.mp hj)]

theorem zip_range_drawsOf (s : State) (k n : Nat) :
    List.zip (List.range n) (s.draws k n).1 = (List.range n).map fun j => (j, drawAt s k j) := by
  have hlen : (s.draws k n).1.length = n := by
    have hflat : ((List.range ((n + 3) / 4)).flatMap fun i => philox (rget k s.nc.regs.genC + BitVec.ofNat 128 i) (rget k s.nc.regs.genK)).length =
        4 * ((n + 3) / 4) := by
      simp [List.length_flatMap, length_philox]
      omega
    rw [State.draws, drawsOf, List.length_take, hflat]
    omega
  refine List.ext_getElem (by simp [hlen]) fun j hj hj' => ?_
  have hjn : j < n := by simpa using hj'
  rw [List.getElem_zip, List.getElem_map, List.getElem_range, ← List.getD_eq_getElem _ 0]
  exact congrArg (Prod.mk j) (getD_drawsOf _ _ hjn)

theorem vectorDrawsLengthAndAccumulate : VectorDrawsLengthAndAccumulate := by
  refine fun s => ⟨fun d n => ?_, fun a => ?_, fun d t r hacc => ?_, fun d t r hheld => State.guard_not_held (i := .vaccF32 d t r) rfl hheld _⟩
  · have hexec : exec (.vrandZ32 d n) s = (s.draws n.toNat s.vl).2.vput d
        (setLanes 32 (s.rv d) (List.zip (List.range s.vl) (s.draws n.toNat s.vl).1)) 0 := rfl
    rw [zip_range_drawsOf] at hexec
    exact ⟨_, vIssues_of_vop hexec, fun j hj => el_below_vl s _ _ hj⟩
  · have hvl : (if (s.rg a).toNat ≤ 1024 then (s.rg a).extractLsb' 0 11 else 1024) = BitVec.ofNat 11 (min (s.rg a).toNat 1024) := by
      split
      · next h => rw [min_eq_left h, extractLsb'_eq_ofNat, pow_zero, Nat.div_one]
      · next h => rw [min_eq_right (by omega)]; rfl
    rw [← hvl]
    rfl
  · have hexec : exec (.vaccF32 d t r) s = execVaccF32 d t r s := rfl
    rw [execVaccF32, State.guard_acts hacc] at hexec
    simp only [withDraws_below, List.map_map] at hexec
    exact ⟨_, _, vIssues_of_draws hexec, fun j hj => el_below_vl s _ _ hj, flagsOf_foldl (fun j => List.mem_range) _ _⟩

/-- Settles O29: moves by the element that each place takes, reorders by the positions of a tile, draws by their numbers. -/
theorem vectorMovesDrawsLengthAndAccumulate : Obligations.VectorMovesDrawsLengthAndAccumulate :=
  ⟨vectorMovesAndReorders, vectorDrawsLengthAndAccumulate⟩

end Sys2Proof.Claims
end

section
/-! SUPPORT. Reductions over the fixed tree (R125, R199): the levels of the model's tree are the levels of `nodeOf`; the statement
`Obligations.VectorReductionsFollowTheTree`. -/

namespace Sys2Proof.Machine

open Sys2Proof.Claims

/-! ### Counting -/

theorem countBelow_congr {n : Nat} {p q : Nat → Prop} (h : ∀ j < n, (p j ↔ q j)) : countBelow n p = countBelow n q := by
  classical
  rw [← countBelow_eq_of_lt (q := fun j => decide (q j)) fun j hj => decide_eq_true_iff.trans (h j hj).symm]
  exact countBelow_eq_of_lt fun j _ => decide_eq_true_iff

theorem countBelow_extend {n k : Nat} {p : Nat → Prop} (hnk : n ≤ k) (h : ∀ j, n ≤ j → ¬ p j) : countBelow k p = countBelow n p := by
  induction k, hnk using Nat.le_induction with
  | base => rfl
  | succ k hk ih => rw [countBelow_succ, if_neg (h k hk), ih, Nat.add_zero]

open Classical in
/-- The first number counted apart from the others. -/
theorem countBelow_succ' (n : Nat) (p : Nat → Prop) : countBelow (n + 1) p = (if p 0 then 1 else 0) + countBelow n fun j => p (j + 1) := by
  induction n with
  | zero => rw [countBelow_succ, Nat.add_comm]; rfl
  | succ n ih => rw [countBelow_succ, ih, countBelow_succ, Nat.add_assoc]

/-- Pairs with a member, and pairs with both, count the members. -/
theorem countBelow_pairs (n : Nat) (p : Nat → Prop) :
    countBelow n (fun j => p (2 * j) ∨ p (2 * j + 1)) + countBelow n (fun j => p (2 * j) ∧ p (2 * j + 1)) = countBelow (2 * n) p := by
  induction n with
  | zero => rfl
  | succ n ih =>
    rw [Nat.mul_succ, countBelow_succ, countBelow_succ, countBelow_succ (2 * n + 1), countBelow_succ (2 * n)]
    by_cases h0 : p (2 * n) <;> by_cases h1 : p (2 * n + 1) <;> simp [h0, h1] <;> omega

/-! ### One level of the tree (R125) -/

section
variable (op : Round → W32 → W32 → W32 × XF) (rm : Nat)

/-- COMBINE of two nodes that may be absent, under a draw, and its flags. -/
def combineNodes (w : W32) : Option W32 → Option W32 → Option W32 × XF
  | some p, some q => (some (op (roundOf rm w) p q).1, (op (roundOf rm w) p q).2)
  | some p, none => (some p, 0)
  | none, q => (q, 0)

/-- Both nodes of the pair `j` are there. -/
def bothThere (g : Nat → Option W32) (j : Nat) : Prop := (g (2 * j)).isSome = true ∧ (g (2 * j + 1)).isSome = true

/-- A pair takes its draw where both of its nodes are there. -/
theorem pairUp_cons_cons (p q : Option W32) (l : List (Option W32)) (ds : List W32) :
    pairUp op rm (p :: q :: l) ds =
      (let r := pairUp op rm l (if p.isSome = true ∧ q.isSome = true then ds.drop 1 else ds)
       ((combineNodes op rm (ds.headD 0) p q).1 :: r.1, r.2.1, (combineNodes op rm (ds.headD 0) p q).2 ||| r.2.2)) := by
  cases p with
  | none => cases q <;> simp [pairUp, combineNodes]
  | some p => cases q <;> simp [pairUp, combineNodes]

theorem combineNodes_none (w : W32) (p : Option W32) : combineNodes op rm w p none = (p, 0) := by cases p <;> rfl

/-- The pair `j` of a level under its draw: the draws go to the pairs with both nodes, in order. -/
noncomputable def pairOf (g : Nat → Option W32) (ds : List W32) (j : Nat) : Option W32 × XF :=
  combineNodes op rm (ds.getD (countBelow j (bothThere g)) 0) (g (2 * j)) (g (2 * j + 1))

theorem countBelow_bothThere_succ (g : Nat → Option W32) (j : Nat) : countBelow (j + 1) (bothThere g) =
    (if (g 0).isSome = true ∧ (g 1).isSome = true then 1 else 0) + countBelow j (bothThere fun i => g (i + 2)) := by
  rw [countBelow_succ']
  refine congrArg (· + countBelow j (bothThere fun i => g (i + 2))) ?_
  by_cases h : (g 0).isSome = true ∧ (g 1).isSome = true
  · exact (if_pos h).trans (if_pos h).symm
  · exact (if_neg h).trans (if_neg h).symm

/-- The pairs after the first, with the draws that it leaves. -/
theorem pairOf_succ (g : Nat → Option W32) (ds : List W32) (j : Nat) :
    pairOf op rm g ds (j + 1) =
      pairOf op rm (fun i => g (i + 2)) (if (g 0).isSome = true ∧ (g 1).isSome = true then ds.drop 1 else ds) j := by
  rw [pairOf, pairOf, countBelow_bothThere_succ]
  congr 1
  split
  · rw [List.getD_eq_getElem?_getD, List.getD_eq_getElem?_getD, List.getElem?_drop]
  · rw [Nat.zero_add]

/-- One level of the tree: the pairs, the draws that they leave, and the flags that they raise. -/
theorem pairUp_map_range (g : Nat → Option W32) (n : Nat) (ds : List W32) (hg : ∀ i, n ≤ i → g i = none) :
    (pairUp op rm ((List.range n).map g) ds).1 = (List.range ((n + 1) / 2)).map (fun j => (pairOf op rm g ds j).1) ∧
    (pairUp op rm ((List.range n).map g) ds).2.1 = ds.drop (countBelow ((n + 1) / 2) (bothThere g)) ∧
    ∀ k, (pairUp op rm ((List.range n).map g) ds).2.2.getLsbD k = true ↔ ∃ j < (n + 1) / 2, (pairOf op rm g ds j).2.getLsbD k = true := by
  induction n using Nat.twoStepInduction generalizing g ds with
  | zero => exact ⟨rfl, rfl, fun k => by simp [pairUp]⟩
  | one =>
    have hboth : ¬ bothThere g 0 := fun h => by simp [bothThere, hg 1 le_rfl] at h
    have hcount : countBelow 1 (bothThere g) = 0 := by rw [countBelow_succ, if_neg hboth]; rfl
    have hpair : pairOf op rm g ds 0 = (g 0, 0) := by rw [pairOf, hg 1 le_rfl, combineNodes_none]
    have hup : pairUp op rm ((List.range 1).map g) ds = ([g 0], ds, 0) := by
      show pairUp op rm [g 0] ds = _
      cases g 0 <;> rfl
    rw [hup]
    refine ⟨?_, by rw [hcount]; rfl, fun k => ?_⟩
    · exact congrArg (fun x => [x.1]) hpair.symm
    · simp [hpair]
  | more n ih _ =>
    have hlist : (List.range (n + 2)).map g = g 0 :: g 1 :: (List.range n).map (fun i => g (i + 2)) := by
      simp [List.range_succ_eq_map, Function.comp_def]
    have hhalf : (n + 2 + 1) / 2 = (n + 1) / 2 + 1 := by omega
    have hhead : combineNodes op rm (ds.headD 0) (g 0) (g 1) = pairOf op rm g ds 0 := by
      rw [pairOf]
      cases ds <;> rfl
    obtain ⟨hout, hleft, hflags⟩ := ih (fun i => g (i + 2)) (if (g 0).isSome = true ∧ (g 1).isSome = true then ds.drop 1 else ds)
      fun i hi => hg (i + 2) (by omega)
    simp only [← pairOf_succ] at hout hflags
    rw [hlist, pairUp_cons_cons, hhalf, hhead]
    refine ⟨?_, ?_, fun k => ?_⟩
    · rw [List.range_succ_eq_map, List.map_cons, List.map_map]
      exact congrArg (_ :: ·) hout
    · rw [countBelow_bothThere_succ]
      refine hleft.trans ?_
      split
      · rw [List.drop_drop]
      · rw [Nat.zero_add]
    · rw [BitVec.getLsbD_or, Bool.or_eq_true, hflags]
      constructor
      · rintro (h | ⟨j, hj, h⟩)
        · exact ⟨0, Nat.succ_pos _, h⟩
        · exact ⟨j + 1, Nat.succ_lt_succ hj, h⟩
      · rintro ⟨_ | j, hj, h⟩
        · exact .inl h
        · exact .inr ⟨j, Nat.lt_of_succ_lt_succ hj, h⟩

end

/-! ### The levels of the tree -/

section
variable {on : Nat → Prop}

theorem present_zero (k : Nat) : present on 0 k ↔ on k := by
  simp only [present, pow_zero, Nat.one_mul]
  constructor
  · rintro ⟨i, hk, hi, hon⟩
    rwa [show k = i by omega]
  · exact fun h => ⟨k, le_rfl, Nat.lt_succ_self k, h⟩

/-- A node is there where one of its two is. -/
theorem present_succ (l k : Nat) : present on (l + 1) k ↔ present on l (2 * k) ∨ present on l (2 * k + 1) := by
  have h0 : 2 ^ (l + 1) * k = 2 ^ l * (2 * k) := by ring
  have h1 : 2 ^ (l + 1) * (k + 1) = 2 ^ l * (2 * k + 1 + 1) := by ring
  have hle : 2 ^ l * (2 * k) ≤ 2 ^ l * (2 * k + 1) := Nat.mul_le_mul_left _ (Nat.le_succ _)
  have hle' : 2 ^ l * (2 * k + 1) ≤ 2 ^ l * (2 * k + 1 + 1) := Nat.mul_le_mul_left _ (Nat.le_succ _)
  simp only [present, h0, h1]
  constructor
  · rintro ⟨i, hlo, hhi, hon⟩
    by_cases hmid : i < 2 ^ l * (2 * k + 1)
    · exact .inl ⟨i, hlo, hmid, hon⟩
    · exact .inr ⟨i, by omega, hhi, hon⟩
  · rintro (⟨i, hlo, hhi, hon⟩ | ⟨i, hlo, hhi, hon⟩)
    · exact ⟨i, hlo, by omega, hon⟩
    · exact ⟨i, by omega, hhi, hon⟩

theorem combines_succ (l k : Nat) : combines on (l + 1) k ↔ present on l (2 * k) ∧ present on l (2 * k + 1) :=
  ⟨fun h => h.2, fun h => ⟨Nat.succ_pos l, h⟩⟩

/-- The COMBINEs below a level and the nodes that it holds make up the lanes. -/
theorem combinesBefore_add_present (l : Nat) (hl : l ≤ 10) :
    combinesBefore on l (2 ^ (10 - l)) + countBelow (2 ^ (10 - l)) (present on l) = countBelow 1024 on := by
  induction l with
  | zero =>
    rw [combinesBefore, Nat.zero_add]
    exact countBelow_congr fun j _ => present_zero j
  | succ l ih =>
    have hpow : 2 ^ (10 - l) = 2 * 2 ^ (10 - (l + 1)) := by rw [← pow_succ', show 10 - (l + 1) + 1 = 10 - l by omega]
    have hpairs : countBelow (2 ^ (10 - (l + 1))) (present on (l + 1)) + countBelow (2 ^ (10 - (l + 1))) (combines on (l + 1)) =
        countBelow (2 ^ (10 - l)) (present on l) := by
      rw [countBelow_congr fun j _ => present_succ l j, countBelow_congr fun j _ => combines_succ l j, hpow, countBelow_pairs]
    have := ih (by omega)
    rw [combinesBefore]
    omega

/-- The draws of a reduction: one fewer than its active lanes. -/
theorem combinesBefore_lt {l k : Nat} (hl : l < 10) (hk : k < 2 ^ (9 - l)) (h : combines on (l + 1) k) :
    combinesBefore on (l + 1) k < countBelow 1024 on - 1 := by
  have htotal := combinesBefore_add_present (on := on) (l + 1) (by omega)
  rw [combinesBefore, show 10 - (l + 1) = 9 - l by omega] at htotal
  have hcomb := countBelow_lt hk h
  have hpresent := countBelow_lt hk ((present_succ l k).mpr (.inl ((combines_succ l k).mp h).1))
  rw [combinesBefore]
  omega

variable {op : Round → W32 → W32 → W32 × XF} {rm : Nat} {x : Nat → W32} {w : Nat → W32}

open Classical in
/-- Node `k` of level `l` as the model's tree holds it. -/
noncomputable def nodeOpt (on : Nat → Prop) (x : Nat → W32) (f : W32 → W32 → W32 → W32 × XF) (w : Nat → W32) (l k : Nat) : Option W32 :=
  if present on l k then some (nodeOf on x f w l k).1 else none

theorem nodeOpt_isSome (f : W32 → W32 → W32 → W32 × XF) (l k : Nat) : (nodeOpt on x f w l k).isSome = true ↔ present on l k := by
  by_cases h : present on l k <;> simp [nodeOpt, h]

theorem bothThere_nodeOpt (f : W32 → W32 → W32 → W32 × XF) (l k : Nat) : bothThere (nodeOpt on x f w l) k ↔ combines on (l + 1) k := by
  rw [bothThere, nodeOpt_isSome, nodeOpt_isSome, combines_succ]

/-- A pair of a level is the node of the next one, with the flags of its COMBINE. -/
theorem combineNodes_nodeOpt (l k : Nat) (d : W32) (hd : combines on (l + 1) k → d = w (combinesBefore on (l + 1) k)) :
    let f := fun u p q => op (roundOf rm u) p q
    (combineNodes op rm d (nodeOpt on x f w l (2 * k)) (nodeOpt on x f w l (2 * k + 1))).1 = nodeOpt on x f w (l + 1) k ∧
    ∀ z, (combineNodes op rm d (nodeOpt on x f w l (2 * k)) (nodeOpt on x f w l (2 * k + 1))).2.getLsbD z = true ↔
      combines on (l + 1) k ∧ (nodeOf on x f w (l + 1) k).2.getLsbD z = true := by
  intro f
  by_cases h0 : present on l (2 * k) <;> by_cases h1 : present on l (2 * k + 1)
  · have hc := (combines_succ l k).mpr ⟨h0, h1⟩
    simp [nodeOpt, present_succ, nodeOf, combineNodes, h0, h1, hc, hd hc, f]
  · simp [nodeOpt, present_succ, combines_succ, nodeOf, combineNodes, h0, h1]
  · simp [nodeOpt, present_succ, combines_succ, nodeOf, combineNodes, h0, h1]
  · simp [nodeOpt, present_succ, combines_succ, combineNodes, h0, h1]

/-- The tree from level `l` on: its root, and the flags of the COMBINEs above. -/
theorem treeOf_nodes {ds : List W32}
    (hds : ∀ l k, l < 10 → k < 2 ^ (9 - l) → combines on (l + 1) k → ds.getD (combinesBefore on (l + 1) k) 0 = w (combinesBefore on (l + 1) k))
    (n l m : Nat) (hn : l + n = 10) (hm : m ≤ 2 ^ n) (hout : ∀ i, m ≤ i → ¬ present on l i) :
    let f := fun u p q => op (roundOf rm u) p q
    let t := treeOf op rm n ((List.range m).map (nodeOpt on x f w l)) (ds.drop (combinesBefore on l (2 ^ n)))
    t.1 = nodeOpt on x f w 10 0 ∧
    ∀ z, t.2.getLsbD z = true ↔
      ∃ l' j, l ≤ l' ∧ l' < 10 ∧ j < 2 ^ (9 - l') ∧ combines on (l' + 1) j ∧ (nodeOf on x f w (l' + 1) j).2.getLsbD z = true := by
  intro f
  induction n generalizing l m with
  | zero =>
    obtain rfl : l = 10 := by omega
    refine ⟨?_, fun z => ⟨fun h => absurd h (by simp [treeOf]), fun ⟨l', _, hl, hl', _⟩ => by omega⟩⟩
    obtain rfl | rfl : m = 0 ∨ m = 1 := by simpa [Nat.le_one_iff_eq_zero_or_eq_one] using hm
    · exact (if_neg (hout 0 le_rfl)).symm
    · rfl
  | succ n ih =>
    have hnone : ∀ i, m ≤ i → nodeOpt on x f w l i = none := fun i hi => if_neg (hout i hi)
    have hlevel : 9 - l = n := by omega
    have hpow : 2 ^ (n + 1) = 2 * 2 ^ n := pow_succ' 2 n
    have hbefore : ∀ k, combinesBefore on (l + 1) k = combinesBefore on l (2 ^ (n + 1)) + countBelow k (combines on (l + 1)) := fun k => by
      rw [combinesBefore, show 10 - l = n + 1 by omega]
    have hboth : ∀ k, countBelow k (bothThere (nodeOpt on x f w l)) = countBelow k (combines on (l + 1)) := fun k =>
      countBelow_congr fun j _ => bothThere_nodeOpt f l j
    have habove : ∀ j, (m + 1) / 2 ≤ j → ¬ present on (l + 1) j := fun j hj => by
      rw [present_succ]
      exact not_or.mpr ⟨hout _ (by omega), hout _ (by omega)⟩
    obtain ⟨hnodes, hleft, hraised⟩ := pairUp_map_range op rm (nodeOpt on x f w l) m (ds.drop (combinesBefore on l (2 ^ (n + 1)))) hnone
    have hpair : ∀ k < (m + 1) / 2, (pairOf op rm (nodeOpt on x f w l) (ds.drop (combinesBefore on l (2 ^ (n + 1)))) k).1 = nodeOpt on x f w (l + 1) k ∧
        ∀ z, (pairOf op rm (nodeOpt on x f w l) (ds.drop (combinesBefore on l (2 ^ (n + 1)))) k).2.getLsbD z = true ↔
          combines on (l + 1) k ∧ (nodeOf on x f w (l + 1) k).2.getLsbD z = true := fun k hk => by
      refine combineNodes_nodeOpt l k _ fun hc => ?_
      rw [← hds l k (by omega) (by rw [hlevel]; omega) hc, hboth, hbefore, List.getD_eq_getElem?_getD, List.getElem?_drop, List.getD_eq_getElem?_getD]
    rw [List.map_congr_left fun k hk => (hpair k (List.mem_range.mp hk)).1] at hnodes
    rw [hboth, List.drop_drop, ← countBelow_extend (k := 2 ^ n) (by omega) fun j hj h => habove j hj ((present_succ l j).mpr (.inl ((combines_succ l j).mp h).1)),
      ← hbefore] at hleft
    obtain ⟨hroot, hflags⟩ := ih (l + 1) ((m + 1) / 2) (by omega) (by omega) habove
    rw [← hnodes, ← hleft] at hroot hflags
    refine ⟨hroot, fun z => ?_⟩
    show (_ ||| _ : XF).getLsbD z = true ↔ _
    rw [BitVec.getLsbD_or, Bool.or_eq_true, hraised, hflags]
    constructor
    · rintro (⟨j, hj, h⟩ | ⟨l', j, hl, h⟩)
      · exact ⟨l, j, le_rfl, by omega, by rw [hlevel]; omega, ((hpair j hj).2 z).mp h⟩
      · exact ⟨l', j, by omega, h⟩
    · rintro ⟨l', j, hl, hl', hj, hc, h⟩
      rcases hl.eq_or_lt with rfl | hl
      · have hjm : j < (m + 1) / 2 := by
          by_contra hjm
          exact habove j (by omega) ((present_succ l j).mpr (.inl ((combines_succ l j).mp hc).1))
        exact .inl ⟨j, hjm, ((hpair j hjm).2 z).mpr ⟨hc, h⟩⟩
      · exact .inr ⟨l', j, hl, hl', hj, hc, h⟩

end

/-! ### Values of the tree -/

/-- What every active lane of a node's and every COMBINE that has such an operand keeps, the node has. -/
theorem nodeOf_of_lane {on : Nat → Prop} {x : Nat → W32} {f : W32 → W32 → W32 → W32 × XF} {w : Nat → W32} {P : W32 → Prop}
    (hf : ∀ u p q, P p ∨ P q → P (f u p q).1) (l k : Nat) (h : ∃ i, 2 ^ l * k ≤ i ∧ i < 2 ^ l * (k + 1) ∧ on i ∧ P (x i)) :
    P (nodeOf on x f w l k).1 := by
  induction l generalizing k with
  | zero =>
    obtain ⟨i, hlo, hhi, -, hp⟩ := h
    rwa [show i = k by omega] at hp
  | succ l ih =>
    have hpresent : ∀ {k}, (∃ i, 2 ^ l * k ≤ i ∧ i < 2 ^ l * (k + 1) ∧ on i ∧ P (x i)) → present on l k :=
      fun ⟨i, hlo, hhi, hon, _⟩ => ⟨i, hlo, hhi, hon⟩
    have hhalves := (present_succ (on := fun i => on i ∧ P (x i)) l k).mp h
    simp only [nodeOf]
    rcases hhalves with h | h
    · rw [if_pos (hpresent h)]
      split
      · exact hf _ _ _ (.inl (ih _ h))
      · exact ih _ h
    · rw [if_pos (hpresent h)]
      split
      · exact hf _ _ _ (.inr (ih _ h))
      · exact ih _ h

/-- The canonical NaN for a NaN (R101). -/
theorem oneNaN_eq (v : W32) : oneNaN v = if fmtF32.decode v.toNat = .nan then 0x7FC00000 else v := by
  rw [oneNaN]
  refine if_congr ?_ rfl rfl
  have hexp : v.extractLsb' 23 8 = 0xFF ↔ v.toNat / 8388608 % 256 = 255 := by
    rw [extractLsb'_eq_ofNat, ← BitVec.toNat_inj, BitVec.toNat_ofNat]; rfl
  have hmant : v.extractLsb' 0 23 = 0 ↔ v.toNat % 8388608 = 0 := by
    rw [extractLsb'_eq_ofNat, pow_zero, Nat.div_one, ← BitVec.toNat_inj, BitVec.toNat_ofNat]; rfl
  have hdecode : fmtF32.decode v.toNat = .nan ↔ v.toNat / 8388608 % 256 = 255 ∧ v.toNat % 8388608 ≠ 0 := by
    simp only [Fmt.decode, fmtF32]
    by_cases he : v.toNat / 8388608 % 256 = 255
    · by_cases hm : v.toNat % 8388608 = 0 <;> simp [he, hm]
    · by_cases hz : v.toNat / 8388608 % 256 = 0 <;> simp [he, hz]
  rw [hdecode, ne_eq, hexp, hmant]

theorem decode_redF_of_nan {op : FOp} (hop : op ∈ [FOp.add, .sub, .mul, .fma, .min, .max, .div]) (r : Round) (p q : W32)
    (h : fmtF32.decode p.toNat = .nan ∨ fmtF32.decode q.toNat = .nan) : fmtF32.decode (redF op r p q).1.toNat = .nan := by
  rw [redF, fop_of_nan h op hop]
  decide

/-! ### A reduction of the V slot -/

theorem el_setWidth_zero (x : W32) : el 32 (x.zeroExtend 32768) 0 = x := by
  rw [el, extractLsb'_eq_ofNat, BitVec.toNat_setWidth, Nat.mod_eq_of_lt (by omega), Nat.mul_zero, pow_zero, Nat.div_one, BitVec.ofNat_toNat,
    BitVec.setWidth_eq]

theorem el_setWidth_pos (x : W32) {j : Nat} (hj : 0 < j) : el 32 (x.zeroExtend 32768) j = 0 := by
  have hlt : x.toNat < 2 ^ (32 * j) := x.isLt.trans_le (Nat.pow_le_pow_right two_pos (by omega))
  rw [el, extractLsb'_eq_ofNat, BitVec.toNat_setWidth, Nat.mod_eq_of_lt (by omega), Nat.div_eq_of_lt hlt]
  rfl

section
variable (s : State) (op : Round → W32 → W32 → W32 × XF) (a : BitVec 5) (m : BitVec 3) (e : BitVec 1)

/-- Node `k` of level `l` of a reduction. -/
noncomputable def reduceNode (l k : Nat) : W32 × XF :=
  nodeOf (laneOn s m e) (fun j => el 32 (s.rv a) j) (fun u p q => op (roundOf s.vrmMode u) p q) (roundDraw s) l k

open Classical in
/-- The root of a reduction's tree. -/
noncomputable def reduceRoot : Option W32 := if present (laneOn s m e) 10 0 then some (reduceNode s op a m e 10 0).1 else none

/-- A reduction (R199): one draw fewer than its active lanes, and the tree of `nodeOf` over these. -/
theorem vreduce_eq (fin : W32 → W32) (z : W32) (d : BitVec 5) (hvl : s.vl ≤ 1024) :
    ∃ fl, s.vreduce op fin z d a m e =
        (s.roundDraws s.vrmMode s.vrmGen (countBelow s.vl (laneOn s m e) - 1)).2.vput d ((fin ((reduceRoot s op a m e).getD z)).zeroExtend 32768) fl ∧
      ∀ k, fl.getLsbD k = true ↔
        ∃ l j, l < 10 ∧ j < 2 ^ (9 - l) ∧ combines (laneOn s m e) (l + 1) j ∧ (reduceNode s op a m e (l + 1) j).2.getLsbD k = true := by
  have hlane : ∀ j < s.vl, ((e == 0 || (s.rm m).getLsbD j) = true ↔ laneOn s m e j) := fun j hj => by simp [laneOn, hj]
  have hactive : (s.active m e).length = countBelow s.vl (laneOn s m e) := countBelow_eq_of_lt hlane
  have hout : ∀ j, s.vl ≤ j → ¬ laneOn s m e j := fun j hj h => absurd h.1 (by omega)
  have hall : countBelow 1024 (laneOn s m e) = countBelow s.vl (laneOn s m e) := countBelow_extend hvl hout
  have hleaves : (List.range s.vl).map (fun j => if e == 0 || (s.rm m).getLsbD j then some (lane 32 (s.rv a) j : W32) else none) =
      (List.range s.vl).map (nodeOpt (laneOn s m e) (fun j => el 32 (s.rv a) j) (fun u p q => op (roundOf s.vrmMode u) p q) (roundDraw s) 0) :=
    List.map_congr_left fun j hj => by
      classical
      exact if_congr ((hlane j (List.mem_range.mp hj)).trans (present_zero j).symm) rfl rfl
  have hdraws : ∀ l k, l < 10 → k < 2 ^ (9 - l) → combines (laneOn s m e) (l + 1) k →
      (s.roundDraws s.vrmMode s.vrmGen (countBelow s.vl (laneOn s m e) - 1)).1.getD (combinesBefore (laneOn s m e) (l + 1) k) 0 =
        roundDraw s (combinesBefore (laneOn s m e) (l + 1) k) :=
    fun l k hl hk hc => getD_roundDraws s _ _ (hall ▸ combinesBefore_lt hl hk hc)
  obtain ⟨hroot, hflags⟩ := treeOf_nodes (op := op) (rm := s.vrmMode) (x := fun j => el 32 (s.rv a) j) hdraws 10 0 s.vl rfl hvl fun j hj h =>
    hout j hj ((present_zero j).mp h)
  rw [combinesBefore, List.drop_zero] at hroot hflags
  refine ⟨_, ?_, fun k => (hflags k).trans ?_⟩
  · rw [State.vreduce, hactive, hleaves, show reduceRoot s op a m e = _ from hroot.symm]
  · simp only [Nat.zero_le, true_and]
    exact Iff.rfl

end

end Sys2Proof.Machine

namespace Sys2Proof.Claims

open Sys2Proof.Machine

/-- Each reduction as the model runs it: its operation on numbers of lanes, and what its result passes through. -/
theorem exec_reduceForm {s : State} {i : Instr} {d a : BitVec 5} {m : BitVec 3} {e : BitVec 1} {f : W32 → W32 → W32 → W32 × XF} {z : W32} {nan : Bool}
    (hi : reduceForm s i = some (d, a, m, e, f, z, nan)) :
    ∃ (op : Round → W32 → W32 → W32 × XF) (fin : W32 → W32), exec i s = s.vreduce op fin z d a m e ∧ f = (fun u p q => op (roundOf s.vrmMode u) p q) ∧
      fin z = z ∧ (∀ v, fin v = if nan = true ∧ fmtF32.decode v.toNat = .nan then 0x7FC00000 else v) ∧
      (nan = true → ∀ r p q, fmtF32.decode p.toNat = .nan ∨ fmtF32.decode q.toNat = .nan → fmtF32.decode (op r p q).1.toNat = .nan) := by
  have hone : ∀ v : W32, oneNaN v = if true = true ∧ fmtF32.decode v.toNat = .nan then 0x7FC00000 else v := fun v => by
    rw [oneNaN_eq]
    exact if_congr (and_iff_right rfl).symm rfl rfl
  cases i with
  | vrsumF32 | vrmaxF32 | vrminF32 =>
    cases hi
    exact ⟨_, oneNaN, rfl, rfl, by decide, hone, fun _ r p q => decode_redF_of_nan (by decide) r p q⟩
  | vrsumS32 =>
    cases hi
    refine ⟨_, id, rfl, ?_, rfl, fun v => by simp, fun h => absurd h (by decide)⟩
    funext _ p q
    rw [BitVec.ofNat_add, BitVec.ofNat_toNat, BitVec.ofNat_toNat, BitVec.setWidth_eq, BitVec.setWidth_eq]
  | _ => cases hi

/-- Settles O28: the model's levels are those of the fixed tree, and a NaN lane reaches the root. -/
theorem vectorReductionsFollowTheTree : Obligations.VectorReductionsFollowTheTree := by
  intro s i d a m e f z nan hi hvl
  obtain ⟨op, fin, hexec, rfl, hz, hfin, hnan⟩ := exec_reduceForm hi
  obtain ⟨fl, hreduce, hflags⟩ := vreduce_eq s op a m e fin z d hvl
  have hempty : ¬ present (laneOn s m e) 10 0 → (reduceRoot s op a m e).getD z = z := fun h => by rw [reduceRoot, if_neg h]; rfl
  have hroot : present (laneOn s m e) 10 0 → (reduceRoot s op a m e).getD z = (reduceNode s op a m e 10 0).1 := fun h => by
    rw [reduceRoot, if_pos h]; rfl
  refine ⟨_, fl, vIssues_of_draws (hexec.trans hreduce), fun j _ hpos => el_setWidth_pos _ hpos, fun h => ?_, fun h => ?_, fun hn ⟨j, hj, hjnan⟩ => ?_,
    hflags⟩
  · rw [el_setWidth_zero, hempty h, hz]
  · rw [el_setWidth_zero, hroot h, hfin]
    rfl
  · have hj' : j < 2 ^ 10 * (0 + 1) := hj.1.trans_le hvl
    have hnode : fmtF32.decode (reduceNode s op a m e 10 0).1.toNat = .nan :=
      nodeOf_of_lane (P := fun v => fmtF32.decode v.toNat = .nan) (fun u p q => hnan hn (roundOf s.vrmMode u) p q) 10 0 ⟨j, Nat.zero_le _, hj', hj, hjnan⟩
    rw [el_setWidth_zero, hroot ⟨j, Nat.zero_le _, hj', hj⟩, hfin]
    exact if_pos ⟨hn, hnode⟩

end Sys2Proof.Claims
end

section
/-! SUPPORT. The QC slot (R203 to R205, R209 to R211): the operation that waits in its queue, dequantising, conversions and moves of a staging
register. -/

namespace Sys2Proof.Machine

open Sys2Proof.Claims

/-! ### The QC queue (R205) -/

theorem State.qPhys_eq (s : State) (q : BitVec 3) : s.qPhys q = physical s q := BitVec.toNat_add ..

theorem State.modR_modR (s : State) (f g : Regs → Regs) : (s.modR f).modR g = s.modR fun r => g (f r) :=
  congrArg (fun m => ({ s with m := m } : State))
    (Mach.modCtx_modCtx s.m s.cx (fun c => { c with regs := f c.regs }) fun c => { c with regs := g c.regs })

theorem qop_after (s : State) (vW : List (Nat × VReg)) (fl : XF) (rs : List RegId) : ∃ t : State, s.qop vW fl rs = .next t ∧
    After s t { s.nc with regs := withToken s s.m.nextId s.nc.regs, qq := s.nc.qq ++ [qOpOf s vW fl], busy := s.nc.busy ++ rs } (newOp s) :=
  ⟨_, rfl, ((operation_after s).modC fun c => { c with qq := c.qq ++ [qOpOf s vW fl] }).modC fun c => { c with busy := c.busy ++ rs }⟩

section
variable {s : State} {i : Instr} {vW : List (Nat × VReg)} {fl : XF} {rs : List RegId}

/-- The registers of the context changed, and then a QC operation. -/
theorem qIssues_of_qop {f : Regs → Regs} (h : exec i s = (s.modR f).qop vW fl rs) : qIssues i s (f s.nc.regs) (qOpOf s vW fl) rs := by
  obtain ⟨t, ht, ha⟩ := qop_after (s.modR f) vW fl rs
  rw [State.modR_nc] at ha
  exact ⟨t, h.trans ht, ha.of_modC fun _ => rfl⟩

theorem qIssues_of_qop_plain (h : exec i s = s.qop vW fl rs) : qIssues i s s.nc.regs (qOpOf s vW fl) rs := by
  obtain ⟨t, ht, ha⟩ := qop_after s vW fl rs
  exact ⟨t, h.trans ht, ha⟩

variable {r : BitVec 3} {g : BitVec 2} {n : Nat}

theorem toNat_eq_four {r : BitVec 3} : r.toNat = 4 ↔ r = 4 := BitVec.toNat_inj (y := 4)

/-- The draws of a form with an RM and a GEN field (R107): one per element, or none. -/
theorem roundDraws_fields (s : State) (r : BitVec 3) (g : BitVec 2) (n : Nat) :
    (r = 4 ∧ (s.roundDraws r.toNat g.toNat n).2 =
      s.modR (fun q => { q with genC := rput g.toNat (rget g.toNat q.genC + BitVec.ofNat 128 ((n + 3) / 4)) q.genC })) ∨
    (r ≠ 4 ∧ (s.roundDraws r.toNat g.toNat n).2 = s) := by
  by_cases h : r = 4
  · rw [State.roundDraws, if_pos (toNat_eq_four.mpr h)]
    exact .inl ⟨h, rfl⟩
  · rw [State.roundDraws, if_neg (mt toNat_eq_four.mp h)]
    exact .inr ⟨h, rfl⟩

/-- A QC operation after the draws of its form. -/
theorem qIssues_of_draws (h : exec i s = (s.roundDraws r.toNat g.toNat n).2.qop vW fl rs) :
    qIssues i s (fieldDraws s r g n) (qOpOf s vW fl) rs := by
  obtain ⟨hr, hs⟩ | ⟨hr, hs⟩ := roundDraws_fields s r g n
  · rw [hs] at h
    rw [fieldDraws, if_pos hr]
    exact qIssues_of_qop h
  · rw [hs] at h
    rw [fieldDraws, if_neg hr]
    exact qIssues_of_qop_plain h

/-- The same with registers changed after the draws. -/
theorem qIssues_of_draws_modR {f : Regs → Regs} (h : exec i s = ((s.roundDraws r.toNat g.toNat n).2.modR f).qop vW fl rs) :
    qIssues i s (f (fieldDraws s r g n)) (qOpOf s vW fl) rs := by
  obtain ⟨hr, hs⟩ | ⟨hr, hs⟩ := roundDraws_fields s r g n
  · rw [hs, State.modR_modR] at h
    rw [fieldDraws, if_pos hr]
    exact qIssues_of_qop h
  · rw [hs] at h
    rw [fieldDraws, if_neg hr]
    exact qIssues_of_qop h

end

theorem fieldRound_eq (s : State) (r : BitVec 3) (g : BitVec 2) (j : Nat) :
    roundOf r.toNat (if r.toNat = 4 then drawAt s g.toNat j else 0) = fieldRound s r g j :=
  congrArg (roundOf r.toNat) (if_congr toNat_eq_four rfl rfl)

/-! ### Elements of a staging register (R204) -/

/-- The numbers of planes below 2^8. -/
theorem sum_planes_lt (p : Nat → Bool) : ((List.range 8).map fun j => if p j then 2 ^ j else 0).sum < 256 := by
  have hle : ((List.range 8).map fun j => if p j then 2 ^ j else 0).sum ≤ ((List.range 8).map fun j => 2 ^ j).sum :=
    List.sum_le_sum fun j _ => by split <;> simp
  exact hle.trans_lt (by decide)

theorem numOfS8_eq {v : Nat} (hv : v < 256) : numOfS8 v = if v < 128 then .fin false v 0 else .fin true (256 - v) 0 := by
  have hmod : v % 2 ^ 8 = v := Nat.mod_eq_of_lt hv
  rw [numOfS8, signed, hmod]
  by_cases h : v < 128
  · rw [if_pos (show v < 2 ^ (8 - 1) from h), if_pos h, decide_eq_false (by omega)]
    rfl
  · rw [if_neg (show ¬ v < 2 ^ (8 - 1) from h), if_neg h, decide_eq_true (by omega)]
    congr 1
    omega

/-- The number of an element is that of its code. -/
theorem qElem_eq (f : QFmt) (q : BitVec 8704) (k : Nat) : qElem f q k = codeNum f (codeAt f q k) := by
  cases f with
  | e4m3 | e5m2 | e2m1 => rfl
  | s8 => exact numOfS8_eq (el 8 q k).isLt
  | bp8 =>
    have hbit : ∀ j, (lane 2048 q (k / 256) : BitVec 2048).getLsbD (256 * (7 - j) + k % 256) = q.getLsbD (2048 * (k / 256) + 256 * (7 - j) + k % 256) :=
      fun j => by
        have hlt : 256 * (7 - j) + k % 256 < 2048 := by omega
        rw [lane, BitVec.getLsbD_extractLsb', decide_eq_true hlt, Bool.true_and, Nat.add_assoc]
    simp only [qElem, hbit, ← List.sum_eq_foldl]
    exact numOfS8_eq (sum_planes_lt fun j => q.getLsbD (2048 * (k / 256) + 256 * (7 - j) + k % 256))

/-! ### Dequantising (R103, R113, R209) -/

theorem dequantised_ofNum (r : Round) (sc : Byte) (n : Machine.Num) :
    dequantised r sc n (BitVec.ofNat 32 (fmtF32.ofNum r (dequant sc n)).1, (fmtF32.ofNum r (dequant sc n)).2) := by
  have hf : fmtF32.Sound := sound_of_mem (by decide)
  refine ⟨fun h => ?_, fun neg hsc hn => ?_, fun neg m e hsc hn => ?_⟩
  · have hnan : dequant sc n = .nan := by
      rcases h with h | h
      · exact if_pos h
      · subst h
        exact ite_self _
    rw [hnan]
    rfl
  · subst hn
    rw [show dequant sc (.inf neg) = .inf neg from if_neg hsc]
    cases neg <;> rfl
  · subst hn
    have hdq : dequant sc (.fin neg m e) = .fin neg m (e + sc.toNat - 127) := if_neg hsc
    rw [hdq]
    refine ⟨fun h0 => ?_, fun h0 => ?_⟩
    · rw [realOf_fin_eq_zero_iff.mp h0, Fmt.ofNum, Fmt.round_zero]
      cases neg <;> rfl
    · have hval : realOf (.fin neg m e) * (2 : ℝ) ^ ((sc.toNat : Int) - 127) = valueR neg m (e + sc.toNat - 127) := by
        rw [realOf, valueR, mul_assoc, ← zpow_add₀ two_ne_zero, Int.add_sub_assoc]
      have hlt : (fmtF32.round false r neg m (e + sc.toNat - 127)).1 < 2 ^ 32 := round_lt hf ..
      rw [hval, Fmt.ofNum, BitVec.toNat_ofNat, Nat.mod_eq_of_lt hlt]
      exact roundsTo_round hf false r neg _ (mt realOf_fin_eq_zero_iff.mpr h0)

theorem qdq_issues {s : State} {i : Instr} {f : QFmt} {q : BitVec 3} {v : BitVec 5} {r : BitVec 3} {n : BitVec 2} {b : BitVec 1} {c : BitVec 4} {h : BitVec 1}
    (hi : exec i s = s.qdq f q v r n b c h) :
    let w := rget (physical s q) s.regs.q
    let sc := fun (k : Nat) => if b = 1 then scaleFrom s c h k else el 8 w (1024 + k)
    ∃ (x : VReg) (fl : XF) (raised : Nat → XF), qIssues i s (fieldDraws s r n 1024) (qOpOf s [(v.toNat, x)] fl) [.v v.toNat] ∧
      (∀ k < 1024, dequantised (fieldRound s r n k) (sc (k / 16)) (codeNum f (codeAt f w k)) (el 32 x k, raised k)) ∧
      flagsOf fl (fun k => k < 1024) raised := by
  intro w sc
  simp only [State.qdq, withDraws_below, List.map_map, State.qPhys_eq] at hi
  refine ⟨_, _, fun k => (fmtF32.ofNum (fieldRound s r n k) (dequant (sc (k / 16)) (qElem f w k))).2, qIssues_of_draws hi, fun k hk => ?_, ?_⟩
  · rw [el_packLanes_map _ hk (by omega), ← qElem_eq f w k]
    simp only [Function.comp_apply, fieldRound_eq]
    exact dequantised_ofNum ..
  · simp only [← fieldRound_eq]
    exact flagsOf_foldl (fun j => List.mem_range) _ _

/-! ### Conversions (R108, R111, R211) -/

theorem convert_issues {s : State} {i : Instr} {k n : Nat} {op : Round → BitVec k → BitVec n × XF} {d v : BitVec 5} {r : BitVec 3} {g : BitVec 2}
    (hi : exec i s = s.convert k n op d v r g) :
    ∃ (x : VReg) (fl : XF), qIssues i s (fieldDraws s r g s.vl) (qOpOf s [(d.toNat, x)] fl) [.v d.toNat] ∧
      (∀ j < 32768 / n, el n x j = if j < s.vl then (op (fieldRound s r g j) (el k (s.rv v) j)).1 else el n (s.rv d) j) ∧
      flagsOf fl (fun j => j < s.vl) fun j => (op (fieldRound s r g j) (el k (s.rv v) j)).2 := by
  simp only [State.convert, withDraws_below, List.map_map] at hi
  refine ⟨_, _, qIssues_of_draws hi, fun j hj => ?_, ?_⟩
  · have hel := el_setLanes (s.rv d) (List.range s.vl) (fun j => (op (fieldRound s r g j) (el k (s.rv v) j)).1) (j := j)
      ((Nat.mul_le_mul_left n hj).trans (Nat.mul_div_le ..))
    simp only [← fieldRound_eq] at hel ⊢
    exact hel.trans (if_congr List.mem_range rfl rfl)
  · simp only [← fieldRound_eq]
    exact flagsOf_foldl (fun j => List.mem_range) _ _

/-- A float of a format with infinities, as the conversions give it. -/
theorem floatOf_cvtFloat (f : Fmt) {t : Fmt} (hf : t.Sound) (hinf : t.inf = true) (hnan : t.nan < 2 ^ t.width) {k n : Nat} (hn : t.width = n) (r : Round)
    (w : BitVec k) : floatOf t false r (f.decode w.toNat) ((cvtFloat f t r w : BitVec n × XF).1.toNat, (cvtFloat f t r w : BitVec n × XF).2) := by
  have hval : (cvtFloat f t r w : BitVec n × XF).1.toNat = (t.ofNum r (f.decode w.toNat)).1 := by
    subst hn
    exact (BitVec.toNat_ofNat ..).trans (Nat.mod_eq_of_lt (ofNum_lt hf hnan ..))
  rw [hval]
  exact floatOf_ofNum hf hinf ..

/-- A signed integer to `.f32`. -/
theorem floatOf_intToFmt (r : Round) (w : W32) :
    floatOf fmtF32 false r (if w.toNat < 2 ^ 31 then .fin false w.toNat 0 else .fin true (2 ^ 32 - w.toNat) 0)
      ((BitVec.ofNat 32 (intToFmt fmtF32 r w.toInt).1).toNat, (intToFmt fmtF32 r w.toInt).2) := by
  have hf : fmtF32.Sound := sound_of_mem (by decide)
  have hnum : (if w.toNat < 2 ^ 31 then Num.fin false w.toNat 0 else .fin true (2 ^ 32 - w.toNat) 0) = .fin (decide (w.toInt < 0)) w.toInt.natAbs 0 := by
    have hw := w.isLt
    have htoInt := BitVec.toInt_eq_toNat_cond w
    split at htoInt
    · next h =>
      rw [if_pos (by omega), decide_eq_false (by omega)]
      congr 1
      omega
    · next h =>
      rw [if_neg (by omega), decide_eq_true (by omega)]
      congr 1
      omega
  have hlt : (intToFmt fmtF32 r w.toInt).1 < 2 ^ 32 := round_lt hf ..
  rw [hnum, BitVec.toNat_ofNat, Nat.mod_eq_of_lt hlt]
  exact floatOf_round hf ..

/-- `.f32` to a signed integer. -/
theorem integerOf_s32 (r : Round) (n : Machine.Num) : integerOf r (-(2 ^ 31)) (2 ^ 31 - 1) n
    ((BitVec.ofInt 32 (numToInt r (-(2 ^ 31)) (2 ^ 31 - 1) n).1).toInt, (numToInt r (-(2 ^ 31)) (2 ^ 31 - 1) n).2) := by
  obtain ⟨hlo, hhi⟩ := numToInt_mem (lo := -(2 ^ 31)) (hi := 2 ^ 31 - 1) (by decide) (by decide) r n
  have hval : (BitVec.ofInt 32 (numToInt r (-(2 ^ 31)) (2 ^ 31 - 1) n).1).toInt = (numToInt r (-(2 ^ 31)) (2 ^ 31 - 1) n).1 := by
    rw [BitVec.toInt_ofInt]
    exact Int.bmod_eq_of_le (by omega) (by omega)
  rw [hval]
  exact integerOf_numToInt (by decide) r n

end Sys2Proof.Machine

namespace Sys2Proof.Claims

open Sys2Proof.Machine

theorem exec_dequantForm {i : Instr} {f : QFmt} {q : BitVec 3} {v : BitVec 5} {r : BitVec 3} {n : BitVec 2} {b : BitVec 1} {c : BitVec 4} {h : BitVec 1}
    (hi : dequantForm i = some (f, q, v, r, n, b, c, h)) (s : State) : exec i s = s.qdq f q v r n b c h := by
  cases i with
  | qdqE4m3 | qdqE5m2 | qdqE2m1 | qdqS8 | qdqBp8 => cases hi; rfl
  | _ => cases hi

/-- Each conversion as the model runs it. -/
theorem exec_elementForm {i : Instr} {k n : Nat} {d v : BitVec 5} {r : BitVec 3} {g : BitVec 2} {rel : Round → Nat → BitVec n × XF → Prop}
    (hi : elementForm i = some (k, ⟨n, d, v, r, g, rel⟩)) (s : State) :
    ∃ op : Round → BitVec k → BitVec n × XF, exec i s = s.convert k n op d v r g ∧ ∀ m w, rel m w.toNat (op m w) := by
  cases i with
  | cvtBf16F32 => cases hi; exact ⟨cvtFloat fmtF32 fmtBf16, rfl, floatOf_cvtFloat fmtF32 (sound_of_mem (by decide)) rfl (by decide) rfl⟩
  | cvtF16F32 => cases hi; exact ⟨cvtFloat fmtF32 fmtF16, rfl, floatOf_cvtFloat fmtF32 (sound_of_mem (by decide)) rfl (by decide) rfl⟩
  | cvtF32Bf16 => cases hi; exact ⟨cvtFloat fmtBf16 fmtF32, rfl, floatOf_cvtFloat fmtBf16 (sound_of_mem (by decide)) rfl (by decide) rfl⟩
  | cvtF32F16 => cases hi; exact ⟨cvtFloat fmtF16 fmtF32, rfl, floatOf_cvtFloat fmtF16 (sound_of_mem (by decide)) rfl (by decide) rfl⟩
  | cvtF32S32 =>
    cases hi
    exact ⟨fun m w => (BitVec.ofNat 32 (intToFmt fmtF32 m w.toInt).1, (intToFmt fmtF32 m w.toInt).2), rfl, floatOf_intToFmt⟩
  | cvtS32F32 =>
    cases hi
    exact ⟨fun m w => (BitVec.ofInt 32 (numToInt m (-(2 ^ 31)) (2 ^ 31 - 1) (numF32 w)).1, (numToInt m (-(2 ^ 31)) (2 ^ 31 - 1) (numF32 w)).2), rfl,
      fun m w => integerOf_s32 m (numF32 w)⟩
  | _ => cases hi

theorem dequantisingAndConversions : DequantisingAndConversions := by
  refine fun s => ⟨fun i f q v r n b c h hi => qdq_issues (exec_dequantForm hi s), fun i k n d v r g rel hi => ?_, fun q v => ⟨?_, ?_, ?_⟩⟩
  · obtain ⟨op, hexec, hop⟩ := exec_elementForm hi s
    obtain ⟨x, fl, hissue, hel, hfl⟩ := convert_issues hexec
    exact ⟨x, fl, _, hissue, fun j hj => ⟨_, hop _ _, rfl, fun hn => (hel j hn).trans (if_pos hj)⟩, fun j hn hj => (hel j hn).trans (if_neg (by omega)), hfl⟩
  · rw [← State.qPhys_eq]
    exact qIssues_of_qop (f := fun r => { r with q := rput (s.qPhys q) ((s.rv v).extractLsb' 0 8704) r.q }) rfl
  · rw [← State.qPhys_eq, BitVec.ofNat_toNat]
    exact qIssues_of_qop_plain rfl
  · have hbase : s.nc.regs.rb + 1 = BitVec.ofNat 3 (s.nc.regs.rb.toNat + 1) := by
      rw [BitVec.ofNat_add, BitVec.ofNat_toNat, BitVec.setWidth_eq]
      rfl
    rw [← hbase]
    exact qIssues_of_qop (f := fun r => { r with rb := r.rb + 1 }) rfl

end Sys2Proof.Claims
end

section
/-! SUPPORT. Quantising into a staging register (R104, R112, R204, R208): the statement `Obligations.QuantisedBlocksAreFormedAndRead`. -/

namespace Sys2Proof.Machine

open Sys2Proof.Claims

/-! ### A staging register from its codes and scales (R104, R204) -/

theorem getLsbD_qPack (f : QFmt) (codes scales : List Byte) {i : Nat} (hi : i < 8704) :
    (qPack f codes scales).getLsbD i =
      if i < 8192 then (qBytes f codes).getLsbD i else (packLanes 512 scales : BitVec 512).getLsbD (i - 8192) := by
  rw [qPack, BitVec.getLsbD_or, BitVec.getLsbD_shiftLeft, BitVec.getLsbD_setWidth, BitVec.getLsbD_setWidth]
  by_cases h : i < 8192
  · simp [h, hi]
  · have hlt : i - 8192 < 8704 := by omega
    simp [h, hi, hlt, BitVec.getLsbD_of_ge (qBytes f codes) i (by omega)]

theorem el_qPack_low (f : QFmt) (codes scales : List Byte) {n k : Nat} (h : n * (k + 1) ≤ 8192) : el n (qPack f codes scales) k = el n (qBytes f codes) k := by
  refine BitVec.eq_of_getLsbD_eq fun b hb => ?_
  rw [Nat.mul_succ] at h
  rw [el, el, BitVec.getLsbD_extractLsb', BitVec.getLsbD_extractLsb', getLsbD_qPack f codes scales (by omega), if_pos (by omega)]

/-- Scale byte `k` of a staging register. -/
theorem el_qPack_scale (f : QFmt) (codes scales : List Byte) {k : Nat} (hk : k < 64) : el 8 (qPack f codes scales) (1024 + k) = scales.getD k 0 := by
  rw [← el_packLanes (w := 512) scales (by omega)]
  refine BitVec.eq_of_getLsbD_eq fun b hb => ?_
  rw [el, el, BitVec.getLsbD_extractLsb', BitVec.getLsbD_extractLsb', getLsbD_qPack f codes scales (by omega), if_neg (by omega),
    show 8 * (1024 + k) + b - 8192 = 8 * k + b by omega]

/-- A byte from its bits. -/
theorem sum_bits (c : Byte) : ((List.range 8).map fun j => if c.getLsbD j then 2 ^ j else 0).sum = c.toNat := by
  revert c
  decide

/-- Bit `j` of an element of a plane group is in plane 7 - `j`. -/
theorem getLsbD_qBytes_bp8 (codes : List Byte) {k j : Nat} (hk : k < 1024) (hj : j < 8) :
    (qBytes .bp8 codes).getLsbD (2048 * (k / 256) + 256 * (7 - j) + k % 256) = (codes.getD k 0).getLsbD j := by
  have hcode : ((((codes.drop (256 * (k / 256))).take 256).map fun c => c.extractLsb' (7 - (7 - j)) 1).getD (k % 256) 0 : BitVec 1) =
      (codes.getD k 0).extractLsb' j 1 := by
    have hget := getD_take_drop codes (0 : Byte) (a := 256 * (k / 256)) (c := 256) (i := k % 256) (Nat.mod_lt _ (by decide))
    rw [Nat.div_add_mod] at hget
    rw [show 7 - (7 - j) = j by omega, ← hget]
    simp only [List.getD_eq_getElem?_getD, List.getElem?_map]
    cases (List.take 256 (List.drop (256 * (k / 256)) codes))[k % 256]? <;> simp
  have hgroup : (2048 * (k / 256) + 256 * (7 - j) + k % 256) / 2048 = k / 256 := by omega
  have hin : (2048 * (k / 256) + 256 * (7 - j) + k % 256) % 2048 = 256 * (7 - j) + k % 256 := by omega
  have hplane : (256 * (7 - j) + k % 256) / 256 = 7 - j := by omega
  have hplace : (256 * (7 - j) + k % 256) % 256 = k % 256 := by omega
  rw [qBytes, getLsbD_packLanes _ (by decide), decide_eq_true (by omega), Bool.true_and, hgroup, hin, getD_map_range _ (by omega), planeGroup,
    getLsbD_packLanes _ (by decide), decide_eq_true (by omega), Bool.true_and, hplane, hplace, getD_map_range _ (by omega),
    getLsbD_packLanes _ (by decide), decide_eq_true (by omega), Bool.true_and, Nat.div_one, hcode, Nat.mod_one, BitVec.getLsbD_extractLsb']
  simp

/-- Element `k` of a staging register holds its code, of which `.e2m1` keeps four bits. -/
theorem codeAt_qPack (f : QFmt) (codes scales : List Byte) {k : Nat} (hk : k < 1024) :
    codeAt f (qPack f codes scales) k = if f = .e2m1 then (codes.getD k 0).toNat % 16 else (codes.getD k 0).toNat := by
  cases f with
  | e4m3 | e5m2 | s8 =>
    rw [if_neg (by decide), ← el_packLanes (w := 8192) codes (by omega)]
    exact congrArg BitVec.toNat (el_qPack_low _ codes scales (by omega))
  | e2m1 =>
    have hel := el_packLanes (w := 8192) (codes.map fun c => c.extractLsb' 0 4) (i := k) (by omega)
    have hcode : (codes.map fun c => c.extractLsb' 0 4).getD k 0 = (codes.getD k 0).extractLsb' 0 4 := by
      simp only [List.getD_eq_getElem?_getD, List.getElem?_map]
      cases codes[k]? <;> rfl
    rw [if_pos rfl, codeAt, el_qPack_low _ codes scales (by omega), qBytes, hel, hcode, extractLsb'_eq_ofNat, pow_zero, Nat.div_one]
    exact BitVec.toNat_ofNat ..
  | bp8 =>
    rw [if_neg (by decide), codeAt, ← sum_bits]
    refine congrArg List.sum (List.map_congr_left fun j hj => ?_)
    have hj := List.mem_range.mp hj
    have hlow : 2048 * (k / 256) + 256 * (7 - j) + k % 256 < 8192 := by omega
    rw [getLsbD_qPack _ _ _ (by omega), if_pos hlow, getLsbD_qBytes_bp8 codes hk hj]

/-! ### One element (R106, R108, R112) -/

/-- What a target's code keeps: all of it. -/
theorem quantElem_lt (f : QFmt) (r : Round) (neg : Bool) (m : Nat) (e : Int) : (quantElem f.target r neg m e).1 < if f = .e2m1 then 16 else 256 := by
  have hint : (quantElem none r neg m e).1 < 256 := by
    simp only [quantElem]
    split
    · decide
    · split
      · decide
      · exact (wrap 8 (roundInt r neg m e).1).isLt
  cases f with
  | e4m3 => exact round_lt (f := fmtE4m3) (sound_of_mem (by decide)) true r neg m e
  | e5m2 => exact round_lt (f := fmtE5m2) (sound_of_mem (by decide)) true r neg m e
  | e2m1 => exact round_lt (f := fmtE2m1) (sound_of_mem (by decide)) true r neg m e
  | s8 | bp8 => exact hint

theorem isCode_quantElem (f : QFmt) (r : Round) (neg : Bool) (m : Nat) (e : Int) (sc : Byte) :
    isCode f r neg m e sc (quantElem f.target r neg m (e + 127 - sc.toNat)) := by
  have hint : ∃ i : Int, integerPicked r (valueR neg m (e + 127 - sc.toNat)) i ∧
      (i < -128 → quantElem none r neg m (e + 127 - sc.toNat) = (0x80, 0b00101)) ∧
      (127 < i → quantElem none r neg m (e + 127 - sc.toNat) = (0x7F, 0b00101)) ∧
      (-128 ≤ i → i ≤ 127 → (quantElem none r neg m (e + 127 - sc.toNat)).1 = (i % 256).toNat ∧
        (((quantElem none r neg m (e + 127 - sc.toNat)).2 = 0 ∧ (i : ℝ) = valueR neg m (e + 127 - sc.toNat)) ∨
          ((quantElem none r neg m (e + 127 - sc.toNat)).2 = 0b00001 ∧ (i : ℝ) ≠ valueR neg m (e + 127 - sc.toNat)))) := by
    obtain ⟨hpick, hinexact⟩ := integerPicked_roundInt r neg m (e + 127 - sc.toNat)
    simp only [quantElem]
    refine ⟨_, hpick, fun hlt => if_pos hlt, fun hgt => by rw [if_neg (by omega), if_pos hgt]; rfl, fun hlo hhi => ?_⟩
    rw [if_neg (by omega), if_neg (by omega)]
    refine ⟨BitVec.toNat_ofInt .., ?_⟩
    cases hi : (roundInt r neg m (e + 127 - sc.toNat)).2
    · exact .inl ⟨rfl, not_not.mp fun hne => by rw [hinexact.mpr hne] at hi; cases hi⟩
    · exact .inr ⟨rfl, hinexact.mp hi⟩
  cases f with
  | e4m3 => exact floatOf_round (f := fmtE4m3) (sound_of_mem (by decide)) true r neg m _
  | e5m2 => exact floatOf_round (f := fmtE5m2) (sound_of_mem (by decide)) true r neg m _
  | e2m1 => exact floatOf_round (f := fmtE2m1) (sound_of_mem (by decide)) true r neg m _
  | s8 | bp8 => exact hint

/-! ### One block (R112, R208) -/

/-- A number is zero. -/
def zeroNum : Machine.Num → Bool
  | .fin _ m _ => m == 0
  | _ => false

theorem zeroNum_iff (n : Machine.Num) : zeroNum n = true ↔ n.isFin = true ∧ realOf n = 0 := by
  cases n with
  | fin neg m e => rw [realOf_fin_eq_zero_iff, zeroNum, beq_iff_eq]; exact (and_iff_right rfl).symm
  | inf neg => simp [zeroNum, Num.isFin]
  | nan => simp [zeroNum, Num.isFin]

/-- A block of zeros. -/
def zeroBlock (x : Nat → Machine.Num) : Bool := (List.range 16).all fun j => zeroNum (x j)

theorem zeroBlock_iff (x : Nat → Machine.Num) : zeroBlock x = true ↔ ∀ j < 16, (x j).isFin = true ∧ realOf (x j) = 0 := by
  simp only [zeroBlock, List.all_eq_true, List.mem_range, zeroNum_iff]

section
variable (t : Option Fmt) (rm : Nat) (given : Byte) (x : Nat → Machine.Num) (w : Nat → W32)

/-- The scale that a block of 16 numbers takes. -/
def blockByte : Byte := if ((List.range 16).any fun j => !(x j).isFin) || given == 0xFF then 0xFF else if zeroBlock x then 0 else given

/-- Element `j` of the block, and its flags. -/
def blockElem (j : Nat) : Nat × XF := quantOne t (zeroBlock x) (blockByte given x) (roundOf rm (w j)) (x j)

theorem quantBlock_eq : quantBlock t rm given ((List.range 16).map fun j => (x j, w j)) =
    (blockByte given x, (List.range 16).map (fun j => BitVec.ofNat 8 (blockElem t rm given x w j).1),
      ((List.range 16).map (blockElem t rm given x w)).foldl (fun a p => a ||| p.2) 0) := by
  have hzero : ((List.range 16).map fun j => (x j, w j)).all (fun p => zeroNum p.1) = zeroBlock x := List.all_map
  have hbad : ((List.range 16).map fun j => (x j, w j)).any (fun p => !p.1.isFin) = (List.range 16).any fun j => !(x j).isFin := List.any_map
  simp only [quantBlock, List.map_map, blockElem, blockByte, ← hbad, ← hzero]
  rfl

theorem blockGets_blockByte : blockGets given x (blockByte given x) := by
  have hbad : (((List.range 16).any fun j => !(x j).isFin) || given == 0xFF) = true ↔ given = 0xFF ∨ ∃ j < 16, (x j).isFin = false := by
    simp [or_comm]
  rw [blockByte]
  split
  · next h => exact .inl ⟨hbad.mp h, rfl⟩
  · next h =>
    obtain ⟨hgiven, hall⟩ := not_or.mp (mt hbad.mpr h)
    have hfin : ∀ j < 16, (x j).isFin = true := fun j hj => Bool.eq_true_of_not_eq_false fun e => hall ⟨j, hj, e⟩
    split
    · next hz => exact .inr (.inl ⟨hgiven, hfin, fun j hj => ((zeroBlock_iff x).mp hz j hj).2, rfl⟩)
    · next hz =>
      refine .inr (.inr ⟨hgiven, hfin, ?_, rfl⟩)
      by_contra hno
      exact hz ((zeroBlock_iff x).mpr fun j hj => ⟨hfin j hj, not_not.mp fun h0 => hno ⟨j, hj, h0⟩⟩)

/-- In a block under the scale 0xFF and in a block of zeros an element is zero and raises no flag. -/
theorem blockElem_of_zero (j : Nat) (h : blockByte given x = 0xFF ∨ ∀ i < 16, realOf (x i) = 0) : blockElem t rm given x w j = (0, 0) := by
  rw [blockElem]
  cases hx : x j with
  | inf neg => rfl
  | nan => rfl
  | fin neg m e =>
    refine if_pos ?_
    by_cases hbyte : blockByte given x = 0xFF
    · exact .inl hbyte
    · refine .inr ((zeroBlock_iff x).mpr fun i hi => ⟨?_, h.resolve_left hbyte i hi⟩)
      rcases blockGets_blockByte given x with ⟨-, h⟩ | ⟨-, hfin, -⟩ | ⟨-, hfin, -⟩
      · exact absurd h hbyte
      · exact hfin i hi
      · exact hfin i hi

/-- Elsewhere it is the conversion of its scaled value. -/
theorem blockElem_of_nonzero {j : Nat} {neg : Bool} {m : Nat} {e : Int} (hbyte : blockByte given x ≠ 0xFF) (hx : x j = .fin neg m e)
    (h : ∃ i < 16, realOf (x i) ≠ 0) :
    blockElem t rm given x w j = quantElem t (roundOf rm (w j)) neg m (e + 127 - (blockByte given x).toNat) := by
  have hzero : ¬ zeroBlock x = true := fun hz => by
    obtain ⟨i, hi, h0⟩ := h
    exact h0 ((zeroBlock_iff x).mp hz i hi).2
  rw [blockElem, hx]
  exact if_neg (not_or.mpr ⟨hbyte, hzero⟩)

theorem blockElem_lt (f : QFmt) (j : Nat) : (blockElem f.target rm given x w j).1 < if f = .e2m1 then 16 else 256 := by
  have hpos : 0 < if f = .e2m1 then 16 else 256 := by split <;> decide
  rw [blockElem]
  cases x j with
  | inf neg => exact hpos
  | nan => exact hpos
  | fin neg m e =>
    rw [quantOne]
    split
    · exact hpos
    · exact quantElem_lt f ..

end

/-! ### The whole register (R208) -/

theorem withDraws_map {α β : Type} (g : α → β) (l : List α) (ds : List W32) : withDraws (l.map g) ds = (withDraws l ds).map fun p => (g p.1, p.2) := by
  induction l generalizing ds with
  | nil => rfl
  | cons a l ih =>
    cases ds with
    | nil => exact congrArg ((g a, 0) :: ·) (ih [])
    | cons d ds => exact congrArg ((g a, d) :: ·) (ih ds)

section
variable (s : State) (f : QFmt) (v : BitVec 5) (r : BitVec 3) (n : BitVec 2) (given : Nat → Byte)

/-- The numbers of block `k` of the source. -/
def sourceBlock (k j : Nat) : Machine.Num := sourceNum s v (16 * k + j)

/-- The draws of block `k` of the source. -/
def drawBlock (k j : Nat) : W32 := if r.toNat = 4 then drawAt s n.toNat (16 * k + j) else 0

/-- Element `k` of the register, and its flags. -/
def elemAt (k : Nat) : Nat × XF :=
  blockElem f.target r.toNat (given (k / 16)) (sourceBlock s v (k / 16)) (drawBlock s r n (k / 16)) (k % 16)

/-- The blocks of the source with their draws. -/
theorem zip_chunks_source : List.zip (List.range 64) (chunks 16 64 (withDraws ((lanes 32 1024 (s.rv v)).map numF32) (s.roundDraws r.toNat n.toNat 1024).1)) =
    (List.range 64).map fun k => (k, (List.range 16).map fun j => (sourceBlock s v k j, drawBlock s r n k j)) := by
  have hall : withDraws ((lanes 32 1024 (s.rv v)).map numF32) (s.roundDraws r.toNat n.toNat 1024).1 =
      (List.range 1024).map fun j => (sourceNum s v j, if r.toNat = 4 then drawAt s n.toNat j else 0) := by
    rw [withDraws_map, lanes, withDraws_map, withDraws_below, List.map_map, List.map_map]
    rfl
  rw [hall, zip_range_chunks]
  refine List.map_congr_left fun k hk => congrArg (Prod.mk k) ?_
  have hk := List.mem_range.mp hk
  exact take_drop_map_range _ (by omega)

/-- Code `k` among those of the blocks one after another. -/
theorem getD_blockCodes {k : Nat} (hk : k < 1024) :
    ((List.range 64).flatMap fun k => (List.range 16).map fun j =>
      BitVec.ofNat 8 (blockElem f.target r.toNat (given k) (sourceBlock s v k) (drawBlock s r n k) j).1).getD k 0 =
      BitVec.ofNat 8 (elemAt s f v r n given k).1 := by
  have hget := getElem?_flatMap_const (w := 16) (l := List.range 64) (k := k / 16) (a := k / 16) (i := k % 16)
    (f := fun k => (List.range 16).map fun j => BitVec.ofNat 8 (blockElem f.target r.toNat (given k) (sourceBlock s v k) (drawBlock s r n k) j).1)
    (fun _ _ => by rw [List.length_map, List.length_range]) (List.getElem?_range (by omega)) (Nat.mod_lt _ (by decide))
  rw [Nat.div_add_mod] at hget
  rw [List.getD_eq_getElem?_getD, hget, List.getElem?_map, List.getElem?_range (Nat.mod_lt _ (by decide))]
  rfl

/-- The flags of the blocks together are those of the elements. -/
theorem getLsbD_blockFlags (z : Nat) :
    ((List.range 64).foldl (fun a k => a ||| ((List.range 16).map (blockElem f.target r.toNat (given k) (sourceBlock s v k) (drawBlock s r n k))).foldl
      (fun a p => a ||| p.2) 0) 0 : XF).getLsbD z = true ↔ ∃ k < 1024, (elemAt s f v r n given k).2.getLsbD z = true := by
  simp only [getLsbD_foldl_or, show (0 : XF).getLsbD z = false from BitVec.getLsbD_zero, Bool.false_or, List.any_map, List.any_eq_true, List.mem_range,
    Function.comp_apply]
  constructor
  · rintro ⟨k, hk, j, hj, h⟩
    refine ⟨16 * k + j, by omega, ?_⟩
    rwa [elemAt, show (16 * k + j) / 16 = k by omega, show (16 * k + j) % 16 = j by omega]
  · rintro ⟨k, hk, h⟩
    exact ⟨k / 16, by omega, k % 16, Nat.mod_lt _ (by decide), h⟩

end

/-- The scale that block `k` of a `qcvt` is given (R208). -/
def givenScale (s : State) (b : BitVec 1) (c : BitVec 4) (h : BitVec 1) (k : Nat) : Byte := if b = 1 then scaleFrom s c h k else el 8 s.regs.byp k

theorem roundDraws_regs (s : State) (rm k n : Nat) : (s.roundDraws rm k n).2.regs = s.regs := by
  rw [State.roundDraws]
  split <;> rfl

/-- `qcvt` (R208): the register's scales, codes and flags, block by block and element by element. -/
theorem qcvt_issues {s : State} {i : Instr} {f : QFmt} {q : BitVec 3} {v : BitVec 5} {r : BitVec 3} {n : BitVec 2} {b : BitVec 1} {c : BitVec 4} {h : BitVec 1}
    (hi : exec i s = s.qcvt f q v r n b c h) : ∃ (w : BitVec 8704) (fl : XF),
    qIssues i s { fieldDraws s r n 1024 with q := rput (physical s q) w s.nc.regs.q } (qOpOf s [] fl) [] ∧
    (∀ k < 64, el 8 w (1024 + k) = blockByte (givenScale s b c h k) (sourceBlock s v k)) ∧
    (∀ k < 1024, codeAt f w k = (elemAt s f v r n (givenScale s b c h) k).1) ∧
    ∀ z, fl.getLsbD z = true ↔ ∃ k < 1024, (elemAt s f v r n (givenScale s b c h) k).2.getLsbD z = true := by
  have hphys : (s.roundDraws r.toNat n.toNat 1024).2.qPhys q = physical s q := by
    rw [← State.qPhys_eq, State.qPhys, roundDraws_regs, State.qPhys]
  have hq : (fieldDraws s r n 1024).q = s.nc.regs.q := by
    rw [fieldDraws]
    split <;> rfl
  simp only [State.qcvt, zip_chunks_source, List.map_map, Function.comp_def, quantBlock_eq, List.flatMap_map, List.foldl_map, State.putQ, hphys] at hi
  have hissue := qIssues_of_draws_modR hi
  rw [hq] at hissue
  refine ⟨_, _, hissue, fun k hk => ?_, fun k hk => ?_, fun z => ?_⟩
  · rw [el_qPack_scale _ _ _ hk, getD_map_range _ hk]
    rfl
  · have hlt := blockElem_lt r.toNat (givenScale s b c h (k / 16)) (sourceBlock s v (k / 16)) (drawBlock s r n (k / 16)) f (k % 16)
    have hcode := getD_blockCodes s f v r n (givenScale s b c h) hk
    rw [codeAt_qPack _ _ _ hk]
    refine (congrArg (fun x : Byte => if f = .e2m1 then x.toNat % 16 else x.toNat) hcode).trans ?_
    change (elemAt s f v r n (givenScale s b c h) k).1 < _ at hlt
    rw [BitVec.toNat_ofNat]
    split at hlt
    · next hf => rw [if_pos hf]; omega
    · next hf => rw [if_neg hf]; omega
  · rw [← getLsbD_blockFlags s f v r n (givenScale s b c h) z]
    simp only [List.foldl_map]
    exact Iff.rfl

end Sys2Proof.Machine

namespace Sys2Proof.Claims

open Sys2Proof.Machine

theorem exec_quantForm {i : Instr} {f : QFmt} {q : BitVec 3} {v : BitVec 5} {r : BitVec 3} {n : BitVec 2} {b : BitVec 1} {c : BitVec 4} {h : BitVec 1}
    (hi : quantForm i = some (f, q, v, r, n, b, c, h)) (s : State) : exec i s = s.qcvt f q v r n b c h := by
  cases i with
  | qcvtE4m3 | qcvtE5m2 | qcvtE2m1 | qcvtS8 | qcvtBp8 => cases hi; rfl
  | _ => cases hi

theorem quantisedBlocksFillTheStagingRegister : QuantisedBlocksFillTheStagingRegister := by
  intro s i f q v r n b c h hi given
  obtain ⟨w, fl, hissue, hscale, hcode, hflags⟩ := qcvt_issues (exec_quantForm hi s)
  have hbyte : ∀ k < 1024, el 8 w (1024 + k / 16) = blockByte (givenScale s b c h (k / 16)) (sourceBlock s v (k / 16)) := fun k hk =>
    hscale (k / 16) (by omega)
  refine ⟨w, fl, fun k => (elemAt s f v r n (givenScale s b c h) k).2, hissue, fun k hk => ?_, fun k hk hz => ?_, fun k hk neg m e hne hx hnz => ?_, fun z => ?_⟩
  · rw [hscale k hk]
    exact blockGets_blockByte ..
  · rw [hbyte k hk] at hz
    rw [hcode k hk, elemAt, blockElem_of_zero _ _ _ _ _ _ (hz.imp_right And.right)]
  · have hx' : sourceBlock s v (k / 16) (k % 16) = .fin neg m e := by rw [sourceBlock, Nat.div_add_mod, hx]
    have hround : roundOf r.toNat (drawBlock s r n (k / 16) (k % 16)) = fieldRound s r n k := by
      rw [drawBlock, Nat.div_add_mod, fieldRound_eq]
    rw [hbyte k hk] at hne
    rw [hcode k hk, hbyte k hk]
    show isCode f _ neg m e _ (elemAt s f v r n (givenScale s b c h) k)
    rw [elemAt, blockElem_of_nonzero _ _ _ _ _ hne hx' hnz, hround]
    exact isCode_quantElem ..
  · rw [hflags]
    refine exists_congr fun k => and_congr_right fun hk => ⟨fun hbit => ?_, fun hbit => hbit.2.2⟩
    by_contra hno
    have hz : blockByte (givenScale s b c h (k / 16)) (sourceBlock s v (k / 16)) = 0xFF ∨ ∀ j < 16, realOf (sourceBlock s v (k / 16) j) = 0 := by
      by_contra hz
      obtain ⟨hne, hnz⟩ := not_or.mp hz
      push Not at hnz
      exact hno ⟨hbyte k hk ▸ hne, hnz, hbit⟩
    rw [elemAt, blockElem_of_zero _ _ _ _ _ _ hz] at hbit
    simp at hbit

/-- Settles O31: registers by their codes and scales, elements by the conversions between numbers and encodings. -/
theorem quantisedBlocksAreFormedAndRead : Obligations.QuantisedBlocksAreFormedAndRead :=
  ⟨quantisedBlocksFillTheStagingRegister, dequantisingAndConversions⟩

end Sys2Proof.Claims
end
